-- ==== Sys2Proof/Word.lean ====
section
/-! DEFINITION. The words of the block: bytes, halves, 32-bit words, 72-bit accumulators, and the type
of a sparse store (a list of key and value pairs). -/

namespace Sys2Proof

/-- A byte. -/
abbrev Byte := BitVec 8
/-- A 16-bit half. -/
abbrev Half := BitVec 16
/-- A 32-bit word: a data register, a mix word, a register of the block. -/
abbrev Word := BitVec 32
/-- A 64-bit word: a tick number, a counter. -/
abbrev Long := BitVec 64
/-- A 72-bit accumulator (R68). -/
abbrev Acc := BitVec 72

/-- A sparse store by key. Its canonical form (`Machine.Map.wf`): keys strictly rising, and no entry
equal to what an unlisted key reads as. -/
abbrev Map (α : Type) := List (Nat × α)

end Sys2Proof
end

