-- ==== Sys2Proof/Syntax.lean ====
section
/-! DEFINITION. The commands of the block: one constructor per row of spec/opcode_table.json. -/

namespace Sys2Proof

/-- Outcome of the ECC check of an access: no error, one bit corrected, or uncorrectable (R57). Whether
an error is present in the silicon is an input. -/
inductive Ecc where
  | ok | corrected | bad
  deriving DecidableEq, Repr

/-- The ECC outcomes of the words of one line, lowest address first: of a fetched bundle, its words 0 to 3 (R57), or of
the words a move reads (R54). -/
structure LineEcc where
  w0 : Ecc
  w1 : Ecc
  w2 : Ecc
  w3 : Ecc
  deriving DecidableEq, Repr

/-- A line read without error. -/
def LineEcc.ok : LineEcc := ⟨.ok, .ok, .ok, .ok⟩

/-- The reads of the words of a frame: whether one of them is uncorrectable, and which are corrected, by their place in
the frame (R57). -/
structure FrameReads where
  bad : Bool
  fixed : List Nat
  deriving DecidableEq, Repr

/-- The delay streamer's work for a section: the lines whose read does not complete (R369), and of its reads of X memory
the lines whose input frame is uncorrectable and, by line and place in the frame, the words corrected (R57); `link` has, by
line and place in the read window, the words read from DRAM whose link ECC corrects them, or finds an error that it cannot
correct (R363). -/
structure StreamReads where
  late : List Nat
  bad : List Nat := []
  fixed : List (Nat × Nat) := []
  link : List (Nat × Nat × Ecc) := []
  deriving DecidableEq, Repr

/-- The copy of a move: whether a word that it reads is uncorrectable, the words corrected, by memory (1 X, 2 Y) and
address (R57, R379), and the fabric cycle of tick t_x at which it is complete, 0 where that is before t_x begins (R379). -/
structure CopyReads where
  bad : Bool
  fixed : List (Nat × Nat) := []
  ends : Nat := 0
  deriving DecidableEq, Repr

/-- The reads of a gather: the destination's selector entry, the frame of the source it selects, and the frame of the
source a take is leaving (R159). -/
structure LatReads where
  sel : Ecc
  frame : Ecc
  old : Ecc
  deriving DecidableEq, Repr

/-- The summing reads of the Bench that meet an error: the crosspoints whose record is uncorrectable, and those whose
record is corrected (R137); the lane-cycles that the walk has waited for source frames (R116, R394); and the sources whose
frame meets an error (R159). -/
structure SumReads where
  bad : List Nat
  fixed : List Nat
  waited : Nat := 0
  frames : List (Nat × Ecc) := []
  deriving DecidableEq, Repr

/-- A gather of the Lattice: its destination, and what its reads meet (R146, R159). -/
structure DestGather where
  dest : Half
  reads : LatReads
  deriving DecidableEq, Repr

/-- The gather of a section of an engine: the slots whose reads meet an error (R102, R159). -/
structure SectionGather where
  second : Bool
  reads : List (Nat × LatReads)
  deriving DecidableEq, Repr

/-- A crosspoint whose move runs out, and what the summing reads up to it meet (R125, R137). -/
structure XpSum where
  xp : Fin 786432
  reads : SumReads
  deriving DecidableEq, Repr

/-- The bundle a slot operation belongs to: its engine, how many all-NOP bundles issue before it, the ECC
outcomes of its fetch, whether this is the last occupied slot of the bundle, and which of the all-NOP bundles,
counted from 0, met an ECC error at their fetch. -/
structure Issue where
  eng : Fin 16
  nops : Nat
  fetch : LineEcc
  last : Bool
  nopFetch : List (Nat × LineEcc) := []
  deriving DecidableEq, Repr

/-- Which MAC slot (R82). -/
inductive Lane where
  | mac0 | mac1
  deriving DecidableEq, Repr

/-- X memory from the X-move slot, or Y memory from the Y/ALU slot (R84). -/
inductive Side where
  | x | y
  deriving DecidableEq, Repr

/-- Address forms of R76: `[An]`, `[An++]`, `[An--]`, `[An+=Mn]`, `[An+Mn]`. -/
inductive AForm where
  | plain | inc | dec | addM | index
  deriving DecidableEq, Repr

/-- Width and register of a move (R54): one word of any register code, the pair D2n and D2n+1, or the quad
from D4n on. -/
inductive MoveReg where
  | w (code : BitVec 7)
  | l (pair : Fin 8)
  | q (quad : Fin 4)
  deriving DecidableEq, Repr

/-- Second operand of an ALU operation: a register or the signed 14-bit immediate (R85). -/
inductive AluSrc where
  | reg (y : Fin 16)
  | imm (i : BitVec 14)
  deriving DecidableEq, Repr

/-- Shift count: an immediate 0 to 31, or Dy[4:0] (R72). -/
inductive ShiftSrc where
  | reg (y : Fin 16)
  | imm (n : Fin 32)
  deriving DecidableEq, Repr

/-- Conditions of Bcc (R85). -/
inductive Cond where
  | eq | ne | lt | ge | gt | le | cs | cc | mi | pl | vs | vc
  deriving DecidableEq, Repr

/-- The slot a tick operation, mailbox write or local-register write comes through: the engine's program
or the fabric (R104). -/
inductive LocalPort where
  | engine | fabric
  deriving DecidableEq, Repr

/-- A receive direction of a port: a TDM direction, or an AES3 input (R207, R225). -/
inductive Dirn where
  | tdm (port : Fin 32) (tx : Bool)
  | aes (input : Fin 8)
  deriving DecidableEq, Repr

/-- A TDM frame: of the receive direction, as it came in, or (`tx`) of the transmit direction, as it is clocked out. The
bits of each slot, its BCLK periods, whether its frame-sync edge came at a point that could carry the next sample,
whether BCLK ran above 52 MHz (R217), the phase of its edge in 1/4,096 sample, the house sample its edge lies with,
counted from sample 0 of the present tick (R210), the system counter at the edge (R216), and the NCO offset its steering
gave (R220). -/
structure TdmFrame where
  tx : Bool := false
  raw : List Nat
  bclks : Nat
  timely : Bool
  fast : Bool
  phase : Int
  stamp : Nat
  nco : Int
  place : Nat := 0
  deriving DecidableEq, Repr

/-- An AES3 subframe: whether it is B, whether it starts a block, its 24 sample bits, validity and user bits,
and whether it had a biphase violation or a parity error (R225, R227). -/
structure AesSub where
  second : Bool
  start : Bool
  data : BitVec 24
  validity : Bool
  user : Bool
  biphase : Bool
  parity : Bool
  stamp : Nat
  deriving DecidableEq, Repr

/-- A buffer that can empty or fill (R220, R223, R226). -/
inductive Buffer where
  | asrc (ch : Fin 80)
  | follow (port : Fin 32) (tx : Bool)
  | aes (input : Fin 8)
  deriving DecidableEq, Repr

/-- A stream packet as it came in on a port: its destination MAC address, whether its frame is VLAN-tagged, addresses and
UDP ports, whether its IPv4 header
checksum verified, whether it was a fragment, whether its UDP checksum verified or was 0, the RTP fields, the
payload, the sample of the tick and the system counter at its arrival (R243, R245). -/
structure NetPacket where
  mac : BitVec 48
  tagged : Bool
  src : BitVec 32
  dst : BitVec 32
  dport : BitVec 16
  ipOk : Bool
  fragment : Bool
  udpOk : Bool
  version : Nat
  ptype : Nat
  ssrc : BitVec 32
  ts : BitVec 32
  payload : List Byte
  sample : Nat
  stamp : Nat
  deriving DecidableEq, Repr

/-- Where firmware has set up a software ring (R252): the address of its first descriptor, and how many it has. -/
structure RingPlace where
  base : BitVec 40
  size : Nat
  deriving DecidableEq, Repr

/-- A timestamp of a frame: seconds, nanoseconds and quarter-nanoseconds (R255). -/
structure FrameTime where
  sec : BitVec 48
  ns : BitVec 30
  qns : BitVec 2
  deriving DecidableEq, Repr

/-- A ring's descriptor by its place in the ring (R252). -/
structure RingSlot where
  place : RingPlace
  index : Nat
  deriving DecidableEq, Repr

/-- A frame of a transmit ring as it leaves: its time, and whether the read of its buffer met an error (R253, R255). -/
structure RingSend where
  time : FrameTime
  fault : Bool
  deriving DecidableEq, Repr

/-- A port that sends its next stream packet, and the cycles its packets have waited (R247, R394). -/
structure PortTurn where
  port : Fin 4
  waited : Nat
  deriving DecidableEq, Repr

/-- What a membership query asks about: a group, or 0 for all, and sources of it (R250). -/
structure GroupQuery where
  group : BitVec 32
  sources : List (BitVec 32)
  deriving DecidableEq, Repr

/-- The addresses of a frame at the control port (R188). -/
structure FrameAddr where
  src : BitVec 32
  dst : BitVec 32
  deriving DecidableEq, Repr

/-- Who sends an ARP request, and whether its frame is VLAN-tagged (R188). -/
structure ArpAsk where
  ip : BitVec 32
  vlan : Bool
  deriving DecidableEq, Repr

/-- Who sends an ICMP echo, and whether its frame is VLAN-tagged or a fragment (R188). -/
structure EchoAsk where
  ip : BitVec 32
  vlan : Bool
  fragment : Bool
  deriving DecidableEq, Repr

/-- The data of an Announce (R269, R272): domain, data set, and the synchronisation metadata TLV it carries. -/
structure Announce where
  domain : Byte
  priority1 : Byte
  clockClass : Byte
  accuracy : Byte
  variance : Half
  priority2 : Byte
  gm : Long
  steps : Half
  sender : Long
  tlv : Option (List Byte)
  deriving DecidableEq, Repr

/-- The link frame a received record belongs to (R321, R322): its sequence number, whether its CRC is good, and
whether this is the frame's first record. -/
structure LinkRec where
  seq : Nat
  good : Bool
  first : Bool
  deriving DecidableEq, Repr

/-- A HEARTBEAT (R329): the TICK of its header and its payload. -/
structure Beat where
  tick : Nat
  sec : Nat
  ns : Nat
  role : Byte
  quality : Byte
  gen : Word
  pairId : Word
  rate : Byte
  len : Byte
  lanes : Half
  planCrc : Word
  ack : Word
  uniqueId : Long
  swapTick : Nat
  deriving DecidableEq, Repr

/-- A value on the link: object, type code, subindex and the value in wire form (R185, R332). -/
structure WireVal where
  index : Half
  ty : Byte
  sub : Nat
  keyed : Bool
  value : List Byte
  deriving DecidableEq, Repr

/-- A mirror record (R332). -/
inductive MirRec where
  | write (gen tick : Nat) (val : WireVal)
  | stage (tick set slot : Nat) (changes : List WireVal)
  | setEnd (tick set reason id : Nat)
  | commit (tick id set land : Nat)
  | commitEnd (tick id code gen : Nat)
  | xpStep (tick xp sample event : Nat) (cur : Int)
  | gr (tick place base : Nat) (words : List Word)
  | placeCrc (tick : Nat) (crcs : List Word)
  | domain (gen tick index sub len : Nat) (hash : List Byte)
  deriving DecidableEq, Repr

/-- The state of one egress limiter on the link (R341): destination, g and the 4 held samples, oldest first. -/
structure LimState where
  dest : Half
  g : Word
  held : List Word
  deriving DecidableEq, Repr

/-- What a BULK frame carries (R341, R342), of frames that hold at most 8,192 bytes each (R321): the start of a snapshot with
its generation, a pair object value, a DOMAIN value or a piece of a longer one, changes of a pending commit, changes of an open
set with its credential slot, and the end; limiter states, and words of a place's state region from `base`, with whether they
are the last and whether the place runs. `role` stands for a frame of TYPE 0x03, which takes a number of the sequence and whose
payload the spec does not state. -/
inductive BulkPart where
  | start (gen : Nat)
  | value (val : WireVal)
  | domain (index sub : Nat) (data : List Byte)
  | piece (index sub total offset : Nat) (data : List Byte)
  | pending (id land : Nat) (changes : List WireVal)
  | openSet (set slot : Nat) (changes : List WireVal)
  | done
  | limiters (states : List LimState)
  | region (place base : Nat) (words : List Word) (last runs : Bool)
  | role
  deriving DecidableEq, Repr

/-- A frame of a planned swap as it comes in (R341): its place in the sequence, the TICK of its header, limiter states, and of
a state region whether these are its last words and whether the place runs on the door-holder. -/
structure SnapFrame where
  frame : LinkRec
  tick : Nat
  states : List LimState := []
  last : Bool := true
  runs : Bool := true
  deriving DecidableEq, Repr

/-- The result of a mirrored commit, with the generation given at its landing (R332). -/
structure EndCode where
  code : Nat
  gen : Nat := 0
  deriving DecidableEq, Repr

/-- A witness reply as it came in (R336): the 48 bytes, and the address and port it came from. -/
structure WitMsg where
  bytes : List Byte
  addr : BitVec 32
  port : BitVec 16
  deriving DecidableEq, Repr

/-- An operation of a command frame (R190), its code apart: TYPE, INDEX, COUNT, SUB [23:0], SUB [31:24], and what
follows its header. -/
structure Op where
  ty : Nat
  index : Nat
  count : Nat
  sub : Nat
  set : Nat
  data : List Byte
  deriving DecidableEq, Repr

/-- A transaction of a fabric master (R349): number of the master, direction, address, bytes per beat, beats and
write data; its 4-bit identifier (R350); the words that meet an ECC error, by fabric address; the fabric cycle of the tick at which it is carried out
(R105); cycles it waited for its grant, matrix stalls and owner stalls (R357), and cycles during which a DRAM request
queue is full of it (R394). -/
structure FabTx where
  master : Byte
  write : Bool
  addr : BitVec 40
  size : Nat
  beats : Nat
  data : List Byte
  id : Fin 16 := 0
  errs : List (Nat × Ecc) := []
  cycle : Nat
  waits : Nat
  stalls : Nat
  ownStalls : Nat
  fulls : Nat := 0
  deriving DecidableEq, Repr

/-- What an uncorrectable word of Bank D belongs to (R172, R181): nothing in use, a pending commit, an open set, or
an entry of the landing list, for a crosspoint or a destination. -/
inductive StageHit where
  | unused
  | pending (id : Nat)
  | openSet (n : Nat)
  | landingXp (i : Nat)
  | landingDest (d : Nat)
  deriving DecidableEq, Repr

/-- A firmware slot of the boot flash (R450): whether its record is valid, its SEQ and its image. -/
structure FwSlot where
  valid : Bool
  seq : Nat
  image : List Byte
  deriving DecidableEq, Repr

/-- What the bring-up finds (R447): the straps, which system PLLs lock, training of the two DRAM channels, whether
the devices report one supported size, that size (1, 2, 4 or 8 GiB a device) and the speed (6,400, 7,500 or 8,533 MT/s)
as R362 lists them, whether the flash responds and what was
programmed into its slots from outside, an uncorrectable memory fault with no spare row left, and the time to READY
in microseconds. -/
structure BringUp where
  straps : BitVec 3
  pllA : Bool
  pllB : Bool
  ddr0 : Bool
  ddr1 : Bool
  sizesOk : Bool
  size : Fin 4
  speed : Fin 3
  flash : Bool
  prog0 : Option FwSlot
  prog1 : Option FwSlot
  badMemory : Bool
  time : Nat
  deriving DecidableEq, Repr

/-- What JTAG debug halts (R421): an engine, or the housekeeping controller. -/
inductive HaltTarget where
  | engine (e : Fin 16)
  | controller
  deriving DecidableEq, Repr

/-- A register with no command of its own for its accesses (R10): of the host port, or a whole transaction of the host
port (R200: the two bytes of its command, the address, the data written, and the bytes to read), of an engine by byte
offset divided by 4, FAB_CTL, a word of a crosspoint record, or an entry of the selector table (R119, R147). -/
inductive Reg where
  | hostPort (off : BitVec 14)
  | hostBus (code inverse : Byte) (addr : BitVec 32) (data : List Byte) (len : Nat)
  | engine (eng : Fin 16) (off : BitVec 13)
  | fabCtl
  | record (xp : Fin 786432) (k : Fin 4)
  | selector (dest : Half)
  deriving DecidableEq, Repr

/-- The end of a ramp segment (R313): MEDSYN2 or MEDSYN3, and the edges the fence has dropped in the ramp up to here (R310). -/
structure RampEnd where
  syn : Fin 2
  drops : Nat := 0
  deriving DecidableEq, Repr

/-- The commands. Those with operands come first. -/
inductive Instr where
  /-- R69. -/
  | mpy (is : Issue) (lane : Lane) (a : Fin 4) (x y : Fin 16)
  /-- R69. -/
  | mac (is : Issue) (lane : Lane) (a : Fin 4) (x y : Fin 16)
  /-- R69. -/
  | msu (is : Issue) (lane : Lane) (a : Fin 4) (x y : Fin 16)
  /-- R69. -/
  | mpy2 (is : Issue) (lane : Lane) (a b : Fin 4) (x y u v : Fin 16)
  /-- R69. -/
  | mac2 (is : Issue) (lane : Lane) (a b : Fin 4) (x y u v : Fin 16)
  /-- R69. -/
  | msu2 (is : Issue) (lane : Lane) (a b : Fin 4) (x y u v : Fin 16)
  /-- R69. -/
  | dpy2 (is : Issue) (lane : Lane) (a : Fin 4) (x y u v : Fin 16)
  /-- R69. -/
  | dot2 (is : Issue) (lane : Lane) (a : Fin 4) (x y u v : Fin 16)
  /-- R69. -/
  | dsu2 (is : Issue) (lane : Lane) (a : Fin 4) (x y u v : Fin 16)
  /-- R70: accumulator pair 2e, register pairs D2x and D2y. -/
  | cmpy (is : Issue) (e : Fin 2) (x y : Fin 8)
  /-- R70. -/
  | cmac (is : Issue) (e : Fin 2) (x y : Fin 8)
  /-- R70. -/
  | cmpyj (is : Issue) (e : Fin 2) (x y : Fin 8)
  /-- R70. -/
  | cmacj (is : Issue) (e : Fin 2) (x y : Fin 8)
  /-- R54, R76. -/
  | ld (is : Issue) (side : Side) (form : AForm) (an : Fin 8) (reg : MoveReg) (ecc : LineEcc)
  /-- R54, R76. -/
  | st (is : Issue) (side : Side) (form : AForm) (an : Fin 8) (reg : MoveReg)
  /-- R73. -/
  | sta (is : Issue) (side : Side) (form : AForm) (an : Fin 8) (a : Fin 4)
  /-- R61, R62. -/
  | mov (is : Issue) (side : Side) (src dst : BitVec 7)
  /-- R84: `high` replaces bits [31:16] only. -/
  | ldi (is : Issue) (side : Side) (dst : BitVec 7) (high : Bool) (imm : Half)
  /-- R84, R104: `off` is the byte offset divided by 4. -/
  | ldl (is : Issue) (dst : BitVec 7) (off : BitVec 13)
  /-- R84, R104. -/
  | stl (is : Issue) (src : BitVec 7) (off : BitVec 13)
  /-- R72. -/
  | add (is : Issue) (z x : Fin 16) (src : AluSrc)
  /-- R72. -/
  | sub (is : Issue) (z x : Fin 16) (src : AluSrc)
  /-- R72. -/
  | adds (is : Issue) (z x : Fin 16) (src : AluSrc)
  /-- R72. -/
  | subs (is : Issue) (z x : Fin 16) (src : AluSrc)
  /-- R72. -/
  | andOp (is : Issue) (z x : Fin 16) (src : AluSrc)
  /-- R72. -/
  | orOp (is : Issue) (z x : Fin 16) (src : AluSrc)
  /-- R72. -/
  | xorOp (is : Issue) (z x : Fin 16) (src : AluSrc)
  /-- R72. -/
  | notOp (is : Issue) (z x : Fin 16)
  /-- R72. -/
  | asr (is : Issue) (z x : Fin 16) (src : ShiftSrc)
  /-- R72. -/
  | lsr (is : Issue) (z x : Fin 16) (src : ShiftSrc)
  /-- R72. -/
  | lsl (is : Issue) (z x : Fin 16) (src : ShiftSrc)
  /-- R72. -/
  | minOp (is : Issue) (z x : Fin 16) (src : AluSrc)
  /-- R72. -/
  | maxOp (is : Issue) (z x : Fin 16) (src : AluSrc)
  /-- R72. -/
  | absOp (is : Issue) (z x : Fin 16)
  /-- R72. -/
  | negOp (is : Issue) (z x : Fin 16)
  /-- R72. -/
  | cmp (is : Issue) (x : Fin 16) (src : AluSrc)
  /-- R72. -/
  | clr (is : Issue) (a : Fin 4)
  /-- R72. -/
  | adda (is : Issue) (a b : Fin 4)
  /-- R72, R85: the signed 7-bit n. -/
  | ash (is : Issue) (a : Fin 4) (n : BitVec 7)
  /-- R72. -/
  | ldacc (is : Issue) (a : Fin 4) (x : Fin 16)
  /-- R72, R73. -/
  | movw (is : Issue) (z : Fin 16) (a : Fin 4)
  /-- R91. -/
  | bra (is : Issue) (target : BitVec 13)
  /-- R91. -/
  | bcc (is : Issue) (cond : Cond) (target : BitVec 13)
  /-- R92. -/
  | call (is : Issue) (target : BitVec 13)
  /-- R92. -/
  | ret (is : Issue)
  /-- R97. -/
  | rti (is : Issue)
  /-- R91. -/
  | braDx (is : Issue) (x : Fin 16)
  /-- R93. -/
  | repImm (is : Issue) (count : Half)
  /-- R93. -/
  | repDx (is : Issue) (x : Fin 16)
  /-- R94. -/
  | doImm (is : Issue) (count : BitVec 11) (fin : BitVec 13)
  /-- R94. -/
  | doDx (is : Issue) (x : Fin 16) (fin : BitVec 13)
  /-- R95. -/
  | endl (is : Issue)
  /-- R94: the pop at LE. -/
  | loopExit (eng : Fin 16)
  /-- R100: `second` is WAITPHASE 4. -/
  | waitphase (is : Issue) (second : Bool)
  /-- R100: the fabric cycle of the tick at which the wait ends, and the cycles stalled. -/
  | waitphaseReturn (eng : Fin 16) (cycle stall : Nat)
  /-- R100. -/
  | doneOp (is : Issue)
  /-- R103. -/
  | postImm (is : Issue) (slot : Byte)
  /-- R103. -/
  | postDx (is : Issue) (x : Fin 16)
  /-- R103: the cycles stalled. -/
  | postStallEnd (eng : Fin 16) (stall : Nat)
  /-- R86: the bundle's bits. -/
  | illegalBundle (is : Issue) (bundle : BitVec 128)
  /-- R57: memory (0 P, 1 X, 2 Y) and word. -/
  | eccWriteback (eng : Fin 16) (mem : Fin 3) (word : Half)
  /-- R55: a retry of the tick DMA, or of the fabric port. -/
  | subbankRetry (eng : Fin 16) (fabric : Bool)
  /-- R97. -/
  | interruptTaken (eng : Fin 16)
  /-- R102: the reads of the slots that meet an error. -/
  | inputGatherDone (eng : Fin 16) (gather : SectionGather)
  /-- R103: the channel copies the frame at the head of the section's queue; the ECC outcome of its read. -/
  | outputFrameCopied (eng : Fin 16) (second : Bool) (reads : FrameReads)
  /-- R210, R217. -/
  | tdmFrameReceived (port : Fin 32) (frame : TdmFrame)
  /-- R217, R219. -/
  | tdmFsTimeout (port : Fin 32) (tx : Bool)
  /-- R218: the rate measured, in mHz. -/
  | rateWindow (dirn : Dirn) (rate : BitVec 32)
  /-- R217. -/
  | directionReturn (dirn : Dirn)
  /-- R212. -/
  | portFadeEnd (dirn : Dirn)
  /-- R222: the ratio learned, Q8.24. -/
  | asrcLocked (ch : Fin 80) (ratio : BitVec 32)
  /-- R223. -/
  | asrcUnderrun (buffer : Buffer)
  /-- R223. -/
  | asrcOverrun (buffer : Buffer)
  /-- R227. -/
  | aesSubframeReceived (input : Fin 8) (sub : AesSub)
  /-- R227: the blocks of both subframes, 24 bytes each, and whether their preambles were valid. -/
  | aesCsBlock (input : Fin 8) (blockA blockB : List Byte) (preambles : Bool)
  /-- R227. -/
  | aesPreambleTimeout (input : Fin 8)
  /-- R229. -/
  | aesNpcmReturn (input : Fin 8)
  /-- R219. -/
  | txFollowerClockReturn (port : Fin 32)
  /-- R243. -/
  | streamPacketReceived (port : Fin 4) (packet : NetPacket)
  /-- R247. `waited` is the cycles that the packet stood ready before its port took it (R394). -/
  | streamPacketSent (turn : PortTurn)
  /-- R251: the frame without its FCS, whether the FCS was good, its timestamp, and where firmware has set up the receive
  ring of its traffic, if it has. -/
  | ringFrameReceived (port : Fin 4) (frame : List Byte) (fcs : Bool) (time : FrameTime) (ring : Option RingPlace)
  /-- R252: the ring, where firmware has set it up, the index of the descriptor and whether the ring's TSMODE is OSC. -/
  | txDescriptorHandover (ring : Fin 32) (slot : RingSlot) (osc : Bool)
  /-- R255: the time of its first bit, and whether the read of its buffer met a fabric error (R253). -/
  | ringFrameSent (ring : Fin 32) (send : RingSend)
  /-- R236. -/
  | mediaArpRequest (port : Fin 4) (target : BitVec 32)
  /-- R250: of a receive stream, or of a transmit stream that is watched (R335). -/
  | igmpRepeat (stream : Fin 512) (watch : Bool)
  /-- R250: a query of one group, or of all where it is 0, and the sources it asks for, if any. -/
  | igmpQuery (port : Fin 4) (query : GroupQuery)
  /-- R256: the frame, its residence time in 2^−16 ns, and whether the port it is to leave on is still sending another
  (R247). -/
  | chainForward (port : Fin 4) (frame : List Byte) (residence : Nat) (busy : Bool)
  /-- R257. -/
  | linkDownDeclared (port : Fin 4)
  /-- R257. -/
  | linkUpDeclared (port : Fin 4)
  /-- R257. -/
  | legDown (stream : Fin 512) (leg : Fin 2)
  /-- R264: the reference measured, its offset in ns, the frequency estimate of the digital PLL in 2^−48, and for TENM_IN
  with PPS_IN the cycles of TENM_IN since the PPS edge before, where there was one (R281). -/
  | timeMeasurement (ref : Fin 6) (offset est : Int) (cycles : Option Nat)
  /-- R271: the domain, the offset and mean path delay measured, in ns, and the filtered difference of the legs
  (leg 2 less leg 1). -/
  | ptpSyncReceived (inst leg : Fin 2) (domain : Byte) (offset : Int) (delay : Nat) (diff : Int)
  /-- R272. -/
  | ptpAnnounceReceived (inst leg : Fin 2) (announce : Announce)
  /-- R272: on one leg. -/
  | ptpAnnounceTimeout (inst leg : Fin 2)
  /-- R273. -/
  | trigEdge (trig : Fin 8)
  /-- R273. -/
  | trigPulseEnd (trig : Fin 8)
  /-- R276: the edge and its time, in quarter nanoseconds since the epoch. -/
  | captEdgeStamp (input : Fin 4) (rising : Bool) (quarter : Nat)
  /-- R286: the 1-second average of each candidate that has one, and the holdover oscillator's own frequency
  against the crystal, in parts per 10^12. -/
  | refSecondAverage (avgs : List (Option Int)) (osc : Int)
  /-- R281. -/
  | refAbsent (ref : Fin 6)
  /-- R290. -/
  | refQualified (ref : Fin 6)
  /-- R301. -/
  | syspllLossOfLock (pll : Fin 2)
  /-- R302. -/
  | syspllHotLeafReady (pll : Fin 2)
  /-- R307: the VCO band found, and edges the fence dropped on the way (R310). -/
  | medsynLockDeclared (syn : Fin 4) (band : BitVec 12) (drops : Nat)
  /-- R308: with the edges the fence dropped. -/
  | medsynLossOfLock (syn : Fin 4) (drops : Nat)
  /-- R309: with the edges the fence dropped. -/
  | hopTimeout (syn : Fin 4) (drops : Nat)
  /-- R313: of MEDSYN2 or MEDSYN3. -/
  | rampSegmentEnd (ramp : RampEnd)
  /-- R316: the edge, its time in quarter nanoseconds since the epoch, how long the pin has held its new level in
  ns, and the dividers found out of phase, at 2 × their bits in CLK_SYNC_SET, and 1 more for the transmit direction of a TDM
  port. -/
  | syncEdge (falling : Bool) (quarter held : Nat) (wrong : BitVec 128)
  /-- R349. -/
  | fabricTransaction (tx : FabTx)
  /-- R352: the bursts of the master that had been granted. -/
  | masterReset (master : Byte) (granted : Nat)
  /-- R354: by a master other than the boot ROM's. -/
  | remap (value : Bool)
  /-- R359: bank 1 to 6, the outcome, and for Bank D what the word belongs to (R181). -/
  | bankScrubRead (bank : Fin 7) (ecc : Ecc) (hit : StageHit)
  /-- R366. -/
  | delayStream (place : Fin 16) (second : Bool) (reads : StreamReads)
  /-- R106. -/
  | mboxInMessage (eng : Fin 16) (words : List Word)
  /-- R105: by the engine's program, or through the fabric. -/
  | mboxAck (eng : Fin 16) (port : LocalPort)
  /-- R106. -/
  | mboxSend (eng : Fin 16) (port : LocalPort)
  /-- R106. -/
  | mboxOutCollect (eng : Fin 16)
  /-- R106: the engine's oldest message collected is a WRITE. -/
  | mboxWrite (eng : Fin 16)
  /-- R106: the engine's oldest message collected is an ALARM. -/
  | mboxAlarm (eng : Fin 16)
  /-- R106. -/
  | writeReply (eng : Fin 16)
  /-- R105. -/
  | softIrqSet (eng : Fin 16) (port : LocalPort)
  /-- R375: the second's readings of the engines and of the Bench lanes, in ps, and the die temperature in °C. -/
  | agingMonitorRead (engines lanes : List (Nat × Int)) (temp : Int)
  /-- R379. -/
  | moveCopy (reads : CopyReads)
  /-- R385: whether the test passed, and its reading of the aging monitor. -/
  | leafTestDone (eng : Fin 16) (pass : Bool) (slack : Int)
  /-- R387: the lane, and whether it failed its residue check. -/
  | laneRetire (lane : Fin 68) (residue : Bool)
  /-- R389: memory number, row, whether an uncorrectable error caused the repair, and the corrected errors of the
  row within 24 h. -/
  | rowRepairSwitch (memory : Nat) (row : Half) (bad : Bool) (counted : Nat)
  /-- R403: counter and value. -/
  | sePmuCntLo (eng : Fin 16) (k : Fin 4) (value : Word)
  /-- R403. -/
  | sePmuCntHi (eng : Fin 16) (k : Fin 4) (value : Word)
  /-- R429: the result code. -/
  | cueChecksDone (ch : Fin 2) (code : Fin 6)
  /-- R434. -/
  | cueLatch (ch : Fin 2)
  /-- R435. -/
  | cueRetry (ch : Fin 2)
  /-- R435. -/
  | cueRetryCountReset (ch : Fin 2)
  /-- R431. -/
  | cueOpenLoop (ch : Fin 2)
  /-- R432: the load's magnitude in 0.01 Ω and phase in 0.1°, the switching frequency in Hz, the output stage's
  temperature in 0.1 °C, BST_OUT and PVDD in 0.01 V. -/
  | sillReport (ch : Fin 2) (mag phase : Half) (fosc : Word) (temp : Int) (bst pvdd : Half)
  /-- R436: PVDD, or where `boost` BST_OUT. -/
  | cueSupplyFault (boost : Bool)
  /-- R436. -/
  | cueThermalFault (ch : Fin 2)
  /-- R436. -/
  | cueThermalReturn (ch : Fin 2)
  /-- R430. -/
  | cueFadeEnd (ch : Fin 2)
  /-- R415: the sources asserted for their filter time. -/
  | tamperAsserted (raw : BitVec 5)
  /-- R443, R447. -/
  | poresetRelease (up : BringUp)
  /-- R421. -/
  | jtagDebugHalt (target : HaltTarget)
  /-- R456: whether the flash reported an error. -/
  | bootFwFlashWriteDone (good : Bool)
  /-- R110. -/
  | engCtlAct (place : Fin 16)
  /-- R36: the ingress sources whose frames of the last tick are not handed over in time (R43). -/
  | tickBoundary (held : List Nat)
  /-- R43. -/
  | readerWaitEnd (gather : DestGather)
  /-- R37: fabric cycles the sequencer stood still. -/
  | sequencerRestart (cycles : Nat)
  /-- R125. -/
  | zcTimeoutStep (sum : XpSum)
  /-- R125. -/
  | rampMoveEnd (sum : XpSum)
  /-- R118. -/
  | busFrameWritten (bus : Fin 1024) (reads : SumReads)
  /-- R119. -/
  | benchScrubRead (xp : Fin 786432) (ecc : Ecc)
  /-- R131. -/
  | egressConvert (dest : Half)
  /-- R146. -/
  | latticeGather (gather : DestGather)
  /-- R153. -/
  | softTakeEnd (dest : Half)
  /-- R159: the selector of a destination, or the frame of a source by its age in ticks. -/
  | latticeScrubRead (selector : Bool) (id : Half) (age : Fin 3) (ecc : Ecc)
  /-- R172. -/
  | commitFreeze (id : Word)
  /-- R188. -/
  | commandFrameReceived (addr : FrameAddr) (sport dport : Half) (vlan fragment : Bool) (bytes : List Byte)
  /-- R196. -/
  | sessionTimeout (session : Fin 33)
  /-- R198. -/
  | notificationDue (session : Fin 33)
  /-- R202. -/
  | hpCmdGo (len : BitVec 11)
  /-- R203: the word written to HP_DPCTL, and the outcome of the fabric reads. -/
  | hpDpStart (ctl : Word) (errs : List (Nat × Ecc))
  /-- R203. -/
  | hpDpdataWrite (bytes : List Byte) (errs : List (Nat × Ecc))
  /-- R10. -/
  | registerWrite (reg : Reg) (value : Word)
  /-- R188. -/
  | controlArpRequest (target : BitVec 32) (ask : ArpAsk)
  /-- R188. -/
  | controlIcmpEcho (target : BitVec 32) (ask : EchoAsk) (payload : List Byte)
  /-- R329: whether the CRC was good, the offset of the frame from its due time in ns, and the lanes locked. -/
  | heartbeat (beat : Beat) (good : Bool) (offset : Int) (lanes : Half)
  /-- R323. -/
  | unrusLaneFailure (lane : Fin 3)
  /-- R333. -/
  | mirrorWrite (frame : LinkRec) (gen tick : Nat) (val : WireVal)
  /-- R332. -/
  | mirrorStage (frame : LinkRec) (tick set slot : Nat) (changes : List WireVal)
  /-- R332. -/
  | mirrorSetEnd (frame : LinkRec) (tick set reason id : Nat)
  /-- R333. -/
  | mirrorCommit (frame : LinkRec) (tick id set land : Nat)
  /-- R333. -/
  | mirrorCommitEnd (frame : LinkRec) (tick id : Nat) (code : EndCode)
  /-- R332. -/
  | mirrorXpStep (frame : LinkRec) (tick xp sample event : Nat) (cur : Int)
  /-- R332. -/
  | mirrorGr (frame : LinkRec) (tick place base : Nat) (words : List Word)
  /-- R341. -/
  | mirrorPlaceCrc (frame : LinkRec) (tick : Nat) (crcs : List Word)
  /-- R332. -/
  | mirrorDomain (frame : LinkRec) (gen tick index sub len : Nat) (hash : List Byte)
  /-- R342. -/
  | bulk (frame : LinkRec) (part : BulkPart)
  /-- R334. -/
  | digest (frame : LinkRec) (gen : Nat) (hash : List Byte)
  /-- R336. -/
  | grant (msg : WitMsg)
  /-- R336. -/
  | deny (msg : WitMsg)
  /-- R336. -/
  | keep (msg : WitMsg)
  /-- R340. -/
  | yield (msg : WitMsg)
  /-- R336. -/
  | witnessTimeout (nonce : Long)
  /-- R340: a packet from NET_SVC_ADDR: its port, source MAC address, destination address and port, and whether the
  other unit took the door within the last 64 ticks. -/
  | foreignCopy (port : Fin 4) (mac : BitVec 48) (dst : BitVec 32) (dport : Half) (took : Bool)
  /-- R341: what arrives: limiter states, or words of the state region of a place, from X word `base`. -/
  | swapSnapshot (snap : SnapFrame) (place : Option (Fin 16)) (base : Nat) (words : List Word)
  /-- R391. -/
  | unrusLaneRestore (lane : Fin 3)
  /-- R420: through JTAG, or by a READ of the object. -/
  | secDbgChallenge (jtag : Bool)
  /-- R420: the response through JTAG; none through the object. -/
  | secDbgResponse (jtag : Option (List Byte))
  /-- R265. -/
  | timeFirstStep
  /-- R295. -/
  | refHoldSpecExpiry
  /-- R286. -/
  | holdOscActivityLoss
  /-- R286. -/
  | holdOscReturn
  /-- R316. -/
  | syncHoldOffEnd
  /-- R354. -/
  | lock
  /-- R378. -/
  | movePrepared
  /-- R381. -/
  | moveCutover
  /-- R382. -/
  | coldMoveFlip
  /-- R383. -/
  | quietMoveFlip
  /-- R385. -/
  | leafTestTimer
  /-- R390. -/
  | repairFuseWrite
  /-- R436. -/
  | cueSupplyReturn
  /-- R408. -/
  | lcAdvanceDone
  /-- R421. -/
  | debugGrantExpiry
  /-- R411. -/
  | sealedCopyWrite
  /-- R444. -/
  | poresetAssert
  /-- R444. -/
  | sysresetN
  /-- R444. -/
  | supplyMonitorReset
  /-- R444. -/
  | watchdogReset
  /-- R444. -/
  | lockstepReset
  /-- R444. -/
  | jtagReset
  /-- R451: GO at stage 0x04. -/
  | hpBootDescriptor
  /-- R75. -/
  | engFlagsClr
  /-- R110. -/
  | run
  /-- R110. -/
  | stop
  /-- R110. -/
  | restart
  /-- R109. -/
  | engImage
  /-- R43. -/
  | p0Deadline
  /-- R44. -/
  | p1Deadline
  /-- R40. -/
  | phaseD2Open
  /-- R45. -/
  | p2Deadline
  /-- R118. -/
  | p3Deadline
  /-- R45. -/
  | p4Deadline
  /-- R44. -/
  | p5Deadline
  /-- R37. -/
  | houseRate
  /-- R37. -/
  | ticklen
  /-- R41. -/
  | phasePlan
  /-- R36. -/
  | keyedRestepTaken
  /-- R163. -/
  | directWriteLanding
  /-- R121. -/
  | busSatClr
  /-- R139. -/
  | limGrClr
  /-- R166. -/
  | stage
  /-- R170. -/
  | commit
  /-- R173. -/
  | abort
  /-- R174. -/
  | commitLanding
  /-- R338. -/
  | unownedSetExpiry
  /-- R190. -/
  | read
  /-- R191. -/
  | write
  /-- R190. -/
  | keepalive
  /-- R198. -/
  | subscribe
  /-- R198. -/
  | unsubscribe
  /-- R192. -/
  | openOp
  /-- R196. -/
  | closeOp
  /-- R197. -/
  | domOpen
  /-- R197. -/
  | domSeg
  /-- R197. -/
  | domClose
  /-- R202. -/
  | hpRspPop
  /-- R205. -/
  | ctlLogAck
  /-- R206. -/
  | ctlCredWrap
  /-- R206. -/
  | ctlCredPriv
  /-- R267. -/
  | timeRestep
  /-- R267. -/
  | timeSet
  /-- R297. -/
  | refPhaseStep
  /-- R297. -/
  | refPhaseForce
  /-- R302. -/
  | syspllSelect
  /-- R313. -/
  | rampStart
  /-- R314. -/
  | medsynOffset
  /-- R316. -/
  | clkSyncArm
  /-- R329. -/
  | heartbeatLoss
  /-- R322. -/
  | unrusRetransmit
  /-- R334. -/
  | auditTimer
  /-- R328. -/
  | take
  /-- R327. -/
  | join
  /-- R328. -/
  | isolate
  /-- R341. -/
  | swap
  /-- R334. -/
  | audit
  /-- R338. -/
  | doorTakeover
  /-- R338. -/
  | takeoverEnginesRun
  /-- R336. -/
  | witnessClaim
  /-- R336. -/
  | witnessHold
  /-- R340. -/
  | pairYield
  /-- R341. -/
  | swapTickPass
  /-- R341. -/
  | swapOutHoldEnd
  /-- R339. -/
  | swapIntervalExpiry
  /-- R393. -/
  | migrate
  /-- R393. -/
  | retire
  /-- R385. -/
  | test
  /-- R376. -/
  | restore
  /-- R391. -/
  | clearPll
  /-- R405. -/
  | pmuEngOvfClr
  /-- R405. -/
  | pmuOvfClr
  /-- R407. -/
  | secLcAdvance
  /-- R415. -/
  | secTamperClr
  /-- R421. -/
  | secDbgEnd
  /-- R418. -/
  | secImgPubkey
  /-- R418. -/
  | secImgKeyHash
  /-- R437. -/
  | clear
  /-- R437. -/
  | recheck
  /-- R446. -/
  | bootReset
  /-- R446. -/
  | bootResetAnyRole
  /-- R456. -/
  | bootFwImage
  /-- R454. -/
  | quietEnter
  /-- R455. -/
  | quietLeave
  /-- R334. -/
  | mirrorDigestComplete
  deriving DecidableEq, Repr

end Sys2Proof
end

