-- ==== Sys2Proof/Decode.lean ====
section
/-! DEFINITION. Reading a command from a word of the opcode table. No row of the table has bits: the commands of this
block are events and operations, not words. -/

namespace Sys2Proof

/-- The command a word spells: none, as the table gives no row any bits. -/
def decodeTableWord (_nbits _w : Nat) : Option Instr := none

end Sys2Proof
end

