-- ==== Sys2Proof/Config.lean ====
section
/-! DEFINITION. What the spec leaves to the device or to the instant: constants without a body, so that
nothing can evaluate them. Each is named in a row of the assumption log. -/

namespace Sys2Proof

/-- A value the spec leaves open, by the number of the draw. -/
opaque Config.free : Nat → Int
/-- UNIQUE_ID, per device, fused (R7). -/
opaque Config.uniqueId : Int
/-- The fabric cycle of the tick at which an access of the data port to an address is carried out: the spec gives the port no
timing (R203). -/
opaque Config.dpCycle : Nat → Nat → Nat
/-- CTL_MAC, per device, fused (R206). -/
opaque Config.ctlMac : Int
/-- NET_PORT_MAC of port p, per device, fused (R259). -/
opaque Config.netMac : Nat → Int
/-- Which of the gains within 2^−27 the device uses, by sample of a fade-in and of a fade-out (R27). -/
opaque Config.fadeIn : Nat → Nat
opaque Config.fadeOut : Nat → Nat

/-- The limiter's release factor kr, in 2^−64, by LIM_RELEASE and fs, before it is held to its bounds
(R132). -/
opaque Config.limKr : Nat → Nat → Nat
/-- Rounding of the released gain (R132), by gain and factor. -/
opaque Config.limRound : Nat → Nat → Nat
/-- Rounding of LIM_GR to a dB64 step, by gain (R139). -/
opaque Config.grRound : Nat → Nat
/-- The device's sine error at a phase, in 2^−30 of full scale (R157). -/
opaque Config.sineErr : Nat → Int
/-- Noise sample S of generator g at an RMS level of 1, in 2^−27 (R158). -/
opaque Config.noise : Nat → Nat → Int

/-- The source, and the tick buffer, of a slot of the Lattice's frame memory (R143). -/
opaque Config.frameSource : Nat → Nat
opaque Config.frameBuffer : Nat → Nat

/-- Which byte of what its owner keeps in a bank a byte address holds (R360), or of the stored copies of images in the
system region of DRAM (R364); none for any other byte. -/
opaque Config.bankPlace : Nat → Option Nat

/-- The worst path of the enabled handlers of an image that uses interrupts, plus 4 cycles: I of R107, which an image
does not carry. -/
opaque Config.handlerPath : List Byte → Nat

/-- Fabric cycles that an engine has waited in a WAITPHASE when it takes an interrupt there (R97), by number of the draw. -/
opaque Config.waitCycles : Nat → Nat

/-- Which of the delays of R222 an ASRC channel has, in foreign samples above 15: 0, 1 or 2. -/
opaque Config.asrcDelay : Nat → Nat
/-- An output sample of an ASRC channel (R222), by channel and number of the draw. -/
opaque Config.asrcSample : Nat → Nat → Int
/-- The CRCC of a channel-status block (R227, R228), which AES3 defines. -/
opaque Config.crcc : List Byte → Byte

/-- offsetScaledLogVariance of the unit's own clock (R270). -/
opaque Config.ptpVariance : Nat

/-- AES-CMAC of a message under a key, which NIST SP 800-38B defines (R193). -/
opaque Config.mac : List Byte → List Byte → Vector Byte 16
/-- The 16 bytes of the AES-CMAC of a message under a key. -/
def Config.cmac (key msg : List Byte) : List Byte := (Config.mac key msg).toList
/-- SHA-256 of a byte string, whose definition the spec leaves to its standard. -/
opaque Config.hash : List Byte → Vector Byte 32
/-- The 32 bytes of the SHA-256 of a byte string. -/
def Config.sha256 (b : List Byte) : List Byte := (Config.hash b).toList
/-- Whether an ECDSA P-256 signature (third) of a message (second) verifies under a public key (R418). -/
opaque Config.ecdsaOk : List Byte → List Byte → List Byte → Bool
/-- The key that a wrapped key holds under a wrapping key, which RFC 3394 defines; none where the integrity check
fails (R206). -/
opaque Config.unwrap : List Byte → List Byte → Option (List Byte)
/-- K_dev (R410), per device, fused. -/
opaque Config.kDev : List Byte
/-- The Celrilan firmware and analysis key hashes held in the boot ROM (R410). -/
opaque Config.fwKeyHash : List Byte
opaque Config.analysisKeyHash : List Byte
/-- How the planned boost rail decays toward its target over one sample (R428): by rail, target and fs. -/
opaque Config.boostDecay : Nat → Nat → Nat → Nat
/-- A byte of the boot ROM (R353). -/
opaque Config.rom : Nat → Byte

/-- RSV_ROWS of a memory, and RSV_REPAIR_FUSES, per device (R393): spare rows used and free, entries used. -/
opaque Config.spareRows : Nat → Nat
opaque Config.repairFuses : Nat
/-- What the aging monitors of an engine, and of the lanes, report before they have been read (R393). -/
opaque Config.engSlack : Nat → Int
opaque Config.laneSlack : Int

end Sys2Proof
end

