-- ==== Sys2Proof/Machine/EngineState.lean ====
section
/-! DEFINITION. The state of one Yanik engine: register file, memories, results in flight, control flow,
engine-local registers, sections and output queues (chapters 03, 04 and 17). -/

namespace Sys2Proof.Machine

/-- SE_STATE.STATE (R105). -/
inductive EngRun where
  | idle | running | waiting | halted | leaf
  deriving DecidableEq, Repr

/-- The three forms of a MAC-slot operation (R69): `:=`, `+=`, `−=`. -/
inductive MacOp where
  | load | add | sub
  deriving DecidableEq, Repr

/-- One result on its way to where it lands (R88). -/
inductive Eff where
  /-- A write of the register with this code (R62). -/
  | reg (code : BitVec 7) (v : Word)
  /-- The address unit takes up a register written by a move (R88, third address row). -/
  | view (code : BitVec 7) (v : Word)
  /-- Post-modification of An (R76). -/
  | post (n : Fin 8) (v : Half)
  /-- N and Z, and C and V where the operation sets them (R72). -/
  | flags (n z : Bool) (cv : Option (Bool × Bool))
  /-- Sticky flags set (R74). -/
  | sticky (av sv cv : Bool)
  /-- A store of one word to X (`false`) or Y (`true`) memory. -/
  | mem (y : Bool) (addr : Nat) (v : Word)
  /-- A program write of an engine-local register, by byte offset. -/
  | loc (off : Nat) (v : Word)
  /-- What a program's read of an engine-local register latches: TICK_HI, or the high half of a counter (R105, R398). -/
  | latch (off : Nat) (v : Word)
  /-- LC, LS and LE as DO or ENDL sets them (R94, R95). -/
  | loop (lc : Half) (ls le : BitVec 13)
  /-- A whole accumulator, with AV when the value was clamped. -/
  | acc (a : Fin 4) (v : Int) (av : Bool)
  /-- A MAC-slot result: it reads its accumulator in the cycle in which it lands (R88). -/
  | macc (a : Fin 4) (op : MacOp) (c : Int)
  deriving DecidableEq, Repr

/-- A result in flight: the engine cycle at whose end it lands, the issue number of its bundle and its
slot (0 MAC0, 1 MAC1, 2 X-move, 3 Y/ALU), which order landings of one cycle (R63). -/
structure Landing where
  due : Nat
  seq : Nat
  slot : Nat
  eff : Eff
  deriving DecidableEq, Repr

/-- The engine counters of one place (R394, R403). -/
structure EngPmu where
  cnt : Vector (BitVec 48) 4
  evt : Vector Byte 4
  en : BitVec 4
  irq : BitVec 4
  ovf : BitVec 4
  user : Bool
  ovfPc : BitVec 13
  ovfCnt : BitVec 2
  /-- High halves staged for the next write of the low half (R403). -/
  staged : Vector Half 4
  /-- High halves latched by the engine port (R398). -/
  latchE : Vector Half 4
  /-- High halves latched by the fabric port (R398). -/
  latchF : Vector Half 4
  deriving DecidableEq, Repr

def EngPmu.reset : EngPmu :=
  { cnt := Vector.replicate 4 0, evt := Vector.replicate 4 0, en := 0, irq := 0, ovf := 0,
    user := false, ovfPc := 0, ovfCnt := 0, staged := Vector.replicate 4 0,
    latchE := Vector.replicate 4 0, latchF := Vector.replicate 4 0 }

/-- The engine-local registers that hold state of their own (R105). -/
structure EngLocal where
  tickHi : Word
  fault : BitVec 5
  page : Bool
  irqEn : BitVec 3
  softPend : Bool
  pmuPend : Bool
  ira : BitVec 13
  isr : Word
  inMsg : Vector Word 8
  inValid : Bool
  inLen : BitVec 4
  outMsg : Vector Word 8
  outFull : Bool
  outDrop : Bool
  outLen : BitVec 4
  outDrops : Half
  /-- SE_INMAP words by slot. -/
  inMap : Map Word
  /-- SE_OUTMAP words by slot. -/
  outMap : Map Word
  pmu : EngPmu
  deriving DecidableEq, Repr

def EngLocal.reset : EngLocal :=
  { tickHi := 0, fault := 0, page := false, irqEn := 0, softPend := false, pmuPend := false,
    ira := 0, isr := 0, inMsg := Vector.replicate 8 0, inValid := false, inLen := 0,
    outMsg := Vector.replicate 8 0, outFull := false, outDrop := false, outLen := 0, outDrops := 0,
    inMap := [], outMap := [], pmu := EngPmu.reset }

/-- The register file (R58 to R66), with the address unit's own view of the address registers, which
moves reach one cycle late (R88). -/
structure RegFile where
  d : Vector Word 16
  a : Vector Half 8
  m : Vector Half 8
  l : Vector (BitVec 17) 8
  b : Vector Half 8
  acc : Vector Acc 4
  lc : Half
  ls : BitVec 13
  le : BitVec 13
  av : Bool
  sv : Bool
  cv : Bool
  n : Bool
  z : Bool
  c : Bool
  v : Bool
  ie : Bool
  shift : BitVec 6
  amode : Half
  /-- The address unit's view. -/
  va : Vector Half 8
  vm : Vector Half 8
  vl : Vector (BitVec 17) 8
  vb : Vector Half 8
  vmode : Half
  deriving DecidableEq, Repr

/-- The reset values of the Register file table (R59). -/
def RegFile.reset : RegFile :=
  { d := Vector.replicate 16 0, a := Vector.replicate 8 0, m := Vector.replicate 8 0,
    l := Vector.replicate 8 0, b := Vector.replicate 8 0, acc := Vector.replicate 4 0,
    lc := 0, ls := 0, le := 0, av := false, sv := false, cv := false, n := false, z := false,
    c := false, v := false, ie := false, shift := 27, amode := 0,
    va := Vector.replicate 8 0, vm := Vector.replicate 8 0, vl := Vector.replicate 8 0,
    vb := Vector.replicate 8 0, vmode := 0 }

/-- A branch whose delay slots are issuing (R91): slots left, the target where it is taken, and whether
it is an RTI. -/
structure Branch where
  left : Nat
  target : Option (BitVec 13)
  rti : Bool
  deriving DecidableEq, Repr

/-- What the bundle being issued does to the flow of control at its end. -/
inductive FlowOp where
  | branch (target : Option (BitVec 13)) (rti : Bool)
  | rep (count : Nat)
  | doLoop (count : Nat) (fin : BitVec 13)
  | endl
  | wait (section2 : Bool)
  | done (section2 : Bool)
  deriving DecidableEq, Repr

/-- An image loaded into an engine, with the privilege that loaded it (R106, R108). -/
structure Image where
  raw : List Byte
  priv : Nat
  deriving DecidableEq, Repr

/-- What an engine cycle reports outside the engine: an engine counter has set its overflow flag (R404), an
outgoing message was dropped (R106), `n` words were corrected (R57), or DONE of a section was signalled with these
sticky flags (R75). -/
inductive EngSig where
  | overflow (k : Fin 4)
  | mboxDrop
  | fixed (n : Nat)
  | done (second av sv cv : Bool)
  deriving DecidableEq, Repr

/-- What the slots of the bundle being issued have been found to hold: an operation of MAC1, a complex form (R83, R86),
the words its loads corrected, and whether one of its loads met an uncorrectable word (R57). -/
structure Bundle where
  mac1 : Bool
  complex : Bool
  fixed : List (Nat × Nat)
  bad : Bool
  deriving DecidableEq, Repr

/-- A bundle of which no slot has been commanded. -/
def Bundle.reset : Bundle := { mac1 := false, complex := false, fixed := [], bad := false }

/-- A word that the other port of X (`y` false) or Y memory writes in the cycle of a bundle: it lands at the end of
engine cycle `due`, after the engine's own stores (R55). `fabric`: a fabric access, otherwise the tick DMA. -/
structure PortWrite where
  due : Nat
  fabric : Bool
  y : Bool
  addr : Nat
  v : Word
  deriving DecidableEq, Repr

/-- One physical engine, with what belongs to the place it holds (R374). -/
structure Engine where
  run : EngRun
  image : Option Image
  rf : RegFile
  loc : EngLocal
  x : Map Word
  y : Map Word
  /-- P memory by word: word i of bundle k at 4 × k + i (R57). -/
  p : Map Word
  /-- Corrected words awaiting write-back (R57): memory (0 P, 1 X, 2 Y) and word address. -/
  fix : List (Nat × Nat)
  /-- Engine cycles issued since start; results in flight are timed by it. -/
  cyc : Nat
  /-- Fabric cycle of the tick that the engine has reached. -/
  tcyc : Nat
  seq : Nat
  flight : List Landing
  /-- A bundle is being issued: some slot of it has been commanded. -/
  inBundle : Bool
  /-- What the slots of that bundle hold. -/
  cur : Bundle
  /-- Writes of the other port of X and Y memory that have yet to land (R55). -/
  port : List PortWrite
  /-- Sub-banks the engine port accesses in the present cycle: whether of Y memory, and which (R55). -/
  busy : List (Bool × Nat)
  /-- Flow, loop or tick operation of the bundle being issued. -/
  flow : Option FlowOp
  /-- Events of the bundle being issued, by event number (R394). -/
  events : List (Nat × Nat)
  /-- Next bundle to issue. -/
  pc : BitVec 13
  /-- Bundle last issued (SE_STATE.PC). -/
  lastPc : BitVec 13
  /-- The bundle issued before it, which SE_STATE.PC names while a WAITPHASE waits. -/
  prevPc : BitVec 13
  /-- The coming boundary follows a REP or DO whose count was 0: no interrupt is taken there (R98). -/
  noInt : Bool
  branch : Option Branch
  /-- The target of an RTI is reached at the end of this cycle (R97). -/
  rtiDue : Bool
  /-- Issues left of the bundle under REP; 0 outside a REP. -/
  rep : Nat
  /-- A loop whose count has run out at LE waits to be popped (R94). -/
  exitDue : Bool
  /-- Loop stack, innermost first: LC, LS, LE as pushed (R94). -/
  loops : List (Half × BitVec 13 × BitVec 13)
  /-- Return stack, newest first (R92). -/
  calls : List (BitVec 13)
  /-- Section the WAITPHASE in progress waits for: 1 or 2; 0 when not waiting. -/
  waitFor : Nat
  /-- Open section: 0 none, 1, 2. -/
  sec : Nat
  ran1 : Bool
  ran2 : Bool
  gather1 : Bool
  gather2 : Bool
  /-- Slots posted in the open section. -/
  posted : List Nat
  /-- Frames queued on CH1 and CH3, oldest first: slot and tag (R103). -/
  q1 : List (Nat × Nat)
  q2 : List (Nat × Nat)
  /-- A POST stalled on a full queue: its slot. -/
  stalled : Option Nat
  /-- Samples of output fade-in still to run after a start (R102). -/
  fadeIn : Nat
  /-- A STOP has left it IDLE: its outputs are substituted (R110). -/
  subst : Bool
  deriving DecidableEq, Repr

/-- An engine at reset: registers of R59, memories zero (R58), no image. -/
def Engine.reset : Engine :=
  { run := .idle, image := none, rf := RegFile.reset, loc := EngLocal.reset,
    x := [], y := [], p := [], fix := [], cyc := 0, tcyc := 0, seq := 0, flight := [],
    inBundle := false, cur := Bundle.reset, port := [], busy := [], flow := none, events := [], pc := 0, lastPc := 0, prevPc := 0, noInt := false, branch := none, rtiDue := false, rep := 0,
    exitDue := false, loops := [], calls := [], waitFor := 0, sec := 0, ran1 := false, ran2 := false,
    gather1 := false, gather2 := false, posted := [], q1 := [], q2 := [], stalled := none, fadeIn := 0, subst := false }

end Sys2Proof.Machine
end

