-- ==== Sys2Proof/Machine/Flags.lean ====
section
/-! DEFINITION. Every flag and saturation of the engine datapath: the accumulator clamp (R68), the store
window (R73), the ALU results and their N, Z, C and V (R64, R72), and the branch conditions (R85). -/

namespace Sys2Proof.Machine

/-- The largest accumulator value. -/
def accMax : Int := 2 ^ 71 - 1
/-- The smallest accumulator value. -/
def accMin : Int := -(2 ^ 71)

/-- The clamp of R68: the value kept, and whether AV is set. -/
def clampAcc (r : Int) : Int × Bool :=
  if accMax < r then (accMax, true)
  else if r < accMin then (accMin, true)
  else (r, false)

/-- The window of R73 on an exact integer, at `shift`: the 32-bit word and whether it saturated. The
Bench uses it at 28 (R121). -/
def window (v : Int) (shift : Nat) : Word × Bool :=
  let q := v / (2 : Int) ^ shift
  if 2 ^ 31 - 1 < q then (0x7FFFFFFF, true)
  else if q < -(2 ^ 31) then (0x80000000, true)
  else (BitVec.ofInt 32 q, false)

/-- A value saturated to 32 bits (ADDS, SUBS, ABS, NEG of R72). -/
def sat32 (r : Int) : Word × Bool :=
  if 2 ^ 31 - 1 < r then (0x7FFFFFFF, true)
  else if r < -(2 ^ 31) then (0x80000000, true)
  else (BitVec.ofInt 32 r, false)

/-- N of R64. -/
def flagN (r : Word) : Bool := r.msb
/-- Z of R64. -/
def flagZ (r : Word) : Bool := r == 0

/-- C of an add: the carry out of bit 31 (R64). -/
def carryAdd (x y : Word) : Bool := decide (2 ^ 32 ≤ x.toNat + y.toNat)
/-- C of a subtract or compare: 1 when no borrow is needed (R64). -/
def carrySub (x y : Word) : Bool := decide (y.toNat ≤ x.toNat)
/-- V of a wrapping add: the exact sum is not the word's (R64). -/
def overAdd (x y : Word) : Bool := (x + y).toInt != x.toInt + y.toInt
/-- V of a wrapping subtract (R64). -/
def overSub (x y : Word) : Bool := (x - y).toInt != x.toInt - y.toInt

/-- A condition of Bcc, on the flags at the start of the issue cycle (R85, R91). -/
def condHolds (r : RegFile) (c : Cond) : Bool :=
  match c with
  | .eq => r.z
  | .ne => !r.z
  | .lt => r.n != r.v
  | .ge => r.n == r.v
  | .gt => !r.z && r.n == r.v
  | .le => r.z || r.n != r.v
  | .cs => r.c
  | .cc => !r.c
  | .mi => r.n
  | .pl => !r.n
  | .vs => r.v
  | .vc => !r.v

end Sys2Proof.Machine
end

