-- ==== Sys2Proof/Machine/Store.lean ====
section
/-! DEFINITION. Sparse stores: reading and writing one key of a list of key and value pairs kept in one
canonical form, and the small list helpers the block's tables use. -/

namespace Sys2Proof.Machine

/-- The first entry listed at key `k`. -/
def mapFind {α : Type} (k : Nat) : Map α → Option α
  | [] => none
  | (k', v) :: t => if k' = k then some v else mapFind k t

/-- What key `k` reads as: its entry, or `d k` where none is listed. -/
def mapGet {α : Type} (d : Nat → α) (k : Nat) (m : Map α) : α :=
  (mapFind k m).getD (d k)

/-- List `v` at key `k`, keeping the keys strictly rising. -/
def mapPut {α : Type} (k : Nat) (v : α) : Map α → Map α
  | [] => [(k, v)]
  | (k', v') :: t =>
    if k < k' then (k, v) :: (k', v') :: t
    else if k' = k then (k, v) :: t
    else (k', v') :: mapPut k v t

/-- Remove the entry of key `k`. -/
def mapErase {α : Type} (k : Nat) : Map α → Map α
  | [] => []
  | (k', v') :: t => if k' = k then mapErase k t else (k', v') :: mapErase k t

/-- Make key `k` read as `v`. A value equal to what an unlisted key reads as removes the entry. -/
def mapSet {α : Type} [DecidableEq α] (d : Nat → α) (k : Nat) (v : α) (m : Map α) : Map α :=
  if v = d k then mapErase k m else mapPut k v m

/-- Every key of `m` lies above `lo`, the keys rise strictly, and no entry equals the default. -/
def mapWfFrom {α : Type} [DecidableEq α] (d : Nat → α) : Option Nat → Map α → Bool
  | _, [] => true
  | lo, (k, v) :: t =>
    (match lo with
      | none => true
      | some l => decide (l < k)) && decide (v ≠ d k) && mapWfFrom d (some k) t

/-- The canonical form of a sparse store. -/
def mapWf {α : Type} [DecidableEq α] (d : Nat → α) (m : Map α) : Bool :=
  mapWfFrom d none m

/-- Element `i` of a list, or `d` beyond its end. -/
def listGet {α : Type} (d : α) (i : Nat) (l : List α) : α :=
  (l[i]?).getD d

/-- Replace element `i` of a list; beyond its end nothing changes. -/
def listSet {α : Type} (i : Nat) (v : α) (l : List α) : List α :=
  l.set i v

/-- Apply `f` `n` times. -/
def iterate {α : Type} (f : α → α) : Nat → α → α
  | 0, x => x
  | n + 1, x => iterate f n (f x)

/-- Fold `f` over `0, 1, …, n − 1`. -/
def forN {α : Type} (f : Nat → α → α) : Nat → α → α
  | 0, x => x
  | n + 1, x => f n (forN f n x)

/-- The numbers from `a` on, `n` of them. -/
def upFrom (a : Nat) : Nat → List Nat
  | 0 => []
  | n + 1 => a :: upFrom (a + 1) n

/-- The bytes of a natural number, least significant first, `n` of them. -/
def bytesLE : Nat → Nat → List Byte
  | 0, _ => []
  | n + 1, x => BitVec.ofNat 8 x :: bytesLE n (x / 256)

/-- The natural number a list of bytes spells, least significant first. -/
def natLE : List Byte → Nat
  | [] => 0
  | b :: t => b.toNat + 256 * natLE t

/-- The natural number a list of bytes spells, most significant first. -/
def natBE (l : List Byte) : Nat :=
  natLE l.reverse

/-- The bytes of a natural number, most significant first, `n` of them. -/
def bytesBE (n x : Nat) : List Byte :=
  (bytesLE n x).reverse

/-- `ceil(a ÷ b)`, with `b` at least 1. -/
def ceilDiv (a b : Nat) : Nat :=
  (a + (b - 1)) / b

end Sys2Proof.Machine
end

