-- ==== Sys2Proof/Machine/Numeric.lean ====
section
/-! DEFINITION. Exact numeric functions of the spec: linear gains of dB64 values (R122), the limiter's
ceiling, gain and release (R132), the sine of the tone generators (R157), egress conversion (R24). -/

namespace Sys2Proof.Machine

/-- The largest `m < lo + 2 ^ n` from `lo` on for which `p` holds, where `p lo` holds and `p` is false from
some point on: bisection over `n` bits. -/
def bisect (p : Nat → Bool) : Nat → Nat → Nat
  | 0, lo => lo
  | n + 1, lo => bisect p n (if p (lo + 2 ^ n) then lo + 2 ^ n else lo)

/-- Whether `num ÷ den` is at most `10 ^ (d ÷ 1280)`, `num`, `den` positive: both sides raised to 1280. -/
def leDb (num den : Nat) (d : Int) : Bool :=
  decide (num ^ 1280 * 10 ^ (-d).toNat ≤ den ^ 1280 * 10 ^ d.toNat)

/-- The linear Q4.28 gain of a dB64 value and polarity (R122). 0x8000, held as −32,768, is off. -/
def gainOf (d : Int) (pol : Bool) : Int :=
  let m : Nat :=
    if d = -32768 then 0
    else bisect (fun m => m == 0 || leDb (2 * m - 1) (2 ^ 29) d) 31 0
  if pol then -(m : Int) else m

/-- The ceiling C of a limiter as a mix word: floor(2^27 × 10^(d ÷ 1280)), d at most 0 (R132). -/
def ceilingOf (d : Int) : Nat :=
  bisect (fun m => leDb m (2 ^ 27) d) 28 0

/-- q[n] of a limiter in 2^−31 (R132). -/
def limQ (c : Nat) (x : Word) : Nat :=
  let m := x.toInt.natAbs
  if m ≤ c then 2 ^ 31 else 2 ^ 31 * c / m

/-- The nested sum 1 − x/(j + 1) × (1 − x/(j + 2) × …), `n` levels deep, of x = a ÷ d, as a fraction. -/
def expTail (a d : Nat) : Nat → Nat → Nat × Nat
  | 0, _ => (1, 1)
  | n + 1, j =>
    let (p, q) := expTail a d n (j + 1)
    (d * (j + 1) * q - a * p, d * (j + 1) * q)

/-- The limiter's kr in 2^−64: within 1 % of 1 − exp(−1,000 ÷ (LIM_RELEASE × fs)) and never above it
(R132). The exact value lies above the series cut after 10 terms and below it cut after 11. -/
def limKr (release fs : Nat) : Nat :=
  let d := release * fs
  let (p, q) := expTail 1000 d 9 1
  let (p1, q1) := expTail 1000 d 10 1
  let hi := 2 ^ 64 * 1000 * p / (d * q)
  let lo := ceilDiv (99 * 2 ^ 64 * 1000 * p1) (100 * d * q1)
  max lo (min hi (Config.limKr release fs))

/-- The released gain (R132): g + (1 − g) × kr, at most 1. -/
def limRelease (g kr : Nat) : Nat :=
  min (2 ^ 31) (g + ((2 ^ 31 - g) * kr / 2 ^ 64) + Config.limRound g kr % 2)

/-- g[n] of a limiter from g[n − 1], kr and q[n], …, q[n − 4] (R132). -/
def limGain (g kr : Nat) (qs : List Nat) : Nat :=
  let cand (j : Nat) : Int := (g : Int) + Int.tdiv ((listGet 0 j qs : Nat) - (g : Int)) (5 - (j : Int))
  ((upFrom 0 5).foldl (fun m j => min m (cand j)) (limRelease g kr : Int)).toNat

/-- A mix word times a limiter gain, truncated toward zero (R132). -/
def limApply (x : Word) (g : Nat) : Word :=
  BitVec.ofInt 32 (Int.tdiv (x.toInt * (g : Int)) (2 ^ 31))

/-- LIM_GR of a gain: 20 log10 g in dB64, 0 or below (R139); the rounding to a step is the device's. -/
def grOf (g : Nat) : Int :=
  if 2 ^ 31 ≤ g then 0
  else
    let n := bisect (fun n => decide (g ^ 1280 * 10 ^ n ≤ 2 ^ (31 * 1280))) 15 0
    (-1 : Int) * ((n : Int) + (Config.grRound g % 2 : Nat))

/-- Egress conversion to `w` bits, and whether it saturated (R24). -/
def convertOut (w : Nat) (m : Word) : Int × Bool :=
  let t := m.toInt / (2 : Int) ^ (28 - w)
  let hi : Int := 2 ^ (w - 1) - 1
  let lo : Int := -(2 ^ (w - 1))
  if hi < t then (hi, true) else if t < lo then (lo, true) else (t, false)

/-- Ingress conversion of a sample of `w` bits (R23). -/
def convertIn (w : Nat) (sample : Int) : Word :=
  BitVec.ofInt 32 (sample * (2 : Int) ^ (28 - w))

/-- The Taylor sum of sin(x) for x in [0, π/2], in 2^−60, `n` further terms from term `t` of degree `d`. -/
def sinTerms (x2 : Int) : Nat → Int → Int → Int
  | 0, _, _ => 0
  | n + 1, t, d => t + sinTerms x2 n (-(t * x2 / 2 ^ 60 / ((d + 1) * (d + 2)))) (d + 2)

/-- sin(2π × phase ÷ 2^32) in 2^−30, within 2^−25 of full scale (R157): the exact series to 11 terms, plus
the device's own error. 7,244,019,458,077,122,842 is π in 2^−61. -/
def sineQ30 (phase : Nat) : Int :=
  let q := phase / 2 ^ 30 % 4
  let f := phase % 2 ^ 30
  let r : Nat := if q % 2 = 0 then f else 2 ^ 30 - f
  let x : Int := (r : Int) * 7244019458077122842 / 2 ^ 32
  let v := sinTerms (x * x / 2 ^ 60) 11 x 1 / 2 ^ 30
  let exact := if q < 2 then v else -v
  exact + max (-30) (min 30 (Config.sineErr phase))

/-- A product in 2^−30 rounded to a whole number (R157). -/
def roundQ30 (n : Int) : Int := (n + 2 ^ 29) / 2 ^ 30

/-- The CRC-32 of IEEE 802.3, one bit. -/
def crcBit (c : Word) : Word :=
  if c.getLsbD 0 then (c >>> 1) ^^^ 0xEDB88320 else c >>> 1

/-- The CRC-32 of IEEE 802.3 over bytes (R321, R380). -/
def crc32 (b : List Byte) : Word :=
  ~~~(b.foldl (fun c x => iterate crcBit 8 (c ^^^ x.setWidth 32)) 0xFFFFFFFF)

/-- The bytes of words, each little-endian. -/
def wordBytes (ws : List Word) : List Byte :=
  ws.flatMap (fun w => bytesLE 4 w.toNat)

end Sys2Proof.Machine
end

