-- ==== Sys2Proof/Machine/Alarms.lean ====
section
/-! DEFINITION. The alarm codes of the spec's alarm tables: class, source and number (R204). -/

namespace Sys2Proof.Machine

/-- An alarm: class, source, number (R204). Where the source is variable, it is given by `src`. -/
structure AlarmId where
  cls : Nat
  source : Nat
  num : Nat
  deriving DecidableEq, Repr

/-- The same alarm from another source. -/
def AlarmId.src (a : AlarmId) (n : Nat) : AlarmId := { a with source := n }

/-- The 32-bit code of an alarm (R204). -/
def AlarmId.code (a : AlarmId) : Nat := a.cls * 16777216 + a.source * 65536 + a.num

/-- TICK_OVERRUN, 0x01ss_0001 (R50). -/
abbrev Al.tickOverrun : AlarmId := ⟨0x01, 0x00, 0x0001⟩
/-- BENCH_LATE, 0x0110_0002 (R50). -/
abbrev Al.benchLate : AlarmId := ⟨0x01, 0x10, 0x0002⟩
/-- EGRESS_LATE, 0x0111_0003 (R50). -/
abbrev Al.egressLate : AlarmId := ⟨0x01, 0x11, 0x0003⟩
/-- INGRESS_LATE, 0x0112_0004 (R50). -/
abbrev Al.ingressLate : AlarmId := ⟨0x01, 0x12, 0x0004⟩
/-- TICK_SHORT, 0x01FF_0010 (R50). -/
abbrev Al.tickShort : AlarmId := ⟨0x01, 0xFF, 0x0010⟩
/-- TICK_STEP, 0x01FF_0011 (R50). -/
abbrev Al.tickStep : AlarmId := ⟨0x01, 0xFF, 0x0011⟩
/-- PLAN_REJECTED, 0x01FF_0012 (R50). -/
abbrev Al.planRejected : AlarmId := ⟨0x01, 0xFF, 0x0012⟩
/-- IMAGE_PLAN_MISMATCH, 0x01ss_0013 (R50). -/
abbrev Al.imagePlanMismatch : AlarmId := ⟨0x01, 0x00, 0x0013⟩
/-- ENG_ACC_OVERFLOW, 0x02ss_0020 (R80). -/
abbrev Al.engAccOverflow : AlarmId := ⟨0x02, 0x00, 0x0020⟩
/-- ENG_STORE_SAT, 0x02ss_0021 (R80). -/
abbrev Al.engStoreSat : AlarmId := ⟨0x02, 0x00, 0x0021⟩
/-- ENG_CIRC_VIOLATION, 0x02ss_0022 (R80). -/
abbrev Al.engCircViolation : AlarmId := ⟨0x02, 0x00, 0x0022⟩
/-- ENG_ECC_UNCORRECTABLE, 0x02ss_0023 (R80). -/
abbrev Al.engEccUncorrectable : AlarmId := ⟨0x02, 0x00, 0x0023⟩
/-- ENG_ILLEGAL, 0x02ss_0030 (R111). -/
abbrev Al.engIllegal : AlarmId := ⟨0x02, 0x00, 0x0030⟩
/-- ENG_STACK, 0x02ss_0031 (R111). -/
abbrev Al.engStack : AlarmId := ⟨0x02, 0x00, 0x0031⟩
/-- ENG_LOAD_REJECTED, 0x02ss_0032 (R111). -/
abbrev Al.engLoadRejected : AlarmId := ⟨0x02, 0x00, 0x0032⟩
/-- ENG_MBOX_DROP, 0x02ss_0033 (R111). -/
abbrev Al.engMboxDrop : AlarmId := ⟨0x02, 0x00, 0x0033⟩
/-- ENG_DMA_FAULT, 0x02ss_0034 (R111). -/
abbrev Al.engDmaFault : AlarmId := ⟨0x02, 0x00, 0x0034⟩
/-- ENG_USER, 0x02ss_8nnn (R111). -/
abbrev Al.engUser : AlarmId := ⟨0x02, 0x00, 0x8000⟩
/-- BUS_SATURATED, 0x0300_0001 (R138). -/
abbrev Al.busSaturated : AlarmId := ⟨0x03, 0x00, 0x0001⟩
/-- BUS_SUM_OVERFLOW, 0x0300_0002 (R138). -/
abbrev Al.busSumOverflow : AlarmId := ⟨0x03, 0x00, 0x0002⟩
/-- XP_MOTION_FULL, 0x0300_0003 (R138). -/
abbrev Al.xpMotionFull : AlarmId := ⟨0x03, 0x00, 0x0003⟩
/-- EGRESS_CLIP, 0x0301_0010 (R138). -/
abbrev Al.egressClip : AlarmId := ⟨0x03, 0x01, 0x0010⟩
/-- XP_ECC_UNCORRECTABLE, 0x0302_0020 (R138). -/
abbrev Al.xpEccUncorrectable : AlarmId := ⟨0x03, 0x02, 0x0020⟩
/-- LAT_TAKE_FULL, 0x0400_0001 (R160). -/
abbrev Al.latTakeFull : AlarmId := ⟨0x04, 0x00, 0x0001⟩
/-- LAT_SEL_ECC_UE, 0x0400_0002 (R160). -/
abbrev Al.latSelEccUe : AlarmId := ⟨0x04, 0x00, 0x0002⟩
/-- LAT_STORE_ECC_UE, 0x0401_0003 (R160). -/
abbrev Al.latStoreEccUe : AlarmId := ⟨0x04, 0x01, 0x0003⟩
/-- LAT_DEST_ABSENT, 0x0401_0004 (R160). -/
abbrev Al.latDestAbsent : AlarmId := ⟨0x04, 0x01, 0x0004⟩
/-- COMMIT_REJECTED, 0x0500_0001 (R182). -/
abbrev Al.commitRejected : AlarmId := ⟨0x05, 0x00, 0x0001⟩
/-- STAGE_FULL, 0x0500_0002 (R182). -/
abbrev Al.stageFull : AlarmId := ⟨0x05, 0x00, 0x0002⟩
/-- STAGE_ECC_UE, 0x0500_0003 (R182). -/
abbrev Al.stageEccUe : AlarmId := ⟨0x05, 0x00, 0x0003⟩
/-- CTL_COUNTER_REJECT, 0x06tt_0001 (R205). -/
abbrev Al.ctlCounterReject : AlarmId := ⟨0x06, 0x00, 0x0001⟩
/-- CTL_TAG_REJECT, 0x06tt_0002 (R205). -/
abbrev Al.ctlTagReject : AlarmId := ⟨0x06, 0x00, 0x0002⟩
/-- CTL_OPEN_REJECT, 0x06tt_0003 (R205). -/
abbrev Al.ctlOpenReject : AlarmId := ⟨0x06, 0x00, 0x0003⟩
/-- CTL_FRAME_DROP, 0x06tt_0004 (R205). -/
abbrev Al.ctlFrameDrop : AlarmId := ⟨0x06, 0x00, 0x0004⟩
/-- CTL_SESSION_EXPIRED, 0x06FF_0005 (R205). -/
abbrev Al.ctlSessionExpired : AlarmId := ⟨0x06, 0xFF, 0x0005⟩
/-- CTL_LOG_WRAP, 0x06FF_0006 (R205). -/
abbrev Al.ctlLogWrap : AlarmId := ⟨0x06, 0xFF, 0x0006⟩
/-- TDM_CLOCK_LOSS, 0x07pp_0001 (R231). -/
abbrev Al.tdmClockLoss : AlarmId := ⟨0x07, 0x00, 0x0001⟩
/-- RATE_MISMATCH, 0x07pp_0002 (R231). -/
abbrev Al.rateMismatch : AlarmId := ⟨0x07, 0x00, 0x0002⟩
/-- TDM_SLIP, 0x07pp_0003 (R231). -/
abbrev Al.tdmSlip : AlarmId := ⟨0x07, 0x00, 0x0003⟩
/-- TDM_UNDERRUN, 0x07pp_0004 (R231). -/
abbrev Al.tdmUnderrun : AlarmId := ⟨0x07, 0x00, 0x0004⟩
/-- TDM_OVERRUN, 0x07pp_0005 (R231). -/
abbrev Al.tdmOverrun : AlarmId := ⟨0x07, 0x00, 0x0005⟩
/-- TDM_FOLLOW_LIMIT, 0x07pp_0006 (R231). -/
abbrev Al.tdmFollowLimit : AlarmId := ⟨0x07, 0x00, 0x0006⟩
/-- AES_LOCK_LOSS, 0x08ii_0001 (R232). -/
abbrev Al.aesLockLoss : AlarmId := ⟨0x08, 0x00, 0x0001⟩
/-- AES_RATE_MISMATCH, 0x08ii_0002 (R232). -/
abbrev Al.aesRateMismatch : AlarmId := ⟨0x08, 0x00, 0x0002⟩
/-- AES_NONPCM, 0x08ii_0003 (R232). -/
abbrev Al.aesNonpcm : AlarmId := ⟨0x08, 0x00, 0x0003⟩
/-- AES_SLIP, 0x08ii_0004 (R232). -/
abbrev Al.aesSlip : AlarmId := ⟨0x08, 0x00, 0x0004⟩
/-- NET_LINK_DOWN, 0x09pp_0001 (R258). -/
abbrev Al.netLinkDown : AlarmId := ⟨0x09, 0x00, 0x0001⟩
/-- NET_LEG_DOWN, 0x0910_0002 (R258). -/
abbrev Al.netLegDown : AlarmId := ⟨0x09, 0x10, 0x0002⟩
/-- NET_RX_LOSS, 0x0910_0003 (R258). -/
abbrev Al.netRxLoss : AlarmId := ⟨0x09, 0x10, 0x0003⟩
/-- NET_RX_LATE, 0x0910_0004 (R258). -/
abbrev Al.netRxLate : AlarmId := ⟨0x09, 0x10, 0x0004⟩
/-- NET_RX_EARLY, 0x0910_0005 (R258). -/
abbrev Al.netRxEarly : AlarmId := ⟨0x09, 0x10, 0x0005⟩
/-- NET_RX_FORMAT, 0x0910_0006 (R258). -/
abbrev Al.netRxFormat : AlarmId := ⟨0x09, 0x10, 0x0006⟩
/-- NET_RX_NONPCM, 0x0910_0007 (R258). -/
abbrev Al.netRxNonpcm : AlarmId := ⟨0x09, 0x10, 0x0007⟩
/-- NET_TX_DROP, 0x0910_0008 (R258). -/
abbrev Al.netTxDrop : AlarmId := ⟨0x09, 0x10, 0x0008⟩
/-- NET_RING_DROP, 0x0920_0010 (R258). -/
abbrev Al.netRingDrop : AlarmId := ⟨0x09, 0x20, 0x0010⟩
/-- NET_FWD_DROP, 0x09pp_0011 (R258). -/
abbrev Al.netFwdDrop : AlarmId := ⟨0x09, 0x00, 0x0011⟩
/-- TIME_LOCK_LOST, 0x0A00_0001 (R278). -/
abbrev Al.timeLockLost : AlarmId := ⟨0x0A, 0x00, 0x0001⟩
/-- TIME_OFFSET_LARGE, 0x0A00_0002 (R278). -/
abbrev Al.timeOffsetLarge : AlarmId := ⟨0x0A, 0x00, 0x0002⟩
/-- TIME_RATE_LIMIT, 0x0A00_0003 (R278). -/
abbrev Al.timeRateLimit : AlarmId := ⟨0x0A, 0x00, 0x0003⟩
/-- TIME_RESTEPPED, 0x0A00_0004 (R278). -/
abbrev Al.timeRestepped : AlarmId := ⟨0x0A, 0x00, 0x0004⟩
/-- PTP_GM_CHANGE, 0x0A1i_0010 (R278). -/
abbrev Al.ptpGmChange : AlarmId := ⟨0x0A, 0x00, 0x0010⟩
/-- PTP_LEG_CHANGE, 0x0A1i_0011 (R278). -/
abbrev Al.ptpLegChange : AlarmId := ⟨0x0A, 0x00, 0x0011⟩
/-- PTP_ANNOUNCE_TIMEOUT, 0x0A1i_0012 (R278). -/
abbrev Al.ptpAnnounceTimeout : AlarmId := ⟨0x0A, 0x00, 0x0012⟩
/-- TRIG_MISSED, 0x0A2t_0020 (R278). -/
abbrev Al.trigMissed : AlarmId := ⟨0x0A, 0x00, 0x0020⟩
/-- CAPT_EXCESS, 0x0A3c_0030 (R278). -/
abbrev Al.captExcess : AlarmId := ⟨0x0A, 0x3C, 0x0030⟩
/-- REF_LOST, 0x0Bkk_0001 (R298). -/
abbrev Al.refLost : AlarmId := ⟨0x0B, 0x00, 0x0001⟩
/-- REF_SOFT_WINDOW, 0x0Bkk_0002 (R298). -/
abbrev Al.refSoftWindow : AlarmId := ⟨0x0B, 0x00, 0x0002⟩
/-- REF_DISQUALIFIED, 0x0Bkk_0003 (R298). -/
abbrev Al.refDisqualified : AlarmId := ⟨0x0B, 0x00, 0x0003⟩
/-- REF_DRIFT, 0x0Bkk_0004 (R298). -/
abbrev Al.refDrift : AlarmId := ⟨0x0B, 0x00, 0x0004⟩
/-- REF_DISAGREE, 0x0Bkk_0005 (R298). -/
abbrev Al.refDisagree : AlarmId := ⟨0x0B, 0x00, 0x0005⟩
/-- REF_SWITCH, 0x0B10_0010 (R298). -/
abbrev Al.refSwitch : AlarmId := ⟨0x0B, 0x10, 0x0010⟩
/-- REF_HOLDOVER, 0x0B10_0011 (R298). -/
abbrev Al.refHoldover : AlarmId := ⟨0x0B, 0x10, 0x0011⟩
/-- REF_HOLDOVER_EXPIRED, 0x0B10_0012 (R298). -/
abbrev Al.refHoldoverExpired : AlarmId := ⟨0x0B, 0x10, 0x0012⟩
/-- HOLD_OSC_LOST, 0x0B20_0020 (R298). -/
abbrev Al.holdOscLost : AlarmId := ⟨0x0B, 0x20, 0x0020⟩
/-- SYSPLL_LOCK_LOST, 0x0C0p_0001 (R318). -/
abbrev Al.syspllLockLost : AlarmId := ⟨0x0C, 0x00, 0x0001⟩
/-- SYSPLL_SWITCH, 0x0C0p_0002 (R318). -/
abbrev Al.syspllSwitch : AlarmId := ⟨0x0C, 0x00, 0x0002⟩
/-- SYSPLL_NO_LEAF, 0x0CFF_0003 (R318). -/
abbrev Al.syspllNoLeaf : AlarmId := ⟨0x0C, 0xFF, 0x0003⟩
/-- SYSPLL_BOTH_LOST, 0x0CFF_0004 (R318). -/
abbrev Al.syspllBothLost : AlarmId := ⟨0x0C, 0xFF, 0x0004⟩
/-- MEDSYN_LOCK_LOST, 0x0C1s_0010 (R318). -/
abbrev Al.medsynLockLost : AlarmId := ⟨0x0C, 0x00, 0x0010⟩
/-- MEDSYN_FENCE, 0x0C1s_0011 (R318). -/
abbrev Al.medsynFence : AlarmId := ⟨0x0C, 0x00, 0x0011⟩
/-- CLK_GRID_REPAIRED, 0x0C20_0020 (R318). -/
abbrev Al.clkGridRepaired : AlarmId := ⟨0x0C, 0x20, 0x0020⟩
/-- PAIR_HB_LOST, 0x0D00_0001 (R343). -/
abbrev Al.pairHbLost : AlarmId := ⟨0x0D, 0x00, 0x0001⟩
/-- LINK_SPLIT, 0x0D00_0002 (R343). -/
abbrev Al.linkSplit : AlarmId := ⟨0x0D, 0x00, 0x0002⟩
/-- PAIR_TAKEOVER, 0x0D00_0003 (R343). -/
abbrev Al.pairTakeover : AlarmId := ⟨0x0D, 0x00, 0x0003⟩
/-- PAIR_YIELDED, 0x0D00_0004 (R343). -/
abbrev Al.pairYielded : AlarmId := ⟨0x0D, 0x00, 0x0004⟩
/-- PAIR_DUAL_ACTIVE, 0x0D00_0005 (R343). -/
abbrev Al.pairDualActive : AlarmId := ⟨0x0D, 0x00, 0x0005⟩
/-- MIRROR_MISMATCH, 0x0D00_0006 (R343). -/
abbrev Al.mirrorMismatch : AlarmId := ⟨0x0D, 0x00, 0x0006⟩
/-- PAIR_MISMATCH, 0x0D00_0007 (R343). -/
abbrev Al.pairMismatch : AlarmId := ⟨0x0D, 0x00, 0x0007⟩
/-- PAIR_STALE, 0x0D00_0008 (R343). -/
abbrev Al.pairStale : AlarmId := ⟨0x0D, 0x00, 0x0008⟩
/-- PAIR_SWAP_DONE, 0x0D00_0009 (R343). -/
abbrev Al.pairSwapDone : AlarmId := ⟨0x0D, 0x00, 0x0009⟩
/-- PAIR_SWAP_ABANDONED, 0x0D00_000A (R343). -/
abbrev Al.pairSwapAbandoned : AlarmId := ⟨0x0D, 0x00, 0x000A⟩
/-- PAIR_WARM_DIFF, 0x0D00_000B (R343). -/
abbrev Al.pairWarmDiff : AlarmId := ⟨0x0D, 0x00, 0x000B⟩
/-- PAIR_TAKEOVER_FAULT, 0x0D00_000C (R343). -/
abbrev Al.pairTakeoverFault : AlarmId := ⟨0x0D, 0x00, 0x000C⟩
/-- PAIR_SWAP_DUE, 0x0D00_000D (R343). -/
abbrev Al.pairSwapDue : AlarmId := ⟨0x0D, 0x00, 0x000D⟩
/-- UNR_LANE_FAIL, 0x0D01_0010 (R343). -/
abbrev Al.unrLaneFail : AlarmId := ⟨0x0D, 0x01, 0x0010⟩
/-- UNR_LINK_DEGRADED, 0x0D01_0011 (R343). -/
abbrev Al.unrLinkDegraded : AlarmId := ⟨0x0D, 0x01, 0x0011⟩
/-- UNR_LINK_DOWN, 0x0D01_0012 (R343). -/
abbrev Al.unrLinkDown : AlarmId := ⟨0x0D, 0x01, 0x0012⟩
/-- WITNESS_NO_ANSWER, 0x0D02_0020 (R343). -/
abbrev Al.witnessNoAnswer : AlarmId := ⟨0x0D, 0x02, 0x0020⟩
/-- WITNESS_TAG_REJECT, 0x0D02_0021 (R343). -/
abbrev Al.witnessTagReject : AlarmId := ⟨0x0D, 0x02, 0x0021⟩
/-- FAB_ECC_UE, 0x0Ett_0001 (R370). -/
abbrev Al.fabEccUe : AlarmId := ⟨0x0E, 0x00, 0x0001⟩
/-- FAB_BUS_ERROR, 0x0Emm_0002 (R370). -/
abbrev Al.fabBusError : AlarmId := ⟨0x0E, 0x00, 0x0002⟩
/-- FAB_DELAY_LATE, 0x0E1p_0003 (R370). -/
abbrev Al.fabDelayLate : AlarmId := ⟨0x0E, 0x00, 0x0003⟩
/-- RSV_SLACK_LOW, 0x0F00_0001 (R392). -/
abbrev Al.rsvSlackLow : AlarmId := ⟨0x0F, 0x00, 0x0001⟩
/-- RSV_MIGRATE_START, 0x0F00_0002 (R392). -/
abbrev Al.rsvMigrateStart : AlarmId := ⟨0x0F, 0x00, 0x0002⟩
/-- RSV_MIGRATE_DONE, 0x0F00_0003 (R392). -/
abbrev Al.rsvMigrateDone : AlarmId := ⟨0x0F, 0x00, 0x0003⟩
/-- RSV_MIGRATE_ABANDONED, 0x0F00_0004 (R392). -/
abbrev Al.rsvMigrateAbandoned : AlarmId := ⟨0x0F, 0x00, 0x0004⟩
/-- RSV_NO_LEAF, 0x0F00_0005 (R392). -/
abbrev Al.rsvNoLeaf : AlarmId := ⟨0x0F, 0x00, 0x0005⟩
/-- RSV_LEAF_TEST_FAIL, 0x0F00_0006 (R392). -/
abbrev Al.rsvLeafTestFail : AlarmId := ⟨0x0F, 0x00, 0x0006⟩
/-- RSV_ENG_RETIRED, 0x0F00_0007 (R392). -/
abbrev Al.rsvEngRetired : AlarmId := ⟨0x0F, 0x00, 0x0007⟩
/-- RSV_LANE_RETIRED, 0x0F01_0010 (R392). -/
abbrev Al.rsvLaneRetired : AlarmId := ⟨0x0F, 0x01, 0x0010⟩
/-- RSV_LANE_SHORT, 0x0F01_0011 (R392). -/
abbrev Al.rsvLaneShort : AlarmId := ⟨0x0F, 0x01, 0x0011⟩
/-- RSV_ROW_REPAIRED, 0x0F02_0020 (R392). -/
abbrev Al.rsvRowRepaired : AlarmId := ⟨0x0F, 0x02, 0x0020⟩
/-- RSV_SPARES_LOW, 0x0F02_0021 (R392). -/
abbrev Al.rsvSparesLow : AlarmId := ⟨0x0F, 0x02, 0x0021⟩
/-- RSV_FUSES_FULL, 0x0F02_0022 (R392). -/
abbrev Al.rsvFusesFull : AlarmId := ⟨0x0F, 0x02, 0x0022⟩
/-- SEC_TAMPER, 0x11ss_0001 (R422). -/
abbrev Al.secTamper : AlarmId := ⟨0x11, 0x00, 0x0001⟩
/-- SEC_WIPE, 0x11FF_0002 (R422). -/
abbrev Al.secWipe : AlarmId := ⟨0x11, 0xFF, 0x0002⟩
/-- SEC_LC_CHANGED, 0x1110_0010 (R422). -/
abbrev Al.secLcChanged : AlarmId := ⟨0x11, 0x10, 0x0010⟩
/-- SEC_DBG_GRANT, 0x1120_0020 (R422). -/
abbrev Al.secDbgGrant : AlarmId := ⟨0x11, 0x20, 0x0020⟩
/-- SEC_DBG_REJECT, 0x1120_0021 (R422). -/
abbrev Al.secDbgReject : AlarmId := ⟨0x11, 0x20, 0x0021⟩
/-- SEC_SEAL_FAIL, 0x1130_0030 (R422). -/
abbrev Al.secSealFail : AlarmId := ⟨0x11, 0x30, 0x0030⟩
/-- SEC_EPOCH_LOW, 0x1130_0031 (R422). -/
abbrev Al.secEpochLow : AlarmId := ⟨0x11, 0x30, 0x0031⟩
/-- CUE_SHORT, 0x12nn_0001 (R439). -/
abbrev Al.cueShort : AlarmId := ⟨0x12, 0x00, 0x0001⟩
/-- CUE_LOCKOUT, 0x12nn_0002 (R439). -/
abbrev Al.cueLockout : AlarmId := ⟨0x12, 0x00, 0x0002⟩
/-- CUE_FB_FAULT, 0x12nn_0003 (R439). -/
abbrev Al.cueFbFault : AlarmId := ⟨0x12, 0x00, 0x0003⟩
/-- CUE_Z_WARN, 0x12nn_0004 (R439). -/
abbrev Al.cueZWarn : AlarmId := ⟨0x12, 0x00, 0x0004⟩
/-- CUE_THERMAL, 0x12nn_0005 (R439). -/
abbrev Al.cueThermal : AlarmId := ⟨0x12, 0x00, 0x0005⟩
/-- CUE_SUPPLY, 0x12FF_0006 (R439). -/
abbrev Al.cueSupply : AlarmId := ⟨0x12, 0xFF, 0x0006⟩
/-- BOOT_RESTARTED, 0x1300_0001 (R457). -/
abbrev Al.bootRestarted : AlarmId := ⟨0x13, 0x00, 0x0001⟩
/-- BOOT_FW_FALLBACK, 0x1300_0002 (R457). -/
abbrev Al.bootFwFallback : AlarmId := ⟨0x13, 0x00, 0x0002⟩
/-- BOOT_FW_UPDATE_FAIL, 0x1300_0003 (R457). -/
abbrev Al.bootFwUpdateFail : AlarmId := ⟨0x13, 0x00, 0x0003⟩
/-- QUIET_ENTERED, 0x1300_0004 (R457). -/
abbrev Al.quietEntered : AlarmId := ⟨0x13, 0x00, 0x0004⟩
/-- QUIET_LEFT, 0x1300_0005 (R457). -/
abbrev Al.quietLeft : AlarmId := ⟨0x13, 0x00, 0x0005⟩
/-- PMU_OVERFLOW, 0x10ss_0001 (R404). -/
abbrev Al.pmuOverflow : AlarmId := ⟨0x10, 0x00, 0x0001⟩

end Sys2Proof.Machine
end

