-- ==== Sys2Proof/Machine/Values.lean ====
section
/-! DEFINITION. Values of the object dictionary: types and their wire form (R185), access classes
(R186), subindex ranges (R184) and value ranges (R478). -/

namespace Sys2Proof.Machine

/-- A value of the dictionary: a number (BOOL, U8 … TICK64; dB64 with 0x8000 held as −32,768), a TIME80,
or the bytes of a STRING or DOMAIN. -/
inductive Val where
  | int (n : Int)
  | time (sec ns : Nat)
  | bytes (b : List Byte)
  deriving DecidableEq, Repr

/-- The types of R185. -/
inductive Ty where
  | bool | u8 | u16 | u32 | u64 | s16 | s32 | db64 | q428 | time80 | tick64 | string | domain
  deriving DecidableEq, Repr

/-- The access classes of R186. -/
inductive Access where
  | ro | wo | rw | rws | rwk | rwsk
  deriving DecidableEq, Repr

/-- Which subindices an object has (R184 and the owning tables). -/
inductive Subs where
  /-- Only 0x000000. -/
  | one
  /-- 0 to n − 1. -/
  | upto (n : Nat)
  /-- `lo` to `hi`. -/
  | range (lo hi : Nat)
  /-- Physical destinations (R139). -/
  | phys
  /-- Destinations (R161). -/
  | dest
  /-- Place and word (R183). -/
  | param
  /-- Memory numbers (R393). -/
  | memory
  deriving DecidableEq, Repr

/-- Which values an object takes (R478). -/
inductive Rng where
  /-- Every value of the type. -/
  | any
  /-- `lo` to `hi`. -/
  | btw (lo hi : Int)
  /-- Only bits of `m` may be set. -/
  | mask (m : Nat)
  | oneOf (l : List Int)
  /-- A byte string of exactly `n` bytes. -/
  | len (n : Nat)
  /-- The rule stands in `ownRange`. -/
  | own
  deriving DecidableEq, Repr

/-- One row of an object table. -/
structure ObjRow where
  ix : Nat
  name : String
  ty : Ty
  acc : Access
  subs : Subs
  rng : Rng
  dflt : Val
  deriving DecidableEq, Repr

/-- The number a value holds; 0 for a time or bytes. -/
def Val.toInt : Val → Int
  | .int n => n
  | _ => 0

/-- The number a value holds, as a natural number. -/
def Val.toNat (v : Val) : Nat :=
  v.toInt.toNat

/-- The bytes a value holds. -/
def Val.toBytes : Val → List Byte
  | .bytes b => b
  | _ => []

/-- A physical destination identifier (R139). -/
def isPhysDest (d : Nat) : Bool :=
  decide (d ≤ 0x240F) || d == 0x4000 || d == 0x4001

/-- An engine-input destination identifier (R141). -/
def isEngDest (d : Nat) : Bool :=
  decide (0x2800 ≤ d) && decide (d ≤ 0x3FFF)

/-- Whether subindex `i` is one of the object's (R184). -/
def Subs.has (s : Subs) (i : Nat) : Bool :=
  match s with
  | .one => i == 0
  | .upto n => decide (i < n)
  | .range lo hi => decide (lo ≤ i) && decide (i ≤ hi)
  | .phys => isPhysDest i
  | .dest => isPhysDest i || isEngDest i
  | .param => (i / 4096) % 256 == 0 && decide (i < 0x1000000)
  | .memory => decide (i ≤ 0x11) || (decide (0x21 ≤ i) && decide (i ≤ 0x26))

/-- The type code of R185. -/
def Ty.code : Ty → Nat
  | .bool => 0x01 | .u8 => 0x02 | .u16 => 0x03 | .u32 => 0x04 | .u64 => 0x05
  | .s16 => 0x06 | .s32 => 0x07 | .db64 => 0x08 | .q428 => 0x09
  | .time80 => 0x0B | .tick64 => 0x0C | .string => 0x0D | .domain => 0x0E

/-- The wire size of R185, of the types of fixed size. -/
def Ty.size : Ty → Nat
  | .bool => 1 | .u8 => 1 | .u16 => 2 | .u32 => 4 | .u64 => 8
  | .s16 => 2 | .s32 => 4 | .db64 => 2 | .q428 => 4
  | .time80 => 10 | .tick64 => 8 | .string => 0 | .domain => 0

/-- Whether the type is signed. -/
def Ty.signed : Ty → Bool
  | .s16 | .s32 | .db64 | .q428 => true
  | _ => false

/-- The signed reading of an `n`-bit field. -/
def signedOf (bits n : Nat) : Int :=
  if n < 2 ^ (bits - 1) then (n : Int) else (n : Int) - (2 : Int) ^ bits

/-- The unsigned reading, modulo `2 ^ bits`, of an integer. -/
def unsignedOf (bits : Nat) (n : Int) : Nat :=
  (n % ((2 : Int) ^ bits)).toNat

/-- One value read from the front of the bytes of an operation, and the rest; none where the bytes do not
hold one (R185, status TYPE of R191). -/
def Ty.take (t : Ty) (b : List Byte) : Option (Val × List Byte) :=
  match t with
  | .string =>
    match b with
    | [] => none
    | n :: r =>
      if n.toNat ≤ 64 ∧ n.toNat ≤ r.length then some (.bytes (r.take n.toNat), r.drop n.toNat) else none
  | .domain => none
  | .time80 =>
    if 10 ≤ b.length then
      some (.time (natLE (b.take 6)) (natLE ((b.drop 6).take 4)), b.drop 10)
    else none
  | t =>
    if t.size ≤ b.length then
      let n := natLE (b.take t.size)
      some (.int (if t.signed then signedOf (8 * t.size) n else (n : Int)), b.drop t.size)
    else none

/-- `n` values read from the value area of an operation; what is left must be padding of zeros to a
multiple of 4 bytes (R190). -/
def Ty.takeMany (t : Ty) : Nat → List Byte → Option (List Val)
  | 0, b => if b.length < 4 ∧ b.all (fun x => x == 0) then some [] else none
  | n + 1, b =>
    match t.take b with
    | none => none
    | some (v, r) =>
      match Ty.takeMany t n r with
      | none => none
      | some vs => some (v :: vs)

/-- The wire form of a value (R185). -/
def Ty.wire (t : Ty) (v : Val) : List Byte :=
  match v with
  | .bytes b => if t = .string then BitVec.ofNat 8 b.length :: b else b
  | .time s n => bytesLE 6 s ++ bytesLE 4 n
  | .int n => bytesLE t.size (unsignedOf (8 * t.size) n)

/-! Operation status codes (R191). -/

abbrev Rc.done : Nat := 0x0000
abbrev Rc.noObject : Nat := 0x0101
abbrev Rc.noSub : Nat := 0x0102
abbrev Rc.type : Nat := 0x0103
abbrev Rc.range : Nat := 0x0104
abbrev Rc.access : Nat := 0x0105
abbrev Rc.privilege : Nat := 0x0106
abbrev Rc.keyRequired : Nat := 0x0107
abbrev Rc.notStageable : Nat := 0x0108
abbrev Rc.stageFull : Nat := 0x0109
abbrev Rc.state : Nat := 0x010A
abbrev Rc.motionFull : Nat := 0x010B
abbrev Rc.takeFull : Nat := 0x010C
abbrev Rc.capacity : Nat := 0x010D
abbrev Rc.notActive : Nat := 0x010E
abbrev Rc.domain : Nat := 0x010F
abbrev Rc.domainBusy : Nat := 0x0110

/-- Whether a value lies in a static range. `own` ranges are judged elsewhere. -/
def Rng.ok (r : Rng) (v : Val) : Bool :=
  match r with
  | .any => true
  | .own => true
  | .btw lo hi => decide (lo ≤ v.toInt) && decide (v.toInt ≤ hi)
  | .mask m => v.toNat &&& m == v.toNat
  | .oneOf l => l.contains v.toInt
  | .len n => v.toBytes.length == n

end Sys2Proof.Machine
end

