-- ==== Sys2Proof/Machine/CoreState.lean ====
section
/-! DEFINITION. The state of the tick sequencer, the source store and the Lattice, the Bench, the Shutter,
and control with its host port (chapters 02, 05 to 08). -/

namespace Sys2Proof.Machine

/-- Where one cause of a standard fade stands (R25, R26, R29). -/
inductive FadeMode where
  | unity | fadingOut | silent | fadingIn
  deriving DecidableEq, Repr

/-- One cause of a standard fade: its mode, the index k of its next gain, and the gain it applied to the
last sample, in 2^−27 (R27, R29). -/
structure Fade where
  mode : FadeMode
  k : Nat
  last : Nat
  deriving DecidableEq, Repr

/-- A cause that has never faded: unity. -/
def Fade.unity : Fade := { mode := .unity, k := 0, last := 134217728 }
/-- A cause whose fade-out has reached 0. -/
def Fade.silent : Fade := { mode := .silent, k := 0, last := 0 }

/-- Where the phase sequencer stands (R36, R37). -/
inductive SeqMode where
  /-- Ticks run. -/
  | running
  /-- A rate or TICKLEN change is fading the outputs out: boundaries left before the stop. -/
  | fading (left : Nat)
  /-- Stopped for a new tick grid. -/
  | stopped
  /-- Idle after a backward step, until the tick number exceeds the last tick run. -/
  | idle
  /-- A keyed re-step has been taken; the next tick is the first of the new time (R36). -/
  | stepped
  deriving DecidableEq, Repr

/-- The tick sequencer (R34 to R45). -/
structure TickSt where
  /-- The current tick c. -/
  tick : Nat
  seq : SeqMode
  /-- The last tick the sequencer ran, and the last it completed (R36, R164). -/
  lastRun : Nat
  lastDone : Nat
  /-- The system counter (R261): fabric cycles. -/
  sysCounter : Nat
  /-- Phases whose deadline has passed in this tick. -/
  closed : List Nat
  /-- D2 has been reached: P4 and P5 are open. -/
  late : Bool
  /-- Landings of this boundary not yet made: a commit, direct writes. -/
  commitDue : Bool
  writesDue : Bool
  /-- The synthesizers have not yet been set for this boundary (R305, R313). -/
  synDue : Bool
  /-- The phase plan in force: open and deadline of P0 to P5 (R40, R41). -/
  plan : List Nat
  /-- House rate and TICKLEN accepted and not yet applied (R37). -/
  rateNext : Option Nat
  lenNext : Option Nat
  /-- A keyed re-step: ticks left before it is taken, and whether to a value (R36, R267). -/
  restep : Option (Nat × Option (Nat × Nat))
  /-- An egress frame was substituted in this tick, which OVERRUN_COUNT 0x11 counts once. -/
  lateEgress : Bool
  /-- The tick from which egress fades in again after a step (R36). -/
  fadeInAt : Option Nat
  deriving DecidableEq, Repr

/-- One frame of a source (R31): its tag, its words, which of them a fade of the producer has scaled (R155; none
where the list ends), the non-PCM flag (R156), and whether its store words are uncorrectable (R159). -/
structure Frame where
  tag : Nat
  words : List Word
  low : List Bool
  npcm : Bool
  bad : Bool
  deriving DecidableEq, Repr

/-- A source of the store: its frames of the last three ticks, newest first (R143), the frame that
substitutes while its producer is late, and the substitution fade (R44). -/
structure Source where
  hist : List Frame
  base : List Word
  fade : Fade
  deriving DecidableEq, Repr

def Source.empty : Source := { hist := [], base := [], fade := Fade.unity }

/-- A take in progress (R150, R151): the outgoing source, whether SOFT, the sample of the next gathered
frame at which it begins (0 once begun), the samples already crossfaded, and a SOFT take in progress that it
ends at its offset: that one's outgoing source and the samples it has crossfaded (R152). -/
structure Take where
  old : Nat
  soft : Bool
  offset : Nat
  k : Nat
  before : Option (Nat × Nat)
  deriving DecidableEq, Repr

/-- The egress limiter of one destination (R132): gain in 2^−31, the 4 held samples oldest first, and
their q values. -/
structure Limiter where
  g : Nat
  held : List Word
  hq : List Nat
  bypassed : Bool
  deriving DecidableEq, Repr

/-- The limiter before its first sample: g = 1, held samples 0 (R132). -/
def Limiter.reset : Limiter :=
  { g := 2147483648, held := [0, 0, 0, 0], hq := [2147483648, 2147483648, 2147483648, 2147483648],
    bypassed := false }

/-- One Lattice destination: its selector in force, take, fades by cause (R30), and, for a physical
destination, its latency class (R48), limiter and egress substitution. -/
structure Dest where
  sel : Nat
  take : Option Take
  transp : Bool
  /-- Causes: frame absent (R146), non-PCM (R156), mute (R154), class change (R48), selector fault (R159). -/
  absent : Fade
  npcm : Fade
  mute : Fade
  cls : Fade
  fault : Fade
  /-- The frame delivered in the last gather, and the frame an absence repeats (R146). -/
  words : List Word
  last : List Word
  isAbsent : Bool
  isNpcm : Bool
  hasFault : Bool
  /-- Gathered in this tick. -/
  gathered : Bool
  /-- Latency class in force: 0 PROCESSED, 1 DIRECT. -/
  clsNow : Nat
  /-- A class change: the tick T it landed in, and the class to come. -/
  change : Option (Nat × Nat)
  lim : Limiter
  /-- Converted in this tick. -/
  converted : Bool
  /-- EGRESS_CLIP has been raised and EGRESS_CLIP_COUNT not read since (R134). -/
  clipped : Bool
  /-- The egress frame last handed over, the frame a substitution repeats, and the substitution fade of the egress
  stage (R44). -/
  egress : List Word
  egBase : List Word
  egFade : Fade
  deriving DecidableEq, Repr

/-- A destination as the selector table starts: silence selected (R147). -/
def Dest.reset : Dest :=
  { sel := 0x7F00, take := none, transp := false, absent := Fade.unity, npcm := Fade.unity,
    mute := Fade.unity, cls := Fade.unity, fault := Fade.unity,
    words := [], last := [], isAbsent := false, isNpcm := false, hasFault := false, gathered := false, clsNow := 0,
    change := none, lim := Limiter.reset, converted := false, clipped := false, egress := [], egBase := [], egFade := Fade.unity }

/-- A tone or noise generator's level: where the ramp over 32 samples started, where it goes, and the
samples of it already written before this tick (R157). -/
structure Gen where
  fromLvl : Int
  toLvl : Int
  k : Nat
  deriving DecidableEq, Repr

/-- A destination as it stood before the landings of this boundary: record, LAT_SEL, LAT_MUTE, and the
objects written since (R148, R175). -/
structure DestPre where
  was : Dest
  sel : Nat
  mute : Bool
  cls : Nat
  wrote : List Nat
  deriving DecidableEq, Repr

/-- The Lattice (chapter 06). -/
structure LatSt where
  pre : Map DestPre
  genPre : Map Int
  srcs : Map Source
  dests : Map Dest
  gens : Map Gen
  /-- Causes that every physical destination shares, as they stand at sample 0 of this tick: a re-step or rate
  change (R36, R37), and the unit not door-holder (R325). -/
  seq : Fade
  door : Fade
  /-- What the two reported at the end of the last tick (R161). -/
  shared : Nat
  /-- Frames that the store does not list and that an uncorrectable error has made absent: source and tag (R159). -/
  badFrames : List (Nat × Nat)
  /-- Words gathered in this tick for the two terms of R145. -/
  gathers1 : Nat
  gathers2 : Nat
  deriving DecidableEq, Repr

/-- STATE of a crosspoint record (R120). -/
inductive XpState where
  | off | steady | moving | releasing
  deriving DecidableEq, Repr

/-- A crosspoint record (R120): the fields the Bench works on. -/
structure Xp where
  src : Nat
  en : Bool
  bus : Nat
  mode : Nat
  state : XpState
  lastNeg : Bool
  fault : Bool
  cur : Int
  tgt : Int
  rem : Nat
  rlen : Nat
  deriving DecidableEq, Repr

/-- A record after PORESET_N (R120). -/
def Xp.reset : Xp :=
  { src := 0x7F00, en := false, bus := 0, mode := 1, state := .off, lastNeg := false, fault := false,
    cur := 0, tgt := 0, rem := 0, rlen := 512 }

/-- The Bench's replacement of an absent source (R117): the last frame summed and its absence fade. -/
structure BenchSrc where
  last : List Word
  absent : Fade
  /-- The words summed from the source in this tick, once decided. -/
  now : Option (List Word)
  deriving DecidableEq, Repr

def BenchSrc.empty : BenchSrc := { last := [], absent := Fade.unity, now := none }

/-- A crosspoint as it stood before the landings of this boundary: record, XP_EN, gain, and the objects
written since (R124, R175). -/
structure XpPre where
  was : Xp
  en : Bool
  gain : Int
  wrote : List Nat
  deriving DecidableEq, Repr

/-- The Bench (chapter 05). -/
structure BenchSt where
  xps : Map Xp
  /-- Crosspoints a landing of this tick has changed: they are in motion (R128). -/
  pre : Map XpPre
  /-- P3 has opened in this tick (R114, R118). -/
  opened : Bool
  /-- Buses that saturated or overflowed in this pass (R121). -/
  satNow : List Nat
  ovfNow : List Nat
  /-- Lane-cycles demanded in this tick (R128). -/
  load : Nat
  /-- Exact sums by 32 × bus + sample (R114, R121). -/
  acc : Map Int
  /-- Crosspoints summed and bus frames written in this tick. -/
  summed : List Nat
  written : List Nat
  /-- Buses some enabled or releasing crosspoint named at P3 open of this tick, and by tag those of the ticks before it whose
  frames the store still holds, newest first (R118, R143); none after a jump of the tick number. -/
  named : List Nat
  past : List (Nat × List Nat)
  srcs : Map BenchSrc
  /-- Records changed since the last hand-over to the mirror (R119). -/
  dirty : List Nat
  /-- ZC steps and faults of this tick, for the mirror: crosspoint, sample, event and CUR after it (R332). -/
  steps : List (Nat × Nat × Nat × Int)
  deriving DecidableEq, Repr

/-- One staged change (R168). -/
structure Change where
  ix : Nat
  sub : Nat
  val : Val
  keyed : Bool
  deriving DecidableEq, Repr

/-- An open staging set (R165): its session and its changes in order of first staging. -/
structure StageSet where
  session : Nat
  changes : List Change
  deriving DecidableEq, Repr

/-- A pending commit (R171, R172). `mirrored` marks one created by the partner's record (R333). -/
structure Pending where
  id : Nat
  session : Nat
  tick : Nat
  changes : List Change
  frozen : Bool
  checked : Bool
  motion : Nat
  takes : Nat
  mirrored : Bool
  deriving DecidableEq, Repr

/-- An accepted direct write waiting to land (R163): object instance, value, and the engine and sequence
number to answer when it came by mailbox (R106). `after` is the first boundary it may land at, where its
owning rule sets one (R178). -/
structure DirectWrite where
  ix : Nat
  sub : Nat
  val : Val
  mbox : Option (Nat × Nat)
  after : Nat
  /-- The generation the partner gave it, where it came over the mirror (R333). -/
  gen : Option Nat
  /-- Privilege of the session that wrote it, of R187: 1 OPERATOR to 3 ADMIN. -/
  priv : Nat
  deriving DecidableEq, Repr

/-- The Shutter (chapter 07). -/
structure ShutSt where
  sets : Map StageSet
  /-- The open sets at the end of the last completed tick (R164). -/
  setsThen : Map StageSet
  pend : List Pending
  nextId : Nat
  /-- Words changed by the last flip, by place (R178). -/
  flipped : Map (List (Nat × Word))
  /-- Words changed by the landings of this boundary, by place: the page flips with them (R178). -/
  touched : Map (List Nat)
  /-- Page words already landed, by 4096 × place + word: the value of the last landing (R179). -/
  words : Map Word
  /-- Unowned open sets and the ticks left before they are discarded (R338). -/
  unowned : Option Nat
  /-- Records that the landing list of a commit past its final check has lost: whether a crosspoint (else a
  destination), and its number (R172). -/
  corrupt : List (Bool × Nat)
  deriving DecidableEq, Repr

/-- The transport of a command frame (R188). -/
inductive Via where
  | udp | hostPort
  deriving DecidableEq, Repr

/-- A subscription (R198). -/
structure Subscription where
  handle : Nat
  ix : Nat
  sub : Nat
  count : Nat
  period : Nat
  start : Nat
  sent : List Val
  lastTick : Nat
  deriving DecidableEq, Repr

/-- A DOMAIN transfer (R197): object, direction, window and length. -/
structure Transfer where
  ix : Nat
  sub : Nat
  writing : Bool
  length : Nat
  window : Nat
  deriving DecidableEq, Repr

/-- An open session (R192). -/
structure Session where
  via : Via
  peer : Nat
  port : Nat
  slot : Nat
  priv : Nat
  tagAll : Bool
  key : List Byte
  counter : Nat
  lastFrame : List Byte
  lastReply : List Byte
  notifySeq : Nat
  subs : List Subscription
  nextHandle : Nat
  transfer : Option Transfer
  /-- Closes once the reply has been sent (R196, R206). -/
  closing : Bool
  deriving DecidableEq, Repr

/-- The result of one operation in a reply (R190). -/
structure OpResult where
  op : Nat
  status : Nat
  data : List Byte
  deriving DecidableEq, Repr

/-- A write the frame in service has made and that is accepted when the frame is complete (R189): a direct write,
or the effect of a write-only object. -/
structure Accept where
  ix : Nat
  sub : Nat
  val : Val
  priv : Nat
  deriving DecidableEq, Repr

/-- What the reads of a frame are served from (R164): the committed values, and the values, open sets and shared fades at
the end of the last completed tick. -/
structure Snapshot where
  dict : Map Val
  snap : Map Val
  sets : Map StageSet
  shared : Nat
  deriving DecidableEq, Repr

/-- The frame the controller is serving (R189, R190): the operations still to carry out, its snapshot (R164), the
results so far, the writes it has made, and the mirror sequence its reply waits for (R331). Session 0 is an OPEN
frame. -/
structure Serving where
  via : Via
  session : Nat
  peer : Nat
  port : Nat
  counter : Nat
  keyed : Bool
  bytes : List Byte
  ops : List (Nat × Op)
  results : List OpResult
  accepts : List Accept
  mirrored : Bool
  closing : Bool
  gen : Nat
  tick : Nat
  shot : Snapshot
  deriving DecidableEq, Repr

/-- A command frame waiting (R188). -/
structure Queued where
  via : Via
  peer : Nat
  port : Nat
  bytes : List Byte
  deriving DecidableEq, Repr

/-- Control: sessions, credentials, queues (chapter 08). -/
structure CtlSt where
  sessions : Map (Option Session)
  /-- Keys K_c by credential slot (R192); an unlisted slot holds what a wipe leaves it (R412). -/
  keys : Map (List Byte)
  /-- Last OPEN counter accepted, by slot; none before the first. -/
  openCtr : Map (Option Nat)
  /-- Frames waiting, in order of arrival across both transports. -/
  queue : List Queued
  serving : Option Serving
  /-- An unacknowledged entry has been lost (R205). -/
  logLost : Bool
  /-- Replies to engines' WRITE messages, oldest first: engine and words (R106). -/
  mail : List (Nat × List Word)
  /-- Messages collected from engines and not yet acted on (R106): engine and words. -/
  inbox : List (Nat × List Word)
  /-- Engines that have had a message written, and collected, in this tick. -/
  mailed : List Nat
  collected : List Nat
  /-- Messages to be written at cycle 0 of the next tick, while the engine has a shadow (R380): engine and words. -/
  mailDue : List (Nat × List Word)
  /-- Accepted ENG_CTL commands that act at a later tick, by place: command and tick (R110). -/
  engCtl : Map (Option (Nat × Nat))
  deriving DecidableEq, Repr

/-- The host port (R200 to R203). -/
structure HpSt where
  irqEvt : Bool
  irqEn : BitVec 5
  cmdLen : BitVec 11
  /-- LEN of the command submitted and not yet taken. -/
  goLen : BitVec 11
  busy : Bool
  drop : Bool
  cmdBuf : Map Byte
  rsp : List (List Byte)
  dpAddr : BitVec 40
  inc : BitVec 3
  dir : Bool
  mode : Bool
  dpLen : BitVec 13
  ready : Bool
  err : Bool
  ovf : Bool
  errCode : Byte
  /-- Bytes written to HP_DPDATA and not yet drained. -/
  wbuf : List Byte
  /-- Bytes fetched and not yet read. -/
  rbuf : List Byte
  deriving DecidableEq, Repr

end Sys2Proof.Machine
end

