-- ==== Sys2Proof/Machine/Fades.lean ====
section
/-! DEFINITION. The standard fade (R25 to R30): gains, continuation, and the product of several causes. -/

namespace Sys2Proof.Machine

/-- The whole part of 2^27 × 0.5 × (1 − cos(π (k + 1) ÷ 256)) for k = 0 to 63 (R26). -/
def fadeFloor0 : List Nat := [
  5053, 20211, 45474, 80835, 126291, 181834, 247456, 323147,
  408896, 504689, 610513, 726352, 852187, 988000, 1133771, 1289478,
  1455096, 1630602, 1815969, 2011168, 2216171, 2430947, 2655462, 2889685,
  3133578, 3387106, 3650230, 3922911, 4205107, 4496777, 4797875, 5108358,
  5428177, 5757285, 6095633, 6443169, 6799841, 7165595, 7540377, 7924129,
  8316795, 8718314, 9128627, 9547671, 9975384, 10411700, 10856556, 11309882,
  11771612, 12241675, 12720002, 13206519, 13701153, 14203830, 14714475, 15233010,
  15759358, 16293438, 16835171, 17384475, 17941268, 18505465, 19076981, 19655731]

/-- The whole part of 2^27 × 0.5 × (1 − cos(π (k + 1) ÷ 256)) for k = 64 to 127 (R26). -/
def fadeFloor1 : List Nat := [
  20241627, 20834581, 21434504, 22041305, 22654893, 23275176, 23902060, 24535451,
  25175253, 25821370, 26473705, 27132160, 27796635, 28467030, 29143244, 29825176,
  30512723, 31205781, 31904246, 32608012, 33316975, 34031026, 34750058, 35473964,
  36202634, 36935958, 37673826, 38416127, 39162749, 39913579, 40668505, 41427413,
  42190188, 42956716, 43726882, 44500568, 45277659, 46058038, 46841587, 47628189,
  48417724, 49210073, 50005119, 50802740, 51602816, 52405228, 53209854, 54016574,
  54825265, 55635805, 56448074, 57261948, 58077305, 58894022, 59711976, 60531045,
  61351103, 62172029, 62993699, 63815988, 64638773, 65461930, 66285335, 67108864]

/-- The whole part of 2^27 × 0.5 × (1 − cos(π (k + 1) ÷ 256)) for k = 128 to 191 (R26). -/
def fadeFloor2 : List Nat := [
  67932392, 68755797, 69578954, 70401739, 71224028, 72045698, 72866624, 73686682,
  74505751, 75323705, 76140422, 76955779, 77769653, 78581922, 79392462, 80201153,
  81007873, 81812499, 82614911, 83414987, 84212608, 85007654, 85800003, 86589538,
  87376140, 88159689, 88940068, 89717159, 90490845, 91261011, 92027539, 92790314,
  93549222, 94304148, 95054978, 95801600, 96543901, 97281769, 98015093, 98743763,
  99467669, 100186701, 100900752, 101609715, 102313481, 103011946, 103705004, 104392551,
  105074483, 105750697, 106421092, 107085567, 107744022, 108396357, 109042474, 109682276,
  110315667, 110942551, 111562834, 112176422, 112783223, 113383146, 113976100, 114561996]

/-- The whole part of 2^27 × 0.5 × (1 − cos(π (k + 1) ÷ 256)) for k = 192 to 255 (R26). -/
def fadeFloor3 : List Nat := [
  115140746, 115712262, 116276459, 116833252, 117382556, 117924289, 118458369, 118984717,
  119503252, 120013897, 120516574, 121011208, 121497725, 121976052, 122446115, 122907845,
  123361171, 123806027, 124242343, 124670056, 125089100, 125499413, 125900932, 126293598,
  126677350, 127052132, 127417886, 127774558, 128122094, 128460442, 128789550, 129109369,
  129419852, 129720950, 130012620, 130294816, 130567497, 130830621, 131084149, 131328042,
  131562265, 131786780, 132001556, 132206559, 132401758, 132587125, 132762631, 132928249,
  133083956, 133229727, 133365540, 133491375, 133607214, 133713038, 133808831, 133894580,
  133970271, 134035893, 134091436, 134136892, 134172253, 134197516, 134212674, 134217728]

/-- The whole part of the exact fade-in gain of sample k, in 2^−27 (R26). -/
def fadeFloor (k : Nat) : Nat :=
  if k < 64 then listGet 0 k fadeFloor0
  else if k < 128 then listGet 0 (k - 64) fadeFloor1
  else if k < 192 then listGet 0 (k - 128) fadeFloor2
  else if k < 256 then listGet 0 (k - 192) fadeFloor3
  else 134217728

/-- A gain within 2^−27 of an exact one (R27): the device's choice `pick` among the integers within 1 of the
exact value. `exact` says that the exact value is the whole number `m`. -/
def within27 (m : Nat) (exact : Bool) (pick : Nat) : Nat :=
  if exact then m + pick % 3 - 1 else m + pick % 2

/-- The gain of a fade-in at sample k (R26, R27). Sample 255 and later pass at unity. -/
def gIn (k : Nat) : Nat :=
  if 255 ≤ k then 134217728 else within27 (fadeFloor k) (k == 127) (Config.fadeIn k)

/-- The gain of a fade-out at sample k (R25, R27): g_out(k) is g_in(247 − 8k). Sample 31 and later are 0. -/
def gOut (k : Nat) : Nat :=
  if 31 ≤ k then 0 else within27 (fadeFloor (247 - 8 * k)) (k == 15) (Config.fadeOut k)

/-- The smallest k from `k` on, of `n` left, whose fade-out gain is at or below `g` (R29). -/
def firstOut (g : Nat) : Nat → Nat → Nat
  | k, 0 => k
  | k, n + 1 => if gOut k ≤ g then k else firstOut g (k + 1) n

/-- The smallest k from `k` on, of `n` left, whose fade-in gain is at or above `g` (R29). -/
def firstIn (g : Nat) : Nat → Nat → Nat
  | k, 0 => k
  | k, n + 1 => if g ≤ gIn k then k else firstIn g (k + 1) n

/-- Request a fade-out of one cause (R25, R29). -/
def fadeOut (f : Fade) : Fade :=
  match f.mode with
  | .unity => { f with mode := .fadingOut, k := 0 }
  | .fadingIn => { f with mode := .fadingOut, k := firstOut f.last 0 31 }
  | .fadingOut => f
  | .silent => f

/-- Request a fade-in of one cause (R26, R29). -/
def fadeIn (f : Fade) : Fade :=
  match f.mode with
  | .silent => { f with mode := .fadingIn, k := 0 }
  | .fadingOut => { f with mode := .fadingIn, k := firstIn f.last 0 255 }
  | .fadingIn => f
  | .unity => f

/-- The gain a cause applies to the next sample, and the cause after it. -/
def fadeStep (f : Fade) : Nat × Fade :=
  match f.mode with
  | .unity => (134217728, { f with last := 134217728 })
  | .silent => (0, { f with last := 0 })
  | .fadingOut =>
    let g := gOut f.k
    (g, if 31 ≤ f.k then { mode := .silent, k := 0, last := 0 } else { f with k := f.k + 1, last := g })
  | .fadingIn =>
    let g := gIn f.k
    (g, if 255 ≤ f.k then { mode := .unity, k := 0, last := 134217728 }
        else { f with k := f.k + 1, last := g })

/-- A mix word times the product of gains, truncated once toward minus infinity (R27, R30). -/
def scaleWord (w : Word) (gains : List Nat) : Word :=
  BitVec.ofInt 32 (w.toInt * (gains.foldl (fun (p : Int) (g : Nat) => p * (g : Int)) 1) / (2 : Int) ^ (27 * gains.length))

/-- Step every cause of a list once. -/
def fadeStepAll : List Fade → List Nat × List Fade
  | [] => ([], [])
  | f :: t =>
    let (g, f') := fadeStep f
    let (gs, fs) := fadeStepAll t
    (g :: gs, f' :: fs)

/-- Whether every cause of a list passes samples unchanged. -/
def allUnity (fs : List Fade) : Bool :=
  fs.all (fun f => f.mode == .unity)

/-- Fade the words of a frame under several causes (R30). On a transparent route a word passes unchanged at
gain 1 and is zero below it (R155). -/
def fadeFrame (transp : Bool) (fs : List Fade) : List Word → List Word × List Fade
  | [] => ([], fs)
  | w :: t =>
    let (gs, fs') := fadeStepAll fs
    let w' := if gs.all (fun g => g == 134217728) then w else if transp then 0 else scaleWord w gs
    let (r, fs'') := fadeFrame transp fs' t
    (w' :: r, fs'')

/-- Which of the next `n` samples of a channel the product of its causes does not pass unchanged. -/
def fadeLow (fs : List Fade) : Nat → List Bool
  | 0 => []
  | n + 1 =>
    let (gs, fs') := fadeStepAll fs
    (!gs.all (fun g => g == 134217728)) :: fadeLow fs' n

/-- The words of a route on which no word is scaled: zero where the producer's gain is below 1 (R155). -/
def zeroLow : List Word → List Bool → List Word
  | w :: t, b :: bs => (if b then 0 else w) :: zeroLow t bs
  | ws, _ => ws

/-- Fade the words of a frame under one cause. -/
def fadeFrame1 (f : Fade) (ws : List Word) : List Word × Fade :=
  let (r, fs) := fadeFrame false [f] ws
  (r, fs.headD f)

end Sys2Proof.Machine
end

