-- ==== Sys2Proof/Machine/Objects.lean ====
section
/-! DEFINITION. The object dictionary: one row per object of the spec's object tables, with its type
(R185), access class (R186), valid subindices, range (R478) and default. -/

namespace Sys2Proof.Machine

/-! Object indices. -/

/-- DEVICE_NAME (R7). -/
abbrev Ix.deviceName : Nat := 0x0000
/-- ORDER_CODE (R7). -/
abbrev Ix.orderCode : Nat := 0x0001
/-- STEPPING (R7). -/
abbrev Ix.stepping : Nat := 0x0002
/-- JTAG_IDCODE (R7). -/
abbrev Ix.jtagIdcode : Nat := 0x0003
/-- UNIQUE_ID (R7). -/
abbrev Ix.uniqueId : Nat := 0x0004
/-- FW_VERSION (R7). -/
abbrev Ix.fwVersion : Nat := 0x0005
/-- SEAT (R7). -/
abbrev Ix.seat : Nat := 0x0006
/-- CAP_STRIPS (R7). -/
abbrev Ix.capStrips : Nat := 0x0007
/-- UNIT_LABEL (R7). -/
abbrev Ix.unitLabel : Nat := 0x0008
/-- HOUSE_RATE (R51). -/
abbrev Ix.houseRate : Nat := 0x0100
/-- TICKLEN (R51). -/
abbrev Ix.ticklen : Nat := 0x0101
/-- TICK_NOW (R51). -/
abbrev Ix.tickNow : Nat := 0x0102
/-- TICK_BUDGET (R51). -/
abbrev Ix.tickBudget : Nat := 0x0103
/-- PHASE_PLAN (R51). -/
abbrev Ix.phasePlan : Nat := 0x0104
/-- PLAN_AUTO (R51). -/
abbrev Ix.planAuto : Nat := 0x0105
/-- LATENCY_PROCESSED (R51). -/
abbrev Ix.latencyProcessed : Nat := 0x0106
/-- LATENCY_DIRECT (R51). -/
abbrev Ix.latencyDirect : Nat := 0x0107
/-- EGRESS_CLASS (R51). -/
abbrev Ix.egressClass : Nat := 0x0108
/-- OVERRUN_COUNT (R51). -/
abbrev Ix.overrunCount : Nat := 0x0109
/-- CAP_CHECK (R51). -/
abbrev Ix.capCheck : Nat := 0x010A
/-- ENG_FLAGS (R81). -/
abbrev Ix.engFlags : Nat := 0x0200
/-- ENG_FLAGS_CLR (R81). -/
abbrev Ix.engFlagsClr : Nat := 0x0201
/-- ENG_FLAG_ALARM (R81). -/
abbrev Ix.engFlagAlarm : Nat := 0x0202
/-- ENG_ECC_CE (R81). -/
abbrev Ix.engEccCe : Nat := 0x0203
/-- ENG_ECC_UE (R81). -/
abbrev Ix.engEccUe : Nat := 0x0204
/-- ENG_CTL (R112). -/
abbrev Ix.engCtl : Nat := 0x0210
/-- ENG_STATE (R112). -/
abbrev Ix.engState : Nat := 0x0211
/-- ENG_START_TICK (R112). -/
abbrev Ix.engStartTick : Nat := 0x0212
/-- ENG_IMAGE (R112). -/
abbrev Ix.engImage : Nat := 0x0213
/-- ENG_LOAD_STATUS (R112). -/
abbrev Ix.engLoadStatus : Nat := 0x0214
/-- ENG_IMAGE_ID (R112). -/
abbrev Ix.engImageId : Nat := 0x0215
/-- ENG_SEC_WCET (R112). -/
abbrev Ix.engSecWcet : Nat := 0x0216
/-- ENG_HOLDOFF (R112). -/
abbrev Ix.engHoldoff : Nat := 0x0217
/-- ENG_COST (R112). -/
abbrev Ix.engCost : Nat := 0x0218
/-- ENG_FAULT (R112). -/
abbrev Ix.engFault : Nat := 0x0219
/-- ENG_MBOX_DROPS (R112). -/
abbrev Ix.engMboxDrops : Nat := 0x021A
/-- XP_SRC (R139). -/
abbrev Ix.xpSrc : Nat := 0x0400
/-- XP_BUS (R139). -/
abbrev Ix.xpBus : Nat := 0x0401
/-- XP_EN (R139). -/
abbrev Ix.xpEn : Nat := 0x0402
/-- XP_GAIN (R139). -/
abbrev Ix.xpGain : Nat := 0x0403
/-- XP_POL (R139). -/
abbrev Ix.xpPol : Nat := 0x0404
/-- XP_MODE (R139). -/
abbrev Ix.xpMode : Nat := 0x0405
/-- XP_RAMP_LEN (R139). -/
abbrev Ix.xpRampLen : Nat := 0x0406
/-- XP_GAIN_NOW (R139). -/
abbrev Ix.xpGainNow : Nat := 0x0407
/-- XP_STATE (R139). -/
abbrev Ix.xpState : Nat := 0x0408
/-- ZC_TIMEOUT (R139). -/
abbrev Ix.zcTimeout : Nat := 0x0410
/-- XP_MOTION_COUNT (R139). -/
abbrev Ix.xpMotionCount : Nat := 0x0411
/-- XP_MOTION_MAX (R139). -/
abbrev Ix.xpMotionMax : Nat := 0x0412
/-- ZC_TIMEOUTS (R139). -/
abbrev Ix.zcTimeouts : Nat := 0x0413
/-- BUS_SAT (R139). -/
abbrev Ix.busSat : Nat := 0x0420
/-- BUS_SAT_CLR (R139). -/
abbrev Ix.busSatClr : Nat := 0x0421
/-- BUS_SAT_ALARM (R139). -/
abbrev Ix.busSatAlarm : Nat := 0x0422
/-- BUS_OVF (R139). -/
abbrev Ix.busOvf : Nat := 0x0423
/-- BENCH_SRC_ORDER (R139). -/
abbrev Ix.benchSrcOrder : Nat := 0x0430
/-- BENCH_LOAD (R139). -/
abbrev Ix.benchLoad : Nat := 0x0431
/-- BENCH_LOAD_MAX (R139). -/
abbrev Ix.benchLoadMax : Nat := 0x0432
/-- BENCH_ECC_CE (R139). -/
abbrev Ix.benchEccCe : Nat := 0x0440
/-- BENCH_ECC_UE (R139). -/
abbrev Ix.benchEccUe : Nat := 0x0441
/-- LIM_EN (R139). -/
abbrev Ix.limEn : Nat := 0x0500
/-- LIM_CEIL (R139). -/
abbrev Ix.limCeil : Nat := 0x0501
/-- LIM_RELEASE (R139). -/
abbrev Ix.limRelease : Nat := 0x0502
/-- LIM_GR (R139). -/
abbrev Ix.limGr : Nat := 0x0503
/-- LIM_GR_MAX (R139). -/
abbrev Ix.limGrMax : Nat := 0x0504
/-- LIM_GR_CLR (R139). -/
abbrev Ix.limGrClr : Nat := 0x0505
/-- EGRESS_CLIP_COUNT (R139). -/
abbrev Ix.egressClipCount : Nat := 0x0506
/-- LAT_SEL (R161). -/
abbrev Ix.latSel : Nat := 0x0600
/-- LAT_TAKE (R161). -/
abbrev Ix.latTake : Nat := 0x0601
/-- LAT_OFFSET (R161). -/
abbrev Ix.latOffset : Nat := 0x0602
/-- LAT_TRANSP (R161). -/
abbrev Ix.latTransp : Nat := 0x0603
/-- LAT_MUTE (R161). -/
abbrev Ix.latMute : Nat := 0x0604
/-- LAT_DEST_STATE (R161). -/
abbrev Ix.latDestState : Nat := 0x0605
/-- LAT_ABSENT_COUNT (R161). -/
abbrev Ix.latAbsentCount : Nat := 0x0606
/-- LAT_ABSENT_ALARM (R161). -/
abbrev Ix.latAbsentAlarm : Nat := 0x0607
/-- LAT_TAKE_COUNT (R161). -/
abbrev Ix.latTakeCount : Nat := 0x0610
/-- LAT_TAKE_MAX (R161). -/
abbrev Ix.latTakeMax : Nat := 0x0611
/-- LAT_GATHER_LOAD (R161). -/
abbrev Ix.latGatherLoad : Nat := 0x0612
/-- LAT_DISCARDS (R161). -/
abbrev Ix.latDiscards : Nat := 0x0613
/-- LAT_ENG_MAP (R161). -/
abbrev Ix.latEngMap : Nat := 0x0614
/-- LAT_SRC_STATE (R161). -/
abbrev Ix.latSrcState : Nat := 0x0620
/-- GEN_FREQ (R161). -/
abbrev Ix.genFreq : Nat := 0x0630
/-- GEN_LEVEL (R161). -/
abbrev Ix.genLevel : Nat := 0x0631
/-- LAT_ECC_CE (R161). -/
abbrev Ix.latEccCe : Nat := 0x0640
/-- LAT_ECC_UE (R161). -/
abbrev Ix.latEccUe : Nat := 0x0641
/-- SHUT_GEN (R183). -/
abbrev Ix.shutGen : Nat := 0x0700
/-- SHUT_GEN_TICK (R183). -/
abbrev Ix.shutGenTick : Nat := 0x0701
/-- SHUT_SET_STATE (R183). -/
abbrev Ix.shutSetState : Nat := 0x0702
/-- SHUT_SET_COUNT (R183). -/
abbrev Ix.shutSetCount : Nat := 0x0703
/-- SHUT_SET_CONTENT (R183). -/
abbrev Ix.shutSetContent : Nat := 0x0704
/-- SHUT_STAGE_USED (R183). -/
abbrev Ix.shutStageUsed : Nat := 0x0705
/-- SHUT_PEND_TICK (R183). -/
abbrev Ix.shutPendTick : Nat := 0x0706
/-- SHUT_PEND_ID (R183). -/
abbrev Ix.shutPendId : Nat := 0x0707
/-- SHUT_HISTORY (R183). -/
abbrev Ix.shutHistory : Nat := 0x0708
/-- SHUT_HIST_GEN (R183). -/
abbrev Ix.shutHistGen : Nat := 0x0709
/-- SHUT_HIST_TICK (R183). -/
abbrev Ix.shutHistTick : Nat := 0x070A
/-- SHUT_LEAD_FULL (R183). -/
abbrev Ix.shutLeadFull : Nat := 0x070B
/-- SHUT_MAX_CHANGES (R183). -/
abbrev Ix.shutMaxChanges : Nat := 0x070C
/-- SHUT_REJECTS (R183). -/
abbrev Ix.shutRejects : Nat := 0x070D
/-- PAGE_BASE (R183). -/
abbrev Ix.pageBase : Nat := 0x0710
/-- PAGE_WORDS (R183). -/
abbrev Ix.pageWords : Nat := 0x0711
/-- PARAM (R183). -/
abbrev Ix.param : Nat := 0x0712
/-- PARAM_GAIN (R183). -/
abbrev Ix.paramGain : Nat := 0x0713
/-- PARAM_GAIN_MODE (R183). -/
abbrev Ix.paramGainMode : Nat := 0x0714
/-- STAGE_ECC_CE (R183). -/
abbrev Ix.stageEccCe : Nat := 0x0720
/-- STAGE_ECC_UE (R183). -/
abbrev Ix.stageEccUe : Nat := 0x0721
/-- CTL_IPV4_ADDR (R206). -/
abbrev Ix.ctlIpv4Addr : Nat := 0x0800
/-- CTL_IPV4_MASK (R206). -/
abbrev Ix.ctlIpv4Mask : Nat := 0x0801
/-- CTL_IPV4_GW (R206). -/
abbrev Ix.ctlIpv4Gw : Nat := 0x0802
/-- CTL_MAC (R206). -/
abbrev Ix.ctlMac : Nat := 0x0803
/-- CTL_SESSION_TIMEOUT (R206). -/
abbrev Ix.ctlSessionTimeout : Nat := 0x0804
/-- CTL_TAG_POLICY (R206). -/
abbrev Ix.ctlTagPolicy : Nat := 0x0805
/-- CTL_NOTIFY_GAP (R206). -/
abbrev Ix.ctlNotifyGap : Nat := 0x0806
/-- CTL_SESS_STATE (R206). -/
abbrev Ix.ctlSessState : Nat := 0x0810
/-- CTL_SESS_COUNTER (R206). -/
abbrev Ix.ctlSessCounter : Nat := 0x0811
/-- CTL_SESS_PEER (R206). -/
abbrev Ix.ctlSessPeer : Nat := 0x0812
/-- CTL_CRED_WRAP (R206). -/
abbrev Ix.ctlCredWrap : Nat := 0x0818
/-- CTL_CRED_PRIV (R206). -/
abbrev Ix.ctlCredPriv : Nat := 0x0819
/-- CTL_LOG_CODE (R206). -/
abbrev Ix.ctlLogCode : Nat := 0x0820
/-- CTL_LOG_DETAIL (R206). -/
abbrev Ix.ctlLogDetail : Nat := 0x0821
/-- CTL_LOG_REPEAT (R206). -/
abbrev Ix.ctlLogRepeat : Nat := 0x0822
/-- CTL_LOG_TICK (R206). -/
abbrev Ix.ctlLogTick : Nat := 0x0823
/-- CTL_LOG_HEAD (R206). -/
abbrev Ix.ctlLogHead : Nat := 0x0824
/-- CTL_LOG_ACK (R206). -/
abbrev Ix.ctlLogAck : Nat := 0x0825
/-- CTL_ALARM_MASK (R206). -/
abbrev Ix.ctlAlarmMask : Nat := 0x0826
/-- CTL_FRAMES_OK (R206). -/
abbrev Ix.ctlFramesOk : Nat := 0x0828
/-- CTL_FRAMES_REJ (R206). -/
abbrev Ix.ctlFramesRej : Nat := 0x0829
/-- CTL_FRAMES_DROP (R206). -/
abbrev Ix.ctlFramesDrop : Nat := 0x082A
/-- TDM_EN (R233). -/
abbrev Ix.tdmEn : Nat := 0x0900
/-- TDM_RX_FMT (R233). -/
abbrev Ix.tdmRxFmt : Nat := 0x0901
/-- TDM_TX_FMT (R233). -/
abbrev Ix.tdmTxFmt : Nat := 0x0902
/-- TDM_RX_CLK (R233). -/
abbrev Ix.tdmRxClk : Nat := 0x0903
/-- TDM_TX_CLK (R233). -/
abbrev Ix.tdmTxClk : Nat := 0x0904
/-- TDM_RX_MASK (R233). -/
abbrev Ix.tdmRxMask : Nat := 0x0905
/-- TDM_TX_MASK (R233). -/
abbrev Ix.tdmTxMask : Nat := 0x0906
/-- TDM_FOLLOW (R233). -/
abbrev Ix.tdmFollow : Nat := 0x0907
/-- TDM_STATE (R233). -/
abbrev Ix.tdmState : Nat := 0x0908
/-- TDM_RATE (R233). -/
abbrev Ix.tdmRate : Nat := 0x0909
/-- TDM_PHASE (R233). -/
abbrev Ix.tdmPhase : Nat := 0x090A
/-- TDM_FILL (R233). -/
abbrev Ix.tdmFill : Nat := 0x090B
/-- TDM_NCO_PPM (R233). -/
abbrev Ix.tdmNcoPpm : Nat := 0x090C
/-- TDM_ERRORS (R233). -/
abbrev Ix.tdmErrors : Nat := 0x090D
/-- TDM_DELAY (R233). -/
abbrev Ix.tdmDelay : Nat := 0x090E
/-- AESI_EN (R234). -/
abbrev Ix.aesiEn : Nat := 0x0A00
/-- AESI_ASRC (R234). -/
abbrev Ix.aesiAsrc : Nat := 0x0A01
/-- AESI_STATE (R234). -/
abbrev Ix.aesiState : Nat := 0x0A02
/-- AESI_RATE (R234). -/
abbrev Ix.aesiRate : Nat := 0x0A03
/-- AESI_CS (R234). -/
abbrev Ix.aesiCs : Nat := 0x0A04
/-- AESI_USER (R234). -/
abbrev Ix.aesiUser : Nat := 0x0A05
/-- AESI_ERRORS (R234). -/
abbrev Ix.aesiErrors : Nat := 0x0A06
/-- AESI_NPCM_MODE (R234). -/
abbrev Ix.aesiNpcmMode : Nat := 0x0A07
/-- AESI_DELAY (R234). -/
abbrev Ix.aesiDelay : Nat := 0x0A08
/-- AESO_EN (R234). -/
abbrev Ix.aesoEn : Nat := 0x0A10
/-- AESO_CS (R234). -/
abbrev Ix.aesoCs : Nat := 0x0A11
/-- AESO_CS_SRC (R234). -/
abbrev Ix.aesoCsSrc : Nat := 0x0A12
/-- AESO_USER_SRC (R234). -/
abbrev Ix.aesoUserSrc : Nat := 0x0A13
/-- AESO_VALIDITY (R234). -/
abbrev Ix.aesoValidity : Nat := 0x0A14
/-- ASRC_MAP (R234). -/
abbrev Ix.asrcMap : Nat := 0x0A20
/-- ASRC_RATIO (R234). -/
abbrev Ix.asrcRatio : Nat := 0x0A21
/-- ASRC_STATE (R234). -/
abbrev Ix.asrcState : Nat := 0x0A22
/-- ASRC_FREE (R234). -/
abbrev Ix.asrcFree : Nat := 0x0A23
/-- NET_PORT_SPEED (R259). -/
abbrev Ix.netPortSpeed : Nat := 0x0B00
/-- NET_PORT_ADDR (R259). -/
abbrev Ix.netPortAddr : Nat := 0x0B01
/-- NET_PORT_MASK (R259). -/
abbrev Ix.netPortMask : Nat := 0x0B02
/-- NET_PORT_GW (R259). -/
abbrev Ix.netPortGw : Nat := 0x0B03
/-- NET_SVC_ADDR (R259). -/
abbrev Ix.netSvcAddr : Nat := 0x0B04
/-- NET_PORT_MAC (R259). -/
abbrev Ix.netPortMac : Nat := 0x0B05
/-- NET_LINK (R259). -/
abbrev Ix.netLink : Nat := 0x0B06
/-- NET_PORT_TXLOAD (R259). -/
abbrev Ix.netPortTxload : Nat := 0x0B07
/-- NET_PORT_COUNTS (R259). -/
abbrev Ix.netPortCounts : Nat := 0x0B08
/-- NET_PAIR1_MODE (R259). -/
abbrev Ix.netPair1Mode : Nat := 0x0B10
/-- NRX_MAX_OFFSET (R259). -/
abbrev Ix.nrxMaxOffset : Nat := 0x0B11
/-- NRX_EN (R260). -/
abbrev Ix.nrxEn : Nat := 0x0B40
/-- NRX_PAIR (R260). -/
abbrev Ix.nrxPair : Nat := 0x0B41
/-- NRX_DST (R260). -/
abbrev Ix.nrxDst : Nat := 0x0B42
/-- NRX_SRC (R260). -/
abbrev Ix.nrxSrc : Nat := 0x0B43
/-- NRX_UDP (R260). -/
abbrev Ix.nrxUdp : Nat := 0x0B44
/-- NRX_FMT (R260). -/
abbrev Ix.nrxFmt : Nat := 0x0B45
/-- NRX_SSRC (R260). -/
abbrev Ix.nrxSsrc : Nat := 0x0B46
/-- NRX_BASE (R260). -/
abbrev Ix.nrxBase : Nat := 0x0B47
/-- NRX_OFFSET (R260). -/
abbrev Ix.nrxOffset : Nat := 0x0B48
/-- NRX_STATE (R260). -/
abbrev Ix.nrxState : Nat := 0x0B49
/-- NRX_STATS (R260). -/
abbrev Ix.nrxStats : Nat := 0x0B4A
/-- NTX_EN (R260). -/
abbrev Ix.ntxEn : Nat := 0x0C00
/-- NTX_PAIR (R260). -/
abbrev Ix.ntxPair : Nat := 0x0C01
/-- NTX_DST (R260). -/
abbrev Ix.ntxDst : Nat := 0x0C02
/-- NTX_UDP (R260). -/
abbrev Ix.ntxUdp : Nat := 0x0C03
/-- NTX_FMT (R260). -/
abbrev Ix.ntxFmt : Nat := 0x0C04
/-- NTX_SSRC (R260). -/
abbrev Ix.ntxSsrc : Nat := 0x0C05
/-- NTX_BASE (R260). -/
abbrev Ix.ntxBase : Nat := 0x0C06
/-- NTX_IPHDR (R260). -/
abbrev Ix.ntxIphdr : Nat := 0x0C07
/-- NTX_CS_SRC (R260). -/
abbrev Ix.ntxCsSrc : Nat := 0x0C08
/-- NTX_STATE (R260). -/
abbrev Ix.ntxState : Nat := 0x0C09
/-- NTX_PACKETS (R260). -/
abbrev Ix.ntxPackets : Nat := 0x0C0A
/-- TIME_NOW (R279). -/
abbrev Ix.timeNow : Nat := 0x0D00
/-- TIME_STATE (R279). -/
abbrev Ix.timeState : Nat := 0x0D01
/-- TIME_OFFSET (R279). -/
abbrev Ix.timeOffset : Nat := 0x0D02
/-- TIME_RATE (R279). -/
abbrev Ix.timeRate : Nat := 0x0D03
/-- TIME_SLEW_PPM (R279). -/
abbrev Ix.timeSlewPpm : Nat := 0x0D04
/-- TIME_SLEW_SLOPE (R279). -/
abbrev Ix.timeSlewSlope : Nat := 0x0D05
/-- TIME_LOCK_LIMIT (R279). -/
abbrev Ix.timeLockLimit : Nat := 0x0D06
/-- TIME_STEP_ALARM (R279). -/
abbrev Ix.timeStepAlarm : Nat := 0x0D07
/-- TIME_RESTEP (R279). -/
abbrev Ix.timeRestep : Nat := 0x0D08
/-- TIME_SET (R279). -/
abbrev Ix.timeSet : Nat := 0x0D09
/-- TIME_SYSCNT (R279). -/
abbrev Ix.timeSyscnt : Nat := 0x0D0A
/-- TIME_TICK_STAMP (R279). -/
abbrev Ix.timeTickStamp : Nat := 0x0D0B
/-- PTP_ROLE (R279). -/
abbrev Ix.ptpRole : Nat := 0x0D20
/-- PTP_PROFILE (R279). -/
abbrev Ix.ptpProfile : Nat := 0x0D21
/-- PTP_DOMAIN (R279). -/
abbrev Ix.ptpDomain : Nat := 0x0D22
/-- PTP_CFG (R279). -/
abbrev Ix.ptpCfg : Nat := 0x0D23
/-- PTP_INTERVALS (R279). -/
abbrev Ix.ptpIntervals : Nat := 0x0D24
/-- PTP_PRIORITY (R279). -/
abbrev Ix.ptpPriority : Nat := 0x0D25
/-- PTP_STATE (R279). -/
abbrev Ix.ptpState : Nat := 0x0D26
/-- PTP_GM_ID (R279). -/
abbrev Ix.ptpGmId : Nat := 0x0D27
/-- PTP_GM_QUALITY (R279). -/
abbrev Ix.ptpGmQuality : Nat := 0x0D28
/-- PTP_OFFSET (R279). -/
abbrev Ix.ptpOffset : Nat := 0x0D29
/-- PTP_PATH_DELAY (R279). -/
abbrev Ix.ptpPathDelay : Nat := 0x0D2A
/-- PTP_ASYM (R279). -/
abbrev Ix.ptpAsym : Nat := 0x0D2B
/-- PTP_SM_RX (R279). -/
abbrev Ix.ptpSmRx : Nat := 0x0D2C
/-- PTP_SM_TX (R279). -/
abbrev Ix.ptpSmTx : Nat := 0x0D2D
/-- TRIG_MODE (R279). -/
abbrev Ix.trigMode : Nat := 0x0D40
/-- TRIG_TIME (R279). -/
abbrev Ix.trigTime : Nat := 0x0D41
/-- TRIG_TICK (R279). -/
abbrev Ix.trigTick : Nat := 0x0D42
/-- TRIG_PERIOD (R279). -/
abbrev Ix.trigPeriod : Nat := 0x0D43
/-- TRIG_OFFSET (R279). -/
abbrev Ix.trigOffset : Nat := 0x0D44
/-- TRIG_WIDTH (R279). -/
abbrev Ix.trigWidth : Nat := 0x0D45
/-- TRIG_CFG (R279). -/
abbrev Ix.trigCfg : Nat := 0x0D46
/-- TRIG_STATE (R279). -/
abbrev Ix.trigState : Nat := 0x0D47
/-- TRIG_LAST (R279). -/
abbrev Ix.trigLast : Nat := 0x0D48
/-- TRIG_COUNT (R279). -/
abbrev Ix.trigCount : Nat := 0x0D49
/-- CAPT_EN (R279). -/
abbrev Ix.captEn : Nat := 0x0D60
/-- CAPT_SEQ (R279). -/
abbrev Ix.captSeq : Nat := 0x0D61
/-- CAPT_LOG (R279). -/
abbrev Ix.captLog : Nat := 0x0D62
/-- CAPT_EDGE (R279). -/
abbrev Ix.captEdge : Nat := 0x0D63
/-- CAPT_DROPS (R279). -/
abbrev Ix.captDrops : Nat := 0x0D64
/-- SELECTED_REF (R299). -/
abbrev Ix.selectedRef : Nat := 0x0E00
/-- REF_ACTIVE (R299). -/
abbrev Ix.refActive : Nat := 0x0E01
/-- REF_PRIORITY (R299). -/
abbrev Ix.refPriority : Nat := 0x0E02
/-- REF_REVERT (R299). -/
abbrev Ix.refRevert : Nat := 0x0E03
/-- QL_LIMIT (R299). -/
abbrev Ix.qlLimit : Nat := 0x0E04
/-- REF_FIXED_QL (R299). -/
abbrev Ix.refFixedQl : Nat := 0x0E05
/-- REF_QL (R299). -/
abbrev Ix.refQl : Nat := 0x0E06
/-- REF_STATE (R299). -/
abbrev Ix.refState : Nat := 0x0E07
/-- REF_FREQ (R299). -/
abbrev Ix.refFreq : Nat := 0x0E08
/-- REF_PHASE (R299). -/
abbrev Ix.refPhase : Nat := 0x0E09
/-- REF_QUAL_TIME (R299). -/
abbrev Ix.refQualTime : Nat := 0x0E0A
/-- REF_SOFT_WIN (R299). -/
abbrev Ix.refSoftWin : Nat := 0x0E0B
/-- REF_HARD_WIN (R299). -/
abbrev Ix.refHardWin : Nat := 0x0E0C
/-- REF_DRIFT_LIM (R299). -/
abbrev Ix.refDriftLim : Nat := 0x0E0D
/-- REF_HYST (R299). -/
abbrev Ix.refHyst : Nat := 0x0E0E
/-- REF_JUMP (R299). -/
abbrev Ix.refJump : Nat := 0x0E0F
/-- REF_OSC_TOL (R299). -/
abbrev Ix.refOscTol : Nat := 0x0E10
/-- REF_HOLD_OSC (R299). -/
abbrev Ix.refHoldOsc : Nat := 0x0E11
/-- REF_HOLD_EST (R299). -/
abbrev Ix.refHoldEst : Nat := 0x0E12
/-- REF_HOLD_VALID (R299). -/
abbrev Ix.refHoldValid : Nat := 0x0E13
/-- REF_HOLD_SPEC (R299). -/
abbrev Ix.refHoldSpec : Nat := 0x0E14
/-- REF_OWN_QL (R299). -/
abbrev Ix.refOwnQl : Nat := 0x0E15
/-- REF_BUILDOUT (R299). -/
abbrev Ix.refBuildout : Nat := 0x0E16
/-- REF_PHASE_STEP (R299). -/
abbrev Ix.refPhaseStep : Nat := 0x0E17
/-- REF_PHASE_FORCE (R299). -/
abbrev Ix.refPhaseForce : Nat := 0x0E18
/-- REF_PHASE_TOTAL (R299). -/
abbrev Ix.refPhaseTotal : Nat := 0x0E19
/-- REF_WCLK_MODE (R299). -/
abbrev Ix.refWclkMode : Nat := 0x0E1A
/-- REF_BW (R299). -/
abbrev Ix.refBw : Nat := 0x0E1B
/-- REF_SWITCHES (R299). -/
abbrev Ix.refSwitches : Nat := 0x0E1C
/-- SYSPLL_ACTIVE (R319). -/
abbrev Ix.syspllActive : Nat := 0x0F00
/-- SYSPLL_STATE (R319). -/
abbrev Ix.syspllState : Nat := 0x0F01
/-- SYSPLL_SELECT (R319). -/
abbrev Ix.syspllSelect : Nat := 0x0F02
/-- SYSPLL_LOSSES (R319). -/
abbrev Ix.syspllLosses : Nat := 0x0F03
/-- MEDSYN_FAMILY (R319). -/
abbrev Ix.medsynFamily : Nat := 0x0F10
/-- MEDSYN_STATE (R319). -/
abbrev Ix.medsynState : Nat := 0x0F11
/-- MEDSYN_OFFSET (R319). -/
abbrev Ix.medsynOffset : Nat := 0x0F12
/-- MEDSYN_SLOPE (R319). -/
abbrev Ix.medsynSlope : Nat := 0x0F13
/-- MEDSYN_OFFSET_NOW (R319). -/
abbrev Ix.medsynOffsetNow : Nat := 0x0F14
/-- MEDSYN_BANDMEM (R319). -/
abbrev Ix.medsynBandmem : Nat := 0x0F15
/-- MEDSYN_FENCE_DROPS (R319). -/
abbrev Ix.medsynFenceDrops : Nat := 0x0F16
/-- CLK_REACQ_SLOPE (R319). -/
abbrev Ix.clkReacqSlope : Nat := 0x0F17
/-- RAMP_SEG (R319). -/
abbrev Ix.rampSeg : Nat := 0x0F20
/-- RAMP_LEN (R319). -/
abbrev Ix.rampLen : Nat := 0x0F21
/-- RAMP_START_TICK (R319). -/
abbrev Ix.rampStartTick : Nat := 0x0F22
/-- RAMP_START (R319). -/
abbrev Ix.rampStart : Nat := 0x0F23
/-- RAMP_STATE (R319). -/
abbrev Ix.rampState : Nat := 0x0F24
/-- WCLK_OUT_CFG (R319). -/
abbrev Ix.wclkOutCfg : Nat := 0x0F30
/-- MCLK_CFG (R319). -/
abbrev Ix.mclkCfg : Nat := 0x0F31
/-- CLK_SYNC_MODE (R319). -/
abbrev Ix.clkSyncMode : Nat := 0x0F40
/-- CLK_SYNC_ARM (R319). -/
abbrev Ix.clkSyncArm : Nat := 0x0F41
/-- CLK_SYNC_DEBOUNCE (R319). -/
abbrev Ix.clkSyncDebounce : Nat := 0x0F42
/-- CLK_SYNC_DELAY (R319). -/
abbrev Ix.clkSyncDelay : Nat := 0x0F43
/-- CLK_SYNC_SET (R319). -/
abbrev Ix.clkSyncSet : Nat := 0x0F44
/-- CLK_SYNC_STATE (R319). -/
abbrev Ix.clkSyncState : Nat := 0x0F45
/-- CLK_SYNC_LAST (R319). -/
abbrev Ix.clkSyncLast : Nat := 0x0F46
/-- CLK_SYNC_IGNORED (R319). -/
abbrev Ix.clkSyncIgnored : Nat := 0x0F47
/-- CLK_SYNC_REPAIRS (R319). -/
abbrev Ix.clkSyncRepairs : Nat := 0x0F48
/-- PAIR_MODE (R344). -/
abbrev Ix.pairMode : Nat := 0x1000
/-- PAIR_ID (R344). -/
abbrev Ix.pairId : Nat := 0x1001
/-- PAIR_ROLE (R344). -/
abbrev Ix.pairRole : Nat := 0x1002
/-- PAIR_CMD (R344). -/
abbrev Ix.pairCmd : Nat := 0x1003
/-- PAIR_AUTO_JOIN (R344). -/
abbrev Ix.pairAutoJoin : Nat := 0x1004
/-- PAIR_PEER_ROLE (R344). -/
abbrev Ix.pairPeerRole : Nat := 0x1005
/-- PAIR_PEER_GEN (R344). -/
abbrev Ix.pairPeerGen : Nat := 0x1006
/-- PAIR_PEER_ID (R344). -/
abbrev Ix.pairPeerId : Nat := 0x1007
/-- PAIR_LINK (R344). -/
abbrev Ix.pairLink : Nat := 0x1008
/-- PAIR_HB_MISSED (R344). -/
abbrev Ix.pairHbMissed : Nat := 0x1009
/-- PAIR_EVIDENCE (R344). -/
abbrev Ix.pairEvidence : Nat := 0x100A
/-- PAIR_MIRROR_LAG (R344). -/
abbrev Ix.pairMirrorLag : Nat := 0x100B
/-- PAIR_WATCH (R344). -/
abbrev Ix.pairWatch : Nat := 0x1010
/-- PAIR_WITNESS_ADDR (R344). -/
abbrev Ix.pairWitnessAddr : Nat := 0x1011
/-- PAIR_WITNESS_PORT (R344). -/
abbrev Ix.pairWitnessPort : Nat := 0x1012
/-- PAIR_WITNESS_SLOT (R344). -/
abbrev Ix.pairWitnessSlot : Nat := 0x1013
/-- PAIR_WITNESS_TIMEOUT (R344). -/
abbrev Ix.pairWitnessTimeout : Nat := 0x1014
/-- PAIR_CLAIM_DELAY (R344). -/
abbrev Ix.pairClaimDelay : Nat := 0x1015
/-- PAIR_WARM_TICKS (R344). -/
abbrev Ix.pairWarmTicks : Nat := 0x1016
/-- PAIR_OUT_HOLD (R344). -/
abbrev Ix.pairOutHold : Nat := 0x1017
/-- PAIR_SWAP_STRICT (R344). -/
abbrev Ix.pairSwapStrict : Nat := 0x1018
/-- PAIR_SWAP_INTERVAL (R344). -/
abbrev Ix.pairSwapInterval : Nat := 0x1019
/-- PAIR_AUDIT_PERIOD (R344). -/
abbrev Ix.pairAuditPeriod : Nat := 0x101A
/-- PAIR_STATE_REGION (R344). -/
abbrev Ix.pairStateRegion : Nat := 0x1020
/-- PAIR_GR_REGION (R344). -/
abbrev Ix.pairGrRegion : Nat := 0x1021
/-- PAIR_DIGEST (R344). -/
abbrev Ix.pairDigest : Nat := 0x1030
/-- PAIR_DIGEST_GEN (R344). -/
abbrev Ix.pairDigestGen : Nat := 0x1031
/-- PAIR_DIGEST_OK (R344). -/
abbrev Ix.pairDigestOk : Nat := 0x1032
/-- PAIR_SWAP_TICK (R344). -/
abbrev Ix.pairSwapTick : Nat := 0x1033
/-- PAIR_LAST_DOOR (R344). -/
abbrev Ix.pairLastDoor : Nat := 0x1034
/-- PAIR_TAKEOVERS (R344). -/
abbrev Ix.pairTakeovers : Nat := 0x1035
/-- PAIR_RESYNCS (R344). -/
abbrev Ix.pairResyncs : Nat := 0x1036
/-- PAIR_WARM_DIFF (R344). -/
abbrev Ix.pairWarmDiff : Nat := 0x1037
/-- FAB_DRAM_SIZE (R371). -/
abbrev Ix.fabDramSize : Nat := 0x1100
/-- FAB_DRAM_SPEED (R371). -/
abbrev Ix.fabDramSpeed : Nat := 0x1101
/-- FAB_DLY_STORE_SIZE (R371). -/
abbrev Ix.fabDlyStoreSize : Nat := 0x1102
/-- FAB_DLY_BUDGET (R371). -/
abbrev Ix.fabDlyBudget : Nat := 0x1103
/-- FAB_DLY_LOAD (R371). -/
abbrev Ix.fabDlyLoad : Nat := 0x1104
/-- FAB_DLY_BASE (R371). -/
abbrev Ix.fabDlyBase : Nat := 0x1110
/-- FAB_DLY_LEN (R371). -/
abbrev Ix.fabDlyLen : Nat := 0x1111
/-- FAB_DLY_IN (R371). -/
abbrev Ix.fabDlyIn : Nat := 0x1112
/-- FAB_DLY_OUT (R371). -/
abbrev Ix.fabDlyOut : Nat := 0x1113
/-- FAB_DLY_DELAY (R371). -/
abbrev Ix.fabDlyDelay : Nat := 0x1114
/-- FAB_DLY_STATE (R371). -/
abbrev Ix.fabDlyState : Nat := 0x1115
/-- FAB_BANK_ECC_CE (R371). -/
abbrev Ix.fabBankEccCe : Nat := 0x1120
/-- FAB_BANK_ECC_UE (R371). -/
abbrev Ix.fabBankEccUe : Nat := 0x1121
/-- FAB_BANK_SPARES (R371). -/
abbrev Ix.fabBankSpares : Nat := 0x1122
/-- FAB_ERR_LOG (R371). -/
abbrev Ix.fabErrLog : Nat := 0x1130
/-- FAB_ERR_COUNT (R371). -/
abbrev Ix.fabErrCount : Nat := 0x1131
/-- FAB_RESET_BURSTS (R371). -/
abbrev Ix.fabResetBursts : Nat := 0x1132
/-- DRAM_LINK_CE (R371). -/
abbrev Ix.dramLinkCe : Nat := 0x1140
/-- DRAM_LINK_UE (R371). -/
abbrev Ix.dramLinkUe : Nat := 0x1141
/-- DRAM_LOAD (R371). -/
abbrev Ix.dramLoad : Nat := 0x1142
/-- RSV_POLICY (R393). -/
abbrev Ix.rsvPolicy : Nat := 0x1200
/-- RSV_CMD (R393). -/
abbrev Ix.rsvCmd : Nat := 0x1201
/-- RSV_ENG_STATE (R393). -/
abbrev Ix.rsvEngState : Nat := 0x1202
/-- RSV_ENG_SLACK (R393). -/
abbrev Ix.rsvEngSlack : Nat := 0x1203
/-- RSV_ENG_CE (R393). -/
abbrev Ix.rsvEngCe : Nat := 0x1204
/-- RSV_ENG_FAULTS (R393). -/
abbrev Ix.rsvEngFaults : Nat := 0x1205
/-- RSV_SLACK_WARN (R393). -/
abbrev Ix.rsvSlackWarn : Nat := 0x1206
/-- RSV_SLACK_RETIRE (R393). -/
abbrev Ix.rsvSlackRetire : Nat := 0x1207
/-- RSV_CE_LIMIT (R393). -/
abbrev Ix.rsvCeLimit : Nat := 0x1208
/-- RSV_ROW_CE_LIMIT (R393). -/
abbrev Ix.rsvRowCeLimit : Nat := 0x1209
/-- RSV_LEAF_TEST_PERIOD (R393). -/
abbrev Ix.rsvLeafTestPeriod : Nat := 0x120A
/-- RSV_SHADOW_CHECK (R393). -/
abbrev Ix.rsvShadowCheck : Nat := 0x120B
/-- RSV_MIG_STATE (R393). -/
abbrev Ix.rsvMigState : Nat := 0x1210
/-- RSV_MIG_TICK (R393). -/
abbrev Ix.rsvMigTick : Nat := 0x1211
/-- RSV_MIGRATIONS (R393). -/
abbrev Ix.rsvMigrations : Nat := 0x1212
/-- RSV_MIG_DIFFS (R393). -/
abbrev Ix.rsvMigDiffs : Nat := 0x1213
/-- RSV_LANES (R393). -/
abbrev Ix.rsvLanes : Nat := 0x1220
/-- RSV_LANE_SLACK (R393). -/
abbrev Ix.rsvLaneSlack : Nat := 0x1221
/-- RSV_LANE_RESIDUE (R393). -/
abbrev Ix.rsvLaneResidue : Nat := 0x1222
/-- RSV_ROWS (R393). -/
abbrev Ix.rsvRows : Nat := 0x1230
/-- RSV_REPAIR_FUSES (R393). -/
abbrev Ix.rsvRepairFuses : Nat := 0x1231
/-- RSV_REPAIR_LOG (R393). -/
abbrev Ix.rsvRepairLog : Nat := 0x1232
/-- RSV_LEAVES (R393). -/
abbrev Ix.rsvLeaves : Nat := 0x1240
/-- PMU_ENG_EVT (R405). -/
abbrev Ix.pmuEngEvt : Nat := 0x1300
/-- PMU_ENG_EN (R405). -/
abbrev Ix.pmuEngEn : Nat := 0x1301
/-- PMU_ENG_IRQ (R405). -/
abbrev Ix.pmuEngIrq : Nat := 0x1302
/-- PMU_ENG_USER (R405). -/
abbrev Ix.pmuEngUser : Nat := 0x1303
/-- PMU_ENG_COUNT (R405). -/
abbrev Ix.pmuEngCount : Nat := 0x1304
/-- PMU_ENG_OVF (R405). -/
abbrev Ix.pmuEngOvf : Nat := 0x1305
/-- PMU_ENG_OVF_CLR (R405). -/
abbrev Ix.pmuEngOvfClr : Nat := 0x1306
/-- PMU_ENG_OVFPC (R405). -/
abbrev Ix.pmuEngOvfpc : Nat := 0x1307
/-- PMU_ENG_OVF_ALARM (R405). -/
abbrev Ix.pmuEngOvfAlarm : Nat := 0x1308
/-- PMU_FAB_SEL (R405). -/
abbrev Ix.pmuFabSel : Nat := 0x1310
/-- PMU_FAB_COUNT (R405). -/
abbrev Ix.pmuFabCount : Nat := 0x1311
/-- PMU_BENCH_SEL (R405). -/
abbrev Ix.pmuBenchSel : Nat := 0x1320
/-- PMU_BENCH_COUNT (R405). -/
abbrev Ix.pmuBenchCount : Nat := 0x1321
/-- PMU_NET_SEL (R405). -/
abbrev Ix.pmuNetSel : Nat := 0x1330
/-- PMU_NET_COUNT (R405). -/
abbrev Ix.pmuNetCount : Nat := 0x1331
/-- PMU_OVF (R405). -/
abbrev Ix.pmuOvf : Nat := 0x1340
/-- PMU_OVF_CLR (R405). -/
abbrev Ix.pmuOvfClr : Nat := 0x1341
/-- PMU_OVF_ALARM (R405). -/
abbrev Ix.pmuOvfAlarm : Nat := 0x1342
/-- SEC_LIFECYCLE (R423). -/
abbrev Ix.secLifecycle : Nat := 0x1400
/-- SEC_LC_ADVANCE (R423). -/
abbrev Ix.secLcAdvance : Nat := 0x1401
/-- SEC_RECOVERY_WRAP (R423). -/
abbrev Ix.secRecoveryWrap : Nat := 0x1402
/-- SEC_IMG_KEY_HASH (R423). -/
abbrev Ix.secImgKeyHash : Nat := 0x1403
/-- SEC_IMG_PUBKEY (R423). -/
abbrev Ix.secImgPubkey : Nat := 0x1404
/-- SEC_SIGN_REQUIRED (R423). -/
abbrev Ix.secSignRequired : Nat := 0x1405
/-- SEC_DBG_KEY_HASH (R423). -/
abbrev Ix.secDbgKeyHash : Nat := 0x1406
/-- SEC_TAMPER_EN (R423). -/
abbrev Ix.secTamperEn : Nat := 0x1410
/-- SEC_TAMPER_STATE (R423). -/
abbrev Ix.secTamperState : Nat := 0x1411
/-- SEC_TAMPER_CLR (R423). -/
abbrev Ix.secTamperClr : Nat := 0x1412
/-- SEC_TAMPER_RAW (R423). -/
abbrev Ix.secTamperRaw : Nat := 0x1413
/-- SEC_TAMPER_TICK (R423). -/
abbrev Ix.secTamperTick : Nat := 0x1414
/-- SEC_DIE_TEMP (R423). -/
abbrev Ix.secDieTemp : Nat := 0x1415
/-- SEC_WIPES (R423). -/
abbrev Ix.secWipes : Nat := 0x1420
/-- SEC_EPOCH_LEFT (R423). -/
abbrev Ix.secEpochLeft : Nat := 0x1421
/-- SEC_DBG_CHALLENGE (R423). -/
abbrev Ix.secDbgChallenge : Nat := 0x1430
/-- SEC_DBG_RESPONSE (R423). -/
abbrev Ix.secDbgResponse : Nat := 0x1431
/-- SEC_DBG_STATE (R423). -/
abbrev Ix.secDbgState : Nat := 0x1432
/-- SEC_DBG_END (R423). -/
abbrev Ix.secDbgEnd : Nat := 0x1433
/-- CUE_EN (R440). -/
abbrev Ix.cueEn : Nat := 0x1500
/-- CUE_FS_VPK (R440). -/
abbrev Ix.cueFsVpk : Nat := 0x1501
/-- CUE_STATE (R440). -/
abbrev Ix.cueState : Nat := 0x1502
/-- CUE_CHECK_RESULT (R440). -/
abbrev Ix.cueCheckResult : Nat := 0x1503
/-- CUE_RETRIES (R440). -/
abbrev Ix.cueRetries : Nat := 0x1504
/-- CUE_CMD (R440). -/
abbrev Ix.cueCmd : Nat := 0x1505
/-- CUE_Z (R440). -/
abbrev Ix.cueZ : Nat := 0x1506
/-- CUE_Z_LIMITS (R440). -/
abbrev Ix.cueZLimits : Nat := 0x1507
/-- CUE_FAULTS (R440). -/
abbrev Ix.cueFaults : Nat := 0x1508
/-- CUE_FOSC (R440). -/
abbrev Ix.cueFosc : Nat := 0x1509
/-- CUE_TEMP (R440). -/
abbrev Ix.cueTemp : Nat := 0x150A
/-- CUE_BST_V (R440). -/
abbrev Ix.cueBstV : Nat := 0x1510
/-- CUE_BST_VMIN (R440). -/
abbrev Ix.cueBstVmin : Nat := 0x1511
/-- CUE_PVDD (R440). -/
abbrev Ix.cuePvdd : Nat := 0x1512
/-- BOOT_STAGE (R458). -/
abbrev Ix.bootStage : Nat := 0x1600
/-- BOOT_RESET_CAUSE (R458). -/
abbrev Ix.bootResetCause : Nat := 0x1601
/-- BOOT_RESET_COUNT (R458). -/
abbrev Ix.bootResetCount : Nat := 0x1602
/-- BOOT_STRAPS (R458). -/
abbrev Ix.bootStraps : Nat := 0x1603
/-- BOOT_SOURCE (R458). -/
abbrev Ix.bootSource : Nat := 0x1604
/-- BOOT_TIME (R458). -/
abbrev Ix.bootTime : Nat := 0x1605
/-- BOOT_SLOT_VERSION (R458). -/
abbrev Ix.bootSlotVersion : Nat := 0x1606
/-- BOOT_SLOT_SEQ (R458). -/
abbrev Ix.bootSlotSeq : Nat := 0x1607
/-- BOOT_FW_IMAGE (R458). -/
abbrev Ix.bootFwImage : Nat := 0x1608
/-- BOOT_FW_STATUS (R458). -/
abbrev Ix.bootFwStatus : Nat := 0x1609
/-- BOOT_RESET (R458). -/
abbrev Ix.bootReset : Nat := 0x160A
/-- QUIET_MODE (R458). -/
abbrev Ix.quietMode : Nat := 0x160B

/-- Objects 0x0000–0x00FF (R7). -/
def objRows00 : List ObjRow := [
  { ix := 0x0000, name := "DEVICE_NAME", ty := .string, acc := .ro, subs := .one, rng := .any, dflt := .bytes [0x44, 0x61, 0x72, 0x6F, 0x6E, 0x64] },
  { ix := 0x0001, name := "ORDER_CODE", ty := .string, acc := .ro, subs := .one, rng := .any, dflt := .bytes [0x44, 0x52, 0x44, 0x32, 0x30, 0x34, 0x38, 0x2D, 0x41, 0x31, 0x2D, 0x46, 0x43] },
  { ix := 0x0002, name := "STEPPING", ty := .u8, acc := .ro, subs := .one, rng := .any, dflt := .int 161 },
  { ix := 0x0003, name := "JTAG_IDCODE", ty := .u32, acc := .ro, subs := .one, rng := .any, dflt := .int 488655471 },
  { ix := 0x0004, name := "UNIQUE_ID", ty := .u64, acc := .ro, subs := .one, rng := .any, dflt := .int Config.uniqueId },
  { ix := 0x0005, name := "FW_VERSION", ty := .u32, acc := .ro, subs := .one, rng := .any, dflt := .int 0 },
  { ix := 0x0006, name := "SEAT", ty := .u8, acc := .ro, subs := .one, rng := .any, dflt := .int 0 },
  { ix := 0x0007, name := "CAP_STRIPS", ty := .u16, acc := .ro, subs := .upto 3, rng := .any, dflt := .int 0 },
  { ix := 0x0008, name := "UNIT_LABEL", ty := .string, acc := .rws, subs := .one, rng := .any, dflt := .bytes [] }]

/-- Objects 0x0100–0x01FF (R51). -/
def objRows01 : List ObjRow := [
  { ix := 0x0100, name := "HOUSE_RATE", ty := .u8, acc := .rwk, subs := .one, rng := .btw 0 5, dflt := .int 3 },
  { ix := 0x0101, name := "TICKLEN", ty := .u8, acc := .rwk, subs := .one, rng := .oneOf [2, 4, 8, 16, 32], dflt := .int 8 },
  { ix := 0x0102, name := "TICK_NOW", ty := .tick64, acc := .ro, subs := .one, rng := .any, dflt := .int 0 },
  { ix := 0x0103, name := "TICK_BUDGET", ty := .u32, acc := .ro, subs := .one, rng := .any, dflt := .int 83291 },
  { ix := 0x0104, name := "PHASE_PLAN", ty := .u32, acc := .rwk, subs := .upto 12, rng := .any, dflt := .int 0 },
  { ix := 0x0105, name := "PLAN_AUTO", ty := .bool, acc := .rwk, subs := .one, rng := .any, dflt := .int 1 },
  { ix := 0x0106, name := "LATENCY_PROCESSED", ty := .u16, acc := .ro, subs := .one, rng := .any, dflt := .int 21 },
  { ix := 0x0107, name := "LATENCY_DIRECT", ty := .u16, acc := .ro, subs := .one, rng := .any, dflt := .int 13 },
  { ix := 0x0108, name := "EGRESS_CLASS", ty := .u8, acc := .rws, subs := .phys, rng := .btw 0 1, dflt := .int 0 },
  { ix := 0x0109, name := "OVERRUN_COUNT", ty := .u32, acc := .ro, subs := .upto 19, rng := .any, dflt := .int 0 },
  { ix := 0x010A, name := "CAP_CHECK", ty := .u8, acc := .ro, subs := .one, rng := .any, dflt := .int 0 }]

/-- Objects 0x0200–0x02FF (R81, R112). -/
def objRows02 : List ObjRow := [
  { ix := 0x0200, name := "ENG_FLAGS", ty := .u8, acc := .ro, subs := .upto 16, rng := .any, dflt := .int 0 },
  { ix := 0x0201, name := "ENG_FLAGS_CLR", ty := .u8, acc := .wo, subs := .upto 16, rng := .mask 0x7, dflt := .int 0 },
  { ix := 0x0202, name := "ENG_FLAG_ALARM", ty := .u8, acc := .rw, subs := .upto 16, rng := .mask 0x7, dflt := .int 0 },
  { ix := 0x0203, name := "ENG_ECC_CE", ty := .u32, acc := .ro, subs := .upto 16, rng := .any, dflt := .int 0 },
  { ix := 0x0204, name := "ENG_ECC_UE", ty := .u32, acc := .ro, subs := .upto 16, rng := .any, dflt := .int 0 },
  { ix := 0x0210, name := "ENG_CTL", ty := .u8, acc := .rwk, subs := .upto 16, rng := .btw 0 2, dflt := .int 0 },
  { ix := 0x0211, name := "ENG_STATE", ty := .u8, acc := .ro, subs := .upto 16, rng := .any, dflt := .int 0 },
  { ix := 0x0212, name := "ENG_START_TICK", ty := .tick64, acc := .rwk, subs := .upto 16, rng := .any, dflt := .int 0 },
  { ix := 0x0213, name := "ENG_IMAGE", ty := .domain, acc := .rwk, subs := .upto 16, rng := .any, dflt := .bytes [] },
  { ix := 0x0214, name := "ENG_LOAD_STATUS", ty := .u8, acc := .ro, subs := .upto 16, rng := .any, dflt := .int 0 },
  { ix := 0x0215, name := "ENG_IMAGE_ID", ty := .u64, acc := .ro, subs := .upto 16, rng := .any, dflt := .int 0 },
  { ix := 0x0216, name := "ENG_SEC_WCET", ty := .u32, acc := .ro, subs := .upto 32, rng := .any, dflt := .int 0 },
  { ix := 0x0217, name := "ENG_HOLDOFF", ty := .u32, acc := .ro, subs := .upto 16, rng := .any, dflt := .int 0 },
  { ix := 0x0218, name := "ENG_COST", ty := .u32, acc := .ro, subs := .upto 16, rng := .any, dflt := .int 0 },
  { ix := 0x0219, name := "ENG_FAULT", ty := .u8, acc := .ro, subs := .upto 16, rng := .any, dflt := .int 0 },
  { ix := 0x021A, name := "ENG_MBOX_DROPS", ty := .u16, acc := .ro, subs := .upto 16, rng := .any, dflt := .int 0 }]

/-- Objects 0x0400–0x04FF (R139). The default of BENCH_SRC_ORDER, "identifier order", is held as a value of no bytes
(DESIGN CHOICE: the walk is in identifier order, and the spec does not say which bytes a read returns before a write). -/
def objRows04 : List ObjRow := [
  { ix := 0x0400, name := "XP_SRC", ty := .u16, acc := .rws, subs := .upto 786432, rng := .own, dflt := .int 32512 },
  { ix := 0x0401, name := "XP_BUS", ty := .u16, acc := .rws, subs := .upto 786432, rng := .btw 0 1023, dflt := .int 0 },
  { ix := 0x0402, name := "XP_EN", ty := .bool, acc := .rws, subs := .upto 786432, rng := .any, dflt := .int 0 },
  { ix := 0x0403, name := "XP_GAIN", ty := .db64, acc := .rws, subs := .upto 786432, rng := .any, dflt := .int (-32768) },
  { ix := 0x0404, name := "XP_POL", ty := .bool, acc := .rws, subs := .upto 786432, rng := .any, dflt := .int 0 },
  { ix := 0x0405, name := "XP_MODE", ty := .u8, acc := .rws, subs := .upto 786432, rng := .btw 0 2, dflt := .int 1 },
  { ix := 0x0406, name := "XP_RAMP_LEN", ty := .u16, acc := .rws, subs := .upto 786432, rng := .btw 1 65535, dflt := .int 512 },
  { ix := 0x0407, name := "XP_GAIN_NOW", ty := .q428, acc := .ro, subs := .upto 786432, rng := .any, dflt := .int 0 },
  { ix := 0x0408, name := "XP_STATE", ty := .u8, acc := .ro, subs := .upto 786432, rng := .any, dflt := .int 0 },
  { ix := 0x0410, name := "ZC_TIMEOUT", ty := .u8, acc := .rw, subs := .one, rng := .btw 1 100, dflt := .int 10 },
  { ix := 0x0411, name := "XP_MOTION_COUNT", ty := .u32, acc := .ro, subs := .one, rng := .any, dflt := .int 0 },
  { ix := 0x0412, name := "XP_MOTION_MAX", ty := .u32, acc := .ro, subs := .one, rng := .any, dflt := .int 131072 },
  { ix := 0x0413, name := "ZC_TIMEOUTS", ty := .u32, acc := .ro, subs := .one, rng := .any, dflt := .int 0 },
  { ix := 0x0420, name := "BUS_SAT", ty := .bool, acc := .ro, subs := .upto 1024, rng := .any, dflt := .int 0 },
  { ix := 0x0421, name := "BUS_SAT_CLR", ty := .bool, acc := .wo, subs := .upto 1024, rng := .any, dflt := .int 0 },
  { ix := 0x0422, name := "BUS_SAT_ALARM", ty := .bool, acc := .rw, subs := .one, rng := .any, dflt := .int 1 },
  { ix := 0x0423, name := "BUS_OVF", ty := .bool, acc := .ro, subs := .upto 1024, rng := .any, dflt := .int 0 },
  { ix := 0x0430, name := "BENCH_SRC_ORDER", ty := .domain, acc := .rwk, subs := .one, rng := .any, dflt := .bytes [] },
  { ix := 0x0431, name := "BENCH_LOAD", ty := .u32, acc := .ro, subs := .one, rng := .any, dflt := .int 0 },
  { ix := 0x0432, name := "BENCH_LOAD_MAX", ty := .u32, acc := .ro, subs := .one, rng := .any, dflt := .int 3493696 },
  { ix := 0x0440, name := "BENCH_ECC_CE", ty := .u32, acc := .ro, subs := .one, rng := .any, dflt := .int 0 },
  { ix := 0x0441, name := "BENCH_ECC_UE", ty := .u32, acc := .ro, subs := .one, rng := .any, dflt := .int 0 }]

/-- Objects 0x0500–0x05FF (R139). -/
def objRows05 : List ObjRow := [
  { ix := 0x0500, name := "LIM_EN", ty := .bool, acc := .rws, subs := .phys, rng := .any, dflt := .int 1 },
  { ix := 0x0501, name := "LIM_CEIL", ty := .db64, acc := .rws, subs := .phys, rng := .btw (-2560) (0), dflt := .int (-7) },
  { ix := 0x0502, name := "LIM_RELEASE", ty := .u16, acc := .rws, subs := .phys, rng := .btw 1 2000, dflt := .int 50 },
  { ix := 0x0503, name := "LIM_GR", ty := .db64, acc := .ro, subs := .phys, rng := .any, dflt := .int 0 },
  { ix := 0x0504, name := "LIM_GR_MAX", ty := .db64, acc := .ro, subs := .phys, rng := .any, dflt := .int 0 },
  { ix := 0x0505, name := "LIM_GR_CLR", ty := .bool, acc := .wo, subs := .phys, rng := .any, dflt := .int 0 },
  { ix := 0x0506, name := "EGRESS_CLIP_COUNT", ty := .u32, acc := .ro, subs := .phys, rng := .any, dflt := .int 0 }]

/-- Objects 0x0600–0x06FF (R161). -/
def objRows06 : List ObjRow := [
  { ix := 0x0600, name := "LAT_SEL", ty := .u16, acc := .rws, subs := .dest, rng := .own, dflt := .int 32512 },
  { ix := 0x0601, name := "LAT_TAKE", ty := .u8, acc := .rws, subs := .dest, rng := .btw 0 1, dflt := .int 0 },
  { ix := 0x0602, name := "LAT_OFFSET", ty := .u8, acc := .rws, subs := .dest, rng := .btw 0 31, dflt := .int 0 },
  { ix := 0x0603, name := "LAT_TRANSP", ty := .bool, acc := .rws, subs := .dest, rng := .any, dflt := .int 0 },
  { ix := 0x0604, name := "LAT_MUTE", ty := .bool, acc := .rws, subs := .dest, rng := .any, dflt := .int 0 },
  { ix := 0x0605, name := "LAT_DEST_STATE", ty := .u8, acc := .ro, subs := .dest, rng := .any, dflt := .int 0 },
  { ix := 0x0606, name := "LAT_ABSENT_COUNT", ty := .u32, acc := .ro, subs := .dest, rng := .any, dflt := .int 0 },
  { ix := 0x0607, name := "LAT_ABSENT_ALARM", ty := .bool, acc := .rw, subs := .dest, rng := .any, dflt := .int 0 },
  { ix := 0x0610, name := "LAT_TAKE_COUNT", ty := .u32, acc := .ro, subs := .one, rng := .any, dflt := .int 0 },
  { ix := 0x0611, name := "LAT_TAKE_MAX", ty := .u32, acc := .ro, subs := .one, rng := .any, dflt := .int 4096 },
  { ix := 0x0612, name := "LAT_GATHER_LOAD", ty := .u32, acc := .ro, subs := .upto 2, rng := .any, dflt := .int 0 },
  { ix := 0x0613, name := "LAT_DISCARDS", ty := .u32, acc := .ro, subs := .one, rng := .any, dflt := .int 0 },
  { ix := 0x0614, name := "LAT_ENG_MAP", ty := .u8, acc := .ro, subs := .upto 16, rng := .any, dflt := .int 0 },
  { ix := 0x0620, name := "LAT_SRC_STATE", ty := .u8, acc := .ro, subs := .upto 32768, rng := .any, dflt := .int 0 },
  { ix := 0x0630, name := "GEN_FREQ", ty := .u32, acc := .rws, subs := .range 1 15, rng := .own, dflt := .int 1000000 },
  { ix := 0x0631, name := "GEN_LEVEL", ty := .db64, acc := .rws, subs := .range 1 17, rng := .any, dflt := .int (-1152) },
  { ix := 0x0640, name := "LAT_ECC_CE", ty := .u32, acc := .ro, subs := .one, rng := .any, dflt := .int 0 },
  { ix := 0x0641, name := "LAT_ECC_UE", ty := .u32, acc := .ro, subs := .one, rng := .any, dflt := .int 0 }]

/-- Objects 0x0700–0x07FF (R183). -/
def objRows07 : List ObjRow := [
  { ix := 0x0700, name := "SHUT_GEN", ty := .u32, acc := .ro, subs := .one, rng := .any, dflt := .int 0 },
  { ix := 0x0701, name := "SHUT_GEN_TICK", ty := .tick64, acc := .ro, subs := .one, rng := .any, dflt := .int 0 },
  { ix := 0x0702, name := "SHUT_SET_STATE", ty := .u16, acc := .ro, subs := .upto 16, rng := .any, dflt := .int 0 },
  { ix := 0x0703, name := "SHUT_SET_COUNT", ty := .u32, acc := .ro, subs := .upto 16, rng := .any, dflt := .int 0 },
  { ix := 0x0704, name := "SHUT_SET_CONTENT", ty := .domain, acc := .ro, subs := .upto 16, rng := .any, dflt := .bytes [] },
  { ix := 0x0705, name := "SHUT_STAGE_USED", ty := .u32, acc := .ro, subs := .one, rng := .any, dflt := .int 0 },
  { ix := 0x0706, name := "SHUT_PEND_TICK", ty := .tick64, acc := .ro, subs := .upto 8, rng := .any, dflt := .int 0 },
  { ix := 0x0707, name := "SHUT_PEND_ID", ty := .u32, acc := .ro, subs := .upto 8, rng := .any, dflt := .int 0 },
  { ix := 0x0708, name := "SHUT_HISTORY", ty := .u64, acc := .ro, subs := .upto 64, rng := .any, dflt := .int 0 },
  { ix := 0x0709, name := "SHUT_HIST_GEN", ty := .u32, acc := .ro, subs := .upto 64, rng := .any, dflt := .int 0 },
  { ix := 0x070A, name := "SHUT_HIST_TICK", ty := .tick64, acc := .ro, subs := .upto 64, rng := .any, dflt := .int 0 },
  { ix := 0x070B, name := "SHUT_LEAD_FULL", ty := .u16, acc := .ro, subs := .one, rng := .any, dflt := .int 18 },
  { ix := 0x070C, name := "SHUT_MAX_CHANGES", ty := .u32, acc := .ro, subs := .one, rng := .any, dflt := .int 65536 },
  { ix := 0x070D, name := "SHUT_REJECTS", ty := .u32, acc := .ro, subs := .one, rng := .any, dflt := .int 0 },
  { ix := 0x0710, name := "PAGE_BASE", ty := .u16, acc := .rwk, subs := .upto 16, rng := .own, dflt := .int 0 },
  { ix := 0x0711, name := "PAGE_WORDS", ty := .u16, acc := .rwk, subs := .upto 16, rng := .own, dflt := .int 0 },
  { ix := 0x0712, name := "PARAM", ty := .u32, acc := .rws, subs := .param, rng := .any, dflt := .int 0 },
  { ix := 0x0713, name := "PARAM_GAIN", ty := .db64, acc := .rws, subs := .param, rng := .own, dflt := .int (-32768) },
  { ix := 0x0714, name := "PARAM_GAIN_MODE", ty := .u32, acc := .rws, subs := .param, rng := .own, dflt := .int 33554433 },
  { ix := 0x0720, name := "STAGE_ECC_CE", ty := .u32, acc := .ro, subs := .one, rng := .any, dflt := .int 0 },
  { ix := 0x0721, name := "STAGE_ECC_UE", ty := .u32, acc := .ro, subs := .one, rng := .any, dflt := .int 0 }]

/-- Objects 0x0800–0x08FF (R206). -/
def objRows08 : List ObjRow := [
  { ix := 0x0800, name := "CTL_IPV4_ADDR", ty := .u32, acc := .rwk, subs := .one, rng := .any, dflt := .int 0 },
  { ix := 0x0801, name := "CTL_IPV4_MASK", ty := .u32, acc := .rwk, subs := .one, rng := .any, dflt := .int 4294967040 },
  { ix := 0x0802, name := "CTL_IPV4_GW", ty := .u32, acc := .rwk, subs := .one, rng := .any, dflt := .int 0 },
  { ix := 0x0803, name := "CTL_MAC", ty := .u64, acc := .ro, subs := .one, rng := .any, dflt := .int Config.ctlMac },
  { ix := 0x0804, name := "CTL_SESSION_TIMEOUT", ty := .u16, acc := .rwk, subs := .one, rng := .btw 1 600, dflt := .int 10 },
  { ix := 0x0805, name := "CTL_TAG_POLICY", ty := .u8, acc := .rwk, subs := .one, rng := .btw 0 2, dflt := .int 0 },
  { ix := 0x0806, name := "CTL_NOTIFY_GAP", ty := .u16, acc := .rw, subs := .one, rng := .btw 1 65535, dflt := .int 12 },
  { ix := 0x0810, name := "CTL_SESS_STATE", ty := .u32, acc := .ro, subs := .range 1 32, rng := .any, dflt := .int 0 },
  { ix := 0x0811, name := "CTL_SESS_COUNTER", ty := .u64, acc := .ro, subs := .range 1 32, rng := .any, dflt := .int 0 },
  { ix := 0x0812, name := "CTL_SESS_PEER", ty := .u64, acc := .ro, subs := .range 1 32, rng := .any, dflt := .int 0 },
  { ix := 0x0818, name := "CTL_CRED_WRAP", ty := .string, acc := .rwk, subs := .upto 16, rng := .len 24, dflt := .bytes [] },
  { ix := 0x0819, name := "CTL_CRED_PRIV", ty := .u8, acc := .rwk, subs := .upto 16, rng := .btw 0 3, dflt := .int 0 },
  { ix := 0x0820, name := "CTL_LOG_CODE", ty := .u32, acc := .ro, subs := .upto 1024, rng := .any, dflt := .int 0 },
  { ix := 0x0821, name := "CTL_LOG_DETAIL", ty := .u16, acc := .ro, subs := .upto 1024, rng := .any, dflt := .int 0 },
  { ix := 0x0822, name := "CTL_LOG_REPEAT", ty := .u16, acc := .ro, subs := .upto 1024, rng := .any, dflt := .int 0 },
  { ix := 0x0823, name := "CTL_LOG_TICK", ty := .tick64, acc := .ro, subs := .upto 1024, rng := .any, dflt := .int 0 },
  { ix := 0x0824, name := "CTL_LOG_HEAD", ty := .u32, acc := .ro, subs := .one, rng := .any, dflt := .int 0 },
  { ix := 0x0825, name := "CTL_LOG_ACK", ty := .u32, acc := .rw, subs := .one, rng := .any, dflt := .int 0 },
  { ix := 0x0826, name := "CTL_ALARM_MASK", ty := .u32, acc := .rw, subs := .one, rng := .any, dflt := .int 1048574 },
  { ix := 0x0828, name := "CTL_FRAMES_OK", ty := .u32, acc := .ro, subs := .upto 2, rng := .any, dflt := .int 0 },
  { ix := 0x0829, name := "CTL_FRAMES_REJ", ty := .u32, acc := .ro, subs := .upto 7, rng := .any, dflt := .int 0 },
  { ix := 0x082A, name := "CTL_FRAMES_DROP", ty := .u32, acc := .ro, subs := .upto 2, rng := .any, dflt := .int 0 }]

/-- Objects 0x0900–0x09FF (R233). -/
def objRows09 : List ObjRow := [
  { ix := 0x0900, name := "TDM_EN", ty := .u8, acc := .rw, subs := .upto 32, rng := .mask 0x3, dflt := .int 0 },
  { ix := 0x0901, name := "TDM_RX_FMT", ty := .u32, acc := .rw, subs := .upto 32, rng := .own, dflt := .int 2082 },
  { ix := 0x0902, name := "TDM_TX_FMT", ty := .u32, acc := .rw, subs := .upto 32, rng := .own, dflt := .int 2082 },
  { ix := 0x0903, name := "TDM_RX_CLK", ty := .u16, acc := .rw, subs := .upto 32, rng := .own, dflt := .int 0 },
  { ix := 0x0904, name := "TDM_TX_CLK", ty := .u16, acc := .rw, subs := .upto 32, rng := .own, dflt := .int 0 },
  { ix := 0x0905, name := "TDM_RX_MASK", ty := .u32, acc := .rws, subs := .upto 32, rng := .any, dflt := .int 0 },
  { ix := 0x0906, name := "TDM_TX_MASK", ty := .u32, acc := .rws, subs := .upto 32, rng := .any, dflt := .int 0 },
  { ix := 0x0907, name := "TDM_FOLLOW", ty := .u16, acc := .rw, subs := .upto 32, rng := .own, dflt := .int 272 },
  { ix := 0x0908, name := "TDM_STATE", ty := .u16, acc := .ro, subs := .upto 32, rng := .any, dflt := .int 0 },
  { ix := 0x0909, name := "TDM_RATE", ty := .u32, acc := .ro, subs := .upto 64, rng := .any, dflt := .int 0 },
  { ix := 0x090A, name := "TDM_PHASE", ty := .s16, acc := .ro, subs := .upto 64, rng := .any, dflt := .int 0 },
  { ix := 0x090B, name := "TDM_FILL", ty := .u16, acc := .ro, subs := .upto 64, rng := .any, dflt := .int 0 },
  { ix := 0x090C, name := "TDM_NCO_PPM", ty := .s32, acc := .ro, subs := .upto 32, rng := .any, dflt := .int 0 },
  { ix := 0x090D, name := "TDM_ERRORS", ty := .u32, acc := .ro, subs := .upto 128, rng := .any, dflt := .int 0 },
  { ix := 0x090E, name := "TDM_DELAY", ty := .u16, acc := .ro, subs := .upto 64, rng := .any, dflt := .int 0 }]

/-- Objects 0x0A00–0x0AFF (R234). -/
def objRows0A : List ObjRow := [
  { ix := 0x0A00, name := "AESI_EN", ty := .bool, acc := .rw, subs := .upto 8, rng := .any, dflt := .int 0 },
  { ix := 0x0A01, name := "AESI_ASRC", ty := .bool, acc := .rw, subs := .upto 8, rng := .any, dflt := .int 1 },
  { ix := 0x0A02, name := "AESI_STATE", ty := .u8, acc := .ro, subs := .upto 8, rng := .any, dflt := .int 0 },
  { ix := 0x0A03, name := "AESI_RATE", ty := .u32, acc := .ro, subs := .upto 8, rng := .any, dflt := .int 0 },
  { ix := 0x0A04, name := "AESI_CS", ty := .u32, acc := .ro, subs := .upto 96, rng := .any, dflt := .int 0 },
  { ix := 0x0A05, name := "AESI_USER", ty := .u32, acc := .ro, subs := .upto 96, rng := .any, dflt := .int 0 },
  { ix := 0x0A06, name := "AESI_ERRORS", ty := .u32, acc := .ro, subs := .upto 32, rng := .any, dflt := .int 0 },
  { ix := 0x0A07, name := "AESI_NPCM_MODE", ty := .u8, acc := .rw, subs := .upto 8, rng := .btw 0 3, dflt := .int 0 },
  { ix := 0x0A08, name := "AESI_DELAY", ty := .u16, acc := .ro, subs := .upto 8, rng := .any, dflt := .int 0 },
  { ix := 0x0A10, name := "AESO_EN", ty := .bool, acc := .rw, subs := .upto 8, rng := .any, dflt := .int 0 },
  { ix := 0x0A11, name := "AESO_CS", ty := .u32, acc := .rw, subs := .upto 96, rng := .any, dflt := .int 0 },
  { ix := 0x0A12, name := "AESO_CS_SRC", ty := .u8, acc := .rw, subs := .upto 16, rng := .btw 0 8, dflt := .int 0 },
  { ix := 0x0A13, name := "AESO_USER_SRC", ty := .u8, acc := .rw, subs := .upto 16, rng := .btw 0 8, dflt := .int 0 },
  { ix := 0x0A14, name := "AESO_VALIDITY", ty := .u8, acc := .rw, subs := .upto 8, rng := .mask 0x3, dflt := .int 0 },
  { ix := 0x0A20, name := "ASRC_MAP", ty := .u16, acc := .ro, subs := .upto 80, rng := .any, dflt := .int 65535 },
  { ix := 0x0A21, name := "ASRC_RATIO", ty := .u32, acc := .ro, subs := .upto 80, rng := .any, dflt := .int 0 },
  { ix := 0x0A22, name := "ASRC_STATE", ty := .u8, acc := .ro, subs := .upto 80, rng := .any, dflt := .int 0 },
  { ix := 0x0A23, name := "ASRC_FREE", ty := .u8, acc := .ro, subs := .one, rng := .any, dflt := .int 64 }]

/-- Objects 0x0B00–0x0BFF (R259, R260). -/
def objRows0B : List ObjRow := [
  { ix := 0x0B00, name := "NET_PORT_SPEED", ty := .u8, acc := .rwk, subs := .upto 4, rng := .btw 0 3, dflt := .int 1 },
  { ix := 0x0B01, name := "NET_PORT_ADDR", ty := .u32, acc := .rwk, subs := .upto 4, rng := .any, dflt := .int 0 },
  { ix := 0x0B02, name := "NET_PORT_MASK", ty := .u32, acc := .rwk, subs := .upto 4, rng := .any, dflt := .int 4294967040 },
  { ix := 0x0B03, name := "NET_PORT_GW", ty := .u32, acc := .rwk, subs := .upto 4, rng := .any, dflt := .int 0 },
  { ix := 0x0B04, name := "NET_SVC_ADDR", ty := .u32, acc := .rwk, subs := .upto 4, rng := .any, dflt := .int 0 },
  { ix := 0x0B05, name := "NET_PORT_MAC", ty := .u64, acc := .ro, subs := .upto 4, rng := .any, dflt := .int 0 },
  { ix := 0x0B06, name := "NET_LINK", ty := .u8, acc := .ro, subs := .upto 4, rng := .any, dflt := .int 0 },
  { ix := 0x0B07, name := "NET_PORT_TXLOAD", ty := .u16, acc := .ro, subs := .upto 4, rng := .any, dflt := .int 0 },
  { ix := 0x0B08, name := "NET_PORT_COUNTS", ty := .u32, acc := .ro, subs := .upto 32, rng := .any, dflt := .int 0 },
  { ix := 0x0B10, name := "NET_PAIR1_MODE", ty := .u8, acc := .rwk, subs := .one, rng := .btw 0 1, dflt := .int 0 },
  { ix := 0x0B11, name := "NRX_MAX_OFFSET", ty := .u16, acc := .ro, subs := .one, rng := .any, dflt := .int 288 },
  { ix := 0x0B40, name := "NRX_EN", ty := .bool, acc := .rws, subs := .upto 512, rng := .any, dflt := .int 0 },
  { ix := 0x0B41, name := "NRX_PAIR", ty := .u8, acc := .rw, subs := .upto 512, rng := .mask 0x7, dflt := .int 6 },
  { ix := 0x0B42, name := "NRX_DST", ty := .u64, acc := .rw, subs := .upto 512, rng := .any, dflt := .int 0 },
  { ix := 0x0B43, name := "NRX_SRC", ty := .u64, acc := .rw, subs := .upto 512, rng := .any, dflt := .int 0 },
  { ix := 0x0B44, name := "NRX_UDP", ty := .u32, acc := .rw, subs := .upto 512, rng := .any, dflt := .int 327947148 },
  { ix := 0x0B45, name := "NRX_FMT", ty := .u32, acc := .rw, subs := .upto 512, rng := .own, dflt := .int 397344 },
  { ix := 0x0B46, name := "NRX_SSRC", ty := .u64, acc := .rw, subs := .upto 512, rng := .mask 0x1FFFFFFFF, dflt := .int 0 },
  { ix := 0x0B47, name := "NRX_BASE", ty := .u16, acc := .rw, subs := .upto 512, rng := .own, dflt := .int 0 },
  { ix := 0x0B48, name := "NRX_OFFSET", ty := .u16, acc := .rws, subs := .upto 512, rng := .own, dflt := .int 96 },
  { ix := 0x0B49, name := "NRX_STATE", ty := .u8, acc := .ro, subs := .upto 512, rng := .any, dflt := .int 0 },
  { ix := 0x0B4A, name := "NRX_STATS", ty := .u32, acc := .ro, subs := .upto 4096, rng := .any, dflt := .int 0 }]

/-- Objects 0x0C00–0x0CFF (R260). -/
def objRows0C : List ObjRow := [
  { ix := 0x0C00, name := "NTX_EN", ty := .bool, acc := .rws, subs := .upto 512, rng := .any, dflt := .int 0 },
  { ix := 0x0C01, name := "NTX_PAIR", ty := .u8, acc := .rw, subs := .upto 512, rng := .mask 0x7, dflt := .int 6 },
  { ix := 0x0C02, name := "NTX_DST", ty := .u64, acc := .rw, subs := .upto 512, rng := .any, dflt := .int 0 },
  { ix := 0x0C03, name := "NTX_UDP", ty := .u32, acc := .rw, subs := .upto 512, rng := .any, dflt := .int 327947148 },
  { ix := 0x0C04, name := "NTX_FMT", ty := .u32, acc := .rw, subs := .upto 512, rng := .own, dflt := .int 397344 },
  { ix := 0x0C05, name := "NTX_SSRC", ty := .u32, acc := .rw, subs := .upto 512, rng := .any, dflt := .int 0 },
  { ix := 0x0C06, name := "NTX_BASE", ty := .u16, acc := .rw, subs := .upto 512, rng := .own, dflt := .int 0 },
  { ix := 0x0C07, name := "NTX_IPHDR", ty := .u16, acc := .rw, subs := .upto 512, rng := .mask 0xFF3F, dflt := .int 4130 },
  { ix := 0x0C08, name := "NTX_CS_SRC", ty := .u8, acc := .rw, subs := .upto 512, rng := .btw 0 8, dflt := .int 0 },
  { ix := 0x0C09, name := "NTX_STATE", ty := .u8, acc := .ro, subs := .upto 512, rng := .any, dflt := .int 0 },
  { ix := 0x0C0A, name := "NTX_PACKETS", ty := .u32, acc := .ro, subs := .upto 1024, rng := .any, dflt := .int 0 }]

/-- Objects 0x0D00–0x0DFF (R279). -/
def objRows0D : List ObjRow := [
  { ix := 0x0D00, name := "TIME_NOW", ty := .time80, acc := .ro, subs := .one, rng := .any, dflt := .time 0 0 },
  { ix := 0x0D01, name := "TIME_STATE", ty := .u8, acc := .ro, subs := .one, rng := .any, dflt := .int 0 },
  { ix := 0x0D02, name := "TIME_OFFSET", ty := .s32, acc := .ro, subs := .one, rng := .any, dflt := .int 0 },
  { ix := 0x0D03, name := "TIME_RATE", ty := .s32, acc := .ro, subs := .one, rng := .any, dflt := .int 0 },
  { ix := 0x0D04, name := "TIME_SLEW_PPM", ty := .u16, acc := .rw, subs := .one, rng := .btw 1 500, dflt := .int 50 },
  { ix := 0x0D05, name := "TIME_SLEW_SLOPE", ty := .u16, acc := .rw, subs := .one, rng := .btw 1 500, dflt := .int 20 },
  { ix := 0x0D06, name := "TIME_LOCK_LIMIT", ty := .u16, acc := .rw, subs := .one, rng := .btw 10 10000, dflt := .int 100 },
  { ix := 0x0D07, name := "TIME_STEP_ALARM", ty := .u32, acc := .rw, subs := .one, rng := .btw 1000 1000000000, dflt := .int 1000000 },
  { ix := 0x0D08, name := "TIME_RESTEP", ty := .u8, acc := .rwk, subs := .one, rng := .btw 0 1, dflt := .int 0 },
  { ix := 0x0D09, name := "TIME_SET", ty := .time80, acc := .rwk, subs := .one, rng := .own, dflt := .time 0 0 },
  { ix := 0x0D0A, name := "TIME_SYSCNT", ty := .u64, acc := .ro, subs := .one, rng := .any, dflt := .int 0 },
  { ix := 0x0D0B, name := "TIME_TICK_STAMP", ty := .u64, acc := .ro, subs := .one, rng := .any, dflt := .int 0 },
  { ix := 0x0D20, name := "PTP_ROLE", ty := .u8, acc := .rwk, subs := .upto 2, rng := .btw 0 3, dflt := .int 0 },
  { ix := 0x0D21, name := "PTP_PROFILE", ty := .u8, acc := .rwk, subs := .upto 2, rng := .btw 0 1, dflt := .int 0 },
  { ix := 0x0D22, name := "PTP_DOMAIN", ty := .u8, acc := .rwk, subs := .upto 2, rng := .btw 0 127, dflt := .int 127 },
  { ix := 0x0D23, name := "PTP_CFG", ty := .u8, acc := .rwk, subs := .upto 2, rng := .mask 0x7, dflt := .int 0 },
  { ix := 0x0D24, name := "PTP_INTERVALS", ty := .u32, acc := .rwk, subs := .upto 2, rng := .own, dflt := .int 66977533 },
  { ix := 0x0D25, name := "PTP_PRIORITY", ty := .u16, acc := .rwk, subs := .upto 2, rng := .any, dflt := .int 32896 },
  { ix := 0x0D26, name := "PTP_STATE", ty := .u16, acc := .ro, subs := .upto 2, rng := .any, dflt := .int 0 },
  { ix := 0x0D27, name := "PTP_GM_ID", ty := .u64, acc := .ro, subs := .upto 2, rng := .any, dflt := .int 0 },
  { ix := 0x0D28, name := "PTP_GM_QUALITY", ty := .u32, acc := .ro, subs := .upto 2, rng := .any, dflt := .int 0 },
  { ix := 0x0D29, name := "PTP_OFFSET", ty := .s32, acc := .ro, subs := .upto 4, rng := .any, dflt := .int 0 },
  { ix := 0x0D2A, name := "PTP_PATH_DELAY", ty := .u32, acc := .ro, subs := .upto 4, rng := .any, dflt := .int 0 },
  { ix := 0x0D2B, name := "PTP_ASYM", ty := .s32, acc := .rwk, subs := .upto 4, rng := .any, dflt := .int 0 },
  { ix := 0x0D2C, name := "PTP_SM_RX", ty := .domain, acc := .ro, subs := .upto 2, rng := .any, dflt := .bytes [] },
  { ix := 0x0D2D, name := "PTP_SM_TX", ty := .domain, acc := .rwk, subs := .upto 2, rng := .any, dflt := .bytes [] },
  { ix := 0x0D40, name := "TRIG_MODE", ty := .u8, acc := .rw, subs := .upto 8, rng := .btw 0 2, dflt := .int 0 },
  { ix := 0x0D41, name := "TRIG_TIME", ty := .time80, acc := .rw, subs := .upto 8, rng := .any, dflt := .time 0 0 },
  { ix := 0x0D42, name := "TRIG_TICK", ty := .tick64, acc := .rw, subs := .upto 8, rng := .any, dflt := .int 0 },
  { ix := 0x0D43, name := "TRIG_PERIOD", ty := .u32, acc := .rw, subs := .upto 8, rng := .btw 1 1000000, dflt := .int 1 },
  { ix := 0x0D44, name := "TRIG_OFFSET", ty := .u32, acc := .rw, subs := .upto 8, rng := .any, dflt := .int 0 },
  { ix := 0x0D45, name := "TRIG_WIDTH", ty := .u32, acc := .rw, subs := .upto 8, rng := .btw 10 500000000, dflt := .int 1000 },
  { ix := 0x0D46, name := "TRIG_CFG", ty := .u8, acc := .rw, subs := .upto 8, rng := .mask 0x7, dflt := .int 0 },
  { ix := 0x0D47, name := "TRIG_STATE", ty := .u8, acc := .ro, subs := .upto 8, rng := .any, dflt := .int 0 },
  { ix := 0x0D48, name := "TRIG_LAST", ty := .time80, acc := .ro, subs := .upto 8, rng := .any, dflt := .time 0 0 },
  { ix := 0x0D49, name := "TRIG_COUNT", ty := .u32, acc := .ro, subs := .upto 8, rng := .any, dflt := .int 0 },
  { ix := 0x0D60, name := "CAPT_EN", ty := .u8, acc := .rw, subs := .upto 4, rng := .mask 0x3, dflt := .int 0 },
  { ix := 0x0D61, name := "CAPT_SEQ", ty := .u32, acc := .ro, subs := .upto 4, rng := .any, dflt := .int 0 },
  { ix := 0x0D62, name := "CAPT_LOG", ty := .time80, acc := .ro, subs := .upto 64, rng := .any, dflt := .time 0 0 },
  { ix := 0x0D63, name := "CAPT_EDGE", ty := .u8, acc := .ro, subs := .upto 64, rng := .any, dflt := .int 0 },
  { ix := 0x0D64, name := "CAPT_DROPS", ty := .u32, acc := .ro, subs := .upto 4, rng := .any, dflt := .int 0 }]

/-- Objects 0x0E00–0x0EFF (R299). -/
def objRows0E : List ObjRow := [
  { ix := 0x0E00, name := "SELECTED_REF", ty := .u8, acc := .rw, subs := .one, rng := .own, dflt := .int 0 },
  { ix := 0x0E01, name := "REF_ACTIVE", ty := .u8, acc := .ro, subs := .one, rng := .any, dflt := .int 14 },
  { ix := 0x0E02, name := "REF_PRIORITY", ty := .u8, acc := .rw, subs := .upto 6, rng := .btw 0 15, dflt := .int 0 },
  { ix := 0x0E03, name := "REF_REVERT", ty := .bool, acc := .rw, subs := .one, rng := .any, dflt := .int 1 },
  { ix := 0x0E04, name := "QL_LIMIT", ty := .u8, acc := .rw, subs := .one, rng := .btw 0 14, dflt := .int 10 },
  { ix := 0x0E05, name := "REF_FIXED_QL", ty := .u8, acc := .rw, subs := .upto 6, rng := .own, dflt := .int 6 },
  { ix := 0x0E06, name := "REF_QL", ty := .u8, acc := .ro, subs := .upto 6, rng := .any, dflt := .int 15 },
  { ix := 0x0E07, name := "REF_STATE", ty := .u8, acc := .ro, subs := .upto 6, rng := .any, dflt := .int 0 },
  { ix := 0x0E08, name := "REF_FREQ", ty := .s32, acc := .ro, subs := .upto 6, rng := .any, dflt := .int 0 },
  { ix := 0x0E09, name := "REF_PHASE", ty := .s32, acc := .ro, subs := .upto 6, rng := .any, dflt := .int 0 },
  { ix := 0x0E0A, name := "REF_QUAL_TIME", ty := .u16, acc := .rw, subs := .one, rng := .btw 2 600, dflt := .int 2 },
  { ix := 0x0E0B, name := "REF_SOFT_WIN", ty := .u16, acc := .rw, subs := .one, rng := .btw 10 10000, dflt := .int 200 },
  { ix := 0x0E0C, name := "REF_HARD_WIN", ty := .u16, acc := .rw, subs := .one, rng := .btw 20 50000, dflt := .int 1000 },
  { ix := 0x0E0D, name := "REF_DRIFT_LIM", ty := .u16, acc := .rw, subs := .one, rng := .btw 1 10000, dflt := .int 50 },
  { ix := 0x0E0E, name := "REF_HYST", ty := .u8, acc := .rw, subs := .one, rng := .btw 0 50, dflt := .int 20 },
  { ix := 0x0E0F, name := "REF_JUMP", ty := .u32, acc := .rw, subs := .one, rng := .btw 10 1000000, dflt := .int 1000 },
  { ix := 0x0E10, name := "REF_OSC_TOL", ty := .u16, acc := .rw, subs := .one, rng := .btw 1 10000, dflt := .int 5000 },
  { ix := 0x0E11, name := "REF_HOLD_OSC", ty := .u8, acc := .rwk, subs := .one, rng := .btw 0 2, dflt := .int 0 },
  { ix := 0x0E12, name := "REF_HOLD_EST", ty := .s32, acc := .ro, subs := .one, rng := .any, dflt := .int 0 },
  { ix := 0x0E13, name := "REF_HOLD_VALID", ty := .bool, acc := .ro, subs := .one, rng := .any, dflt := .int 0 },
  { ix := 0x0E14, name := "REF_HOLD_SPEC", ty := .u16, acc := .rw, subs := .one, rng := .btw 1 65535, dflt := .int 600 },
  { ix := 0x0E15, name := "REF_OWN_QL", ty := .u8, acc := .ro, subs := .one, rng := .any, dflt := .int 12 },
  { ix := 0x0E16, name := "REF_BUILDOUT", ty := .s32, acc := .ro, subs := .one, rng := .any, dflt := .int 0 },
  { ix := 0x0E17, name := "REF_PHASE_STEP", ty := .s32, acc := .rw, subs := .one, rng := .own, dflt := .int 0 },
  { ix := 0x0E18, name := "REF_PHASE_FORCE", ty := .s32, acc := .rwk, subs := .one, rng := .btw (-2097152) (2097152), dflt := .int 0 },
  { ix := 0x0E19, name := "REF_PHASE_TOTAL", ty := .s32, acc := .ro, subs := .one, rng := .any, dflt := .int 0 },
  { ix := 0x0E1A, name := "REF_WCLK_MODE", ty := .u8, acc := .rw, subs := .one, rng := .mask 0x3, dflt := .int 0 },
  { ix := 0x0E1B, name := "REF_BW", ty := .u8, acc := .rw, subs := .one, rng := .btw 0 2, dflt := .int 1 },
  { ix := 0x0E1C, name := "REF_SWITCHES", ty := .u32, acc := .ro, subs := .one, rng := .any, dflt := .int 0 }]

/-- Objects 0x0F00–0x0FFF (R319). -/
def objRows0F : List ObjRow := [
  { ix := 0x0F00, name := "SYSPLL_ACTIVE", ty := .u8, acc := .ro, subs := .one, rng := .any, dflt := .int 0 },
  { ix := 0x0F01, name := "SYSPLL_STATE", ty := .u8, acc := .ro, subs := .upto 2, rng := .any, dflt := .int 0 },
  { ix := 0x0F02, name := "SYSPLL_SELECT", ty := .u8, acc := .rwk, subs := .one, rng := .btw 0 1, dflt := .int 0 },
  { ix := 0x0F03, name := "SYSPLL_LOSSES", ty := .u32, acc := .ro, subs := .upto 2, rng := .any, dflt := .int 0 },
  { ix := 0x0F10, name := "MEDSYN_FAMILY", ty := .u8, acc := .rw, subs := .upto 4, rng := .btw 0 2, dflt := .int 0 },
  { ix := 0x0F11, name := "MEDSYN_STATE", ty := .u8, acc := .ro, subs := .upto 4, rng := .any, dflt := .int 0 },
  { ix := 0x0F12, name := "MEDSYN_OFFSET", ty := .s32, acc := .rw, subs := .upto 4, rng := .btw (-10000000) (10000000), dflt := .int 0 },
  { ix := 0x0F13, name := "MEDSYN_SLOPE", ty := .u16, acc := .rw, subs := .upto 4, rng := .btw 1 10000, dflt := .int 1000 },
  { ix := 0x0F14, name := "MEDSYN_OFFSET_NOW", ty := .s32, acc := .ro, subs := .upto 4, rng := .any, dflt := .int 0 },
  { ix := 0x0F15, name := "MEDSYN_BANDMEM", ty := .u32, acc := .ro, subs := .upto 32, rng := .any, dflt := .int 0 },
  { ix := 0x0F16, name := "MEDSYN_FENCE_DROPS", ty := .u32, acc := .ro, subs := .upto 4, rng := .any, dflt := .int 0 },
  { ix := 0x0F17, name := "CLK_REACQ_SLOPE", ty := .u16, acc := .rw, subs := .one, rng := .btw 1 10000, dflt := .int 200 },
  { ix := 0x0F20, name := "RAMP_SEG", ty := .u64, acc := .rw, subs := .upto 32, rng := .own, dflt := .int 0 },
  { ix := 0x0F21, name := "RAMP_LEN", ty := .u8, acc := .rw, subs := .upto 2, rng := .btw 1 16, dflt := .int 1 },
  { ix := 0x0F22, name := "RAMP_START_TICK", ty := .tick64, acc := .rw, subs := .upto 2, rng := .any, dflt := .int 0 },
  { ix := 0x0F23, name := "RAMP_START", ty := .u8, acc := .wo, subs := .upto 2, rng := .btw 1 1, dflt := .int 0 },
  { ix := 0x0F24, name := "RAMP_STATE", ty := .u8, acc := .ro, subs := .upto 2, rng := .any, dflt := .int 0 },
  { ix := 0x0F30, name := "WCLK_OUT_CFG", ty := .u8, acc := .rw, subs := .one, rng := .mask 0xF, dflt := .int 0 },
  { ix := 0x0F31, name := "MCLK_CFG", ty := .u8, acc := .rw, subs := .upto 4, rng := .mask 0x1F, dflt := .int 0 },
  { ix := 0x0F40, name := "CLK_SYNC_MODE", ty := .u8, acc := .rw, subs := .one, rng := .oneOf [0, 1, 2, 0x80, 0x81, 0x82], dflt := .int 1 },
  { ix := 0x0F41, name := "CLK_SYNC_ARM", ty := .u8, acc := .wo, subs := .one, rng := .btw 1 1, dflt := .int 0 },
  { ix := 0x0F42, name := "CLK_SYNC_DEBOUNCE", ty := .u16, acc := .rw, subs := .one, rng := .btw 20 10000, dflt := .int 200 },
  { ix := 0x0F43, name := "CLK_SYNC_DELAY", ty := .u32, acc := .rw, subs := .one, rng := .btw 0 1000000, dflt := .int 0 },
  { ix := 0x0F44, name := "CLK_SYNC_SET", ty := .u64, acc := .rw, subs := .one, rng := .mask 0xFFFFFFFF0000003F, dflt := .int 18446744069414584383 },
  { ix := 0x0F45, name := "CLK_SYNC_STATE", ty := .u8, acc := .ro, subs := .one, rng := .any, dflt := .int 0 },
  { ix := 0x0F46, name := "CLK_SYNC_LAST", ty := .time80, acc := .ro, subs := .one, rng := .any, dflt := .time 0 0 },
  { ix := 0x0F47, name := "CLK_SYNC_IGNORED", ty := .u32, acc := .ro, subs := .one, rng := .any, dflt := .int 0 },
  { ix := 0x0F48, name := "CLK_SYNC_REPAIRS", ty := .u32, acc := .ro, subs := .one, rng := .any, dflt := .int 0 }]

/-- Objects 0x1000–0x10FF (R344). -/
def objRows10 : List ObjRow := [
  { ix := 0x1000, name := "PAIR_MODE", ty := .u8, acc := .rwk, subs := .one, rng := .btw 0 1, dflt := .int 0 },
  { ix := 0x1001, name := "PAIR_ID", ty := .u32, acc := .rwk, subs := .one, rng := .any, dflt := .int 0 },
  { ix := 0x1002, name := "PAIR_ROLE", ty := .u8, acc := .ro, subs := .one, rng := .any, dflt := .int 0 },
  { ix := 0x1003, name := "PAIR_CMD", ty := .u8, acc := .rwk, subs := .one, rng := .btw 0 5, dflt := .int 0 },
  { ix := 0x1004, name := "PAIR_AUTO_JOIN", ty := .bool, acc := .rw, subs := .one, rng := .any, dflt := .int 1 },
  { ix := 0x1005, name := "PAIR_PEER_ROLE", ty := .u8, acc := .ro, subs := .one, rng := .any, dflt := .int 0 },
  { ix := 0x1006, name := "PAIR_PEER_GEN", ty := .u32, acc := .ro, subs := .one, rng := .any, dflt := .int 0 },
  { ix := 0x1007, name := "PAIR_PEER_ID", ty := .u64, acc := .ro, subs := .one, rng := .any, dflt := .int 0 },
  { ix := 0x1008, name := "PAIR_LINK", ty := .u8, acc := .ro, subs := .one, rng := .any, dflt := .int 0 },
  { ix := 0x1009, name := "PAIR_HB_MISSED", ty := .u32, acc := .ro, subs := .one, rng := .any, dflt := .int 0 },
  { ix := 0x100A, name := "PAIR_EVIDENCE", ty := .u8, acc := .ro, subs := .one, rng := .any, dflt := .int 0 },
  { ix := 0x100B, name := "PAIR_MIRROR_LAG", ty := .u16, acc := .ro, subs := .one, rng := .any, dflt := .int 0 },
  { ix := 0x1010, name := "PAIR_WATCH", ty := .u16, acc := .rw, subs := .upto 8, rng := .own, dflt := .int 65535 },
  { ix := 0x1011, name := "PAIR_WITNESS_ADDR", ty := .u32, acc := .rwk, subs := .one, rng := .any, dflt := .int 0 },
  { ix := 0x1012, name := "PAIR_WITNESS_PORT", ty := .u16, acc := .rwk, subs := .one, rng := .any, dflt := .int 41815 },
  { ix := 0x1013, name := "PAIR_WITNESS_SLOT", ty := .u8, acc := .rwk, subs := .one, rng := .btw 0 15, dflt := .int 0 },
  { ix := 0x1014, name := "PAIR_WITNESS_TIMEOUT", ty := .u16, acc := .rw, subs := .one, rng := .btw 1 1200, dflt := .int 24 },
  { ix := 0x1015, name := "PAIR_CLAIM_DELAY", ty := .u16, acc := .rw, subs := .one, rng := .btw 0 1200, dflt := .int 24 },
  { ix := 0x1016, name := "PAIR_WARM_TICKS", ty := .u16, acc := .rw, subs := .one, rng := .btw 8 1200, dflt := .int 8 },
  { ix := 0x1017, name := "PAIR_OUT_HOLD", ty := .u16, acc := .rw, subs := .one, rng := .btw 0 1200, dflt := .int 12 },
  { ix := 0x1018, name := "PAIR_SWAP_STRICT", ty := .bool, acc := .rw, subs := .one, rng := .any, dflt := .int 0 },
  { ix := 0x1019, name := "PAIR_SWAP_INTERVAL", ty := .u16, acc := .rw, subs := .one, rng := .btw 0 8760, dflt := .int 168 },
  { ix := 0x101A, name := "PAIR_AUDIT_PERIOD", ty := .u16, acc := .rw, subs := .one, rng := .btw 0 3600, dflt := .int 60 },
  { ix := 0x1020, name := "PAIR_STATE_REGION", ty := .u32, acc := .rw, subs := .upto 16, rng := .own, dflt := .int 0 },
  { ix := 0x1021, name := "PAIR_GR_REGION", ty := .u32, acc := .rw, subs := .upto 16, rng := .own, dflt := .int 0 },
  { ix := 0x1030, name := "PAIR_DIGEST", ty := .domain, acc := .ro, subs := .one, rng := .any, dflt := .bytes [] },
  { ix := 0x1031, name := "PAIR_DIGEST_GEN", ty := .u32, acc := .ro, subs := .one, rng := .any, dflt := .int 0 },
  { ix := 0x1032, name := "PAIR_DIGEST_OK", ty := .bool, acc := .ro, subs := .one, rng := .any, dflt := .int 0 },
  { ix := 0x1033, name := "PAIR_SWAP_TICK", ty := .tick64, acc := .ro, subs := .one, rng := .any, dflt := .int 0 },
  { ix := 0x1034, name := "PAIR_LAST_DOOR", ty := .tick64, acc := .ro, subs := .one, rng := .any, dflt := .int 0 },
  { ix := 0x1035, name := "PAIR_TAKEOVERS", ty := .u32, acc := .ro, subs := .one, rng := .any, dflt := .int 0 },
  { ix := 0x1036, name := "PAIR_RESYNCS", ty := .u32, acc := .ro, subs := .one, rng := .any, dflt := .int 0 },
  { ix := 0x1037, name := "PAIR_WARM_DIFF", ty := .u32, acc := .ro, subs := .upto 16, rng := .any, dflt := .int 0 }]

/-- Objects 0x1100–0x11FF (R371). -/
def objRows11 : List ObjRow := [
  { ix := 0x1100, name := "FAB_DRAM_SIZE", ty := .u32, acc := .ro, subs := .one, rng := .any, dflt := .int 0 },
  { ix := 0x1101, name := "FAB_DRAM_SPEED", ty := .u16, acc := .ro, subs := .one, rng := .any, dflt := .int 0 },
  { ix := 0x1102, name := "FAB_DLY_STORE_SIZE", ty := .u32, acc := .ro, subs := .one, rng := .any, dflt := .int 0 },
  { ix := 0x1103, name := "FAB_DLY_BUDGET", ty := .u32, acc := .ro, subs := .one, rng := .any, dflt := .int 15336 },
  { ix := 0x1104, name := "FAB_DLY_LOAD", ty := .u32, acc := .ro, subs := .one, rng := .any, dflt := .int 0 },
  { ix := 0x1110, name := "FAB_DLY_BASE", ty := .u32, acc := .rw, subs := .upto 4096, rng := .own, dflt := .int 0 },
  { ix := 0x1111, name := "FAB_DLY_LEN", ty := .u32, acc := .rw, subs := .upto 4096, rng := .own, dflt := .int 32 },
  { ix := 0x1112, name := "FAB_DLY_IN", ty := .u32, acc := .rw, subs := .upto 4096, rng := .own, dflt := .int 0 },
  { ix := 0x1113, name := "FAB_DLY_OUT", ty := .u32, acc := .rw, subs := .upto 4096, rng := .own, dflt := .int 0 },
  { ix := 0x1114, name := "FAB_DLY_DELAY", ty := .u32, acc := .rws, subs := .upto 4096, rng := .own, dflt := .int 0 },
  { ix := 0x1115, name := "FAB_DLY_STATE", ty := .u8, acc := .ro, subs := .upto 4096, rng := .any, dflt := .int 0 },
  { ix := 0x1120, name := "FAB_BANK_ECC_CE", ty := .u32, acc := .ro, subs := .range 1 6, rng := .any, dflt := .int 0 },
  { ix := 0x1121, name := "FAB_BANK_ECC_UE", ty := .u32, acc := .ro, subs := .range 1 6, rng := .any, dflt := .int 0 },
  { ix := 0x1122, name := "FAB_BANK_SPARES", ty := .u16, acc := .ro, subs := .range 1 6, rng := .any, dflt := .int 0 },
  { ix := 0x1130, name := "FAB_ERR_LOG", ty := .u64, acc := .ro, subs := .upto 16, rng := .any, dflt := .int 0 },
  { ix := 0x1131, name := "FAB_ERR_COUNT", ty := .u32, acc := .ro, subs := .one, rng := .any, dflt := .int 0 },
  { ix := 0x1132, name := "FAB_RESET_BURSTS", ty := .u32, acc := .ro, subs := .one, rng := .any, dflt := .int 0 },
  { ix := 0x1140, name := "DRAM_LINK_CE", ty := .u32, acc := .ro, subs := .upto 2, rng := .any, dflt := .int 0 },
  { ix := 0x1141, name := "DRAM_LINK_UE", ty := .u32, acc := .ro, subs := .upto 2, rng := .any, dflt := .int 0 },
  { ix := 0x1142, name := "DRAM_LOAD", ty := .u32, acc := .ro, subs := .upto 2, rng := .any, dflt := .int 0 }]

/-- Objects 0x1200–0x12FF (R393). -/
def objRows12 : List ObjRow := [
  { ix := 0x1200, name := "RSV_POLICY", ty := .u8, acc := .rwk, subs := .one, rng := .btw 0 1, dflt := .int 1 },
  { ix := 0x1201, name := "RSV_CMD", ty := .u32, acc := .rwk, subs := .one, rng := .own, dflt := .int 0 },
  { ix := 0x1202, name := "RSV_ENG_STATE", ty := .u8, acc := .ro, subs := .upto 16, rng := .any, dflt := .int 0 },
  { ix := 0x1203, name := "RSV_ENG_SLACK", ty := .s16, acc := .ro, subs := .upto 16, rng := .any, dflt := .int 0 },
  { ix := 0x1204, name := "RSV_ENG_CE", ty := .u32, acc := .ro, subs := .upto 16, rng := .any, dflt := .int 0 },
  { ix := 0x1205, name := "RSV_ENG_FAULTS", ty := .u8, acc := .ro, subs := .upto 16, rng := .any, dflt := .int 0 },
  { ix := 0x1206, name := "RSV_SLACK_WARN", ty := .s16, acc := .rw, subs := .one, rng := .btw 0 200, dflt := .int 60 },
  { ix := 0x1207, name := "RSV_SLACK_RETIRE", ty := .s16, acc := .rw, subs := .one, rng := .btw 0 200, dflt := .int 40 },
  { ix := 0x1208, name := "RSV_CE_LIMIT", ty := .u32, acc := .rw, subs := .one, rng := .btw 1 1000000, dflt := .int 64 },
  { ix := 0x1209, name := "RSV_ROW_CE_LIMIT", ty := .u8, acc := .rw, subs := .one, rng := .btw 1 255, dflt := .int 3 },
  { ix := 0x120A, name := "RSV_LEAF_TEST_PERIOD", ty := .u16, acc := .rw, subs := .one, rng := .btw 0 720, dflt := .int 24 },
  { ix := 0x120B, name := "RSV_SHADOW_CHECK", ty := .bool, acc := .rw, subs := .one, rng := .any, dflt := .int 1 },
  { ix := 0x1210, name := "RSV_MIG_STATE", ty := .u32, acc := .ro, subs := .one, rng := .any, dflt := .int 0 },
  { ix := 0x1211, name := "RSV_MIG_TICK", ty := .tick64, acc := .ro, subs := .one, rng := .any, dflt := .int 0 },
  { ix := 0x1212, name := "RSV_MIGRATIONS", ty := .u32, acc := .ro, subs := .one, rng := .any, dflt := .int 0 },
  { ix := 0x1213, name := "RSV_MIG_DIFFS", ty := .u32, acc := .ro, subs := .one, rng := .any, dflt := .int 0 },
  { ix := 0x1220, name := "RSV_LANES", ty := .u32, acc := .ro, subs := .one, rng := .any, dflt := .int 1088 },
  { ix := 0x1221, name := "RSV_LANE_SLACK", ty := .s16, acc := .ro, subs := .one, rng := .any, dflt := .int 0 },
  { ix := 0x1222, name := "RSV_LANE_RESIDUE", ty := .u32, acc := .ro, subs := .one, rng := .any, dflt := .int 0 },
  { ix := 0x1230, name := "RSV_ROWS", ty := .u16, acc := .ro, subs := .memory, rng := .any, dflt := .int 0 },
  { ix := 0x1231, name := "RSV_REPAIR_FUSES", ty := .u16, acc := .ro, subs := .one, rng := .any, dflt := .int 0 },
  { ix := 0x1232, name := "RSV_REPAIR_LOG", ty := .u64, acc := .ro, subs := .upto 64, rng := .any, dflt := .int 0 },
  { ix := 0x1240, name := "RSV_LEAVES", ty := .u8, acc := .ro, subs := .one, rng := .any, dflt := .int 114 }]

/-- Objects 0x1300–0x13FF (R405). -/
def objRows13 : List ObjRow := [
  { ix := 0x1300, name := "PMU_ENG_EVT", ty := .u8, acc := .rw, subs := .upto 64, rng := .any, dflt := .int 0 },
  { ix := 0x1301, name := "PMU_ENG_EN", ty := .u8, acc := .rw, subs := .upto 16, rng := .mask 0xF, dflt := .int 0 },
  { ix := 0x1302, name := "PMU_ENG_IRQ", ty := .u8, acc := .rw, subs := .upto 16, rng := .mask 0xF, dflt := .int 0 },
  { ix := 0x1303, name := "PMU_ENG_USER", ty := .bool, acc := .rw, subs := .upto 16, rng := .any, dflt := .int 0 },
  { ix := 0x1304, name := "PMU_ENG_COUNT", ty := .u64, acc := .rw, subs := .upto 64, rng := .mask 0xFFFFFFFFFFFF, dflt := .int 0 },
  { ix := 0x1305, name := "PMU_ENG_OVF", ty := .u8, acc := .ro, subs := .upto 16, rng := .any, dflt := .int 0 },
  { ix := 0x1306, name := "PMU_ENG_OVF_CLR", ty := .u8, acc := .wo, subs := .upto 16, rng := .mask 0xF, dflt := .int 0 },
  { ix := 0x1307, name := "PMU_ENG_OVFPC", ty := .u32, acc := .ro, subs := .upto 16, rng := .any, dflt := .int 0 },
  { ix := 0x1308, name := "PMU_ENG_OVF_ALARM", ty := .u8, acc := .rw, subs := .upto 16, rng := .mask 0xF, dflt := .int 0 },
  { ix := 0x1310, name := "PMU_FAB_SEL", ty := .u32, acc := .rw, subs := .upto 16, rng := .mask 0x80FFFFFF, dflt := .int 16776960 },
  { ix := 0x1311, name := "PMU_FAB_COUNT", ty := .u64, acc := .rw, subs := .upto 16, rng := .mask 0xFFFFFFFFFFFF, dflt := .int 0 },
  { ix := 0x1320, name := "PMU_BENCH_SEL", ty := .u16, acc := .rw, subs := .upto 8, rng := .mask 0x80FF, dflt := .int 0 },
  { ix := 0x1321, name := "PMU_BENCH_COUNT", ty := .u64, acc := .rw, subs := .upto 8, rng := .mask 0xFFFFFFFFFFFF, dflt := .int 0 },
  { ix := 0x1330, name := "PMU_NET_SEL", ty := .u16, acc := .rw, subs := .upto 8, rng := .mask 0x87FF, dflt := .int 1024 },
  { ix := 0x1331, name := "PMU_NET_COUNT", ty := .u64, acc := .rw, subs := .upto 8, rng := .mask 0xFFFFFFFFFFFF, dflt := .int 0 },
  { ix := 0x1340, name := "PMU_OVF", ty := .u32, acc := .ro, subs := .one, rng := .any, dflt := .int 0 },
  { ix := 0x1341, name := "PMU_OVF_CLR", ty := .u32, acc := .wo, subs := .one, rng := .any, dflt := .int 0 },
  { ix := 0x1342, name := "PMU_OVF_ALARM", ty := .u32, acc := .rw, subs := .one, rng := .any, dflt := .int 0 }]

/-- Objects 0x1400–0x14FF (R423). -/
def objRows14 : List ObjRow := [
  { ix := 0x1400, name := "SEC_LIFECYCLE", ty := .u8, acc := .ro, subs := .one, rng := .any, dflt := .int 0 },
  { ix := 0x1401, name := "SEC_LC_ADVANCE", ty := .u64, acc := .rwk, subs := .one, rng := .own, dflt := .int 0 },
  { ix := 0x1402, name := "SEC_RECOVERY_WRAP", ty := .string, acc := .rwk, subs := .one, rng := .len 24, dflt := .bytes [] },
  { ix := 0x1403, name := "SEC_IMG_KEY_HASH", ty := .string, acc := .rwk, subs := .upto 2, rng := .len 32, dflt := .bytes [] },
  { ix := 0x1404, name := "SEC_IMG_PUBKEY", ty := .string, acc := .rwk, subs := .one, rng := .len 64, dflt := .bytes [] },
  { ix := 0x1405, name := "SEC_SIGN_REQUIRED", ty := .bool, acc := .rwk, subs := .one, rng := .any, dflt := .int 0 },
  { ix := 0x1406, name := "SEC_DBG_KEY_HASH", ty := .string, acc := .rwk, subs := .one, rng := .len 32, dflt := .bytes [] },
  { ix := 0x1410, name := "SEC_TAMPER_EN", ty := .u8, acc := .rwk, subs := .one, rng := .own, dflt := .int 0 },
  { ix := 0x1411, name := "SEC_TAMPER_STATE", ty := .u8, acc := .ro, subs := .one, rng := .any, dflt := .int 0 },
  { ix := 0x1412, name := "SEC_TAMPER_CLR", ty := .u8, acc := .rwk, subs := .one, rng := .own, dflt := .int 0 },
  { ix := 0x1413, name := "SEC_TAMPER_RAW", ty := .u8, acc := .ro, subs := .one, rng := .any, dflt := .int 0 },
  { ix := 0x1414, name := "SEC_TAMPER_TICK", ty := .tick64, acc := .ro, subs := .one, rng := .any, dflt := .int 0 },
  { ix := 0x1415, name := "SEC_DIE_TEMP", ty := .s16, acc := .ro, subs := .one, rng := .any, dflt := .int 0 },
  { ix := 0x1420, name := "SEC_WIPES", ty := .u32, acc := .ro, subs := .one, rng := .any, dflt := .int 0 },
  { ix := 0x1421, name := "SEC_EPOCH_LEFT", ty := .u8, acc := .ro, subs := .one, rng := .any, dflt := .int 0 },
  { ix := 0x1430, name := "SEC_DBG_CHALLENGE", ty := .string, acc := .ro, subs := .one, rng := .any, dflt := .bytes [] },
  { ix := 0x1431, name := "SEC_DBG_RESPONSE", ty := .domain, acc := .rwk, subs := .one, rng := .any, dflt := .bytes [] },
  { ix := 0x1432, name := "SEC_DBG_STATE", ty := .u32, acc := .ro, subs := .one, rng := .any, dflt := .int 0 },
  { ix := 0x1433, name := "SEC_DBG_END", ty := .u8, acc := .rwk, subs := .one, rng := .btw 0 1, dflt := .int 0 }]

/-- Objects 0x1500–0x15FF (R440). -/
def objRows15 : List ObjRow := [
  { ix := 0x1500, name := "CUE_EN", ty := .bool, acc := .rw, subs := .upto 2, rng := .any, dflt := .int 0 },
  { ix := 0x1501, name := "CUE_FS_VPK", ty := .u16, acc := .rw, subs := .upto 2, rng := .btw 40 240, dflt := .int 126 },
  { ix := 0x1502, name := "CUE_STATE", ty := .u8, acc := .ro, subs := .upto 2, rng := .any, dflt := .int 0 },
  { ix := 0x1503, name := "CUE_CHECK_RESULT", ty := .u8, acc := .ro, subs := .upto 2, rng := .any, dflt := .int 0 },
  { ix := 0x1504, name := "CUE_RETRIES", ty := .u8, acc := .ro, subs := .upto 2, rng := .any, dflt := .int 0 },
  { ix := 0x1505, name := "CUE_CMD", ty := .u8, acc := .wo, subs := .upto 2, rng := .btw 1 2, dflt := .int 0 },
  { ix := 0x1506, name := "CUE_Z", ty := .u32, acc := .ro, subs := .upto 2, rng := .any, dflt := .int 0 },
  { ix := 0x1507, name := "CUE_Z_LIMITS", ty := .u32, acc := .rw, subs := .upto 2, rng := .own, dflt := .int 393216200 },
  { ix := 0x1508, name := "CUE_FAULTS", ty := .u32, acc := .ro, subs := .upto 8, rng := .any, dflt := .int 0 },
  { ix := 0x1509, name := "CUE_FOSC", ty := .u32, acc := .ro, subs := .upto 2, rng := .any, dflt := .int 0 },
  { ix := 0x150A, name := "CUE_TEMP", ty := .s16, acc := .ro, subs := .upto 2, rng := .any, dflt := .int 0 },
  { ix := 0x1510, name := "CUE_BST_V", ty := .u16, acc := .ro, subs := .one, rng := .any, dflt := .int 0 },
  { ix := 0x1511, name := "CUE_BST_VMIN", ty := .u16, acc := .ro, subs := .one, rng := .any, dflt := .int 1400 },
  { ix := 0x1512, name := "CUE_PVDD", ty := .u16, acc := .ro, subs := .one, rng := .any, dflt := .int 0 }]

/-- Objects 0x1600–0x16FF (R458). -/
def objRows16 : List ObjRow := [
  { ix := 0x1600, name := "BOOT_STAGE", ty := .u8, acc := .ro, subs := .one, rng := .any, dflt := .int 7 },
  { ix := 0x1601, name := "BOOT_RESET_CAUSE", ty := .u8, acc := .ro, subs := .one, rng := .any, dflt := .int 0 },
  { ix := 0x1602, name := "BOOT_RESET_COUNT", ty := .u32, acc := .ro, subs := .one, rng := .any, dflt := .int 0 },
  { ix := 0x1603, name := "BOOT_STRAPS", ty := .u8, acc := .ro, subs := .one, rng := .any, dflt := .int 0 },
  { ix := 0x1604, name := "BOOT_SOURCE", ty := .u8, acc := .ro, subs := .one, rng := .any, dflt := .int 0 },
  { ix := 0x1605, name := "BOOT_TIME", ty := .u32, acc := .ro, subs := .one, rng := .any, dflt := .int 0 },
  { ix := 0x1606, name := "BOOT_SLOT_VERSION", ty := .u32, acc := .ro, subs := .upto 2, rng := .any, dflt := .int 0 },
  { ix := 0x1607, name := "BOOT_SLOT_SEQ", ty := .u64, acc := .ro, subs := .upto 2, rng := .any, dflt := .int 0 },
  { ix := 0x1608, name := "BOOT_FW_IMAGE", ty := .domain, acc := .rwk, subs := .one, rng := .any, dflt := .bytes [] },
  { ix := 0x1609, name := "BOOT_FW_STATUS", ty := .u8, acc := .ro, subs := .one, rng := .any, dflt := .int 0 },
  { ix := 0x160A, name := "BOOT_RESET", ty := .u8, acc := .rwk, subs := .one, rng := .btw 0 2, dflt := .int 0 },
  { ix := 0x160B, name := "QUIET_MODE", ty := .u8, acc := .rwk, subs := .one, rng := .btw 0 1, dflt := .int 0 }]

/-- The object rows of one page of 256 indices. -/
def objPage (page : Nat) : List ObjRow :=
  match page with
  | 0x00 => objRows00
  | 0x01 => objRows01
  | 0x02 => objRows02
  | 0x04 => objRows04
  | 0x05 => objRows05
  | 0x06 => objRows06
  | 0x07 => objRows07
  | 0x08 => objRows08
  | 0x09 => objRows09
  | 0x0A => objRows0A
  | 0x0B => objRows0B
  | 0x0C => objRows0C
  | 0x0D => objRows0D
  | 0x0E => objRows0E
  | 0x0F => objRows0F
  | 0x10 => objRows10
  | 0x11 => objRows11
  | 0x12 => objRows12
  | 0x13 => objRows13
  | 0x14 => objRows14
  | 0x15 => objRows15
  | 0x16 => objRows16
  | _ => []

end Sys2Proof.Machine
end

