-- ==== Sys2Proof/Machine/FabState.lean ====
section
/-! DEFINITION. The state of the fabric: the bytes of Banks, Cabinet and DRAM, FAB_CTL, and the delay lines
(chapter 15). -/

namespace Sys2Proof.Machine

/-- A delay line while it is enabled (R365, R366): its write index w, and how many of the samples before w
have been written since the place last started or the line was enabled. -/
structure DlyLine where
  w : Nat
  n : Nat
  deriving DecidableEq, Repr

def DlyLine.start : DlyLine := { w := 0, n := 0 }

/-- The fabric. -/
structure FabSt where
  /-- Bytes of Banks A to E, the Cabinet and DRAM by fabric address; an unlisted byte reads as 0. -/
  mem : Map Byte
  remap : Bool
  lock : Bool
  dramReady : Bool
  /-- Enabled delay lines by 256 × place + line. -/
  dly : Map DlyLine
  /-- Sections done and not yet streamed, by 2 × place + section. -/
  dlyDue : List Nat
  /-- Lines whose last read is incomplete. -/
  dlyLate : List Nat
  /-- Lines that were late in this tick: their section opened before their read was complete (R369, R371). -/
  lateNow : List Nat
  /-- Bytes moved on each DRAM channel in this tick (R371). -/
  moved0 : Nat
  moved1 : Nat
  deriving DecidableEq, Repr

def FabSt.reset : FabSt :=
  { mem := [], remap := false, lock := false, dramReady := false, dly := [], dlyDue := [], dlyLate := [], lateNow := [],
    moved0 := 0, moved1 := 0 }

end Sys2Proof.Machine
end

