-- ==== Sys2Proof/Machine/PortState.lean ====
section
/-! DEFINITION. The state of the serial audio ports: TDM directions, AES3 inputs and rate converters
(chapter 09). -/

namespace Sys2Proof.Machine

/-- The states TDM_STATE and AESI_STATE name (R233, R234). -/
inductive PortRun where
  | off | starting | running | lost | mismatch | recovering
  deriving DecidableEq, Repr

/-- A sample of a channel on its way between its pins and its block: the word, whether its port fades have scaled it
(R155), whether a port cause has made it 0, whether it is non-PCM (R216, R229), and its place in time: of a received
sample the system counter at its frame's edge (R15), of one to be sent the house sample it is presented at (R46). -/
structure Sample where
  w : Word
  low : Bool
  mute : Bool
  npcm : Bool
  time : Nat
  deriving DecidableEq, Repr

/-- A sample of silence that no fade has touched. -/
def Sample.zero : Sample := { w := 0, low := false, mute := false, npcm := false, time := 0 }

/-- One channel of a port: its fades by cause (enable, slot mask, service), its held sample and whether that is non-PCM,
whether the service fade runs on it (R211, R217, R223), the samples of its elastic buffer or converter FIFO, oldest
first (R212, R217, R220, R223, R226), the sample that left a converter's FIFO last, the house sample that enters a
transmit channel next, and whether a sample of the block under way was repeated (R216). -/
structure Chan where
  en : Fade
  mask : Fade
  svc : Fade
  held : Word
  heldNpcm : Bool
  hold : Bool
  fifo : List Sample
  now : Sample
  next : Nat
  concealed : Bool
  deriving DecidableEq, Repr

def Chan.fresh : Chan :=
  { en := Fade.unity, mask := Fade.unity, svc := Fade.silent, held := 0, heldNpcm := false, hold := false, fifo := [],
    now := { Sample.zero with low := true, mute := true }, next := 0, concealed := false }

/-- The header of a block (R216). -/
structure BlockHdr where
  tick : Nat
  stamp : Nat
  npcm : Bool
  concealed : Bool
  fading : Bool
  silent : Bool
  deriving DecidableEq, Repr

def BlockHdr.empty : BlockHdr :=
  { tick := 0, stamp := 0, npcm := false, concealed := false, fading := false, silent := false }

/-- A block of a channel buffer in Bank C (R215, R216); of a block to be sent, the house sample its first sample is
presented at. -/
structure Block where
  hdr : BlockHdr
  words : List Word
  first : Nat
  deriving DecidableEq, Repr

/-- One direction of a TDM port, or one AES3 input: how it runs, the settings it took when it started, its
slots, and where it stands against the return rule (R207 to R218). -/
structure Dir where
  run : PortRun
  fmt : Nat
  clk : Nat
  mask : Nat
  chans : Map Chan
  /-- A restart, or a disable, runs its fade-out. -/
  restart : Bool
  stopping : Bool
  /-- Consecutive bad frames. -/
  bad : Nat
  /-- Every frame of this tick has been good; whole good ticks since the event that took it out of service, and
  whether the present tick began after that event. -/
  good : Bool
  ticks : Nat
  counts : Bool
  /-- A HOUSE follower has measured its phase and assigned its frames (R210). -/
  assigned : Bool
  /-- Windows in a row outside and inside the rate range (R218). -/
  out : Nat
  inside : Nat
  /-- Frames received in this tick, or for the next, and the system counter at the latest edge. -/
  frames : Nat
  stamp : Nat
  /-- Mask and channels before a mask that has landed at the latest boundary (R213). -/
  before : Option (Nat × Map Chan)
  deriving DecidableEq, Repr

def Dir.reset : Dir :=
  { run := .off, fmt := 0, clk := 0, mask := 0, chans := [], restart := false, stopping := false, bad := 0,
    good := false, ticks := 0, counts := false, assigned := false, out := 0, inside := 0, frames := 0, stamp := 0,
    before := none }

/-- What an AES3 input keeps beside its direction (R227, R229). -/
structure AesIn where
  asrc : Bool
  /-- Consecutive channel-status blocks with valid preambles. -/
  blocks : Nat
  /-- A block has been verified since the start, by subframe (R228). -/
  csA : Bool
  csB : Bool
  /-- Frames since the last with a Pa/Pb pair or the non-audio bit set, by subframe (R229). -/
  quietA : Nat
  quietB : Nat
  /-- Pa was found in subframe A of the frame under way: 1 in 16-bit mode, 2 in 24-bit mode. -/
  paSeen : Nat
  nonAudioA : Bool
  nonAudioB : Bool
  npcmA : Bool
  npcmB : Bool
  /-- User bits of the block under way, by subframe. -/
  userA : List Bool
  userB : List Bool
  deriving DecidableEq, Repr

def AesIn.reset : AesIn :=
  { asrc := true, blocks := 0, csA := false, csB := false, quietA := 0, quietB := 0, paSeen := 0, nonAudioA := false, nonAudioB := false,
    npcmA := false, npcmB := false, userA := [], userB := [] }

/-- The ports. `sent` holds, by AES3 output channel, the channel-status bits sent of the block under way (R228). -/
structure PortSt where
  /-- TDM directions by 2 × port + d, d = 0 receive, 1 transmit; AES3 inputs at 64 + i. -/
  dirs : Map Dir
  aes : Map AesIn
  /-- The channel buffers: the latest 4 blocks, newest first, by source identifier, or destination identifier with bit 15
  set (R215, R239, R245). -/
  blocks : Map (List Block)
  /-- Sources whose block is not handed over in time in this tick (R43). -/
  held : List Nat
  sent : Map (List Bool)
  deriving DecidableEq, Repr

def PortSt.reset : PortSt := { dirs := [], aes := [], blocks := [], held := [], sent := [] }

end Sys2Proof.Machine
end

