-- ==== Sys2Proof/Machine/NetState.lean ====
section
/-! DEFINITION. The state of the media network: receive and transmit streams, queued packets, software rings
(chapter 10). -/

namespace Sys2Proof.Machine

/-- One sample of a receive stream: its channels as the payload spells them, and the system counter at the
packet's timestamp (R241). -/
structure RxSample where
  raw : List Nat
  stamp : Nat
  deriving DecidableEq, Repr

/-- The header values of a stream packet (R240): IPv4, UDP and RTP. -/
structure StreamHdr where
  src : Nat
  dst : Nat
  dscp : Nat
  ttl : Nat
  df : Bool
  ident : Nat
  sport : Nat
  dport : Nat
  checksum : Nat
  marker : Bool
  ptype : Nat
  seq : Nat
  ts : Nat
  ssrc : Nat
  deriving DecidableEq, Repr

/-- The non-PCM test of one channel pair (R229, R246): frames since the last with a pair or the non-audio bit
set, the verdict, the C bits of the block under way and the non-audio bit of each subframe. -/
structure PairTest where
  quiet : Nat
  npcm : Bool
  csA : List Bool
  csB : List Bool
  nonA : Bool
  nonB : Bool
  deriving DecidableEq, Repr

def PairTest.reset : PairTest := { quiet := 0, npcm := false, csA := [], csB := [], nonA := false, nonB := false }

/-- A receive stream (R241 to R246, R249). -/
structure NetRx where
  run : PortRun
  offset : Nat
  base : Nat
  chans : Nat
  fmt : Nat
  /-- Samples received, by house sample. -/
  got : Map RxSample
  /-- Last delivered word of each channel, and the words held while out of service. -/
  held : List Word
  frozen : List Word
  missing : Nat
  en : Fade
  svc : Fade
  /-- The tick under way began after the event that took the stream out of service. -/
  counts : Bool
  stopping : Bool
  pairs : List PairTest
  /-- The groups the stream needs, as its enable landed with them, and those whose join report is to be repeated (R250):
  port, group and source. -/
  joined : List (Nat × Nat × Nat)
  repeatDue : List (Nat × Nat × Nat)
  deriving DecidableEq, Repr

def NetRx.off : NetRx :=
  { run := .off, offset := 0, base := 0, chans := 0, fmt := 0, got := [], held := [], frozen := [], missing := 0,
    en := Fade.unity, svc := Fade.silent, counts := false, stopping := false, pairs := [], joined := [], repeatDue := [] }

/-- A transmit stream: samples by 64 × media time + channel (R247, R249). -/
structure NetTx where
  on : Bool
  samples : Map Int
  deriving DecidableEq, Repr

def NetTx.off : NetTx := { on := false, samples := [] }

/-- A ready packet waiting at a port: when it became ready, counted in egress phases, stream, leg, first timestamp S,
payload (R247). -/
structure ReadyPacket where
  phase : Nat
  stream : Nat
  leg : Nat
  first : Nat
  payload : List Byte
  deriving DecidableEq, Repr

/-- A software ring (R252): its place, the index of the descriptor Darond processes next, and whether its TSMODE is OSC
(R255). -/
structure Ring where
  base : Nat
  size : Nat
  next : Nat
  osc : Bool
  deriving DecidableEq, Repr

/-- A ring that firmware has not set up. -/
def Ring.none : Ring := { base := 0, size := 0, next := 0, osc := false }

/-- A frame that waits to be forwarded (R256): its bytes, and the residence time it will have had when it leaves, in
2^−16 ns. -/
structure FwdFrame where
  bytes : List Byte
  residence : Nat
  deriving DecidableEq, Repr

/-- The network. -/
structure NetSt where
  rx : Map NetRx
  tx : Map NetTx
  /-- Ready packets by port, earliest ready first, and then the lower stream number (R247). -/
  ready : Map (List ReadyPacket)
  /-- A swap passed the door at this tick: the unit that gave it (true) still sends packets that begin in frames
  gathered before, the one that took it sends the others (R341). -/
  pass : Option (Nat × Bool)
  /-- The software rings: receive 0 to 31, transmit 32 to 63. -/
  rings : Map Ring
  /-- Rings whose descriptors have interrupted the housekeeping controller: receive 0 to 31, transmit 32 to 63. -/
  irqs : List Nat
  /-- Watched transmit streams whose join report is to be repeated (R250, R335). -/
  watchDue : List Nat
  /-- The chain's queue of each port, by the port the frames leave on, oldest first (R256). -/
  fwd : Map (List FwdFrame)
  deriving DecidableEq, Repr

def NetSt.reset : NetSt := { rx := [], tx := [], ready := [], pass := none, rings := [], irqs := [], watchDue := [], fwd := [] }

end Sys2Proof.Machine
end

