-- ==== Sys2Proof/Machine/PairState.lean ====
section
/-! DEFINITION. The state of a unit of a redundant pair (chapter 14), of security and the lifecycle (chapter
18), of start-up (chapter 20) and of the cue stage (chapter 19). -/

namespace Sys2Proof.Machine

/-- A planned swap in progress (R341): t_w, t_s, whether this unit gives the door, places in lockstep, and what has come of
the state region that is on its way. The unit that receives the door learns t_w from the limiter states; until then it stands
at t_s. -/
structure Swap where
  tw : Nat
  ts : Nat
  giver : Bool
  lockstep : List Nat
  got : List Word
  deriving DecidableEq, Repr

/-- A request to the witness (R336): its nonce, seat and PAIR_ID, whether it is a CLAIM, and the tick in which it was
sent. -/
structure Ask where
  nonce : Nat
  seat : Nat
  pairId : Nat
  claim : Bool
  tick : Nat
  deriving DecidableEq, Repr

/-- A frame not acknowledged (R322): sequence, TYPE, tick of first sending, payload or bulk part, and whether it has been
sent, or still waits for room in Bank E. -/
structure Unacked where
  seq : Nat
  ty : Nat
  tick : Nat
  payload : List Byte
  bulk : Option BulkPart
  sent : Bool := true
  deriving DecidableEq, Repr

/-- What happens once a reply has been sent: a session closes, told by its number and key (R196), the sessions of
rewritten credential slots close (R206), a reset begins (R446). -/
structure AfterReply where
  close : Option (Nat × List Byte)
  slots : List Nat
  reset : Bool
  deriving DecidableEq, Repr

/-- A reply held back (R331): where it goes, its bytes, the sequence that has to be acknowledged, and what follows it. -/
structure HeldReply where
  udp : Bool
  peer : Nat
  port : Nat
  bytes : List Byte
  seq : Nat
  next : AfterReply
  deriving DecidableEq, Repr

/-- The role change that takes effect at the next boundary (R327, R328, R340). -/
inductive RoleDue where
  | none | take | join | isolate | giveWay
  deriving DecidableEq, Repr

/-- One half of a pair. -/
structure PairSt where
  /-- Crosspoint records the Bench has handed to the mirror after a tick, with their four words (R119). -/
  benchRecs : List (Nat × List Word)
  /-- A HEARTBEAT has been counted as received in this tick, and consecutive missed ticks before it. -/
  beat : Bool
  missed : Nat
  /-- Heartbeat loss stands, and LINK_SPLIT raised in it. -/
  lost : Bool
  split : Bool
  /-- Own tick in which the last HEARTBEAT was counted, and the TICK it named. -/
  beatTick : Option Nat
  peerTick : Nat
  due : RoleDue
  /-- Engines that start when the unit becomes ACTIVE, with their start ticks (R453). -/
  deferred : Map (Option Nat)
  /-- The door-holder has sent its snapshot; the joining unit has taken all of it (R342). -/
  snapSent : Bool
  snapTaken : Bool
  /-- Digest comparisons that have failed in this join. -/
  tries : Nat
  /-- Records waiting for the end of the snapshot, or for their ticks (R333). -/
  held : List MirRec
  /-- Parts of the snapshot received so far. -/
  parts : List BulkPart
  seqOut : Nat
  seqIn : Nat
  frameOk : Bool
  unacked : List Unacked
  ackTick : Nat
  replies : List HeldReply
  /-- Tick in which the last watched packet arrived. -/
  watched : Option Nat
  /-- Last tick in which a GRANT is valid. -/
  grant : Option Nat
  asks : List Ask
  noAnswer : Bool
  nextAsk : Nat
  /-- The tick t_d of a takeover (R338), and engines still to run at t_d + 1. -/
  tookAt : Option Nat
  runDue : Bool
  swap : Option Swap
  /-- The tick at which the physical outputs of the old door-holder begin to fade (R341). -/
  outHold : Option Nat
  /-- Last results of mirrored commits of this unit's own Shutter (R333): commit, code, and the generation taken. -/
  results : List (Nat × Nat × Nat)
  /-- Digests by generation (R334), the one being computed, and the partner's, awaiting comparison. -/
  past : List (Nat × List Byte)
  asked : Option Nat
  theirs : Option (Nat × List Byte)
  /-- Gain-reduction regions from the last GR records, by place: X base and words (R338). -/
  gr : Map (Nat × List Word)
  /-- The last result sent for a place's frames of this tick, CRC-32 by place (R341). -/
  crcs : Map Word
  theirCrcs : Option (Nat × List Word)
  /-- Tick in which the door-holder last sent DIGEST, and tick of the cause of a yield. -/
  digestAt : Option Nat
  causeTick : Nat
  /-- The tick `crcs` belongs to. -/
  crcTick : Nat
  /-- Credential slots of unowned open sets, by set (R338). -/
  orphans : Map (Option Nat)
  /-- Lanes by bit (R323): found failed and not yet reported, to be moved at the next boundary, and those that the partner's
  last HEARTBEAT reported. -/
  laneSeen : Nat
  laneDue : Nat
  peerLanes : Nat
  /-- System counter at the last swap or takeover, and PAIR_SWAP_DUE raised since (R339). -/
  doorAt : Nat
  swapDue : Bool
  deriving DecidableEq, Repr

def PairSt.reset : PairSt :=
  { beat := false, missed := 0, lost := false, split := false, beatTick := none, peerTick := 0,
    due := .none, deferred := [], snapSent := false, snapTaken := false, tries := 0, held := [], parts := [],
    seqOut := 0, seqIn := 0, frameOk := false, unacked := [], ackTick := 0, replies := [], watched := none,
    grant := none, asks := [], noAnswer := false, nextAsk := 0, tookAt := none, runDue := false, swap := none,
    outHold := none, results := [], past := [], asked := none, theirs := none, gr := [], crcs := [],
    theirCrcs := none, digestAt := none, causeTick := 0, crcTick := 0, orphans := [], benchRecs := [],
    laneSeen := 0, laneDue := 0, peerLanes := 0, doorAt := 0, swapDue := false }

/-- A sealed copy of the Cabinet in flash (R411): sequence, the state and wipe epoch it is sealed under, and what
it holds: keys, privileges and SEC_IMG_PUBKEY. -/
structure Sealed where
  seq : Nat
  life : Nat
  epoch : Nat
  keys : Map (List Byte)
  privs : List Nat
  pub : List Byte
  deriving DecidableEq, Repr

/-- Security and the lifecycle. `life` to `epoch` are fuses, the copies are flash: both outlast a reset. -/
structure SecSt where
  life : Nat
  /-- Row sets of each step already written and not valid (R408), by step. -/
  failed : Map Nat
  kRec : List Byte
  imgHash0 : List Byte
  imgHash1 : List Byte
  dbgHash : List Byte
  epoch : Nat
  copies : List Sealed
  /-- The advance in progress (R407). -/
  advance : Option Nat
  /-- Values written in BLANK and fused at the advance (R423). -/
  pendRec : List Byte
  pendHash : List Byte
  pendDbg : List Byte
  /-- A sealed copy has to be written (R411). -/
  sealDue : Bool
  /-- The nonce last issued and when (R420), times of failed responses, and the end of a lock-out. -/
  nonce : Option (List Byte × Nat)
  fails : List Nat
  locked : Nat
  /-- The debug grant: its scope and its end (R421). -/
  grant : Option (Nat × Nat)
  /-- A debugger has halted the housekeeping controller (R421). -/
  hkHalted : Bool
  deriving DecidableEq, Repr

def SecSt.reset : SecSt :=
  { life := 0, failed := [], kRec := [], imgHash0 := [], imgHash1 := [], dbgHash := [], epoch := 0, copies := [],
    advance := none, pendRec := [], pendHash := [], pendDbg := [], sealDue := false, nonce := none, fails := [],
    locked := 0, grant := none, hkHalted := false }

/-- A slot with an invalid record. -/
def FwSlot.empty : FwSlot := { valid := false, seq := 0, image := [] }

/-- Start-up. The slots are flash. -/
structure BootSt where
  /-- The block is held in reset. -/
  held : Bool
  stage : Nat
  code : Nat
  slot0 : FwSlot
  slot1 : FwSlot
  /-- A firmware image being written (R456). -/
  writing : Option (List Byte)
  quiet : Bool
  quietNext : Option Bool
  deriving DecidableEq, Repr

def BootSt.reset : BootSt :=
  { held := false, stage := 0, code := 0, slot0 := FwSlot.empty, slot1 := FwSlot.empty, writing := none,
    quiet := false, quietNext := none }

/-- What follows the end of a cue fade-out (R430, R436, R437). -/
inductive CueNext where
  | none | off | check | shield
  deriving DecidableEq, Repr

/-- A cue channel beside its objects (R424 to R437). -/
structure CueCh where
  /-- The standard fade of the channel, and a start from sample 0 of the next tick (R430). -/
  fade : Fade
  startDue : Bool
  next : CueNext
  /-- The checks in progress are those of a landing of CUE_EN: a failure counts as a retry (R435). -/
  counts : Bool
  /-- Protections that hold: supply, thermal (R436). -/
  supply : Bool
  hot : Bool
  /-- The gain move of R426: where it started, in microvolts, and samples gone by. -/
  fromV : Nat
  k : Nat
  /-- The frames handed over in the last tick and in the one before it (R424), in 24-bit samples. -/
  held1 : List Int
  held2 : List Int
  /-- Consecutive reports outside and inside the limits, and CUE_Z_WARN raised (R433). -/
  zOut : Nat
  zIn : Nat
  zWarned : Bool
  /-- When the channel began to play, or to wait for a retry (R435, R437), by the system counter. -/
  since : Nat
  deriving DecidableEq, Repr

def CueCh.reset : CueCh :=
  { fade := { mode := .silent, k := 0, last := 0 }, startDue := false, next := .none, counts := false,
    supply := false, hot := false, fromV := 12600000, k := 256, held1 := [], held2 := [], zOut := 0, zIn := 0, zWarned := false, since := 0 }

/-- The cue stage: its channels, and the planned rail in microvolts (R428). -/
structure CueSt where
  ch0 : CueCh
  ch1 : CueCh
  rail : Nat
  deriving DecidableEq, Repr

def CueSt.reset : CueSt := { ch0 := CueCh.reset, ch1 := CueCh.reset, rail := 14000000 }

end Sys2Proof.Machine
end

