-- ==== Sys2Proof/Machine/ReserveState.lean ====
section
/-! DEFINITION. The state of the reserve manager: the move in progress, moves waiting, self-tests and
repairs (chapter 16). -/

namespace Sys2Proof.Machine

/-- The three ways a place moves (R377). -/
inductive MoveKind where
  | warm | cold | quiet
  deriving DecidableEq, Repr

/-- The step of a move (R378 to R383). -/
inductive MoveStep where
  | preparing | prepared | copied
  deriving DecidableEq, Repr

/-- A move wanted: the place, the leaf asked for, FORCE, whether the engine is retired after it, and whether a
trigger asked for it (R384). -/
structure MoveReq where
  place : Fin 16
  leaf : Option (Fin 16)
  force : Bool
  retire : Bool
  auto : Bool
  deriving DecidableEq, Repr

/-- The move in progress. `tx` is t_x, the first shadow tick of a warm move (R379), or the first boundary after preparation
of a cold or quiet one (R382, R383); `held` the fabric cycle of t_x at which the copy is complete (R379); `posts` the CRC-32
of frames posted in a shadow tick and not yet compared, by leaf or source, slot and tag (R380). -/
structure Move where
  kind : MoveKind
  req : MoveReq
  source : Fin 16
  leaf : Fin 16
  step : MoveStep
  tx : Nat
  held : Nat
  repeated : Bool
  posts : List (Bool × Nat × Nat × Word)
  /-- The counters of the reserve place that held the leaf, which are that place's own (R395). -/
  pmu : EngPmu
  deriving DecidableEq, Repr

/-- The reserve manager. -/
structure RsvSt where
  move : Option Move
  queue : List MoveReq
  /-- System-counter times of the halts of each engine (R376). -/
  halts : Map (List Nat)
  /-- Corrected errors of each engine, by time, in rows not yet repaired (R376). -/
  ces : Map (List Nat)
  /-- Engines waiting for a self-test, and those under test (R385). -/
  tests : List (Fin 16)
  testing : List (Fin 16)
  /-- When the leaves were last tested by the clock, by the system counter (R385). -/
  testedAt : Nat
  /-- Those under test that were SUSPECT or RETIRED: no leaves until they pass. -/
  untrusted : List (Fin 16)
  /-- Engines whose slack stands at or below RSV_SLACK_WARN: alarmed once per crossing (R376). -/
  slackLow : List Nat
  /-- Lanes to be retired at the next boundary (R387). -/
  lanesDue : List Nat
  /-- Lanes retired (R387). -/
  lanesOut : List Nat
  /-- Readings of the aging monitors of the last 60 s, newest first, with the system counter: by engine, and by lane
  (R375). -/
  slacks : Map (List (Nat × Int))
  laneSlacks : Map (List (Nat × Int))
  /-- Places whose automatic move has met its second shadow mismatch: it does not start again on its own (R380). -/
  barred : List (Fin 16)
  /-- Repairs so far, those not yet fused by number and memory, and the memories of those a full bank did not take
  (R389, R390). -/
  repairs : Nat
  unfused : List (Nat × Nat)
  unkept : List Nat
  deriving DecidableEq, Repr

def RsvSt.reset : RsvSt :=
  { move := none, queue := [], halts := [], ces := [], tests := [], testing := [], testedAt := 0, untrusted := [], slackLow := [],
    lanesDue := [], lanesOut := [], slacks := [], laneSlacks := [], barred := [], repairs := 0, unfused := [], unkept := [] }

end Sys2Proof.Machine
end

