-- ==== Sys2Proof/Machine/TimeState.lean ====
section
/-! DEFINITION. The state of the time base, PTP, triggers and captures (chapter 11), of reference selection
(chapter 12) and of clock synthesis (chapter 13). -/

namespace Sys2Proof.Machine

/-- The data set an Announce carries (R269, R283), in the order IEEE 1588-2019 compares it. -/
structure PtpData where
  priority1 : Nat
  clockClass : Nat
  accuracy : Nat
  variance : Nat
  priority2 : Nat
  gm : Nat
  steps : Nat
  sender : Nat
  deriving DecidableEq, Repr

/-- A PTP message the unit sends (R269): its messageType as IEEE 1588-2019 numbers it, the domain, what PTP_CFG selects
(transport, delay mechanism, one-step), its log interval, the identity that sends it, the time base in quarter nanoseconds,
an Announce's data set, and the synchronisation metadata. -/
structure PtpMsg where
  kind : Nat
  domain : Nat
  cfg : Nat
  interval : Int
  sender : Nat
  quarter : Nat
  data : Option PtpData
  tlv : List Byte
  deriving DecidableEq, Repr

/-- One PTP instance (R270, R271): the best data set heard on each leg, the slave leg (2: none), the filtered
difference of the legs (leg 2 less leg 1), what has been added to the output at leg changes, and when each leg sends its
next message of a kind, in the system counter (R269), keyed by 16 × leg + messageType. -/
structure PtpInst where
  legA : Option PtpData
  legB : Option PtpData
  slave : Nat
  diff : Int
  bias : Int
  valid : Bool
  next : Map Nat
  deriving DecidableEq, Repr

def PtpInst.reset : PtpInst := { legA := none, legB := none, slave := 2, diff := 0, bias := 0, valid := false, next := [] }

/-- The settings of a trigger (R273). -/
structure TrigSet where
  mode : Nat
  time : Nat
  tick : Nat
  period : Nat
  offset : Nat
  width : Nat
  cfg : Nat
  deriving DecidableEq, Repr

def TrigSet.reset : TrigSet := { mode := 0, time := 0, tick := 0, period := 1, offset := 0, width := 1000, cfg := 0 }

/-- A trigger (R273 to R275): settings before and from the instant `since`, in 1/28,224,000 ns, the highest tick fired, the
pulse running (its end in quarter nanoseconds), whether the earlier settings' one-shot still waits, and whether
the pulse running is driven. -/
structure Trig where
  cur : TrigSet
  old : TrigSet
  since : Nat
  oldArmed : Bool
  lastTick : Option Nat
  pulse : Option Nat
  driven : Bool
  /-- TRIG_CFG of the pulse running. -/
  pcfg : Nat
  deriving DecidableEq, Repr

def Trig.reset : Trig :=
  { cur := TrigSet.reset, old := TrigSet.reset, since := 0, oldArmed := false, lastTick := none, pulse := none,
    driven := false, pcfg := 0 }

/-- A capture input (R277): times of the last stamp and the last drop, in quarter nanoseconds of the time base as it now
runs. -/
structure Capt where
  stamp : Option Int
  drop : Option Int
  deriving DecidableEq, Repr

def Capt.reset : Capt := { stamp := none, drop := none }

/-- The time base (R262): TIME80 with its fraction in 2^−32 ns, the rate word, and its two parts in 2^−48. -/
structure TimeSt where
  t : Nat
  rho : Int
  est : Int
  slew : Int
  /-- The first step has been taken (R265). -/
  stepped : Bool
  /-- Offsets in FREE, newest first, and the first step that is due. -/
  offs : List Int
  firstDue : Option Int
  /-- The first step came due between a commit's final check and its landing, and waits (R172). -/
  firstHeld : Bool
  /-- Consecutive measurements within and beyond TIME_LOCK_LIMIT (R264). -/
  within : Nat
  beyond : Nat
  atLimit : Bool
  /-- The frequency the digital PLL has asked for while R312 bounds the way to it, in 2^−48. -/
  aim : Option Int
  /-- The candidate that gave the last measurement applied, and its offset. -/
  lastRef : Nat
  lastOff : Int
  /-- Motion the slew term has given the time base since reset, in 2^−48 ns. -/
  moved : Int
  ptp : Map PtpInst
  trigs : Map Trig
  /-- Trigger objects that have landed at this boundary: trigger and index. -/
  touched : List (Nat × Nat)
  capts : Map Capt
  deriving DecidableEq, Repr

def TimeSt.reset : TimeSt :=
  { t := 0, rho := 0, est := 0, slew := 0, stepped := false, offs := [], firstDue := none, firstHeld := false, within := 0, beyond := 0,
    atLimit := false, aim := none, lastRef := 15, lastOff := 0, moved := 0, ptp := [], trigs := [], touched := [], capts := [] }

/-- A candidate reference (R281 to R293): whether its monitors pass, whether there is activity on it, whether its last
average failed the coarse window, since when it qualifies (system counter), its 1-second averages newest first, its monitors
of R288 and R289, the measured offsets its filter holds with their instants (system counter) newest first, the last filtered
offset with the time base's own motion then, a measurement not yet applied, the last offset with its instant and the time
base's motion then, and the partner's quality byte for k = 5. -/
structure Cand where
  present : Bool
  active : Bool
  coarse : Bool
  since : Nat
  avgs : List Int
  soft : Bool
  hard : Bool
  drift : Bool
  jump : Bool
  disagree : Bool
  phases : List (Nat × Int)
  filt : Option (Int × Int)
  fresh : Option Int
  last : Option (Int × Nat × Int)
  quality : Nat
  deriving DecidableEq, Repr

def Cand.reset : Cand :=
  { present := false, active := false, coarse := false, since := 0, avgs := [], soft := false, hard := false, drift := false, jump := false, disagree := false,
    phases := [], filt := none, fresh := none, last := none, quality := 15 }

/-- Reference selection. -/
structure RefSt where
  cands : Map Cand
  /-- The history of R287, newest first, and samples accepted since reset (to 60). -/
  hist : List Int
  accepted : Nat
  /-- A switch took place since the last second's average. -/
  switched : Bool
  /-- Level of the reference last active, and REF_HOLD_SPEC has elapsed. -/
  lastQl : Nat
  specOver : Bool
  /-- The declared OCXO is lost. -/
  oscLost : Bool
  /-- The holdover oscillator's frequency against the crystal, parts per 10^12. -/
  osc : Int
  /-- Build-out not yet removed and phase steps, in 2^−48 ns (R293, R297). -/
  build : Int
  step : Int
  /-- What the slew term has still to move the time base by, in 2^−48 ns (R266, R294, R297). -/
  stepLeft : Int
  /-- The frequency still moves from F_h under CLK_REACQ_SLOPE (R312). -/
  reacq : Bool
  /-- REF_OSC_TOL has been written since reset. -/
  tolWritten : Bool
  deriving DecidableEq, Repr

def RefSt.reset : RefSt :=
  { cands := [], hist := [], accepted := 0, switched := false, lastQl := 12, specOver := false, oscLost := false,
    osc := 0, build := 0, step := 0, stepLeft := 0, reacq := false, tolWritten := false }

/-- A ramp profile running (R313): its segments left, the one under way first, the offset it started from and
the instant, in 2^−32 ns. -/
structure Ramp where
  segs : List (Int × Nat × Nat)
  index : Nat
  start : Int
  since : Int
  deriving DecidableEq, Repr

/-- Clock synthesis. -/
structure SynSt where
  /-- System-counter times of each system PLL's losses of lock within 24 hours (R302). -/
  losses : Map (List Nat)
  /-- Both system PLLs lost: ticks have stopped until PORESET_N (R303). -/
  dead : Bool
  ramps : Map Ramp
  /-- A profile that RAMP_START has been written for and that has not started, by 0 and 1 for MEDSYN2 and MEDSYN3: its start
  tick, taken from RAMP_START_TICK at the next boundary. -/
  due : Map (Option Nat)
  /-- Use order of the band-memory slots, least recent first, by synthesizer (R309). -/
  slots : Map (List Nat)
  /-- Dividers N of R305, by synthesizer, in 2^−48. -/
  div : List Nat
  /-- How far the house frame divider's period started after the latest tick boundary, in 2^−32 ns (R306). -/
  phase : Int
  /-- MEDSYN0 has been sent to another family, and is not yet locked and aligned there (R311). -/
  relock : Bool
  /-- Free dividers that SYNC has aligned: from which instant, in quarter nanoseconds, their period starts, by 2 × their bit in
  CLK_SYNC_SET, and 1 more for the transmit direction of a TDM port (R315, R317). -/
  aligned : Map Nat
  deriving DecidableEq, Repr

def SynSt.reset : SynSt :=
  { losses := [], dead := false, ramps := [], due := [], slots := [], div := [0, 0, 0, 0], phase := 0, relock := false, aligned := [] }

end Sys2Proof.Machine
end

