-- ==== Sys2Proof/Machine/State.lean ====
section
/-! DEFINITION. The whole state of the block, the reasons a step can stop, and the state right after reset. -/

namespace Sys2Proof.Machine

/-- What leaves the block. -/
inductive Output where
  /-- A reply or notification frame of a session, to its peer (R190, R199). -/
  | ctlFrame (via : Via) (peer port : Nat) (bytes : List Byte)
  /-- The control port answers an ARP request or an ICMP echo (R188). -/
  | arpReply (peer : Nat)
  | icmpReply (peer : Nat) (payload : List Byte)
  /-- The egress frame of a physical destination that is no TDM slot, with its tag (R13, R39, R131): its samples in the
  output format, or its mix words where the destination has no output format. -/
  | egress (dest tag : Nat) (samples : List Int)
  /-- Of an AES3 output channel with the frame of a tag (R228): the place of the frame's first sample in its 192-frame
  block, the channel-status and user bits of its samples, and the validity bit. -/
  | aesBits (dest tag phase : Nat) (status user : List Bool) (validity : Bool)
  /-- A frame of a TDM port's transmit direction (R208, R210, R220): the sample of each slot, none at high impedance. -/
  | tdmFrame (port : Nat) (slots : List (Option Int))
  /-- DO of a TDM port goes to high impedance: its transmit direction stops (R207). -/
  | highZ (port : Nat)
  /-- A stream packet leaves a media port (R240, R247, R248). -/
  | stream (port : Nat) (hdr : StreamHdr) (payload : List Byte)
  /-- An ARP answer or gratuitous ARP on a media port (R236). -/
  | mediaArp (port addr : Nat) (gratuitous : Bool)
  /-- An IGMPv3 report for a group and source (0 = any), joining or leaving (R250). -/
  | igmp (port group source : Nat) (join : Bool)
  /-- An answer to an IGMP query (R250): a group and the sources it includes, or the empty set it excludes. -/
  | igmpState (port group : Nat) (sources : List Nat) (exclude : Bool)
  /-- A frame of a software ring, or a forwarded one, leaves a media port (R253, R256). -/
  | netFrame (port : Nat) (frame : List Byte)
  /-- A trigger edge (R273, R274): the active edge or the end of its pulse, the level driven, the instant in
  quarter nanoseconds since the epoch, and whether the output delay is compensated. -/
  | trigger (trig : Nat) (lead level : Bool) (quarter : Nat) (comp : Bool)
  /-- The inactive level of a trigger output changes, or its mode becomes OFF: the level it rests at (R273). -/
  | trigRest (trig : Nat) (level : Bool)
  /-- A PTP message of an instance leaves a media port (R269, R270). -/
  | ptp (port : Nat) (msg : PtpMsg)
  /-- A free divider is reset by SYNC (R317): its bit in CLK_SYNC_SET and the instant, in quarter nanoseconds,
  from which its next period starts. -/
  | divider (bit quarter : Nat)
  /-- A clock output (0 WCLK_OUT, 1 to 4 MCLK0 to MCLK3) is set: its synthesizer, its period in core-output edges (0: it is off)
  and, of a grid divider, the house sample at which a period starts (R304, R315). -/
  | clockOut (out syn period : Nat) (start : Option Nat)
  /-- Every egress destination is silent from the next sample (R303). -/
  | silence
  /-- A frame on the Unrus link (R321): TYPE, FLAGS, SEQ, TICK, payload; its CRC-32 follows the payload. -/
  | unrus (ty flags seq tick : Nat) (payload : List Byte)
  /-- A BULK frame (R341, R342), whose payload layout the spec does not state. -/
  | bulk (flags seq tick : Nat) (part : BulkPart)
  /-- ROLE_ACT changes (R325). -/
  | roleAct (high : Bool)
  /-- A request to the witness (R336): its address, port and 48 bytes. -/
  | witness (addr port : Nat) (bytes : List Byte)
  /-- The samples of a cue channel, in microvolts at the loudspeaker terminals (R424). -/
  | cue (ch tick : Nat) (microvolts : List Int)
  /-- Every output takes the levels of a reset (R445). -/
  | resetLevels
  /-- A response to a fabric transaction (R349 to R351): master, identifier, error kind (0 none), and the data read. -/
  | fabric (master id error : Nat) (data : List Byte)
  /-- The data of a read transaction of the host port (R200). -/
  | hostData (bytes : List Byte)
  deriving DecidableEq, Repr

/-- Why a step stops with a fault. No command of this block does: every command of the table has an effect
the spec gives it, and a read of storage that nothing has written answers the value a log entry names. -/
inductive Fault where
  /-- Raised by nothing: the block has no fault that stops it. Safe. -/
  | none
  deriving DecidableEq, Repr

/-- Why a command is refused. -/
inductive Refusal where
  /-- Raised by the dispatcher for a command that has no meaning yet. Safe: nothing is claimed of it. -/
  | notModelled (mnemonic : String)
  deriving DecidableEq, Repr

/-- The state of the block. `pending` is the queue of commands waiting, first in first out; `out` is what
has left the block, oldest first; `fresh` counts the free values drawn; `dict` holds the object dictionary
by index × 2^24 + subindex and `snap` its copy at the end of the last completed tick (R164); `writes` holds
the accepted direct writes that have not landed (R163). -/
structure State where
  pending : List Instr
  out : List Output
  fresh : Nat
  dict : Map Val
  snap : Map Val
  writes : List DirectWrite
  /-- The tick sequencer (chapter 02). -/
  clk : TickSt
  /-- The 16 physical Yanik engines (chapters 03, 04). -/
  engines : Vector Engine 16
  /-- The source store and the Lattice (chapter 06). -/
  lat : LatSt
  /-- The Bench (chapter 05). -/
  bench : BenchSt
  /-- The Shutter (chapter 07). -/
  shut : ShutSt
  /-- Sessions, credentials and frame queues (chapter 08). -/
  ctl : CtlSt
  /-- The host port (chapter 08). -/
  hp : HpSt
  /-- The reserve manager (chapter 16). -/
  rsv : RsvSt
  /-- The fabric, its memories and the delay lines (chapter 15). -/
  fab : FabSt
  /-- The serial audio ports (chapter 09). -/
  port : PortSt
  /-- The media network (chapter 10). -/
  net : NetSt
  /-- The time base, PTP, triggers and captures (chapter 11). -/
  tim : TimeSt
  /-- Reference selection and holdover (chapter 12). -/
  ref : RefSt
  /-- Clock synthesis (chapter 13). -/
  syn : SynSt
  /-- The redundant pair (chapter 14). -/
  pair : PairSt
  /-- Security and the lifecycle (chapter 18). -/
  sec : SecSt
  /-- Start-up (chapter 20). -/
  boot : BootSt
  /-- The cue stage (chapter 19). -/
  cue : CueSt
  deriving DecidableEq, Repr

/-- The default plan at TICKLEN 8 and 96 kHz (R40, R51). -/
def planDefault : List Nat :=
  [0, 2048, 0, 4096, 0, 53306, 0, 56637, 53306, 79959, 53306, 81625]

def TickSt.reset : TickSt :=
  { tick := 0, seq := .running, lastRun := 0, lastDone := 2 ^ 64 - 1, sysCounter := 0, closed := [], late := false,
    commitDue := false, writesDue := false, synDue := false, plan := planDefault, rateNext := none,
    lenNext := none, restep := none, lateEgress := false, fadeInAt := none }

def LatSt.reset : LatSt :=
  { pre := [], genPre := [], srcs := [], dests := [], gens := [], seq := Fade.unity, door := Fade.silent, shared := 2, badFrames := [], gathers1 := 0, gathers2 := 0 }

def BenchSt.reset : BenchSt :=
  { xps := [], pre := [], opened := false, satNow := [], ovfNow := [], load := 0, acc := [], summed := [],
    written := [], named := [], past := [], srcs := [], dirty := [], steps := [] }

def ShutSt.reset : ShutSt :=
  { sets := [], setsThen := [], pend := [], nextId := 1, flipped := [], touched := [], words := [], unowned := none, corrupt := [] }

def CtlSt.reset : CtlSt :=
  { sessions := [], keys := [], openCtr := [], queue := [], serving := none, logLost := false, mail := [],
    inbox := [], mailed := [], collected := [], mailDue := [], engCtl := [] }

def HpSt.reset : HpSt :=
  { irqEvt := false, irqEn := 0, cmdLen := 0, goLen := 0, busy := false, drop := false, cmdBuf := [], rsp := [],
    dpAddr := 0, inc := 2, dir := false, mode := false, dpLen := 0, ready := false, err := false,
    ovf := false, errCode := 0, wbuf := [], rbuf := [] }

/-- The block right after reset (R10, R11, R446): every object at its default, no tick run, engines IDLE
and empty. -/
def State.reset : State :=
  { pending := [], out := [], fresh := 0, dict := [], snap := [], writes := [],
    clk := TickSt.reset,
    engines := Vector.replicate 16 Engine.reset,
    lat := LatSt.reset,
    bench := BenchSt.reset,
    shut := ShutSt.reset,
    ctl := CtlSt.reset,
    hp := HpSt.reset,
    rsv := RsvSt.reset,
    fab := FabSt.reset,
    port := PortSt.reset,
    net := NetSt.reset,
    tim := TimeSt.reset,
    ref := RefSt.reset,
    syn := SynSt.reset,
    pair := PairSt.reset,
    sec := SecSt.reset,
    boot := BootSt.reset,
    cue := CueSt.reset }

end Sys2Proof.Machine
end

