-- ==== Sys2Proof/Machine/Ops.lean ====
section
/-! DEFINITION. Named operations over the whole state: the object dictionary, counters, the event log and
its alarms (R204, R205), free values, and the queue. -/

namespace Sys2Proof.Machine

/-- The key of an object instance in the dictionary: a subindex has 24 bits (R184). -/
def objKey (ix sub : Nat) : Nat := ix * 16777216 + sub % 16777216

/-- The row of an object, where the index is defined (R184). -/
def findRow (ix : Nat) : List ObjRow → Option ObjRow
  | [] => none
  | r :: t => if r.ix = ix then some r else findRow ix t

/-- The row of an object index. -/
def objRow (ix : Nat) : Option ObjRow :=
  findRow ix (objPage (ix / 256))

/-- Defaults that vary with the subindex (the Default column of the object tables). -/
def subDefault (ix sub : Nat) : Option Int :=
  match ix with
  | 0x0007 => some (4096 / 2 ^ sub)
  | 0x0104 => some ((listGet 0 sub planDefault : Nat) : Int)
  | 0x0614 => some sub
  | 0x0819 => some (if sub = 0 then 3 else 0)
  | 0x0903 | 0x0904 => some sub
  | 0x0A11 => some (if sub % 6 = 0 then 1 else 0)
  | 0x0B05 => some (Config.netMac sub)
  | 0x0D20 => some (if sub = 0 then 1 else 0)
  | 0x0E02 => some (if sub = 0 then 1 else if sub = 1 then 2 else if sub = 5 then 3 else 0)
  | 0x0F10 => some (if sub < 2 then 0 else 2)
  | 0x1203 => some (Config.engSlack sub)
  | 0x1221 => some Config.laneSlack
  | 0x1122 => some ((Config.spareRows (0x20 + sub) % 65536 : Nat) : Int)
  | 0x1230 => some ((Config.spareRows sub % 65536 : Nat) : Int)
  | 0x1231 => some ((Config.repairFuses % 513 : Nat) : Int)
  | 0x1202 => some (if sub < 14 then 0 else 1)
  | 0x1421 => some 128
  | _ => none

/-- The value an object instance holds after reset (R11). -/
def objDefault (key : Nat) : Val :=
  let ix := key / 16777216
  match subDefault ix (key % 16777216) with
  | some n => .int n
  | none =>
    match objRow ix with
    | some r => r.dflt
    | none => .int 0

/-- The value of an object instance in a dictionary. -/
def dictGet (ix sub : Nat) (m : Map Val) : Val :=
  mapGet objDefault (objKey ix sub) m

/-- The value of an object instance now. -/
def State.obj (s : State) (ix sub : Nat) : Val := dictGet ix sub s.dict
/-- The number an object instance holds now. -/
def State.int (s : State) (ix : Nat) (sub : Nat := 0) : Int := (s.obj ix sub).toInt
/-- The number an object instance holds now, as a natural number. -/
def State.nat (s : State) (ix : Nat) (sub : Nat := 0) : Nat := (s.int ix sub).toNat
/-- A BOOL object instance now. -/
def State.flag (s : State) (ix : Nat) (sub : Nat := 0) : Bool := s.int ix sub != 0

/-- Give an object instance a value. -/
def State.setObj (s : State) (ix sub : Nat) (v : Val) : State :=
  { s with dict := mapSet objDefault (objKey ix sub) v s.dict }
/-- Give an object instance a number. -/
def State.setInt (s : State) (ix sub : Nat) (n : Int) : State := s.setObj ix sub (.int n)
/-- Give an object instance a natural number. -/
def State.setNat (s : State) (ix sub : Nat) (n : Nat) : State := s.setObj ix sub (.int n)
/-- Give a BOOL object instance a value. -/
def State.setFlag (s : State) (ix sub : Nat) (b : Bool) : State := s.setObj ix sub (.int (if b then 1 else 0))

/-- Add to a U32 counter whose table says that it holds at 0xFFFF_FFFF. -/
def State.addHold (s : State) (ix sub n : Nat) : State :=
  s.setNat ix sub (min (s.nat ix sub + n) 0xFFFFFFFF)
/-- Add to a U32 counter whose table states no limit: modulo 2^32 (DEDUCED from its width). -/
def State.addWrap (s : State) (ix sub n : Nat) : State :=
  s.setNat ix sub ((s.nat ix sub + n) % 4294967296)

/-- A free value: the next draw of `Config.free`, which nothing constrains. -/
def State.draw (s : State) : Int × State :=
  (Config.free s.fresh, { s with fresh := s.fresh + 1 })

/-- What leaves the block goes to the end of `out`. -/
def State.emit (s : State) (o : Output) : State :=
  { s with out := s.out ++ [o] }

/-- Replace one physical engine. -/
def State.setEngine (s : State) (n : Fin 16) (e : Engine) : State :=
  { s with engines := s.engines.set n.val e }
/-- One physical engine. -/
def State.engine (s : State) (n : Fin 16) : Engine := s.engines[n.val]

/-- The current tick c. -/
abbrev State.tick (s : State) : Nat := s.clk.tick
/-- Hosts are answered: READY is set, and the device is not SCRAPPED (R409, R451). -/
def State.answers (s : State) : Bool := s.boot.stage == 7 && s.sec.life != 4

/-- The tag c − 1 of the frames a tick works on, as a 64-bit number (R13, R31). -/
def tagOf (tick : Nat) : Nat := (tick + (2 ^ 64 - 1)) % 2 ^ 64
/-- The tag of the frames of this tick. -/
def State.tag (s : State) : Nat := tagOf s.clk.tick

/-- Whether the newest log entry takes a repeat: same code and detail, and at most 12 ticks after it (R204). -/
def logRepeats (s : State) (code detail : Nat) : Bool :=
  let head := s.nat Ix.ctlLogHead
  let e := (head + 1023) % 1024
  decide (0 < head) && s.nat Ix.ctlLogCode e == code && s.nat Ix.ctlLogDetail e == detail &&
    decide (s.nat Ix.ctlLogTick e ≤ s.tick) && decide (s.tick - s.nat Ix.ctlLogTick e ≤ 12)

/-- Add an entry to the event log, or one repeat to its newest entry (R204). -/
def logAdd (s : State) (code detail : Nat) : State :=
  let head := s.nat Ix.ctlLogHead
  if logRepeats s code detail then
    let e := (head + 1023) % 1024
    s.setNat Ix.ctlLogRepeat e (min (s.nat Ix.ctlLogRepeat e + 1) 0xFFFF)
  else
    let e := head % 1024
    let s1 := (((s.setNat Ix.ctlLogCode e code).setNat Ix.ctlLogDetail e detail).setNat Ix.ctlLogRepeat e 0).setNat
      Ix.ctlLogTick e s.tick
    { s1.setNat Ix.ctlLogHead 0 ((head + 1) % 4294967296) with hp := { s1.hp with irqEvt := true } }

/-- The entries added and not acknowledged (R205). -/
def logOpen (s : State) : Nat :=
  (s.nat Ix.ctlLogHead + 4294967296 - s.nat Ix.ctlLogAck) % 4294967296

/-- CTL_LOG_WRAP at the first loss of an unacknowledged entry; again only after the open entries have
returned to 1,024 or fewer (R205). -/
def logWrapCheck (s : State) : State :=
  if logOpen s ≤ 1024 then { s with ctl := { s.ctl with logLost := false } }
  else if s.ctl.logLost then s
  else logAdd { s with ctl := { s.ctl with logLost := true } } Al.ctlLogWrap.code 0

/-- Log one alarm, with CTL_LOG_WRAP where it overwrites (R204, R205). -/
def logAlarm (s : State) (code detail : Nat) : State :=
  logWrapCheck (logAdd s code detail)

/-- Raise an alarm (R204). An alarm of classes 0x01 to 0x04 within 64 ticks after a takeover raises
PAIR_TAKEOVER_FAULT too (R339). -/
def State.alarm (s : State) (a : AlarmId) (detail : Nat := 0) : State :=
  let s1 := logAlarm s a.code detail
  let recent : Bool := match s.pair.tookAt with
    | some t => decide (t ≤ s.tick) && decide (s.tick - t ≤ 64)
    | none => false
  if 1 ≤ a.cls ∧ a.cls ≤ 4 ∧ recent then logAlarm s1 Al.pairTakeoverFault.code 0 else s1

/-- Raise an alarm when a condition holds. -/
def State.alarmIf (s : State) (c : Bool) (a : AlarmId) (detail : Nat := 0) : State :=
  if c then s.alarm a detail else s

/-- ALARM_N is asserted: an unacknowledged entry has a class enabled in CTL_ALARM_MASK (R205). -/
def alarmAsserted (s : State) : Bool :=
  let n := min (logOpen s) 1024
  let head := s.nat Ix.ctlLogHead
  (upFrom 0 n).any (fun k =>
    (s.nat Ix.ctlAlarmMask).testBit (s.nat Ix.ctlLogCode ((head + 1024 * 1024 - 1 - k) % 1024) / 16777216))

/-- The house rate in Hz (R51). -/
def rateHz (code : Nat) : Nat :=
  match code with
  | 0 => 44100
  | 1 => 48000
  | 2 => 88200
  | 3 => 96000
  | 4 => 176400
  | _ => 192000

/-- The rate class of a house rate: 0 = 1×, 1 = 2×, 2 = 4×. -/
def rateClass (code : Nat) : Nat := code / 2

/-- fs in Hz now. -/
def State.fs (s : State) : Nat := rateHz (s.nat Ix.houseRate)
/-- TICKLEN now. -/
def State.ticklen (s : State) : Nat := s.nat Ix.ticklen
/-- The rate class now. -/
def State.cls (s : State) : Nat := rateClass (s.nat Ix.houseRate)

/-- The budget B of a tick (R38). -/
def budget (fs ticklen : Nat) : Nat :=
  1000000000 * ticklen * 9995 / (fs * 10000)

/-- B now. -/
def State.budget (s : State) : Nat := Machine.budget s.fs s.ticklen

/-- An instant of the system counter lies in this tick or before it. -/
def State.reached (s : State) (t : Nat) : Bool := decide (t ≤ s.clk.sysCounter + 1000000000 * s.ticklen / s.fs)

/-- n := ceil(32 ÷ TICKLEN) ticks, which the standard fade-out fills (R36, R48). -/
def fadeTicks (s : State) : Nat := ceilDiv 32 s.ticklen

/-- The place that engine `e` holds in the engine map (R144). -/
def placeOf (s : State) (e : Fin 16) : Option (Fin 16) :=
  (List.finRange 16).find? (fun p => s.nat Ix.latEngMap p.val % 16 == e.val)

/-- The engine that holds place `p` (R144). -/
def engineOf (s : State) (p : Fin 16) : Fin 16 :=
  Fin.ofNat 16 (s.nat Ix.latEngMap p.val % 16)

end Sys2Proof.Machine
end

