-- ==== Sys2Proof/Machine/PmuOps.lean ====
section
/-! DEFINITION. The block counters: fabric, Bench and network (R394 to R397, R404, R405). -/

namespace Sys2Proof.Machine

/-- Add `n` to a 48-bit block count; a wrap sets its flag in PMU_OVF, and PMU_OVERFLOW is raised when the flag
changes from 0 to 1 and PMU_OVF_ALARM enables it (R397, R404). `bit` is its place in PMU_OVF. -/
def addBlock (ix k bit src n : Nat) (s : State) : State :=
  let t := s.nat ix k + n
  let s1 := s.setNat ix k (t % 2 ^ 48)
  if t < 2 ^ 48 then s1
  else
    let old := s.nat Ix.pmuOvf
    (s1.setNat Ix.pmuOvf 0 (old ||| 2 ^ bit)).alarmIf
      (!old.testBit bit && (s.nat Ix.pmuOvfAlarm).testBit bit) (Al.pmuOverflow.src src) k

/-- Whether a fabric counter's selector takes an event of a master at a target (R394, R405). -/
def fabSelects (sel ev master target : Nat) : Bool :=
  sel.testBit 31 && sel % 256 == ev && ev != 0 &&
    (sel / 256 % 256 == 255 || sel / 256 % 256 == master) && (sel / 65536 % 256 == 255 || sel / 65536 % 256 == target)

/-- Count `n` fabric events (R394). -/
def fabEvent (ev master target n : Nat) (s : State) : State :=
  (upFrom 0 16).foldl (fun t k =>
    if fabSelects (s.nat Ix.pmuFabSel k) ev master target then addBlock Ix.pmuFabCount k k 0x10 n t else t) s

/-- Count bursts of DRAM by their numbers, each on its channel: the channels alternate every 256 bytes (R362, R394). -/
def dramBursts (master : Nat) (write : Bool) (bursts : List Nat) (s : State) : State :=
  bursts.foldl (fun t b =>
    let ch := 0x0B + b / 4 % 2
    fabEvent (if write then 0x0C else 0x0B) master ch 1 (fabEvent 0x0A master ch 1 t)) s

/-- Count `n` Bench events (R394). -/
def benchEvent (ev n : Nat) (s : State) : State :=
  (upFrom 0 8).foldl (fun t k =>
    let sel := s.nat Ix.pmuBenchSel k
    if sel.testBit 15 && sel % 256 == ev && ev != 0 then addBlock Ix.pmuBenchCount k (16 + k) 0x11 n t else t) s

/-- Count `n` network events of a media port (R394). -/
def netEvent (ev port n : Nat) (s : State) : State :=
  (upFrom 0 8).foldl (fun t k =>
    let sel := s.nat Ix.pmuNetSel k
    if sel.testBit 15 && sel % 256 == ev && ev != 0 && (sel.testBit 10 || sel / 256 % 4 == port) then
      addBlock Ix.pmuNetCount k (24 + k) 0x12 n t
    else t) s

/-- Fabric cycles of every block's counters (event 0x01). A cycle has no master, target or port: only a qualifier that
names any matches it (DEDUCED). -/
def cycleEvents (n : Nat) (s : State) : State :=
  netEvent 0x01 4 n (benchEvent 0x01 n (fabEvent 0x01 0xFF 0xFF n s))

end Sys2Proof.Machine
end

