-- ==== Sys2Proof/Machine/Operands.lean ====
section
/-! DEFINITION. Every operand form of the engine: register codes and width conversion (R61, R62), the
address forms with linear, circular and bit-reversed modification (R76 to R79), and the pairs and quads of
moves (R54). -/

namespace Sys2Proof.Machine

/-- SR as a word (R64). -/
def srWord (r : RegFile) (lsp : Nat) : Word :=
  let bit (b : Bool) (k : Nat) : Word := if b then (1 : Word) <<< k else 0
  bit r.av 0 ||| bit r.sv 1 ||| bit r.cv 2 ||| bit r.n 4 ||| bit r.z 5 ||| bit r.c 6 ||| bit r.v 7 |||
    bit r.ie 8 ||| (BitVec.ofNat 32 (lsp % 8) <<< 16)

/-- Data register n. -/
def RegFile.getD (r : RegFile) (n : Fin 16) : Word := r.d[n.val]
/-- Accumulator n. -/
def RegFile.getAcc (r : RegFile) (n : Fin 4) : Acc := r.acc[n.val]

/-- The parts of accumulators by code 0x30 to 0x3B: accumulator and part (0 L, 1 H, 2 G). -/
def accPart (code : Nat) : Fin 4 × Nat :=
  (Fin.ofNat 4 ((code - 0x30) / 3), (code - 0x30) % 3)

/-- Read a register by its code (R62) with the width conversion of R61. `lsp` is the loop stack depth. -/
def readCode (r : RegFile) (lsp : Nat) (code : BitVec 7) : Word :=
  let c := code.toNat
  let i8 : Fin 8 := Fin.ofNat 8 c
  if c < 0x10 then r.getD (Fin.ofNat 16 c)
  else if c < 0x18 then r.a[i8.val].setWidth 32
  else if c < 0x20 then r.m[i8.val].signExtend 32
  else if c < 0x28 then r.l[i8.val].setWidth 32
  else if c < 0x30 then r.b[i8.val].setWidth 32
  else if c < 0x3C then
    let (a, part) := accPart c
    let v := r.getAcc a
    if part = 0 then v.extractLsb' 0 32
    else if part = 1 then v.extractLsb' 32 32
    else (v.extractLsb' 64 8).signExtend 32
  else if c = 0x3C then srWord r lsp
  else if c = 0x3D then r.shift.setWidth 32
  else if c = 0x3E then r.amode.setWidth 32
  else if c = 0x40 then r.lc.setWidth 32
  else if c = 0x41 then r.ls.setWidth 32
  else if c = 0x42 then r.le.setWidth 32
  else 0

/-- Ln from a word: bits [16:0], above 65,536 stored as 65,536 (R61). -/
def lenOf (w : Word) : BitVec 17 :=
  let n := w.toNat % 131072
  BitVec.ofNat 17 (if 65536 < n then 65536 else n)

/-- SHIFT from a word: bits [5:0], 41 to 63 stored as 40 (R65). -/
def shiftOf (w : Word) : BitVec 6 :=
  let n := w.toNat % 64
  BitVec.ofNat 6 (if 40 < n then 40 else n)

/-- Replace one part of an accumulator (R61). -/
def setPart (v : Acc) (part : Nat) (w : Word) : Acc :=
  if part = 0 then v.extractLsb' 32 40 ++ w
  else if part = 1 then v.extractLsb' 64 8 ++ w ++ v.extractLsb' 0 32
  else w.extractLsb' 0 8 ++ v.extractLsb' 0 64

/-- Write SR as a register: 1 clears a sticky flag, N, Z, C, V and IE take the bits written, LSP and the
reserved bits are read-only (R64). -/
def writeSr (r : RegFile) (w : Word) : RegFile :=
  { r with
    av := r.av && !w.getLsbD 0, sv := r.sv && !w.getLsbD 1, cv := r.cv && !w.getLsbD 2,
    n := w.getLsbD 4, z := w.getLsbD 5, c := w.getLsbD 6, v := w.getLsbD 7, ie := w.getLsbD 8 }

/-- Write a register by its code (R61, R62). A write of a reserved code is ignored. -/
def writeCode (r : RegFile) (code : BitVec 7) (w : Word) : RegFile :=
  let c := code.toNat
  let i8 : Fin 8 := Fin.ofNat 8 c
  if c < 0x10 then { r with d := r.d.set (Fin.ofNat 16 c).val w }
  else if c < 0x18 then { r with a := r.a.set i8.val (w.setWidth 16) }
  else if c < 0x20 then { r with m := r.m.set i8.val (w.setWidth 16) }
  else if c < 0x28 then { r with l := r.l.set i8.val (lenOf w) }
  else if c < 0x30 then { r with b := r.b.set i8.val (w.setWidth 16) }
  else if c < 0x3C then
    let (a, part) := accPart c
    { r with acc := r.acc.set a.val (setPart (r.getAcc a) part w) }
  else if c = 0x3C then writeSr r w
  else if c = 0x3D then { r with shift := shiftOf w }
  else if c = 0x3E then { r with amode := w.setWidth 16 }
  else if c = 0x40 then { r with lc := w.setWidth 16 }
  else if c = 0x41 then { r with ls := w.setWidth 13 }
  else if c = 0x42 then { r with le := w.setWidth 13 }
  else r

/-- The address unit takes up An, Mn, Ln, Bn or SE_CFG.AMODE (R88). -/
def writeView (r : RegFile) (code : BitVec 7) (w : Word) : RegFile :=
  let c := code.toNat
  let i8 : Fin 8 := Fin.ofNat 8 c
  if 0x10 ≤ c ∧ c < 0x18 then { r with va := r.va.set i8.val (w.setWidth 16) }
  else if 0x18 ≤ c ∧ c < 0x20 then { r with vm := r.vm.set i8.val (w.setWidth 16) }
  else if 0x20 ≤ c ∧ c < 0x28 then { r with vl := r.vl.set i8.val (lenOf w) }
  else if 0x28 ≤ c ∧ c < 0x30 then { r with vb := r.vb.set i8.val (w.setWidth 16) }
  else if c = 0x3E then { r with vmode := w.setWidth 16 }
  else r

/-- Whether a code names a register the address unit uses (R88). -/
def isAddressCode (code : BitVec 7) : Bool :=
  (decide (0x10 ≤ code.toNat) && decide (code.toNat < 0x30)) || code == 0x3E

/-- The low `k` bits of `n` in reverse order. -/
def revBits : Nat → Nat → Nat
  | 0, _ => 0
  | k + 1, n => (n % 2) * 2 ^ k + revBits k (n / 2)

/-- The largest `k` no greater than `hi` for which `2 ^ k < l`; 0 where there is none. -/
def log2Below (l : Nat) : Nat → Nat
  | 0 => 0
  | k + 1 => if 2 ^ (k + 1) < l then k + 1 else log2Below l k

/-- The largest `k` no greater than the given one for which `b + 2 ^ k` stays within 65,536. -/
def fitBits (b : Nat) : Nat → Nat
  | 0 => 0
  | k + 1 => if b + 2 ^ (k + 1) ≤ 65536 then k + 1 else fitBits b k

/-- next in linear mode (R77). -/
def nextLinear (a : Half) (d : Int) : Half :=
  BitVec.ofInt 16 ((a.toNat : Int) + d)

/-- next in circular mode, L not 0 (R78). -/
def nextCircular (a b : Half) (len : BitVec 17) (d : Int) : Half × Bool :=
  let bb : Int := b.toNat
  let past := decide (65536 < b.toNat + len.toNat)
  let l : Int := if past then 65536 - bb else len.toNat
  let s : Int := (a.toNat : Int) + d
  let w := if bb + l ≤ s then s - l else if s < bb then s + l else s
  if w < bb ∨ bb + l ≤ w then (b, true) else (BitVec.ofInt 16 w, past)

/-- next in bit-reversed mode (R79). -/
def nextReversed (a b : Half) (len : BitVec 17) (d : Int) : Half × Bool :=
  let l := len.toNat
  if l = 0 then (nextLinear a d, true)
  else
    let k0 := log2Below (l + 1) 16
    let exact := decide (2 ^ k0 = l) && decide (1 ≤ k0)
    let k1 := if exact then k0 else if l = 1 then 0 else log2Below l 16
    let past := decide (65536 < b.toNat + 2 ^ k1)
    let k := if past then fitBits b.toNat k1 else k1
    let o := (((a.toNat : Int) - (b.toNat : Int)) % ((2 : Int) ^ k)).toNat
    let dd := (d % ((2 : Int) ^ k)).toNat
    let o' := revBits k ((revBits k o + revBits k dd) % 2 ^ k)
    (BitVec.ofNat 16 (b.toNat + o'), !exact || past)

/-- The mode bits of address register n: 1 is bit-reversed, 2 and 3 act as 0 (R66). -/
def modeOf (amode : Half) (n : Fin 8) : Nat :=
  (amode.toNat / 2 ^ (2 * n.val)) % 4

/-- next(An, d) in the mode in force for index n, from the address unit's view (R60, R76). -/
def nextAddr (r : RegFile) (n : Fin 8) (d : Int) : Half × Bool :=
  let a := r.va[n.val]
  let b := r.vb[n.val]
  let l := r.vl[n.val]
  if modeOf r.vmode n = 1 then nextReversed a b l d
  else if l = 0 then (nextLinear a d, false)
  else nextCircular a b l d

/-- The width of a move in words (R54). -/
def moveWords : MoveReg → Nat
  | .w _ => 1
  | .l _ => 2
  | .q _ => 4

/-- The effective address, what An becomes, and whether CV is set (R76), for a move of `s` words. -/
def address (r : RegFile) (form : AForm) (n : Fin 8) (s : Nat) : Half × Option Half × Bool :=
  let a := r.va[n.val]
  match form with
  | .plain => (a, none, false)
  | .inc => let (a', cv) := nextAddr r n s; (a, some a', cv)
  | .dec => let (a', cv) := nextAddr r n (-(s : Int)); (a, some a', cv)
  | .addM => let (a', cv) := nextAddr r n (r.vm[n.val]).toInt; (a, some a', cv)
  | .index => let (a', cv) := nextAddr r n (r.vm[n.val]).toInt; (a', none, cv)

/-- The address of the first word of a move: low bits ignored by its width (R54). -/
def alignAddr (a : Half) (s : Nat) : Nat :=
  a.toNat / s * s

/-- The register codes a move fills or stores, lowest address first (R54). -/
def moveCodes : MoveReg → List (BitVec 7)
  | .w c => [c]
  | .l p => [BitVec.ofNat 7 (2 * p.val), BitVec.ofNat 7 (2 * p.val + 1)]
  | .q q => [BitVec.ofNat 7 (4 * q.val), BitVec.ofNat 7 (4 * q.val + 1),
             BitVec.ofNat 7 (4 * q.val + 2), BitVec.ofNat 7 (4 * q.val + 3)]

/-- The value of the second ALU operand (R85). -/
def aluValue (s : AluSrc) (r : RegFile) : Word :=
  match s with
  | .reg y => r.getD y
  | .imm i => i.signExtend 32

/-- The shift count (R72). -/
def shiftValue (s : ShiftSrc) (r : RegFile) : Nat :=
  match s with
  | .reg y => (r.getD y).toNat % 32
  | .imm n => n.val

end Sys2Proof.Machine
end

