-- ==== Sys2Proof/Machine/EngineOps.lean ====
section
/-! DEFINITION. What one engine does in a cycle: counting events (R396, R397), landing results (R63, R88,
R89), advancing through delay slots, REP and DO (R91 to R95), and reading and writing the engine-local
registers (R104, R105, R400, R403). -/

namespace Sys2Proof.Machine

/-- A little-endian field of `n` bytes at `off` of an image (R108). -/
def imgField (im : Image) (off n : Nat) : Nat :=
  natLE ((im.raw.drop off).take n)

/-- FLAGS bit [0]: the image has a second section (R108). -/
def imgSecond (im : Image) : Bool := imgField im 0x4A 2 % 2 == 1
/-- FLAGS bits [3:1], in the order of SE_IRQ_EN: the image uses the PMU source (R401). -/
def imgPmu (im : Image) : Bool := imgField im 0x4A 2 / 4 % 2 == 1

/-- The PMU source is pending (R401). -/
def pmuPending (e : Engine) : Bool :=
  e.loc.pmuPend && (e.loc.pmu.ovf &&& e.loc.pmu.irq) != 0 && e.loc.pmu.user &&
    (match e.image with
      | some im => imgPmu im
      | none => false)

/-- SE_IRQ_PEND: MBOX, PMU, SOFT (R96, R105). -/
def irqPend (e : Engine) : BitVec 3 :=
  (if e.loc.softPend then 4 else 0) ||| (if pmuPending e then 2 else 0) ||| (if e.loc.inValid then 1 else 0)

/-- The vector of the highest source pending and enabled (R96). -/
def irqVector (e : Engine) : Option (BitVec 13) :=
  let p := irqPend e &&& e.loc.irqEn
  if p.getLsbD 0 then some 4 else if p.getLsbD 1 then some 8 else if p.getLsbD 2 then some 12 else none

/-- The number of events counter `k` counts among `evs` (R394): event 0x00 counts nothing. -/
def eventSum (pm : EngPmu) (k : Fin 4) (evs : List (Nat × Nat)) : Nat :=
  let sel := (pm.evt[k.val]).toNat
  if sel = 0 then 0 else (evs.filter (fun e => e.1 == sel)).foldl (fun n e => n + e.2) 0

/-- Add one cycle's events to counter `k` (R394, R397, R402). -/
def countOne (pc : BitVec 13) (evs : List (Nat × Nat)) (k : Fin 4) (pm : EngPmu) : EngPmu × Bool :=
  if !(pm.en.getLsbD k.val) then (pm, false)
  else
    let t := (pm.cnt[k.val]).toNat + eventSum pm k evs
    if t < 2 ^ 48 then ({ pm with cnt := pm.cnt.set k.val (BitVec.ofNat 48 t) }, false)
    else
      ({ pm with
          cnt := pm.cnt.set k.val (BitVec.ofNat 48 t)
          ovf := pm.ovf ||| (1 <<< k.val), ovfPc := pc, ovfCnt := BitVec.ofNat 2 k.val }, true)

/-- Add one cycle's events to every counter; counter 0 last, so that OVFPC.CNT is the lowest (R403). -/
def countEvents (evs : List (Nat × Nat)) (e : Engine) : Engine × List EngSig :=
  let old := e.loc.pmu.ovf
  let (p3, o3) := countOne e.lastPc evs 3 e.loc.pmu
  let (p2, o2) := countOne e.lastPc evs 2 p3
  let (p1, o1) := countOne e.lastPc evs 1 p2
  let (p0, o0) := countOne e.lastPc evs 0 p1
  let sig (o : Bool) (k : Fin 4) : List EngSig :=
    if o && !(old.getLsbD k.val) then [.overflow k] else []
  ({ e with loc := { e.loc with pmu := p0, pmuPend := e.loc.pmuPend || o0 || o1 || o2 || o3 } },
    sig o0 0 ++ sig o1 1 ++ sig o2 2 ++ sig o3 3)

/-- Two lists of landings in issue and slot order merged in order (R63). -/
def landBefore (a b : Landing) : Bool :=
  decide (a.seq < b.seq) || (a.seq == b.seq && decide (a.slot ≤ b.slot))

/-- Put a landing in its place among landings in order, after those it ties with. -/
def insertLanding (l : Landing) : List Landing → List Landing
  | [] => [l]
  | h :: t => if landBefore h l then h :: insertLanding l t else l :: h :: t

/-- Landings in the order of R63. -/
def sortLandings (ls : List Landing) : List Landing :=
  ls.foldl (fun acc l => insertLanding l acc) []

/-- Whether an effect writes the whole of accumulator `a`. -/
def writesAcc (a : Fin 4) : Eff → Bool
  | .acc b _ _ => a == b
  | .macc b _ _ => a == b
  | _ => false

/-- The exact value a MAC-slot result gives its accumulator, before the clamp (R68, R69). -/
def maccSum (r0 : RegFile) (a : Fin 4) (op : MacOp) (c : Int) : Int :=
  match op with
  | .load => c
  | .add => (r0.getAcc a).toInt + c
  | .sub => (r0.getAcc a).toInt - c

/-- The sticky flags a landing sets, given the register file at the start of the cycle and the landings of
the same cycle that come after it: an accumulator result that a later one replaces sets none (R71, R89). -/
def landSticky (r0 : RegFile) (l : Landing) (later : List Landing) : Bool × Bool × Bool :=
  match l.eff with
  | .sticky av sv cv => (av, sv, cv)
  | .acc a _ av => (av && !(later.any (fun x => writesAcc a x.eff)), false, false)
  | .macc a op c =>
    ((clampAcc (maccSum r0 a op c)).2 && !(later.any (fun x => writesAcc a x.eff)), false, false)
  | _ => (false, false, false)

/-- A 16-bit register kept, with one bit per engine-local write: message words and control registers. -/
def setMsg (v : Vector Word 8) (i : Nat) (w : Word) : Vector Word 8 :=
  v.set (Fin.ofNat 8 i).val w

/-- Send the outgoing message, or drop it (R106). -/
def mboxSend (e : Engine) : Engine × List EngSig :=
  if e.loc.outFull then
    let d := e.loc.outDrops
    ({ e with loc := { e.loc with outDrop := true, outDrops := if d = 0xFFFF then d else d + 1 } }, [.mboxDrop])
  else ({ e with loc := { e.loc with outFull := true } }, [])

/-- Write a PMU register through the fabric (R403). -/
def pmuWrite (pm : EngPmu) (off : Nat) (w : Word) : EngPmu :=
  if off = 0x100 then { pm with en := w.setWidth 4, irq := w.extractLsb' 4 4 }
  else if off = 0x104 then { pm with ovf := pm.ovf &&& ~~~(w.setWidth 4) }
  else if off = 0x108 then { pm with user := w.getLsbD 0 }
  else if 0x110 ≤ off ∧ off < 0x130 then
    let k : Fin 4 := Fin.ofNat 4 ((off - 0x110) / 8)
    if off % 8 = 0 then { pm with cnt := pm.cnt.set k.val (pm.staged[k.val] ++ w) }
    else { pm with staged := pm.staged.set k.val (w.setWidth 16) }
  else if 0x130 ≤ off ∧ off < 0x140 then
    { pm with evt := pm.evt.set (Fin.ofNat 4 ((off - 0x130) / 4)).val (w.setWidth 8) }
  else pm

/-- Read a PMU register; a read of a low half latches the high half for its port (R398, R403). -/
def pmuRead (pm : EngPmu) (port : LocalPort) (off : Nat) : Word × EngPmu :=
  if off = 0x100 then ((pm.irq ++ pm.en).setWidth 32, pm)
  else if off = 0x104 then (pm.ovf.setWidth 32, pm)
  else if off = 0x108 then (if pm.user then 1 else 0, pm)
  else if off = 0x10C then ((pm.ovfCnt ++ (0 : BitVec 3) ++ pm.ovfPc).setWidth 32, pm)
  else if 0x110 ≤ off ∧ off < 0x130 then
    let k : Fin 4 := Fin.ofNat 4 ((off - 0x110) / 8)
    if off % 8 = 0 then
      let hi : Half := (pm.cnt[k.val]).extractLsb' 32 16
      ((pm.cnt[k.val]).setWidth 32,
        match port with
        | .engine => { pm with latchE := pm.latchE.set k.val hi }
        | .fabric => { pm with latchF := pm.latchF.set k.val hi })
    else
      (match port with
        | .engine => (pm.latchE[k.val]).setWidth 32
        | .fabric => (pm.latchF[k.val]).setWidth 32, pm)
  else if 0x130 ≤ off ∧ off < 0x140 then ((pm.evt[(Fin.ofNat 4 ((off - 0x130) / 4)).val]).setWidth 32, pm)
  else (0, pm)

/-- Write an engine-local register (R105). The program's writes of SE_FAULT and of the maps are ignored, and
its counter writes follow R400; the fabric writes the maps only while the engine is IDLE or HALTED. XADDR of a map is kept
as written (DESIGN CHOICE: the spec does not say what a write of an address that is no multiple of 4 does). SE_MBOX_IN0 to
7 and SE_MBOX_OUT0 to 7 take the writes of both ports (DESIGN CHOICE: the tables give them no type). -/
def localWrite (port : LocalPort) (off : Nat) (w : Word) (e : Engine) : Engine × List EngSig :=
  let l := e.loc
  let put (l' : EngLocal) : Engine × List EngSig := ({ e with loc := l' }, [])
  let mapOk := port == .fabric && (e.run == .idle || e.run == .halted)
  if off = 0x014 then if port = .fabric then put { l with fault := l.fault &&& ~~~(w.setWidth 5) } else (e, [])
  else if off = 0x020 then put { l with irqEn := w.setWidth 3 }
  else if off = 0x024 then
    put { l with pmuPend := l.pmuPend && !w.getLsbD 1, softPend := l.softPend && !w.getLsbD 2 }
  else if off = 0x028 then put { l with softPend := l.softPend || w.getLsbD 2 }
  else if off = 0x02C then put { l with ira := w.setWidth 13 }
  else if off = 0x030 then put { l with isr := w }
  else if 0x040 ≤ off ∧ off < 0x060 then put { l with inMsg := setMsg l.inMsg ((off - 0x040) / 4) w }
  else if off = 0x060 then put { l with inValid := l.inValid && !w.getLsbD 0 }
  else if 0x080 ≤ off ∧ off < 0x0A0 then put { l with outMsg := setMsg l.outMsg ((off - 0x080) / 4) w }
  else if off = 0x0A0 then
    let l' := { l with outLen := w.extractLsb' 8 4, outDrop := l.outDrop && !w.getLsbD 2 }
    if w.getLsbD 0 then mboxSend { e with loc := l' } else put l'
  else if 0x100 ≤ off ∧ off < 0x140 then
    match port with
    | .fabric => put { l with pmu := pmuWrite l.pmu off w }
    | .engine =>
      if l.pmu.user && off == 0x104 then put { l with pmu := pmuWrite l.pmu off w } else (e, [])
  else if 0x400 ≤ off ∧ off < 0xA00 then
    if mapOk then put { l with inMap := mapSet (fun _ => 0) ((off - 0x400) / 4) (w &&& 0x8001FFFF) l.inMap }
    else (e, [])
  else if 0xA00 ≤ off ∧ off < 0xE00 then
    if mapOk then put { l with outMap := mapSet (fun _ => 0) ((off - 0xA00) / 4) (w &&& 0x8001FFFF) l.outMap }
    else (e, [])
  else (e, [])

/-- Writes of the other port land in X or Y memory, in order (R55). -/
def landPort (ws : List PortWrite) (e : Engine) : Engine :=
  ws.foldl (fun e w =>
    if w.y then { e with y := mapSet (fun _ => 0) w.addr w.v e.y } else { e with x := mapSet (fun _ => 0) w.addr w.v e.x }) e

/-- The sub-bank a word lies in: lines are of 4 words, line k in sub-bank k mod 8 (R55; DEDUCED: the widest move, and the
4,160 cycles of R379 at 4 lines a cycle, give a line 4 words). -/
def subBank (a : Nat) : Nat := a / 4 % 8

/-- A write of the other port meets an access of the engine in its sub-bank in this cycle (R55). -/
def portMeets (e : Engine) (w : PortWrite) : Bool := decide (w.due ≤ e.cyc) && e.busy.contains (w.y, subBank w.addr)

/-- The writes of the other port that meet the engine wait one cycle, and each retry counts (R55, R394). -/
def retryPort (e : Engine) : Engine × List (Nat × Nat) :=
  ({ e with port := e.port.map (fun w => if portMeets e w then { w with due := e.cyc + 1 } else w) },
    (e.port.filter (portMeets e)).map (fun w => (if w.fabric then 0x12 else 0x11, 1)))

/-- The writes of the other port that are due land (R55). -/
def flushPort (e : Engine) : Engine :=
  { landPort (e.port.filter (fun w => decide (w.due ≤ e.cyc))) e with port := e.port.filter (fun w => !decide (w.due ≤ e.cyc)) }

/-- Every write of the other port lands. -/
def drainPort (e : Engine) : Engine := { landPort e.port e with port := [] }

/-- A word written by the other port of X or Y memory. Inside a bundle it lands at the end of the bundle's cycle: the
bundle's loads receive the line as it was, and its stores land first (R55). -/
def otherWrite (fabric y : Bool) (a : Nat) (w : Word) (e : Engine) : Engine :=
  let p : PortWrite := { due := e.cyc, fabric := fabric, y := y, addr := a % 65536, v := w }
  if e.inBundle || !e.port.isEmpty then { e with port := e.port ++ [p] } else landPort [p] e

/-- What the bundle in progress stores at a word of X or Y memory. -/
def storing (y : Bool) (a : Nat) (e : Engine) : Option Word :=
  if !e.inBundle then none
  else (sortLandings e.flight).reverse.findSome? (fun l => match l.eff with
    | .mem y' a' w => if y' == y && a' == a then some w else none
    | _ => none)

/-- A word of X or Y memory as the other port reads it: after its own writes, and after a store of the bundle in progress,
which the read meets and waits for (R55). -/
def otherRead (y : Bool) (a : Nat) (e : Engine) : Word :=
  match (e.port.reverse.find? (fun w => w.y == y && w.addr == a)) with
  | some w => w.v
  | none => (storing y a e).getD (mapGet (fun _ => 0) a (if y then e.y else e.x))

/-- An access of the other port meets the engine in its sub-bank and waits one cycle (R55). -/
def delayPort (fabric : Bool) (e : Engine) : Engine :=
  { e with port := e.port.map (fun w => if w.fabric == fabric then { w with due := w.due + 1 } else w) }

/-- SE_STATE.STATE codes (R105). -/
def runCode : EngRun → Nat
  | .idle => 0
  | .running => 1
  | .waiting => 2
  | .halted => 3
  | .leaf => 4

/-- What an engine's registers show of the tick: the tick, the fabric cycle in it, the phase most recently opened, and
whether CH0 and CH2 have their time: from P1 open to the P1 deadline, and from P4 open on (R102). -/
structure TickView where
  tick : Nat
  cycle : Nat
  phase : Nat
  ch0 : Bool
  ch2 : Bool
  deriving DecidableEq, Repr

/-- SE_DMA_STAT (R105): BUSY of CH0 to CH3 and QDEPTH of the open section's channel. The input channels move the valid
slots of a RUNNING or WAITING engine until its gather has completed (R102; DEDUCED: the spec does not say that an engine
that runs no section gathers). -/
def dmaStat (tv : TickView) (e : Engine) : Nat :=
  let b (p : Bool) (k : Nat) : Nat := if p then 2 ^ k else 0
  let q := if e.sec = 1 then e.q1.length else if e.sec = 2 then e.q2.length else 0
  let ins (second : Bool) : Bool :=
    (e.run == .running || e.run == .waiting) && e.loc.inMap.any (fun p => p.2.getLsbD 31 && p.2.getLsbD 16 == second)
  b (tv.ch0 && ins false && !e.gather1) 0 + b (!e.q1.isEmpty) 1 + b (tv.ch2 && ins true && !e.gather2) 2 +
    b (!e.q2.isEmpty) 3 + 256 * q

/-- Read an engine-local register (R105); reads that latch change the engine. -/
def localRead (tv : TickView) (port : LocalPort) (off : Nat) (e : Engine) : Word × Engine :=
  let l := e.loc
  let w (n : Nat) : Word × Engine := (BitVec.ofNat 32 n, e)
  if off = 0x000 then (BitVec.ofNat 32 tv.tick, { e with loc := { l with tickHi := BitVec.ofNat 32 (tv.tick / 2 ^ 32) } })
  else if off = 0x004 then (l.tickHi, e)
  else if off = 0x008 then w (tv.phase + 16 * e.sec)
  else if off = 0x00C then w tv.cycle
  else if off = 0x010 then w (runCode e.run + 65536 * e.lastPc.toNat)
  else if off = 0x014 then (l.fault.setWidth 32, e)
  else if off = 0x018 then w (if l.page then 1 else 0)
  else if off = 0x01C then w (dmaStat tv e)
  else if off = 0x020 then (l.irqEn.setWidth 32, e)
  else if off = 0x024 then ((irqPend e).setWidth 32, e)
  else if off = 0x02C then (l.ira.setWidth 32, e)
  else if off = 0x030 then (l.isr, e)
  else if 0x040 ≤ off ∧ off < 0x060 then (l.inMsg[(Fin.ofNat 8 ((off - 0x040) / 4)).val], e)
  else if off = 0x060 then w ((if l.inValid then 1 else 0) + 256 * l.inLen.toNat)
  else if 0x080 ≤ off ∧ off < 0x0A0 then (l.outMsg[(Fin.ofNat 8 ((off - 0x080) / 4)).val], e)
  else if off = 0x0A0 then
    w ((if l.outFull then 2 else 0) + (if l.outDrop then 4 else 0) + 256 * l.outLen.toNat +
      65536 * l.outDrops.toNat)
  else if 0x100 ≤ off ∧ off < 0x140 then
    if port = .engine ∧ !l.pmu.user ∧ off ≠ 0x108 then (0, e)
    else
      let (v, pm) := pmuRead l.pmu port off
      (v, { e with loc := { l with pmu := pm } })
  else if 0x400 ≤ off ∧ off < 0xA00 then (mapGet (fun _ => 0) ((off - 0x400) / 4) l.inMap, e)
  else if 0xA00 ≤ off ∧ off < 0xE00 then (mapGet (fun _ => 0) ((off - 0xA00) / 4) l.outMap, e)
  else (0, e)

/-- The latch a read of an engine-local register sets, as it stands in `e`: of SE_TICK_LO, or of the low half of a
counter (R105, R398). -/
def latchOf (off : Nat) (e : Engine) : Option Word :=
  if off = 0 then some e.loc.tickHi
  else if 0x110 ≤ off ∧ off < 0x130 ∧ off % 8 = 0 then
    some ((e.loc.pmu.latchE[(Fin.ofNat 4 ((off - 0x110) / 8)).val]).setWidth 32)
  else none

/-- Set the latch of an engine-local register (R105, R398). -/
def setLatch (off : Nat) (v : Word) (l : EngLocal) : EngLocal :=
  if off = 0 then { l with tickHi := v }
  else { l with pmu := { l.pmu with latchE := l.pmu.latchE.set (Fin.ofNat 4 ((off - 0x110) / 8)).val (v.setWidth 16) } }

/-- The register a landing writes by its code: a move's register, or the address register of a post-modification. -/
def landCode : Eff → Option (BitVec 7)
  | .reg code _ => some code
  | .post n _ => some (BitVec.ofNat 7 (0x10 + n.val))
  | _ => none

/-- The landings of a cycle, in order, without the register writes that a later one discards (R63). -/
def standing : List Landing → List Landing
  | [] => []
  | l :: t =>
    let gone := match landCode l.eff with
      | some c => t.any (fun x => landCode x.eff == some c)
      | none => false
    if gone then standing t else l :: standing t

/-- A register write reaches the address unit one cycle after it has landed (R88). -/
def viewLater (l : Landing) (code : BitVec 7) (w : Word) (e : Engine) : Engine :=
  if isAddressCode code then { e with flight := e.flight ++ [{ l with due := e.cyc + 1, eff := .view code w }] } else e

/-- Apply one landing. `r0` is the register file at the start of the cycle (R88). -/
def applyLanding (r0 : RegFile) (l : Landing) (p : Engine × List EngSig) : Engine × List EngSig :=
  let e := p.1
  match l.eff with
  | .reg code w => (viewLater l code w { e with rf := writeCode e.rf code w }, p.2)
  | .view code w => ({ e with rf := writeView e.rf code w }, p.2)
  | .post n v => ({ e with rf := { e.rf with a := e.rf.a.set n.val v, va := e.rf.va.set n.val v } }, p.2)
  | .flags n z cv =>
    let r := { e.rf with n := n, z := z }
    (match cv with
      | none => { e with rf := r }
      | some (c, v) => { e with rf := { r with c := c, v := v } }, p.2)
  | .sticky _ _ _ => p
  | .mem y addr w =>
    (if y then { e with y := mapSet (fun _ => 0) addr w e.y }
      else { e with x := mapSet (fun _ => 0) addr w e.x }, p.2)
  | .loc off w =>
    let (e', s) := localWrite .engine off w e
    (e', p.2 ++ s)
  | .latch off w => ({ e with loc := setLatch off w e.loc }, p.2)
  | .loop lc ls le => ({ e with rf := { e.rf with lc := lc, ls := ls, le := le } }, p.2)
  | .acc a v _ => ({ e with rf := { e.rf with acc := e.rf.acc.set a.val (BitVec.ofInt 72 v) } }, p.2)
  | .macc a op c =>
    ({ e with rf := { e.rf with acc := e.rf.acc.set a.val (BitVec.ofInt 72 (clampAcc (maccSum r0 a op c)).1) } }, p.2)

/-- Set sticky flags; a flag set in a cycle stands over a clear of the same cycle (R74). -/
def orSticky (s : Bool × Bool × Bool) (e : Engine) : Engine :=
  { e with rf := { e.rf with av := e.rf.av || s.1, sv := e.rf.sv || s.2.1, cv := e.rf.cv || s.2.2 } }

/-- The sticky flags set by each landing of a cycle, in order. -/
def stickies (r0 : RegFile) : List Landing → List (Bool × Bool × Bool)
  | [] => []
  | l :: t => landSticky r0 l t :: stickies r0 t

/-- The events 0x0C, 0x0D and 0x0E of a list of sticky results (R394). -/
def stickyEvents (l : List (Bool × Bool × Bool)) : List (Nat × Nat) :=
  l.flatMap (fun s => (if s.1 then [(0x0C, 1)] else []) ++ (if s.2.1 then [(0x0D, 1)] else []) ++
    (if s.2.2 then [(0x0E, 1)] else []))

/-- Land every result due at the end of this cycle, and after them the writes of the other port that meet no access of the
engine (R55), set the sticky flags and count the cycle's events. -/
def landCycle (e : Engine) : Engine × List EngSig :=
  let due := standing (sortLandings (e.flight.filter (fun l => decide (l.due ≤ e.cyc))))
  let e1 := { e with flight := e.flight.filter (fun l => !decide (l.due ≤ e.cyc)) }
  let (e2, sg) := due.foldl (fun p l => applyLanding e.rf l p) (e1, [])
  let st := stickies e.rf due
  let (er, retries) := retryPort e2
  let e3 := st.foldl (fun e s => orSticky s e) (flushPort er)
  let (e4, sg') := countEvents (e.events ++ retries ++ stickyEvents st ++ [(0x01, 1)]) e3
  ({ e4 with events := [], busy := [], cyc := e4.cyc + 1, tcyc := e4.tcyc + 1 }, sg ++ sg')

/-- `n` cycles in which no bundle issues. -/
def idleCycles : Nat → Engine × List EngSig → Engine × List EngSig
  | 0, p => p
  | n + 1, p =>
    let (e', s) := landCycle p.1
    idleCycles n (e', p.2 ++ s)

/-- Pop the loop stack into LC, LS and LE (R94, R95). -/
def popLoop (e : Engine) : Engine :=
  match e.loops with
  | [] => e
  | (lc, ls, le) :: t => { e with loops := t, rf := { e.rf with lc := lc, ls := ls, le := le } }

/-- The pop of a loop whose count ran out at LE: LE + 1 issues next (R94). -/
def loopExit (e : Engine) : Engine :=
  if e.exitDue then { popLoop e with exitDue := false } else e

/-- At the target of an RTI: N, Z, C, V and IE are restored from SE_ISR and issue resumes at SE_IRA, after
the results of the last delay slot's cycle have landed (R97). -/
def rtiRestore (e : Engine) : Engine :=
  let w := e.loc.isr
  if !e.rtiDue then e else
  { e with
    rtiDue := false
    pc := e.loc.ira
    rf := { e.rf with n := w.getLsbD 4, z := w.getLsbD 5, c := w.getLsbD 6, v := w.getLsbD 7, ie := w.getLsbD 8 } }

/-- Whether the loop test applies to the bundle at `at`: it is LE and a loop is open (R94). -/
def atLe (e : Engine) (at' : BitVec 13) : Bool :=
  !e.loops.isEmpty && e.rf.le == at'

/-- Put a result in flight: it lands `d` cycles after the issue cycle. -/
def launch (slot d : Nat) (eff : Eff) (e : Engine) : Engine :=
  { e with flight := e.flight ++ [{ due := e.cyc + d, seq := e.seq, slot := slot, eff := eff }] }

/-- The bundle after `at'` issues next: the loop test at LE, then a delay slot, then the sequence (R91,
R94). LC, LS and LE are those at the start of the cycle, `r0`. The decrement of LC lands at the end of the cycle of the
bundle at LE, as a write of its Y/ALU slot (R63; DEDUCED, assumption 106). -/
def advance (e : Engine) (r0 : RegFile) (at' : BitVec 13) : Engine :=
  match e.branch with
  | some b =>
    if b.left ≤ 1 then
      let e' := { e with branch := none }
      if b.rti then { e' with rtiDue := true }
      else
        match b.target with
        | some t => { e' with pc := t }
        | none => { e' with pc := at' + 1 }
    else { e with branch := some { b with left := b.left - 1 }, pc := at' + 1 }
  | none =>
    if !e.loops.isEmpty && r0.le == at' then
      if 1 < r0.lc.toNat then
        launch 3 0 (.reg 0x40 ((r0.lc - 1).setWidth 32)) { e with pc := r0.ls, events := e.events ++ [(0x0B, 1)] }
      else { e with pc := at' + 1, exitDue := true }
    else { e with pc := at' + 1 }

/-- The bundle a REP of 0 skips: it counts as a delay slot, and as it does not issue no loop test follows it (R91,
R93, R94). It is not looked at: one that REP may not repeat is passed without a halt (DESIGN CHOICE, assumption 125: R93
calls it illegal whatever the count, and R86 halts an engine on a bundle that issues). -/
def skipBundle (e : Engine) (at' : BitVec 13) : Engine :=
  if e.branch.isSome then advance e e.rf at' else { e with pc := at' + 1 }

/-- What follows the bundle that has just issued, before its results land. LC, LS and LE of a DO or an ENDL land at the
end of the cycle as a write of the Y/ALU slot (R63). -/
def afterBundle (e : Engine) : Engine :=
  let at' := e.lastPc
  if 1 < e.rep then { e with rep := e.rep - 1 }
  else
    let e := { e with rep := 0 }
    match e.flow with
    | none => advance e e.rf at'
    | some (.branch t rti) =>
      { e with branch := some { left := 3, target := t, rti := rti }, pc := at' + 1 }
    | some (.rep n) =>
      if n = 0 then skipBundle (advance e e.rf at') (at' + 1) else { advance e e.rf at' with rep := n }
    | some (.doLoop n fin) =>
      if n = 0 then { e with pc := fin + 1 }
      else
        launch 3 0 (.loop (BitVec.ofNat 16 n) (at' + 1) fin)
          { e with loops := (e.rf.lc, e.rf.ls, e.rf.le) :: e.loops, pc := at' + 1 }
    | some .endl =>
      let p := popLoop e
      advance (launch 3 0 (.loop p.rf.lc p.rf.ls p.rf.le) { p with rf := e.rf }) p.rf at'
    | some (.wait _) => advance e e.rf at'
    | some (.done _) => advance e e.rf at'

/-- Idle cycles a bundle costs after it: 1 for a REP of 0, 3 for a DO of 0 (R93, R94). -/
def idleAfter : Option FlowOp → Nat
  | some (.rep 0) => 1
  | some (.doLoop 0 _) => 3
  | _ => 0

/-- The end of the issue cycle of a bundle: where the next bundle comes from, then the landings of the
cycle, then any idle cycles. The flags that DONE signals are those at the start of its cycle (DESIGN CHOICE: R75 does
not say whether they take in events that land in DONE's own cycle). -/
def finishBundle (e : Engine) : Engine × List EngSig :=
  let f := e.flow
  let e1 := { afterBundle e with flow := none, inBundle := false, seq := e.seq + 1, noInt := idleAfter f != 0 }
  let p := landCycle { e1 with events := e1.events ++ [(0x02, 1)] }
  let d := match f with
    | some (.done second) => [EngSig.done second e.rf.av e.rf.sv e.rf.cv]
    | _ => []
  idleCycles (idleAfter f) (rtiRestore p.1, d ++ p.2)

/-- The last slot of a bundle has been commanded. A WAITPHASE holds its bundle, whose results stay in
flight with the engine's clock gated, until the wait ends (R87, R100). Its other slots have read memory and registers
when they were commanded, before the wait (DESIGN CHOICE: the spec does not say whether they read before the wait or in
the cycle it ends). -/
def endBundle (e : Engine) : Engine × List EngSig :=
  match e.flow with
  | some (.wait second) =>
    ({ drainPort e with run := .waiting, waitFor := if second then 2 else 1, inBundle := false, lastPc := e.prevPc }, [])
  | _ => finishBundle e

/-- The first slot of a bundle: a loop whose count ran out is left, and the bundle at pc is the one being
issued. -/
def openBundle (e : Engine) : Engine :=
  if e.inBundle then e
  else
    { loopExit e with inBundle := true, cur := Bundle.reset, prevPc := e.lastPc, lastPc := (loopExit e).pc, noInt := false }

/-- A write of a register by a move, landing `d` cycles after the issue cycle. -/
def launchReg (slot d : Nat) (code : BitVec 7) (w : Word) (e : Engine) : Engine :=
  launch slot d (.reg code w) e

/-- Count an event of the bundle being issued. -/
def noteEvent (ev n : Nat) (e : Engine) : Engine :=
  { e with events := e.events ++ [(ev, n)] }

/-- The outcome of word `i` of a line. -/
def lineWord (l : LineEcc) (i : Nat) : Ecc :=
  if i = 0 then l.w0 else if i = 1 then l.w1 else if i = 2 then l.w2 else l.w3

/-- Whether one of the first `n` words of a line is uncorrectable. -/
def lineBad (n : Nat) (l : LineEcc) : Bool := (upFrom 0 n).any (fun i => lineWord l i == .bad)

/-- Which of the first `n` words of a line are corrected. -/
def lineFixed (n : Nat) (l : LineEcc) : List Nat := (upFrom 0 n).filter (fun i => lineWord l i == .corrected)

/-- Words of a memory (0 P, 1 X, 2 Y) that a read of the engine corrected await their write-back, and count as event
0x10 (R57, R394). -/
def fixWords (ws : List (Nat × Nat)) (e : Engine) : Engine :=
  if ws.isEmpty then e else noteEvent 0x10 ws.length { e with fix := e.fix ++ ws }

/-- The corrected words of the fetch of the bundle at `pc` (R57). -/
def fetchWords (l : LineEcc) (e : Engine) : List (Nat × Nat) :=
  (lineFixed 4 l).map (fun i => (0, 4 * e.lastPc.toNat + i))

/-- The report of corrected words. -/
def fixedSig (n : Nat) : List EngSig := if n = 0 then [] else [.fixed n]

/-- A bundle is due to issue: it is opened and fetched; `true` where a word of it is uncorrectable (R57). -/
def fetchBundle (l : LineEcc) (e : Engine) : Engine × List EngSig × Bool :=
  let e1 := openBundle e
  let ws := fetchWords l e1
  (fixWords ws e1, fixedSig ws.length, lineBad 4 l)

/-- All-NOP bundles issue, from number `i` of them on (R82); `true` where one could not be fetched (R57). -/
def issueNops (fl : List (Nat × LineEcc)) (i : Nat) : Nat → Engine × List EngSig → Engine × List EngSig × Bool
  | 0, p => (p.1, p.2, false)
  | n + 1, p =>
    match fetchBundle (mapGet (fun _ => LineEcc.ok) i fl) p.1 with
    | (e1, sg, true) => (e1, p.2 ++ sg, true)
    | (e1, sg, false) =>
      let (e2, sg') := endBundle e1
      issueNops fl (i + 1) n (e2, p.2 ++ sg ++ sg')

/-- The bundle of a command is due to issue where its first slot is commanded, after the all-NOP bundles before it; `true`
where a bundle could not be fetched (R57, R82). -/
def startBundle (is : Issue) (e : Engine) : Engine × List EngSig × Bool :=
  if e.inBundle then (e, [], false)
  else
    match issueNops is.nopFetch 0 is.nops (e, []) with
    | (e1, sg, true) => (e1, sg, true)
    | (e1, sg, false) =>
      let (e2, sg', bad) := fetchBundle is.fetch e1
      (e2, sg ++ sg', bad)

/-- The last slot of a bundle has been commanded: the words its loads corrected are reported, and `true` where one was
uncorrectable (R57). -/
def closeBundle (e : Engine) : Engine × List EngSig × Bool :=
  let e1 := fixWords e.cur.fixed e
  let sg := fixedSig e.cur.fixed.length
  if e.cur.bad then (e1, sg, true)
  else
    let (e2, sg') := endBundle e1
    (e2, sg ++ sg', false)

/-- An engine stops issuing: results in flight, the open section, queued frames and a stalled POST are
dropped (R45, R110). -/
def stopIssue (e : Engine) : Engine :=
  { drainPort e with
    flight := [], inBundle := false, flow := none, events := [], branch := none, rtiDue := false, rep := 0,
    busy := [], exitDue := false, waitFor := 0, sec := 0, posted := [], q1 := [], q2 := [], stalled := none }

/-- The registers of R59, the stacks and the pipeline at a start, a restart or a load; the memories and the
engine-local registers stay (R59, R110, R395). -/
def restartEngine (e : Engine) : Engine :=
  { stopIssue e with
    rf := RegFile.reset, pc := 0, lastPc := 0, prevPc := 0, noInt := false, loops := [], calls := [], ran1 := false, ran2 := false }

end Sys2Proof.Machine
end

