-- ==== Sys2Proof/Machine/ReserveOps.lean ====
section
/-! DEFINITION. What starts, abandons and reports a move of a place, and what an engine's halt sets off
(R45, R376 to R384). -/

namespace Sys2Proof.Machine

/-- 24 hours of the system counter. -/
def day : Nat := 86400 * 1000000000

/-- Whether the unit is door-holder (R325): ACTIVE. -/
def State.isDoor (s : State) : Bool := s.nat Ix.pairRole == 3

/-- Engines are power-gated: STANDBY-SYNC or STANDBY (R325), or quiet mode (R454). -/
def State.isGated (s : State) : Bool :=
  s.nat Ix.pairRole == 1 || s.nat Ix.pairRole == 2 || s.boot.quiet

/-- RSV_ENG_STATE of an engine (R393). -/
def rsvState (s : State) (e : Fin 16) : Nat := s.nat Ix.rsvEngState e.val

/-- An engine is a leaf that a move may take: a leaf, or a leaf under test (R376, R385). -/
def isLeaf (s : State) (e : Fin 16) : Bool := rsvState s e == 1 || (rsvState s e == 2 && !s.rsv.untrusted.contains e)

/-- Count the engine leaves into RSV_LEAVES [1:0] (R393). -/
def syncLeaves (s : State) : State :=
  let n := ((List.finRange 16).filter (isLeaf s)).length
  s.setNat Ix.rsvLeaves 0 (s.nat Ix.rsvLeaves / 4 * 4 + min n 3)

/-- RSV_LEAVES [5]: a system PLL is the hot leaf and locked (R391, R393). -/
def syncHotLeaf (s : State) : State :=
  let v := s.nat Ix.rsvLeaves
  let hot := s.nat Ix.syspllState == 2 || s.nat Ix.syspllState 1 == 2
  s.setNat Ix.rsvLeaves 0 (v % 32 + (if hot then 32 else 0) + v / 64 * 64)

/-- Give an engine a reserve state; RETIRED raises RSV_ENG_RETIRED (R392). -/
def setRsvState (s : State) (e : Fin 16) (v : Nat) : State :=
  let place := match placeOf s e with
    | some p => p.val
    | none => 0
  let s1 := syncLeaves (s.setNat Ix.rsvEngState e.val v)
  if v = 6 ∧ rsvState s e ≠ 6 then s1.alarm Al.rsvEngRetired (e.val + 16 * place) else s1

/-- The detail of an engine alarm of class 0x0F (R392). -/
def rsvDetail (e place : Fin 16) : Nat := e.val + 16 * place.val

/-- RSV_MIG_STATE for a move at a step: 1 preparing, 2 copy, 3 shadow, 4 done, 5 abandoned (R393). -/
def setMigState (s : State) (m : Move) (step reason : Nat) : State :=
  s.setNat Ix.rsvMigState 0
    (m.req.place.val + 16 * m.source.val + 256 * m.leaf.val + 4096 * step +
      (if m.kind == .cold then 32768 else 0) + 65536 * reason)

/-- The leaf a move takes: the one asked for, or the lowest; one under test where no other is left (R376, R385). -/
def pickLeaf (s : State) (want : Option (Fin 16)) : Option (Fin 16) :=
  match want with
  | some e => if isLeaf s e then some e else none
  | none =>
    match (List.finRange 16).find? (fun e => rsvState s e == 1) with
    | some e => some e
    | none => (List.finRange 16).find? (isLeaf s)

/-- How a place would move now (R377). -/
def moveKindNow (s : State) (place : Fin 16) : MoveKind :=
  if s.isGated then .quiet
  else
    match (s.engine (engineOf s place)).run with
    | .halted => .cold
    | .running | .waiting => .warm
    | .idle | .leaf => .quiet

/-- The copy window of R379 is long enough under the plan in force. -/
def copyFits (s : State) : Bool :=
  decide (4160 + listGet 0 9 s.clk.plan ≤ s.budget + listGet 0 3 s.clk.plan)

/-- A leaf at rest, with the counters of the reserve place that holds it (R395). -/
def gatedEngine (pm : EngPmu) : Engine :=
  { Engine.reset with run := .leaf, loc := { Engine.reset.loc with pmu := pm } }

/-- Start a move: wake and zero the leaf (R378). Without a leaf, RSV_NO_LEAF (R384). A warm move without a
copy window is abandoned at once with reason 5 (R379). -/
def startMove (s : State) (req : MoveReq) : State :=
  match pickLeaf s req.leaf with
  | none => s.alarm Al.rsvNoLeaf (rsvDetail (engineOf s req.place) req.place)
  | some leaf =>
    let src := engineOf s req.place
    let kind := moveKindNow s req.place
    let m : Move := { kind := kind, req := req, source := src, leaf := leaf, step := .preparing, tx := s.tick + 1, held := 0,
                      repeated := false, posts := [], pmu := (s.engine leaf).loc.pmu }
    if kind == .warm && !copyFits s then
      (setMigState s m 5 5).alarm Al.rsvMigrateAbandoned (rsvDetail src req.place + 256 * 5)
    else
      let s1 := { s with rsv := { s.rsv with move := some m
                                             tests := s.rsv.tests.filter (fun e => e != leaf)
                                             testing := s.rsv.testing.filter (fun e => e != leaf) } }
      let s2 := s1.setEngine leaf (gatedEngine m.pmu)
      (setMigState (setRsvState s2 leaf 3) m 1 (s.nat Ix.rsvMigState / 65536 % 256)).alarm
        Al.rsvMigrateStart (rsvDetail src req.place)

/-- A change of rate or TICKLEN or a step of the time base is on its way (R36, R37). -/
def gridComing (s : State) : Bool :=
  s.clk.seq != .running || s.clk.restep.isSome ||
    s.writes.any (fun w => w.ix == Ix.houseRate || w.ix == Ix.ticklen || w.ix == Ix.timeSet ||
      (w.ix == Ix.timeRestep && w.val.toNat == 1))

/-- Run the next waiting move, when none is in progress (R377, R384). Automatic moves wait while a swap runs, and
from the acceptance of a change of the tick grid until the sequencer runs again. -/
def nextMove (s : State) : State :=
  match s.rsv.move, s.rsv.queue with
  | none, r :: t =>
    if r.auto && (s.pair.swap.isSome || gridComing s) then s
    else startMove { s with rsv := { s.rsv with queue := t } } r
  | _, _ => s

/-- Abandon the move in progress (R384): the leaf goes to `leafState`, the place stays on its engine. -/
def abandonMove (s : State) (reason leafState : Nat) : State :=
  match s.rsv.move with
  | none => s
  | some m =>
    let s1 := { s with rsv := { s.rsv with move := none } }
    let s2 := setRsvState (s1.setEngine m.leaf (gatedEngine m.pmu)) m.leaf leafState
    (setMigState s2 m 5 reason).alarm Al.rsvMigrateAbandoned (rsvDetail m.source m.req.place + 256 * reason)

/-- Ask for a move; it runs at once where none is in progress, else after it (R384). -/
def askMove (s : State) (req : MoveReq) : State :=
  nextMove { s with rsv := { s.rsv with queue := s.rsv.queue ++ [req] } }

/-- Ask for a move that is to run before those that wait (R384). -/
def askFirst (s : State) (req : MoveReq) : State :=
  nextMove { s with rsv := { s.rsv with queue := req :: s.rsv.queue } }

/-- The shadow check meets a difference (R380): it is counted, and the move is abandoned with reason 1 and, once, begins
again from a new copy; after the second the place's move does not start again on its own. FORCE lets it go on. -/
def shadowDiffers (s : State) (m : Move) : State :=
  let s1 := s.addWrap Ix.rsvMigDiffs 0 1
  if m.req.force then s1
  else
    let s2 := abandonMove s1 1 1
    if m.repeated then
      nextMove { s2 with rsv := { s2.rsv with barred := s2.rsv.barred.filter (fun p => p != m.req.place) ++ [m.req.place] } }
    else
      let m1 := { m with step := MoveStep.prepared, repeated := true, posts := [] }
      let s3 := setRsvState (s2.setEngine m.leaf { s.engine m.leaf with run := .leaf }) m.leaf 3
      setMigState { s3 with rsv := { s3.rsv with move := some m1 } } m1 1 1

/-- The places that hold work: 0 to 13 (R373). -/
def isWorkPlace (p : Fin 16) : Bool := decide (p.val < 14)

/-- The source of a move has halted: the move becomes cold, into the same leaf, from the first boundary after preparation
(R384). A leaf that shadowed stops. -/
def coldNow (s : State) (m : Move) : State :=
  let w := s.nat Ix.rsvMigState
  let ready := m.step != .preparing
  let m1 := { m with kind := .cold, step := if ready then .prepared else m.step, tx := s.tick + 1, posts := [] }
  let s1 := if ready then s.setEngine m.leaf { s.engine m.leaf with run := .leaf } else s
  setMigState { s1 with rsv := { s1.rsv with move := some m1 } } m1 (if ready then 1 else w / 4096 % 8) (w / 65536 % 256)

/-- What the reserve manager does when engine `e` halts (R376, R384). The halt is counted whatever the
policy; under policy 1 the engine becomes SUSPECT, or RETIRED on a second halt within 24 h, and its place
moves cold. A leaf that faults becomes SUSPECT (R384), and RETIRED too on a second halt (DEDUCED, assumption 152). -/
def onHalt (s : State) (e : Fin 16) : State :=
  let now := s.clk.sysCounter
  let old := (mapGet (fun _ => []) e.val s.rsv.halts).filter (fun t => decide (now ≤ t + day))
  let s1 := { s with rsv := { s.rsv with halts := mapSet (fun _ => []) e.val (old ++ [now]) s.rsv.halts } }
  let s2 := s1.setNat Ix.rsvEngFaults e.val (min (old.length + 1) 255)
  match s2.rsv.move with
  | some m =>
    if m.leaf = e then abandonMove s2 2 (if s2.nat Ix.rsvPolicy = 0 ∨ old.isEmpty then 5 else 6)
    else if s2.nat Ix.rsvPolicy = 0 then (if m.source = e then coldNow s2 m else s2)
    else
      let s3 := setRsvState s2 e (if old.isEmpty then 5 else 6)
      match placeOf s3 e with
      | none => s3
      | some p =>
        if !isWorkPlace p then s3
        else if m.source = e then coldNow s3 m
        else
          let req : MoveReq := { place := p, leaf := none, force := false, retire := false, auto := true }
          if m.kind == .warm then
            let s4 := abandonMove s3 7 1
            let s5 := askFirst s4 req
            { s5 with rsv := { s5.rsv with queue := s5.rsv.queue ++ [m.req] } }
          else askMove s3 req
  | none =>
    if s2.nat Ix.rsvPolicy = 0 then s2
    else
      let s3 := setRsvState s2 e (if old.isEmpty then 5 else 6)
      match placeOf s3 e with
      | none => s3
      | some p =>
        if isWorkPlace p then askMove s3 { place := p, leaf := none, force := false, retire := false, auto := true } else s3

/-- Halt engine `e` as an overrun (R45): it stops issuing, SE_FAULT takes `fault`, TICK_OVERRUN is raised,
OVERRUN_COUNT counts, and the reserve manager acts. Its outputs are substituted at the deadlines. -/
def haltEngine (s : State) (e : Fin 16) (fault : BitVec 5) : State :=
  let g := s.engine e
  let held := g.run == .waiting
  let g' := { stopIssue g with run := .halted, lastPc := if held then g.pc else g.lastPc,
                               loc := { g.loc with fault := g.loc.fault ||| fault } }
  let s1 := (s.setEngine e g').addWrap Ix.overrunCount e.val 1
  onHalt (s1.alarm (Al.tickOverrun.src e.val)) e

end Sys2Proof.Machine
end

