-- ==== Sys2Proof/Machine/LatticeOps.lean ====
section
/-! DEFINITION. Sources and destinations: what is populated and usable (R140 to R142), the source store
(R143, R144), expected tags (R42), generators (R157, R158), and the gather of a destination with its takes,
absence and fades (R146 to R156). -/

namespace Sys2Proof.Machine

/-- A source identifier is populated (R140). -/
def srcPopulated (i : Nat) : Bool :=
  decide (i ≤ 0x240F) || (decide (0x3000 ≤ i) && decide (i ≤ 0x43FF)) || (decide (0x7F00 ≤ i) && decide (i ≤ 0x7F11))

/-- The number of buses of a rate class (R115). -/
def busCount (cls : Nat) : Nat := 1024 / 2 ^ cls
/-- The number of usable crosspoints of a rate class (R115). -/
def xpCount (cls : Nat) : Nat := 786432 / 2 ^ cls
/-- The number of network channels of a rate class (R140). -/
def netCount (cls : Nat) : Nat := 8192 / 2 ^ cls
/-- The number of TDM slots of a rate class (R140). -/
def tdmSlots (cls : Nat) : Nat := 32 / 2 ^ cls

/-- The SE_OUTMAP word of an engine-output identifier, from the engine that holds its place (R102, R144). -/
def outMapOf (s : State) (i : Nat) : Word :=
  let e := s.engine (engineOf s (Fin.ofNat 16 ((i - 0x3000) / 256)))
  mapGet (fun _ => 0) ((i - 0x3000) % 256) e.loc.outMap

/-- The SE_INMAP word of an engine-input identifier (R102, R144). -/
def inMapOf (s : State) (d : Nat) : Word :=
  let e := s.engine (engineOf s (Fin.ofNat 16 ((d - 0x2800) / 384)))
  mapGet (fun _ => 0) ((d - 0x2800) % 384) e.loc.inMap

/-- A network, TDM or AES3 identifier is usable in the rate class (R140, R141). -/
def portUsable (cls i : Nat) : Bool :=
  if i < 0x2000 then decide (i < netCount cls)
  else if i < 0x2400 then decide (i % 32 < tdmSlots cls)
  else decide (i ≤ 0x240F)

/-- A source is usable (R140). -/
def srcUsable (s : State) (i : Nat) : Bool :=
  if i ≤ 0x240F then portUsable s.cls i
  else if 0x3000 ≤ i ∧ i < 0x4000 then (outMapOf s i).getLsbD 31
  else if 0x4000 ≤ i ∧ i < 0x4400 then decide (i - 0x4000 < busCount s.cls)
  else decide (0x7F00 ≤ i) && decide (i ≤ 0x7F11)

/-- A destination is usable (R141). -/
def destUsable (s : State) (d : Nat) : Bool :=
  if d ≤ 0x240F then portUsable s.cls d
  else if isEngDest d then (inMapOf s d).getLsbD 31
  else d == 0x4000 || d == 0x4001

/-- A source record. -/
def State.source (s : State) (i : Nat) : Source := mapGet (fun _ => Source.empty) i s.lat.srcs
/-- A destination record. -/
def State.dest (s : State) (d : Nat) : Dest := mapGet (fun _ => Dest.reset) d s.lat.dests
/-- Replace a source record. -/
def State.setSource (s : State) (i : Nat) (r : Source) : State :=
  { s with lat := { s.lat with srcs := mapSet (fun _ => Source.empty) i r s.lat.srcs } }
/-- The state of a fade as LAT_DEST_STATE [1:0] reports the causes together (R147). -/
def fadeCode (fs : List Fade) : Nat :=
  if fs.any (fun f => f.mode == .silent) then 2
  else if fs.any (fun f => f.mode == .fadingOut) then 1
  else if fs.any (fun f => f.mode == .fadingIn) then 3
  else 0

/-- The causes every physical destination shares (R30). -/
def sharedCauses (s : State) (d : Nat) : List Fade := if isPhysDest d then [s.lat.seq, s.lat.door] else []

/-- The causes of a destination's Lattice fades (R30). -/
def Dest.causes (r : Dest) : List Fade := [r.absent, r.npcm, r.mute, r.cls, r.fault]

/-- Put back the causes of a destination, in the same order. -/
def Dest.withCauses (r : Dest) : List Fade → Dest
  | a :: n :: m :: c :: f :: _ => { r with absent := a, npcm := n, mute := m, cls := c, fault := f }
  | _ => r

/-- LAT_DEST_STATE (R161): bit 4 stands while the non-PCM cause of R156 is closed. -/
def destStateCode (r : Dest) : Nat :=
  fadeCode r.causes + (if r.take.isSome then 4 else 0) + (if r.isAbsent then 8 else 0) +
    (if !r.transp && (r.npcm.mode == .fadingOut || r.npcm.mode == .silent) then 16 else 0) + (if r.hasFault then 128 else 0)

/-- Replace a destination record, with what LAT_DEST_STATE reports of it. -/
def State.setDest (s : State) (d : Nat) (r : Dest) : State :=
  { s with lat := { s.lat with dests := mapSet (fun _ => Dest.reset) d r s.lat.dests } }.setNat
    Ix.latDestState d (destStateCode r)

/-- Write a frame into the store (R31, R143): the frame of its tick replaces the one of three ticks before. A frame of a
tick already written, by its producer or as a substitute, is discarded (R44). -/
def putFrame (s : State) (i : Nat) (f : Frame) : State :=
  let r := s.source i
  if (r.hist.head?.map (fun h => h.tag)) = some f.tag then s
  else s.setSource i { r with hist := f :: r.hist.filter (fun h => h.tag % 3 != f.tag % 3) }

/-- The frame of a source with a tag, as the store holds it. -/
def storedFrame (s : State) (i tag : Nat) : Option Frame :=
  (s.source i).hist.find? (fun f => f.tag == tag)

/-- The readers of R42. -/
inductive Reader where
  | p1Engine | p1Direct | bench | p4Engine | p5
  deriving DecidableEq, Repr

/-- How many ticks before c a reader expects a source's tag; none where R42 says absent. -/
def expectedLag (s : State) (rd : Reader) (i : Nat) : Option Nat :=
  if 0x3000 ≤ i ∧ i < 0x4000 then
    let second := (outMapOf s i).getLsbD 16
    match rd with
    | .p1Engine => some 2
    | .p1Direct => none
    | .bench => some (if second then 2 else 1)
    | .p4Engine => some (if second then 2 else 1)
    | .p5 => some 1
  else if 0x4000 ≤ i ∧ i < 0x4400 then
    match rd with
    | .p1Engine => some 2
    | .p1Direct => none
    | .bench => some 2
    | .p4Engine => some 1
    | .p5 => some 1
  else some 1

/-- The phase whose deadline closes a source's producer for the tick (R43, R44). -/
def producerPhase (s : State) (i : Nat) : Nat :=
  if 0x3000 ≤ i ∧ i < 0x4000 then (if (outMapOf s i).getLsbD 16 then 4 else 2)
  else if 0x4000 ≤ i ∧ i < 0x4400 then 3
  else 0

/-- The mix-word amplitude of a dB64 level (R157): the gain of R122 as a mix word. -/
def mixLevel (d : Int) : Int := gainOf d false / 2

/-- The amplitude of generator g at sample j of its frame with tag `tag` (R157): linear over 32 samples from the landing
of a change. -/
def genLevelAt (s : State) (g tag j : Nat) : Int :=
  match mapFind g s.lat.gens with
  | some r =>
    let k : Int := (r.k : Int) + j - ((s.tag - tag) * s.ticklen : Nat)
    if 31 ≤ k then r.toLvl else if k < 0 then r.fromLvl else r.fromLvl + (r.toLvl - r.fromLvl) * (k + 1) / 32
  | none => mixLevel (s.int Ix.genLevel g)

/-- One word of a generator: tones 1 to 15 (R157), pink 0x10 and white 0x11 noise at the RMS level that GEN_LEVEL sets,
clipped at 4 times it (R158). `tag` is the frame's, `j` the sample's place in it. -/
def genWord (s : State) (g tag j : Nat) : Word :=
  let a := genLevelAt s g tag j
  let sample := tag * s.ticklen + j
  if g < 0x10 then
    let ftw := (s.nat Ix.genFreq g * 4294967296 + s.fs * 500) / (s.fs * 1000)
    BitVec.ofInt 32 (roundQ30 (a * sineQ30 (sample * ftw % 4294967296)))
  else BitVec.ofInt 32 (max (-(4 * a)) (min (4 * a) (a * Config.noise g sample / 134217728)))

/-- The frame of a generator or of silence with tag `tag` (R157). -/
def genFrame (s : State) (i tag : Nat) : List Word :=
  (upFrom 0 s.ticklen).map (fun j => if i = 0x7F00 then 0 else genWord s (i - 0x7F00) tag j)

/-- A usable bus that no crosspoint named in the tick that writes tag `tag` is a frame of zeros (R118). -/
def busUnnamed (s : State) (b tag : Nat) : Bool :=
  decide (b < busCount s.cls) &&
    ((s.bench.opened && tag == s.tag && !s.bench.named.contains b) ||
      s.bench.past.any (fun p => p.1 == tag && !p.2.contains b))

/-- What a read of a source with an expected tag finds: its words and non-PCM flag, or nothing (R32, R159). Where
`clear`, a word that a fade of the producer has scaled reads as zero (R155). -/
def readFrame (s : State) (i tag : Nat) (clear : Bool := false) : Option (List Word × Bool) :=
  match storedFrame s i tag with
  | some f => if f.bad then none else some (if clear then zeroLow f.words f.low else f.words, f.npcm)
  | none =>
    if s.lat.badFrames.contains (i, tag) then none
    else if 0x7F00 ≤ i then some (genFrame s i tag, false)
    else if 0x4000 ≤ i ∧ i < 0x4400 ∧ busUnnamed s (i - 0x4000) tag then
      some (List.replicate s.ticklen 0, false)
    else none

/-- Keep the frames a generator wrote in the two ticks before this one, as they are before its frequency or level changes
(R143, R157). -/
def keepFrames (old s : State) (g : Nat) : State :=
  let i := 0x7F00 + g
  (if 3 ≤ old.tick then [old.tick - 3, old.tick - 2] else []).foldl (fun t tag =>
    match storedFrame t i tag with
    | some _ => t
    | none => putFrame t i { tag := tag, words := genFrame old i tag, low := [], npcm := false, bad := false }) s

/-- The last frame written into a slot of the frame memory (R143). A slot never written holds zeros and the tag of R147. -/
def oldFrame (s : State) (i buffer : Nat) : List Word × Nat :=
  match (s.source i).hist.find? (fun f => f.tag % 3 == buffer) with
  | some f => (f.words, f.tag)
  | none => ([], 2 ^ 64 - 1)

/-- The frame memory's slot of source `i` in a tick buffer (R143), which holds the frame whose tag, of c − 1, c − 2 and
c − 3, leaves its number modulo 3: the words, and the tag. Generators write every tick, and the Bench writes zeros to a bus
that nothing names (R118, R157). Where a producer has written no frame with that tag, the slot keeps the one before it, tag
and all (DEDUCED, assumption 133). -/
def slotFrame (s : State) (i buffer : Nat) : List Word × Nat :=
  match (((upFrom 1 3).filter (fun a => decide (a ≤ s.tick))).map (fun a => s.tick - a)).find? (fun t => t % 3 == buffer) with
  | none => oldFrame s i buffer
  | some t =>
    match storedFrame s i t with
    | some f => (f.words, t)
    | none =>
      if 0x7F00 ≤ i then (genFrame s i t, t)
      else if 0x4000 ≤ i ∧ i < 0x4400 ∧ busUnnamed s (i - 0x4000) t then (List.replicate s.ticklen 0, t)
      else oldFrame s i buffer

/-- A word of the frame memory, `n` bytes from its start (R143). Which source and buffer a slot of 136 bytes holds is the
device's. -/
def frameWord (s : State) (n : Nat) : Word :=
  let slot := n / 136
  let (ws, tag) := slotFrame s (Config.frameSource slot) (Config.frameBuffer slot % 3)
  let k := n % 136 / 4
  if k < 32 then listGet 0 k ws else BitVec.ofNat 32 (if k = 32 then tag else tag / 4294967296)

/-- The destination whose selector is entry `e` (R147, R161): entries 0x2410 and 0x2411 belong to the cue destinations,
0x2412 to 0x27FF to none. -/
def entryDest (e : Nat) : Option Nat :=
  if e < 0x2410 then some e
  else if e < 0x2412 then some (0x4000 + (e - 0x2410))
  else if 0x2800 ≤ e ∧ e < 0x4000 then some e
  else none

/-- What a reader finds of a source in this tick (R42, R43): the frame; absent; or not decided yet, while
the producer's deadline has not passed. -/
inductive Found where
  | frame (words : List Word) (npcm : Bool)
  | absent
  | wait
  deriving DecidableEq, Repr

/-- A reader's read of a source (R42, R43); `clear` is a transparent route's (R155). -/
def lookFor (s : State) (rd : Reader) (i : Nat) (clear : Bool := false) : Found :=
  match expectedLag s rd i with
  | none => .absent
  | some lag =>
    if s.tick < lag then .absent
    else
      match readFrame s i (s.tick - lag) clear with
      | some (w, n) => .frame w n
      | none => if lag = 1 ∧ !s.clk.closed.contains (producerPhase s i) ∧ srcUsable s i then .wait else .absent

/-- The reader that gathers a destination (R39): engine inputs by section, physical ones by class. -/
def readerOf (s : State) (d : Nat) : Reader :=
  if isEngDest d then (if (inMapOf s d).getLsbD 16 then .p4Engine else .p1Engine)
  else if (s.dest d).clsNow = 1 then .p1Direct else .p5

/-- One sample of a SOFT take (R151). -/
def softSample (old new : Word) (k : Nat) : Word :=
  BitVec.ofInt 32 ((old.toInt * (31 - (k : Int)) + new.toInt * ((k : Int) + 1)) / 32)

/-- The samples of a SOFT take in one frame from sample `j` on: before the offset the old source, then the
crossfade, then the new source (R151). `k` counts the samples crossfaded. -/
def softFrame : Nat → Nat → List Word → List Word → List Word × Nat
  | off, k, o :: os, n :: ns =>
    match off with
    | off' + 1 =>
      let (r, k') := softFrame off' k os ns
      (o :: r, k')
    | 0 =>
      let w := if 32 ≤ k then n else softSample o n k
      let (r, k') := softFrame 0 (if 32 ≤ k then k else k + 1) os ns
      (w :: r, k')
  | _, k, _, _ => ([], k)

/-- The words of a CUT take (R150). -/
def cutFrame (off : Nat) (old new : List Word) : List Word := old.take off ++ new.drop off

/-- What a gather brings before fades: the words, the non-PCM flag and the take after it; absent, with the samples that
a CUT still takes from its old source; or the reader waits. -/
inductive Brought where
  | words (w : List Word) (npcm : Bool) (take : Option Take)
  | absent (head : List Word) (take : Option Take)
  | wait
  deriving DecidableEq, Repr

/-- The words and flag of one side of a take: an absent side contributes zeros (R151). -/
def sideOf (ticklen : Nat) : Found → List Word × Bool
  | .frame w n => (w, n)
  | _ => (List.replicate ticklen 0, false)

/-- The words of a take's old side: where it ends a SOFT take in progress, that crossfade runs on to the new
take's offset (R152). -/
def oldSide (s : State) (rd : Reader) (t : Take) (ow : List Word) : List Word :=
  match t.before with
  | none => ow
  | some (src, k) =>
    let (w0, _) := sideOf s.ticklen (lookFor s rd src)
    (softFrame 0 k w0 ow).1.take t.offset ++ ow.drop t.offset

/-- The frame of a destination whose entry is in fault (R159): its source under the fade-out, its last frame where
the source is absent, then silence. -/
def faultFrame (s : State) (r : Dest) (rd : Reader) : Found :=
  if r.fault.mode == .silent then .frame (List.replicate s.ticklen 0) false
  else
    match lookFor s rd r.sel r.transp with
    | .absent => .frame (if r.last.length = s.ticklen then r.last else List.replicate s.ticklen 0) false
    | x => x

/-- The words a SOFT take brings: the crossfade, or on a destination that has become transparent its new source, while
the take runs on (R151, R152, R155). -/
def softBrought (transp : Bool) (t : Take) (ow nw : List Word) (npcm : Bool) : Brought :=
  let (w, k) := softFrame t.offset t.k ow nw
  .words (if transp then cutFrame t.offset ow nw else w) npcm (some { t with offset := 0, k := k, before := none })

/-- What a CUT brings (R150): its incoming source decides whether the frame is absent (R146). A frame that carries samples
of both sources is flagged where either is (DESIGN CHOICE, assumption 131: R156 does not say whose flag counts). -/
def cutBrought (ticklen : Nat) (t : Take) (old new : Found) (ow : List Word) : Brought :=
  match new with
  | .frame w n =>
    let flagged : Bool := match old with
      | .frame _ m => m && decide (0 < t.offset)
      | _ => false
    .words (cutFrame t.offset ow w) (n || flagged) (some t)
  | _ => .absent (match old with
    | .frame _ _ => (ow.take t.offset).take ticklen
    | _ => []) (some t)

/-- Bring the source or sources of a destination (R146, R150, R151). -/
def bring (s : State) (r : Dest) (rd : Reader) : Brought :=
  let new := if r.hasFault then faultFrame s r rd else lookFor s rd r.sel r.transp
  match r.take with
  | none =>
    match new with
    | .frame w n => .words w n none
    | .absent => .absent [] none
    | .wait => .wait
  | some t =>
    if t.soft && decide (32 ≤ t.k) then
      match new with
      | .frame w n => .words w n (some t)
      | .absent => .absent [] (some t)
      | .wait => .wait
    else
      let old := lookFor s rd t.old r.transp
      let older := match t.before with
        | some (x, _) => lookFor s rd x
        | none => .absent
      if new == .wait || old == .wait || older == .wait then .wait
      else
        let (nw, nn) := sideOf s.ticklen new
        let (ow0, on) := sideOf s.ticklen old
        let ow := if r.transp then ow0 else oldSide s rd t ow0
        if !t.soft then cutBrought s.ticklen t old new ow
        else if new == .absent && old == .absent then .absent [] (some { t with k := 32, before := none })
        else softBrought r.transp t ow nw (nn || on)

/-- The causes a gather asks for: absence (R146) and non-PCM (R156). A transparent destination has neither. An absent
frame leaves the non-PCM cause as it stands (DESIGN CHOICE, assumption 132: R156 speaks of flagged and unflagged frames
only). -/
def askCauses (r : Dest) (absent npcm : Bool) : Dest :=
  if r.transp then r
  else
    { r with
      absent := if absent then fadeOut r.absent else fadeIn r.absent
      npcm := if absent then r.npcm else if npcm then fadeOut r.npcm else fadeIn r.npcm }

/-- Count the words of a gather in its term of R145. -/
def countGather (s : State) (rd : Reader) : State :=
  let n := s.ticklen
  match rd with
  | .p1Engine | .p1Direct => { s with lat := { s.lat with gathers1 := s.lat.gathers1 + n } }
  | _ => { s with lat := { s.lat with gathers2 := s.lat.gathers2 + n } }

/-- Gather a destination's frame (R146 to R156). It is gathered once a tick; while its source may still
arrive the reader waits and nothing changes (R43). -/
def gatherDest (s : State) (d : Nat) : State :=
  let r := s.dest d
  if r.gathered || !destUsable s d then s
  else
    let rd := readerOf s d
    match bring s r rd with
    | .wait => s
    | .words w npcm take =>
      let r1 := askCauses { r with take := take } false npcm
      let (out, fs) := fadeFrame r1.transp (r1.causes ++ sharedCauses s d) w
      let r2 := { r1.withCauses fs with
                  words := out, last := w, isAbsent := false, isNpcm := npcm, gathered := true }
      countGather (s.setDest d r2) rd
    | .absent head take =>
      let r1 := askCauses { r with take := take } true false
      let zeros := List.replicate s.ticklen (0 : Word)
      let last := if r.last.length = s.ticklen then r.last else zeros
      let base := head ++ (if r1.transp then zeros else last).drop head.length
      let (out, fs) := fadeFrame r1.transp (r1.causes ++ sharedCauses s d) base
      let r2 := { r1.withCauses fs with words := out, last := base, isAbsent := true, isNpcm := false, gathered := true }
      let s1 := (s.setDest d r2).addHold Ix.latAbsentCount d 1
      (countGather s1 rd).alarmIf (!r.isAbsent && s.flag Ix.latAbsentAlarm d) Al.latDestAbsent

/-- A selector entry meets an uncorrectable error (R159, R160): its destination fades out to silence. -/
def selFault (s : State) (d : Nat) : State :=
  let r := s.dest d
  ((s.setDest d { r with hasFault := true, fault := fadeOut r.fault }).addWrap Ix.latEccUe 0 1).alarm Al.latSelEccUe

/-- A frame meets an uncorrectable error (R159, R160): it is absent to every reader. -/
def frameFault (s : State) (i tag : Nat) : State :=
  let r := s.source i
  let s1 := match storedFrame s i tag with
    | some _ => s.setSource i { r with hist := r.hist.map (fun (f : Frame) => if f.tag == tag then { f with bad := true } else f) }
    | none => { s with lat := { s.lat with badFrames := s.lat.badFrames.filter (fun f => f != (i, tag)) ++ [(i, tag)] } }
  (s1.addWrap Ix.latEccUe 0 1).alarm Al.latStoreEccUe

/-- An uncorrectable word of a slot of the frame memory (R159): the frame it holds, or a slot never written. -/
def slotFault (s : State) (i : Nat) (bare : Bool) (tag : Nat) : State :=
  if bare then (s.addWrap Ix.latEccUe 0 1).alarm Al.latStoreEccUe else frameFault s i tag

/-- The bank that holds an ingress frame (R143): B for a network channel, C for a port; none for the frame memory. -/
def ingressBank (i : Nat) : Option Nat := if i < 0x2000 then some 2 else if i < 0x3000 then some 3 else none

/-- The read of a source's frame by a gather or the Bench, and what its ECC check finds (R159): the frame memory counts
for itself, an ingress frame lies in Bank B or C (R143, R359). -/
def readCheck (s : State) (rd : Reader) (i : Nat) (ecc : Ecc) : State :=
  match ecc, lookFor s rd i, expectedLag s rd i with
  | .corrected, .frame _ _, _ =>
    (match ingressBank i with
      | some b => fabEvent 0x0F 0xFF b 1 (s.addHold Ix.fabBankEccCe b 1)
      | none => s.addHold Ix.latEccCe 0 1)
  | .bad, .frame _ _, some lag =>
    let s1 := match ingressBank i with
      | some b => s.addWrap Ix.fabBankEccUe b 1
      | none => s
    frameFault s1 i (s.tick - lag)
  | _, _, _ => s

/-- The reads of a gather, with what their ECC checks find (R159). -/
def readsOf (s : State) (d : Nat) (q : LatReads) : State :=
  let s1 := match q.sel with
    | .ok => s
    | .corrected => s.addHold Ix.latEccCe 0 1
    | .bad => selFault s d
  let r := s1.dest d
  let s2 := readCheck s1 (readerOf s1 d) r.sel q.frame
  match r.take with
  | some t => readCheck s2 (readerOf s2 d) t.old q.old
  | none => s2

/-- Gather a destination's frame, with what the ECC checks of its reads find (R146, R159). -/
def gatherWith (s : State) (d : Nat) (q : LatReads) : State :=
  if (s.dest d).gathered || !destUsable s d then s else gatherDest (readsOf s d q) d

end Sys2Proof.Machine
end

