-- ==== Sys2Proof/Machine/Cue.lean ====
section
/-! DEFINITION. The cue stage (chapter 19): channels, checks, latches, protections, the sill and the boost. -/

namespace Sys2Proof.Machine

/-- A cue channel. -/
def cueOf (s : State) (n : Fin 2) : CueCh := if n = 0 then s.cue.ch0 else s.cue.ch1
def setCue (s : State) (n : Fin 2) (c : CueCh) : State :=
  if n = 0 then { s with cue := { s.cue with ch0 := c } } else { s with cue := { s.cue with ch1 := c } }

/-- CUE_STATE (R440). -/
abbrev CueS.off : Nat := 0
abbrev CueS.checking : Nat := 1
abbrev CueS.playing : Nat := 2
abbrev CueS.openLoop : Nat := 3
abbrev CueS.waiting : Nat := 4
abbrev CueS.locked : Nat := 5
abbrev CueS.shielded : Nat := 6

def cueState (s : State) (n : Fin 2) : Nat := s.nat Ix.cueState n.val
def setCueState (s : State) (n : Fin 2) (v : Nat) : State := s.setNat Ix.cueState n.val v

/-- The modulator of a channel runs. -/
def cuePlays (s : State) (n : Fin 2) : Bool := cueState s n == 2 || cueState s n == 3

/-- Count one of CUE_FAULTS (R440). -/
def cueFault (s : State) (n : Fin 2) (k : Nat) : State := s.addHold Ix.cueFaults (4 * n.val + k) 1

/-- The half-bridges of a channel go to high impedance at once, and what was under way is abandoned (R434, R437). -/
def cueSilence (s : State) (n : Fin 2) : State :=
  setCue s n { cueOf s n with fade := Fade.silent, startDue := false, next := .none }

/-- The start-up checks of R429 begin. `counts`: a failure counts as a retry. A protection that holds defers them
(R436, R437). -/
def cueChecks (s : State) (n : Fin 2) (counts : Bool) : State :=
  let c := cueOf s n
  let s1 := setCue s n { c with counts := counts, next := .none, startDue := false, fade := Fade.silent }
  setCueState s1 n (if c.supply || c.hot then CueS.shielded else CueS.checking)

/-- A channel without a retry left is LOCKED_OUT, else it waits for the next one (R435). -/
def cueWait (s : State) (n : Fin 2) (detail : Nat) : State :=
  if 3 ≤ s.nat Ix.cueRetries n.val then
    (setCueState s n CueS.locked).alarm (Al.cueLockout.src n.val) detail
  else setCueState (setCue s n { cueOf s n with since := s.clk.sysCounter }) n CueS.waiting

/-- A channel latches (R434): `detail` is the result code of the check, or 0xFF. With CUE_EN at 0 nothing waits
(R437). -/
def cueLatched (s : State) (n : Fin 2) (detail : Nat) : State :=
  let s1 := (cueFault (cueSilence s n) n 0).alarm (Al.cueShort.src n.val) detail
  if s.flag Ix.cueEn n.val then cueWait s1 n detail else setCueState s1 n CueS.off

/-- CUE_CHECKS_DONE (R429, R431, R435). A check that fails raises CUE_SHORT, the fourth too, which does not latch (R439). -/
def execCueChecksDone (ch : Fin 2) (code : Fin 6) (s : State) : Host.Outcome State Fault Refusal :=
  .next (if cueState s ch ≠ CueS.checking then s
    else
      let c := cueOf s ch
      let s1 := s.setNat Ix.cueCheckResult ch.val code.val
      if code.val = 0 ∨ code.val = 5 then
        let s2 := setCue s1 ch { c with startDue := true, fade := Fade.silent, next := .none, since := s1.clk.sysCounter }
        if code.val = 0 then setCueState s2 ch CueS.playing
        else ((cueFault (setCueState s2 ch CueS.openLoop) ch 1).alarm (Al.cueShort.src ch.val) code.val).alarm
          (Al.cueFbFault.src ch.val)
      else
        let r := s.nat Ix.cueRetries ch.val
        let s2 := if c.counts then s1.setNat Ix.cueRetries ch.val (min (r + 1) 3) else s1
        cueLatched s2 ch code.val)

/-- The channel's half-bridges are driven: it plays, or plays out a fade. -/
def cueDriven (s : State) (n : Fin 2) : Bool := cuePlays s n

/-- CUE_LATCH (R434, R437). -/
def execCueLatch (ch : Fin 2) (s : State) : Host.Outcome State Fault Refusal :=
  .next (if cueDriven s ch then cueLatched s ch 0xFF else s)

/-- CUE_RETRY (R435): 500 ms after the latch or the last failed retry, with no protection holding (R437). -/
def execCueRetry (ch : Fin 2) (s : State) : Host.Outcome State Fault Refusal :=
  let c := cueOf s ch
  let r := s.nat Ix.cueRetries ch.val
  .next (if cueState s ch = CueS.waiting ∧ !c.supply ∧ !c.hot ∧ r < 3 ∧ s.reached (c.since + 500000000) then
      cueChecks (s.setNat Ix.cueRetries ch.val (r + 1)) ch false
    else s)

/-- CUE_RETRY_COUNT_RESET (R435): after 60 s of playing without a latch. -/
def execCueRetryCountReset (ch : Fin 2) (s : State) : Host.Outcome State Fault Refusal :=
  .next (if cuePlays s ch && s.reached ((cueOf s ch).since + 60000000000) then s.setNat Ix.cueRetries ch.val 0 else s)

/-- CUE_OPEN_LOOP (R431). -/
def execCueOpenLoop (ch : Fin 2) (s : State) : Host.Outcome State Fault Refusal :=
  .next (if cueState s ch = CueS.playing then
      (cueFault (setCueState s ch CueS.openLoop) ch 1).alarm (Al.cueFbFault.src ch.val)
    else s)

/-- One report against CUE_Z_LIMITS (R433). -/
def judgeZ (s : State) (n : Fin 2) (mag : Nat) : State :=
  let c := cueOf s n
  let lim := s.nat Ix.cueZLimits n.val
  if mag < lim % 65536 ∨ lim / 65536 < mag then
    let warn := decide (3 ≤ c.zOut + 1) && !c.zWarned
    let s1 := setCue s n { c with zOut := min (c.zOut + 1) 3, zIn := 0, zWarned := c.zWarned || warn }
    if warn then (cueFault s1 n 3).alarm (Al.cueZWarn.src n.val) else s1
  else
    setCue s n { c with zOut := 0, zIn := min (c.zIn + 1) 3, zWarned := c.zWarned && decide (c.zIn + 1 < 3) }

/-- SILL_REPORT (R432, R433): while the modulator runs. -/
def execSillReport (ch : Fin 2) (mag phase : Half) (fosc : Word) (temp : Int) (bst pvdd : Half) (s : State) :
    Host.Outcome State Fault Refusal :=
  .next (if !cuePlays s ch then s
    else
      let s1 := s.setNat Ix.cueZ ch.val (mag.toNat + 65536 * phase.toNat)
      let s2 := (s1.setNat Ix.cueFosc ch.val fosc.toNat).setInt Ix.cueTemp ch.val temp
      judgeZ ((s2.setNat Ix.cueBstV 0 bst.toNat).setNat Ix.cuePvdd 0 pvdd.toNat) ch mag.toNat)

/-- A protection of R436 stops one channel under the standard fade-out: PROTECTED once it has ended. A channel whose
half-bridges are at high impedance is PROTECTED at once; one that waits for a retry waits on (R437). -/
def cueShield (s : State) (n : Fin 2) : State :=
  let c := cueOf s n
  if cuePlays s n then
    setCue s n { c with fade := fadeOut c.fade, startDue := false, next := if c.next = .off then .off else .shield }
  else if cueState s n = CueS.checking then setCueState (cueSilence s n) n CueS.shielded
  else s

/-- BST_OUT leaves its limits (R436): high impedance at once, and a return as from a latch, counted. -/
def cueBoostFault (s : State) (n : Fin 2) : State :=
  let st := cueState s n
  if cuePlays s n ∨ st = CueS.checking ∨ st = CueS.shielded then
    let s1 := cueFault (cueSilence s n) n 0
    if s.flag Ix.cueEn n.val then cueWait s1 n 0xFF else setCueState s1 n CueS.off
  else cueFault s n 0

/-- CUE_SUPPLY_FAULT (R436). -/
def execCueSupplyFault (boost : Bool) (s : State) : Host.Outcome State Fault Refusal :=
  let s1 := if !boost && s.cue.ch0.supply && s.cue.ch1.supply then s else s.alarm Al.cueSupply
  .next (if boost then cueBoostFault (cueBoostFault s1 0) 1
    else
      let s2 := cueShield (cueShield s1 0) 1
      let s3 := setCue s2 0 { cueOf s2 0 with supply := true }
      setCue s3 1 { cueOf s3 1 with supply := true })

/-- A channel comes back from its protections through the checks (R436); in WAITING the time to the next retry counts from
here (R437). -/
def cueReturn (s : State) (n : Fin 2) : State :=
  let c := cueOf s n
  if c.supply || c.hot then s
  else if cueState s n = CueS.shielded then
    if s.flag Ix.cueEn n.val then cueChecks s n false else setCueState s n CueS.off
  else if c.next = .shield then setCue s n { c with next := .check, counts := false }
  else if cueState s n = CueS.waiting then setCue s n { c with since := s.clk.sysCounter }
  else s

/-- CUE_SUPPLY_RETURN (R436). -/
def execCueSupplyReturn (s : State) : Host.Outcome State Fault Refusal :=
  let s1 := setCue s 0 { cueOf s 0 with supply := false }
  let s2 := setCue s1 1 { cueOf s1 1 with supply := false }
  .next (cueReturn (cueReturn s2 0) 1)

/-- CUE_THERMAL_FAULT (R436). -/
def execCueThermalFault (ch : Fin 2) (s : State) : Host.Outcome State Fault Refusal :=
  let s1 := (cueFault s ch 2).alarm (Al.cueThermal.src ch.val)
  let s2 := cueShield s1 ch
  .next (setCue s2 ch { cueOf s2 ch with hot := true })

/-- CUE_THERMAL_RETURN (R436). -/
def execCueThermalReturn (ch : Fin 2) (s : State) : Host.Outcome State Fault Refusal :=
  .next (cueReturn (setCue s ch { cueOf s ch with hot := false }) ch)

/-- CUE_FADE_END (R430, R436, R437): the fade-out has reached 0, and what waited for it follows. -/
def execCueFadeEnd (ch : Fin 2) (s : State) : Host.Outcome State Fault Refusal :=
  let c := cueOf s ch
  .next (if c.fade.mode != .silent then s
    else
      match c.next with
      | .none => s
      | .off => setCueState (cueSilence s ch) ch CueS.off
      | .shield => setCueState (cueSilence s ch) ch CueS.shielded
      | .check =>
        if s.flag Ix.cueEn ch.val then cueChecks s ch c.counts else setCueState (cueSilence s ch) ch CueS.off)

/-- CUE_CMD acts on a channel (R437): 1 CLEAR, 2 RECHECK. Both are ignored while CUE_EN is 0. -/
def cueCommand (s : State) (n : Fin 2) (cmd : Nat) : State :=
  let c := cueOf s n
  let st := cueState s n
  if !s.flag Ix.cueEn n.val then s
  else if st = CueS.locked then
    if cmd = 1 then cueChecks (s.setNat Ix.cueRetries n.val 0) n false else s
  else if cuePlays s n then
    setCue s n { c with fade := fadeOut c.fade, startDue := false, next := if c.next = .shield then .shield else .check
                        counts := false }
  else if st = CueS.waiting ∨ st = CueS.checking then cueChecks s n false
  else s

/-- CUE_EN has landed (R429, R430, R437). -/
def landCueEn (s : State) (n : Fin 2) (was : Bool) : State :=
  let c := cueOf s n
  let st := cueState s n
  let now := s.flag Ix.cueEn n.val
  if now = was ∨ st = CueS.locked then s
  else if now then
    if st = CueS.off then cueChecks s n true
    else if c.next = .off then setCue s n { c with next := .check, counts := true }
    else s
  else if cuePlays s n then setCue s n { c with fade := fadeOut c.fade, startDue := false, next := .off }
  else setCueState (cueSilence s n) n CueS.off

/-- The gain of a channel in microvolts at sample `k` of its move (R426). -/
def cueGainAt (fromV toV k : Nat) : Nat :=
  if 256 ≤ k then toV else ((fromV : Int) + ((toV : Int) - fromV) * k / 256).toNat

/-- CUE_FS_VPK of a channel, in microvolts. -/
def cueVpk (s : State) (n : Fin 2) : Nat := 100000 * s.nat Ix.cueFsVpk n.val

/-- CUE_FS_VPK has landed (R426): the gain moves linearly over 256 samples. `was` is the value before it. -/
def landCueVpk (s : State) (n : Fin 2) (was : Nat) : State :=
  let c := cueOf s n
  setCue s n { c with fromV := cueGainAt c.fromV (100000 * was) c.k, k := 0 }

/-- The larger of a channel's old and new full scale while its gain moves (R426). -/
def cueTop (s : State) (n : Fin 2) : Nat :=
  let c := cueOf s n
  if 256 ≤ c.k then cueVpk s n else max c.fromV (cueVpk s n)

/-- The rise of the boost per sample, in microvolts (R428). -/
def boostSlope (s : State) : Nat := 50000000000 / s.fs

/-- v_min in microvolts (R428). -/
def cueVmin (s : State) : Nat :=
  let top := max (cueTop s 0) (cueTop s 1)
  max 14000000 (top * 101 / 100 + 1400000 - 50000000000 * (s.ticklen + 3) / s.fs)

/-- The need of a sample of a channel, in microvolts (R428). -/
def cueNeed (top : Nat) (y : Int) : Nat := y.natAbs * top * 101 / (100 * 8388608) + 1400000

/-- The target of R428 at a sample, given the needs from it on. -/
def boostTarget (vmin slope l : Nat) (needs : List Nat) : Nat :=
  min 26000000 (((needs.take (l + 1)).zipIdx.foldl (fun m x => max m (x.1 - slope * x.2)) vmin))

/-- The planned rail over `n` samples (R428). -/
def railRun (fs vmin slope l : Nat) : Nat → List Nat → Nat → Nat
  | 0, _, rail => rail
  | n + 1, needs, rail =>
    let t := boostTarget vmin slope l needs
    let r := if rail ≤ t then min t (rail + slope) else max t (Config.boostDecay rail t fs)
    railRun fs vmin slope l n (needs.drop 1) r

/-- The 24-bit samples of a cue destination's frame handed over in this tick (R24, R424). -/
def cueFrame (s : State) (n : Fin 2) : List Int :=
  let r := s.dest (0x4000 + n.val)
  if r.converted then r.egress.map (fun w => (convertOut 24 w).1) else List.replicate s.ticklen 0

/-- The microvolts of a channel's samples under its fade and gain. -/
def cueSamples (toV : Nat) : List Int → CueCh → List Int × CueCh
  | [], c => ([], c)
  | y :: t, c =>
    let (g, f) := fadeStep c.fade
    let v := cueGainAt c.fromV toV c.k
    let (r, c1) := cueSamples toV t { c with fade := f, k := min (c.k + 1) 256 }
    ((y * g * v) / (134217728 * 8388608) :: r, c1)

/-- The frame a channel plays in this tick, of those handed over in the last two (R424). -/
def cueNow (s : State) (n : Fin 2) : List Int :=
  let c := cueOf s n
  let l := if (s.dest (0x4000 + n.val)).clsNow = 0 then c.held2 else c.held1
  if l.isEmpty then List.replicate s.ticklen 0 else l

/-- The frames a channel plays in this tick and the next two, as far as they are known. -/
def cueAhead (s : State) (n : Fin 2) : List Int :=
  let c := cueOf s n
  let pad (l : List Int) : List Int := if l.isEmpty then List.replicate s.ticklen 0 else l
  if (s.dest (0x4000 + n.val)).clsNow = 0 then pad c.held2 ++ pad c.held1 ++ cueFrame s n
  else pad c.held1 ++ cueFrame s n

/-- A channel plays its tick (R424, R426, R430). -/
def cueChannelTick (s : State) (n : Fin 2) : State :=
  let c := cueOf s n
  let fresh := cueFrame s n
  let (v, c1) := cueSamples (cueVpk s n) (cueNow s n) c
  let c2 := { c1 with held1 := fresh, held2 := c.held1
                      fade := if c1.startDue then fadeIn c1.fade else c1.fade, startDue := false }
  let s1 := setCue s n c2
  if cuePlays s n then s1.emit (.cue n.val s.tick v) else s1

/-- The larger need of the two channels, sample by sample. -/
def needsOf (a b : List Nat) : List Nat :=
  (upFrom 0 (max a.length b.length)).map (fun i => max (listGet 0 i a) (listGet 0 i b))

/-- The cue stage at the end of a tick (R424 to R430). The boost stops when neither channel plays. -/
def cueTick (s : State) : State :=
  let needs := needsOf ((cueAhead s 0).map (cueNeed (cueTop s 0))) ((cueAhead s 1).map (cueNeed (cueTop s 1)))
  let vmin := cueVmin s
  let on := cuePlays s 0 || cuePlays s 1
  let rail := if on then railRun s.fs vmin (boostSlope s) (s.ticklen + 3) s.ticklen needs s.cue.rail else vmin
  let s1 := { s with cue := { s.cue with rail := rail } }
  (cueChannelTick (cueChannelTick s1 0) 1).setNat Ix.cueBstVmin 0 (ceilDiv vmin 10000)

end Sys2Proof.Machine
end

