-- ==== Sys2Proof/Machine/DelayOps.lean ====
section
/-! DEFINITION. The delay store: lines, their load and window (R365, R368), and the streamer's writes and
reads (R366, R367, R369). -/

namespace Sys2Proof.Machine

/-- A byte of fabric memory (R353): 0 where nothing has written it. -/
def memByte (s : State) (a : Nat) : Byte := mapGet (fun _ => 0) a s.fab.mem
/-- Write one byte of fabric memory. -/
def setMemByte (s : State) (a : Nat) (b : Byte) : State :=
  { s with fab := { s.fab with mem := mapSet (fun _ => 0) a b s.fab.mem } }
/-- Write bytes from an address on. -/
def setMemBytes (s : State) (a : Nat) : List Byte → State
  | [] => s
  | b :: t => setMemBytes (setMemByte s a b) (a + 1) t
/-- Read `n` bytes from an address on. -/
def memBytes (s : State) (a n : Nat) : List Byte := (upFrom a n).map (memByte s)

/-- The fabric address of the delay store (R364). -/
def dlyStore : Nat := 0x1024000000

/-- The size of the delay store in bytes (R364). -/
def dlyStoreBytes (s : State) : Nat := s.nat Ix.fabDlyStoreSize * 1048576

/-- The fields of the line objects (R371). -/
def dlyBase (s : State) (l : Nat) : Nat := s.nat Ix.fabDlyBase l
def dlyLen (s : State) (l : Nat) : Nat := s.nat Ix.fabDlyLen l
def dlyIn (s : State) (l : Nat) : Nat := s.nat Ix.fabDlyIn l % 65536
def dlySecond (s : State) (l : Nat) : Bool := (s.nat Ix.fabDlyIn l).testBit 16
def dlyOn (s : State) (l : Nat) : Bool := (s.nat Ix.fabDlyIn l).testBit 31
def dlyOut (s : State) (l : Nat) : Nat := s.nat Ix.fabDlyOut l % 65536
def dlyBack (s : State) (l : Nat) : Nat := s.nat Ix.fabDlyOut l / 65536 % 64
def dlyDelay (s : State) (l : Nat) : Nat := s.nat Ix.fabDlyDelay l

/-- Bursts a line costs each tick (R368). -/
def dlyCost (ticklen back : Nat) : Nat := max 1 (ticklen / 16) + ((ticklen + back + 14) / 16 + 1)

/-- FAB_DLY_BUDGET under a plan (R368). -/
def dlyBudget (b : Nat) (plan : List Nat) : Nat :=
  let d2 := listGet 0 5 plan
  let d4 := listGet 0 9 plan
  let p1 := listGet 0 3 plan
  45 * min (b - d2 + p1) (b - d4 + d2) / 100

/-- Bursts per tick of the enabled lines at a TICKLEN (R371). -/
def dlyLoad (s : State) (ticklen : Nat) : Nat :=
  s.fab.dly.foldl (fun n l => n + dlyCost ticklen (dlyBack s l.1)) 0

/-- The lines of a place's section, in line order. -/
def linesOf (s : State) (place : Fin 16) (second : Bool) : List Nat :=
  (s.fab.dly.filter (fun l => l.1 / 256 == place.val && dlySecond s l.1 == second)).map (fun l => l.1)

/-- The DRAM address of word `i` of a line. -/
def dlyAddr (s : State) (l i : Nat) : Nat := dlyStore + 64 * dlyBase s l + 4 * i

/-- Count bytes moved on the channel of a DRAM address, within one stretch of 256 bytes: the channels alternate (R362). -/
def countOn (s : State) (a n : Nat) : State :=
  if a / 256 % 2 = 0 then { s with fab := { s.fab with moved0 := s.fab.moved0 + n } }
  else { s with fab := { s.fab with moved1 := s.fab.moved1 + n } }

/-- Count the bytes of an access, each on its channel: an access of at most 256 bytes meets at most two (R362). -/
def countMoved (s : State) (a n : Nat) : State :=
  let first := min n (256 - a % 256)
  if first = n then countOn s a n else countOn (countOn s a first) (a + first) (n - first)

/-- Write the words of a frame into a line's ring from index `w` on (R366). -/
def dlyWrite (s : State) (l w : Nat) : List Word → State
  | [] => s
  | v :: t => dlyWrite (setMemBytes s (dlyAddr s l (w % dlyLen s l)) (bytesLE 4 v.toNat)) l (w + 1) t

/-- The delay streamer of an engine moves the words at some addresses: bytes on each channel, and bursts, counted as
those that its words lie in (DEDUCED, assumption 117). -/
def dlyMoved (s : State) (e : Fin 16) (write : Bool) (as : List Nat) : State :=
  let bs := as.foldl (fun l a => if l.contains (a / 64) then l else l ++ [a / 64]) []
  let s1 := dramBursts (0x10 + e.val) write bs (as.foldl (fun t a => countMoved t a 4) s)
  bs.foldl (fun t b => fabEvent 0x0E (0x10 + e.val) (0x0B + b / 4 % 2) 1 t) s1

/-- The word a line's ring gives at index `w' + j − D − E`, before the ring's modulus (R366): `ago` samples
before the write index, 0 where the ring does not hold it. -/
def dlyWord (s : State) (l : Nat) (r : DlyLine) (ago : Nat) : Word :=
  if ago ≤ r.n ∧ 0 < ago then
    let len := dlyLen s l
    BitVec.ofNat 32 (natLE (memBytes s (dlyAddr s l ((r.w + len - ago % len) % len)) 4))
  else 0

/-- Words of X memory from an address on, as the other port reads them. -/
def xWords (e : Engine) (a n : Nat) : List Word :=
  (upFrom a n).map (fun k => otherRead false (k % 65536) e)

/-- Write words into X memory from an address on. -/
def putX (a : Nat) : List Word → Engine → Engine
  | [], e => e
  | w :: t, e => putX (a + 1) t (otherWrite false false a w e)

/-- An engine is the shadow of a place: it holds the copy of a warm move (R379, R380). -/
def isShadow (s : State) (eng : Fin 16) : Bool :=
  match s.rsv.move with
  | some m => m.leaf == eng && m.step == .copied
  | none => false

/-- The engines that keep the counters of a place: its own, and from the copy of a move on the leaf (R395). -/
def countersOf (s : State) (p : Fin 16) : List (Fin 16) :=
  match s.rsv.move with
  | some m => if m.req.place == p && m.step == .copied then [engineOf s p, m.leaf] else [engineOf s p]
  | none => [engineOf s p]

/-- Change the counters of a place (R395, R405). -/
def eachPmu (s : State) (p : Fin 16) (f : EngPmu → EngPmu) : State :=
  (countersOf s p).foldl (fun t n =>
    let e := t.engine n
    t.setEngine n { e with loc := { e.loc with pmu := f e.loc.pmu } }) s

/-- The engines that take a place's inputs: its own, and its shadow in the shadow ticks (R144, R380). -/
def feedsOf (s : State) (p : Fin 16) : List (Fin 16) :=
  match s.rsv.move with
  | some m =>
    if m.req.place == p && m.step == .copied && decide (m.tx ≤ s.tick) then [engineOf s p, m.leaf]
    else [engineOf s p]
  | none => [engineOf s p]

/-- One line's work of a tick: write the frame, advance w, read TICKLEN + E words into the read window
(R366). `late` marks a read that does not complete: its window keeps the words of the tick before (R369). `bad` marks an
input frame whose read is answered by an error, with words of zero (R57, R351). The streamer of a shadow reads, and does not
write. -/
def streamLine (s : State) (p : Fin 16) (l : Nat) (late bad : Bool) : State :=
  match mapFind l s.fab.dly with
  | none => s
  | some r =>
    let n := s.ticklen
    let len := dlyLen s l
    let e := engineOf s p
    let s0 := dlyMoved s e true ((upFrom r.w n).map (fun i => dlyAddr s l (i % len)))
    let s1 := dlyWrite s0 l r.w (if bad then List.replicate n 0 else xWords (s.engine e) (dlyIn s l) n)
    let r1 : DlyLine := { w := (r.w + n) % len, n := min (r.n + n) len }
    let s2 := { s1 with fab := { s1.fab with
                                 dly := mapPut l r1 s1.fab.dly
                                 dlyLate := s1.fab.dlyLate.filter (fun x => x != l) ++ (if late then [l] else []) } }
    if late then s2
    else
      let d := dlyDelay s2 l
      let back := dlyBack s2 l
      let ws := (upFrom 0 (n + back)).map (fun j => dlyWord s2 l r1 (d + back - j))
      let as := (upFrom 0 (n + back)).map (fun j => dlyAddr s2 l ((r1.w + j + len - (d + back) % len) % len))
      (feedsOf s2 p).foldl (fun s e => dlyMoved (s.setEngine e (putX (dlyOut s l) ws (s.engine e))) e false as) s2

/-- A section of a place is done: its lines are due for streaming (R366). -/
def dlySectionDone (s : State) (p : Fin 16) (second : Bool) : State :=
  let k := 2 * p.val + (if second then 1 else 0)
  { s with fab := { s.fab with dlyDue := s.fab.dlyDue.filter (fun x => x != k) ++ [k] } }

/-- A section opens: each line of it whose read is not complete raises FAB_DELAY_LATE (R369). -/
def dlyOpen (s : State) (p : Fin 16) (second : Bool) : State :=
  let k := 2 * p.val + (if second then 1 else 0)
  let due := s.fab.dlyDue.contains k
  let late := (linesOf s p second).filter (fun l => due || s.fab.dlyLate.contains l)
  let s1 := late.foldl (fun s l => s.alarm (Al.fabDelayLate.src (0x10 + p.val)) (l % 256)) s
  { s1 with fab := { s1.fab with dlyDue := s1.fab.dlyDue.filter (fun x => x != k)
                                 lateNow := s1.fab.lateNow ++ late
                                 dlyLate := s1.fab.dlyLate.filter (fun l => !late.contains l) } }

/-- A place starts: its lines read as 0 until they are written again (R366, R382). -/
def dlyPlaceStart (s : State) (p : Fin 16) : State :=
  { s with fab := { s.fab with
      dly := s.fab.dly.map (fun l => if l.1 / 256 == p.val then (l.1, { l.2 with n := 0 }) else l)
      dlyLate := s.fab.dlyLate.filter (fun l => l / 256 != p.val)
      dlyDue := s.fab.dlyDue.filter (fun k => k / 2 != p.val) } }

end Sys2Proof.Machine
end

