-- ==== Sys2Proof/Machine/LinkOps.lean ====
section
/-! DEFINITION. What a unit sends over the Unrus link: frames in sequence (R321, R322), mirror records in their
wire form (R332), and change records (R168). -/

namespace Sys2Proof.Machine

/-- The unit is one half of a pair (R324). -/
def State.paired (s : State) : Bool := s.nat Ix.pairMode == 1
/-- The link is up (R344). -/
def unrusUp (s : State) : Bool := (s.nat Ix.pairLink).testBit 7
/-- The partner's role in its last HEARTBEAT (R344). -/
def peerRole (s : State) : Nat := s.nat Ix.pairPeerRole % 4

/-- The door-holder mirrors to a partner whose resync has begun (R330, R342). -/
def mirrorsNow (s : State) : Bool :=
  s.paired && s.isDoor && s.pair.snapSent && (peerRole s == 1 || peerRole s == 2)

/-- Bytes padded with zeros to a multiple of `m`. -/
def padTo (m : Nat) (b : List Byte) : List Byte :=
  b ++ List.replicate ((m - b.length % m) % m) 0

/-- The value of an object in wire form (R185). -/
def wireOf (ix sub : Nat) (v : Val) (keyed : Bool := false) : WireVal :=
  let ty := match objRow ix with
    | some r => r.ty
    | none => .u32
  let b := match v with
    | .bytes b => if ty = .domain then Config.sha256 b else ty.wire v
    | _ => ty.wire v
  { index := BitVec.ofNat 16 ix, ty := BitVec.ofNat 8 ty.code, sub := sub, keyed := keyed, value := b }

/-- The number of change records a value takes (R167). -/
def recordsOf (v : Val) : Nat :=
  match v with
  | .bytes b => 1 + ceilDiv b.length 16
  | .time _ _ => 2
  | .int _ => 1

/-- The change records of one change (R168). -/
def changeBytes (c : Change) : List Byte :=
  let w := wireOf c.ix c.sub c.val
  let ext := recordsOf c.val != 1
  let raw := match c.val with
    | .bytes b => b
    | .time a n => bytesLE 6 a ++ bytesLE 4 n
    | .int _ => []
  bytesLE 4 (c.sub + 16777216 * w.ty.toNat) ++
    bytesLE 4 (c.ix + (if c.keyed then 65536 else 0) + (if ext then 131072 else 0)) ++
    bytesLE 8 (if ext then raw.length else unsignedOf 64 c.val.toInt) ++ padTo 16 raw

/-- The change records of a list of changes. -/
def changesBytes : List Change → List Byte
  | [] => []
  | c :: t => changeBytes c ++ changesBytes t

/-- A mirror record with its header (R332). -/
def record (kind gen tick : Nat) (body : List Byte) : List Byte :=
  let b := padTo 8 body
  bytesLE 2 kind ++ bytesLE 2 (16 + b.length) ++ bytesLE 4 gen ++ bytesLE 8 tick ++ b

/-- The payload of a BULK frame in bytes: what it carries, with 16 bytes of its own (DESIGN CHOICE, assumption 149: the spec
does not state its layout). -/
def partBytes (p : BulkPart) : Nat :=
  let wires (ws : List WireVal) : Nat := (ws.map (fun w => 8 + w.value.length)).sum
  16 + (match p with
    | .value w => w.value.length
    | .domain _ _ d => d.length
    | .piece _ _ _ _ d => d.length
    | .pending _ _ ws => wires ws
    | .openSet _ _ ws => wires ws
    | .limiters l => 24 * l.length
    | .region _ _ ws _ _ => 4 * ws.length
    | _ => 0)

/-- The bytes a frame takes in Bank E: header, payload and CRC (R321, R322). -/
def frameBytes (u : Unacked) : Nat :=
  20 + (match u.bulk with
    | some p => partBytes p
    | none => u.payload.length)

/-- The frame on the link. -/
def frameOut (flags tick : Nat) (u : Unacked) : Output :=
  match u.bulk with
  | some part => .bulk flags u.seq tick part
  | none => .unrus u.ty flags u.seq tick u.payload

/-- The frames waiting for acknowledgement in Bank E, in bytes (R322). -/
def bankUsed (us : List Unacked) : Nat := ((us.filter (fun u => u.sent)).map frameBytes).sum

/-- Send a frame of the shared sequence (R322): it is held in Bank E until it is acknowledged. While that bank has no room for
it, it waits there for acknowledgements with those before it. -/
def sendUnit (s : State) (ty : Nat) (payload : List Byte) (bulk : Option BulkPart) : State :=
  let n := (s.pair.seqOut + 1) % 4294967296
  let u : Unacked := { seq := n, ty := ty, tick := s.tick, payload := payload, bulk := bulk, sent := false }
  let fits := s.pair.unacked.all (fun v => v.sent) && decide (bankUsed s.pair.unacked + frameBytes u ≤ 4194304)
  { (if fits then s.emit (frameOut 0 s.tick u) else s) with
    pair := { s.pair with seqOut := n
                          ackTick := if s.pair.unacked.isEmpty then s.tick else s.pair.ackTick
                          unacked := s.pair.unacked ++ [{ u with sent := fits }] } }

/-- Send a frame of types 0x02, 0x03 or 0x05. -/
def sendFrame (s : State) (ty : Nat) (payload : List Byte) : State := sendUnit s ty payload none
/-- Send a BULK frame (R341, R342). -/
def sendBulk (s : State) (part : BulkPart) : State := sendUnit s 4 [] (some part)

/-- The frames that wait and now find room, in order, with the list as it then stands. -/
def drainBank (tick : Nat) : List Unacked → Nat → List Unacked × List Unacked
  | [], _ => ([], [])
  | u :: t, used =>
    if u.sent then
      let (all, now) := drainBank tick t used
      (u :: all, now)
    else if used + frameBytes u ≤ 4194304 then
      let (all, now) := drainBank tick t (used + frameBytes u)
      ({ u with sent := true, tick := tick } :: all, u :: now)
    else (u :: t, [])

/-- A list in pieces of `n`; `fuel` bounds their number. -/
def piecesOf {α : Type} (n : Nat) : Nat → List α → List (List α)
  | 0, _ => []
  | fuel + 1, l => if l.length ≤ n then [l] else l.take n :: piecesOf n fuel (l.drop n)

/-- What a BULK frame is to carry, in parts of which each fits a frame of at most 8,192 bytes (R321): pieces of 8,176 bytes
of a DOMAIN value, and changes of a commit or a set 30 to a frame, whose values hold at most 255 bytes each. -/
def splitPart (p : BulkPart) : List BulkPart :=
  match p with
  | .domain ix sub d =>
    if d.length ≤ 8176 then [p]
    else
      let ds := piecesOf 8176 (d.length / 8176 + 1) d
      ((upFrom 0 ds.length).zip ds).map (fun e => .piece ix sub d.length (8176 * e.1) e.2)
  | .pending id land ws => (piecesOf 30 (ws.length / 30 + 1) ws).map (fun l => .pending id land l)
  | .openSet set slot ws => (piecesOf 30 (ws.length / 30 + 1) ws).map (fun l => .openSet set slot l)
  | _ => [p]

/-- Mirror one record, where the unit mirrors at all. -/
def mirror (s : State) (kind gen tick : Nat) (body : List Byte) : State :=
  if mirrorsNow s && !s.sec.hkHalted then sendFrame s 0x02 (record kind gen tick body) else s

/-- WRITE, or for a DOMAIN value the value in a BULK frame and its DOMAIN record (R330, R332). -/
def mirrorWrite (s : State) (gen tick ix sub : Nat) (v : Val) : State :=
  let w := wireOf ix sub v
  if w.ty = 0x0E then
    mirror (if mirrorsNow s then (splitPart (.domain ix sub v.toBytes)).foldl sendBulk s else s) 0x09 gen tick (bytesLE 2 ix ++ [0, 0] ++ bytesLE 4 sub ++ bytesLE 4 v.toBytes.length ++ [0, 0, 0, 0] ++ w.value)
  else mirror s 0x01 gen tick (bytesLE 2 ix ++ [w.ty, 0] ++ bytesLE 4 sub ++ w.value)

/-- STAGE of changes into a set (R332), in records that fit a frame (R321): 28 changes to a record, of which each takes at most
288 bytes. -/
def mirrorStage (s : State) (set slot : Nat) (cs : List Change) : State :=
  (piecesOf 28 (cs.length / 28 + 1) cs).foldl (fun t l =>
    mirror t 0x02 0 t.tick (bytesLE 1 set ++ bytesLE 1 slot ++ List.replicate 6 0 ++ changesBytes l)) s
/-- SET_END (R332): 0 committed, 1 aborted, 2 session closed, 3 ECC. -/
def mirrorSetEnd (s : State) (set reason id : Nat) : State :=
  mirror s 0x03 0 s.tick (bytesLE 1 set ++ bytesLE 1 reason ++ [0, 0] ++ bytesLE 4 id)
/-- COMMIT (R332). -/
def mirrorCommit (s : State) (id set land : Nat) : State :=
  mirror s 0x04 0 s.tick (bytesLE 4 id ++ bytesLE 1 set ++ [0, 0, 0] ++ bytesLE 8 land)
/-- COMMIT_END (R332). -/
def mirrorCommitEnd (s : State) (gen id code : Nat) : State :=
  mirror s 0x05 gen s.tick (bytesLE 4 id ++ bytesLE 1 code ++ [0, 0, 0])

/-- An object lies in a pair range (R326). -/
def pairIndex (ix : Nat) : Bool :=
  (decide (0x0100 ≤ ix) && decide (ix ≤ 0x07FF)) || (decide (0x0900 ≤ ix) && decide (ix ≤ 0x0AFF)) ||
    (decide (0x0B40 ≤ ix) && decide (ix ≤ 0x0CFF)) || (decide (0x1110 ≤ ix) && decide (ix ≤ 0x1115))

/-- A pair object: writable, other than WO, in a pair range (R326). -/
def isPairObj (ix : Nat) : Bool :=
  pairIndex ix && (match objRow ix with
    | some r => r.acc != .ro && r.acc != .wo
    | none => false)

/-- HOUSE_RATE and TICKLEN: their values enter the dictionary where the new grid applies (R37, R163). -/
def isGrid (ix : Nat) : Bool := ix == Ix.houseRate || ix == Ix.ticklen

/-- Order of generations (R163): `a` is lower than `b`. -/
def genLower (a b : Nat) : Bool :=
  let d := (b + 4294967296 - a) % 4294967296
  decide (1 ≤ d) && decide (d ≤ 2147483647)

/-- The generation a direct write to a pair object will land with, as the mirror sends it ahead (R162, R332). -/
def comingGen (s : State) (land : Nat) : Nat :=
  let commits := (s.shut.pend.filter (fun p => decide (s.tick < p.tick) && decide (p.tick ≤ land))).length
  let writes := (s.writes.filter (fun w => isPairObj w.ix && !isGrid w.ix)).length
  (s.nat Ix.shutGen + commits + writes + 1) % 4294967296

/-- A direct write is accepted (R163): it waits for its boundary, and the mirror takes it ahead of its landing where the
object is mirrored (R330, R332). -/
def directWrite (s : State) (w : DirectWrite) : State :=
  let s1 := if isPairObj w.ix then mirrorWrite s (comingGen s w.after) w.after w.ix w.sub w.val else s
  { s1 with writes := s1.writes ++ [w] }

/-- The pair object values that differ from their defaults (R334, R342), by index and then subindex. -/
def pairValues (s : State) : List (Nat × Nat × Val) :=
  (s.dict.filter (fun p => isPairObj (p.1 / 16777216))).map (fun p => (p.1 / 16777216, p.1 % 16777216, p.2))

/-- The serialisation of the mirrored state (R334). -/
def digestBytes (s : State) : List Byte :=
  let vals := (pairValues s).flatMap (fun p =>
    let w := wireOf p.1 p.2.1 p.2.2
    bytesLE 2 p.1 ++ bytesLE 4 p.2.1 ++ [w.ty] ++ w.value)
  let ids := (s.shut.pend.map (fun p => p.id)).mergeSort (fun a b => decide (a ≤ b))
  let pend := ids.flatMap (fun i =>
    match s.shut.pend.find? (fun p => p.id == i) with
    | some p => bytesLE 4 i ++ bytesLE 8 p.tick ++ changesBytes p.changes
    | none => [])
  vals ++ pend

/-- The mirror digest of the generation the unit has reached (R334). -/
def mirrorDigest (s : State) : List Byte := Config.sha256 (digestBytes s)

/-- Keep the digest of the generation reached, among those of the last 256 generations. While a comparison at that
generation is under way, its digest stays. -/
def keepDigest (s : State) : State :=
  let g := s.nat Ix.shutGen
  let has := s.pair.past.any (fun p => p.1 == g)
  if has && (s.pair.asked == some g || (s.pair.theirs.map (fun t => t.1)) == some g) then s
  else { s with pair := { s.pair with past := ((g, mirrorDigest s) :: s.pair.past.filter (fun p => p.1 != g)).take 256 } }

/-- A digest comparison begins at the generation reached (R334). -/
def askDigest (s : State) : State :=
  let s1 := keepDigest s
  { s1 with pair := { s1.pair with asked := some (s1.nat Ix.shutGen) } }

end Sys2Proof.Machine
end

