-- ==== Sys2Proof/Machine/BankOps.lean ====
section
/-! DEFINITION. What the blocks keep in Banks B to E (R356, R360), as the matrix port reads it. -/

namespace Sys2Proof.Machine

/-- A block of a channel buffer: its header and its samples from word 8 on (R216). -/
def blockBytes (b : Block) : List Byte :=
  let h := b.hdr
  let flags := (if h.npcm then 1 else 0) + (if h.concealed then 2 else 0) + (if h.fading then 4 else 0) + (if h.silent then 8 else 0)
  bytesLE 8 h.tick ++ bytesLE 8 h.stamp ++ bytesLE 4 flags ++ List.replicate 12 0 ++ b.words.flatMap (fun w => bytesLE 4 w.toNat)

/-- The channel buffers of the network channels, or of the ports (R215, R245). -/
def bufferBytes (s : State) (net : Bool) : List Byte :=
  (s.port.blocks.filter (fun p => decide (p.1 % 32768 < 0x2000) == net)).flatMap (fun p => p.2.flatMap blockBytes)

/-- What a block keeps in bank `k`: the network's channel rings and blocks in B (R241), the port buffers in C (R215), change
records of open sets and pending commits in D (R167), frames that await the partner's acknowledgement in E (R322). -/
def bankBytes (s : State) (k : Fin 5) : List Byte :=
  if k = 1 then
    s.net.rx.flatMap (fun r => r.2.got.flatMap (fun g => g.2.raw.flatMap (bytesLE 4))) ++ bufferBytes s true
  else if k = 2 then bufferBytes s false
  else if k = 3 then s.shut.sets.flatMap (fun x => changesBytes x.2.changes) ++ s.shut.pend.flatMap (fun p => changesBytes p.changes)
  else if k = 4 then (s.pair.unacked.filter (fun u => u.sent)).flatMap (fun r => r.payload)
  else []

/-- A byte of a bank as the matrix port reads it (R360): the device places what the owner keeps there; every other byte is
plain memory. -/
def bankByte (s : State) (k : Fin 5) (a : Nat) : Byte :=
  match Config.bankPlace a with
  | some j => listGet (memByte s a) j (bankBytes s k)
  | none => memByte s a

/-- A byte of DRAM: the stored copies of loaded images lie in the system region, at places the spec does not give (R364). -/
def dramByte (s : State) (a : Nat) : Byte :=
  if a < 0x1000000000 + 0x20000000 then
    match Config.bankPlace a with
    | some j => listGet (memByte s a) j ((List.finRange 16).flatMap (fun n => ((s.engine n).image.map (fun im => im.raw)).getD []))
    | none => memByte s a
  else memByte s a

/-- Read `n` bytes of a bank. Bank A is the housekeeping controller's plain memory. -/
def bankRead (s : State) (k : Fin 5) (a n : Nat) : List Byte :=
  if k = 0 then memBytes s a n else (upFrom a n).map (bankByte s k)

end Sys2Proof.Machine
end

