-- ==== Sys2Proof/Machine/BenchOps.lean ====
section
/-! DEFINITION. The Bench: crosspoint records, moves (R124 to R126), the sum of a bus (R116 to R118, R121), its
capacity (R128 to R130) and the end of P3. -/

namespace Sys2Proof.Machine

/-- The record of crosspoint `i` (R120). -/
def xpOf (s : State) (i : Nat) : Xp := mapGet (fun _ => Xp.reset) i s.bench.xps

/-- STATE of a record (R120). -/
def xpStateCode (x : Xp) : Nat :=
  (match x.state with
    | .off => 0
    | .steady => 1
    | .moving => 2
    | .releasing => 3) + (if x.fault then 128 else 0)

/-- Replace a record, with what XP_GAIN_NOW and XP_STATE report of it; a record that changed is handed to the
mirror (R119). -/
def setXp (s : State) (i : Nat) (x : Xp) : State :=
  if x = xpOf s i then s
  else
    let b := s.bench
    let s1 := { s with bench := { b with xps := mapSet (fun _ => Xp.reset) i x b.xps
                                         dirty := b.dirty.filter (fun k => k != i) ++ [i] } }
    (s1.setInt Ix.xpGainNow i x.cur).setNat Ix.xpState i (xpStateCode x)

/-- The four words of a record (R120). -/
def xpWords (x : Xp) : List Word :=
  let st := xpStateCode x % 4
  [BitVec.ofNat 32 (x.src % 32768 + (if x.en then 32768 else 0) + x.bus % 1024 * 65536 + x.mode % 4 * 67108864 +
      st * 268435456 + (if x.lastNeg then 1073741824 else 0) + (if x.fault then 2147483648 else 0)),
   BitVec.ofInt 32 x.cur, BitVec.ofInt 32 x.tgt, BitVec.ofNat 32 (x.rem % 65536 + x.rlen % 65536 * 65536)]

/-- The linear gain the dictionary gives crosspoint `i` (R122). -/
def xpGainOf (s : State) (i : Nat) : Int := gainOf (s.int Ix.xpGain i) (s.flag Ix.xpPol i)

/-- T, the samples of the ZC timeout (R125). -/
def zcSamples (s : State) : Nat := (s.nat Ix.zcTimeout * s.fs + 500) / 1000

/-- Start a move to `tgt` under `mode` (R125). -/
def xpMove (x : Xp) (st : XpState) (mode zc : Nat) (tgt : Int) : Xp :=
  { x with state := st, mode := mode, tgt := tgt
           rem := if mode = 0 then 0 else if mode = 1 then zc else x.rlen }

/-- What the landings of a boundary make of a crosspoint (R124, R126): `p` is how it stood before them, the
dictionary holds what they wrote. A record in fault that XP_EN, XP_SRC or XP_BUS was written to is rewritten
as an OFF record (R137); an OFF record starts at a write XP_EN := 1. -/
def xpLanded (s : State) (i : Nat) (p : XpPre) : Xp :=
  let wrote (ix : Nat) : Bool := p.wrote.contains ix
  let config := wrote Ix.xpEn || wrote Ix.xpSrc || wrote Ix.xpBus
  let renew := p.was.fault && config
  let x0 : Xp := if renew then
      { p.was with fault := false, state := .off, cur := 0, tgt := xpGainOf s i, rem := 0, mode := s.nat Ix.xpMode i }
    else p.was
  let en := s.flag Ix.xpEn i
  let start := en && (!p.en || (wrote Ix.xpEn && x0.state == .off))
  let g := xpGainOf s i
  let mode := s.nat Ix.xpMode i
  let zc := zcSamples s
  let x1 : Xp := { x0 with en := en, rlen := s.nat Ix.xpRampLen i }
  let x2 : Xp := if x0.state == .off then { x1 with src := s.nat Ix.xpSrc i, bus := s.nat Ix.xpBus i } else x1
  if x2.fault then x2
  else if start then
    if x2.state == .off then
      if g = 0 then { x2 with cur := 0, tgt := 0, rem := 0, state := .steady, mode := mode }
      else xpMove { x2 with cur := 0 } .moving mode zc g
    else xpMove x2 .moving mode zc g
  else if !en && p.en && x2.state != .off then xpMove x2 .releasing mode zc 0
  else if g ≠ p.gain ∧ (x2.state = .steady ∨ x2.state = .moving) then xpMove x2 .moving mode zc g
  else x2

/-- A crosspoint object has landed: the record is what the landings of the boundary together make it. The
dictionary already holds the new value; `old` is the dictionary before it. -/
def landXp (old : State) (s : State) (ix i : Nat) : State :=
  let p0 : XpPre := match mapFind i s.bench.pre with
    | some p => p
    | none => { was := xpOf old i, en := old.flag Ix.xpEn i, gain := xpGainOf old i, wrote := [] }
  let p : XpPre := { p0 with wrote := p0.wrote ++ [ix] }
  let s1 := { s with bench := { s.bench with pre := mapPut i p s.bench.pre } }
  setXp s1 i (xpLanded s1 i p)

/-- One sample of a crosspoint (R125): the record after it, and the event: 1 a step at a crossing, 2 a step at
the timeout, 3 the end of a ramp. -/
def xpSample (x : Xp) (w : Word) : Xp × Nat :=
  let moving := x.state == .moving || x.state == .releasing
  let r : Xp × Nat :=
    if !moving then (x, 0)
    else if x.mode = 0 then ({ x with cur := x.tgt }, 0)
    else if x.rem = 0 then (x, 0)
    else if x.mode = 1 then
      if w = 0 || w.msb != x.lastNeg then ({ x with cur := x.tgt, rem := 0 }, 1)
      else if x.rem = 1 then ({ x with cur := x.tgt, rem := 0 }, 2)
      else ({ x with rem := x.rem - 1 }, 0)
    else
      ({ x with cur := x.cur + Int.tdiv (x.tgt - x.cur) (x.rem : Int), rem := x.rem - 1 },
        if x.rem = 1 then 3 else 0)
  ({ r.1 with lastNeg := w.msb }, r.2)

/-- The frame of a crosspoint from sample `j` on: its products, the record after it and its events by sample. -/
def xpFrame : Nat → Xp → List Word → List Int × Xp × List (Nat × Nat)
  | _, x, [] => ([], x, [])
  | j, x, w :: t =>
    let (x1, ev) := xpSample x w
    let (ps, x2, evs) := xpFrame (j + 1) x1 t
    (w.toInt * x1.cur :: ps, x2, if ev = 0 then evs else (j, ev) :: evs)

/-- A move that has run out leaves MOVING (R126); RELEASING becomes OFF at the end of the tick. -/
def xpSettle (x : Xp) : Xp :=
  if x.state == .moving && x.rem == 0 && x.cur == x.tgt then { x with state := .steady } else x

/-- A crosspoint that is RELEASING has reached 0 (R126). -/
def xpReleased (x : Xp) : Bool := x.state == .releasing && x.rem == 0 && x.cur == 0

/-- A change has landed on crosspoint `i` in this tick, on a record of the usable range (R115, R128). -/
def xpTouched (s : State) (i : Nat) : Bool := (mapFind i s.bench.pre).isSome && decide (i < xpCount s.cls)

/-- Lane-cycles a crosspoint costs in this tick (R128); none outside the usable range (R115). An OFF crosspoint on which a
change lands costs TICKLEN + 1 (DESIGN CHOICE, assumption 128: R128 gives it both 0 and TICKLEN + 1). -/
def xpCost (s : State) (i : Nat) (x : Xp) : Nat :=
  let touched := xpTouched s i
  if xpCount s.cls ≤ i ∨ (x.state == .off && !touched) then 0
  else if touched || x.state == .moving || x.state == .releasing then s.ticklen + 1
  else s.ticklen

/-- A crosspoint the Bench sums: enabled or releasing, on a usable record and bus (R115, R116). -/
def xpActive (s : State) (i : Nat) (x : Xp) : Bool :=
  x.state != .off && !x.fault && decide (i < xpCount s.cls) && decide (x.bus < busCount s.cls)

/-- A crosspoint is in motion: MOVING or RELEASING, or changed by a landing of this tick (R128). -/
def inMotion (s : State) (i : Nat) (x : Xp) : Bool :=
  decide (i < xpCount s.cls) && (x.state == .moving || x.state == .releasing) || xpTouched s i

/-- Crosspoints in motion (R128, R129). -/
def motionCount (s : State) : Nat :=
  (s.bench.xps.filter (fun p => inMotion s p.1 p.2)).length +
    (s.bench.pre.filter (fun p => decide (p.1 < xpCount s.cls) && (mapFind p.1 s.bench.xps).isNone)).length

/-- P3 opens (R114, R118): accumulators cleared, and the buses that a crosspoint names. -/
def openBench (s : State) : State :=
  if s.bench.opened then s
  else
    let act := s.bench.xps.filter (fun p => xpActive s p.1 p.2)
    let named := act.foldl (fun l p => if l.contains p.2.bus then l else l ++ [p.2.bus]) []
    let bare := (s.bench.pre.filter (fun p => decide (p.1 < xpCount s.cls) && (mapFind p.1 s.bench.xps).isNone)).length
    let load := s.bench.xps.foldl (fun n p => n + xpCost s p.1 p.2) (bare * (s.ticklen + 1))
    { s with bench := { s.bench with opened := true, acc := [], named := named, load := load } }

/-- The words the Bench sums of a source in this tick (R117): its frame, or its replacement; none while the
Bench waits. -/
def benchWords (s : State) (i : Nat) : State × Option (List Word) :=
  let b := mapGet (fun _ => BenchSrc.empty) i s.bench.srcs
  let put (b : BenchSrc) : State :=
    { s with bench := { s.bench with srcs := mapSet (fun _ => BenchSrc.empty) i b s.bench.srcs } }
  match b.now with
  | some w => (s, some w)
  | none =>
    match lookFor s .bench i with
    | .wait => (s, none)
    | .frame w _ =>
      let (out, f) := fadeFrame1 (fadeIn b.absent) w
      (put { last := w, absent := f, now := some out }, some out)
    | .absent =>
      let base := if b.last.length = s.ticklen then b.last else List.replicate s.ticklen 0
      let (out, f) := fadeFrame1 (fadeOut b.absent) base
      (put { b with absent := f, now := some out }, some out)

/-- Add the products of a crosspoint into its bus (R113, R121). -/
def addProducts (bus : Nat) : Nat → List Int → Map Int → Map Int
  | _, [], m => m
  | j, p :: t, m =>
    let k := 32 * bus + j
    addProducts bus (j + 1) t (mapSet (fun _ => 0) k (mapGet (fun _ => 0) k m + p) m)

/-- Count the events of a crosspoint's frame (R139, R394). -/
def xpEvents (s : State) (i : Nat) (evs : List (Nat × Nat)) : State :=
  let n (k : Nat) : Nat := (evs.filter (fun e => e.2 == k)).length
  let s1 := if n 2 = 0 then s else s.addHold Ix.zcTimeouts 0 (n 2)
  let s2 := benchEvent 0x06 (n 3) (benchEvent 0x05 (n 2) (benchEvent 0x04 (n 1) s1))
  let steps := (evs.filter (fun e => decide (e.2 ≤ 2))).map (fun e => (i, e.1, e.2 - 1, (xpOf s2 i).cur))
  { s2 with bench := { s2.bench with steps := s2.bench.steps ++ steps } }

/-- An uncorrectable error on a record (R137): it is OFF with FAULT set. -/
def xpFault (s : State) (i : Nat) : State :=
  let x := xpOf s i
  let s1 := setXp s i { x with state := .off, fault := true, cur := 0, rem := 0 }
  let s2 := { s1 with bench := { s1.bench with steps := s1.bench.steps ++ [(i, 0, 2, 0)] } }
  (s2.addWrap Ix.benchEccUe 0 1).alarm Al.xpEccUncorrectable

/-- Sum one crosspoint, if its source's words have been decided (R116). The answer says whether it was. -/
def sumXp (s : State) (i : Nat) : State × Bool :=
  let x := xpOf s i
  if s.bench.summed.contains i || !xpActive s i x then (s, true)
  else
    match benchWords s x.src with
    | (s1, none) => (s1, false)
    | (s1, some ws) =>
      let (ps, x1, evs) := xpFrame 0 x ws
      let s2 := benchEvent 0x02 (xpCost s1 i x) (setXp s1 i (xpSettle x1))
      let s3 := { s2 with bench := { s2.bench with acc := addProducts x.bus 0 ps s2.bench.acc
                                                   summed := s2.bench.summed ++ [i] } }
      (xpEvents s3 i evs, true)

/-- The sources BENCH_SRC_ORDER lists, in its order (R116). -/
def srcOrder (s : State) : List Nat :=
  let b := (s.obj Ix.benchSrcOrder 0).toBytes
  (upFrom 0 (b.length / 2)).map (fun k => natLE ((b.drop (2 * k)).take 2))

/-- Where the walk takes a source: its place in the order, or after the listed sources by its identifier (R116). -/
def srcRank (order : List Nat) (i : Nat) : Nat :=
  if order.contains i then order.findIdx (fun k => k == i) else order.length + i

/-- Put a crosspoint into a list that rises by rank. -/
def putRanked (r i : Nat) : List (Nat × Nat) → List (Nat × Nat)
  | [] => [(r, i)]
  | p :: t => if r < p.1 then (r, i) :: p :: t else p :: putRanked r i t

/-- The crosspoints the Bench walks in a tick: by source in the order of R116, and for a source by index. -/
def benchWalk (s : State) : List Nat :=
  let order := srcOrder s
  let act := s.bench.xps.filter (fun p => xpActive s p.1 p.2)
  (act.foldl (fun l p => putRanked (srcRank order p.2.src) p.1 l) []).map (fun p => p.2)

/-- The walk up to its last crosspoint that `p` names. -/
def walkTo (p : Nat → Bool) (l : List Nat) : List Nat :=
  (l.reverse.dropWhile (fun i => !p i)).reverse

/-- The walk up to the last crosspoint that names a bus. -/
def walkOfBus (s : State) (bus : Nat) : List Nat := walkTo (fun i => (xpOf s i).bus == bus) (benchWalk s)

/-- Sum crosspoints in the order of the walk until one waits (R116). -/
def sumXps : List Nat → State → State × Bool
  | [], s => (s, true)
  | i :: t, s =>
    match sumXp s i with
    | (s1, true) => sumXps t s1
    | (s1, false) => (s1, false)

/-- The Bench reads the frame of a source once in a tick, before it sums a crosspoint of the walk that names it (R116,
R159). -/
def frameReads (l : List Nat) (s : State) (f : Nat × Ecc) : State :=
  if l.any (fun i => (xpOf s i).src == f.1 && xpActive s i (xpOf s i)) &&
      ((mapGet (fun _ => BenchSrc.empty) f.1 s.bench.srcs).now).isNone then readCheck s .bench f.1 f.2 else s

/-- What the summing reads of crosspoints of the walk find (R137, R159): a record in error is OFF before it is summed, a
corrected one is counted, and a source's frame is checked as its words are read. -/
def sumReads (l : List Nat) (q : SumReads) (s : State) : State :=
  let met := l.filter (fun i => !s.bench.summed.contains i)
  let n := (met.filter (fun i => q.fixed.contains i && !q.bad.contains i)).length
  let s1 := (met.filter (fun i => q.bad.contains i)).foldl xpFault (if n = 0 then s else s.addHold Ix.benchEccCe 0 n)
  q.frames.foldl (frameReads met) s1

/-- The Bench walks on to the end of a part of its walk (R116, R137). -/
def walkOn (l : List Nat) (q : SumReads) (s : State) : State × Bool := sumXps l (sumReads l q s)

/-- The word of a bus from an exact sum, whether it saturated and whether the 72-bit accumulator overflowed
(R121). -/
def busWord (sum : Int) : Word × Bool × Bool :=
  let (w, sat) := window sum 28
  (w, sat, decide (accMax < sum) || decide (sum < accMin))

/-- Write the frame of bus `b` (R118). A bus that was substituted returns under the fade-in (R44). -/
def writeBus (s : State) (b : Nat) : State :=
  let rs := (upFrom 0 s.ticklen).map (fun j => busWord (mapGet (fun _ => 0) (32 * b + j) s.bench.acc))
  let raw := rs.map (fun r => r.1)
  let i := 0x4000 + b
  let src := s.source i
  let (out, f) := fadeFrame1 (fadeIn src.fade) raw
  let s1 := s.setSource i { src with base := raw, fade := f }
  let s2 := putFrame s1 i { tag := s.tag, words := out, low := fadeLow [fadeIn src.fade] s.ticklen, npcm := false, bad := false }
  let nsat := (rs.filter (fun r => r.2.1)).length
  benchEvent 0x0B nsat
    { s2 with bench := { s2.bench with
        written := s2.bench.written ++ [b]
        satNow := if 0 < nsat then s2.bench.satNow ++ [b] else s2.bench.satNow
        ovfNow := if rs.any (fun r => r.2.2) then s2.bench.ovfNow ++ [b] else s2.bench.ovfNow } }

/-- The substitute of R44 for source `i`: the frame of the tick before under the fade-out, then silence. -/
def substitute (s : State) (i : Nat) : State :=
  let src := s.source i
  if (src.hist.head?.map (fun f => f.tag)) = some s.tag then s
  else
    let fresh := (src.hist.head?.map (fun f => f.tag)) == some (tagOf s.tag)
    let zeros := List.replicate s.ticklen (0 : Word)
    let base :=
      if src.fade.mode == .unity && !fresh then zeros
      else if src.base.length = s.ticklen then src.base else zeros
    let (out, f) := fadeFrame1 (fadeOut src.fade) base
    let s1 := s.setSource i { src with base := base, fade := f }
    putFrame s1 i { tag := s.tag, words := out, low := fadeLow [fadeOut src.fade] s.ticklen, npcm := false, bad := false }

/-- The end of P3 (R118, R121): buses not written are substituted, and the sticky flags reach BUS_SAT and
BUS_OVF. -/
def closeBench (s : State) : State :=
  let late := s.bench.named.filter (fun b => !s.bench.written.contains b)
  let s1 := late.foldl (fun s b => substitute s (0x4000 + b)) s
  let s2 := if late.isEmpty then s1 else (s1.addWrap Ix.overrunCount 0x10 1).alarm Al.benchLate
  let s3 := s2.bench.satNow.foldl (fun s b =>
    if s.flag Ix.busSat b then s
    else (s.setFlag Ix.busSat b true).alarmIf (s.flag Ix.busSatAlarm) Al.busSaturated) s2
  let s4 := s3.bench.ovfNow.foldl (fun s b =>
    if s.flag Ix.busOvf b then s else (s.setFlag Ix.busOvf b true).alarm Al.busSumOverflow) s3
  { s4 with bench := { s4.bench with satNow := [], ovfNow := [] } }

/-- The end of the tick for the Bench (R126, R139): RELEASING crosspoints at 0 are OFF, and the pass of the
next tick starts afresh. -/
def endBench (s : State) : State :=
  let done := (s.bench.xps.filter (fun p => xpReleased p.2)).map (fun p => p.1)
  let s1 := done.foldl (fun s i => setXp s i { xpOf s i with state := .off }) s
  let b := s1.bench
  ({ s1 with bench := { b with
      pre := [], opened := false, load := 0, acc := [], summed := [], written := [], named := []
      past := ((if b.opened then [(s1.tag, b.named)] else []) ++ b.past).take 3
      srcs := b.srcs.map (fun (p : Nat × BenchSrc) => (p.1, { p.2 with now := none })) } }).setNat Ix.benchLoad 0 b.load

/-- Crosspoints enabled or RELEASING (R130). -/
def xpEnabledCount (s : State) : Nat :=
  (s.bench.xps.filter (fun p => (p.2.en || p.2.state == .releasing) && !p.2.fault)).length

/-- The Bench term of the capacity check for `e` enabled crosspoints (R130). -/
def benchFits (plan : List Nat) (ticklen e : Nat) : Bool :=
  decide (e * ticklen + 131072 ≤ 64 * (listGet 0 7 plan - listGet 0 1 plan))

/-- A change of rate or TICKLEN completes every move at once and resets the limiters (R136). -/
def completeMoves (s : State) : State :=
  s.bench.xps.foldl (fun s p =>
    let x := p.2
    match x.state with
    | .moving => setXp s p.1 { x with cur := x.tgt, rem := 0, state := .steady }
    | .releasing => setXp s p.1 { x with cur := 0, rem := 0, state := .off }
    | _ => s) s

end Sys2Proof.Machine
end

