-- ==== Sys2Proof/Machine/Engines.lean ====
section
/-! DEFINITION. Issuing a slot of a bundle on one engine of the block, with everything the issue can set
off: fetch errors (R57), illegal bundles (R86), counter overflows (R404) and dropped messages (R106). -/

namespace Sys2Proof.Machine

/-- What a slot does: the engine after it, or an illegal bundle (with SE_FAULT.STACK or not). -/
inductive SlotOut where
  | ok (e : Engine)
  | illegal (stack : Bool)
  deriving DecidableEq, Repr

/-- The phase most recently opened at cycle `cyc` of a tick: the highest-numbered phase whose open cycle has
been reached (R105). -/
def phaseAt (plan : List Nat) (cyc : Nat) : Nat :=
  (upFrom 0 6).foldl (fun p k => if listGet 0 (2 * k) plan ≤ cyc then k else p) 0

/-- What an engine's registers show of the tick at fabric cycle `cyc` of it. -/
def viewAt (s : State) (cyc : Nat) : TickView :=
  let plan := s.clk.plan
  { tick := s.tick, cycle := cyc, phase := phaseAt plan cyc
    ch0 := decide (listGet 0 2 plan ≤ cyc) && decide (cyc < listGet 0 3 plan), ch2 := decide (listGet 0 8 plan ≤ cyc) }

/-- What engine `e`, which issues, reads of the tick. -/
def tickView (s : State) (e : Engine) : TickView := viewAt s e.tcyc

/-- DONE ORs the sticky flags of an engine into ENG_FLAGS of its place; a bit that changes from 0 to 1 raises
its alarm where ENG_FLAG_ALARM enables it (R75, R80). -/
def hostFlags (s : State) (n : Fin 16) (fl : Nat) : State :=
  match placeOf s n with
  | none => s
  | some p =>
    let old := s.nat Ix.engFlags p.val
    let s1 := s.setNat Ix.engFlags p.val (old ||| fl)
    let on (b : Nat) : Bool := fl.testBit b && !old.testBit b && (s.nat Ix.engFlagAlarm p.val).testBit b
    ((s1.alarmIf (on 0) (Al.engAccOverflow.src n.val)).alarmIf (on 1) (Al.engStoreSat.src n.val)).alarmIf
      (on 2) (Al.engCircViolation.src n.val)

/-- The place whose objects an engine's counts belong to; an engine without a place counts nowhere. -/
def addPlace (s : State) (n : Fin 16) (ix k : Nat) (hold : Bool) : State :=
  match placeOf s n with
  | none => s
  | some p => if hold then s.addHold ix p.val k else s.addWrap ix p.val k

/-- One corrected error of engine `n` (R57, R376): ENG_ECC_CE of its place and RSV_ENG_CE of the engine. -/
def countCorrected (s : State) (n : Fin 16) : State :=
  let s1 := addPlace s n Ix.engEccCe 1 true
  let s2 := s1.addHold Ix.rsvEngCe n.val 1
  let old := (mapGet (fun _ => []) n.val s2.rsv.ces).filter (fun t => decide (s2.clk.sysCounter ≤ t + day))
  { s2 with rsv := { s2.rsv with ces := mapSet (fun _ => []) n.val (old ++ [s2.clk.sysCounter]) s2.rsv.ces } }

/-- `k` corrected errors of engine `n`. -/
def countFixes (n : Fin 16) : Nat → State → State
  | 0, s => s
  | k + 1, s => countFixes n k (countCorrected s n)

/-- Raise what an engine's cycle reports: PMU_OVERFLOW for its place (R404), which a shadow does not hold yet, ENG_MBOX_DROP
(R106), corrected words (R57). -/
def applySig (n : Fin 16) (s : State) (g : EngSig) : State :=
  match g with
  | .overflow k =>
    let p := match placeOf s n with
      | some p => p.val
      | none => n.val
    s.alarmIf (!isShadow s n && (s.nat Ix.pmuEngOvfAlarm p).testBit k.val) (Al.pmuOverflow.src p) k.val
  | .mboxDrop => s.alarm (Al.engMboxDrop.src n.val)
  | .fixed k => countFixes n k s
  | .done second av sv cv =>
    let s1 := match placeOf s n with
      | some p => dlySectionDone s p second
      | none => s
    hostFlags s1 n ((if av then 1 else 0) + (if sv then 2 else 0) + (if cv then 4 else 0))

/-- Put an engine back with what its cycle reported. -/
def commitEngine (s : State) (n : Fin 16) (p : Engine × List EngSig) : State :=
  p.2.foldl (applySig n) (s.setEngine n p.1)

/-- An uncorrectable error met by a read of engine `n` (R57). ENG_ECC_UE counts one for the halt, however many words of the
bundle or line are uncorrectable (DESIGN CHOICE, assumption 127: R81 counts errors met and does not say what one is). -/
def haltEcc (s : State) (n : Fin 16) : State :=
  let s1 := addPlace s n Ix.engEccUe 1 false
  (haltEngine s1 n 2).alarm (Al.engEccUncorrectable.src n.val)

/-- An illegal bundle issues on engine `n` (R86); a stack fault also sets SE_FAULT.STACK and raises
ENG_STACK (R92, R95). -/
def haltIllegal (s : State) (n : Fin 16) (stack : Bool) : State :=
  let s1 := (haltEngine s n (if stack then 12 else 4)).alarm (Al.engIllegal.src n.val)
  s1.alarmIf stack (Al.engStack.src n.val)

/-- Whether the engine can issue now. -/
def canIssue (e : Engine) : Bool := e.run == .running && e.stalled.isNone

/-- Issue one slot of a bundle (R82, R87). An engine that is not RUNNING, or that is stalled on a POST,
issues nothing. The first slot of a bundle issues the all-NOP bundles before it and meets the ECC of the
bundle's fetch; the last one ends the bundle's cycle. -/
def issueSlot (is : Issue) (act : TickView → Engine → SlotOut) (s : State) : State :=
  let e := s.engine is.eng
  if !canIssue e then s
  else
    let (e1, sg, dead) := startBundle is e
    let s1 := commitEngine s is.eng (e1, sg)
    if dead then haltEcc s1 is.eng
    else
      match act (tickView s1 e1) e1 with
      | .illegal stack => haltIllegal s1 is.eng stack
      | .ok e2 =>
        if !is.last then commitEngine s1 is.eng (e2, [])
        else
          let (e3, sg', bad) := closeBundle e2
          let s2 := commitEngine s1 is.eng (e3, sg')
          if bad then haltEcc s2 is.eng else s2

/-- The number of a slot in the order of R63. -/
def laneSlot : Lane → Nat
  | .mac0 => 0
  | .mac1 => 1

/-- The slot of a move: X-move, or Y/ALU for a Y move (R84). -/
def sideSlot : Side → Nat
  | .x => 2
  | .y => 3

end Sys2Proof.Machine
end

