-- ==== Sys2Proof/Machine/PageOps.lean ====
section
/-! DEFINITION. Engine parameter pages: page words (R179), writing both pages (R180), and the flip of a landing
(R178). -/

namespace Sys2Proof.Machine

/-- The engines the Shutter writes a place's pages into: the one that holds it, and the leaf from the end of its
preparation (R177, R378). -/
def pageEngines (s : State) (p : Fin 16) : List (Fin 16) :=
  match s.rsv.move with
  | some m => if m.req.place == p && m.step != .preparing then [engineOf s p, m.leaf] else [engineOf s p]
  | none => [engineOf s p]

/-- The page word `w` of a place: the value of the last landing that wrote it (R179). -/
def pageWord (s : State) (p w : Nat) : Word := mapGet (fun _ => 0) (4096 * p + w) s.shut.words
/-- A landing gives a page word its value. -/
def setPageWord (s : State) (p w : Nat) (v : Word) : State :=
  { s with shut := { s.shut with words := mapSet (fun _ => 0) (4096 * p + w) v s.shut.words } }

/-- Write words into Y memory from an address on. -/
def putY (a : Nat) (w : Word) (e : Engine) : Engine := otherWrite true true a w e

/-- Write page words, by word, into one page of an engine. -/
def putPage (base : Nat) (ws : List (Nat × Word)) (e : Engine) : Engine :=
  ws.foldl (fun e w => putY (base + w.1) w.2 e) e

/-- Both pages of a place in one engine (R180). -/
def fillPages (s : State) (p : Fin 16) (e : Engine) : Engine :=
  let base := s.nat Ix.pageBase p.val
  let n := s.nat Ix.pageWords p.val
  let ws := (upFrom 0 n).map (fun w => (w, pageWord s p.val w))
  putPage (base + n) ws (putPage base ws e)

/-- The Shutter writes both pages of a place (R180). -/
def rewritePages (s : State) (p : Fin 16) : State :=
  let s1 := (pageEngines s p).foldl (fun t n => t.setEngine n (fillPages t p (t.engine n))) s
  { s1 with shut := { s1.shut with flipped := mapErase p.val s1.shut.flipped } }

/-- The Q4.28 word PARAM_GAIN gives (R179). -/
def gainWord (d : Int) : Word := BitVec.ofInt 32 (gainOf d false)

/-- A mode word (R179): the mode and N of PARAM_GAIN_MODE, and SEQ. -/
def modeWord (mode seq : Nat) : Word :=
  BitVec.ofNat 32 (mode % 4 + seq % 256 * 256 + mode / 65536 % 65536 * 65536)

/-- A parameter object of place `p`, word `w`, has landed (R179): the page words it writes. The dictionary holds
the new value. Within one landing event PARAM is given before PARAM_GAIN, and PARAM_GAIN before
PARAM_GAIN_MODE. -/
def landParam (s : State) (ix sub : Nat) : State :=
  let p := sub / 1048576
  let w := sub % 4096
  let mode := s.nat Ix.paramGainMode sub
  let seq := (pageWord s p (w + 1)).toNat / 256 % 256
  if ix = Ix.param then setPageWord s p w (BitVec.ofNat 32 (s.nat ix sub))
  else if ix = Ix.paramGain then
    let g := gainWord (s.int ix sub)
    let moved := g != pageWord s p w
    setPageWord (setPageWord s p w g) p (w + 1) (modeWord mode (if moved then seq + 1 else seq))
  else setPageWord s p (w + 1) (modeWord mode seq)

/-- The words a landing of a parameter object can change. -/
def paramWords (ix sub : Nat) : List Nat :=
  let w := sub % 4096
  if ix = Ix.param then [w] else if ix = Ix.paramGain then [w, w + 1] else [w + 1]

/-- The Shutter writes words, by word, into the back page of a place (R178). -/
def backPage (s : State) (p : Fin 16) (ws : List (Nat × Word)) : State :=
  let base := s.nat Ix.pageBase p.val
  let n := s.nat Ix.pageWords p.val
  let put (e : Engine) : Engine := putPage (if e.loc.page then base else base + n) (ws.filter (fun w => decide (w.1 < n))) e
  (pageEngines s p).foldl (fun t k => t.setEngine k (put (t.engine k))) s

/-- Before a flip the back page takes the words of the flip before, and then those of the landing to come, as `t` has
them (R178). -/
def preparePage (t : State) (s : State) (p : Fin 16) (changed : List Nat) : State :=
  backPage s p (mapGet (fun _ => []) p.val s.shut.flipped ++ changed.eraseDups.map (fun w => (w, pageWord t p.val w)))

/-- The back page of a place is rebuilt without the words of a commit that will not land (R178). -/
def unpreparePage (s : State) (p : Fin 16) (changed : List Nat) : State :=
  backPage s p (changed.eraseDups.map (fun w => (w, pageWord s p.val w)))

/-- Flip the pages of a place at a boundary (R178): the back page takes the words of the flip before and those of
this landing, and becomes the page in force. -/
def flipPage (s : State) (p : Fin 16) (changed : List Nat) : State :=
  let base := s.nat Ix.pageBase p.val
  let n := s.nat Ix.pageWords p.val
  let ws := ((changed.filter (fun w => decide (w < n))).eraseDups).map (fun w => (w, pageWord s p.val w))
  let before := mapGet (fun _ => []) p.val s.shut.flipped
  let flip (e : Engine) : Engine :=
    let back := if e.loc.page then base else base + n
    let e1 := putPage back ws (putPage back before e)
    { e1 with loc := { e1.loc with page := !e1.loc.page } }
  let s1 := (pageEngines s p).foldl (fun t k => t.setEngine k (flip (t.engine k))) s
  { s1 with shut := { s1.shut with flipped := mapSet (fun _ => []) p.val ws s1.shut.flipped } }

/-- A parameter object (R179). -/
def isParam (ix : Nat) : Bool := decide (0x0712 ≤ ix) && decide (ix ≤ 0x0714)

/-- The words of each place that the parameter changes of a list can change (R179). -/
def touchedBy (l : List (Nat × Nat)) : Map (List Nat) :=
  (l.filter (fun c => isParam c.1)).foldl (fun m c =>
    let p := c.2 / 1048576
    mapPut p (mapGet (fun _ => []) p m ++ paramWords c.1 c.2) m) []

/-- PAGE_BASE and PAGE_WORDS of a place keep both pages in Y memory (R177). -/
def pagesFit (base words : Nat) : Bool :=
  decide (base % 4 = 0) && decide (words % 4 = 0) && decide (words ≤ 4096) && decide (base + 2 * words ≤ 65536)

end Sys2Proof.Machine
end

