-- ==== Sys2Proof/Machine/LoadOps.lean ====
section
/-! DEFINITION. Loading an image (R108, R109, R418, R419), and starting and stopping engines (R110, R453). -/

namespace Sys2Proof.Machine

/-- Bytes of an image from an offset on. -/
def imgBytes (b : List Byte) (off n : Nat) : List Byte := (b.drop off).take n
/-- A field of an image. -/
def imgNat (b : List Byte) (off n : Nat) : Nat := natLE (imgBytes b off n)

/-- `n` 32-bit words of an image, as a sparse store. -/
def imgWords (b : List Byte) (off : Nat) : Nat → Map Word
  | 0 => []
  | n + 1 =>
    let v := BitVec.ofNat 32 (imgNat b (off + 4 * n) 4)
    let t := imgWords b off n
    if v = 0 then t else t ++ [(n, v)]

/-- The length an image's own fields give it, its signature included (R108). -/
def imgLength (b : List Byte) : Nat :=
  0xB00 + 16 * imgNat b 0x48 2 + 4 * imgNat b 0x4C 4 + 4 * imgNat b 0x50 4 + 64

/-- Magic, format and size (R108, status 2). -/
def imgForm (b : List Byte) : Bool :=
  decide (0xB00 ≤ b.length) && imgBytes b 0 4 == [0x59, 0x4E, 0x4B, 0x31] && imgNat b 4 2 == 1 &&
    decide (1 ≤ imgNat b 0x48 2) && b.length == imgLength b

/-- The memory sizes fit P, X and Y (R56, status 6). -/
def imgSizes (b : List Byte) : Bool :=
  decide (imgNat b 0x48 2 ≤ 8192) && decide (imgNat b 0x4C 4 ≤ 65536) && decide (imgNat b 0x50 4 ≤ 65536)

/-- The frames a map places for a section, by first word. -/
def frameAddrs (m : Map Word) (second : Bool) : List Nat :=
  (m.filter (fun p => p.2.getLsbD 31 && p.2.getLsbD 16 == second)).map (fun p => p.2.toNat % 65536)

/-- No two of the frames of `n` words at these addresses overlap. -/
def disjoint (n : Nat) : List Nat → Bool
  | [] => true
  | a :: t => t.all (fun b => decide (a + n ≤ b) || decide (b + n ≤ a)) && disjoint n t

/-- Every valid slot of a map holds its frame in X memory, at a multiple of 4 (R105, R107 item 5). -/
def frameFits (n : Nat) (m : Map Word) : Bool :=
  (m.filter (fun p => p.2.getLsbD 31)).all (fun p => decide (p.2.toNat % 4 = 0) && decide (p.2.toNat % 65536 + n ≤ 65536))

/-- The slot maps of an image (R107 item 5, status 5). -/
def imgMaps (b : List Byte) : Bool :=
  let n := imgNat b 7 1
  let i := imgWords b 0x100 384
  frameFits n i && frameFits n (imgWords b 0x700 256) && disjoint n (frameAddrs i false) && disjoint n (frameAddrs i true)

/-- Signatures are checked in this lifecycle state (R406). -/
def signsChecked (s : State) : Bool :=
  decide (2 ≤ s.sec.life) || (s.sec.life == 1 && s.flag Ix.secSignRequired)

/-- The signature of an image (R418, R419, status 1). No image loads on a SCRAPPED device. -/
def imgSigned (s : State) (b : List Byte) : Bool :=
  let n := b.length - 64
  let sig := b.drop n
  let pub := (s.obj Ix.secImgPubkey 0).toBytes
  if s.sec.life = 4 then false
  else if !signsChecked s then true
  else !sig.all (fun x => x == 0) && !pub.isEmpty && Config.ecdsaOk pub (b.take n) sig

/-- Rate class and TICKLEN of an image are those in force (status 3). -/
def imgRate (s : State) (b : List Byte) : Bool := imgNat b 6 1 == s.cls && imgNat b 7 1 == s.ticklen

/-- The 12 values an image was proved against (R108). -/
def imgPlan (b : List Byte) : List Nat := (upFrom 0 12).map (fun k => imgNat b (8 + 4 * k) 4)

/-- An image fits the rate class, TICKLEN and plan in force (R37, R110). -/
def imageFits (s : State) (b : List Byte) : Bool := imgRate s b && imgPlan b == s.clk.plan

/-- The load status of an image (R109): 0, or the reason. Where several checks fail the first of 2, 6, 5, 1, 3, 4 is
reported (DESIGN CHOICE: the spec gives no order). -/
def loadStatus (s : State) (b : List Byte) : Nat :=
  if !imgForm b then 2
  else if !imgSizes b then 6
  else if !imgMaps b then 5
  else if !imgSigned s b then 1
  else if !imgRate s b then 3
  else if imgPlan b ≠ s.clk.plan then 4
  else 0

/-- Keep only the defined bits of a map (R105). -/
def mapWords (m : Map Word) : Map Word :=
  (m.map (fun (p : Nat × Word) => (p.1, p.2 &&& 0x8001FFFF))).filter (fun p => p.2 != 0)

/-- Put an image into an engine (R109): memories zeroed and filled, maps written, registers reset, IDLE. -/
def putImage (raw : List Byte) (priv : Nat) (e : Engine) : Engine :=
  let np := imgNat raw 0x48 2
  let nx := imgNat raw 0x4C 4
  let ny := imgNat raw 0x50 4
  let r := restartEngine e
  { r with run := .idle
           image := some { raw := raw, priv := priv }
           p := imgWords raw 0xB00 (4 * np)
           x := imgWords raw (0xB00 + 16 * np) nx
           y := imgWords raw (0xB00 + 16 * np + 4 * nx) ny
           fix := []
           gather1 := false, gather2 := false, fadeIn := 0, subst := false
           loc := { r.loc with fault := 0, inMap := mapWords (imgWords raw 0x100 384), outMap := mapWords (imgWords raw 0x700 256) } }

/-- The objects that report a place's image (R112). -/
def reportImage (s : State) (p : Fin 16) (raw : List Byte) : State :=
  ((((((s.setObj Ix.engImage p.val (.bytes raw)).setNat Ix.engImageId p.val (imgNat raw 0x80 8)).setNat
    Ix.engSecWcet (2 * p.val) (imgNat raw 0x38 4)).setNat Ix.engSecWcet (2 * p.val + 1) (imgNat raw 0x3C 4)).setNat
    Ix.engHoldoff p.val (imgNat raw 0x40 4)).setNat Ix.engCost p.val (imgNat raw 0x44 4))

/-- The engine of a place takes an image: it is IDLE or HALTED (R109). -/
def imageOpen (s : State) (p : Nat) : Bool :=
  let run := (s.engine (engineOf s (Fin.ofNat 16 p))).run
  run == .idle || run == .halted

/-- Load an image into the engine that holds a place (R109), and its pages (R180). An engine that has left IDLE or HALTED
since the write was accepted keeps its image (DEDUCED: R109 gives the refusal at DOM_CLOSE only). A rejected image leaves
the slot maps empty and the registers reset too (DESIGN CHOICE: the spec names the memories, the status and IDLE only). -/
def loadImage (s : State) (p : Fin 16) (raw : List Byte) (priv : Nat) : State :=
  let e := engineOf s p
  let st := loadStatus s raw
  if !imageOpen s p.val then s.setNat Ix.engLoadStatus p.val 7
  else if st = 0 then
    let s1 := reportImage ((s.setEngine e (putImage raw priv (s.engine e))).setNat Ix.engLoadStatus p.val 0) p raw
    rewritePages { s1 with pair := { s1.pair with deferred := mapErase p.val s1.pair.deferred } } p
  else
    let g := s.engine e
    let g1 := { restartEngine g with run := .idle, image := none, p := [], x := [], y := [], fix := []
                                     gather1 := false, gather2 := false, fadeIn := 0, subst := false
                                     loc := { g.loc with inMap := [], outMap := [] } }
    let s1 := reportImage ((s.setEngine e g1).setNat Ix.engLoadStatus p.val st) p []
    ({ s1 with pair := { s1.pair with deferred := mapErase p.val s1.pair.deferred } }).alarm (Al.engLoadRejected.src e.val)

/-- An engine starts at bundle 0 with its registers reset, and its outputs rise over 256 samples (R59, R102,
R110). A RUN keeps SE_FAULT, a RESTART clears it. -/
def startEngine (clear : Bool) (e : Engine) : Engine :=
  { restartEngine e with run := .running, tcyc := 0, fadeIn := 256, gather1 := false, gather2 := false
                         loc := { e.loc with fault := if clear then 0 else e.loc.fault } }

/-- Start the engine of a place (R110, R366). -/
def startPlace (s : State) (p : Fin 16) (clear : Bool) : State :=
  let e := engineOf s p
  dlyPlaceStart (s.setEngine e (startEngine clear (s.engine e))) p

/-- Start the engine of a place as after a takeover (R338, R453): X and Y from the image's initial data, pages
rewritten, registers reset, bundle 0. -/
def startFresh (s : State) (p : Fin 16) : State :=
  let e := engineOf s p
  match (s.engine e).image with
  | none => s
  | some im => startPlace (rewritePages (s.setEngine e (putImage im.raw im.priv (s.engine e))) p) p true

/-- An engine stops issuing and becomes IDLE (R110). -/
def stopEngine (e : Engine) : Engine := { stopIssue e with run := .idle }

/-- ENG_CTL acts on a place (R110): 0 STOP, 1 RUN, 2 RESTART. A command that would be refused in the state the
engine is in has no effect. -/
def engCtlAct (s : State) (p : Fin 16) (cmd : Nat) : State :=
  let e := engineOf s p
  let g := s.engine e
  let fits := match g.image with
    | some im => imageFits s im.raw
    | none => false
  if cmd = 0 then
    match g.run with
    | .running | .waiting => s.setEngine e { stopEngine g with subst := true }
    | .halted => s.setEngine e { g with run := .idle, subst := true }
    | _ => s
  else if !fits then s
  else if cmd = 1 then
    match g.run with
    | .idle => startPlace s p false
    | _ => s
  else
    match g.run with
    | .leaf => s
    | _ => startPlace s p true

/-- ENG_CTL on a place would be refused with STATE (R110, R373, R384). -/
def engCtlRefused (s : State) (p : Fin 16) (cmd : Nat) : Bool :=
  let g := s.engine (engineOf s p)
  let fits := match g.image with
    | some im => imageFits s im.raw
    | none => false
  let moving := match s.rsv.move with
    | some m => m.req.place == p
    | none => false
  !isWorkPlace p || moving ||
    (cmd == 1 && (g.run == .halted || (g.run == .idle && g.image.isNone) || !fits)) ||
    (cmd == 2 && ((g.run == .idle && g.image.isNone) || !fits))

/-- ENG_CTL comes due on a unit that is not door-holder (R453): a RUN or RESTART waits for the boundary at which
the unit becomes ACTIVE, a STOP cancels one that waits. -/
def engCtlDue (s : State) (p : Fin 16) (cmd : Nat) : State :=
  if s.isDoor then engCtlAct s p cmd
  else if cmd = 0 then
    let s1 := { s with pair := { s.pair with deferred := mapErase p.val s.pair.deferred } }
    engCtlAct s1 p 0
  else { s with pair := { s.pair with deferred := mapPut p.val (some s.tick) s.pair.deferred } }

/-- Put the status of every place's engine into the objects that report it (R112). -/
def refreshEngine (s : State) (p : Fin 16) : State :=
  let g := s.engine (engineOf s p)
  ((s.setNat Ix.engState p.val (runCode g.run)).setNat Ix.engFault p.val g.loc.fault.toNat).setNat
    Ix.engMboxDrops p.val g.loc.outDrops.toNat

end Sys2Proof.Machine
end

