-- ==== Sys2Proof/Machine/PortOps.lean ====
section
/-! DEFINITION. The serial audio ports: settings (R208, R209), starting, stopping and silencing a direction
(R207, R212, R213, R217), the blocks handed to the Lattice (R215, R216), converters (R221, R222), and what a
write of a port object must satisfy. -/

namespace Sys2Proof.Machine

/-- A direction: TDM by 2 × port + d, AES3 inputs at 64 + i. -/
def dirOf (s : State) (k : Nat) : Dir := mapGet (fun _ => Dir.reset) k s.port.dirs
/-- What an AES3 input keeps. -/
def aesOf (s : State) (i : Nat) : AesIn := mapGet (fun _ => AesIn.reset) i s.port.aes
def setAes (s : State) (i : Nat) (a : AesIn) : State :=
  { s with port := { s.port with aes := mapSet (fun _ => AesIn.reset) i a s.port.aes } }

/-- Fields of TDM_RX_FMT and TDM_TX_FMT (R233). -/
def fmtWidth (f : Nat) : Nat := if f % 4 = 0 then 16 else if f % 4 = 1 then 24 else 32
def fmtSlots (f : Nat) : Nat := f / 4 % 64
/-- Sample width of a format (R23). -/
def fmtBits (f : Nat) : Nat := if f % 4 = 0 then 16 else 24
/-- Fields of TDM_RX_CLK and TDM_TX_CLK (R233). -/
def clkPair (c : Nat) : Nat := c % 64
def clkFollower (c : Nat) : Bool := c.testBit 6
def clkMode (c : Nat) : Nat := c / 256 % 4

/-- The synthesizer a master direction takes its clock from (R209, R305). -/
def masterSyn (c : Nat) : Option Nat :=
  if c.testBit 6 then none
  else some (match clkMode c with
    | 0 => 0
    | 1 => 1
    | _ => if c.testBit 10 then 3 else 2)

/-- Whether a key names a TDM direction, and whether it receives. -/
def isTdm (k : Nat) : Bool := decide (k < 64)
def isRx (k : Nat) : Bool := k % 2 == 0 || decide (64 ≤ k)

/-- The objects of a TDM direction, as the dictionary holds them. -/
def dictFmt (s : State) (k : Nat) : Nat := s.nat (if k % 2 = 0 then Ix.tdmRxFmt else Ix.tdmTxFmt) (k / 2)
def dictClk (s : State) (k : Nat) : Nat := s.nat (if k % 2 = 0 then Ix.tdmRxClk else Ix.tdmTxClk) (k / 2)
def dictMask (s : State) (k : Nat) : Nat := s.nat (if k % 2 = 0 then Ix.tdmRxMask else Ix.tdmTxMask) (k / 2)
/-- The direction is enabled. -/
def dirEnabled (s : State) (k : Nat) : Bool :=
  if isTdm k then (s.nat Ix.tdmEn (k / 2)).testBit (k % 2) else s.flag Ix.aesiEn (k - 64)

/-- The Lattice identifier of a slot of a direction (R140, R141). -/
def slotId (k slot : Nat) : Nat :=
  if isTdm k then 0x2000 + 32 * (k / 2) + slot else 0x2400 + 2 * (k - 64) + slot

/-- Codes of TDM_STATE and AESI_STATE (R233, R234). -/
def portRunCode (tdm : Bool) : PortRun → Nat
  | .off => 0
  | .starting => 1
  | .running => 2
  | .lost => 3
  | .mismatch => 4
  | .recovering => if tdm then 5 else 1

/-- The user of a converter channel in ASRC_MAP (R234). -/
def asrcUser (k slot : Nat) : Nat := slotId k slot + (if isTdm k && !isRx k then 32768 else 0)
/-- The converter channel that serves a user. -/
def asrcOf (s : State) (user : Nat) : Option Nat := (upFrom 0 80).find? (fun c => s.nat Ix.asrcMap c == user)

/-- The direction goes through converters: a FOREIGN direction, or an input with AESI_ASRC = 1. -/
def usesAsrc (s : State) (k : Nat) (d : Dir) : Bool :=
  if isTdm k then clkMode d.clk == 2 else (aesOf s (k - 64)).asrc

/-- The direction has an elastic buffer of its own: FOLLOW, or a synchronous AES3 input (R220, R226). -/
def usesElastic (s : State) (k : Nat) (d : Dir) : Bool :=
  if isTdm k then clkMode d.clk == 1 else !(aesOf s (k - 64)).asrc

/-- Half fill of the elastic buffer (R220, R226). -/
def halfFill (s : State) (k : Nat) : Nat := if isTdm k then s.nat Ix.tdmFollow (k / 2) % 128 / 2 else 8

/-- A HOUSE follower (R210). -/
def houseFollower (d : Dir) : Bool := clkMode d.clk == 0 && clkFollower d.clk

/-- The ratio a slot's converter has learned: foreign rate ÷ house rate in Q8.24, 0 before it locks (R222). -/
def chanRatio (s : State) (k slot : Nat) : Nat :=
  match asrcOf s (asrcUser k slot) with
  | some c => s.nat Ix.asrcRatio c
  | none => 0

/-- The ratio a direction's converters have learned, 0 before one locks (R222). -/
def dirRatio (s : State) (k : Nat) (d : Dir) : Nat :=
  ((d.chans.map (fun c => chanRatio s k c.1)).find? (fun r => r != 0)).getD 0

/-- Foreign samples that go with the house samples from `a` to `b`, at a ratio (R222). -/
def foreignIn (ratio a b : Nat) : Nat := b * ratio / 16777216 - a * ratio / 16777216

/-- The figure of R224 in house samples: of a converter, once it has locked. -/
def dirDelay (s : State) (k : Nat) (d : Dir) : Nat :=
  if d.run == .off then 0
  else if usesAsrc s k d then
    if dirRatio s k d = 0 then 0 else 64 + ceilDiv ((15 + Config.asrcDelay k % 3) * 16777216) (dirRatio s k d)
  else if usesElastic s k d then halfFill s k
  else if isTdm k && clkFollower d.clk then (if s.int Ix.tdmPhase k = 0 then 0 else 1)
  else 0

/-- What TDM_STATE, TDM_DELAY, AESI_STATE and AESI_DELAY report of a direction. -/
def syncDir (s : State) (k : Nat) : State :=
  let d := dirOf s k
  if isTdm k then
    let old := s.nat Ix.tdmState (k / 2)
    let c := portRunCode true d.run
    let new := if k % 2 = 0 then old / 8 * 8 + c else old / 128 * 128 + 16 * c + old % 16
    (s.setNat Ix.tdmState (k / 2) new).setNat Ix.tdmDelay k (dirDelay s k d)
  else
    let i := k - 64
    let a := aesOf s i
    let old := s.nat Ix.aesiState i
    let new := old / 64 * 64 + (if a.npcmB then 32 else 0) + (if a.npcmA then 16 else 0) + portRunCode false d.run
    (s.setNat Ix.aesiState i new).setNat Ix.aesiDelay i (dirDelay s k d)

def setDir (s : State) (k : Nat) (d : Dir) : State :=
  syncDir { s with port := { s.port with dirs := mapSet (fun _ => Dir.reset) k d s.port.dirs } } k

/-- The block of a channel goes into its buffer, which holds 4 (R215). -/
def setBlock (s : State) (id : Nat) (b : Block) : State :=
  { s with port := { s.port with blocks := mapPut id ((b :: mapGet (fun _ => []) id s.port.blocks).take 4) s.port.blocks } }

/-- Slots set in a mask. -/
def maskSlots (m : Nat) : List Nat := (upFrom 0 32).filter (fun b => m.testBit b)

/-- Take a pool channel for a slot, or free it (R221). -/
def takeAsrc (s : State) (user : Nat) : State :=
  match (upFrom 16 64).find? (fun c => s.nat Ix.asrcMap c == 0xFFFF) with
  | none => s
  | some c =>
    ((s.setNat Ix.asrcMap c user).setNat Ix.asrcState c 1).setNat Ix.asrcFree 0 (s.nat Ix.asrcFree - 1)
def freeAsrc (s : State) (user : Nat) : State :=
  match asrcOf s user with
  | none => s
  | some c =>
    let s1 := ((s.setNat Ix.asrcMap c 0xFFFF).setNat Ix.asrcState c 0).setNat Ix.asrcRatio c 0
    if 16 ≤ c then s1.setNat Ix.asrcFree 0 (s.nat Ix.asrcFree + 1) else s1

/-- The converter channels of an AES3 input: 2i and 2i + 1, in use while it is enabled through ASRC (R221). -/
def aesAsrc (s : State) (i : Nat) (on : Bool) : State :=
  [0, 1].foldl (fun s f =>
    let c := 2 * i + f
    if on then (s.setNat Ix.asrcMap c (0x2400 + c)).setNat Ix.asrcState c 1
    else ((s.setNat Ix.asrcMap c 0xFFFF).setNat Ix.asrcState c 0).setNat Ix.asrcRatio c 0) s

/-- Start a direction with its settings as they stand (R207, R213): its slots are silent until the return
rule is met. -/
def startDir (s : State) (k : Nat) : State :=
  if isTdm k then
    let clk := dictClk s k
    let mask := dictMask s k
    let half := if clkMode clk = 1 then s.nat Ix.tdmFollow (k / 2) % 128 / 2 else 0
    let ch : Chan := { Chan.fresh with fifo := List.replicate half Sample.zero }
    let d : Dir := { Dir.reset with run := .starting, fmt := dictFmt s k, clk := clk, mask := mask
                                    assigned := !(clkMode clk == 0 && clkFollower clk)
                                    chans := (maskSlots mask).map (fun b => (b, ch)) }
    let s1 := setDir s k d
    if clkMode clk = 2 then (maskSlots mask).foldl (fun s b => takeAsrc s (asrcUser k b)) s1 else s1
  else
    let i := k - 64
    let asrc := s.flag Ix.aesiAsrc i
    let ch : Chan := { Chan.fresh with fifo := if asrc then [] else List.replicate 8 Sample.zero }
    let s1 := setAes s i { AesIn.reset with asrc := asrc }
    let s2 := setDir s1 k { Dir.reset with run := .starting, mask := 3, assigned := true, chans := [(0, ch), (1, ch)] }
    aesAsrc s2 i asrc

/-- Stop a direction: its sources become absent, its DO goes to high impedance, and its converters are free (R207). -/
def stopDir (s : State) (k : Nat) : State :=
  let d := dirOf s k
  let s1 := if isTdm k then d.chans.foldl (fun s c => freeAsrc s (asrcUser k c.1)) s else aesAsrc s (k - 64) false
  let s2 := setDir s1 k Dir.reset
  if !isTdm k then s2
  else
    let s3 := s2.setNat Ix.tdmFill k 0
    if isRx k then s3 else s3.emit (.highZ (k / 2))

/-- Change every channel of a direction. -/
def mapChans (f : Chan → Chan) (d : Dir) : Dir := { d with chans := d.chans.map (fun c => (c.1, f c.2)) }

/-- Take a direction out of service (R211, R213, R217, R218, R223): its channels fade out, on their held samples where
`hold` says so, and only ticks that begin after this count for the return rule. -/
def outOfService (s : State) (k : Nat) (run : PortRun) (hold : Bool) : State :=
  let d := dirOf s k
  setDir s k { mapChans (fun c => { c with svc := fadeOut c.svc, hold := c.hold || hold }) d with
               run := run, ticks := 0, counts := false, good := false
               assigned := d.assigned && !(hold && isTdm k && houseFollower d) }

/-- The port fades of a channel on its next word (R30, R212). -/
def chanFade (c : Chan) (npcm : Bool) (time : Nat) (w : Word) : Sample × Chan :=
  match fadeStepAll [c.en, c.mask, c.svc] with
  | (gs, [e, m, v]) =>
    let whole := gs.all (fun g => g == 134217728)
    ({ w := if whole then w else scaleWord w gs, low := !whole, mute := gs.any (fun g => g == 0), npcm := npcm, time := time },
      { c with en := e, mask := m, svc := v })
  | _ => ({ w := w, low := false, mute := false, npcm := npcm, time := time }, c)

/-- A channel repeats its held sample `n` times, with the stamp of its direction's latest edge (R217). -/
def pushHeld (n time : Nat) (c : Chan) : Chan :=
  iterate (fun c =>
    let (o, c1) := chanFade c c.heldNpcm time c.held
    { c1 with fifo := c1.fifo ++ [o] }) n c

/-- A channel takes its next word: it becomes the held sample and goes, faded, to its buffer. While the service fade runs
on the held sample, that one is repeated (R211, R217, R223). -/
def chanPush (c : Chan) (npcm : Bool) (time : Nat) (w : Word) : Chan :=
  if c.hold then pushHeld 1 time c
  else
    let (o, c1) := chanFade c npcm time w
    { c1 with held := w, heldNpcm := npcm, fifo := c1.fifo ++ [o] }

/-- A frame of a direction: every channel takes its slot's word (R210). -/
def frameIn (words : List Word) (d : Dir) : Dir :=
  { d with chans := d.chans.map (fun c => (c.1, chanPush c.2 false d.stamp (listGet c.2.held c.1 words))), frames := d.frames + 1 }

/-- A bad frame repeats the held samples (R217). -/
def frameHeld (d : Dir) : Dir :=
  { mapChans (fun c => { pushHeld 1 d.stamp c with concealed := true }) d with frames := d.frames + 1, good := false }

/-- A bad frame of a direction (R217): counted; the second in a row declares loss. -/
def badFrame (s : State) (k : Nat) : State :=
  let d := dirOf s k
  let s1 := if isTdm k then s.addHold Ix.tdmErrors (4 * (k / 2)) 1 else s
  let second := d.bad != 0
  let lose := second && d.run != .lost
  let s2 := if lose then outOfService s1 k .lost true else s1
  let s3 := setDir s2 k { frameHeld (dirOf s2 k) with bad := d.bad + 1 }
  if lose then
    if isTdm k then s3.alarm (Al.tdmClockLoss.src (k / 2)) (k % 2) else s3.alarm (Al.aesLockLoss.src (k - 64))
  else s3

/-- Frames a block still lacks when it is handed over are bad (R217). -/
def fillBlock : Nat → State → Nat → State
  | 0, s, _ => s
  | n + 1, s, k => fillBlock n (if (dirOf s k).run == .running then badFrame s k else setDir s k (frameHeld (dirOf s k))) k

/-- Free words from a converter channel (R222). -/
def asrcWords : Nat → Nat → State → List Word × State
  | 0, _, s => ([], s)
  | n + 1, c, s =>
    let w := BitVec.ofInt 32 (Config.asrcSample c s.fresh)
    let (ws, s') := asrcWords n c { s with fresh := s.fresh + 1 }
    (w :: ws, s')

/-- The samples of a converter's block of `n`, for the foreign samples `xs` that left its FIFO: each takes the fades of the
foreign sample at its place among those (R28; DEDUCED: the fades act on the foreign side, and the converter's delay is
left out). -/
def asrcShape (n : Nat) (now : Sample) (xs : List Sample) (ws : List Word) : List Sample :=
  (upFrom 0 n).map (fun j =>
    let x := listGet now (j * xs.length / n) xs
    { x with w := if x.mute || (x.w == 0 && xs.all (fun y => y.w == 0)) then 0 else listGet 0 j ws })

/-- How many foreign samples leave a converter's FIFO of `fill` for the house samples of a tick (R222, R223): as many as the
ratio gives, one more or less while the FIFO is off its centre (DEDUCED: a locked channel tracks its clock so); before
a lock all but the 8 latest. -/
def asrcTake (s : State) (k slot fill : Nat) : Nat :=
  match asrcOf s (asrcUser k slot) with
  | none => fill - 8
  | some ch =>
    if s.nat Ix.asrcState ch ≠ 2 then fill - 8
    else
      let n := foreignIn (s.nat Ix.asrcRatio ch) (s.tick * s.ticklen) ((s.tick + 1) * s.ticklen)
      if n + 8 < fill then n + 1 else if fill < n + 8 then n - 1 else n

/-- Subframes become non-PCM; a change raises AES_NONPCM (R229, R232). -/
def toNonPcm (s : State) (i : Nat) (a b : Bool) : State :=
  let x := aesOf s i
  let na := a && !x.npcmA
  let nb := b && !x.npcmB
  let s1 := setAes s i { x with npcmA := x.npcmA || a, npcmB := x.npcmB || b }
  let s2 := syncDir s1 (64 + i)
  s2.alarmIf (na || nb) (Al.aesNonpcm.src i) ((if na then 1 else 0) + (if nb then 2 else 0))

/-- The channel-status test is on (R229). -/
def statusTest (s : State) (i : Nat) : Bool := s.nat Ix.aesiNpcmMode i == 0 || s.nat Ix.aesiNpcmMode i == 1

/-- The channel-status test on the blocks of the subframes that `a` and `b` name (R229). -/
def applyStatus (s : State) (i : Nat) (a b : Bool) : State :=
  let x := aesOf s i
  let na := statusTest s i && a && x.nonAudioA
  let nb := statusTest s i && b && x.nonAudioB
  if na || nb then toNonPcm s i na nb else s

/-- AESI_NPCM_MODE lands: the channel-status test takes the last verified blocks (R229). -/
def landNpcmMode (s : State) (i : Nat) : State := applyStatus s i (aesOf s i).csA (aesOf s i).csB

/-- A channel of an AES3 input is non-PCM (R229). -/
def chanNpcm (s : State) (k slot : Nat) : Bool :=
  !isTdm k && (if slot = 0 then (aesOf s (k - 64)).npcmA else (aesOf s (k - 64)).npcmB)

/-- The samples a channel delivers for the tick, and the state after: converted words, whose values the spec does not fix;
zeros while a converter carries data (R230); or the front of its buffer. A converter that acquires delivers silence,
because its service fade is silent (R222). -/
def chanBlock (s : State) (k slot : Nat) (d : Dir) (c : Chan) : List Sample × Chan × State :=
  let n := s.ticklen
  if usesAsrc s k d then
    let m := asrcTake s k slot c.fifo.length
    let xs := c.fifo.take m
    let c1 := { c with fifo := c.fifo.drop m, now := xs.getLastD c.now }
    if chanNpcm s k slot || xs.any (fun x => x.npcm) then (List.replicate n { Sample.zero with npcm := true }, c1, s)
    else
      match asrcOf s (asrcUser k slot) with
      | some ch =>
        let (ws, s1) := asrcWords n ch s
        (asrcShape n c.now xs ws, c1, s1)
      | none => (List.replicate n { Sample.zero with low := true, mute := true }, c1, s)
  else
    let c1 := pushHeld (n - c.fifo.length) d.stamp c
    (c1.fifo.take n, { c1 with fifo := c1.fifo.drop n }, s)

/-- The block of some samples of a channel (R216): its stamp is that of its first sample. -/
def blockOf (tag : Nat) (concealed : Bool) (xs : List Sample) : Block :=
  { hdr := { tick := tag, stamp := (xs.headD Sample.zero).time, npcm := xs.any (fun x => x.npcm), concealed := concealed
             fading := xs.any (fun x => x.low && !x.mute), silent := xs.all (fun x => x.mute) }
    words := xs.map (fun x => x.w), first := 0 }

/-- Hand over the block of one channel, unless its source is held back (R43) or no phase runs (R36). -/
def handChan (tag : Nat) (put : Bool) (k : Nat) (d : Dir) (p : State × Map Chan) (c : Nat × Chan) : State × Map Chan :=
  let (xs, c1, s1) := chanBlock p.1 k c.1 d c.2
  let i := slotId k c.1
  let b := blockOf tag c.2.concealed xs
  let s2 := setBlock s1 i b
  let f : Frame := { tag := tag, words := b.words, low := xs.map (fun x => x.low), npcm := b.hdr.npcm, bad := false }
  (if put && !s2.port.held.contains i then putFrame s2 i f else s2, p.2 ++ [(c.1, { c1 with concealed := false })])

/-- Samples that the channels of a direction without its clock count in a tick (R28; DESIGN CHOICE: a dead clock counts at
the ratio last learned, or house samples where none was). -/
def lostCount (s : State) (k : Nat) (d : Dir) : Nat :=
  if dirRatio s k d = 0 then s.ticklen else foreignIn (dirRatio s k d) (s.tick * s.ticklen) ((s.tick + 1) * s.ticklen)

/-- What a receive direction still needs before its blocks are handed over: the frames a house-clocked block lacks are bad
(R217); a lost direction repeats its held samples; an elastic buffer that started within the tick is filled up. -/
def fillTick (s : State) (k : Nat) (d : Dir) : State :=
  let n := s.ticklen
  if usesAsrc s k d || usesElastic s k d then
    if d.run == .lost && d.frames == 0 then
      setDir s k (mapChans (pushHeld (if usesAsrc s k d then lostCount s k d else n) d.stamp) d)
    else if usesElastic s k d && !d.counts && d.run == .starting then
      setDir s k (mapChans (fun c =>
        { c with fifo := List.replicate (halfFill s k + n - c.fifo.length) { Sample.zero with low := true, mute := true } ++ c.fifo }) d)
    else s
  else fillBlock (n - d.frames) s k

/-- Hand over the blocks of a receive direction for the samples of tick `tag` (R216), or drop them where no phase runs
(`put` false, R36). A block that is late is not handed over (R43). -/
def handOver (tag : Nat) (put : Bool) (s : State) (k : Nat) : State :=
  let d0 := dirOf s k
  if d0.run == .off || !isRx k then s
  else
    let n := s.ticklen
    let house := !usesAsrc s k d0 && !usesElastic s k d0
    let s1 := fillTick s k d0
    let d := dirOf s1 k
    let whole := d.good && d.assigned && (if house then decide (n ≤ d0.frames) else decide (0 < d0.frames))
    let (s2, cs) := d.chans.foldl (handChan tag put k d) (s1, [])
    setDir s2 k { d with
      chans := cs, ticks := if d.counts && whole then d.ticks + 1 else d.ticks, counts := true, good := true
      frames := if house then d.frames - n else 0, before := none }

/-- A transmit direction at the end of a tick: what it sends is always good (R217). -/
def txTick (s : State) (k : Nat) : State :=
  let d := dirOf s k
  if d.run == .off || isRx k then s
  else
    let whole := d.counts && d.assigned && d.run != .lost && d.run != .mismatch
    setDir s k { d with ticks := if whole then d.ticks + 1 else d.ticks, counts := true, frames := 0, before := none }

/-- Samples that have entered a transmit channel before house sample `b` and not left it. -/
def entered (b : Nat) (c : Chan) : Nat := (c.fifo.filter (fun x => decide (x.time < b))).length

/-- TDM_FILL of a direction at the end of a tick (R220, R233): 0 where it keeps no FOLLOW buffer. -/
def noteFill (s : State) (k : Nat) : State :=
  let d := dirOf s k
  if !isTdm k then s
  else
    s.setNat Ix.tdmFill k (if d.run == .off || clkMode d.clk != 1 then 0
      else ((d.chans.head?.map (fun c =>
        if isRx k then c.2.fifo.length else entered (s.tick * s.ticklen) c.2)).getD 0))

/-- The ports hand over the frames of a tick (R39, R143), or drop them where no phase runs (R36). -/
def portsTick (tag : Nat) (put : Bool) (s : State) : State :=
  (s.port.dirs.map (fun d => d.1)).foldl (fun s k => noteFill (txTick (handOver tag put s k) k) k) s

/-- The tick numbers that a transmit channel's samples were placed by are void (R36, R37): what has entered stays, what
waits for its sample is dropped. -/
def voidOut (s : State) : State :=
  let b := (s.tick + 1) * s.ticklen
  (s.port.dirs.filter (fun p => isTdm p.1 && !isRx p.1)).foldl (fun t p =>
    setDir t p.1 (mapChans (fun c => { c with
      fifo := (c.fifo.filter (fun x => decide (x.time < b))).map (fun x => { x with time := 0 }), next := 0 }) p.2)) s

/-- What a receive direction holds of a grid that no longer runs is dropped (R36, R37): house-clocked samples; elastic
buffers and converters stand at their centre. A HOUSE follower measures its phase again. -/
def voidDir (s : State) (k : Nat) : State :=
  let d := dirOf s k
  if d.run == .off || !isRx k then s
  else
    let keep := if usesAsrc s k d then 8 else if usesElastic s k d then halfFill s k else 0
    let pad := if usesElastic s k d then keep else 0
    let trim (f : List Sample) : List Sample :=
      let g := f.drop (f.length - keep)
      List.replicate (pad - g.length) Sample.zero ++ g
    setDir s k { mapChans (fun c => { c with fifo := trim c.fifo }) d with
                 frames := 0, good := true, assigned := d.assigned && !(isTdm k && houseFollower d), before := none }

/-- The first tick of a grid begins: nothing is handed over (R36, R37). -/
def voidIn (s : State) : State := (s.port.dirs.map (fun d => d.1)).foldl (fun s k => noteFill (txTick (voidDir s k) k) k) s

/-- The media time of sample 0 of a frame handed over in this tick (R46, R47). -/
def outTime (s : State) (r : Dest) : Nat :=
  (if r.clsNow = 1 then s.tick else s.tick + 1) * s.ticklen + 1

/-- Words of the house samples from `a` on, `len` of them, as a transmit channel holds them. -/
def placed (a len : Nat) (ws : List Word) : List Sample :=
  (ws.zip (upFrom 0 ws.length)).map (fun p => { Sample.zero with w := p.1, time := a + p.2 * len / ws.length })

/-- Silence enters a transmit channel for the house samples before `b` that no frame has brought (R46, R228). -/
def txGap (s : State) (k slot : Nat) (d : Dir) (b : Nat) (c : Chan) : Chan :=
  let a := max c.next (s.tick * s.ticklen)
  if b ≤ a then c
  else
    let n := if clkMode d.clk = 2 then foreignIn (chanRatio s k slot) a b else b - a
    { c with fifo := c.fifo ++ placed a (b - a) (List.replicate n 0), next := b }

/-- The samples that house words from sample `a` on bring to a transmit channel: those of a FOREIGN slot are converted, at
the foreign rate and with values the spec does not fix, silence staying silence (R222). -/
def txWords (s : State) (k slot : Nat) (d : Dir) (a : Nat) (ws : List Word) : List Sample × State :=
  if clkMode d.clk = 2 then
    match asrcOf s (asrcUser k slot) with
    | none => ([], s)
    | some ch =>
      let n := foreignIn (s.nat Ix.asrcRatio ch) a (a + ws.length)
      let (xs, s1) := if ws.all (fun w => w == 0) then (List.replicate n 0, s) else asrcWords n ch s
      (placed a ws.length xs, s1)
  else (placed a ws.length ws, s)

/-- The egress frame of a TDM destination goes into its block and into its slot's buffer, each sample for the house sample
at which it is presented (R46, R215, R220, R222). -/
def enterSlot (s : State) (id : Nat) (ws : List Word) : State :=
  let k := 2 * ((id - 0x2000) / 32) + 1
  let slot := id % 32
  let d := dirOf s k
  match mapFind slot d.chans with
  | none => s
  | some c =>
    let first := outTime s (s.dest id)
    let c1 := txGap s k slot d first c
    let late := c1.next - first
    let (xs, s1) := txWords s k slot d (first + late) (ws.drop late)
    let c2 := { c1 with fifo := c1.fifo ++ xs, next := max c1.next (first + ws.length) }
    setBlock (setDir s1 k { d with chans := mapPut slot c2 d.chans }) (id + 32768)
      { hdr := { BlockHdr.empty with tick := s.tag, npcm := (s.dest id).isNpcm }, words := ws, first := first }

/-- The oldest sample of a transmit slot leaves, under the slot's fades (R155, R207, R212, R219, R220). A slot whose buffer
is empty, or whose fade runs on its held sample, repeats that one. -/
def popSlot (transp : Bool) (c : Chan) : Sample × Chan :=
  let x := c.fifo.headD { Sample.zero with w := c.held }
  let w := if c.hold then c.held else x.w
  let (o, c1) := chanFade { c with fifo := c.fifo.drop 1, held := w } x.npcm x.time w
  ({ o with w := if transp && o.low then 0 else o.w }, c1)

/-- The header of a block of which sample `o` leaves at counter `stamp` (R216). -/
def sentHdr (stamp : Nat) (o : Sample) (b : Block) : Block :=
  if o.time < b.first || b.first + b.words.length ≤ o.time then b
  else
    let head := o.time == b.first
    { b with hdr := { b.hdr with
      stamp := if head then stamp else b.hdr.stamp, fading := b.hdr.fading || (o.low && !o.mute)
      silent := o.mute && (head || b.hdr.silent) } }

/-- The block that a sample leaves is noted in its header. -/
def noteSent (s : State) (id stamp : Nat) (o : Sample) : State :=
  { s with port := { s.port with
    blocks := mapPut (id + 32768) ((mapGet (fun _ => []) (id + 32768) s.port.blocks).map (sentHdr stamp o)) s.port.blocks } }

/-- A slot's sample leaves: the state, the channels and the samples sent so far. -/
def clockSlot (k stamp : Nat) (p : State × Map Chan × Map Word) (c : Nat × Chan) : State × Map Chan × Map Word :=
  let (o, c1) := popSlot (p.1.dest (slotId k c.1)).transp c.2
  (noteSent p.1 (slotId k c.1) stamp o, p.2.1 ++ [(c.1, c1)], p.2.2 ++ [(c.1, o.w)])

/-- A frame of a transmit direction is clocked out (R208, R210, R220, R222). Bits of no enabled slot, and all bits of a
direction that has lost its clock, are 0 or at high impedance as TDM_TX_FMT selects (R208, R219). -/
def clockOut (s : State) (k stamp : Nat) : State :=
  let d := dirOf s k
  let (s1, cs, ws) := d.chans.foldl (clockSlot k stamp) (s, [], [])
  let unused : Option Int := if d.fmt.testBit 13 then none else some 0
  let bits (slot : Nat) : Option Int := match mapFind slot ws with
    | some w => if d.run == .lost then unused else some (convertOut (fmtBits d.fmt) w).1
    | none => unused
  (setDir s1 k { d with chans := cs, frames := d.frames + 1 }).emit (.tdmFrame (k / 2) ((upFrom 0 (fmtSlots d.fmt)).map bits))

/-- The system counter at the edge of frame `j` of a tick of `n` cycles that began at `start`: of a HOUSE follower earlier
by its phase (R210, R216). -/
def edgeOf (s : State) (k : Nat) (d : Dir) (start n j : Nat) : Nat :=
  let ph : Int := if houseFollower d then s.int Ix.tdmPhase k else 0
  ((start : Int) + ((j : Int) * 4096 + ph) * n / (4096 * s.ticklen)).toNat

/-- The end of a tick of `n` cycles that began at `start`, for a transmit direction: house samples that nothing brought
are silence, and a HOUSE direction has sent the frames of the tick (R210). -/
def sendTick (start n : Nat) (s : State) (k : Nat) : State :=
  let d := dirOf s k
  if d.run == .off || isRx k then s
  else
    let s1 := setDir s k { d with chans := d.chans.map (fun c => (c.1, txGap s k c.1 d ((s.tick + 1) * s.ticklen) c.2)) }
    let m := if clkMode d.clk = 0 then s.ticklen - d.frames else if d.run == .lost then lostCount s k d else 0
    forN (fun j t => clockOut t k (edgeOf s k d start n (d.frames + j))) m s1

/-- STAMP of the blocks of AES3 outputs whose first sample is presented in the tick (R216). -/
def stampAes (start n : Nat) (s : State) : State :=
  let stamped (b : Block) : Block :=
    if s.tick * s.ticklen ≤ b.first ∧ b.first < (s.tick + 1) * s.ticklen then
      { b with hdr := { b.hdr with stamp := start + (b.first - s.tick * s.ticklen) * n / s.ticklen } }
    else b
  { s with port := { s.port with
    blocks := s.port.blocks.map (fun p => if 0xA400 ≤ p.1 then (p.1, p.2.map stamped) else p) } }

/-- What the ports send in a tick of `n` cycles that began at `start`. -/
def portsSend (start n : Nat) (s : State) : State :=
  (s.port.dirs.map (fun d => d.1)).foldl (sendTick start n) (stampAes start n s)

/-- A TDM destination's sample width, where its direction runs (R131). -/
def tdmOutBits (s : State) (id : Nat) : Option Nat :=
  let d := dirOf s (2 * ((id - 0x2000) / 32) + 1)
  if d.run == .off then none else some (fmtBits d.fmt)

/-- TDM_EN lands (R207): a direction starts, or fades out to stop; a re-enable during the fade-out returns. -/
def landTdmEn (s : State) (n old : Nat) : State :=
  [0, 1].foldl (fun s b =>
    let k := 2 * n + b
    let on := (s.nat Ix.tdmEn n).testBit b
    let was := old.testBit b
    if on && !was then
      let d := dirOf s k
      if d.run == .off then startDir s k
      else setDir s k { mapChans (fun c => { c with en := fadeIn c.en }) d with stopping := false }
    else if !on && was then
      let d := dirOf s k
      if d.run == .off then s
      else setDir s k { mapChans (fun c => { c with en := fadeOut c.en }) d with stopping := true }
    else s) s

/-- A slot mask lands (R212): slots come in under the fade-in and leave under the fade-out; during a restart
the mask waits for the start (R213). A slot that comes in on a converter is silent until the converter has locked and the
return rule is met (R222). -/
def landMask (s : State) (k : Nat) : State :=
  let d := dirOf s k
  if d.run == .off || d.restart then s
  else
    let new := dictMask s k
    let foreign := clkMode d.clk == 2
    let goes := d.chans.map (fun c =>
      if new.testBit c.1 then (c.1, { c.2 with mask := fadeIn c.2.mask }) else (c.1, { c.2 with mask := fadeOut c.2.mask }))
    let half := if clkMode d.clk = 1 then halfFill s k else 0
    let fresh : Chan := { Chan.fresh with mask := fadeIn Fade.silent
                                          fifo := List.replicate (if isRx k then half + d.frames else half) Sample.zero
                                          svc := if d.run == .running && !foreign then Fade.unity else Fade.silent }
    let comes := (maskSlots new).filter (fun b => (mapFind b d.chans).isNone)
    let s1 := setDir s k { d with mask := new, chans := comes.foldl (fun m b => mapPut b fresh m) goes
                                  before := some (d.mask, d.chans) }
    if foreign then comes.foldl (fun s b => takeAsrc s (asrcUser k b)) s1 else s1

/-- A mask that has landed at this boundary waits for the restart that lands with it (R213). -/
def deferMask (s : State) (k : Nat) : State :=
  let d := dirOf s k
  match d.before with
  | none => s
  | some (mask, chans) =>
    let came := d.chans.filter (fun c => (mapFind c.1 chans).isNone)
    came.foldl (fun s c => freeAsrc s (asrcUser k c.1)) (setDir s k { d with mask := mask, chans := chans, before := none })

/-- A format or clock write restarts a running direction (R213). One that is stopping takes the setting when it starts
again, or when a re-enable lets it restart. -/
def landRestart (s0 : State) (k : Nat) : State :=
  let s := deferMask s0 k
  let d := dirOf s k
  if d.run == .off then s
  else
    let s1 := outOfService s k (if d.run == .lost then .lost else .recovering) false
    setDir s1 k { dirOf s1 k with restart := true }

/-- AESI_EN lands (R234). -/
def landAesEn (s : State) (i : Nat) (was : Bool) : State :=
  let k := 64 + i
  let on := s.flag Ix.aesiEn i
  let d := dirOf s k
  if on && !was then
    if d.run == .off then startDir s k
    else setDir s k { mapChans (fun c => { c with en := fadeIn c.en }) d with stopping := false }
  else if !on && was && d.run != .off then
    setDir s k { mapChans (fun c => { c with en := fadeOut c.en }) d with stopping := true }
  else s

/-- AESI_ASRC lands: a change restarts a running input as R213 restarts a port (R234). -/
def landAesAsrc (s : State) (i : Nat) (was : Bool) : State :=
  if s.flag Ix.aesiAsrc i = was then s else landRestart s (64 + i)

/-- Slots per frame of the class (R208). -/
def slotLimit (rateCode : Nat) : Nat := 32 / 2 ^ (rateClass rateCode)

/-- A TDM format is within the class at a house rate (R208). -/
def fmtFits (f rateCode : Nat) : Bool :=
  decide (fmtSlots f ≤ slotLimit rateCode) && decide (rateHz rateCode * fmtSlots f * fmtWidth f ≤ 49152000)

/-- The fields of a format are those of R233. -/
def fmtFields (tx : Bool) (f : Nat) : Bool :=
  decide (f % 4 ≤ 2) && decide (1 ≤ fmtSlots f) && decide (f / 256 % 4 ≤ 2) && decide (f < (if tx then 16384 else 8192))

/-- The fields of a clock setting are those of R233; a FOLLOW follower is not allowed (R209). -/
def clkFields (c : Nat) : Bool :=
  decide (clkPair c ≤ 31) && !c.testBit 7 && decide (clkMode c ≤ 2) && decide (c < 2048) &&
    !(clkMode c == 1 && clkFollower c)

/-- A mask sets only slots of the frame and of the class (R212). -/
def maskFits (m f rateCode : Nat) : Bool := decide (m < 2 ^ (min (fmtSlots f) (slotLimit rateCode)))

/-- The pin pairs a direction masters (R209): while it runs, through its fade-out, the one it has taken; while it is
enabled, the one its setting names. -/
def pairsOf (s : State) (en clk : Nat → Nat) (k : Nat) : List Nat :=
  let d := dirOf s k
  let now := if d.run != .off && !clkFollower d.clk then [clkPair d.clk] else []
  if (en (k / 2)).testBit (k % 2) && !clkFollower (clk k) then (clkPair (clk k) :: now).eraseDups else now

/-- No pin pair has two masters. -/
def pairsOk (s : State) (en : Nat → Nat) (clk : Nat → Nat) : Bool :=
  let l := (upFrom 0 64).flatMap (pairsOf s en clk)
  decide (l.eraseDups.length = l.length)

/-- A pin pair is an output, because a direction masters it (R209). -/
def pairOutput (s : State) (pair : Nat) : Bool :=
  s.port.dirs.any (fun p => isTdm p.1 && p.2.run != .off && !clkFollower p.2.clk && clkPair p.2.clk == pair)

/-- Slots of FOREIGN directions that need a pool channel by the settings, and those that hold one until they leave the
frame (R221). -/
def asrcNeed (s : State) (en clk mask : Nat → Nat) : Nat :=
  let needs (k slot : Nat) : Bool := (en (k / 2)).testBit (k % 2) && clkMode (clk k) == 2 && (mask k).testBit slot
  let new := (upFrom 0 64).foldl (fun n k =>
    if (en (k / 2)).testBit (k % 2) && clkMode (clk k) == 2 then n + (maskSlots (mask k)).length else n) 0
  s.port.dirs.foldl (fun n d =>
    if isTdm d.1 && clkMode d.2.clk == 2 then n + (d.2.chans.filter (fun c => !needs d.1 c.1)).length else n) new

/-- The owning rules of the TDM objects (R208, R209, R212, R220, R221), as they judge a value. -/
def tdmCheck (s : State) (ix sub v : Nat) : Nat :=
  let en (n : Nat) : Nat := if ix = Ix.tdmEn ∧ n = sub then v else s.nat Ix.tdmEn n
  let clk (k : Nat) : Nat :=
    if (ix = Ix.tdmRxClk ∧ k = 2 * sub) ∨ (ix = Ix.tdmTxClk ∧ k = 2 * sub + 1) then v else dictClk s k
  let mask (k : Nat) : Nat :=
    if (ix = Ix.tdmRxMask ∧ k = 2 * sub) ∨ (ix = Ix.tdmTxMask ∧ k = 2 * sub + 1) then v else dictMask s k
  let rate := s.nat Ix.houseRate
  let enOk (b : Nat) : Bool := !v.testBit b || (s.nat Ix.tdmEn sub).testBit b ||
    (fmtFits (dictFmt s (2 * sub + b)) rate && maskFits (dictMask s (2 * sub + b)) (dictFmt s (2 * sub + b)) rate)
  let valueOk : Bool :=
    if ix = Ix.tdmEn then decide (v ≤ 3) && enOk 0 && enOk 1
    else if ix = Ix.tdmRxFmt then fmtFields false v && fmtFits v rate
    else if ix = Ix.tdmTxFmt then fmtFields true v && fmtFits v rate
    else if ix = Ix.tdmRxClk ∨ ix = Ix.tdmTxClk then clkFields v
    else if ix = Ix.tdmRxMask then maskFits v (dictFmt s (2 * sub)) rate
    else if ix = Ix.tdmTxMask then maskFits v (dictFmt s (2 * sub + 1)) rate
    else if ix = Ix.tdmFollow then
      decide (8 ≤ v % 128) && decide (v % 128 ≤ 64) && v % 4 == 0 && !v.testBit 7 && decide (v / 256 ≤ 2)
    else true
  if !valueOk then Rc.range
  else if (ix = Ix.tdmEn ∨ ix = Ix.tdmRxClk ∨ ix = Ix.tdmTxClk) ∧ !pairsOk s en clk then Rc.state
  else if 64 < asrcNeed s en clk mask then Rc.capacity
  else Rc.done

/-- A house rate fits every enabled TDM direction (R214). -/
def tdmRateFits (s : State) (rate : Nat) : Bool :=
  let finalMask (ix n : Nat) : List Nat := s.shut.pend.flatMap (fun p =>
    if p.checked then (p.changes.filter (fun c => c.ix == ix && c.sub == n)).map (fun c => c.val.toNat) else [])
  (upFrom 0 64).all (fun k =>
    let n := k / 2
    let f := dictFmt s k
    !(s.nat Ix.tdmEn n).testBit (k % 2) ||
      (fmtFits f rate && decide (dictMask s k < 2 ^ slotLimit rate) &&
        (finalMask (if k % 2 = 0 then Ix.tdmRxMask else Ix.tdmTxMask) n).all (fun m => decide (m < 2 ^ slotLimit rate))))

end Sys2Proof.Machine
end

