-- ==== Sys2Proof/Machine/TakeOps.lean ====
section
/-! DEFINITION. What lands on the Lattice: transparency, takes, mutes and class changes of a destination (R48,
R148 to R155), generator levels (R157), take slots (R153), and the end of the tick. -/

namespace Sys2Proof.Machine

/-- The transparency of a destination lands (R155): the causes a transparent route lacks are open, a mute is
whole, and its limiter starts afresh (R134). -/
def landTransp (r : Dest) (on : Bool) : Dest :=
  if r.transp == on then r
  else
    { r with
      transp := on, lim := Limiter.reset
      absent := if on then Fade.unity else r.absent
      npcm := if on then Fade.unity else r.npcm
      mute := if on then (if r.mute.mode == .silent || r.mute.mode == .fadingOut then Fade.silent else Fade.unity) else r.mute }

/-- A take from source `old` lands (R150 to R152); on a transparent destination a SOFT take is a CUT. -/
def landTake (r : Dest) (old new : Nat) (soft : Bool) (offset : Nat) : Dest :=
  let before := match r.take with
    | some t => if t.soft && decide (t.k < 32) then some (t.old, t.k) else none
    | none => none
  { r with sel := new, take := some { old := old, soft := soft, offset := offset, k := 0, before := before } }

/-- A mute lands (R154). -/
def landMute (r : Dest) (on : Bool) : Dest :=
  { r with mute := if r.transp then (if on then Fade.silent else Fade.unity)
                   else if on then fadeOut r.mute else fadeIn r.mute }

/-- A class change lands in tick `c` (R48). -/
def landClass (r : Dest) (c cls : Nat) : Dest :=
  match r.change with
  | some (t, _) => { r with change := some (t, cls) }
  | none => if cls = r.clsNow then r else { r with change := some (c, cls), cls := fadeOut r.cls }

/-- What the landings of a boundary make of a destination (R148): `p` is how it stood before them. -/
def destLanded (s : State) (d : Nat) (p : DestPre) : Dest :=
  let r1 := landTransp p.was (s.flag Ix.latTransp d)
  let sel := s.nat Ix.latSel d
  let mend := p.was.hasFault && p.wrote.contains Ix.latSel
  let r2 := if mend then { r1 with sel := sel, take := none, hasFault := false, fault := fadeIn r1.fault }
    else if sel ≠ p.sel ∧ destUsable s d then
      landTake r1 p.sel sel (s.nat Ix.latTake d == 1 && !r1.transp) (s.nat Ix.latOffset d)
    else { r1 with sel := sel }
  let mute := s.flag Ix.latMute d
  let r3 := if mute ≠ p.mute then landMute r2 mute else r2
  let cls := s.nat Ix.egressClass d
  if isPhysDest d && p.wrote.contains Ix.egressClass then landClass r3 s.tick cls else r3

/-- A destination object has landed; `old` is the state before it. -/
def landDest (old : State) (s : State) (ix d : Nat) : State :=
  let p0 : DestPre := match mapFind d s.lat.pre with
    | some p => p
    | none => { was := old.dest d, sel := old.nat Ix.latSel d, mute := old.flag Ix.latMute d
                cls := old.nat Ix.egressClass d, wrote := [] }
  let p : DestPre := { p0 with wrote := p0.wrote ++ [ix] }
  let s1 := { s with lat := { s.lat with pre := mapPut d p s.lat.pre } }
  s1.setDest d (destLanded s1 d p)

/-- GEN_LEVEL has landed (R157): the level moves linearly over 32 samples from what it was when the boundary
came. -/
def landGen (old : State) (s : State) (g : Nat) : State :=
  let start : Int := match mapFind g s.lat.genPre with
    | some a => a
    | none =>
      match mapFind g old.lat.gens with
      | some r => if r.k = 0 then r.fromLvl else if 32 ≤ r.k then r.toLvl
          else r.fromLvl + (r.toLvl - r.fromLvl) * (r.k : Int) / 32
      | none => mixLevel (old.int Ix.genLevel g)
  let s1 := if (mapFind g s.lat.genPre).isSome then s else keepFrames old s g
  { s1 with lat := { s1.lat with
      genPre := mapPut g start s1.lat.genPre
      gens := mapPut g { fromLvl := start, toLvl := mixLevel (s1.int Ix.genLevel g), k := 0 } s1.lat.gens } }

/-- A take occupies a slot (R153). -/
def takeHolds (t : Take) : Bool := t.soft || decide (0 < t.offset)

/-- Take slots held now (R153). -/
def takesHeld (s : State) : Nat :=
  (s.lat.dests.filter (fun p => (p.2.take.map takeHolds).getD false)).length

/-- Whether a write of LAT_SEL would be a take that occupies a slot, by the values in force at its landing: a SOFT take,
which on a transparent destination is a CUT, or a CUT within its frame (R153). -/
def takeCost (s : State) (d sel : Nat) : Nat :=
  if sel = s.nat Ix.latSel d then 0
  else if 0 < s.nat Ix.latOffset d then 1
  else if s.nat Ix.latTake d = 1 ∧ !s.flag Ix.latTransp d then 1
  else 0

/-- A take ends with its tick (R150, R153): CUT always, SOFT from k = 31 on. -/
def endTake (r : Dest) : Dest :=
  match r.take with
  | some t => if t.soft && decide (t.k < 32) then r else { r with take := none }
  | none => r

/-- The end of a tick for the Lattice. -/
def endLattice (s : State) : State :=
  let keys := s.lat.dests.map (fun p => p.1)
  let s1 := keys.foldl (fun s d => s.setDest d { endTake (s.dest d) with gathered := false, converted := false }) s
  let n := s.ticklen
  let s2 := (s1.setNat Ix.latGatherLoad 0 s1.lat.gathers1).setNat Ix.latGatherLoad 1 s1.lat.gathers2
  let seq := iterate (fun f => (fadeStep f).2) n s2.lat.seq
  let door := iterate (fun f => (fadeStep f).2) n s2.lat.door
  { s2 with lat := { s2.lat with
      seq := seq, door := door, shared := fadeCode [seq, door]
      pre := [], genPre := [], gathers1 := 0, gathers2 := 0
      badFrames := s2.lat.badFrames.filter (fun f => decide (s.tag < f.2 + 2))
      gens := (s2.lat.gens.filter (fun g => decide (g.2.k < 32 + 2 * n))).map (fun (g : Nat × Gen) => (g.1, { g.2 with k := g.2.k + n })) } }

/-- LAT_SRC_STATE of a source at the end of a tick (R161): 0 unpopulated, 3 not usable, 1 present or 2 absent
in the last tick, with the non-PCM flag. -/
def srcStateCode (s : State) (i : Nat) : Nat :=
  if !srcPopulated i then 0
  else if !srcUsable s i then 3
  else
    match storedFrame s i s.tag with
    | some f => if f.bad then 2 else 1 + (if f.npcm then 128 else 0)
    | none =>
      if s.lat.badFrames.contains (i, s.tag) then 2
      else if 0x7F00 ≤ i ∨ (0x4000 ≤ i ∧ i < 0x4400 ∧ busUnnamed s (i - 0x4000) s.tag) then 1
      else 2

/-- An unusable destination, or a stopped sequencer, ends its takes at once (R149). -/
def dropTakes (s : State) : State :=
  (s.lat.dests.map (fun p => p.1)).foldl (fun s d => s.setDest d { s.dest d with take := none }) s

end Sys2Proof.Machine
end

