-- ==== Sys2Proof/Machine/NetOps.lean ====
section
/-! DEFINITION. The streams of the media network: formats and packet times (R238, R240), placement, hand-over and
return of receive streams (R241 to R246), transmit packets (R247), enables (R249), joins (R250), and what a
write of a stream object must satisfy. -/

namespace Sys2Proof.Machine

/-- The format fields of R260. -/
def nfKind (f : Nat) : Nat := f % 4
def nfChans (f : Nat) : Nat := f / 4 % 128
def nfTime (f : Nat) : Nat := f / 512 % 8
def nfType (f : Nat) : Nat := f / 4096 % 128
def nfPreamble (f : Nat) : Bool := f.testBit 19

/-- Samples per packet (R238). -/
def perPacket (cls f : Nat) : Nat :=
  (match nfTime f with
    | 0 => 6
    | 1 => 12
    | 2 => 16
    | _ => 48) * 2 ^ cls
/-- Bytes per sample (R238). -/
def sampleBytes (f : Nat) : Nat := if nfKind f = 0 then 3 else if nfKind f = 1 then 2 else 4
/-- Width w of a stream's samples (R239). -/
def streamBits (f : Nat) : Nat := if nfKind f = 1 then 16 else 24
/-- Payload bytes of a packet (R238). -/
def payloadBytes (cls f : Nat) : Nat := perPacket cls f * nfChans f * sampleBytes f

/-- R, the samples of a receive ring (R241). -/
def ringSamples (cls : Nat) : Nat := 160 * 2 ^ cls
/-- NRX_MAX_OFFSET (R242). -/
def maxOffset (cls ticklen : Nat) : Nat := ringSamples cls - 4 * ticklen

def rxOf (s : State) (r : Nat) : NetRx := mapGet (fun _ => NetRx.off) r s.net.rx
def txOf (s : State) (k : Nat) : NetTx := mapGet (fun _ => NetTx.off) k s.net.tx
def setTx (s : State) (k : Nat) (t : NetTx) : State :=
  { s with net := { s.net with tx := mapSet (fun _ => NetTx.off) k t s.net.tx } }

/-- NRX_STATE's code of a stream (R260). -/
def rxRunCode : PortRun → Nat
  | .off => 0
  | .starting => 1
  | .running => 2
  | .lost => 3
  | .mismatch => 4
  | .recovering => 5

/-- Replace a receive stream, with what NRX_STATE reports of it. -/
def setRx (s : State) (r : Nat) (x : NetRx) : State :=
  let old := s.nat Ix.nrxState r
  let st := rxRunCode x.run + (if x.run == .off then 0 else old / 16 % 4 * 16) +
    (if x.pairs.any (fun p => p.npcm) then 64 else 0)
  { s with net := { s.net with rx := mapSet (fun _ => NetRx.off) r x s.net.rx } }.setNat Ix.nrxState r st

/-- The port of a leg (0 or 1) of a stream (R235, R260). -/
def legPort (pair leg : Nat) : Nat := 2 * (pair % 2) + leg
/-- A stream uses a leg. -/
def legUsed (pair leg : Nat) : Bool := pair.testBit (1 + leg)
/-- The half of a 64-bit object that belongs to a leg. -/
def legWord (v leg : Nat) : Nat := if leg = 0 then v % 4294967296 else v / 4294967296

/-- The link of a port is up. -/
def linkUp (s : State) (p : Nat) : Bool := s.nat Ix.netLink p != 0

/-- The word of one channel of a received sample (R23, R239). -/
def rxWord (f raw : Nat) : Word :=
  let w := streamBits f
  convertIn w (signedOf w (raw % 2 ^ w))

/-- The house sample S nearest `cur` for which S mod 2^32 = ts (R240). -/
def nearestSample (cur ts : Nat) : Option Nat :=
  let d := (ts + 4294967296 - cur % 4294967296) % 4294967296
  if d < 2147483648 then some (cur + d)
  else if 4294967296 ≤ cur + d then some (cur + d - 4294967296) else none

/-- Count one of NRX_STATS (R260). -/
def rxStat (s : State) (r k n : Nat) : State := if n = 0 then s else s.addHold Ix.nrxStats (8 * r + k) n

/-- The detail of a stream alarm (R258). -/
def streamDetail (r leg : Nat) : Nat := r + 4096 * leg

/-- The raw channel values of sample `i` of a payload, most significant byte first. -/
def rawSample (f i : Nat) (payload : List Byte) : List Nat :=
  let b := sampleBytes f
  (upFrom 0 (nfChans f)).map (fun k => natBE ((payload.drop ((i * nfChans f + k) * b)).take b))

/-- Place one received sample of media time `ts` (R241, R243). -/
def placeSample (s : State) (port r leg stamp ts : Nat) (raw : List Nat) : State :=
  let x := rxOf s r
  let pos := ts + x.offset
  if pos / s.ticklen < s.tick then
    netEvent 0x06 port 1 ((rxStat s r 3 1).alarm Al.netRxLate (streamDetail r leg))
  else if (s.tick - 3) * s.ticklen + ringSamples s.cls ≤ pos then
    (rxStat s r 4 1).alarm Al.netRxEarly (streamDetail r leg)
  else if (mapFind pos x.got).isSome then netEvent 0x05 port 1 (rxStat s r 2 1)
  else rxStat (setRx s r { x with got := mapPut pos { raw := raw, stamp := stamp } x.got }) r leg 1

/-- Place the samples of a packet (R240, R241). -/
def placePacket (s : State) (port r leg : Nat) (p : NetPacket) : State :=
  let f := (rxOf s r).fmt
  let cur := s.tick * s.ticklen + p.sample
  (upFrom 0 (perPacket s.cls f)).foldl (fun s i =>
    match nearestSample cur ((p.ts.toNat + i) % 4294967296) with
    | some ts => placeSample s port r leg p.stamp ts (rawSample f i p.payload)
    | none => s) s

/-- The non-PCM test of one pair on one sample (R229, R246). -/
def pairTestStep (f : Nat) (a b : Nat) (t : PairTest) : PairTest × Bool :=
  let form16 (v : Nat) : Nat := if nfKind f = 1 then v % 65536 else v / 256 % 65536
  let found := (form16 a == 0xF872 && form16 b == 0x4E1F) ||
    (nfKind f != 1 && a % 16777216 == 0x96F872 && b % 16777216 == 0xA54E1F)
  let cs (old : List Bool) (v : Nat) : List Bool :=
    if nfKind f = 2 then (if v.testBit 29 then [] else old) ++ [v.testBit 26] else []
  let ca := cs t.csA a
  let cb := cs t.csB b
  let bytes (l : List Bool) : List Byte :=
    (upFrom 0 24).map (fun k => BitVec.ofNat 8 ((upFrom 0 8).foldl (fun n i =>
      if listGet false (8 * k + i) l then n + 2 ^ i else n) 0))
  let judge (l : List Bool) (old : Bool) : Bool :=
    if l.length = 192 ∧ (bytes l).getLast? = some (Config.crcc ((bytes l).take 23)) then listGet false 1 l else old
  let na := judge ca t.nonA
  let nb := judge cb t.nonB
  let hit := found || na || nb
  ({ quiet := if hit then 0 else t.quiet + 1
     npcm := hit || (t.npcm && decide (t.quiet + 1 < 8192))
     csA := if ca.length = 192 then [] else ca, csB := if cb.length = 192 then [] else cb
     nonA := na, nonB := nb }, hit && !t.npcm)

/-- The stream's pairs are tested (R246). -/
def pairsTested (f : Nat) : Bool := nfKind f == 2 || nfPreamble f

/-- Test every pair on one sample; a change to non-PCM is reported. -/
def testPairs (f : Nat) (raw : List Nat) : Nat → List PairTest → List PairTest × Bool
  | _, [] => ([], false)
  | j, t :: r =>
    let (t1, c1) := pairTestStep f (listGet 0 (2 * j) raw) (listGet 0 (2 * j + 1) raw) t
    let (r1, c2) := testPairs f raw (j + 1) r
    (t1 :: r1, c1 || c2)

/-- What the hand-over of a block gathers sample by sample. -/
structure RxWalk where
  x : NetRx
  /-- Words of each sample, by channel, and whether its fades scale it, or make it 0. -/
  rows : List (List Word)
  low : List Bool
  mute : List Bool
  whole : Bool
  concealed : Nat
  lost : Bool
  npcm : Bool
  toNpcm : Bool
  delivered : Nat

/-- One sample of a receive block at house sample `pos` (R244, R246). -/
def rxStep (n pos : Nat) (w : RxWalk) : RxWalk :=
  let x := w.x
  let found := mapFind pos x.got
  let x1 : NetRx := match found with
    | some g => { x with held := g.raw.map (rxWord x.fmt) }
    | none => x
  let (pairs, tn) := match found with
    | some g => if pairsTested x.fmt then testPairs x.fmt g.raw 0 x1.pairs else (x1.pairs, false)
    | none => (x1.pairs, false)
  let x2 := { x1 with pairs := pairs }
  let running := x.run == .running
  let miss := if found.isSome then 0 else x.missing + 1
  let lose := (running || x.run == .recovering) && found.isNone && decide (n < miss)
  let x3 : NetRx := if lose then { x2 with run := .lost, svc := fadeOut x2.svc, frozen := x2.held, counts := false }
    else if x.run == .lost && found.isSome then { x2 with run := .recovering } else x2
  let base := if running && !lose then x3.held else x3.frozen
  let (gs, fs) := fadeStepAll [x3.en, x3.svc]
  let row := if gs.all (fun g => g == 134217728) then base else base.map (fun v => scaleWord v gs)
  let x4 : NetRx := match fs with
    | [e, v] => { x3 with en := e, svc := v, missing := miss }
    | _ => x3
  { x := x4, rows := w.rows ++ [row], low := w.low ++ [!gs.all (fun g => g == 134217728)]
    mute := w.mute ++ [gs.any (fun g => g == 0)], whole := w.whole && found.isSome
    concealed := w.concealed + (if running && found.isNone && !lose then 1 else 0)
    lost := w.lost || lose
    npcm := w.npcm || pairs.any (fun p => p.npcm), toNpcm := w.toNpcm || tn
    delivered := w.delivered + (if found.isSome then 1 else 0) }

/-- Groups of a stream's used legs: port and destination, where it is multicast and not the port's own
address (R250). -/
def rxGroups (s : State) (r : Nat) : List (Nat × Nat × Nat) :=
  let pair := s.nat Ix.nrxPair r
  ([0, 1].filter (legUsed pair)).filterMap (fun l =>
    let p := legPort pair l
    let d := legWord (s.nat Ix.nrxDst r) l
    if d / 268435456 = 14 ∧ d ≠ s.nat Ix.netPortAddr p ∧ d ≠ s.nat Ix.netSvcAddr p ∧ s.nat Ix.netPortAddr p ≠ 0 then
      some (p, d, legWord (s.nat Ix.nrxSrc r) l)
    else none)

/-- The transmit streams that the pair watches (R335). -/
def watchedStreams (s : State) : List Nat :=
  if s.nat Ix.pairMode = 1 then (((upFrom 0 8).map (fun i => s.nat Ix.pairWatch i)).filter (fun k => decide (k < 512))).eraseDups
  else []

/-- Groups of one watched stream: the unit joins them on both legs, in every role (R335). -/
def watchGroupsOf (s : State) (k : Nat) : List (Nat × Nat × Nat) :=
  [0, 1].filterMap (fun l =>
    let p := legPort (s.nat Ix.ntxPair k) l
    let d := legWord (s.nat Ix.ntxDst k) l
    if d / 268435456 = 14 ∧ s.nat Ix.netPortAddr p ≠ 0 then some (p, d, 0) else none)
def watchGroups (s : State) : List (Nat × Nat × Nat) := ((watchedStreams s).flatMap (watchGroupsOf s)).eraseDups

/-- A list of groups holds a group on its port, whatever the source. -/
def hasGroup (gs : List (Nat × Nat × Nat)) (g : Nat × Nat × Nat) : Bool := gs.any (fun h => h.1 == g.1 && h.2.1 == g.2.1)

/-- Another running stream, or the watch, uses a group on a port. -/
def groupShared (s : State) (r : Nat) (g : Nat × Nat × Nat) : Bool :=
  hasGroup (watchGroups s) g || s.net.rx.any (fun q => q.1 != r && q.2.run != .off && hasGroup q.2.joined g)

/-- A frame of the port's own traffic leaves a port (R236, R257, R259): a port without an address sends none, and one whose
link is down discards and counts it. -/
def sendCtl (s : State) (p : Nat) (o : Output) : State :=
  if s.nat Ix.netPortAddr p = 0 then s
  else if !linkUp s p then s.addHold Ix.netPortCounts (8 * p + 7) 1
  else netEvent 0x09 p 1 ((s.addHold Ix.netPortCounts (8 * p + 1) 1).emit o)

/-- Report some groups. -/
def reportGroups (s : State) (gs : List (Nat × Nat × Nat)) (join : Bool) : State :=
  gs.foldl (fun s g => sendCtl s g.1 (.igmp g.1 g.2.1 g.2.2 join)) s

/-- The groups of a stream that no other stream uses on the port (R250). -/
def newGroups (s : State) (r : Nat) : List (Nat × Nat × Nat) := (rxOf s r).joined.filter (fun g => !groupShared s r g)

/-- Report joins or leaves of a stream (R250). A group another stream uses on the port is neither joined again
nor left. In quiet mode the ports send nothing (R248). -/
def igmpReport (s : State) (r : Nat) (join : Bool) : State := if s.boot.quiet then s else reportGroups s (newGroups s r) join

/-- Every group joined on the media ports. -/
def joinedGroups (s : State) : List (Nat × Nat × Nat) :=
  (((s.net.rx.filter (fun x => x.2.run != .off)).flatMap (fun x => x.2.joined)) ++ watchGroups s).eraseDups
/-- The groups of the watch have changed (R250, R335). -/
def landWatch (old s : State) : State :=
  if s.boot.quiet then s else
  let was := watchGroups old
  let now := watchGroups s
  let other (g : Nat × Nat × Nat) : Bool := s.net.rx.any (fun q => q.2.run != .off && hasGroup q.2.joined g)
  let s1 := reportGroups s (was.filter (fun g => !hasGroup now g && !other g)) false
  let s2 := reportGroups s1 (now.filter (fun g => !hasGroup was g && !other g)) true
  let fresh := (watchedStreams s).filter (fun k => !(watchedStreams old).contains k)
  { s2 with net := { s2.net with watchDue := (s2.net.watchDue ++ fresh).eraseDups } }

/-- A packet is a watched one (R335): from NET_SVC_ADDR to the address and port of a watched stream. -/
def isWatched (s : State) (p src dst dport : Nat) : Bool :=
  s.nat Ix.netSvcAddr p != 0 && src == s.nat Ix.netSvcAddr p && (watchedStreams s).any (fun k =>
    dport == s.nat Ix.ntxUdp k % 65536 && [0, 1].any (fun l =>
      legPort (s.nat Ix.ntxPair k) l == p && legWord (s.nat Ix.ntxDst k) l == dst))

/-- Hand over the blocks of a receive stream for the samples of tick `tag` (R241, R244, R246, R249). -/
def rxHandOver (tag : Nat) (s : State) (r : Nat) : State :=
  let x0 := rxOf s r
  if x0.run == .off then s
  else
    let tl := s.ticklen
    let start := tag * tl
    let w := (upFrom start tl).foldl (fun w pos => rxStep (perPacket s.cls x0.fmt) pos w)
      { x := x0, rows := [], low := [], mute := [], whole := true, concealed := 0, lost := false, npcm := false, toNpcm := false, delivered := 0 }
    let x1 := { w.x with got := w.x.got.filter (fun g => decide (start + tl ≤ g.1)) }
    let back := x1.run != .running && x1.run != .off && w.whole && x1.counts
    let x2 : NetRx := if back then { x1 with run := .running, svc := fadeIn x1.svc, missing := 0 } else x1
    let chan (k : Nat) : List Word := w.rows.map (fun row => listGet 0 k row)
    let stamp := match mapFind start x0.got with
      | some g => g.stamp
      | none => 0
    let s1 := (upFrom 0 x0.chans).foldl (fun s k =>
      let i := x0.base + k
      let np := (listGet PairTest.reset (k / 2) x2.pairs).npcm || (w.npcm && (listGet PairTest.reset (k / 2) x0.pairs).npcm)
      let hdr : BlockHdr := { tick := tag, stamp := stamp, npcm := np, concealed := decide (0 < w.concealed)
                              fading := (w.low.zip w.mute).any (fun m => m.1 && !m.2), silent := w.mute.all (fun m => m) }
      let s1 := setBlock s i { hdr := hdr, words := chan k, first := 0 }
      if s.port.held.contains i then s1
      else putFrame s1 i { tag := tag, words := chan k, low := w.low, npcm := np, bad := false }) s
    let s2 := rxStat (rxStat s1 r 6 w.concealed) r 7 (if w.lost then 1 else 0)
    let s3 := netEvent 0x07 (legPort (s.nat Ix.nrxPair r) 0) w.concealed
      (netEvent 0x04 (legPort (s.nat Ix.nrxPair r) 0) (x0.chans * w.delivered) s2)
    let s4 := (s3.alarmIf w.lost Al.netRxLoss (streamDetail r 0)).alarmIf w.toNpcm Al.netRxNonpcm (streamDetail r 0)
    if x2.stopping && x2.en.mode == .silent then setRx (igmpReport s4 r false) r NetRx.off
    else setRx s4 r { x2 with counts := true }

/-- A receive stream as at its enable (R244). -/
def rxFresh (offset base chans fmt : Nat) : NetRx :=
  let zeros : List Word := List.replicate chans 0
  { NetRx.off with
    run := .starting, offset := offset, base := base, chans := chans, fmt := fmt
    held := zeros, frozen := zeros, pairs := List.replicate (ceilDiv chans 2) PairTest.reset }

/-- In quiet mode the stream engine has stopped (R454): the channels of an enabled stream are silent, and nothing is
counted. -/
def quietHandOver (tag : Nat) (s : State) (r : Nat) : State :=
  let x := rxOf s r
  if x.run == .off then s
  else if x.stopping then setRx s r NetRx.off
  else
    let zeros : List Word := List.replicate s.ticklen 0
    let hdr : BlockHdr := { tick := tag, stamp := 0, npcm := false, concealed := false, fading := false, silent := true }
    (upFrom x.base x.chans).foldl (fun t i =>
      let t1 := setBlock t i { hdr := hdr, words := zeros, first := 0 }
      if t.port.held.contains i then t1 else putFrame t1 i { tag := tag, words := zeros, low := [], npcm := false, bad := false }) s

/-- The network hands over the frames of a tick. -/
def netHandOver (tag : Nat) (s : State) : State :=
  (s.net.rx.map (fun p => p.1)).foldl (if s.boot.quiet then quietHandOver tag else rxHandOver tag) s

/-- A receive stream starts with what its objects hold (R244): present, silent blocks. -/
def rxStart (s : State) (r : Nat) : NetRx :=
  let f := s.nat Ix.nrxFmt r
  { rxFresh (s.nat Ix.nrxOffset r) (s.nat Ix.nrxBase r) (nfChans f) f with joined := rxGroups s r }

/-- A stream that runs has joined its groups, and the report is to be repeated (R250). -/
def joinStream (s : State) (r : Nat) (x : NetRx) : State :=
  let s1 := setRx s r x
  igmpReport (setRx s1 r { x with repeatDue := newGroups s1 r }) r true

/-- NRX_EN has landed (R244, R249, R250): present, silent blocks from this tick on, and the joins; or the
fade-out of every channel. An enable that lands in that fade-out turns it round, where the stream's objects stand as they
did; where they have changed, the old sources and groups are left at once and the stream starts anew (DESIGN CHOICE,
assumption 143: R249 gives the fade-out and the enable, not their meeting). -/
def landRxEn (s : State) (r : Nat) (was : Bool) : State :=
  let on := s.flag Ix.nrxEn r
  let x := rxOf s r
  let y := rxStart s r
  if on && !was then
    if x.run == .off then joinStream s r y
    else if x.base == y.base && x.fmt == y.fmt && x.offset == y.offset && x.joined == y.joined then
      joinStream s r { x with en := fadeIn x.en, stopping := false }
    else joinStream (igmpReport s r false) r y
  else if !on && was && x.run != .off then setRx s r { x with en := fadeOut x.en, stopping := true }
  else s

/-- NRX_OFFSET has landed on a running stream (R242). -/
def landRxOffset (s : State) (r : Nat) : State :=
  let x := rxOf s r
  let o := s.nat Ix.nrxOffset r
  if x.run == .off || x.offset == o then s
  else
    setRx s r { x with
      offset := o, got := [], svc := fadeOut x.svc, frozen := if x.run == .running then x.held else x.frozen
      run := if x.run == .running then .recovering else x.run, counts := false }

/-- NTX_STATE (R260). -/
def txStateCode (s : State) (k : Nat) : Nat := if !(txOf s k).on then 0 else if s.isDoor then 2 else 1

/-- NTX_EN has landed (R248, R249): an enabled stream counts as ready, and as sending on the door-holder. One that is
enabled already goes on. -/
def landTxEn (s : State) (k : Nat) : State :=
  let on := s.flag Ix.ntxEn k
  let s1 := if on && (txOf s k).on then s else setTx s k { NetTx.off with on := on }
  s1.setNat Ix.ntxState k (txStateCode s1 k)

/-- The running transmit stream that covers a network destination. -/
def txStreamOf (s : State) (d : Nat) : Option Nat :=
  (s.net.tx.find? (fun p => p.2.on && decide (s.nat Ix.ntxBase p.1 ≤ d) &&
    decide (d < s.nat Ix.ntxBase p.1 + nfChans (s.nat Ix.ntxFmt p.1)))).map (fun p => p.1)

/-- Bit `i` of a channel-status block of 24 bytes. -/
def csBit (block : List Byte) (i : Nat) : Bool := (listGet 0 (i / 8) block).getLsbD (i % 8)

/-- The 24 channel-status bytes sent from 23: byte 23 is the CRCC (R228). -/
def withCrcc (b : List Byte) : List Byte := b.take 23 ++ [Config.crcc (b.take 23)]

/-- The bytes of six words of an object from a subindex on. -/
def wordsBytes (s : State) (ix sub : Nat) : List Byte := (upFrom 0 6).flatMap (fun w => bytesLE 4 (s.nat ix (sub + w)))

/-- The channel-status block of an ST 2110-31 transmit channel (R246). -/
def txStatus (s : State) (k chan : Nat) : List Byte :=
  let src := s.nat Ix.ntxCsSrc k
  if src = 0 then withCrcc (1 :: List.replicate 22 0)
  else withCrcc (wordsBytes s Ix.aesiCs (12 * (src - 1) + 6 * (chan % 2)))

/-- Odd number of ones among the low 32 bits. -/
def oddOnes (n : Nat) : Bool := (upFrom 0 32).foldl (fun b i => b != n.testBit i) false

/-- One channel's value in a transmit payload (R239, R246). -/
def txRaw (s : State) (k chan f ts : Nat) (v : Int) : Nat :=
  if nfKind f ≠ 2 then unsignedOf (streamBits f) v
  else
    let b := ts % 192
    let body := unsignedOf 24 v + (if csBit (txStatus s k chan) b then 67108864 else 0)
    body + (if oddOnes body then 134217728 else 0) + (if chan % 2 = 0 then 268435456 else 0) +
      (if b = 0 then 536870912 else 0)

/-- The packet of stream `k` that begins at `first`, where every sample of it is there (R247). -/
def readyPayload (s : State) (k first : Nat) : Option (List Byte) :=
  let t := txOf s k
  let f := s.nat Ix.ntxFmt k
  let n := perPacket s.cls f
  let c := nfChans f
  let keys := (upFrom first n).flatMap (fun ts => (upFrom 0 c).map (fun j => (ts, j)))
  let vals := keys.map (fun q => (q, mapFind (64 * q.1 + q.2) t.samples))
  if vals.all (fun v => v.2.isSome) then
    some (vals.flatMap (fun v => bytesBE (sampleBytes f) (txRaw s k v.1.2 f v.1.1 (v.2.getD 0))))
  else none

/-- Whether the unit sends the packet of stream `k` that begins at `first` (R248, R338, R341): not in the tick of a takeover. -/
def sendsPacket (s : State) (k first : Nat) : Bool :=
  match s.net.pass with
  | none => s.isDoor && !s.pair.runDue
  | some (t, gave) =>
    let ahead := if (s.dest (s.nat Ix.ntxBase k)).clsNow = 1 then t else t + 1
    let from' := ahead * s.ticklen + 1
    if gave then decide (first < from') else s.isDoor && decide (from' ≤ first)

/-- Enter a packet among those ready at a port: the earliest ready first, and then the lower stream number (R247). -/
def queuePacket (k : ReadyPacket) : List ReadyPacket → List ReadyPacket
  | [] => [k]
  | h :: t => if k.phase < h.phase ∨ (k.phase = h.phase ∧ k.stream < h.stream) then k :: h :: t else h :: queuePacket k t

/-- Enter a packet that has become ready at the ports of its legs (R247, R257). Where the link is down it is
discarded; while the unit is not door-holder it goes nowhere (R248). Packets that one egress phase completes are ready
together: DESIGN CHOICE (log 119). -/
def enterPacket (s : State) (k first : Nat) (payload : List Byte) : State :=
  let pair := s.nat Ix.ntxPair k
  let phase := 2 * s.tick + (if (s.dest (s.nat Ix.ntxBase k)).clsNow = 1 then 0 else 1)
  if !sendsPacket s k first then s
  else
    ([0, 1].filter (legUsed pair)).foldl (fun s l =>
      let p := legPort pair l
      if linkUp s p then
        let q : List ReadyPacket := mapGet (fun _ => []) p s.net.ready
        let e : ReadyPacket := { phase := phase, stream := k, leg := l, first := first, payload := payload }
        { s with net := { s.net with ready := mapPut p (queuePacket e q) s.net.ready } }
      else (s.addHold Ix.netPortCounts (8 * p + 7) 1).alarm Al.netTxDrop (streamDetail k l)) s

/-- Samples of a network destination's egress frame reach its stream (R247): sample j of the frame is presented
at media time `ts + j`. Packets they complete are ready. -/
def txSamples (s : State) (d ts : Nat) (vs : List Int) : State :=
  match txStreamOf s d with
  | none => s
  | some k =>
    let chan := d - s.nat Ix.ntxBase k
    let n := perPacket s.cls (s.nat Ix.ntxFmt k)
    let t := txOf s k
    let put := (vs.zip (upFrom ts vs.length)).foldl (fun m p => mapPut (64 * p.2 + chan) p.1 m) t.samples
    let s1 := setTx s k { t with samples := put }
    let firsts := ((upFrom ts vs.length).map (fun x => x / n * n)).eraseDups
    firsts.foldl (fun s first =>
      match readyPayload s k first with
      | none => s
      | some pl =>
        let t1 := txOf s k
        enterPacket (setTx s k { t1 with samples := t1.samples.filter (fun q => decide (64 * (first + n) ≤ q.1)) }) k first pl) s1

/-- Line rate of a port in bit/s (R235); 0 while it is off. -/
def lineRate (speed : Nat) : Nat := if speed = 0 then 0 else if speed = 1 then 10000000000 else 25000000000

/-- NET_PORT_TXLOAD of a port in ‰ (R247), with the streams `ks` enabled. -/
def txLoad (s : State) (ks : List Nat) (p : Nat) : Nat :=
  let bits := ks.foldl (fun n k =>
    let pair := s.nat Ix.ntxPair k
    let f := s.nat Ix.ntxFmt k
    let legs := ([0, 1].filter (fun l => legUsed pair l && legPort pair l == p)).length
    n + legs * ((payloadBytes s.cls f + 78) * 8 * s.fs * 1000 / perPacket s.cls f)) 0
  let rate := lineRate (s.nat Ix.netPortSpeed p)
  if rate = 0 then 0 else ceilDiv bits rate

/-- The transmit streams that run. -/
def txRunning (s : State) : List Nat := (s.net.tx.filter (fun p => p.2.on)).map (fun p => p.1)

/-- NET_PORT_TXLOAD and NRX_MAX_OFFSET (R242, R247). -/
def refreshNet (s : State) : State :=
  (upFrom 0 4).foldl (fun t p => t.setNat Ix.netPortTxload p (txLoad t (txRunning t) p))
    (s.setNat Ix.nrxMaxOffset 0 (maxOffset s.cls s.ticklen))

/-- The fields of a stream format are those of R260. -/
def streamFmtOk (rx : Bool) (v : Nat) : Bool :=
  decide (nfKind v ≤ 2) && decide (1 ≤ nfChans v) && decide (nfChans v ≤ 64) && decide (nfTime v ≤ 3) &&
    decide (96 ≤ nfType v) && decide (v < 1048576) && (rx || true) && (nfKind v != 2 || nfChans v % 2 == 0)

/-- The ranges of two enabled streams overlap (R239). -/
def rangesOverlap (a n b m : Nat) : Bool := decide (a < b + m) && decide (b < a + n)

/-- The owning rules of the network objects (R238, R239, R242, R247, R249, R256), as they judge a value. -/
def netCheck (s : State) (ix sub v : Nat) : Nat :=
  let rx := decide (0x0B40 ≤ ix) && decide (ix ≤ 0x0B4A)
  let en (k : Nat) : Bool := s.flag (if rx then Ix.nrxEn else Ix.ntxEn) k
  let fmtIx := if rx then Ix.nrxFmt else Ix.ntxFmt
  let baseIx := if rx then Ix.nrxBase else Ix.ntxBase
  if ix = Ix.netPortSpeed then
    if s.nat Ix.netPair1Mode = 1 ∧ (sub = 2 ∧ s.nat Ix.netPortSpeed 3 ≠ v ∨ sub = 3 ∧ s.nat Ix.netPortSpeed 2 ≠ v) then Rc.state
    else Rc.done
  else if ix = Ix.netPair1Mode then
    if v = 1 ∧ s.nat Ix.netPortSpeed 2 ≠ s.nat Ix.netPortSpeed 3 then Rc.state else Rc.done
  else if ix = Ix.nrxEn ∨ ix = Ix.ntxEn then
    if v = 0 ∨ en sub then Rc.done
    else
      let f := s.nat fmtIx sub
      let base := s.nat baseIx sub
      let clash := (upFrom 0 512).any (fun k => k != sub && en k &&
        rangesOverlap base (nfChans f) (s.nat baseIx k) (nfChans (s.nat fmtIx k)))
      if 1440 < payloadBytes s.cls f ∨ netCount s.cls < base + nfChans f ∨ clash then Rc.range
      else if rx then (if maxOffset s.cls s.ticklen < s.nat Ix.nrxOffset sub then Rc.range else Rc.done)
      else
        let pair := s.nat Ix.ntxPair sub
        let ks := (upFrom 0 512).filter (fun k => k == sub || en k)
        if [0, 1].any (fun l => legUsed pair l && decide (900 < txLoad s ks (legPort pair l))) then
          Rc.capacity
        else Rc.done
  else if ix = Ix.nrxOffset then (if maxOffset s.cls s.ticklen < v then Rc.range else Rc.done)
  else if ix = Ix.nrxFmt ∨ ix = Ix.ntxFmt then
    if !streamFmtOk rx v || decide (1440 < payloadBytes s.cls v) then Rc.range
    else if en sub then Rc.state else Rc.done
  else if (0x0B40 ≤ ix ∧ ix ≤ 0x0B4A) ∨ (0x0C00 ≤ ix ∧ ix ≤ 0x0C0A) then (if en sub then Rc.state else Rc.done)
  else Rc.done

/-- A house rate and TICKLEN keep every enabled stream's offset in range (R242). -/
def netRateFits (s : State) (rate ticklen : Nat) : Bool :=
  (upFrom 0 512).all (fun r => !s.flag Ix.nrxEn r || decide (s.nat Ix.nrxOffset r ≤ maxOffset (rateClass rate) ticklen))

/-- A new rate or tick length begins (R37): streams start over on the new grid, and what was placed or built on
the old one is dropped. -/
def netRestart (s : State) : State :=
  let s1 := (s.net.rx.map (fun p => p.1)).foldl (fun s r =>
    let x := rxOf s r
    if x.run == .off then s
    else setRx s r { x with got := [], missing := 0, counts := false, svc := Fade.silent, frozen := x.held
                            run := if x.run == .running then .recovering else x.run }) s
  { s1 with net := { s1.net with tx := s1.net.tx.map (fun (p : Nat × NetTx) => (p.1, { p.2 with samples := [] })), ready := [] } }

end Sys2Proof.Machine
end

