-- ==== Sys2Proof/Machine/SessOps.lean ====
section
/-! DEFINITION. Sessions and staging sets: opening, closing, and the objects that report them (R165, R192,
R196, R206). -/

namespace Sys2Proof.Machine

/-- An open session, by its number. -/
def sessOf (s : State) (k : Nat) : Option Session := mapGet (fun _ => none) k s.ctl.sessions

/-- What reads begun now are served from (R164). -/
def snapshot (s : State) : Snapshot :=
  { dict := s.dict, snap := s.snap, sets := s.shut.setsThen, shared := s.lat.shared }

/-- CTL_SESS_STATE (R206). -/
def sessWord (x : Session) : Nat :=
  1 + (if x.via = .hostPort then 2 else 0) + 4 * x.priv + (if x.tagAll then 16 else 0) + 256 * x.slot

/-- Replace a session, with the objects that report it. -/
def setSess (s : State) (k : Nat) (x : Option Session) : State :=
  let s1 := { s with ctl := { s.ctl with sessions := mapSet (fun _ => none) k x s.ctl.sessions } }
  match x with
  | none => ((s1.setNat Ix.ctlSessState k 0).setNat Ix.ctlSessCounter k 0).setNat Ix.ctlSessPeer k 0
  | some y =>
    ((s1.setNat Ix.ctlSessState k (sessWord y)).setNat Ix.ctlSessCounter k y.counter).setNat Ix.ctlSessPeer k
      (y.peer + 4294967296 * y.port)

/-- Change a session that is open. -/
def mapSess (s : State) (k : Nat) (f : Session → Session) : State :=
  match sessOf s k with
  | some x => setSess s k (some (f x))
  | none => s

/-- Records in a list of changes (R167). -/
def recordCount (cs : List Change) : Nat := (cs.map (fun c => recordsOf c.val)).foldl (· + ·) 0

/-- Records in use across sets and pending commits (R167). -/
def stageUsed (s : State) : Nat :=
  (s.shut.sets.map (fun p => recordCount p.2.changes)).foldl (· + ·) 0 +
    (s.shut.pend.map (fun p => recordCount p.changes)).foldl (· + ·) 0

/-- SHUT_STAGE_USED follows the records (R183). -/
def syncStage (s : State) : State := s.setNat Ix.shutStageUsed 0 (stageUsed s)

/-- Open, replace or close a staging set, with the objects that report it (R165, R183). -/
def setSet (s : State) (n : Nat) (x : Option StageSet) : State :=
  match x with
  | some y =>
    syncStage (({ s with shut := { s.shut with sets := mapPut n y s.shut.sets } }.setNat Ix.shutSetState n
      (1 + 256 * y.session)).setNat Ix.shutSetCount n y.changes.length)
  | none =>
    syncStage (({ s with shut := { s.shut with sets := mapErase n s.shut.sets } }.setNat Ix.shutSetState n 0).setNat
      Ix.shutSetCount n 0)

/-- Close a session (R196): its open sets are discarded, its subscriptions and its transfer go with it. A pending commit of
it belongs to no session any more (R173). -/
def closeSession (s : State) (k : Nat) : State :=
  let mine := (s.shut.sets.filter (fun p => p.2.session == k)).map (fun p => p.1)
  let s1 := mine.foldl (fun s n => mirrorSetEnd (setSet s n none) n 2 0) s
  let pend := s1.shut.pend.map (fun p => if p.session == k then { p with session := 0 } else p)
  setSess { s1 with shut := { s1.shut with pend := pend } } k none

/-- Close every session that `p` names. -/
def closeSessions (s : State) (p : Session → Bool) : State :=
  (s.ctl.sessions.filter (fun x => (x.2.map p).getD false)).foldl (fun s x => closeSession s x.1) s

/-- Nothing follows a reply. -/
def AfterReply.none : AfterReply := { close := Option.none, slots := [], reset := false }

/-- A reply has been sent: sessions close (R196, R206). -/
def replySent (s : State) (a : AfterReply) : State :=
  let s1 := match a.close with
    | some (k, key) =>
      (match sessOf s k with
        | some x => if x.key = key then closeSession s k else s
        | none => s)
    | none => s
  if a.slots.isEmpty then s1 else closeSessions s1 (fun x => a.slots.contains x.slot)

/-- The lowest free session number (R192). -/
def freeSession (s : State) : Option Nat :=
  (upFrom 1 32).find? (fun k => (sessOf s k).isNone)

end Sys2Proof.Machine
end

