-- ==== Sys2Proof/Machine/ShutOps.lean ====
section
/-! DEFINITION. Pending commits: their slots, their ends and the objects that report them (R169 to R173, R181,
R183). -/

namespace Sys2Proof.Machine

/-- The pending slot that holds a commit (R183). -/
def pendSlot (s : State) (id : Nat) : Option Nat :=
  (upFrom 0 8).find? (fun k => s.nat Ix.shutPendTick k != 0 && s.nat Ix.shutPendId k == id)

/-- Give a commit the lowest free pending slot. -/
def takeSlot (s : State) (id tick : Nat) : State :=
  match (upFrom 0 8).find? (fun k => s.nat Ix.shutPendTick k == 0) with
  | some k => (s.setNat Ix.shutPendTick k tick).setNat Ix.shutPendId k id
  | none => s

/-- Free the pending slot of a commit. -/
def freeSlot (s : State) (id : Nat) : State :=
  match pendSlot s id with
  | some k => (s.setNat Ix.shutPendTick k 0).setNat Ix.shutPendId k 0
  | none => s

/-- A commit ends (R173): it leaves the pending list, and SHUT_HISTORY takes its result. The partner's result of a
mirrored commit is kept for COMMIT_END (R333). -/
def endCommit (s : State) (p : Pending) (code gen : Nat) : State :=
  let s1 := freeSlot { s with shut := { s.shut with pend := s.shut.pend.filter (fun q => q.id != p.id) } } p.id
  let k := p.id % 64
  let s2 := ((s1.setNat Ix.shutHistory k (p.id + 4294967296 * code)).setNat Ix.shutHistGen k gen).setNat Ix.shutHistTick k s.tick
  let s3 := if p.mirrored then { s2 with pair := { s2.pair with results := s2.pair.results ++ [(p.id, code, gen)] } } else s2
  mirrorCommitEnd (syncStage s3) gen p.id code

/-- Reject a pending commit (R170, R173): counted, and alarmed except where the host aborted it. Back pages written ahead
for it are rebuilt (R178). -/
def rejectCommit (s : State) (p : Pending) (code : Nat) : State :=
  let s1 := if p.frozen then
      (touchedBy (p.changes.map (fun c => (c.ix, c.sub)))).foldl (fun t q => unpreparePage t (Fin.ofNat 16 q.1) q.2) s
    else s
  ((endCommit s1 p code 0).addHold Ix.shutRejects 0 1).alarmIf (code != 13) Al.commitRejected

/-- Reject every pending commit that has not passed its final check (R181). -/
def rejectOpen (s : State) (code : Nat) : State :=
  (s.shut.pend.filter (fun p => !p.checked)).foldl (fun s p => rejectCommit s p code) s

/-- The lead of a commit of n records (R169). -/
def commitLead (b n : Nat) : Nat := 2 + ceilDiv (20 * n) b

/-- Another pending commit holds a tick. -/
def tickHeld (s : State) (t : Nat) : Bool := s.shut.pend.any (fun p => p.tick == t)

/-- The first tick from `t` on, of `n` looked at, that no pending commit holds (R169). -/
def freeTick (s : State) : Nat → Nat → Nat
  | t, 0 => t
  | t, n + 1 => if tickHeld s t then freeTick s (t + 1) n else t

/-- SHUT_GEN moves to `g` (R162). -/
def setGen (s : State) (g : Nat) : State := (s.setNat Ix.shutGen 0 (g % 4294967296)).setNat Ix.shutGenTick 0 s.tick

/-- The generation of a landing event: the next one, or the one the partner gave it (R162, R333). -/
def bumpGen (s : State) (given : Option Nat) : State :=
  match given with
  | some g => setGen s g
  | none => setGen s (s.nat Ix.shutGen + 1)

end Sys2Proof.Machine
end

