-- ==== Sys2Proof/Machine/RoleOps.lean ====
section
/-! DEFINITION. Roles: what a unit of a pair runs and drives in each (R325), and its transitions (R327, R328, R338,
R340, R341, R453). -/

namespace Sys2Proof.Machine

/-- Ticks in a time given in milliseconds, rounded up (R34). -/
def ticksOfMs (s : State) (ms : Nat) : Nat := ceilDiv (ms * s.fs) (1000 * s.ticklen)

/-- NTX_STATE of every stream follows the role (R248). -/
def syncTx (s : State) : State :=
  s.net.tx.foldl (fun t k => t.setNat Ix.ntxState k.1 (txStateCode t k.1)) s

/-- PAIR_ROLE changes; ROLE_ACT is high while the unit is door-holder (R325). What an earlier swap left to send is over. -/
def setRole (s : State) (r : Nat) : State :=
  let was := s.isDoor
  let s1 := syncTx ({ s with net := { s.net with pass := none } }.setNat Ix.pairRole 0 r)
  if was == (r == 3) then s1 else s1.emit (.roleAct (r == 3))

/-- The stream engine stops: every packet not started is discarded (R340). -/
def stopStreams (s : State) : State :=
  { s with net := { s.net with ready := [], tx := s.net.tx.map (fun (k : Nat × NetTx) => (k.1, { k.2 with samples := [] })) } }

/-- One gratuitous ARP for each service address that is set, on the ports that send more than stream packets (R236). -/
def announceArp (s : State) : State :=
  (upFrom 0 4).foldl (fun t p =>
    if t.nat Ix.netSvcAddr p = 0 then t else sendCtl t p (.mediaArp p (t.nat Ix.netSvcAddr p) true)) s

/-- The shared cause of a unit that is not door-holder (R30, R325). -/
def setDoor (s : State) (f : Fade) : State := { s with lat := { s.lat with door := f } }

/-- Places whose engine is RUNNING or WAITING. -/
def placesRunning (s : State) : List (Fin 16) :=
  (List.finRange 16).filter (fun p =>
    isWorkPlace p && (match (s.engine (engineOf s p)).run with
      | .running | .waiting => true
      | _ => false))

/-- Every engine that runs becomes IDLE, and a RUN is held for its place (R453). -/
def haltWork (s : State) : State :=
  (placesRunning s).foldl (fun t p =>
    let e := engineOf t p
    let t1 := t.setEngine e (stopEngine (t.engine e))
    { t1 with pair := { t1.pair with deferred := mapPut p.val (some t1.tick) t1.pair.deferred } }) s

/-- A move in progress is abandoned with reason 4 and runs as quiet (R384). -/
def moveQuietly (s : State) : State :=
  match s.rsv.move with
  | some m => askFirst (abandonMove s 4 1) m.req
  | none => s

/-- The unit stops being door-holder: pending commits are rejected with code 8 (R181), a move in progress runs as
quiet (R384), a planned swap is over. -/
def leaveDoor (s : State) : State :=
  let s1 := rejectOpen s 8
  let s2 := haltWork s1
  let s3 := moveQuietly s2
  { s3 with pair := { s3.pair with swap := none, runDue := false, snapSent := false } }.setNat Ix.pairSwapTick 0 0

/-- A planned swap in which the unit has a part is over (R341). -/
def dropSwap (s : State) : State := { s with pair := { s.pair with swap := none } }.setNat Ix.pairSwapTick 0 0
/-- A swap is abandoned (R341). -/
def abandonSwap (s : State) : State := (dropSwap s).alarm Al.pairSwapAbandoned

/-- The unit drives its physical outputs: as door-holder, or as the old one until PAIR_OUT_HOLD is over (R325, R341). -/
def drivesOuts (s : State) : Bool := s.isDoor || s.pair.outHold.isSome

/-- The unit becomes ISOLATED (R327, R328): its outputs fade to silence, transmit stops, its engines are idle. -/
def toIsolated (s : State) : State :=
  let s1 := if s.isDoor then leaveDoor s else haltWork s
  let s2 := dropSwap (stopStreams (setRole s1 0))
  let s3 := { s2 with pair := { s2.pair with due := .none, outHold := none, held := [], parts := [] } }
  if drivesOuts s then setDoor s3 (fadeOut s3.lat.door) else s3

/-- While a unit stands by, its transmit streams are built and counted as ready, and carry silence (R248): DESIGN CHOICE
(log 121). -/
def standbyStreams (s : State) : State :=
  (txRunning s).foldl (fun t k =>
    (upFrom (t.nat Ix.ntxBase k) (nfChans (t.nat Ix.ntxFmt k))).foldl (fun u d =>
      txSamples u d ((u.tick + 1) * u.ticklen + 1) (List.replicate u.ticklen 0)) t) s

/-- The deferred RUNs act (R453): each engine starts as after a takeover. -/
def runDeferred (s : State) : State :=
  let ps := s.pair.deferred.map (fun p => p.1)
  let s1 := { s with pair := { s.pair with deferred := [] } }
  ps.foldl (fun t p =>
    let im := (t.engine (engineOf t (Fin.ofNat 16 p))).image
    if im.any (fun i => imageFits t i.raw) then startFresh t (Fin.ofNat 16 p) else t) s1

/-- An ISOLATED unit becomes ACTIVE by PAIR_CMD TAKE (R327, R453). -/
def toActive (s : State) : State :=
  let s1 := announceArp (setRole s 3)
  let s2 := { s1 with pair := { s1.pair with due := .none } }
  runDeferred (setDoor s2 (fadeIn s2.lat.door))

/-- The unit enters STANDBY-SYNC and joins (R342): PAIR_STALE where its generation is lower. An old door-holder whose outputs
still run takes the standard fade-out (R325). -/
def toSync (s0 : State) : State :=
  let s := if s0.pair.outHold.isSome then setDoor s0 (fadeOut s0.lat.door) else s0
  let s1 := if s.isDoor then leaveDoor s else s
  let s2 := dropSwap (haltWork (stopStreams (setRole s1 1)))
  let s3 := { s2 with pair := { s2.pair with due := .none, snapTaken := false, held := [], parts := [], tries := 0
                                             outHold := none, split := false } }
  s3.alarmIf (genLower (s3.nat Ix.shutGen) (s3.nat Ix.pairPeerGen)) Al.pairStale

/-- A unit gives the door away (R340): its stream engine stops, its outputs go silent without a fade, and it enters
STANDBY-SYNC. -/
def giveWay (s : State) : State := (toSync (setDoor s Fade.silent)).alarm Al.pairYielded

/-- What a takeover does with one place at t_d (R338): X and Y from the image's initial data, pages rewritten, the
gain-reduction region from the last GR record, delay lines empty, registers reset. -/
def restorePlace (s : State) (p : Fin 16) : State :=
  let e := engineOf s p
  match (s.engine e).image with
  | none => s
  | some im =>
    let s1 := rewritePages (s.setEngine e (putImage im.raw im.priv (s.engine e))) p
    let s2 := match mapFind p.val s1.pair.gr with
      | some (a, ws) => s1.setEngine e (putX a ws (s1.engine e))
      | none => s1
    dlyPlaceStart s2 p

/-- A standby takes the door at this boundary (R338, step 1). -/
def takeDoor (s : State) : State :=
  let s1 := syncTx ({ s with net := { s.net with pass := none } }.setNat Ix.pairRole 0 3)
  let keep := s1.pair.deferred
  let s2 := (List.finRange 16).foldl restorePlace s1
  let s3 := { s2 with
    pair := { s2.pair with deferred := keep, due := .none, tookAt := some s2.tick, runDue := true, split := false
                           swap := none, snapSent := false, doorAt := s2.clk.sysCounter, swapDue := false }
    lat := { s2.lat with dests := s2.lat.dests.map (fun (d : Nat × Dest) => (d.1, { d.2 with lim := Limiter.reset })) }
    shut := { s2.shut with unowned := if s2.shut.sets.isEmpty then none else some (s2.tick + ticksOfMs s2 10000) } }
  (((s3.setNat Ix.pairTakeovers 0 ((s3.nat Ix.pairTakeovers + 1) % 4294967296)).setNat Ix.pairLastDoor 0 s3.tick).setNat
    Ix.pairSwapTick 0 0).alarm Al.pairTakeover

/-- The tick after a takeover (R338, step 2): engines run, transmit starts, outputs take the standard fade-in. -/
def takeoverRun (s : State) : State :=
  let ps := s.pair.deferred.map (fun p => p.1)
  let s0 := (stopStreams s).emit (.roleAct true)
  let s1 := announceArp { s0 with pair := { s0.pair with runDue := false, deferred := [] } }
  let s2 := ps.foldl (fun t p =>
    if (t.engine (engineOf t (Fin.ofNat 16 p))).image.any (fun i => imageFits t i.raw) then startPlace t (Fin.ofNat 16 p) true else t) s1
  setDoor s2 (fadeIn s2.lat.door)

end Sys2Proof.Machine
end

