-- ==== Sys2Proof/Machine/SecOps.lean ====
section
/-! DEFINITION. Security: credential keys (R192, R410), Cabinet wipes (R412, R413), the sealed copy (R411), the
lifecycle (R406 to R409), tamper (R415), debug grants (R420, R421) and the image key (R418). -/

namespace Sys2Proof.Machine

/-- UNIQUE_ID in bytes, least significant first. -/
def uidBytes : List Byte := bytesLE 8 Config.uniqueId.toNat

/-- K_blank (R410). -/
def kBlank : List Byte := Config.cmac Config.kDev ([0x44, 0x52, 0x44, 0x42] ++ uidBytes ++ [0, 0, 0, 0])

/-- The key of credential slot 0 after a wipe (R406). -/
def slot0Key (s : State) : List Byte :=
  match s.sec.life with
  | 0 | 3 => kBlank
  | 1 | 2 => s.sec.kRec
  | _ => []

/-- K_c of a credential slot (R192). A slot other than 0 that holds no key since reset or a wipe has 128 zero bits
(DESIGN CHOICE: the spec gives it no key; CTL_CRED_PRIV keeps it disabled until a host enables it). -/
def credKey (s : State) (slot : Nat) : List Byte :=
  mapGet (fun k => if k = 0 then slot0Key s else List.replicate 16 0) slot s.ctl.keys

/-- Write a fresh sealed copy into the older of the two places (R411). -/
def sealNow (s : State) : State :=
  let n := s.sec.copies.foldl (fun m c => max m c.seq) 0 + 1
  let c : Sealed := { seq := n, life := s.sec.life, epoch := s.sec.epoch, keys := s.ctl.keys,
                      privs := (upFrom 0 16).map (fun k => s.nat Ix.ctlCredPriv k)
                      pub := (s.obj Ix.secImgPubkey 0).toBytes }
  { s with sec := { s.sec with sealDue := false, copies := c :: s.sec.copies.take 1 } }

/-- End the debug grant in force (R421). -/
def endGrant (s : State) : State :=
  match s.sec.grant with
  | none => s
  | some _ => ({ s with sec := { s.sec with grant := none, hkHalted := false } }.setNat Ix.secDbgState 0 0).alarm Al.secDbgGrant 0

/-- The Cabinet (R361). -/
def inCabinet (a : Nat) : Bool := decide (0x0060000000 ≤ a) && decide (a < 0x0060040000)

/-- Credential slots as a wipe leaves them (R412, step 4). -/
def wipeCreds (s : State) : State :=
  (upFrom 0 16).foldl (fun t k => t.setNat Ix.ctlCredPriv k (if k = 0 ∧ s.sec.life ≠ 4 then 3 else 0))
    { s with ctl := { s.ctl with keys := [] } }

/-- Writes that a wipe discards (R413). -/
def wipedWrite (ix : Nat) : Bool := ix == Ix.ctlCredWrap || ix == Ix.ctlCredPriv || ix == Ix.secImgPubkey

/-- A Cabinet wipe (R412). In a lifecycle advance it blows no epoch fuse. -/
def wipe (s : State) (advance : Bool) : State :=
  let s1 := endGrant (closeSessions s (fun _ => true))
  let s2 := { wipeCreds s1 with
    fab := { s1.fab with mem := s1.fab.mem.filter (fun c => !inCabinet c.1) }
    writes := s1.writes.filter (fun w => !wipedWrite w.ix) }
  let e : Nat := if advance then s2.sec.epoch else min (s2.sec.epoch + 1) 128
  let s3 := { s2 with sec := { s2.sec with copies := [], epoch := e, sealDue := false } }
  let s4 := sealNow (((s3.setObj Ix.secImgPubkey 0 (.bytes [])).setNat Ix.secEpochLeft 0 (128 - e)).addWrap Ix.secWipes 0 1)
  (s4.alarm Al.secWipe).alarmIf (decide (120 ≤ e)) Al.secEpochLow

/-- SEC_LC_ADVANCE is refused (R407): the code, or 0. -/
def lcCheck (s : State) (v : Nat) : Nat :=
  let next := v % 256
  if next ≠ s.sec.life + 1 ∨ 4 < next ∨ v / 4294967296 ≠ Config.uniqueId.toNat % 4294967296 ∨ v / 256 % 16777216 ≠ 0 then Rc.range
  else if (next = 1 ∧ (s.sec.pendRec.isEmpty ∨ s.sec.pendHash.isEmpty)) ∨ (3 ≤ next ∧ s.isDoor) ∨ s.sec.advance.isSome ∨
      s.writes.any (fun w => w.ix == Ix.secLcAdvance && w.val.toNat != 0) ∨
      2 ≤ mapGet (fun _ => 0) next s.sec.failed then Rc.state
  else Rc.done

/-- The fuses of a lifecycle state (R408, R409, R416). -/
def fuseLife (s : State) (next : Nat) : State :=
  let c := s.sec
  let c1 : SecSt := { c with life := next, advance := none, pendRec := [], pendHash := [], pendDbg := [] }
  let c2 : SecSt :=
    if next = 1 then { c1 with kRec := c.pendRec, imgHash0 := c.pendHash, dbgHash := c.pendDbg }
    else if next = 4 then { c1 with kRec := [], imgHash0 := [], imgHash1 := [], dbgHash := [] }
    else c1
  let s1 := { s with sec := c2 }.setNat Ix.secLifecycle 0 next
  let s2 := if next = 1 then (s1.setObj Ix.secImgKeyHash 0 (.bytes c.pendHash)).setObj Ix.secDbgKeyHash 0 (.bytes c.pendDbg) else s1
  if next = 3 then s2.setNat Ix.secTamperEn 0 0 else s2

/-- Every engine stops for good (R409). -/
def stopEngines (s : State) : State :=
  let s1 := (placesRunning s).foldl (fun t p =>
    let e := engineOf t p
    t.setEngine e (stopEngine (t.engine e))) s
  { s1 with pair := { s1.pair with deferred := [] } }

/-- A lifecycle advance completes (R408, R409). -/
def lcDone (s : State) (next : Nat) : State :=
  let s0 := if next = 4 then stopEngines (toIsolated s) else s
  let s1 := wipe (fuseLife s0 next) true
  s1.alarm Al.secLcChanged next

/-- Latch the enabled tamper sources that are asserted and not yet latched (R415), one enabled while it is asserted too: causes that coincide make one wipe,
and one that arrives in a lifecycle advance is served by the advance's own wipe (R413). -/
def tamperLatch (s : State) (raw : Nat) : State :=
  let s1 := s.setNat Ix.secTamperRaw 0 raw
  let old := s1.nat Ix.secTamperState
  let new := (upFrom 0 5).filter (fun b => raw.testBit b && (s1.nat Ix.secTamperEn).testBit b && !old.testBit b)
  if new.isEmpty then s1
  else
    let t := (s1.setNat Ix.secTamperState 0 (new.foldl (fun w b => w ||| 2 ^ b) old)).setNat Ix.secTamperTick 0 s1.tick
    let t1 := if t.sec.advance.isSome then endGrant t else wipe t false
    new.foldl (fun u b => u.alarm (Al.secTamper.src b)) t1

/-- The key hash a debug response has to meet (R406, R420). -/
def dbgHashNow (s : State) : List Byte :=
  match s.sec.life with
  | 1 | 2 => s.sec.dbgHash
  | 3 => Config.analysisKeyHash
  | _ => []

/-- A debug scope is open: in BLANK, or under a grant that holds it (R420, R421). -/
def dbgOpen (s : State) (bit : Nat) : Bool :=
  s.sec.life == 0 || (match s.sec.grant with
    | some (sc, until') => sc.testBit bit && decide (s.clk.sysCounter < until')
    | none => false)

/-- SEC_DBG_STATE while a grant runs (R423): the scope, and the seconds left, a part of a second counted as one. -/
def refreshGrant (s : State) : State :=
  match s.sec.grant with
  | none => s
  | some (sc, until') => s.setNat Ix.secDbgState 0 (sc + 65536 * ((until' - s.clk.sysCounter + 999999999) / 1000000000))

/-- Challenges are locked out (R420). -/
def dbgLocked (s : State) : Bool := decide (s.clk.sysCounter < s.sec.locked)

/-- Issue a fresh nonce, which voids the one before (R420). -/
def dbgChallenge (s : State) : List Byte × State :=
  let (n, s1) := s.draw
  let b := bytesLE 32 (unsignedOf 256 n)
  (b, { s1 with sec := { s1.sec with nonce := some (b, s1.clk.sysCounter) } })

/-- A minute of the system counter. -/
def minute : Nat := 60000000000

/-- A debug response is a good one (R420). -/
def dbgGood (s : State) (b : List Byte) : Bool :=
  let pub := b.take 64
  let scope := natLE ((b.drop 64).take 4)
  let secs := natLE ((b.drop 68).take 4)
  match s.sec.nonce with
  | none => false
  | some (n, at') =>
    b.length == 136 && !(dbgHashNow s).isEmpty && Config.sha256 pub == dbgHashNow s && decide (s.clk.sysCounter ≤ at' + minute) &&
      decide (1 ≤ secs) && decide (secs ≤ 3600) && decide (scope < 8) && !dbgLocked s &&
      Config.ecdsaOk pub (n ++ uidBytes ++ (b.drop 64).take 8) ((b.drop 72).take 64)

/-- A debug response is checked and answered with a grant or a rejection; each nonce answers one (R420). -/
def dbgRespond (s : State) (b : List Byte) : State :=
  let now := s.clk.sysCounter
  let good := dbgGood s b
  let s1 := { s with sec := { s.sec with nonce := none } }
  if good then
    let scope := natLE ((b.drop 64).take 4)
    let secs := natLE ((b.drop 68).take 4)
    ({ s1 with sec := { s1.sec with grant := some (scope, now + secs * 1000000000) } }.setNat Ix.secDbgState 0
      (scope + 65536 * secs)).alarm Al.secDbgGrant 1
  else
    let recent := (s1.sec.fails.filter (fun t => decide (now < t + minute))) ++ [now]
    let out := decide (3 ≤ recent.length)
    { s1 with sec := { s1.sec with fails := if out then [] else recent
                                   locked := if out then now + minute else s1.sec.locked } }.alarm Al.secDbgReject

/-- The active image-key hash (R418). -/
def imgHashNow (s : State) : List Byte := if s.sec.imgHash1.isEmpty then s.sec.imgHash0 else s.sec.imgHash1

/-- A security object is refused (R407, R415, R416, R418, R423): the code, or 0. -/
def secCheck (s : State) (ix sub : Nat) (v : Val) : Nat :=
  if ix = Ix.secLcAdvance then (if v.toNat = 0 then Rc.done else lcCheck s v.toNat)
  else if ix = Ix.secRecoveryWrap ∨ ix = Ix.secDbgKeyHash then (if s.sec.life = 0 then Rc.done else Rc.state)
  else if ix = Ix.secImgKeyHash then
    if sub = 0 then (if s.sec.life = 0 then Rc.done else Rc.state)
    else if (s.sec.life = 1 ∨ s.sec.life = 2) ∧ s.sec.imgHash1.isEmpty then Rc.done else Rc.state
  else if ix = Ix.secImgPubkey then
    if !(imgHashNow s).isEmpty && Config.sha256 v.toBytes == imgHashNow s then Rc.done else Rc.range
  else if ix = Ix.secTamperEn then
    if 32 ≤ v.toNat then Rc.range
    else if s.sec.life = 2 ∧ s.nat Ix.secTamperEn &&& v.toNat ≠ s.nat Ix.secTamperEn then Rc.state
    else Rc.done
  else if ix = Ix.secTamperClr then
    if 32 ≤ v.toNat then Rc.range
    else if v.toNat &&& s.nat Ix.secTamperRaw ≠ 0 then Rc.state
    else Rc.done
  else Rc.done

/-- A sealed copy has to be written (R411). -/
def markSeal (s : State) : State := { s with sec := { s.sec with sealDue := true } }

/-- A security object has landed, its effect beside its value (R408, R411, R415, R418, R421). -/
def landSec (s : State) (ix sub : Nat) (v : Val) : State :=
  if ix = Ix.secLcAdvance then
    if v.toNat = 0 then s.setNat ix 0 0
    else endGrant { s.setNat ix 0 0 with sec := { s.sec with advance := some (v.toNat % 256) } }
  else if ix = Ix.secRecoveryWrap then { s.setObj ix 0 (.bytes []) with sec := { s.sec with pendRec := v.toBytes } }
  else if ix = Ix.secDbgKeyHash then { s with sec := { s.sec with pendDbg := v.toBytes } }
  else if ix = Ix.secImgKeyHash then
    if sub = 0 then { s with sec := { s.sec with pendHash := v.toBytes } }
    else markSeal ({ s with sec := { s.sec with imgHash1 := v.toBytes } }.setObj Ix.secImgPubkey 0 (.bytes []))
  else if ix = Ix.secImgPubkey then markSeal s
  else if ix = Ix.secTamperEn then tamperLatch s (s.nat Ix.secTamperRaw)
  else if ix = Ix.secTamperClr then
    (s.setNat ix 0 0).setNat Ix.secTamperState 0 (s.nat Ix.secTamperState - (s.nat Ix.secTamperState &&& v.toNat))
  else if ix = Ix.secDbgEnd then
    if v.toNat = 1 then endGrant (s.setNat ix 0 0) else s
  else s

end Sys2Proof.Machine
end

