-- ==== Sys2Proof/Machine/FabOps.lean ====
section
/-! DEFINITION. The fabric: address map (R353), paths (R347), one beat of a transaction (R346, R349, R351), the
engine windows (R56) and FAB_CTL (R354). -/

namespace Sys2Proof.Machine

/-- A target of the fast matrix (R347). -/
inductive Target where
  | rom | bank (k : Fin 5) | cabinet | window (n : Fin 16) | bench | lattice | peripheral | dram
  deriving DecidableEq, Repr

/-- DRAM installed, in bytes (R371). -/
def dramBytes (s : State) : Nat := s.nat Ix.fabDramSize * 1048576

/-- The target an address decodes to, and the address as the memories know it: Bank A keeps one address under
both mappings (R353, R354). -/
def decodeAddr (s : State) (a : Nat) : Option (Target × Nat) :=
  if a < 0x400000 then
    if s.fab.remap then some (.bank 0, 0x0010000000 + a)
    else if a < 0x40000 then some (.rom, a)
    else none
  else if 0x0010000000 ≤ a ∧ a < 0x0010400000 then some (.bank 0, a)
  else if 0x0020000000 ≤ a ∧ a < 0x0020800000 then some (.bank 1, a)
  else if 0x0030000000 ≤ a ∧ a < 0x0030800000 then some (.bank 2, a)
  else if 0x0040000000 ≤ a ∧ a < 0x0040400000 then some (.bank 3, a)
  else if 0x0050000000 ≤ a ∧ a < 0x0050400000 then some (.bank 4, a)
  else if 0x0060000000 ≤ a ∧ a < 0x0060040000 then some (.cabinet, a)
  else if 0x0100000000 ≤ a ∧ a < 0x0110000000 then some (.window (Fin.ofNat 16 ((a - 0x0100000000) / 0x1000000)), a % 0x1000000)
  else if 0x0200000000 ≤ a ∧ a < 0x0200C00000 then some (.bench, a - 0x0200000000)
  else if 0x0300000000 ≤ a ∧ a < 0x0300010000 then some (.lattice, a - 0x0300000000)
  else if 0x0300200000 ≤ a ∧ a < 0x0300400000 then some (.lattice, a - 0x0300000000)
  else if 0x0800000000 ≤ a ∧ a < 0x0801200000 then some (.peripheral, a - 0x0800000000)
  else if 0x1000000000 ≤ a ∧ a < 0x1000000000 + dramBytes s ∧ s.fab.dramReady then some (.dram, a)
  else none

/-- The number of a target (R370, R394); DRAM channels alternate every 256 bytes (R362). -/
def targetCode (t : Target) (a : Nat) : Nat :=
  match t with
  | .rom => 0
  | .bank k => 1 + k.val
  | .cabinet => 6
  | .window _ => 7
  | .bench => 8
  | .lattice => 9
  | .peripheral => 10
  | .dram => if a / 256 % 2 = 0 then 11 else 12

/-- The connectivity of R347: whether a master may read, and write, a target; owner ports count as both. -/
def pathOf (master : Nat) (t : Target) : Bool × Bool :=
  let rw := (true, true)
  let r := (true, false)
  let w := (false, true)
  let no := (false, false)
  if 0x10 ≤ master ∧ master < 0x20 then (match t with
    | .dram => rw
    | _ => no)
  else
    match master, t with
    | 0x00, .rom => r
    | 0x00, .cabinet => no
    | 0x00, _ => rw
    | 0x01, .bank k => if k.val < 3 then rw else r
    | 0x01, .window _ => rw
    | 0x01, .bench => r
    | 0x01, .lattice => r
    | 0x01, .peripheral => rw
    | 0x01, .dram => rw
    | 0x02, .rom => r
    | 0x02, .cabinet => no
    | 0x02, _ => rw
    | 0x03, .bank k => if k.val = 0 then rw else no
    | 0x03, .cabinet => rw
    | 0x03, .peripheral => rw
    | 0x03, .dram => rw
    | 0x04, .bank k => if k.val = 1 then rw else no
    | 0x05, .bank k => if k.val = 1 then rw else no
    | 0x06, .bank k => if k.val = 2 then rw else no
    | 0x07, .bank k => if k.val = 3 then rw else no
    | 0x07, .window _ => w
    | 0x07, .bench => rw
    | 0x07, .lattice => rw
    | 0x08, .bank k => if k.val = 4 then rw else if k.val = 3 then r else no
    | 0x08, .window _ => rw
    | 0x08, .dram => rw
    | 0x09, .bank k => if k.val = 4 then w else no
    | 0x0A, .window _ => rw
    | 0x0A, .bench => rw
    | 0x0A, .lattice => r
    | 0x0A, .peripheral => rw
    | 0x0A, .dram => rw
    | _, _ => no

/-- The owner port of a bank, wired past the matrix (R356). -/
def isOwner (master : Nat) (t : Target) : Bool :=
  match t with
  | .bank k => (k == 0 && master == 0x00) || (k == 1 && (master == 0x04 || master == 0x05)) || (k == 2 && master == 0x06) ||
      (k == 3 && master == 0x07) || (k == 4 && master == 0x08)
  | .cabinet => master == 0x03
  | _ => false

/-- Error kinds (R351). -/
abbrev Kind.decode : Nat := 1
abbrev Kind.access : Nat := 2
abbrev Kind.ecc : Nat := 3
abbrev Kind.size : Nat := 4

/-- FAB_CTL (R354). -/
def fabCtl (s : State) : Nat :=
  (if s.fab.remap then 1 else 0) + (if s.fab.lock then 256 else 0) + (if s.fab.dramReady then 65536 else 0)

/-- A write of FAB_CTL (R10, R354): REMAP until LOCK is set, LOCK by writing 1. -/
def writeFabCtl (s : State) (w : Nat) : State :=
  { s with fab := { s.fab with remap := if s.fab.lock then s.fab.remap else w.testBit 0
                               lock := s.fab.lock || w.testBit 8 } }

/-- An engine whose window does not answer: power-gated (R325, R374, R381). One that is prepared, shadows, or is under test
has been woken (R378, R380, R385). -/
def windowGated (s : State) (n : Fin 16) : Bool :=
  s.isGated || ((s.engine n).run == .leaf && rsvState s n != 2 && rsvState s n != 3 && rsvState s n != 4)

/-- Read one word of an engine window at cycle `cyc` of the tick (R56): the error kind, or the word. Reserved offsets read as 0. -/
def windowRead (s : State) (cyc : Nat) (n : Fin 16) (off : Nat) : Nat × Word × State :=
  let e := s.engine n
  if windowGated s n then (Kind.decode, 0, s)
  else if off < 0x20000 then (0, mapGet (fun _ => 0) (off / 4) e.p, s)
  else if 0x400000 ≤ off ∧ off < 0x440000 then (0, otherRead false ((off - 0x400000) / 4) e, s)
  else if 0x800000 ≤ off ∧ off < 0x840000 then (0, otherRead true ((off - 0x800000) / 4) e, s)
  else if 0xC00000 ≤ off ∧ off < 0xC10000 then
    let (w, e1) := localRead (viewAt s cyc) .fabric (off - 0xC00000) e
    (0, w, s.setEngine n e1)
  else (0, 0, s)

/-- The memory (0 P, 1 X, 2 Y) and word of a window offset (R56). -/
def windowPlace (off : Nat) : Option (Nat × Nat) :=
  if off < 0x20000 then some (0, off / 4)
  else if 0x400000 ≤ off ∧ off < 0x440000 then some (1, (off - 0x400000) / 4)
  else if 0x800000 ≤ off ∧ off < 0x840000 then some (2, (off - 0x800000) / 4)
  else none

/-- A corrected word of an engine memory waits for its write-back (R57). -/
def fixWord (s : State) (n : Fin 16) (w : Nat × Nat) : State :=
  let e := s.engine n
  s.setEngine n { e with fix := e.fix.filter (fun f => f != w) ++ [w] }

/-- The page word of the place an engine holds that a word of its Y memory is in the page in force (R177). -/
def pageHit (s : State) (n : Fin 16) (a : Nat) : Option (Fin 16 × Nat) :=
  match placeOf s n with
  | none => none
  | some p =>
    let words := s.nat Ix.pageWords p.val
    let start := s.nat Ix.pageBase p.val + (if (s.engine n).loc.page then words else 0)
    if start ≤ a ∧ a < start + words then some (p, a - start) else none

/-- A write over the fabric to a word of a page in force is a direct write that lands at once (R14): the page word takes
the value, and the flip to come carries it into the other page (R178, R179). -/
def pageWrite (s : State) (p : Fin 16) (w : Nat) (v : Word) : State :=
  let old := mapGet (fun _ => []) p.val s.shut.flipped
  let s1 := setPageWord s p.val w v
  bumpGen { s1 with shut := { s1.shut with
    flipped := mapSet (fun _ => []) p.val (old.filter (fun x => x.1 != w) ++ [(w, v)]) s1.shut.flipped } } none

/-- Write one word of Y memory over the fabric (R14, R56). -/
def yWrite (s : State) (n : Fin 16) (a : Nat) (w : Word) : State :=
  let s1 := match pageHit s n a with
    | some (p, k) => pageWrite s p k w
    | none => s
  s1.setEngine n (otherWrite true true a w (s1.engine n))

/-- Write one word of an engine window (R55, R56, R105). Reserved offsets ignore it. -/
def windowWrite (s : State) (n : Fin 16) (off : Nat) (w : Word) : Nat × State :=
  let e := s.engine n
  if windowGated s n then (Kind.decode, s)
  else if off < 0x20000 then
    if e.run == .idle || e.run == .halted then (0, s.setEngine n { e with p := mapSet (fun _ => 0) (off / 4) w e.p })
    else (Kind.access, s)
  else if 0x400000 ≤ off ∧ off < 0x440000 then
    (0, s.setEngine n (otherWrite true false ((off - 0x400000) / 4) w e))
  else if 0x800000 ≤ off ∧ off < 0x840000 then (0, yWrite s n ((off - 0x800000) / 4) w)
  else if 0xC00000 ≤ off ∧ off < 0xC10000 then (0, commitEngine s n (localWrite .fabric (off - 0xC00000) w e))
  else (0, s)

/-- Write one word of a crosspoint record: its fields of type RW (R120). A write over the fabric is a direct write of the
housekeeping controller that lands at once, with a generation of its own (R14). -/
def benchWrite (s : State) (i k : Nat) (w : Word) : State :=
  let x := xpOf s i
  let n := w.toNat
  let y : Xp :=
    if k = 0 then { x with src := n % 32768, en := w.getLsbD 15, bus := n / 65536 % 1024, mode := n / 67108864 % 4 }
    else if k = 2 then { x with tgt := w.toInt }
    else if k = 3 then { x with rlen := n / 65536 }
    else x
  if k = 1 then s else bumpGen (setXp s i y) none

/-- The selector entry of a destination (R147). -/
def selectorWord (s : State) (d : Nat) : Word :=
  let r := s.dest d
  let st := destStateCode r
  let fade := fadeCode (r.causes ++ sharedCauses s d)
  BitVec.ofNat 32 (r.sel % 32768 + s.nat Ix.latTake d % 2 * 32768 + s.nat Ix.latOffset d % 32 * 65536 +
    (if r.transp then 2097152 else 0) + (if s.flag Ix.latMute d then 4194304 else 0) + fade * 16777216 +
    st / 4 % 4 * 67108864 + (if r.isNpcm then 268435456 else 0) + (if r.hasFault then 2147483648 else 0))

/-- The value of one field of a selector entry that its object may take (R142, R148, R425). -/
def fieldFits (s : State) (d : Nat) (p : Nat × Nat) : Bool :=
  if p.1 = Ix.latSel then srcPopulated p.2
  else if p.1 = Ix.latOffset then decide (p.2 < s.ticklen)
  else if p.1 = Ix.latTransp then p.2 == 0 || decide (d < 0x4000)
  else true

/-- Write a selector entry (R14, R147): its fields of type RW are set from the dictionary, so the word is a direct write of
LAT_SEL, and of every other object whose field it changes, that lands at the first boundary (R148, R163). -/
def selectorWrite (s : State) (d : Nat) (w : Word) : State :=
  let n := w.toNat
  let l := [(Ix.latTransp, n / 2097152 % 2), (Ix.latTake, n / 32768 % 2), (Ix.latOffset, n / 65536 % 32),
    (Ix.latSel, n % 32768), (Ix.latMute, n / 4194304 % 2)]
  (l.filter (fun p => (p.1 == Ix.latSel || s.nat p.1 d != p.2) && fieldFits s d p)).foldl (fun t p =>
    directWrite t { ix := p.1, sub := d, val := .int p.2, mbox := none, after := s.tick + 1, gen := none, priv := 2 }) s

/-- Read one word of a target that is no plain memory: an engine window, a crosspoint record, a selector entry or a word
of the frame memory (R56, R120, R143, R147). Peripheral offsets the spec does not name are reserved and read 0 (R9). -/
def deviceRead (s : State) (cyc : Nat) (t : Target) (off : Nat) : Nat × Word × State :=
  match t with
  | .window n => windowRead s cyc n off
  | .bench => (0, listGet 0 (off % 16 / 4) (xpWords (xpOf s (off / 16))), s)
  | .lattice =>
    if off < 0x10000 then
      (0, match entryDest (off / 4) with
        | some d => selectorWord s d
        | none => 0, s)
    else (0, frameWord s (off - 0x200000), s)
  | .peripheral => (0, if off = 0x100000 then BitVec.ofNat 32 (fabCtl s) else 0, s)
  | _ => (Kind.decode, 0, s)

/-- The housekeeping controller, or the Shutter on its behalf, which alone write crosspoint records and selector entries
(R120, R147, R347). What another master with a path writes there changes nothing (DEDUCED, assumption 134). -/
def isHk (master : Nat) : Bool := master == 0x00 || master == 0x07

/-- Write one word of a target that is no plain memory. -/
def deviceWrite (s : State) (master : Nat) (t : Target) (off : Nat) (w : Word) : Nat × State :=
  match t with
  | .window n => windowWrite s n off w
  | .bench => (0, if isHk master then benchWrite s (off / 16) (off % 16 / 4) w else s)
  | .lattice =>
    if off < 0x10000 then
      (0, match entryDest (off / 4) with
        | some d => if isHk master then selectorWrite s d w else s
        | none => s)
    else (Kind.access, s)
  | .peripheral => (0, if off = 0x100000 then writeFabCtl s w.toNat else s)
  | _ => (Kind.decode, s)

/-- Read `n` words of a device from an offset on: the error kind, the bytes before the failing word. -/
def deviceReads (cyc : Nat) (t : Target) (off : Nat) : Nat → State → Nat × List Byte × State
  | 0, s => (0, [], s)
  | n + 1, s =>
    match deviceRead s cyc t off with
    | (0, w, s1) =>
      let (k, b, s2) := deviceReads cyc t (off + 4) n s1
      (k, bytesLE 4 w.toNat ++ b, s2)
    | (k, _, s1) => (k, [], s1)

/-- Write words to a device from an offset on. -/
def deviceWrites (master : Nat) (t : Target) (off : Nat) : Nat → List Byte → State → Nat × State
  | 0, _, s => (0, s)
  | n + 1, b, s =>
    match deviceWrite s master t off (BitVec.ofNat 32 (natLE (b.take 4))) with
    | (0, s1) => deviceWrites master t (off + 4) n (b.drop 4) s1
    | (k, s1) => (k, s1)

/-- The size and alignment rules of a target (R346, R351). -/
def sizeOk (t : Target) (a size beats : Nat) : Bool :=
  match t with
  | .peripheral => size == 4 && beats == 1 && a % 4 == 0
  | .window _ | .bench | .lattice => size % 4 == 0 && a % 4 == 0
  | _ => true

/-- An uncorrectable word of the Lattice's tables met by a fabric read (R159): its selector entry, or the frame whose slot
it lies in. -/
def latticeFault (s : State) (off : Nat) : State :=
  if off < 0x10000 then
    match entryDest (off / 4) with
    | some d => selFault s d
    | none => s
  else
    let slot := (off - 0x200000) / 136
    let i := Config.frameSource slot
    let (ws, tag) := slotFrame s i (Config.frameBuffer slot % 3)
    slotFault s i ws.isEmpty tag

/-- The ECC outcome of one word, by its address, at a bank, at DRAM, at an engine or in the Lattice's tables (R57, R159,
R359, R363), and whether it is an error response. A corrected word of an engine is written back. The Bench meets the errors
of its records by its own reads (R137). -/
def wordEcc (s : State) (master : Nat) (t : Target) (a : Nat) (write : Bool) (ecc : Ecc) : State × Bool :=
  let code := targetCode t a
  match t, ecc with
  | _, .ok => (s, false)
  | .bank _, .corrected | .cabinet, .corrected => (fabEvent 0x0F master code 1 (s.addHold Ix.fabBankEccCe code 1), false)
  | .bank _, .bad | .cabinet, .bad => ((s.addWrap Ix.fabBankEccUe code 1).alarm (Al.fabEccUe.src code) master, true)
  | .dram, .corrected => (s.addHold Ix.dramLinkCe (code - 11) 1, false)
  | .dram, .bad => if write then (s, false) else ((s.addWrap Ix.dramLinkUe (code - 11) 1).alarm (Al.fabEccUe.src code) master, true)
  | .window n, .corrected =>
    (match windowPlace (a % 0x1000000) with
      | some w => (fixWord (countCorrected s n) n w, false)
      | none => (s, false))
  | .window _, .bad => (s, (windowPlace (a % 0x1000000)).isSome)
  | .lattice, .corrected => (s.addHold Ix.latEccCe 0 1, false)
  | .lattice, .bad => (latticeFault s (a - 0x0300000000), true)
  | .bench, .corrected => (s.addHold Ix.benchEccCe 0 1, false)
  | .bench, .bad => (s, true)
  | _, _ => (s, false)

/-- A beat reads the word at `w`: it touches it, and does not write it whole, which replaces it with valid ECC (R359). -/
def beatReads (a size w : Nat) (write : Bool) : Bool :=
  decide (w < a + size) && decide (a < w + 4) && !(write && decide (a ≤ w) && decide (w + 4 ≤ a + size))

/-- The ECC outcomes of the words a beat reads, and whether one of them is an error response. The link ECC of DRAM checks
the words written too (R363). -/
def fabEcc (s : State) (master : Nat) (t : Target) (a size : Nat) (write : Bool) (errs : List (Nat × Ecc)) : State × Bool :=
  (errs.filter (fun e => e.1 % 4 == 0 && beatReads a size e.1 (write && t != .dram))).foldl (fun (p : State × Bool) e =>
    let (s1, bad) := wordEcc p.1 master t e.1 write e.2
    (s1, p.2 || bad)) (s, false)

/-- One beat at an address: the error kind, the bytes read, and the state. -/
def fabBeat (s : State) (cyc master : Nat) (write : Bool) (a size : Nat) (data : List Byte) (errs : List (Nat × Ecc)) :
    Nat × List Byte × State :=
  match decodeAddr s a with
  | none => (Kind.decode, [], s)
  | some (t, off) =>
    let (r, w) := pathOf master t
    if !(if write then w || (r && (t == .rom || t == .lattice)) else r) then (Kind.decode, [], s)
    else if write && (t == .rom || (t == .lattice && decide (0x10000 ≤ off))) then (Kind.access, [], s)
    else if write && !w then (Kind.decode, [], s)
    else
      let (s1, bad) := fabEcc s master t a size write errs
      if bad then (Kind.ecc, [], s1)
      else
        let s2 := if t = .dram then countMoved s1 a size else s1
        match t with
        | .rom => (0, (upFrom off size).map Config.rom, s2)
        | .bank k => if write then (0, [], setMemBytes s2 off data) else (0, bankRead s2 k off size, s2)
        | .cabinet => if write then (0, [], setMemBytes s2 off data) else (0, memBytes s2 off size, s2)
        | .dram => if write then (0, [], setMemBytes s2 off data) else (0, (upFrom off size).map (dramByte s2), s2)
        | _ =>
          if write then
            let (k, s3) := deviceWrites master t off (size / 4) data s2
            (k, [], s3)
          else deviceReads cyc t off (size / 4) s2

/-- The beats of a transaction, until one fails (R351). -/
def fabBeats (tx : FabTx) : Nat → Nat → State → Nat × List Byte × State
  | _, 0, s => (0, [], s)
  | i, n + 1, s =>
    let a := tx.addr.toNat + i * tx.size
    match fabBeat s tx.cycle tx.master.toNat tx.write a tx.size ((tx.data.drop (i * tx.size)).take tx.size) tx.errs with
    | (0, b, s1) =>
      let (k, b2, s2) := fabBeats tx (i + 1) n s1
      (k, b ++ b2, s2)
    | (k, _, s1) => (k, [], s1)

/-- An error response is logged and alarmed (R351, R371). -/
def fabError (s : State) (master kind addr : Nat) (write : Bool) : State :=
  let n := s.nat Ix.fabErrCount
  let s1 := (s.setNat Ix.fabErrLog (n % 16) (addr + 1099511627776 * master + 281474976710656 * kind +
    (if write then 2251799813685248 else 0))).addWrap Ix.fabErrCount 0 1
  s1.alarm (Al.fabBusError.src master) kind

/-- The form of a transaction (R349): 1 to 16 beats of 1 to 32 bytes within 4 KiB. -/
def txForm (tx : FabTx) : Bool :=
  decide (1 ≤ tx.size) && decide (tx.size ≤ 32) && decide (1 ≤ tx.beats) && decide (tx.beats ≤ 16) &&
    decide (tx.addr.toNat % 4096 + tx.size * tx.beats ≤ 4096)

/-- A master that issues no transaction: DBG without a grant (R347, R421), and the data port outside raw mode at any
target but DRAM (R203, R347). -/
def masterSilent (s : State) (tx : FabTx) : Bool :=
  (tx.master == 0x02 && !dbgOpen s 1) ||
    (tx.master == 0x01 && decide (tx.addr.toNat < 0x1000000000) && !(s.hp.mode && dbgOpen s 2))

/-- An event that the matrix counts, and owner ports do not (R356, R394). -/
def matrixEvent (owner : Bool) (ev m code n : Nat) (s : State) : State := if owner then s else fabEvent ev m code n s

/-- Carry out a transaction: the error kind (0 none), the data read, and the state after it (R349, R351). -/
def fabRun (s : State) (tx : FabTx) : Nat × List Byte × State :=
  let m := tx.master.toNat
  let a := tx.addr.toNat
  let dec := decodeAddr s a
  let code := match dec with
    | some (t, _) => targetCode t a
    | none => 0xFF
  let sized := match dec with
    | some (t, _) => sizeOk t a tx.size tx.beats
    | none => true
  let own := (dec.map (fun d => isOwner m d.1)).getD false
  let s0 := matrixEvent own 0x0D m code tx.fulls (matrixEvent own 0x06 m code tx.waits s)
  let s1 := fabEvent 0x08 m code tx.ownStalls (fabEvent 0x07 m code tx.stalls s0)
  let r : Nat × List Byte × State :=
    if !txForm tx || !sized then (Kind.size, [], s1)
    else
      let s2 := matrixEvent own (if tx.write then 0x05 else 0x04) m code tx.beats
        (matrixEvent own 0x03 m code tx.beats (matrixEvent own 0x02 m code 1 s1))
      let s3 := if dec.map (fun d => d.1) = some .dram then
          dramBursts m tx.write (upFrom (a / 64) (ceilDiv (a % 64 + tx.size * tx.beats) 64)) s2
        else s2
      fabBeats tx 0 tx.beats s3
  if r.1 = 0 then r
  else
    let s4 := matrixEvent own 0x09 m code 1 (fabError r.2.2 m r.1 a tx.write)
    (r.1, if tx.write then [] else List.replicate (tx.size * tx.beats) 0, s4)

end Sys2Proof.Machine
end

