-- ==== Sys2Proof/Machine/Fabric.lean ====
section
/-! DEFINITION. Commands of the fabric and its memories (chapter 15). -/

namespace Sys2Proof.Machine

/-- FABRIC_TRANSACTION (R349): a master's transaction is granted, and its response returns, with its identifier. None waits
between steps, so responses return in the order of the grants, which is one that R350 allows (DESIGN CHOICE, assumption
135). -/
def execFabricTransaction (tx : FabTx) (s : State) : Host.Outcome State Fault Refusal :=
  if masterSilent s tx then .next s
  else
    let (k, b, s1) := fabRun s tx
    .next (s1.emit (.fabric tx.master.toNat tx.id.val k b))

/-- The sections that engine `n`'s streamer has still to stream are withdrawn (R352). -/
def dropStream (s : State) (n : Fin 16) : State :=
  match placeOf s n with
  | some p => { s with fab := { s.fab with dlyDue := s.fab.dlyDue.filter (fun k => k / 2 != p.val) } }
  | none => s

/-- MASTER_RESET (R352): the bursts that had been granted complete on the master's behalf; what a delay streamer has not
yet been granted is withdrawn. -/
def execMasterReset (master : Byte) (granted : Nat) (s : State) : Host.Outcome State Fault Refusal :=
  let s1 := fabEvent 0x10 master.toNat 0xFF granted (s.addHold Ix.fabResetBursts 0 granted)
  .next (if 0x10 ≤ master.toNat ∧ master.toNat < 0x20 then dropStream s1 (Fin.ofNat 16 master.toNat) else s1)

/-- REMAP (R354): ignored once LOCK is set. -/
def execRemap (value : Bool) (s : State) : Host.Outcome State Fault Refusal :=
  .next (writeFabCtl s (if value then 1 else 0))

/-- LOCK (R354): FAB_CTL.LOCK takes 1, and REMAP keeps its value. -/
def execLock (s : State) : Host.Outcome State Fault Refusal :=
  .next (writeFabCtl s (256 + (if s.fab.remap then 1 else 0)))

/-- The landing list of a commit past its final check has lost the changes of a record: they are handled at the landing
(R172). -/
def loseLanding (s : State) (xp : Bool) (i : Nat) (of_ : Nat → Bool) : State :=
  if s.shut.pend.any (fun p => p.checked && p.changes.any (fun c => of_ c.ix && c.sub == i)) then
    { s with shut := { s.shut with corrupt := s.shut.corrupt ++ [(xp, i)] } }
  else s

/-- An uncorrectable word of Bank D (R172, R181). -/
def stageHit (s : State) (h : StageHit) : State :=
  match h with
  | .unused => s
  | .pending id =>
    match s.shut.pend.find? (fun p => p.id == id && !p.checked) with
    | some p => (rejectCommit s p 15).alarm Al.stageEccUe
    | none => s.alarm Al.stageEccUe
  | .openSet n => (mirrorSetEnd (setSet s n none) n 3 0).alarm Al.stageEccUe
  | .landingXp i => (loseLanding s true i (fun ix => 0x0400 ≤ ix && ix ≤ 0x0406)).alarm Al.stageEccUe
  | .landingDest d => (loseLanding s false d (fun ix => 0x0600 ≤ ix && ix ≤ 0x0604)).alarm Al.stageEccUe

/-- BANK_SCRUB_READ (R359, R181): a scrub reads a word of a bank, and corrects it. The detail of FAB_ECC_UE is the reading
master, and a scrub has none: a free value (assumption 136). -/
def execBankScrubRead (bank : Fin 7) (ecc : Ecc) (hit : StageHit) (s : State) : Host.Outcome State Fault Refusal :=
  if bank = 0 then .next s
  else
    match ecc with
    | .ok => .next s
    | .corrected =>
      let s1 := fabEvent 0x0F 0xFF bank.val 1 (s.addHold Ix.fabBankEccCe bank.val 1)
      .next (if bank = 4 then s1.addHold Ix.stageEccCe 0 1 else s1)
    | .bad =>
      let (d, s0) := s.draw
      let s1 := (s0.addWrap Ix.fabBankEccUe bank.val 1).alarm (Al.fabEccUe.src bank.val) (d % 256).toNat
      .next (if bank = 4 then stageHit (s1.addWrap Ix.stageEccUe 0 1) hit else s1)

/-- What a line's reads of X memory meet (R57): corrected words are counted and written back; an uncorrectable frame is an
error response to the streamer (R351). -/
def streamReads (s : State) (n : Fin 16) (q : StreamReads) (l : Nat) : State :=
  let a := dlyIn s l
  let ws := ((q.fixed.filter (fun f => f.1 == l && decide (f.2 < s.ticklen))).map (fun f => (1, (a + f.2) % 65536))).eraseDups
  let s1 := ws.foldl (fun t w => fixWord (countCorrected t n) n w) s
  if q.bad.contains l then fabError s1 (0x10 + n.val) Kind.ecc (0x0100400000 + 0x1000000 * n.val + 4 * a) false else s1

/-- What the link ECC of DRAM meets in the read window of a line (R363): corrected words are counted on their channel, and an
uncorrectable one is an error response to the streamer. -/
def streamLink (s : State) (n : Fin 16) (q : StreamReads) (l : Nat) : State :=
  let len := dlyLen s l
  let w := match mapFind l s.fab.dly with
    | some r => r.w + s.ticklen
    | none => 0
  let back := dlyDelay s l + dlyBack s l
  (q.link.filter (fun x => x.1 == l && decide (x.2.1 < s.ticklen + dlyBack s l))).foldl (fun t x =>
    let a := dlyAddr t l ((w + x.2.1 + len - back % len) % len)
    let (t1, bad) := wordEcc t (0x10 + n.val) .dram a false x.2.2
    if bad then fabError t1 (0x10 + n.val) Kind.ecc a false else t1) s

/-- The read window of a line is not complete when its section opens: the read is late, or DRAM has failed it (R369). -/
def lateLine (q : StreamReads) (l : Nat) : Bool := q.late.contains l || q.link.any (fun x => x.1 == l && x.2.2 == .bad)

/-- DELAY_STREAM (R366): after a section's DONE, each enabled line of the place writes its frame and reads its
window, in line order. A standby's engines do not stream, and the streamer of an engine that has stopped is reset (R352). -/
def execDelayStream (place : Fin 16) (second : Bool) (reads : StreamReads) (s : State) : Host.Outcome State Fault Refusal :=
  let k := 2 * place.val + (if second then 1 else 0)
  let n := engineOf s place
  let live : Bool := (s.engine n).run == .running || (s.engine n).run == .waiting
  if s.fab.dlyDue.contains k then
    let ls := if live then linesOf s place second else []
    let s1 := ls.foldl (fun t l =>
      streamLine (streamLink (streamReads t n reads l) n reads l) place l (lateLine reads l) (reads.bad.contains l)) s
    .next { s1 with fab := { s1.fab with dlyDue := s1.fab.dlyDue.filter (fun x => x != k) } }
  else .next s

end Sys2Proof.Machine
end

