-- ==== Sys2Proof/Machine/EgressOps.lean ====
section
/-! DEFINITION. The egress stage: limiters (R132 to R134), conversion to the output format (R131), substitution
(R44), and what the AES3 outputs send beside the samples (R228). -/

namespace Sys2Proof.Machine

/-- The output format of a physical destination: its sample width where a running output covers it (R131). -/
def outBits (s : State) (d : Nat) : Option Nat :=
  if d < 0x2000 then (txStreamOf s d).map (fun k => streamBits (s.nat Ix.ntxFmt k))
  else if d < 0x2400 then tdmOutBits s d
  else if d < 0x2410 then (if s.flag Ix.aesoEn ((d - 0x2400) / 2) then some 24 else none)
  else
    let st := s.nat Ix.cueState (d - 0x4000)
    if st = 2 ∨ st = 3 then some 24 else none

/-- One sample of a limiter (R132): `c` is the ceiling, `kr` the release factor. -/
def limSample (c kr : Nat) (x : Word) (l : Limiter) : Word × Limiter :=
  let q := limQ c x
  let g := limGain l.g kr (q :: l.hq.reverse)
  (limApply (listGet 0 0 l.held) g, { l with g := g, held := l.held.drop 1 ++ [x], hq := l.hq.drop 1 ++ [q] })

/-- One sample of a bypassed limiter: the held sample unchanged (R134). -/
def limBypass (x : Word) (l : Limiter) : Word × Limiter :=
  (listGet 0 0 l.held, { l with held := l.held.drop 1 ++ [x] })

/-- The samples of a frame through a limiter step. -/
def limFrame (f : Word → Limiter → Word × Limiter) : List Word → Limiter → List Word × Limiter
  | [], l => ([], l)
  | x :: t, l =>
    let (y, l1) := f x l
    let (ys, l2) := limFrame f t l1
    (y :: ys, l2)

/-- The limiter of a destination on one frame (R132 to R134). A limiter that returns from bypass starts afresh. -/
def limRun (s : State) (d : Nat) (r : Dest) : List Word × Limiter :=
  if r.transp || !s.flag Ix.limEn d then
    limFrame limBypass r.words { r.lim with g := 2147483648, bypassed := true }
  else
    let l := if r.lim.bypassed then Limiter.reset else r.lim
    limFrame (limSample (ceilingOf (s.int Ix.limCeil d)) (limKr (s.nat Ix.limRelease d) s.fs)) r.words l

/-- LIM_GR and LIM_GR_MAX of a destination (R139). -/
def reportGr (s : State) (d g : Nat) : State :=
  let v := grOf g
  (s.setInt Ix.limGr d v).setInt Ix.limGrMax d (min v (s.int Ix.limGrMax d))

/-- Saturated conversions of a frame with LIM_EN = 0 are counted, and EGRESS_CLIP raised once until the count is read
(R134). -/
def noteClips (s : State) (d n : Nat) : State :=
  if n = 0 then s
  else
    let r := s.dest d
    let s1 := benchEvent 0x07 n (s.addHold Ix.egressClipCount d n)
    if r.clipped then s1 else (s1.setDest d { s1.dest d with clipped := true }).alarm Al.egressClip d

/-- The bytes that some bits spell, each from its bit 0 on. -/
def bitsBytes (n : Nat) (bits : List Bool) : List Byte :=
  (upFrom 0 n).map (fun b => BitVec.ofNat 8 ((upFrom 0 8).foldl (fun v j =>
    if listGet false (8 * b + j) bits then v + 2 ^ j else v) 0))

/-- The channel-status bits sent of a block, with the next one, at place `p` (R228): bytes 0 to 22 from `status`, and byte 23
the CRCC over the bytes sent. -/
def nextBit (status : List Byte) (sent : List Bool) (p : Nat) : List Bool :=
  let s0 := sent.take p ++ List.replicate (p - sent.length) false
  s0 ++ [if p < 184 then csBit status p else (Config.crcc (bitsBytes 23 s0)).getLsbD (p - 184)]

/-- What an AES3 output channel sends beside its samples (R228): a block starts at every sample whose number is a multiple
of 192. A copied block not yet available is replaced by the AESO_CS values. -/
def aesBits (s : State) (d : Nat) : State :=
  let k := d - 0x2400
  let src := s.nat Ix.aesoCsSrc k
  let from_ := aesOf s (src - 1)
  let copied := decide (0 < src) && (if k % 2 = 0 then from_.csA else from_.csB)
  let status := if copied then wordsBytes s Ix.aesiCs (12 * (src - 1) + 6 * (k % 2)) else wordsBytes s Ix.aesoCs (6 * k)
  let us := s.nat Ix.aesoUserSrc k
  let user := if us = 0 then List.replicate 24 (0 : Byte) else wordsBytes s Ix.aesiUser (12 * (us - 1) + 6 * (k % 2))
  let places := (upFrom (outTime s (s.dest d)) s.ticklen).map (fun x => x % 192)
  let (sent, bits) := places.foldl (fun (p : List Bool × List Bool) x =>
    let l := nextBit status p.1 x
    (l, p.2 ++ [l.getLastD false])) (mapGet (fun _ => []) k s.port.sent, [])
  { s with port := { s.port with sent := mapPut k sent s.port.sent } }.emit
    (.aesBits d s.tag (places.headD 0) bits (places.map (csBit user)) ((s.nat Ix.aesoValidity (k / 2)).testBit (k % 2)))

/-- A destination's frame is handed over with `w1` as its words. -/
def setEgress (s : State) (d : Nat) (w1 : List Word) : State :=
  s.setDest d { s.dest d with egress := w1, converted := true }

/-- Saturated conversions of a frame with LIM_EN = 0 count (R134). -/
def countClips (s : State) (d b : Nat) (ws : List Word) : State :=
  if s.flag Ix.limEn d then s else noteClips s d ((ws.map (convertOut b)).filter (fun c => c.2)).length

/-- The frame of a destination that is no TDM slot leaves in its output format, where it has one, with its tag (R13,
R131). -/
def sendEgress (s : State) (d : Nat) (w1 : List Word) : State :=
  match outBits s d with
  | none => if 0x2400 ≤ d ∧ d < 0x2410 then s else s.emit (.egress d s.tag (w1.map (fun w => w.toInt)))
  | some b =>
    let vs := w1.map (fun w => (convertOut b w).1)
    let s1 := countClips (s.emit (.egress d s.tag vs)) d b w1
    let s2 := if 0x2400 ≤ d ∧ d < 0x2410 then
        setBlock (aesBits s1 d) (d + 32768) { hdr := { BlockHdr.empty with tick := s1.tag, npcm := (s1.dest d).isNpcm }
                                              words := w1, first := outTime s1 (s1.dest d) }
      else s1
    if d < 0x2000 then txSamples s2 d (outTime s2 (s2.dest d)) vs else s2

/-- Hand over the egress frame of a destination (R39, R131): of a TDM slot to its port, where its direction runs. -/
def handEgress (s : State) (d : Nat) (ws : List Word) : State :=
  let s1 := setEgress s d ws
  if 0x2000 ≤ d ∧ d < 0x2400 then
    match tdmOutBits s d with
    | none => s1
    | some b => countClips (enterSlot s1 d ws) d b ws
  else sendEgress s1 d ws

/-- Step 3 of a class change, once its tick has come (R48). A change to DIRECT plays nothing in the tick before. Whatever
the class to come, a DIRECT destination hands over silence for the samples of tick T + n, which the old class no longer
plays and the new one does not yet. -/
def classStep (s : State) (d : Nat) : State :=
  let r := s.dest d
  match r.change with
  | none => s
  | some (t, cls) =>
    let n := t + fadeTicks s
    if s.tick < n then s
    else
      let s1 := if r.clsNow = 1 ∧ s.tick = n then handEgress s d (List.replicate s.ticklen 0) else s
      let r1 := s1.dest d
      if cls = 0 ∨ n < s.tick then
        s1.setDest d { r1 with change := none, clsNow := cls, cls := fadeIn r1.cls, converted := r.converted }
      else s1.setDest d { r1 with gathered := true, converted := true, words := List.replicate s.ticklen 0 }

/-- Class changes that wait in this tick. -/
def classSteps (s : State) : State :=
  (s.lat.dests.filter (fun p => p.2.change.isSome)).foldl (fun s p => classStep s p.1) s

/-- The substitution fade of a destination's egress frame; a transparent one is never scaled (R44, R155). -/
def fadeRoute (transp : Bool) (f : Fade) (ws : List Word) : List Word × Fade :=
  let (r, fs) := fadeFrame transp [f] ws
  (r, fs.headD f)

/-- A destination's frame passes its limiter and conversion once gathered (R131, R132); one that was substituted
before takes the standard fade-in (R44). -/
def convertDest (s : State) (d : Nat) : State :=
  let r := s.dest d
  if !isPhysDest d || !r.gathered || r.converted then s
  else
    let (ws, l) := limRun s d r
    let (w1, f) := fadeRoute r.transp (if r.egFade.mode == .unity then r.egFade else fadeIn r.egFade) ws
    handEgress (reportGr (s.setDest d { r with lim := l, egBase := ws, egFade := f }) d l.g) d w1

/-- The egress stage is late for a destination (R44): its last frame again under the fade-out, past the limiter. -/
def substEgress (s : State) (d : Nat) : State :=
  let r := s.dest d
  let zeros := List.replicate s.ticklen (0 : Word)
  let base := if r.egBase.length = s.ticklen then r.egBase else zeros
  let (ws, f) := fadeRoute r.transp (fadeOut r.egFade) base
  handEgress (s.setDest d { r with egFade := f }) d ws

/-- The physical destinations of a class that have a record and have not been converted in this tick. A destination
whose record is as at reset plays silence of its own accord. -/
def unconverted (s : State) (cls : Nat) : List Nat :=
  (s.lat.dests.filter (fun p => isPhysDest p.1 && destUsable s p.1 && decide (p.2.clsNow = cls) && !p.2.converted)).map
    (fun p => p.1)

/-- The destinations that are sent although their record is as at reset: the channels of enabled AES3 outputs (R228), and
those of running transmit streams (R247). A TDM direction sends every slot of its frame of its own accord (R208). -/
def quietOuts (s : State) : List Nat :=
  let aes := (upFrom 0 16).filterMap (fun k => if s.flag Ix.aesoEn (k / 2) then some (0x2400 + k) else none)
  let net := (s.net.tx.filter (fun p => p.2.on)).flatMap (fun p =>
    upFrom (s.nat Ix.ntxBase p.1) (nfChans (s.nat Ix.ntxFmt p.1)))
  (aes ++ net).filter (fun d => (mapFind d s.lat.dests).isNone)

/-- The deadline of an egress phase (R44, R50): EGRESS_LATE, and OVERRUN_COUNT once in a tick. At P5 the outputs that
nothing routes to send silence. -/
def closeEgress (s : State) (cls : Nat) : State :=
  let ds := unconverted s cls
  let s0 := if cls = 0 then (quietOuts s).foldl (fun t d => handEgress t d (List.replicate s.ticklen 0)) s else s
  let s1 := ds.foldl substEgress s0
  if ds.isEmpty then s1
  else
    let s2 := if s1.clk.lateEgress then s1
      else { s1 with clk := { s1.clk with lateEgress := true } }.addWrap Ix.overrunCount 0x11 1
    s2.alarm Al.egressLate

end Sys2Proof.Machine
end

