-- ==== Sys2Proof/Machine/EngineFlow.lean ====
section
/-! DEFINITION. Branches, calls, loops and repeats (R91 to R95, R97), with the conditions under which their
bundle is illegal. -/

namespace Sys2Proof.Machine

/-- The bundle after the one being issued. -/
def nextPc (e : Engine) (k : Nat) : BitVec 13 := e.lastPc + BitVec.ofNat 13 k

/-- A delay slot of the bundle being issued is the LE bundle of the open loop (R95). -/
def delayMeetsLe (e : Engine) : Bool :=
  !e.loops.isEmpty && (e.rf.le == nextPc e 1 || e.rf.le == nextPc e 2 || e.rf.le == nextPc e 3)

/-- A flow operation is illegal in a delay slot, under a REP, at LE, or where one of its delay slots is LE
(R91, R93, R95). -/
def flowIllegal (e : Engine) : Bool :=
  e.branch.isSome || e.rep != 0 || atLe e e.lastPc || delayMeetsLe e

/-- A loop or tick operation is illegal in a delay slot or under a REP (R91, R93). -/
def loopIllegal (e : Engine) : Bool := e.branch.isSome || e.rep != 0

/-- A branch to a target, or past its delay slots where it is not taken (R91). Taken branches count as
event 0x09. -/
def branchSlot (target : Option (BitVec 13)) (rti : Bool) (e : Engine) : SlotOut :=
  if flowIllegal e then .illegal false
  else
    let e1 := { e with flow := some (.branch target rti) }
    .ok (if target.isSome || rti then noteEvent 0x09 1 e1 else e1)

/-- REP (R93): legal in a delay slot only where the repeated bundle is the next delay slot, and not at LE. -/
def repSlot (count : Nat) (e : Engine) : SlotOut :=
  let inDelay := match e.branch with
    | some b => decide (b.left ≤ 1)
    | none => false
  if inDelay || e.rep != 0 || atLe e e.lastPc then .illegal false
  else .ok { e with flow := some (.rep count) }

/-- DO (R94, R95). -/
def doSlot (count : Nat) (fin : BitVec 13) (e : Engine) : SlotOut :=
  if e.loops.length = 4 then .illegal true
  else if loopIllegal e || atLe e e.lastPc || decide (fin.toNat < (nextPc e 1).toNat + 1) ||
      (!e.loops.isEmpty && decide (e.rf.le.toNat ≤ fin.toNat)) then .illegal false
  else .ok { e with flow := some (.doLoop count fin) }

/-- CALL (R92). -/
def callSlot (target : BitVec 13) (e : Engine) : SlotOut :=
  if e.calls.length = 8 then .illegal true
  else
    match branchSlot (some target) false e with
    | .ok e1 => .ok { e1 with calls := nextPc e 4 :: e1.calls }
    | o => o

/-- RET (R92). -/
def retSlot (e : Engine) : SlotOut :=
  match e.calls with
  | [] => .illegal true
  | t :: rest =>
    match branchSlot (some t) false e with
    | .ok e1 => .ok { e1 with calls := rest }
    | o => o

/-- The count a register gives a REP or DO: its low 16 bits (R93, R94). -/
def countOf (e : Engine) (x : Fin 16) : Nat := (e.rf.getD x).toNat % 65536

/-- BRA (R91). -/
def execBra (is : Issue) (target : BitVec 13) (s : State) : Host.Outcome State Fault Refusal :=
  .next (issueSlot is (fun _ e => branchSlot (some target) false e) s)
/-- Bcc (R85, R91): not taken, its delay slots still issue. -/
def execBcc (is : Issue) (cond : Cond) (target : BitVec 13) (s : State) : Host.Outcome State Fault Refusal :=
  .next (issueSlot is (fun _ e => branchSlot (if condHolds e.rf cond then some target else none) false e) s)
/-- CALL (R92). -/
def execCall (is : Issue) (target : BitVec 13) (s : State) : Host.Outcome State Fault Refusal :=
  .next (issueSlot is (fun _ e => callSlot target e) s)
/-- RET (R92). -/
def execRet (is : Issue) (s : State) : Host.Outcome State Fault Refusal :=
  .next (issueSlot is (fun _ e => retSlot e) s)
/-- RTI (R97). -/
def execRti (is : Issue) (s : State) : Host.Outcome State Fault Refusal :=
  .next (issueSlot is (fun _ e => branchSlot none true e) s)
/-- BRA Dx (R85, R91). -/
def execBraDx (is : Issue) (x : Fin 16) (s : State) : Host.Outcome State Fault Refusal :=
  .next (issueSlot is (fun _ e => branchSlot (some ((e.rf.getD x).setWidth 13)) false e) s)
/-- REP with an immediate count (R93). -/
def execRepImm (is : Issue) (count : Half) (s : State) : Host.Outcome State Fault Refusal :=
  .next (issueSlot is (fun _ e => repSlot count.toNat e) s)
/-- REP with the count in Dx[15:0] (R93). -/
def execRepDx (is : Issue) (x : Fin 16) (s : State) : Host.Outcome State Fault Refusal :=
  .next (issueSlot is (fun _ e => repSlot (countOf e x) e) s)
/-- DO with an immediate count (R94). -/
def execDoImm (is : Issue) (count : BitVec 11) (fin : BitVec 13) (s : State) : Host.Outcome State Fault Refusal :=
  .next (issueSlot is (fun _ e => doSlot count.toNat fin e) s)
/-- DO with the count in Dx (R94). -/
def execDoDx (is : Issue) (x : Fin 16) (fin : BitVec 13) (s : State) : Host.Outcome State Fault Refusal :=
  .next (issueSlot is (fun _ e => doSlot (countOf e x) fin e) s)
/-- ENDL (R95). -/
def execEndl (is : Issue) (s : State) : Host.Outcome State Fault Refusal :=
  .next (issueSlot is (fun _ e =>
    if e.loops.isEmpty then .illegal true
    else if loopIllegal e then .illegal false
    else .ok { e with flow := some .endl }) s)
/-- LOOP_EXIT (R94): a loop whose count ran out at LE is popped, and LE + 1 issues next. -/
def execLoopExit (eng : Fin 16) (s : State) : Host.Outcome State Fault Refusal :=
  .next (s.setEngine eng (loopExit (s.engine eng)))

end Sys2Proof.Machine
end

