-- ==== Sys2Proof/Machine/Bundle.lean ====
section
/-! DEFINITION. Which bundles are illegal by their bits alone (R82 to R86): reserved codes, unused bits that are
not 0, and the operand limits of each form; and the reading of a slot's word as the command it spells, and back. The
conditions that depend on the engine's state stand with the operations they belong to. -/

namespace Sys2Proof.Machine

/-- Only bits of `used` are set. -/
def onlyBits (w used : Word) : Bool := (w &&& ~~~used) == 0
/-- A field of a slot. -/
def fieldOf (w : Word) (lo n : Nat) : Nat := w.toNat / 2 ^ lo % 2 ^ n

/-- A MAC slot (R83). `first` is MAC0; a complex form needs it, and MAC1 all zeros. -/
def macLegal (first : Bool) (other w : Word) : Bool :=
  let op := fieldOf w 27 5
  if op = 0 then w == 0
  else if op ≤ 3 then onlyBits w 0xFE7F8000
  else if op ≤ 6 then onlyBits w 0xFFFFFF80
  else if op ≤ 9 then onlyBits w 0xFE7FFF80
  else if 0x10 ≤ op ∧ op ≤ 0x13 then
    first && other == 0 && onlyBits w 0xFE7F8000 && fieldOf w 25 2 % 2 == 0 && fieldOf w 19 4 % 2 == 0 &&
      fieldOf w 15 4 % 2 == 0
  else false

/-- A move slot (R84); `x` is the X-move slot. -/
def moveLegal (x : Bool) (w : Word) : Bool :=
  let op := fieldOf w 28 4
  let width := fieldOf w 26 2
  let reg := fieldOf w 13 7
  if op = 0 then w == 0
  else if op ≤ 2 then
    onlyBits w 0xFFFFE000 && decide (fieldOf w 23 3 ≤ 4) &&
      (width == 0 || (width == 1 && decide (reg < 16) && reg % 2 == 0) || (width == 2 && decide (reg < 16) && reg % 4 == 0))
  else if op = 3 then onlyBits w 0xF3F06000 && decide (fieldOf w 23 3 ≤ 4)
  else if op = 4 then onlyBits w 0xF00FFFC0
  else if op = 5 then onlyBits w 0xFFF0FFFF
  else if op ≤ 7 then x && onlyBits w 0xF00FFFFF
  else false

/-- The ALU classes (R85): CMP has no destination, NOT, ABS and NEG no second operand, and a shift's immediate
is 0 to 31 (R72). -/
def aluLegal (imm : Bool) (w : Word) : Bool :=
  let fn := fieldOf w 22 6
  let dz : Word := if fn = 0x0F then 0 else 0x003C0000
  let src : Word :=
    if fn = 0x07 ∨ fn = 0x0D ∨ fn = 0x0E then 0
    else if imm then (if 0x08 ≤ fn ∧ fn ≤ 0x0A then 0x1F else 0x3FFF)
    else 0x3C00
  decide (fn ≤ 0x0F) && onlyBits w (0xFFC3C000 ||| dz ||| src)

/-- The accumulator class (R85). ASH takes −40 to +40. -/
def accLegal (w : Word) : Bool :=
  let n := (w.setWidth 7 : BitVec 7).toInt
  match fieldOf w 24 4 with
  | 0 => onlyBits w 0xFFC00000
  | 1 => onlyBits w 0xFFF00000
  | 2 => onlyBits w 0xFFC0007F && decide (-40 ≤ n) && decide (n ≤ 40)
  | 3 | 4 => onlyBits w 0xFFCF0000
  | _ => false

/-- The flow, loop and tick classes (R85). -/
def flowLegal (w : Word) : Bool :=
  let fn := fieldOf w 24 4
  match fieldOf w 28 4 with
  | 0xB =>
    if fn = 0 ∨ fn = 2 then onlyBits w 0xFF001FFF
    else if fn = 1 then onlyBits w 0xFFF01FFF && decide (fieldOf w 20 4 ≤ 0xB)
    else if fn = 3 ∨ fn = 4 then onlyBits w 0xFF000000
    else if fn = 5 then onlyBits w 0xFF0F0000
    else false
  | 0xC =>
    if fn = 0 then onlyBits w 0xFF00FFFF
    else if fn = 1 then onlyBits w 0xFF0F0000
    else if fn = 2 then onlyBits w 0xFFFFFFFF
    else if fn = 3 then onlyBits w 0xFF0F1FFF
    else if fn = 4 then onlyBits w 0xFF000000
    else false
  | 0xD =>
    if fn = 0 then onlyBits w 0xFF000001
    else if fn = 1 then onlyBits w 0xFF000000
    else if fn = 2 then onlyBits w 0xFF0000FF
    else if fn = 3 then onlyBits w 0xFF0F0000
    else false
  | _ => false

/-- The Y/ALU slot (R85). LDL and STL there are illegal. -/
def yLegal (w : Word) : Bool :=
  match fieldOf w 28 4 with
  | 0 | 1 | 2 | 3 | 4 | 5 => moveLegal false w
  | 8 => aluLegal false w
  | 9 => aluLegal true w
  | 0xA => accLegal w
  | _ => flowLegal w

/-- A bundle is legal by its bits (R82, R86). -/
def bundleLegal (b : BitVec 128) : Bool :=
  let m0 := b.extractLsb' 0 32
  let m1 := b.extractLsb' 32 32
  macLegal true m1 m0 && macLegal false m0 m1 && moveLegal true (b.extractLsb' 64 32) && yLegal (b.extractLsb' 96 32)

/-- A data register, an accumulator, and an address register of a slot, by the lowest bit of its field. -/
def dAt (w : Word) (lo : Nat) : Fin 16 := Fin.ofNat 16 (fieldOf w lo 4)
def accAt (w : Word) (lo : Nat) : Fin 4 := Fin.ofNat 4 (fieldOf w lo 2)
/-- The pair a 4-bit field names by its even register. -/
def pairAt (w : Word) (lo : Nat) : Fin 8 := Fin.ofNat 8 (fieldOf w lo 4 / 2)

/-- The operation of a MAC slot (R83). -/
def macInstr (lane : Lane) (w : Word) (is : Issue) : Option Instr :=
  let a := accAt w 25
  let b := accAt w 23
  let x := dAt w 19
  let y := dAt w 15
  let u := dAt w 11
  let v := dAt w 7
  let e : Fin 2 := Fin.ofNat 2 (fieldOf w 26 1)
  match fieldOf w 27 5 with
  | 0x01 => some (.mpy is lane a x y)
  | 0x02 => some (.mac is lane a x y)
  | 0x03 => some (.msu is lane a x y)
  | 0x04 => some (.mpy2 is lane a b x y u v)
  | 0x05 => some (.mac2 is lane a b x y u v)
  | 0x06 => some (.msu2 is lane a b x y u v)
  | 0x07 => some (.dpy2 is lane a x y u v)
  | 0x08 => some (.dot2 is lane a x y u v)
  | 0x09 => some (.dsu2 is lane a x y u v)
  | 0x10 => some (.cmpy is e (pairAt w 19) (pairAt w 15))
  | 0x11 => some (.cmac is e (pairAt w 19) (pairAt w 15))
  | 0x12 => some (.cmpyj is e (pairAt w 19) (pairAt w 15))
  | 0x13 => some (.cmacj is e (pairAt w 19) (pairAt w 15))
  | _ => none

/-- The address form of a FORM code (R84). -/
def formOf : Nat → Option AForm
  | 0 => some .plain
  | 1 => some .inc
  | 2 => some .dec
  | 3 => some .addM
  | 4 => some .index
  | _ => none

/-- The registers of a move by WIDTH and REG (R54, R84). -/
def moveRegOf (width reg : Nat) : Option MoveReg :=
  match width with
  | 0 => some (.w (BitVec.ofNat 7 reg))
  | 1 => if reg < 16 ∧ reg % 2 = 0 then some (.l (Fin.ofNat 8 (reg / 2))) else none
  | 2 => if reg < 16 ∧ reg % 4 = 0 then some (.q (Fin.ofNat 4 (reg / 4))) else none
  | _ => none

/-- The operation of a move slot (R84). `ecc`: what the read of an LD meets. -/
def moveInstr (side : Side) (w : Word) (ecc : LineEcc) (is : Issue) : Option Instr :=
  let an : Fin 8 := Fin.ofNat 8 (fieldOf w 20 3)
  let reg : BitVec 7 := w.extractLsb' 13 7
  match fieldOf w 28 4, formOf (fieldOf w 23 3), moveRegOf (fieldOf w 26 2) (fieldOf w 13 7) with
  | 1, some f, some r => some (.ld is side f an r ecc)
  | 2, some f, some r => some (.st is side f an r)
  | 3, some f, _ => if fieldOf w 26 2 = 0 then some (.sta is side f an (accAt w 13)) else none
  | 4, _, _ => some (.mov is side reg (w.extractLsb' 6 7))
  | 5, _, _ => some (.ldi is side (w.extractLsb' 21 7) (w.getLsbD 20) (w.extractLsb' 0 16))
  | 6, _, _ => if side = .x then some (.ldl is reg (w.extractLsb' 0 13)) else none
  | 7, _, _ => if side = .x then some (.stl is reg (w.extractLsb' 0 13)) else none
  | _, _, _ => none

/-- The operation of the two ALU classes (R72, R85): `src` is Dy or the immediate. -/
def aluInstr (imm : Bool) (w : Word) (is : Issue) : Option Instr :=
  let z := dAt w 18
  let x := dAt w 14
  let src : AluSrc := if imm then .imm (w.extractLsb' 0 14) else .reg (dAt w 10)
  let sh : ShiftSrc := if imm then .imm (Fin.ofNat 32 (fieldOf w 0 5)) else .reg (dAt w 10)
  match fieldOf w 22 6 with
  | 0x00 => some (.add is z x src)
  | 0x01 => some (.sub is z x src)
  | 0x02 => some (.adds is z x src)
  | 0x03 => some (.subs is z x src)
  | 0x04 => some (.andOp is z x src)
  | 0x05 => some (.orOp is z x src)
  | 0x06 => some (.xorOp is z x src)
  | 0x07 => some (.notOp is z x)
  | 0x08 => some (.asr is z x sh)
  | 0x09 => some (.lsr is z x sh)
  | 0x0A => some (.lsl is z x sh)
  | 0x0B => some (.minOp is z x src)
  | 0x0C => some (.maxOp is z x src)
  | 0x0D => some (.absOp is z x)
  | 0x0E => some (.negOp is z x)
  | 0x0F => some (.cmp is x src)
  | _ => none

/-- The operation of the accumulator class (R85). -/
def accInstr (w : Word) (is : Issue) : Option Instr :=
  let a := accAt w 22
  match fieldOf w 24 4 with
  | 0 => some (.clr is a)
  | 1 => some (.adda is a (accAt w 20))
  | 2 => some (.ash is a (w.extractLsb' 0 7))
  | 3 => some (.ldacc is a (dAt w 16))
  | 4 => some (.movw is (dAt w 16) a)
  | _ => none

/-- The condition of a COND code (R85). -/
def condOf : Nat → Option Cond
  | 0x0 => some .eq
  | 0x1 => some .ne
  | 0x2 => some .lt
  | 0x3 => some .ge
  | 0x4 => some .gt
  | 0x5 => some .le
  | 0x6 => some .cs
  | 0x7 => some .cc
  | 0x8 => some .mi
  | 0x9 => some .pl
  | 0xA => some .vs
  | 0xB => some .vc
  | _ => none

/-- The operation of the flow, loop and tick classes (R85). -/
def flowInstr (w : Word) (is : Issue) : Option Instr :=
  let x := dAt w 16
  let target : BitVec 13 := w.extractLsb' 0 13
  match fieldOf w 28 4, fieldOf w 24 4 with
  | 0xB, 0 => some (.bra is target)
  | 0xB, 1 => (condOf (fieldOf w 20 4)).map (fun c => .bcc is c target)
  | 0xB, 2 => some (.call is target)
  | 0xB, 3 => some (.ret is)
  | 0xB, 4 => some (.rti is)
  | 0xB, 5 => some (.braDx is x)
  | 0xC, 0 => some (.repImm is (w.extractLsb' 0 16))
  | 0xC, 1 => some (.repDx is x)
  | 0xC, 2 => some (.doImm is (w.extractLsb' 13 11) target)
  | 0xC, 3 => some (.doDx is x target)
  | 0xC, 4 => some (.endl is)
  | 0xD, 0 => some (.waitphase is (w.getLsbD 0))
  | 0xD, 1 => some (.doneOp is)
  | 0xD, 2 => some (.postImm is (w.extractLsb' 0 8))
  | 0xD, 3 => some (.postDx is x)
  | _, _ => none

/-- The operation of the Y/ALU slot (R85). -/
def yInstr (w : Word) (ecc : LineEcc) (is : Issue) : Option Instr :=
  match fieldOf w 28 4 with
  | 1 | 2 | 3 | 4 | 5 => moveInstr .y w ecc is
  | 8 => aluInstr false w is
  | 9 => aluInstr true w is
  | 0xA => accInstr w is
  | _ => flowInstr w is

/-- The commands of a bundle's slots that are not NOP, in the order of R82, the last of them marked so; none where the
bundle is illegal by its bits (R86). `x` and `y` are what the reads of its loads meet. -/
def bundleInstrs (b : BitVec 128) (x y : LineEcc) (is : Issue) : Option (List Instr) :=
  if !bundleLegal b then none
  else
    let word (k : Nat) : Word := b.extractLsb' (32 * k) 32
    let ops : List (Issue → Option Instr) :=
      (if word 0 = 0 then [] else [macInstr .mac0 (word 0)]) ++ (if word 1 = 0 then [] else [macInstr .mac1 (word 1)]) ++
        (if word 2 = 0 then [] else [moveInstr .x (word 2) x]) ++ (if word 3 = 0 then [] else [yInstr (word 3) y])
    some (((upFrom 0 ops.length).zip ops).filterMap (fun p => p.2 { is with last := p.1 + 1 == ops.length }))

/-- A value in the field of a slot's word that begins at bit `lo`. -/
def fieldWord (lo v : Nat) : Word := BitVec.ofNat 32 (v * 2 ^ lo)

/-- The word of a MAC form: OP, ACCA, ACCB, DX, DY, DU, DV (R83). -/
def macWord (op a b x y u v : Nat) : Word :=
  fieldWord 27 op ||| fieldWord 25 a ||| fieldWord 23 b ||| fieldWord 19 x ||| fieldWord 15 y ||| fieldWord 11 u ||| fieldWord 7 v

/-- The code of an address form (R84). -/
def formCode : AForm → Nat
  | .plain => 0
  | .inc => 1
  | .dec => 2
  | .addM => 3
  | .index => 4

/-- WIDTH and REG of a move (R84). -/
def moveRegCode : MoveReg → Nat × Nat
  | .w c => (0, c.toNat)
  | .l p => (1, 2 * p.val)
  | .q q => (2, 4 * q.val)

/-- The word of LD, ST and STA (R84). -/
def moveWord (op : Nat) (form : AForm) (an : Fin 8) (reg : Nat × Nat) : Word :=
  fieldWord 28 op ||| fieldWord 26 reg.1 ||| fieldWord 23 (formCode form) ||| fieldWord 20 an.val ||| fieldWord 13 reg.2

/-- The word of an ALU operation: FN, DZ, DX and the second operand (R85). -/
def aluWord (fn z x : Nat) (src : AluSrc) : Word :=
  fieldWord 22 fn ||| fieldWord 18 z ||| fieldWord 14 x |||
    (match src with
      | .reg y => fieldWord 28 8 ||| fieldWord 10 y.val
      | .imm i => fieldWord 28 9 ||| i.setWidth 32)

/-- The second operand of a shift as that of an ALU operation (R72, R85). -/
def shiftSrc : ShiftSrc → AluSrc
  | .reg y => .reg y
  | .imm n => .imm (BitVec.ofNat 14 n.val)

/-- The code of a condition (R85). -/
def condCode : Cond → Nat
  | .eq => 0x0
  | .ne => 0x1
  | .lt => 0x2
  | .ge => 0x3
  | .gt => 0x4
  | .le => 0x5
  | .cs => 0x6
  | .cc => 0x7
  | .mi => 0x8
  | .pl => 0x9
  | .vs => 0xA
  | .vc => 0xB

/-- The word of a flow, loop or tick operation: class, FN, and its other fields (R85). -/
def flowWord (cls fn rest : Nat) : Word := fieldWord 28 cls ||| fieldWord 24 fn ||| BitVec.ofNat 32 rest

/-- The word of the slot that spells a slot operation (R83, R84, R85); none for a command that is no slot operation. -/
def slotBits (i : Instr) : Option Word :=
  match i with
  | .mpy _ _ a x y => some (macWord 0x01 a.val 0 x.val y.val 0 0)
  | .mac _ _ a x y => some (macWord 0x02 a.val 0 x.val y.val 0 0)
  | .msu _ _ a x y => some (macWord 0x03 a.val 0 x.val y.val 0 0)
  | .mpy2 _ _ a b x y u v => some (macWord 0x04 a.val b.val x.val y.val u.val v.val)
  | .mac2 _ _ a b x y u v => some (macWord 0x05 a.val b.val x.val y.val u.val v.val)
  | .msu2 _ _ a b x y u v => some (macWord 0x06 a.val b.val x.val y.val u.val v.val)
  | .dpy2 _ _ a x y u v => some (macWord 0x07 a.val 0 x.val y.val u.val v.val)
  | .dot2 _ _ a x y u v => some (macWord 0x08 a.val 0 x.val y.val u.val v.val)
  | .dsu2 _ _ a x y u v => some (macWord 0x09 a.val 0 x.val y.val u.val v.val)
  | .cmpy _ e x y => some (macWord 0x10 (2 * e.val) 0 (2 * x.val) (2 * y.val) 0 0)
  | .cmac _ e x y => some (macWord 0x11 (2 * e.val) 0 (2 * x.val) (2 * y.val) 0 0)
  | .cmpyj _ e x y => some (macWord 0x12 (2 * e.val) 0 (2 * x.val) (2 * y.val) 0 0)
  | .cmacj _ e x y => some (macWord 0x13 (2 * e.val) 0 (2 * x.val) (2 * y.val) 0 0)
  | .ld _ _ f an r _ => some (moveWord 1 f an (moveRegCode r))
  | .st _ _ f an r => some (moveWord 2 f an (moveRegCode r))
  | .sta _ _ f an a => some (moveWord 3 f an (0, a.val))
  | .mov _ _ src dst => some (fieldWord 28 4 ||| fieldWord 13 src.toNat ||| fieldWord 6 dst.toNat)
  | .ldi _ _ dst high imm =>
    some (fieldWord 28 5 ||| fieldWord 21 dst.toNat ||| fieldWord 20 (if high then 1 else 0) ||| imm.setWidth 32)
  | .ldl _ dst off => some (fieldWord 28 6 ||| fieldWord 13 dst.toNat ||| off.setWidth 32)
  | .stl _ src off => some (fieldWord 28 7 ||| fieldWord 13 src.toNat ||| off.setWidth 32)
  | .add _ z x src => some (aluWord 0x00 z.val x.val src)
  | .sub _ z x src => some (aluWord 0x01 z.val x.val src)
  | .adds _ z x src => some (aluWord 0x02 z.val x.val src)
  | .subs _ z x src => some (aluWord 0x03 z.val x.val src)
  | .andOp _ z x src => some (aluWord 0x04 z.val x.val src)
  | .orOp _ z x src => some (aluWord 0x05 z.val x.val src)
  | .xorOp _ z x src => some (aluWord 0x06 z.val x.val src)
  | .notOp _ z x => some (aluWord 0x07 z.val x.val (.reg 0))
  | .asr _ z x src => some (aluWord 0x08 z.val x.val (shiftSrc src))
  | .lsr _ z x src => some (aluWord 0x09 z.val x.val (shiftSrc src))
  | .lsl _ z x src => some (aluWord 0x0A z.val x.val (shiftSrc src))
  | .minOp _ z x src => some (aluWord 0x0B z.val x.val src)
  | .maxOp _ z x src => some (aluWord 0x0C z.val x.val src)
  | .absOp _ z x => some (aluWord 0x0D z.val x.val (.reg 0))
  | .negOp _ z x => some (aluWord 0x0E z.val x.val (.reg 0))
  | .cmp _ x src => some (aluWord 0x0F 0 x.val src)
  | .clr _ a => some (flowWord 0xA 0 (a.val * 4194304))
  | .adda _ a b => some (flowWord 0xA 1 (a.val * 4194304 + b.val * 1048576))
  | .ash _ a n => some (flowWord 0xA 2 (a.val * 4194304 + n.toNat))
  | .ldacc _ a x => some (flowWord 0xA 3 (a.val * 4194304 + x.val * 65536))
  | .movw _ z a => some (flowWord 0xA 4 (a.val * 4194304 + z.val * 65536))
  | .bra _ t => some (flowWord 0xB 0 t.toNat)
  | .bcc _ c t => some (flowWord 0xB 1 (condCode c * 1048576 + t.toNat))
  | .call _ t => some (flowWord 0xB 2 t.toNat)
  | .ret _ => some (flowWord 0xB 3 0)
  | .rti _ => some (flowWord 0xB 4 0)
  | .braDx _ x => some (flowWord 0xB 5 (x.val * 65536))
  | .repImm _ n => some (flowWord 0xC 0 n.toNat)
  | .repDx _ x => some (flowWord 0xC 1 (x.val * 65536))
  | .doImm _ n t => some (flowWord 0xC 2 (n.toNat * 8192 + t.toNat))
  | .doDx _ x t => some (flowWord 0xC 3 (x.val * 65536 + t.toNat))
  | .endl _ => some (flowWord 0xC 4 0)
  | .waitphase _ second => some (flowWord 0xD 0 (if second then 1 else 0))
  | .doneOp _ => some (flowWord 0xD 1 0)
  | .postImm _ k => some (flowWord 0xD 2 k.toNat)
  | .postDx _ x => some (flowWord 0xD 3 (x.val * 65536))
  | _ => none

/-- The slot of a slot operation, in the order of R82. -/
def slotNumber (i : Instr) : Nat :=
  match i with
  | .mpy _ lane _ _ _ | .mac _ lane _ _ _ | .msu _ lane _ _ _ => laneSlot lane
  | .mpy2 _ lane _ _ _ _ _ _ | .mac2 _ lane _ _ _ _ _ _ | .msu2 _ lane _ _ _ _ _ _ => laneSlot lane
  | .dpy2 _ lane _ _ _ _ _ | .dot2 _ lane _ _ _ _ _ | .dsu2 _ lane _ _ _ _ _ => laneSlot lane
  | .cmpy _ _ _ _ | .cmac _ _ _ _ | .cmpyj _ _ _ _ | .cmacj _ _ _ _ => 0
  | .ld _ side _ _ _ _ | .st _ side _ _ _ | .sta _ side _ _ _ | .mov _ side _ _ | .ldi _ side _ _ _ => sideSlot side
  | .ldl _ _ _ | .stl _ _ _ => 2
  | _ => 3

/-- The operation a word spells in a slot (R83, R84, R85). -/
def slotInstr (slot : Nat) (w : Word) (ecc : LineEcc) (is : Issue) : Option Instr :=
  match slot with
  | 0 => macInstr .mac0 w is
  | 1 => macInstr .mac1 w is
  | 2 => moveInstr .x w ecc is
  | _ => yInstr w ecc is

end Sys2Proof.Machine
end

