-- ==== Sys2Proof/Machine/EngineTick.lean ====
section
/-! DEFINITION. The engines' tick contract: WAITPHASE, DONE and POST (R100 to R103), illegal bundles (R86),
ECC write-back (R57), retries (R55), interrupts (R97) and the tick DMA (R102, R103). -/

namespace Sys2Proof.Machine

/-- WAITPHASE (R100): illegal while a section is open, in a delay slot or under a REP (R91, R93). -/
def waitSlot (second : Bool) (e : Engine) : SlotOut :=
  if e.sec != 0 || loopIllegal e then .illegal false else .ok { e with flow := some (.wait second) }

/-- WAITPHASE (R100). -/
def execWaitphase (is : Issue) (second : Bool) (s : State) : Host.Outcome State Fault Refusal :=
  .next (issueSlot is (fun _ e => waitSlot second e) s)

/-- The wait of an engine can end at a cycle of the tick (R100, R103): its phase is open, its gather has
completed, it has not run the section in this tick, and no output frame is queued. -/
def waitReady (s : State) (e : Engine) (cycle : Nat) : Bool :=
  let second := e.waitFor == 2
  e.run == .waiting && decide (listGet 0 (if second then 8 else 4) s.clk.plan ≤ cycle) &&
    (if second then e.gather2 && !e.ran2 else e.gather1 && !e.ran1) && e.q1.isEmpty && e.q2.isEmpty

/-- The bundle of a WAITPHASE issues, and its section is open (R100). -/
def openSection (e : Engine) (cycle stall : Nat) : Engine × List EngSig :=
  let second := e.waitFor == 2
  let e1 := { e with
    run := .running, waitFor := 0, sec := if second then 2 else 1, posted := []
    ran1 := e.ran1 || !second, ran2 := e.ran2 || second, tcyc := cycle, lastPc := e.pc }
  let (e2, sg) := countEvents [(0x01, stall), (0x03, stall)] e1
  let (e3, sg') := finishBundle e2
  (e3, sg ++ sg')

/-- The copy of a warm move is still going on at a cycle of tick t_x: WAITPHASE 2 returns on neither engine (R379). -/
def copyHolds (s : State) (eng : Fin 16) (second : Bool) (cycle : Nat) : Bool :=
  match s.rsv.move with
  | some m => m.step == .copied && m.tx == s.tick && (m.source == eng || m.leaf == eng) && !second && decide (cycle < m.held)
  | none => false

/-- WAITPHASE_RETURN (R100): the wait ends at fabric cycle `cycle` of the tick after `stall` cycles. A delay
read still incomplete raises FAB_DELAY_LATE (R369). -/
def execWaitphaseReturn (eng : Fin 16) (cycle stall : Nat) (s : State) : Host.Outcome State Fault Refusal :=
  let e := s.engine eng
  if !waitReady s e cycle || copyHolds s eng (e.waitFor == 2) cycle then .next s
  else
    let s1 := commitEngine s eng (openSection e cycle stall)
    .next (match placeOf s eng with
      | some p => dlyOpen s1 p (e.waitFor == 2)
      | none => s1)

/-- The slots mapped valid to a section, in order (R102). -/
def slotsOf (m : Map Word) (second : Bool) : List Nat :=
  (m.filter (fun p => p.2.getLsbD 31 && p.2.getLsbD 16 == second)).map (fun p => p.1)

/-- Queue output slots on the channel of the open section, with the tag of this tick (R103). -/
def queueSlots (tv : TickView) (ks : List Nat) (e : Engine) : Engine :=
  let es := ks.map (fun k => (k, tagOf tv.tick))
  let e1 := noteEvent 0x0F ks.length { e with posted := e.posted ++ ks }
  if e.sec = 1 then { e1 with q1 := e1.q1 ++ es } else { e1 with q2 := e1.q2 ++ es }

/-- DONE (R100, R103): every valid slot not yet posted is queued and the section closes. -/
def doneSlot (tv : TickView) (e : Engine) : SlotOut :=
  if e.sec = 0 || loopIllegal e then .illegal false
  else
    let second := e.sec == 2
    let ks := (slotsOf e.loc.outMap second).filter (fun k => !e.posted.contains k)
    .ok { noteEvent 0x13 1 (queueSlots tv ks e) with flow := some (.done second), sec := 0 }

/-- DONE (R100). -/
def execDoneOp (is : Issue) (s : State) : Host.Outcome State Fault Refusal :=
  .next (issueSlot is doneSlot s)

/-- POST of a slot (R103): illegal outside a section, for a slot not valid or not of the section, in a delay
slot or under a REP; a second POST of a slot is ignored; a full queue stalls issue. -/
def postSlot (slot : Nat) (tv : TickView) (e : Engine) : SlotOut :=
  if e.sec = 0 || loopIllegal e || !(slotsOf e.loc.outMap (e.sec == 2)).contains slot then .illegal false
  else if e.posted.contains slot then .ok (noteEvent 0x0F 1 e)
  else if (if e.sec = 1 then e.q1 else e.q2).length < 32 then .ok (queueSlots tv [slot] e)
  else .ok { noteEvent 0x0F 1 e with stalled := some slot }

/-- POST with an immediate slot (R103). -/
def execPostImm (is : Issue) (slot : Byte) (s : State) : Host.Outcome State Fault Refusal :=
  .next (issueSlot is (postSlot slot.toNat) s)
/-- POST of the slot in Dx (R103). A slot above 255 is no slot of the map. -/
def execPostDx (is : Issue) (x : Fin 16) (s : State) : Host.Outcome State Fault Refusal :=
  .next (issueSlot is (fun tv e => postSlot (e.rf.getD x).toNat tv e) s)

/-- POST_STALL_END (R103): a stalled POST completes once an entry is free, after `stall` cycles. -/
def execPostStallEnd (eng : Fin 16) (stall : Nat) (s : State) : Host.Outcome State Fault Refusal :=
  let e := s.engine eng
  match e.stalled with
  | none => .next s
  | some k =>
    if e.run == .running && decide ((if e.sec = 1 then e.q1 else e.q2).length < 32) then
      let (e1, sg) := idleCycles stall ({ e with stalled := none }, [])
      let (e2, sg') := countEvents [(0x04, stall)] e1
      .next (commitEngine s eng ({ queueSlots (tickView s e2) [k] e2 with events := [] }, sg ++ sg'))
    else .next s

/-- ILLEGAL_BUNDLE (R86): an illegal bundle executes none of its slots and halts the engine. Bits that spell
a legal bundle do nothing here: its slots are commands of their own. -/
def execIllegalBundle (is : Issue) (bundle : BitVec 128) (s : State) : Host.Outcome State Fault Refusal :=
  let e := s.engine is.eng
  if !canIssue e || e.inBundle || bundleLegal bundle then .next s
  else
    let (e1, sg, dead) := startBundle is e
    let s1 := commitEngine s is.eng (e1, sg)
    .next (if dead then haltEcc s1 is.eng else haltIllegal s1 is.eng false)

/-- ECC_WRITEBACK (R57): a corrected word is written back; memory holds the corrected word already. -/
def execEccWriteback (eng : Fin 16) (mem : Fin 3) (word : Half) (s : State) : Host.Outcome State Fault Refusal :=
  let e := s.engine eng
  .next (s.setEngine eng { e with fix := e.fix.filter (fun f => f != (mem.val, word.toNat)) })

/-- SUBBANK_RETRY (R55): the access waits one cycle, and the retry counts as event 0x11 or 0x12 (R394). A write that meets the
engine and is not reported so waits all the same when the cycle ends. -/
def execSubbankRetry (eng : Fin 16) (fabric : Bool) (s : State) : Host.Outcome State Fault Refusal :=
  .next (commitEngine s eng (countEvents [(if fabric then 0x12 else 0x11, 1)] (delayPort fabric (s.engine eng))))

/-- The coming bundle boundary is interruptible (R98). -/
def boundaryOpen (e : Engine) : Bool :=
  (e.run == .running || e.run == .waiting) && !e.inBundle && e.branch.isNone && !e.rtiDue && e.rep == 0 &&
    !e.noInt && e.stalled.isNone

/-- Take an interrupt (R97): SE_IRA takes the bundle that would have issued next, SE_ISR takes SR, IE is
cleared, and the vector issues after four cycles. A bundle held in WAITPHASE has not issued and waits again
after the handler (R98). -/
def takeInterrupt (v : BitVec 13) (e : Engine) : Engine × List EngSig :=
  let e0 := if e.run == .waiting then
      { e with run := .running, waitFor := 0, flow := none, events := []
               flight := e.flight.filter (fun l => l.seq != e.seq) }
    else loopExit e
  let e1 := { e0 with
    loc := { e0.loc with ira := e0.pc, isr := srWord e0.rf e0.loops.length }
    rf := { e0.rf with ie := false }, pc := v }
  idleCycles 4 (noteEvent 0x0A 1 e1, [])

/-- An engine leaves a WAITPHASE for an interrupt: the fabric cycle it has reached by then is a free value, not before the
wait began nor before D2 once that has been reached (R105; the command carries no instant, assumption 126). -/
def waitCycle (s : State) (e : Engine) : Engine :=
  { e with tcyc := max e.tcyc (if s.clk.late then listGet 0 8 s.clk.plan else 0) + Config.waitCycles s.fresh }

/-- INTERRUPT_TAKEN (R97). -/
def execInterruptTaken (eng : Fin 16) (s : State) : Host.Outcome State Fault Refusal :=
  let e := s.engine eng
  match irqVector e with
  | some v =>
    if !e.rf.ie || !boundaryOpen e then .next s
    else if e.run == .waiting then .next (commitEngine { s with fresh := s.fresh + 1 } eng (takeInterrupt v (waitCycle s e)))
    else .next (commitEngine s eng (takeInterrupt v e))
  | none => .next s

/-- The place whose inputs engine `n` takes: the one it holds, or the one it shadows (R144). -/
def feedPlace (s : State) (n : Fin 16) : Option (Fin 16) :=
  match s.rsv.move with
  | some m => if m.leaf == n && (feedsOf s m.req.place).contains n then some m.req.place else placeOf s n
  | none => placeOf s n

/-- Gather every input slot of a section, and answer whether every one has its frame (R43, R102). `reads` names the slots
whose reads meet an error. -/
def gatherSlots (s : State) (p : Fin 16) (ks : List Nat) (reads : List (Nat × LatReads)) : State × Bool :=
  let ds := ks.map (fun k => 0x2800 + 384 * p.val + k)
  let q (k : Nat) : LatReads := ((reads.find? (fun r => r.1 == k)).map (fun r => r.2)).getD { sel := .ok, frame := .ok, old := .ok }
  let s1 := ks.foldl (fun t k => gatherWith t (0x2800 + 384 * p.val + k) (q k)) s
  (s1, ds.all (fun d => (s1.dest d).gathered))

/-- Put the gathered frames of a section into X memory, where SE_INMAP says (R102). -/
def fillInputs (s : State) (p n : Fin 16) (ks : List Nat) : State :=
  ks.foldl (fun t k =>
    let e := t.engine n
    let a := (mapGet (fun _ => 0) k e.loc.inMap).toNat % 65536
    t.setEngine n (putX a (t.dest (0x2800 + 384 * p.val + k)).words e)) s

/-- Fade the samples of an output frame in the first 256 after a start (R102). -/
def startFade (left : Nat) (ws : List Word) : List Word :=
  if left = 0 then ws
  else (fadeFrame1 { mode := .fadingIn, k := 256 - left, last := 0 } ws).1

/-- Which samples of an output frame the fade of a start scales (R102). -/
def startLow (left n : Nat) : List Bool :=
  if left = 0 then [] else fadeLow [{ mode := .fadingIn, k := 256 - left, last := 0 }] n

/-- An engine's frame has reached the store: it holds place `p` (R102, R144). After its substitute it is discarded (R44). -/
def storeOutput (s : State) (p : Fin 16) (k tag : Nat) (ws : List Word) (low : List Bool) : State :=
  let i := 0x3000 + 256 * p.val + k
  let r := s.source i
  if (r.hist.head?.map (fun h => h.tag)) = some tag then s
  else
    let s1 := s.setSource i { r with base := ws, fade := Fade.unity }
    putFrame s1 i { tag := tag, words := ws, low := low, npcm := false, bad := false }

/-- A frame of the shadow or of its source in a shadow tick, compared with the other's once both are posted (R380). -/
def notePost (s : State) (leaf : Bool) (k tag : Nat) (ws : List Word) : State :=
  match s.rsv.move with
  | none => s
  | some m =>
    if m.kind == .warm && m.step == .copied && decide (m.tx ≤ s.tick) && decide (s.tick < m.tx + 2) && s.flag Ix.rsvShadowCheck then
      let crc := crc32 (wordBytes ws)
      match m.posts.find? (fun x => x.1 == !leaf && x.2.1 == k && x.2.2.1 == tag) with
      | none => { s with rsv := { s.rsv with move := some { m with posts := m.posts ++ [(leaf, k, tag, crc)] } } }
      | some x =>
        let m1 := { m with posts := m.posts.filter (fun y => y != x) }
        let s1 := { s with rsv := { s.rsv with move := some m1 } }
        if x.2.2.2 = crc then s1 else shadowDiffers s1 m1
    else s

/-- Deliver a posted frame (R103, R144): the shadow's is discarded, one from an engine without a place or with
another tag is discarded and counted. -/
def deliverPost (s : State) (n : Fin 16) (k tag : Nat) (ws : List Word) (low : List Bool) : State :=
  let shadow := match s.rsv.move with
    | some m => m.leaf == n && (feedsOf s m.req.place).contains n
    | none => false
  let moved := match s.rsv.move with
    | some m => m.source == n
    | none => false
  if shadow then notePost s true k tag ws
  else
    match placeOf s n with
    | none => s.addHold Ix.latDiscards 0 1
    | some p =>
      if tag ≠ s.tag ∨ (s.engine n).image.isNone then s.addHold Ix.latDiscards 0 1
      else
        let s1 := storeOutput s p k tag ws low
        if moved then notePost s1 false k tag ws else s1

/-- OUTPUT_FRAME_COPIED (R103): the frame at the head of the section's queue reaches the store. An
uncorrectable read of X replaces it by silence and halts the engine as an overrun (R111). -/
def execOutputFrameCopied (eng : Fin 16) (second : Bool) (reads : FrameReads) (s : State) : Host.Outcome State Fault Refusal :=
  let e := s.engine eng
  match (if second then e.q2 else e.q1) with
  | [] => .next s
  | (k, tag) :: rest =>
    let a := (mapGet (fun _ => 0) k e.loc.outMap).toNat % 65536
    let fixed := (reads.fixed.eraseDups.filter (fun i => decide (i < s.ticklen))).map (fun i => (1, (a + i) % 65536))
    let e1 := { e with fix := e.fix ++ fixed }
    let s1 := countFixes eng fixed.length (s.setEngine eng (if second then { e1 with q2 := rest } else { e1 with q1 := rest }))
    if reads.bad then
      let s2 := deliverPost s1 eng k tag (List.replicate s.ticklen 0) []
      .next ((haltEngine s2 eng 16).alarm (Al.engDmaFault.src eng.val))
    else
      .next (deliverPost s1 eng k tag (startFade e.fadeIn (xWords e a s.ticklen)) (startLow e.fadeIn s.ticklen))

end Sys2Proof.Machine
end

