-- ==== Sys2Proof/Machine/Mailbox.lean ====
section
/-! DEFINITION. The mailboxes of the engines and the SOFT interrupt (R105, R106). -/

namespace Sys2Proof.Machine

/-- A write of an engine-local register that has a command of its own. The program of an engine that issues
nothing writes nothing; a window that does not answer takes nothing from the fabric (R105). -/
def portWrite (s : State) (eng : Fin 16) (port : LocalPort) (off : Nat) (w : Word) : State :=
  let can : Bool := match port with
    | .engine => canIssue (s.engine eng)
    | .fabric => !windowGated s eng
  if can then commitEngine s eng (localWrite port off w (s.engine eng)) else s

/-- MBOX_ACK (R105). -/
def execMboxAck (eng : Fin 16) (port : LocalPort) (s : State) : Host.Outcome State Fault Refusal :=
  .next (portWrite s eng port 0x060 1)

/-- MBOX_SEND (R106): SE_MBOX_OUT_CTL is written with SEND set and LEN as it stands. -/
def execMboxSend (eng : Fin 16) (port : LocalPort) (s : State) : Host.Outcome State Fault Refusal :=
  .next (portWrite s eng port 0x0A0 (1 + 256 * (s.engine eng).loc.outLen.setWidth 32))

/-- SOFT_IRQ_SET (R105). -/
def execSoftIrqSet (eng : Fin 16) (port : LocalPort) (s : State) : Host.Outcome State Fault Refusal :=
  .next (portWrite s eng port 0x028 4)

/-- The controller can write a message to an engine: none written in this tick, and none in SE_MBOX_IN that waits to be
acknowledged (R106; DESIGN CHOICE: the spec does not say whether a message may be written while VALID is 1). -/
def canMail (s : State) (eng : Fin 16) : Bool :=
  !s.ctl.mailed.contains eng.val && !(s.engine eng).loc.inValid

/-- The words of a message in SE_MBOX_IN. -/
def msgWords (ws : List Word) (old : Vector Word 8) : Vector Word 8 :=
  forN (fun i v => if i < ws.length then setMsg v i (listGet 0 i ws) else v) 8 old

/-- A message stands in an engine's SE_MBOX_IN (R105). -/
def takeMail (ws : List Word) (e : Engine) : Engine :=
  let l := e.loc
  { e with loc := { l with
      inMsg := msgWords ws l.inMsg, inValid := true, inLen := BitVec.ofNat 4 (min ws.length 8) } }

/-- The shadow of a place whose engine is `eng` (R380). -/
def shadowOf (s : State) (eng : Fin 16) : Option (Fin 16) :=
  match s.rsv.move with
  | some m => if m.source == eng && m.step == .copied && decide (m.tx ≤ s.tick) then some m.leaf else none
  | none => none

/-- The controller writes a message to an engine, and to its shadow (R105, R106, R380). -/
def writeMail (s : State) (eng : Fin 16) (ws : List Word) : State :=
  let s0 := s.setEngine eng (takeMail ws (s.engine eng))
  let s1 := match shadowOf s0 eng with
    | some leaf => s0.setEngine leaf (takeMail ws (s0.engine leaf))
    | none => s0
  { s1 with ctl := { s1.ctl with mailed := s1.ctl.mailed ++ [eng.val] } }

/-- The controller has a message for an engine: it is written, or, while the engine has a shadow, at cycle 0 of the next
tick (R380). -/
def sendMail (s : State) (eng : Fin 16) (ws : List Word) : State :=
  if (shadowOf s eng).isSome then
    { s with ctl := { s.ctl with mailed := s.ctl.mailed ++ [eng.val], mailDue := s.ctl.mailDue ++ [(eng.val, ws)] } }
  else writeMail s eng ws

/-- Cycle 0 of a tick: the messages that wait for it are written (R380). -/
def mailTick (s : State) : State :=
  s.ctl.mailDue.foldl (fun t m => writeMail t (Fin.ofNat 16 m.1) m.2) { s with ctl := { s.ctl with mailDue := [] } }

/-- What waits for, or came from, an engine follows its place to another (R374, R381). -/
def moveMail (s : State) (source leaf : Nat) : State :=
  let go (l : List (Nat × List Word)) := l.map (fun m => if m.1 = source then (leaf, m.2) else m)
  { s with ctl := { s.ctl with mail := go s.ctl.mail, mailDue := go s.ctl.mailDue, inbox := go s.ctl.inbox } }

/-- MBOX_IN_MESSAGE (R106): a message of 1 to 8 words. While a WRITE_REPLY waits for the engine, that is the first message
written to it. -/
def execMboxInMessage (eng : Fin 16) (words : List Word) (s : State) : Host.Outcome State Fault Refusal :=
  .next (if canMail s eng && !s.ctl.mail.any (fun m => m.1 == eng.val) && !words.isEmpty && decide (words.length ≤ 8) then sendMail s eng words else s)

/-- WRITE_REPLY (R106): the oldest reply that waits for an engine is written to it. A reply that received no
generation carries SHUT_GEN as it stands now. -/
def execWriteReply (eng : Fin 16) (s : State) : Host.Outcome State Fault Refusal :=
  .next (match s.ctl.mail.find? (fun m => m.1 == eng.val) with
    | none => s
    | some m =>
      if canMail s eng then
        let gen : List Word := if m.2.length < 3 then [BitVec.ofNat 32 (s.nat Ix.shutGen)] else []
        sendMail { s with ctl := { s.ctl with mail := s.ctl.mail.erase m } } eng (m.2 ++ gen)
      else s)

/-- The operation code of a message. -/
def msgOp (ws : List Word) : Nat := (listGet 0 0 ws).toNat / 16777216

/-- MBOX_OUT_COLLECT (R106): once per tick the controller reads a message that waits and clears FULL; the
shadow's are discarded (R380). A message has LEN words, 8 at most (DESIGN CHOICE for LEN 0 and 9 to 15: the field is
given as 1–8). One of no words, or with an operation code that R106 does not list, asks for nothing and is dropped
(DESIGN CHOICE). -/
def execMboxOutCollect (eng : Fin 16) (s : State) : Host.Outcome State Fault Refusal :=
  let e := s.engine eng
  .next (if s.ctl.collected.contains eng.val then s
    else
      let s1 := { s with ctl := { s.ctl with collected := s.ctl.collected ++ [eng.val] } }
      if e.loc.outFull then
        let s2 := s1.setEngine eng { e with loc := { e.loc with outFull := false } }
        let ws := e.loc.outMsg.toList.take e.loc.outLen.toNat
        if isShadow s eng || ws.isEmpty || !(msgOp ws == 1 || msgOp ws == 2) then s2
        else { s2 with ctl := { s2.ctl with inbox := s2.ctl.inbox ++ [(eng.val, ws)] } }
      else s1)

/-- The oldest message collected from an engine and not yet acted on, where it has an operation code. -/
def inboxOf (s : State) (eng : Fin 16) (code : Nat) : Option (List Word) :=
  match s.ctl.inbox.find? (fun m => m.1 == eng.val) with
  | none => none
  | some m => if msgOp m.2 = code then some m.2 else none

/-- Take the oldest message collected from an engine. -/
def takeInbox (s : State) (eng : Fin 16) (ws : List Word) : State :=
  { s with ctl := { s.ctl with inbox := s.ctl.inbox.erase (eng.val, ws) } }

/-- MBOX_ALARM (R106): ENG_USER with the message's number. -/
def execMboxAlarm (eng : Fin 16) (s : State) : Host.Outcome State Fault Refusal :=
  .next (match inboxOf s eng 2 with
    | none => s
    | some ws =>
      let a : AlarmId := ⟨0x02, eng.val, 0x8000 + (listGet 0 1 ws).toNat % 4096⟩
      (takeInbox s eng ws).alarm a)

end Sys2Proof.Machine
end

