-- ==== Sys2Proof/Machine/RefOps.lean ====
section
/-! DEFINITION. Candidate references: presence (R281), levels (R283 to R285), monitors (R286 to R289), filters
(R293) and the choice at a tick boundary (R290 to R292). -/

namespace Sys2Proof.Machine

/-- A candidate. -/
def candOf (s : State) (k : Nat) : Cand := mapGet (fun _ => Cand.reset) k s.ref.cands
def setCand (s : State) (k : Nat) (c : Cand) : State :=
  { s with ref := { s.ref with cands := mapSet (fun _ => Cand.reset) k c s.ref.cands } }

/-- Candidates that carry time of day (R263, R280). -/
def carriesTime (k : Nat) : Bool := k == 0 || k == 1 || k == 5

/-- REF_STATE of a candidate (R290): state 0 ABSENT, 1 QUALIFYING, 2 ELIGIBLE, 3 ACTIVE, 4 DISQUALIFIED. -/
def refState (s : State) (k : Nat) : Nat := s.nat Ix.refState k % 8
def setRefState (s : State) (k v : Nat) : State := s.setNat Ix.refState k (s.nat Ix.refState k / 8 * 8 + v)
/-- A candidate begins to qualify: REF_QUAL_TIME runs from here (R290). -/
def startQualify (s : State) (k : Nat) : State :=
  setRefState (setCand s k { candOf s k with since := s.clk.sysCounter }) k 1
/-- A candidate leaves for ABSENT or DISQUALIFIED with a reason (R290). -/
def setRefReason (s : State) (k v reason : Nat) : State := s.setNat Ix.refState k (v + 16 * reason)

/-- The active reference, where there is one. -/
def activeRef (s : State) : Option Nat :=
  let k := s.nat Ix.refActive
  if k < 6 then some k else none
/-- The unit is in holdover (R291). -/
def inHoldover (s : State) : Bool := s.nat Ix.refActive == 15

/-- A candidate fails a monitor of R281: it is absent from this moment. `coarse`: the coarse frequency monitor, whose verdict
stands until an average passes; the activity monitor else. -/
def refFails (s : State) (k : Nat) (coarse : Bool) : State :=
  let c := candOf s k
  let s1 := setCand s k { Cand.reset with quality := c.quality, active := coarse && c.active, coarse := coarse || c.coarse }
  if refState s k = 0 then s1
  else ((setRefReason s1 k 0 1).setNat Ix.refQl k 15).alarm (Al.refLost.src k)
/-- The activity monitor of a candidate fails (R281). -/
def refLost (s : State) (k : Nat) : State := refFails s k false

/-- There is activity on a candidate: it is present where its coarse frequency monitor has not failed (R281, R290). -/
def refPresent (s : State) (k : Nat) : State :=
  let c := candOf s k
  if c.present then s
  else if c.coarse then setCand s k { c with active := true }
  else
    let s1 := setCand s k { c with present := true, active := true }
    if refState s k = 0 then startQualify s1 k else s1

/-- What the build-out filter of a candidate holds once a measured phase has entered (R281): the last 16 offsets, 4 PPS edges
or 96 heartbeats, or for candidates 2 and 3 what the last 1,200 ticks have measured. -/
def filterKeeps (s : State) (k : Nat) (l : List (Nat × Int)) : List (Nat × Int) :=
  match k with
  | 0 | 1 => l.take 16
  | 4 => l.take 4
  | 5 => l.take 96
  | _ => l.filter (fun p => decide (s.clk.sysCounter * s.fs < p.1 * s.fs + 1200 * s.ticklen * 1000000000))

/-- The mean of a list, toward minus infinity. -/
def meanOf (l : List Int) : Int := if l.isEmpty then 0 else l.foldl (fun a b => a + b) 0 / (l.length : Int)

/-- The frequency, in Hz, modulo whose period the phase of candidates 2 to 4 is judged (R282): one WCLK period, one AES3
frame, one second. -/
def refHz (s : State) (k : Nat) : Nat :=
  let base := if s.nat Ix.houseRate % 2 = 0 then 44100 else 48000
  let frame := s.nat Ix.aesiRate 0
  match k with
  | 2 => if (s.nat Ix.refWclkMode).testBit 0 then base else s.fs
  | 3 => if 2 * frame < (base + s.fs) * 1000 ∧ frame ≠ 0 then base else s.fs
  | _ => 1

/-- A phase in units of 1/`u` ns reduced into half a period either side of 0 (R293), for candidates 2 to 4. -/
def reduceBy (s : State) (k : Nat) (u x : Int) : Int :=
  let f : Int := refHz s k
  if carriesTime k then x else ((x * f + 500000000 * u) % (1000000000 * u) - 500000000 * u) / f

/-- A phase in ns reduced into half a period either side of 0 (R293). -/
def reducePhase (s : State) (k : Nat) (x : Int) : Int := reduceBy s k 1 x

/-- A 32-bit signed report, held at its ends. -/
def hold32 (x : Int) : Int := max (-2147483648) (min 2147483647 x)

/-- A measured phase enters the filter of a candidate that is present (R281, R293), and the phase-jump monitor of candidates
0, 1 and 5 judges the filtered offset, with the time base's own motion allowed for (R288). A phase of candidates 2 to 4 is
taken as the one nearest to the phase before of those a whole number of periods apart (R282). -/
def refPhase (s0 : State) (k : Nat) (x0 : Int) : State :=
  let s := refPresent s0 k
  let c := candOf s k
  if !c.present then s else
  let x := match c.phases with
    | (_, p) :: _ => if carriesTime k then x0 else p + reducePhase s k (x0 - p)
    | [] => x0
  let ph := filterKeeps s k ((s.clk.sysCounter, x) :: c.phases)
  let f := reducePhase s k (meanOf (ph.map (fun p => p.2)))
  let jump := match c.filt with
    | some (g, m) => carriesTime k &&
        decide ((s.nat Ix.refJump : Int) < ((f - g - (s.tim.moved - m) / 2 ^ 48).natAbs : Int))
    | none => false
  (setCand s k { c with
    phases := ph, filt := some (f, s.tim.moved), jump := jump, last := some (x, s.clk.sysCounter, s.tim.moved)
    fresh := if carriesTime k then some x else none }).setInt Ix.refPhase k (hold32 f)

/-- The level of a PTP clock class and accuracy (R283). -/
def ptpLevel (cls acc : Nat) : Nat :=
  match cls with
  | 6 => if acc ≤ 0x20 then 0 else 1
  | 7 => 2
  | 13 => 3
  | 14 => 4
  | 52 | 187 => 7
  | 58 | 193 => 8
  | 135 | 140 | 150 | 160 | 165 => 9
  | 248 => 10
  | _ => 15

/-- The clockClass and clockAccuracy an instance sends as master at a level (R283). -/
def ptpSent (ql : Nat) : Nat × Nat :=
  match ql with
  | 0 => (6, 0x21)
  | 1 => (6, 0xFE)
  | 2 => (7, 0xFE)
  | 3 => (13, 0xFE)
  | 4 => (14, 0xFE)
  | 5 | 6 | 7 => (52, 0xFE)
  | 8 | 9 => (58, 0xFE)
  | _ => (248, 0xFE)

/-- The level of a present candidate (R283, R284). -/
def levelOf (s : State) (k : Nat) : Nat :=
  match k with
  | 0 | 1 =>
    let q := s.nat Ix.ptpGmQuality k
    ptpLevel (q % 256) (q / 256 % 256)
  | 2 | 4 => s.nat Ix.refFixedQl k
  | 3 =>
    match s.nat Ix.aesiCs 1 % 4 with
    | 1 => 5
    | 2 => 7
    | 0 => s.nat Ix.refFixedQl 3
    | _ => 15
  | _ =>
    let q := (candOf s 5).quality
    if q.testBit 7 then 15 else min (q % 16 + 1) 15

/-- F_h (R287), parts per 10^12. -/
def holdEst (s : State) : Int := s.int Ix.refHoldEst
/-- A window in units of 0.01 ppm, in parts per 10^12, widened while F_h is not valid (R287). -/
def windowOf (s : State) (w : Nat) : Nat :=
  (w + (if s.flag Ix.refHoldValid then 0 else s.nat Ix.refOscTol)) * 10000

/-- A monitor with hysteresis (R288): set beyond the window, cleared within its fraction. -/
def monitor (s : State) (was : Bool) (dev win : Nat) : Bool :=
  if win < dev then true else if dev * 100 ≤ win * (100 - s.nat Ix.refHyst) then false else was

/-- 165 times the least-squares slope of the last ten averages per second, newest first (R288). -/
def slope165 (avgs : List Int) : Int :=
  if avgs.length < 10 then 0
  else ((upFrom 0 10).map (fun (i : Nat) => (9 - 2 * (i : Int)) * listGet 0 i avgs)).foldl (fun a b => a + b) 0

/-- The window and drift monitors of a present candidate at a 1-second average (R288), with their alarms. -/
def refMonitors (s : State) (k : Nat) (avg : Int) : State :=
  let c := candOf s k
  let avgs := (avg :: c.avgs).take 10
  let dev := (avg - holdEst s).natAbs
  let soft := monitor s c.soft dev (windowOf s (s.nat Ix.refSoftWin))
  let hard := monitor s c.hard dev (windowOf s (s.nat Ix.refHardWin))
  let drift := monitor s c.drift (slope165 avgs).natAbs (165 * 10000 * s.nat Ix.refDriftLim)
  let s1 := setCand (s.setInt Ix.refFreq k (hold32 avg)) k { c with avgs := avgs, soft := soft, hard := hard, drift := drift }
  (s1.alarmIf (soft && !c.soft) (Al.refSoftWindow.src k)).alarmIf (drift && !c.drift) (Al.refDrift.src k)

/-- Two present candidates of equal, non-zero priority with averages (R289). -/
def sameRank (s : State) (k j : Nat) : Bool :=
  k != j && (candOf s k).present && (candOf s j).present && s.nat Ix.refPriority k == s.nat Ix.refPriority j &&
    s.nat Ix.refPriority k != 0 && !(candOf s k).avgs.isEmpty && !(candOf s j).avgs.isEmpty

/-- Candidate `k` lies farther from F_h than `j`; of two as far, the one that is not active, else the higher
number. -/
def farther (s : State) (k j : Nat) : Bool :=
  let d (x : Nat) : Nat := ((candOf s x).avgs.headD 0 - holdEst s).natAbs
  if d k = d j then (if activeRef s = some j then true else if activeRef s = some k then false else decide (j < k))
  else decide (d j < d k)

/-- The test of R289 for one candidate. -/
def refDisagrees (s : State) (k : Nat) : Bool :=
  let win := windowOf s (s.nat Ix.refHardWin)
  let diff (j : Nat) : Nat := ((candOf s k).avgs.headD 0 - (candOf s j).avgs.headD 0).natAbs
  let js := (upFrom 0 6).filter (sameRank s k)
  if js.any (fun j => decide (win < diff j) && farther s k j) then true
  else if js.all (fun j => decide (diff j * 100 ≤ win * (100 - s.nat Ix.refHyst))) then false
  else (candOf s k).disagree

/-- The test of R289 for every candidate, on the averages of this second. -/
def refRank (s : State) : State :=
  (upFrom 0 6).foldl (fun t k =>
    let now := refDisagrees s k
    (setCand t k { candOf t k with disagree := now }).alarmIf (now && !(candOf s k).disagree) (Al.refDisagree.src k)) s

/-- The reason a present candidate is disqualified for (R290), in the order of the table. -/
def refReason (s : State) (k : Nat) : Option Nat :=
  let c := candOf s k
  if s.nat Ix.qlLimit < s.nat Ix.refQl k then some 3
  else if c.hard then some 4
  else if c.disagree then some 5
  else if c.jump then some 6
  else none

/-- The present candidates' states follow their conditions (R290, R292). -/
def refJudge (s : State) (k : Nat) : State :=
  if !(candOf s k).present then s
  else
    match refReason s k with
    | some r => if refState s k = 4 then s else (setRefReason s k 4 r).alarm (Al.refDisqualified.src k) r
    | none => if refState s k = 4 then startQualify s k else s

/-- A candidate may be chosen. -/
def refChosable (s : State) (k : Nat) : Bool := refState s k == 2 || refState s k == 3

/-- The better of two candidates: lower priority value, then lower level, then the active one, then lower k
(R291). -/
def refBetter (s : State) (a b : Nat) : Bool :=
  let pa := s.nat Ix.refPriority a
  let pb := s.nat Ix.refPriority b
  let qa := s.nat Ix.refQl a
  let qb := s.nat Ix.refQl b
  if pa ≠ pb then decide (pa < pb)
  else if qa ≠ qb then decide (qa < qb)
  else if activeRef s = some a then true
  else if activeRef s = some b then false
  else decide (a < b)

/-- The pick of R291; none is holdover. -/
def refPick (s : State) : Option Nat :=
  let sel := s.nat Ix.selectedRef
  if sel < 6 ∧ refChosable s sel then some sel
  else
    ((upFrom 0 6).filter (fun k => refChosable s k && s.nat Ix.refPriority k != 0)).foldl (fun best k =>
      match best with
      | none => some k
      | some b => if refBetter s k b then some k else some b) none

/-- F_h as a rate word against the crystal, in 2^−48 (R295): with an OCXO its own frequency is allowed for. -/
def holdRate (s : State) : Int :=
  let f := holdEst s
  let o := if s.nat Ix.refHoldOsc = 0 || s.ref.oscLost then 0 else s.ref.osc
  (f + o + f * o / 1000000000000) * 2 ^ 48 / 1000000000000

/-- The limit of ρ: 500 ppm in 2^−48 (R262). -/
def rhoMax : Int := 140737488355
def clampRho (x : Int) : Int := max (-rhoMax) (min rhoMax x)
/-- Put the rate word together (R262, R266), with TIME_RATE and TIME_RATE_LIMIT: the slew term has been cut so that the rate
word stays within the clamp, where it is then held. -/
def setRho (s : State) : State :=
  let rho := clampRho (s.tim.est + s.tim.slew)
  let lim := decide (rhoMax ≤ (rho.natAbs : Int))
  let s1 := { s with tim := { s.tim with rho := rho, atLimit := lim } }
  (s1.setInt Ix.timeRate 0 (rho * 1000000000000 / 2 ^ 48)).alarmIf (lim && !s.tim.atLimit) Al.timeRateLimit

/-- REF_BUILDOUT reports what is left of b (R299). -/
def reportBuild (s : State) : State := s.setInt Ix.refBuildout 0 (hold32 (s.ref.build / 2 ^ 48))

/-- The time base in holdover follows the oscillator in use at F_h (R286, R287, R295). -/
def holdFollow (s : State) : State :=
  if inHoldover s then setRho { s with tim := { s.tim with est := holdRate s } } else s

/-- A switch to candidate `k` (R292 to R294, R296). The frequency and the slew term go on as they were held; a build-out that
is removed is what the slew term has to move the time base by. After holdover the bound of R312 holds until the frequency of
the new reference is reached, also across another switch. -/
def refSwitchTo (s : State) (k : Nat) : State :=
  let s0 := match activeRef s with
    | some a => if refState s a = 3 then setRefState s a 2 else s
    | none => s
  let hold := inHoldover s
  let ts := s.nat Ix.timeState
  let b : Int := match (candOf s k).filt with
    | some (f, _) => if carriesTime k && ts == 0 && !s.isDoor then 0 else f
    | none => 0
  let removes := carriesTime k && ts != 0
  let s1 := { setRefState s0 k 3 with
    ref := { s0.ref with
      build := b * 2 ^ 48, step := 0, stepLeft := if removes then -(b * 2 ^ 48) else 0
      switched := true, reacq := hold || s0.ref.reacq, specOver := false }
    tim := { s0.tim with aim := none, offs := [], firstDue := none, firstHeld := false, within := 0, beyond := 0 } }
  let s2 := (s1.setInt Ix.refPhaseTotal 0 0).setNat Ix.refActive 0 k
  let s3 := if carriesTime k && ts == 3 then s2.setNat Ix.timeState 0 1 else s2
  setRho ((reportBuild (s3.addHold Ix.refSwitches 0 1)).alarm Al.refSwitch k)

/-- No candidate is left: holdover (R292, R295). Before any reference was active nothing changes. -/
def refHold (s : State) : State :=
  match activeRef s with
  | none => s
  | some a =>
    let s0 := if refState s a = 3 then setRefState s a 2 else s
    let ts := s.nat Ix.timeState
    let s1 := { s0.setNat Ix.refActive 0 15 with
      ref := { s0.ref with switched := true, specOver := false, reacq := false, stepLeft := 0 }
      tim := { s0.tim with aim := none, est := holdRate s, slew := 0, within := 0, beyond := 0, offs := [], firstDue := none, firstHeld := false } }
    let s2 := if carriesTime a && (ts == 1 || ts == 2) then
        (s1.setNat Ix.timeState 0 3).alarmIf (ts == 2) Al.timeLockLost
      else s1
    setRho (s2.alarm Al.refHoldover)

/-- The choice of R291, one switch at most. -/
def refChoose (s : State) : State :=
  match refPick s with
  | none => match activeRef s with
    | some a => if refChosable s a ∧ !s.flag Ix.refRevert then s else refHold s
    | none => s
  | some k =>
    match activeRef s with
    | some a =>
      if a = k then s
      else if refChosable s a ∧ !s.flag Ix.refRevert then s
      else refSwitchTo s k
    | none => refSwitchTo s k

/-- REF_OWN_QL (R285). -/
def ownLevel (s : State) : Nat :=
  match activeRef s with
  | some a => s.nat Ix.refQl a
  | none => if inHoldover s then (if s.ref.specOver then 11 else max 2 s.ref.lastQl) else 12

/-- The writes that the choice of R291 meets at their landing boundary: SELECTED_REF, REF_PRIORITY, REF_REVERT, QL_LIMIT and
REF_FIXED_QL. Their values stand in the dictionary when the choice is made, and land with the others. -/
def refWritten (s : State) : State :=
  (s.writes.filter (fun w => decide (Ix.selectedRef ≤ w.ix) && decide (w.ix ≤ Ix.refFixedQl) && decide (w.after ≤ s.tick))).foldl
    (fun t w => t.setObj w.ix w.sub w.val) s

/-- The evaluation of R292 at a tick boundary. The monitors of R281 and the averages have acted as they came;
the qualification timers act by REF_QUALIFIED. -/
def refBoundary (s0 : State) : State :=
  let s := refWritten s0
  let s1 := (upFrom 0 6).foldl (fun t k => t.setNat Ix.refQl k (if (candOf t k).present then levelOf t k else 15)) s
  let s2 := (upFrom 0 6).foldl refJudge s1
  let s3 := refChoose s2
  let s4 := match activeRef s3 with
    | some a => { s3 with ref := { s3.ref with lastQl := s3.nat Ix.refQl a } }
    | none => s3
  s4.setNat Ix.refOwnQl 0 (ownLevel s4)

/-- F_h stays within REF_OSC_TOL of the oscillator's nominal frequency (R287). -/
def refClamp (s : State) (f : Int) : Int :=
  let tol : Int := s.nat Ix.refOscTol * 10000
  max (-tol) (min tol f)

/-- A sample of the active reference, where this second has given one, enters the history of R287, and F_h follows. -/
def refSample (s : State) (now : List (Option Int)) : State :=
  match activeRef s with
  | none => s
  | some a =>
    let c := candOf s a
    match listGet none a now with
    | none => s
    | some x =>
      let inside := decide ((x - holdEst s).natAbs ≤ windowOf s (s.nat Ix.refSoftWin))
      if !c.present || refState s a != 3 || !inside || c.drift || s.ref.switched then s
      else
        let h := (x :: s.ref.hist).take 60
        let n := min 60 (s.ref.accepted + 1)
        let f := if n < 60 then 0 else refClamp s (meanOf h)
        ({ s with ref := { s.ref with hist := h, accepted := n } }.setInt Ix.refHoldEst 0 (hold32 f)).setFlag
          Ix.refHoldValid 0 (n == 60)

/-- REF_OSC_TOL or the oscillator has changed: F_h keeps within the tolerance, and in holdover the time base follows (R287,
R295). -/
def landOscTol (s : State) : State := holdFollow (s.setInt Ix.refHoldEst 0 (refClamp s (holdEst s)))

/-- The coarse window of a candidate in parts per 10^12 (R281). -/
def coarseWin (k : Nat) : Nat := if carriesTime k then 500000000 else 1000000000

end Sys2Proof.Machine
end

