-- ==== Sys2Proof/Machine/TimeOps.lean ====
section
/-! DEFINITION. The time base: its advance, steering and steps (R261 to R267), PTP port states (R269 to R272),
triggers (R273 to R275). -/

namespace Sys2Proof.Machine

/-- A nanosecond of the time base in its unit, 2^−32 ns. -/
def nsUnit : Nat := 4294967296

/-- The exact boundary that begins tick `k`, in 2^−32 ns, rounded up (R34, R268). -/
def boundaryAt (s : State) (k : Nat) : Nat := ceilDiv (k * s.ticklen * 1000000000 * nsUnit) s.fs

/-- The tick number at an instant of the time base (R34). -/
def tickAt (s : State) (t : Nat) : Nat := t * s.fs / (1000000000 * nsUnit) / s.ticklen

/-- A TIME80 value of an instant in ns. -/
def timeVal (ns : Nat) : Val := .time (ns / 1000000000) (ns % 1000000000)
/-- The instant a TIME80 value names, in ns. -/
def Val.toNs : Val → Nat
  | .time sec ns => sec * 1000000000 + ns
  | _ => 0

/-- How far the build-out moves when the slew term has moved the time base by `m` (R294): toward 0, and only
under a time-carrying reference in SLEWING or LOCKED. -/
def buildMove (s : State) (m : Int) : Int :=
  let b := s.ref.build
  let ts := s.nat Ix.timeState
  let carries := match activeRef s with
    | some a => carriesTime a
    | none => false
  if !carries || !(ts == 1 || ts == 2) then b
  else if 0 < b ∧ m < 0 then max 0 (b + m)
  else if b < 0 ∧ 0 < m then min 0 (b + m)
  else b

/-- The slew term's slope per ns times `dt` ns, in 2^−48 (R266). -/
def slopeOver (s : State) (dt : Nat) : Nat := s.nat Ix.timeSlewSlope * 2 ^ 48 * dt / 10000000000000000
/-- The bound of the slew term in 2^−48 (R266). -/
def slewMax (s : State) : Nat := s.nat Ix.timeSlewPpm * 2 ^ 48 / 1000000

/-- The slew term after `dt` ns more (R266): it ramps up, holds, and ramps down at TIME_SLEW_SLOPE so that it reaches 0 with
what it has to move; its magnitude never exceeds TIME_SLEW_PPM, and it is cut where the rate word would leave its clamp. -/
def slewTerm (s : State) (dt : Nat) : Int :=
  let x := s.ref.stepLeft
  let sgn : Int := if x < 0 then -1 else 1
  let v := sgn * s.tim.slew
  let dv : Int := slopeOver s dt
  let stop : Int := v * v * 10000000000000000 / (2 * (s.nat Ix.timeSlewSlope : Int) * 2 ^ 48)
  let next := if v < 0 then v + dv else if (x.natAbs : Int) ≤ stop ∨ x = 0 then max 0 (v - dv) else v + dv
  let top : Int := slewMax s
  sgn * min (rhoMax - sgn * s.tim.est) (max (-top) (min top next))

/-- What is left to move is less than the slew term moves in one step of its ramp: it has reached 0. -/
def slewDone (s : State) (dt : Nat) : Bool :=
  let dv := slopeOver s dt
  decide (s.tim.slew.natAbs ≤ dv) && decide (s.ref.stepLeft.natAbs ≤ dv * dt)

/-- The frequency part of ρ after `dt` ns more: while R312 bounds it, it moves at CLK_REACQ_SLOPE toward the frequency of the
new reference, from the first measurement on. -/
def reacqStep (s : State) (dt : Nat) : State :=
  match s.tim.aim with
  | none => s
  | some f =>
    let r : Int := s.nat Ix.clkReacqSlope * 2 ^ 48 * dt / 100000000000000000
    let e := max (s.tim.est - r) (min (s.tim.est + r) f)
    { s with tim := { s.tim with est := e, aim := if e = f then none else some f }
             ref := { s.ref with reacq := e != f } }

/-- Time passes: `n` fabric cycles (R261, R262), over which the slew term moves the time base, and with it what is left to
move and the build-out (R266, R294); then the rate word takes its next value. -/
def timePass (s : State) (n : Nat) : State :=
  let m := s.tim.slew * n
  let s1 := { s with
    clk := { s.clk with sysCounter := s.clk.sysCounter + n }
    tim := { s.tim with t := s.tim.t + (n * (2 ^ 48 + s.tim.rho) / 2 ^ 16).toNat, moved := s.tim.moved + m }
    ref := { s.ref with build := buildMove s m, stepLeft := s.ref.stepLeft - m } }
  let s2 := if s1.ref.build = s.ref.build then s1 else reportBuild s1
  if s2.tim.slew = 0 ∧ s2.ref.stepLeft = 0 ∧ s2.tim.aim.isNone then s2
  else
    let s3 := reacqStep s2 n
    setRho (if slewDone s3 n then { s3 with tim := { s3.tim with slew := 0 }, ref := { s3.ref with stepLeft := 0 } }
      else { s3 with tim := { s3.tim with slew := slewTerm s3 n } })

/-- What the slew term has to move the time base by under the active reference `k`, whose offset was last measured as `x` ns
(R266, R293, R294, R297): to the lock point, or to the reference itself where the build-out is being removed. In FREE nothing
is slewed toward a reference whose time the first step is to take. -/
def aimSlew (s : State) (k : Nat) (x : Int) : State :=
  let ts := s.nat Ix.timeState
  if carriesTime k && ts == 0 && !s.isDoor && !s.tim.stepped then s
  else
    let lock := if carriesTime k && ts != 0 then s.ref.step else s.ref.build + s.ref.step
    { s with ref := { s.ref with stepLeft := -(reduceBy s k (2 ^ 48) (x * 2 ^ 48 - lock)) } }

/-- The steering that a measurement asks for (R266, R312): the slew term is aimed, and the frequency follows the estimate, at
once or within the bound of re-acquisition. -/
def timeSteer (s : State) (k : Nat) (x est : Int) : State :=
  let s1 := aimSlew s k x
  if s1.ref.reacq then { s1 with tim := { s1.tim with aim := some est } }
  else setRho { s1 with tim := { s1.tim with est := est } }

/-- Fabric cycles from now to the boundary that begins tick `k` (R34, R268). -/
def cyclesTo (s : State) (k : Nat) : Nat :=
  let d := boundaryAt s k - s.tim.t
  ceilDiv (d * 65536) (2 ^ 48 + s.tim.rho).toNat

/-! Triggers. -/

def trigOf (s : State) (t : Nat) : Trig := mapGet (fun _ => Trig.reset) t s.tim.trigs
def setTrig (s : State) (t : Nat) (g : Trig) : State :=
  { s with tim := { s.tim with trigs := mapSet (fun _ => Trig.reset) t g s.tim.trigs } }

/-- The settings the dictionary holds. -/
def trigDict (s : State) (t : Nat) : TrigSet :=
  { mode := s.nat Ix.trigMode t, time := (s.obj Ix.trigTime t).toNs, tick := s.nat Ix.trigTick t
    period := s.nat Ix.trigPeriod t, offset := s.nat Ix.trigOffset t, width := s.nat Ix.trigWidth t
    cfg := s.nat Ix.trigCfg t }

/-- A trigger object has landed (R275). -/
def landTrig (s : State) (t ix : Nat) : State :=
  { s with tim := { s.tim with touched := s.tim.touched ++ [(t, ix)] } }

/-- 28,224,000 is a multiple of every house rate: in units of 1/28,224,000 ns every tick boundary and every scheduled edge is
a whole number. -/
def edgeUnit : Nat := 28224000
/-- An instant times fs, in ns, in those units. -/
def inEdges (s : State) (x : Nat) : Nat := x * (edgeUnit / s.fs)

/-- A trigger output rests at its inactive level (R273). -/
def trigRests (s : State) (t : Nat) : State := s.emit (.trigRest t ((s.nat Ix.trigCfg t).testBit 0))

/-- The landings of a boundary on one trigger take effect together (R275): edges scheduled less than 2 µs after
the exact boundary follow the earlier settings. An output that turns OFF, or whose inactive level changes, rests at that level
unless a pulse is running. -/
def trigLand (s0 : State) (t : Nat) : State :=
  let g := trigOf s0 t
  let ixs := (s0.tim.touched.filter (fun p => p.1 == t)).map (fun p => p.2)
  let turns := ixs.contains Ix.trigMode && s0.nat Ix.trigMode t == 0 && g.cur.mode != 0
  let flips := (s0.nat Ix.trigCfg t).testBit 0 != g.cur.cfg.testBit 0
  let s := if g.pulse.isNone && (turns || flips) then trigRests s0 t else s0
  let since := inEdges s (s.tick * s.ticklen * 1000000000) + 2000 * edgeUnit
  let st := s.nat Ix.trigState t
  let new := trigDict s t
  let g1 : Trig := { g with cur := new, old := g.cur, since := since, oldArmed := st == 1 }
  let arms := ixs.contains Ix.trigMode || ixs.contains Ix.trigTime || g.cur.mode != 1
  let st1 :=
    if new.mode = 0 then 0
    else if new.mode = 1 then (if arms then (if new.time * edgeUnit < since then 3 else 1) else st)
    else if st = 5 ∧ !ixs.contains Ix.trigTick then 5
    else 4
  (setTrig (s.setNat Ix.trigState t st1) t g1).alarmIf (arms && new.mode == 1 && st1 == 3) (Al.trigMissed.src (0x20 + t))

/-- Every trigger touched at this boundary (R275). -/
def trigSettle (s : State) : State :=
  let s1 := ((s.tim.touched.map (fun p => p.1)).eraseDups).foldl trigLand s
  { s1 with tim := { s1.tim with touched := [] } }

/-- A change of rate or TICKLEN suspends every TICKS trigger (R275). -/
def trigSuspend (s : State) : State :=
  (upFrom 0 8).foldl (fun s t =>
    let g := trigOf s t
    let s1 := setTrig s t { g with old := if g.old.mode = 2 then TrigSet.reset else g.old }
    if g.cur.mode = 2 then s1.setNat Ix.trigState t 5 else s1) s

/-- A step of the time base carries it past armed one-shots (R275). -/
def trigStepped (s : State) (now : Nat) : State :=
  (upFrom 0 8).foldl (fun s t =>
    let g := trigOf s t
    let s1 := if g.oldArmed ∧ g.old.mode = 1 ∧ g.old.time < now / nsUnit then setTrig s t { g with oldArmed := false } else s
    if s.nat Ix.trigState t = 1 ∧ g.cur.time * nsUnit < now then
      (s1.setNat Ix.trigState t 3).alarm (Al.trigMissed.src (0x20 + t))
    else s1) s

/-- The edge settings schedule in the tick that the time base stands in: the instant times fs, in ns, with the tick it
belongs to for TICKS (R273). A step of the time base moves that tick before the sequencer follows, and the edges it has passed
over do not fire (2 ns allow for the cycle in which a boundary falls). While the sequencer stands stopped no boundary bounds a
one-shot: its edge is taken as the command brings it. -/
def trigEdgeOf (s : State) (g : TrigSet) (last : Option Nat) : Option (Nat × Option Nat) :=
  let l := s.ticklen * 1000000000
  let here := tickAt s s.tim.t
  let ahead (x : Nat) : Bool := decide (s.tim.t * s.fs ≤ (x + 2 * s.fs) * nsUnit)
  if g.mode = 1 then
    let x := g.time * s.fs
    if ahead x ∧ (s.clk.seq = .stopped ∨ (here * l ≤ x ∧ x < (here + 1) * l)) then some (x, none) else none
  else if g.mode = 2 then
    let back := g.offset * s.fs / l
    let k := here - back
    let fresh : Bool := match last with
      | some m => decide (m < k)
      | none => true
    let x := k * l + g.offset * s.fs
    if back ≤ here ∧ ahead x ∧ g.tick ≤ k ∧ (k - g.tick) % g.period = 0 ∧ fresh = true then some (x, some k) else none
  else none

/-- A scheduled instant rounded to 0.25 ns, halves up (R273). -/
def placeQuarter (s : State) (x : Nat) : Nat := (8 * x + s.fs) / (2 * s.fs)

/-- The edge that comes next in this tick, and whether the earlier settings give it (R275). -/
def trigNext (s : State) (t : Nat) : Option (TrigSet × Nat × Option Nat × Bool) :=
  let g := trigOf s t
  let old := if g.old.mode = 1 ∧ !g.oldArmed then none else trigEdgeOf s g.old g.lastTick
  let st := s.nat Ix.trigState t
  let new := if st = 1 ∨ st = 4 then trigEdgeOf s g.cur g.lastTick else none
  match old.filter (fun e => decide (inEdges s e.1 < g.since)) with
  | some (x, k) => some (g.old, x, k, true)
  | none => (new.filter (fun e => decide (g.since ≤ inEdges s e.1))).map (fun e => (g.cur, e.1, e.2, false))

/-- An edge fires (R273 to R275). -/
def trigFire (s : State) (t : Nat) (c : TrigSet) (x : Nat) (k : Option Nat) (old : Bool) : State :=
  let g := trigOf s t
  let q := placeQuarter s x
  let full := q + 4 * c.width
  let stop := match k with
    | some _ => min full (placeQuarter s (x + c.period * s.ticklen * 1000000000) - 40)
    | none => full
  let driven := !c.cfg.testBit 1 || s.isDoor
  let g1 : Trig := { g with lastTick := (match k with
                                          | some n => some n
                                          | none => g.lastTick)
                            oldArmed := g.oldArmed && !(old && k.isNone)
                            pulse := some stop, driven := driven, pcfg := c.cfg }
  let st := s.nat Ix.trigState t
  let s1 := setTrig s t g1
  let s2 := if k.isNone && st == 1 && (!old || g.cur.time == c.time) then s1.setNat Ix.trigState t 2 else s1
  let s3 := (s2.setObj Ix.trigLast t (timeVal (x / s.fs))).addHold Ix.trigCount t 1
  if driven then s3.emit (.trigger t true (!c.cfg.testBit 0) q (!c.cfg.testBit 2)) else s3

/-! Steps. -/

/-- The time base is set to `new` (R265, R267): phases measured against it move with it, and one-shots it
passes are missed. -/
def timeJump (s : State) (new : Nat) : State :=
  let d : Int := ((new : Int) - (s.tim.t : Int)) / nsUnit
  let q : Int := ((new : Int) - (s.tim.t : Int)) * 4 / nsUnit
  let move (c : Cand) : Cand := { c with
    phases := c.phases.map (fun p => (p.1, p.2 + d))
    filt := c.filt.map (fun f => (f.1 + d, f.2))
    last := c.last.map (fun f => (f.1 + d, f.2))
    fresh := c.fresh.map (fun x => x + d) }
  let s1 := { s with
    tim := { s.tim with
      t := new, offs := [], firstDue := none, firstHeld := false, within := 0, beyond := 0, lastOff := s.tim.lastOff + d
      capts := s.tim.capts.map (fun (p : Nat × Capt) => (p.1, { stamp := p.2.stamp.map (· + q), drop := p.2.drop.map (· + q) })) }
    ref := { s.ref with cands := s.ref.cands.map (fun (p : Nat × Cand) => (p.1, move p.2)) }
    syn := { s.syn with ramps := s.syn.ramps.map (fun (p : Nat × Ramp) => (p.1, { p.2 with since := p.2.since + ((new : Int) - (s.tim.t : Int)) })) } }
  let s2 := match activeRef s1 with
    | some k => if k = s1.tim.lastRef then aimSlew s1 k s1.tim.lastOff else s1
    | none => s1
  if s.tim.t < new then trigStepped s2 new else s2

/-- The instant a measured offset says it is: the reference's time (R264). -/
def refTime (s : State) (off : Int) : Nat := ((s.tim.t : Int) - off * nsUnit).toNat

/-- The offset from the reference that is active now, of a kind that carries time of day, as it stands now: what it last
measured and the time base's motion since (R264, R267). Where there is none it is the offset that the time base last followed
(DESIGN CHOICE, assumption 146). -/
def offsetNow (s : State) : Int :=
  match activeRef s with
  | some k =>
    match (candOf s k).last with
    | some (x, _, m) => if carriesTime k then x + (s.tim.moved - m) / 2 ^ 48 else s.tim.lastOff
    | none => s.tim.lastOff
  | none => s.tim.lastOff

/-- A commit stands between its final check and its landing (R172, R265). -/
def commitBetween (s : State) : Bool := s.shut.pend.any (fun p => p.checked)

/-- The first step (R265): the time base is set to the reference time and ρ takes the digital PLL's estimate. -/
def takeFirst (s : State) (off : Int) : State :=
  let s1 := timeJump s (refTime s off)
  let s2 := { s1 with tim := { s1.tim with stepped := true, slew := 0 }, ref := { s1.ref with build := 0, stepLeft := 0 } }
  setRho (reportBuild ((s2.setNat Ix.timeState 0 1).setInt Ix.timeOffset 0 0))

/-! PTP. -/

def ptpOf (s : State) (i : Nat) : PtpInst := mapGet (fun _ => PtpInst.reset) i s.tim.ptp
def setPtp (s : State) (i : Nat) (p : PtpInst) : State :=
  { s with tim := { s.tim with ptp := mapSet (fun _ => PtpInst.reset) i p s.tim.ptp } }

/-- The clock identity of an instance (R270). -/
def ptpIdentity (s : State) (i : Nat) : Nat :=
  let mac := s.nat Ix.netPortMac (2 * i)
  mac / 2 ^ 24 * 2 ^ 40 + 0xFFFE * 2 ^ 24 + mac % 2 ^ 24

/-- The unit's own data set (R270, R283). -/
def ptpOwn (s : State) (i : Nat) : PtpData :=
  let (cls, acc) := ptpSent (s.nat Ix.refOwnQl)
  let pr := s.nat Ix.ptpPriority i
  let me := ptpIdentity s i
  { priority1 := pr % 256, clockClass := cls, accuracy := acc, variance := Config.ptpVariance % 65536
    priority2 := pr / 256, gm := me, steps := 0, sender := me }

/-- Lexicographic order of two lists of one length. -/
def lexLt : List Nat → List Nat → Bool
  | a :: as, b :: bs => if a = b then lexLt as bs else decide (a < b)
  | _, _ => false

/-- One data set is better than another: the order of IEEE 1588-2019. -/
def ptpBetter (a b : PtpData) : Bool :=
  let key (d : PtpData) : List Nat := [d.priority1, d.clockClass, d.accuracy, d.variance, d.priority2, d.gm, d.steps, d.sender]
  lexLt (key a) (key b)

/-- The slave leg the best master clock algorithm gives (R270, R271): 0 or 1, or 2 for none. -/
def ptpSlave (s : State) (i : Nat) (p : PtpInst) : Nat :=
  let role := s.nat Ix.ptpRole i
  let own := ptpOwn s i
  let best : Option (Nat × PtpData) := match p.legA, p.legB with
    | some a, some b => if ptpBetter b a || (p.slave == 1 && !ptpBetter a b) then some (1, b) else some (0, a)
    | some a, none => some (0, a)
    | none, some b => some (1, b)
    | none, none => none
  match best with
  | none => 2
  | some (l, d) => if role = 1 ∨ (role = 2 ∧ ptpBetter d own) then l else 2

/-- The port state of a leg, as IEEE 1588-2019 numbers it; 0 where no port runs (R271). -/
def ptpLegState (s : State) (i : Nat) (p : PtpInst) (slave leg : Nat) : Nat :=
  let role := s.nat Ix.ptpRole i
  let data (l : Nat) : Option PtpData := if l = 0 then p.legA else p.legB
  if role = 0 ∨ s.boot.quiet ∨ !linkUp s (2 * i + leg) then 0
  else if role = 3 then 6
  else if slave = leg then 9
  else if slave = 2 then (if role = 2 then 6 else 4)
  else if (data leg).map (fun d => d.gm) = (data slave).map (fun d => d.gm) then 7
  else if role = 2 then 6
  else 4

/-- The port states, the grandmaster and the slave leg are decided afresh (R270 to R272). The detail of PTP_GM_CHANGE is the
slave leg, or the one that was; where there is neither the instance is its own grandmaster, under the address of leg 1
(DESIGN CHOICE, assumption 147). -/
def ptpDecide (s : State) (i : Nat) (p0 : PtpInst) : State :=
  let gate (l : Nat) (d : Option PtpData) : Option PtpData :=
    if s.nat Ix.ptpRole i = 0 ∨ s.boot.quiet ∨ !linkUp s (2 * i + l) then none else d
  let p : PtpInst := { p0 with legA := gate 0 p0.legA, legB := gate 1 p0.legB }
  let slave := ptpSlave s i p
  let moved := p.slave != slave && p.slave != 2 && slave != 2
  let bias := if !moved then p.bias else if slave = 1 then p.bias - p.diff else p.bias + p.diff
  let valid := p.valid && slave != 2
  let p1 : PtpInst := { p with slave := slave, bias := bias, valid := valid }
  let data := if slave = 0 then p.legA else if slave = 1 then p.legB
    else if 2 ≤ s.nat Ix.ptpRole i ∧ !s.boot.quiet then some (ptpOwn s i) else none
  let gm := (data.map (fun d => d.gm)).getD 0
  let quality := (data.map (fun d => d.clockClass + 256 * d.accuracy + 65536 * d.variance)).getD 0
  let code := ptpLegState s i p slave 0 + 16 * ptpLegState s i p slave 1 + (if slave = 1 then 256 else 0) +
    (if valid then 512 else 0)
  let s1 := ((setPtp s i p1).setNat Ix.ptpState i code).setNat Ix.ptpGmQuality i quality
  let s2 := (s1.setNat Ix.ptpGmId i gm).alarmIf (gm != s.nat Ix.ptpGmId i) (Al.ptpGmChange.src (0x10 + i))
    (if slave != 2 then slave + 1 else if p.slave != 2 then p.slave + 1 else 1)
  let s3 := s2.alarmIf moved (Al.ptpLegChange.src (0x10 + i)) (slave + 1)
  if p0.valid && !valid then refLost s3 i else s3

/-- The unit's own level has changed: the quality that an instance which is its own grandmaster sends, and its roles, follow
(R270, R283, R285). -/
def ptpQuality (s : State) : State := [0, 1].foldl (fun t i => ptpDecide t i (ptpOf t i)) s

/-- The data set an instance announces as master: its own; where the other instance is slave, the unit is a boundary clock
between the pairs and passes that grandmaster on, one step further, under the quality of the unit's own level (R270; DEDUCED,
assumption 148). -/
def ptpAnnounced (s : State) (i : Nat) : PtpData :=
  let own := ptpOwn s i
  let p := ptpOf s (1 - i)
  match (if p.slave = 0 then p.legA else if p.slave = 1 then p.legB else none) with
  | some d => { own with priority1 := d.priority1, variance := d.variance, priority2 := d.priority2, gm := d.gm, steps := d.steps + 1 }
  | none => own

/-- The messages that an instance sends on a leg in a port state (R269): Sync and Announce as master, Delay_Req where it
measures end to end, Pdelay_Req wherever it runs peer to peer; with the place of their interval in PTP_INTERVALS. -/
def ptpKinds (cfg state : Nat) : List (Nat × Nat) :=
  (if state = 6 then [(0, 0), (11, 1)] else []) ++
    (if cfg.testBit 1 then (if state = 0 then [] else [(2, 2)]) else if state = 9 ∨ state = 7 then [(1, 2)] else [])

/-- A log interval in fabric cycles. -/
def ptpCycles (log : Int) : Nat := if 0 ≤ log then 1000000000 * 2 ^ log.toNat else 1000000000 / 2 ^ (-log).toNat

/-- A message goes out: an Announce with the data set sent as master and the synchronisation metadata; a two-step Sync is
followed by its Follow_Up (R269, R270). -/
def ptpSend (s : State) (i leg kind : Nat) (log : Int) : State :=
  let cfg := s.nat Ix.ptpCfg i
  let msg (k : Nat) : PtpMsg :=
    { kind := k, domain := s.nat Ix.ptpDomain i, cfg := cfg, interval := log, sender := ptpIdentity s i
      quarter := s.tim.t * 4 / nsUnit, data := if k = 11 then some (ptpAnnounced s i) else none
      tlv := if k = 11 then (s.obj Ix.ptpSmTx i).toBytes else [] }
  let s1 := sendCtl s (2 * i + leg) (.ptp (2 * i + leg) (msg kind))
  if kind = 0 ∧ !cfg.testBit 2 then sendCtl s1 (2 * i + leg) (.ptp (2 * i + leg) (msg 8)) else s1

/-- One kind of message of a leg, sent where its interval has passed. -/
def ptpDue (i leg : Nat) (s : State) (e : Nat × Nat) : State :=
  let p := ptpOf s i
  let log := signedOf 8 (s.nat Ix.ptpIntervals i / 2 ^ (8 * e.2) % 256)
  let key := 16 * leg + e.1
  let now := s.clk.sysCounter
  let due : Bool := match mapFind key p.next with
    | some t => decide (t ≤ now)
    | none => true
  if due then ptpSend (setPtp s i { p with next := mapPut key (now + ptpCycles log) p.next }) i leg e.1 log else s

/-- The PTP ports send at a tick boundary what their intervals have made due (R269); a port that no longer sends a kind forgets
when it was due. In quiet mode nothing is sent (R248). -/
def ptpTurn (s : State) : State :=
  if s.boot.quiet then s
  else
    [(0, 0), (0, 1), (1, 0), (1, 1)].foldl (fun s il =>
      let p := ptpOf s il.1
      let ks := ptpKinds (s.nat Ix.ptpCfg il.1) (ptpLegState s il.1 p p.slave il.2)
      let keep := p.next.filter (fun e => e.1 / 16 != il.2 || ks.any (fun k => k.1 == e.1 % 16))
      ks.foldl (ptpDue il.1 il.2) (if keep = p.next then s else setPtp s il.1 { p with next := keep })) s

/-- A leg of an instance hears no master any more (R271, R272). -/
def ptpLegLost (s : State) (i leg : Nat) : State :=
  let p := ptpOf s i
  ptpDecide s i (if leg = 0 then { p with legA := none } else { p with legB := none })

/-- The link of a port goes down (R257, R271): what waits at the port is discarded, and its PTP port stops. -/
def downLink (s : State) (p : Nat) : State :=
  if !linkUp s p then s
  else
    let q : List ReadyPacket := mapGet (fun _ => []) p s.net.ready
    let s1 := { s.setNat Ix.netLink p 0 with net := { s.net with ready := mapSet (fun _ => []) p [] s.net.ready } }
    let s2 := q.foldl (fun s k => (s.addHold Ix.netPortCounts (8 * p + 7) 1).alarm Al.netTxDrop (streamDetail k.stream k.leg)) s1
    let fwd : List FwdFrame := mapGet (fun _ => []) p s.net.fwd
    let s3 := fwd.foldl (fun s _ => (s.addHold Ix.netPortCounts (8 * (5 - p) + 6) 1).alarm (Al.netFwdDrop.src (5 - p)))
      { s2 with net := { s2.net with fwd := mapSet (fun _ => []) p [] s2.net.fwd } }
    ptpDecide (s3.alarm (Al.netLinkDown.src p)) (p / 2) (ptpOf s3 (p / 2))

/-- NET_PORT_SPEED has landed (R235): the port's PCS starts again at the new speed, or is off, so its link is down:
DESIGN CHOICE (log 120). -/
def landSpeed (s : State) (p : Nat) (was : Nat) : State := if s.nat Ix.netPortSpeed p = was then s else downLink s p

end Sys2Proof.Machine
end

