-- ==== Sys2Proof/Machine/SynOps.lean ====
section
/-! DEFINITION. Clock synthesis: system PLLs (R300 to R303), media synthesizers, band memory and the fence
(R304 to R310), ramp profiles (R313, R314), SYNC (R315 to R317). -/

namespace Sys2Proof.Machine

/-- SYSPLL_STATE: 0 off, 1 locking, 2 hot leaf, 3 active, 4 FAILED (R319). -/
def pllState (s : State) (p : Nat) : Nat := s.nat Ix.syspllState p

/-- RSV_LEAVES [5] follows, and SYSPLL_NO_LEAF while no hot leaf is locked (R302). -/
def noLeafCheck (s : State) : State :=
  (syncHotLeaf s).alarmIf (pllState s 0 != 2 && pllState s 1 != 2) Al.syspllNoLeaf

/-- The fabric moves to system PLL `p` (R301, R302). At most one cycle is stretched, by up to 1 ns: the time base
measures the stretch to 0.25 ns and adds it. How long it is, the spec leaves open: a free value. -/
def pllSwitch (s : State) (p : Nat) : State :=
  let (n, s1) := s.draw
  let stretch := n.toNat % 5 * 1073741824
  let s2 := { s1 with tim := { s1.tim with t := s1.tim.t + stretch } }
  (syncHotLeaf ((s2.setNat Ix.syspllActive 0 p).setNat Ix.syspllState p 3)).alarm (Al.syspllSwitch.src p)

/-- A loss of lock is counted; the third within 24 hours marks the PLL FAILED (R302). -/
def pllLost (s : State) (p : Nat) : State × Bool :=
  let now := s.clk.sysCounter
  let ts := (mapGet (fun _ => []) p s.syn.losses).filter (fun t => decide (now ≤ t + day)) ++ [now]
  let s1 := { s with syn := { s.syn with losses := mapSet (fun _ => []) p ts s.syn.losses } }
  ((s1.addHold Ix.syspllLosses p 1).alarm (Al.syspllLockLost.src p), decide (3 ≤ ts.length))

/-- SYSPLL_SELECT has landed (R302): it acts at this boundary where the PLL is still the hot leaf. -/
def landPllSelect (s : State) : State :=
  let p := s.nat Ix.syspllSelect
  if pllState s p = 2 then pllSwitch (s.setNat Ix.syspllState (1 - p) 2) p else s

/-- An instant of the tick just begun, in 2^−32 ns (R313). -/
def tickInstant (s : State) : Nat := boundaryAt s s.tick

/-- How long a segment moves: |target − from| at its slope (R313). -/
def segMove (start : Int) (seg : Int × Nat × Nat) : Nat :=
  (seg.1 - start).natAbs * 1000000000 * nsUnit / (1000 * max 1 seg.2.1)
/-- When a segment's hold ends (R313). -/
def segEnd (r : Ramp) (seg : Int × Nat × Nat) : Int := r.since + segMove r.start seg + seg.2.2 * 100000000 * nsUnit

/-- The offset a running profile has reached at an instant, in 0.001 ppm (R313). -/
def rampAt (r : Ramp) (t : Nat) : Int :=
  match r.segs with
  | [] => r.start
  | seg :: _ =>
    let d := seg.1 - r.start
    let m : Int := max 0 ((t : Int) - r.since) * 1000 * max 1 (seg.2.1 : Int) / (1000000000 * nsUnit)
    if (d.natAbs : Int) ≤ m then seg.1 else if 0 ≤ d then r.start + m else r.start - m

/-- RAMP_STATE (R319). -/
def setRampState (s : State) (i code index : Nat) : State := s.setNat Ix.rampState i (code + 16 * (index % 16))

/-- Start a profile on MEDSYN2 + i at this boundary, from the offset in force (R313, R314). -/
def rampBegin (s : State) (i : Nat) (segs : List (Int × Nat × Nat)) : State :=
  let start := match mapFind i s.syn.ramps with
    | some r => rampAt r (tickInstant s)
    | none => s.int Ix.medsynOffsetNow (i + 2)
  setRampState { s with syn := { s.syn with
    ramps := mapPut i { segs := segs, index := 0, start := start, since := tickInstant s } s.syn.ramps } } i 1 0

/-- The segments written for MEDSYN2 + i (R313, R319). -/
def rampSegs (s : State) (i : Nat) : List (Int × Nat × Nat) :=
  (upFrom 0 (s.nat Ix.rampLen i)).map (fun j =>
    let v := s.nat Ix.rampSeg (16 * i + j)
    (signedOf 32 (v % 2 ^ 32), v / 2 ^ 32 % 65536, v / 2 ^ 48))

/-- RAMP_START is written (R313): the profile is to run, and the next boundary, with what lands there, says from which tick. -/
def landRampStart (s : State) (i : Nat) : State :=
  if s.nat Ix.rampStart i ≠ 1 then s
  else
    let s1 := s.setNat Ix.rampStart i 0
    { s1 with syn := { s1.syn with due := mapPut i none s1.syn.due } }

/-- MEDSYN_OFFSET has landed: a profile of one segment (R314). -/
def landMedsynOffset (s : State) (syn : Nat) : State :=
  if syn < 2 then s else rampBegin s (syn - 2) [(s.int Ix.medsynOffset syn, s.nat Ix.medsynSlope syn, 0)]

/-- Stop the profile of MEDSYN2 + i, with its offset as it stands (R314). -/
def rampStop (s : State) (i : Nat) : State :=
  match mapFind i s.syn.ramps with
  | none => s
  | some r => setRampState ({ s with syn := { s.syn with ramps := mapErase i s.syn.ramps } }.setInt
      Ix.medsynOffsetNow (i + 2) (rampAt r s.tim.t)) i 2 r.index

/-- The landings of a boundary are made: a profile to be started runs from RAMP_START_TICK, or from this boundary where that
tick is 0 or has passed. Profiles whose start tick has come begin, and MEDSYN_OFFSET_NOW follows (R313). -/
def rampBoundary (s0 : State) : State :=
  let s := { s0 with syn := { s0.syn with
    due := s0.syn.due.map (fun (p : Nat × Option Nat) => (p.1, some (p.2.getD (s0.nat Ix.rampStartTick p.1)))) } }
  let s1 := (s.syn.due.filter (fun (p : Nat × Option Nat) => decide (p.2.getD 0 ≤ s.tick))).foldl (fun s p =>
    rampBegin { s with syn := { s.syn with due := mapErase p.1 s.syn.due } } p.1 (rampSegs s p.1)) s
  s1.syn.ramps.foldl (fun s (p : Nat × Ramp) => s.setInt Ix.medsynOffsetNow (p.1 + 2) (rampAt p.2 (tickInstant s))) s1

/-- The divider of synthesizer `s` in 2^−48 (R304, R305). -/
def synDivider (s : State) (syn : Nat) : Nat :=
  let o := s.int Ix.medsynOffsetNow syn
  let (on, od) : Int × Int := if o = -999001 then (1000, 1001) else (1000000000 + o, 1000000000)
  let (n, d) : Int × Int := match s.nat Ix.medsynFamily syn with
    | 0 => (12582912, 100000)
    | 1 => (115605504, 1000000)
    | _ => (0, 1)
  (n * (2 ^ 48 + s.tim.rho) * on / (d * od)).toNat

/-- Where the house frame divider's period starts against the tick boundary (R306): a free value, within 2 ns of it while
MEDSYN0 is locked (log 124). On the NCO, which follows the same frequency on a 0.25 ns grid, the divider keeps its phase to
within that grid (R308); while MEDSYN0 is off nothing holds it. -/
def framePhase (s : State) : Int × State :=
  let (n, s1) := s.draw
  (match s.nat Ix.medsynState 0 with
    | 3 => n % 17179869185 - 8589934592
    | 0 => n
    | _ => s.syn.phase + (n % 2147483649 - 1073741824), s1)

/-- N_0 as R306 trims it: over the tick that begins, MEDSYN0 makes up for the difference found at its boundary (log 124). -/
def trimDivider (s : State) (n : Nat) : Nat :=
  let tick : Int := (boundaryAt s (s.tick + 1) - boundaryAt s s.tick : Nat)
  (n * (tick + s.syn.phase) / max 1 tick).toNat

/-- Every divider is set for the family and the offset in force (R305), and that of MEDSYN0 is trimmed (R306). -/
def synDivide (s : State) : State :=
  { s with syn := { s.syn with div := trimDivider s (synDivider s 0) :: (upFrom 1 3).map (synDivider s) } }

/-- A tick boundary passes: the house frame divider is compared with it (R306). MEDSYN0 has relocked once it is locked and its
house dividers are aligned (R311). The dividers are set when the landings of the boundary are made. -/
def synBoundary (s : State) : State :=
  let (d, s1) := framePhase s
  let there : Bool := s.nat Ix.medsynState 0 == 3 && decide ((d.natAbs : Int) ≤ 8589934592)
  { s1 with syn := { s1.syn with phase := d, relock := s1.syn.relock && !there }, clk := { s1.clk with synDue := true } }

/-- The landings of a boundary are made: ramp profiles and dividers follow (R305, R313). -/
def synSettle (s : State) : State :=
  if s.clk.synDue then synDivide (rampBoundary { s with clk := { s.clk with synDue := false } }) else s

/-- The fence has dropped edges (R310): each is counted and raises MEDSYN_FENCE. -/
def fenceDrops (s : State) (syn n : Nat) : State :=
  iterate (fun t => t.alarm (Al.medsynFence.src (0x10 + syn))) n (s.addHold Ix.medsynFenceDrops syn n)

/-- The die temperature in °C + 64, as a band slot holds it (R309, R319). -/
def dieCode (s : State) : Nat := (s.int Ix.secDieTemp / 10 + 64).toNat

/-- A band slot serves the family a synthesizer is sent to (R309). Offsets stay within ±1 % of the family, so the
±1.5 % of a slot always holds. -/
def slotServes (s : State) (syn j : Nat) : Bool :=
  let v := s.nat Ix.medsynBandmem (8 * syn + j)
  v.testBit 13 && v / 4096 % 2 == s.nat Ix.medsynFamily syn &&
    decide (((v / 65536 % 256 : Nat) - (dieCode s : Int)).natAbs ≤ 40)

/-- Slots of a synthesizer, least recently used first. -/
def slotOrder (s : State) (syn : Nat) : List Nat := mapGet (fun _ => upFrom 0 8) syn s.syn.slots
/-- A slot has been used. -/
def useSlot (s : State) (syn j : Nat) : State :=
  { s with syn := { s.syn with
    slots := mapPut syn ((slotOrder s syn).filter (fun k => k != j) ++ [j]) s.syn.slots } }

/-- A full search stores its result in the slot used least recently (R309). -/
def storeBand (s : State) (syn band : Nat) : State :=
  let j := (slotOrder s syn).headD 0
  useSlot (s.setNat Ix.medsynBandmem (8 * syn + j) (band % 4096 + 4096 * (s.nat Ix.medsynFamily syn % 2) + 8192 + 65536 * (dieCode s % 256)))
    syn j

/-- A synthesizer is sent to the family its object names: a hop, or a full search (R307, R309). -/
def retune (s : State) (syn : Nat) : State :=
  if s.nat Ix.medsynFamily syn = 2 then s.setNat Ix.medsynState syn 0
  else
    match (upFrom 0 8).find? (slotServes s syn) with
    | some j => useSlot (s.setNat Ix.medsynState syn 2) syn j
    | none => s.setNat Ix.medsynState syn 1

/-- MEDSYN_FAMILY has landed (R307, R314). -/
def landMedsynFamily (old s : State) (syn : Nat) : State :=
  if syn < 2 ∨ old.nat Ix.medsynFamily syn = s.nat Ix.medsynFamily syn then s
  else retune (rampStop s (syn - 2)) syn

/-- The family of the house rate (R305). -/
def familyOf (s : State) : Nat := if s.nat Ix.houseRate % 2 = 0 then 1 else 0

/-- MEDSYN0 and MEDSYN1 follow a change of family of the house rate (R311): MEDSYN0 is to lock and to be aligned again, and
where its house frame divider then stands is a free value. A change of rate class within the family needs neither. -/
def houseFamily (s0 : State) : State :=
  if s0.nat Ix.medsynFamily 0 = familyOf s0 then s0
  else
    let (n, s1) := s0.draw
    let s := { s1 with syn := { s1.syn with relock := true, phase := n } }
    [0, 1].foldl (fun s i => if s.nat Ix.medsynFamily i = familyOf s then s else retune (s.setNat Ix.medsynFamily i (familyOf s)) i) s

/-- The band searches of the boot (R309, R447): MEDSYN0 and MEDSYN1 are locked in the family of the house rate, each with the
band code it has found, a free value, in its first slot. -/
def bootBands (s : State) : State :=
  [0, 1].foldl (fun s i =>
    let (n, s1) := s.draw
    storeBand ((s1.setNat Ix.medsynFamily i (familyOf s1)).setNat Ix.medsynState i 3) i (n % 4096).toNat) s

/-- The dividers of a bit of CLK_SYNC_SET that run (R315): the number of each, 2 × the bit and 1 more for the transmit direction
of a TDM port, and the synthesizer it takes its clock from. -/
def dividersOf (s : State) (bit : Nat) : List (Nat × Nat) :=
  if bit = 0 then (if (s.nat Ix.wclkOutCfg).testBit 3 then [(0, s.nat Ix.wclkOutCfg % 4)] else [])
  else if bit ≤ 4 then
    let c := s.nat Ix.mclkCfg (bit - 1)
    if c.testBit 4 then [(2 * bit, c % 4)] else []
  else if bit = 5 then [(10, 0)]
  else if bit < 32 then []
  else
    ([2 * (bit - 32), 2 * (bit - 32) + 1].filter (fun k => (dirOf s k).run != .off)).filterMap (fun k =>
      (masterSyn (dirOf s k).clk).map (fun y => (k + 64, y)))

/-- The period of a divider in edges of the core output, 8 times the family frequency (R304, R315): an MCLK gives the output
× 1, 2, 4 or 8; WCLK_OUT the house rate or the family base rate; AES3 framing and frame sync the house rate. -/
def dividerPeriod (s : State) (n : Nat) : Nat :=
  let house := 4096 / 2 ^ rateClass (s.nat Ix.houseRate)
  if n = 0 then (if (s.nat Ix.wclkOutCfg).testBit 2 then 4096 else house)
  else if n < 10 then 8 / 2 ^ (s.nat Ix.mclkCfg (n / 2 - 1) / 4 % 4)
  else house

/-- The first house sample from `from_` on at which a grid divider starts a period (R315): a multiple of its period in samples
where that is longer than one sample. -/
def gridStart (s : State) (n from_ : Nat) : Nat :=
  let p := max 1 (dividerPeriod s n * 2 ^ rateClass (s.nat Ix.houseRate) / 4096)
  ceilDiv from_ p * p

/-- A clock output is set as its object says (R315), from the present boundary on. -/
def setClockOut (s : State) (out : Nat) : State :=
  let s1 := { s with syn := { s.syn with aligned := mapErase (2 * out) s.syn.aligned } }
  match dividersOf s out with
  | (n, y) :: _ => s1.emit (.clockOut out y (dividerPeriod s n) (if y = 0 then some (gridStart s n (s.tick * s.ticklen)) else none))
  | [] => s1.emit (.clockOut out 0 0 none)

/-- The clock outputs that a new house rate changes are set anew (R311, R315). -/
def resetClockOuts (s : State) : State :=
  (upFrom 0 5).foldl (fun t k => if (dividersOf t k).isEmpty then t else setClockOut t k) s

/-- SYNC acts on a divider (R317): a grid divider found out of phase takes its grid phase again; a free one starts its next
period at the first edge at or after the stamp and CLK_SYNC_DELAY. -/
def syncDivider (quarter : Nat) (wrong : BitVec 128) (bit : Nat) (s : State) (d : Nat × Nat) : State :=
  if d.2 = 0 then (if wrong.getLsbD d.1 then (s.addHold Ix.clkSyncRepairs 0 1).alarm Al.clkGridRepaired else s)
  else
    let at_ := quarter + 4 * s.nat Ix.clkSyncDelay
    { s with syn := { s.syn with aligned := mapPut d.1 at_ s.syn.aligned } }.emit (.divider bit at_)

/-- CLK_SYNC_MODE has landed: in EVERY mode the pin accepts edges at once (R316). -/
def landSyncMode (old s : State) : State :=
  let m := s.nat Ix.clkSyncMode % 4
  if old.nat Ix.clkSyncMode % 4 = m then s else s.setNat Ix.clkSyncState 0 (if m = 2 then 1 else 0)

/-- CLK_SYNC_ARM has landed (R316). -/
def landSyncArm (s : State) : State :=
  let s1 := s.setNat Ix.clkSyncArm 0 0
  if s.nat Ix.clkSyncArm = 1 ∧ s.nat Ix.clkSyncMode % 4 = 1 then s1.setNat Ix.clkSyncState 0 1 else s1

/-- Every output is silent from the next sample, and no further tick runs (R303). -/
def stopForGood (s : State) : State :=
  { s with
    lat := { s.lat with seq := Fade.silent }
    clk := { s.clk with seq := .stopped }
    syn := { s.syn with dead := true } }.emit .silence

end Sys2Proof.Machine
end

