-- ==== Sys2Proof/Machine/Reserve.lean ====
section
/-! DEFINITION. The reserve manager: monitors and triggers (R375, R376), moves (R377 to R384), self-tests (R385),
lanes (R386 to R388), row repair (R389, R390) and its commands (R391, R393), and the PMU counters' writes. -/

namespace Sys2Proof.Machine

/-- A leaf as R378 prepares it for a place: the place's image, its maps, both pages, and its counters (R395). -/
def preparedLeaf (s : State) (m : Move) : Engine :=
  let e := gatedEngine (s.engine m.source).loc.pmu
  match (s.engine m.source).image with
  | none => e
  | some im => fillPages s m.req.place { putImage im.raw im.priv e with run := .leaf }

/-- Replace the move in progress. -/
def setMove (s : State) (m : Option Move) : State := { s with rsv := { s.rsv with move := m } }

/-- MOVE_PREPARED (R378): the leaf holds the place's P memory, maps and pages; for a cold or quiet move, its initial
X and Y data. -/
def execMovePrepared (s : State) : Host.Outcome State Fault Refusal :=
  .next (match s.rsv.move with
    | none => s
    | some m =>
      if m.step != .preparing then s
      else
        let e := preparedLeaf s m
        let e1 := if m.kind == .warm then fillPages s m.req.place { e with x := [], y := [] } else e
        setMove (s.setEngine m.leaf e1) (some { m with step := .prepared, tx := s.tick + 1 }))

/-- Every DONE of the tick has been signalled by an engine (R379). -/
def lastDone (e : Engine) : Bool :=
  e.ran1 && (match e.image with
    | some im => !imgSecond im || e.ran2
    | none => true) && e.q1.isEmpty && e.q2.isEmpty

/-- What the copy makes of the leaf (R379): the source's X and Y memory, registers, stacks and program state, and
the named engine-local registers. -/
def copyEngine (src leaf : Engine) : Engine :=
  { src with p := leaf.p, image := leaf.image, fix := []
             loc := { leaf.loc with irqEn := src.loc.irqEn, ira := src.loc.ira, isr := src.loc.isr,
                                    pmu := src.loc.pmu, page := src.loc.page } }

/-- MOVE_COPY (R379): the copy of a prepared warm move, once the source's last DONE and its streamer's writes of the
tick are past. An uncorrectable error abandons the move with reason 6. -/
def execMoveCopy (reads : CopyReads) (s : State) : Host.Outcome State Fault Refusal :=
  .next (match s.rsv.move with
    | none => s
    | some m =>
      let p := m.req.place.val
      if m.kind != .warm || m.step != .prepared then s
      else if !copyFits s then abandonMove s 5 1
      else if !lastDone (s.engine m.source) || s.fab.dlyDue.any (fun k => k / 2 == p) then s
      else if reads.bad then abandonMove s 6 1
      else
        let ws := (reads.fixed.filter (fun w => (w.1 == 1 || w.1 == 2) && decide (w.2 < 65536))).eraseDups
        let s1 := ws.foldl (fun t w => fixWord (countCorrected t m.source) m.source w) s
        let m1 := { m with step := MoveStep.copied, tx := s.tick + 1, held := min reads.ends (listGet 0 3 s.clk.plan), posts := [] }
        let s2 := setMove (s1.setEngine m.leaf (copyEngine (s1.engine m.source) (s1.engine m.leaf))) (some m1)
        (setMigState s2 m1 2 (s.nat Ix.rsvMigState / 65536 % 256)).setNat Ix.rsvMigTick 0 (s.tick + 3))

/-- The first shadow tick begins (R380). -/
def shadowBegins (s : State) : State :=
  match s.rsv.move with
  | some m =>
    if m.step == .copied && m.tx == s.tick then
      setMigState (setRsvState s m.leaf 4) m 3 (s.nat Ix.rsvMigState / 65536 % 256)
    else s
  | none => s

/-- A shadow tick ends: a frame that one engine alone has posted is a difference (R380). -/
def shadowEnds (s : State) : State :=
  match s.rsv.move with
  | some m =>
    if m.posts.isEmpty then s
    else
      let m1 := { m with posts := [] }
      shadowDiffers (setMove s (some m1)) m1
  | none => s

/-- The place and the leaf change hands in the place map; the source is power-gated (R381). -/
def flipMap (s : State) (m : Move) : State :=
  let reserve := placeOf s m.leaf
  let s1 := s.setNat Ix.latEngMap m.req.place.val m.leaf.val
  let s2 := match reserve with
    | some q => s1.setNat Ix.latEngMap q.val m.source.val
    | none => s1
  moveMail (s2.setEngine m.source (gatedEngine m.pmu)) m.source.val m.leaf.val

/-- The end of a move: the states of both engines, the counts and the alarm (R376, R381). -/
def finishMove (s : State) (m : Move) (sourceState : Nat) : State :=
  let s1 := setRsvState (setRsvState s m.leaf 0) m.source sourceState
  let s2 := (setMigState s1 m 4 (s.nat Ix.rsvMigState / 65536 % 256)).setNat Ix.rsvMigTick 0 s.tick
  let s3 := (s2.addWrap Ix.rsvMigrations 0 1).alarm Al.rsvMigrateDone (rsvDetail m.source m.req.place)
  nextMove { s3 with rsv := { s3.rsv with move := none, barred := s3.rsv.barred.filter (fun p => p != m.req.place) } }

/-- The state the source engine takes after a move: RETIRED where it is to be retired, the state a halt gave it,
else a leaf. -/
def sourceAfter (s : State) (m : Move) : Nat :=
  if m.req.retire then 6
  else if rsvState s m.source = 5 ∨ rsvState s m.source = 6 then rsvState s m.source
  else 1

/-- MOVE_CUTOVER (R380, R381): at t_c, once both shadow ticks are past, the leaf takes the place. -/
def execMoveCutover (s : State) : Host.Outcome State Fault Refusal :=
  .next (match s.rsv.move with
    | none => s
    | some m =>
      if m.step != .copied || m.kind != .warm || decide (s.tick < m.tx + 2) then s
      else finishMove (flipMap s m) m (sourceAfter s m))

/-- COLD_MOVE_FLIP (R382): from the first boundary after preparation, the leaf starts at bundle 0 with its registers reset; the place's delay lines read as 0. -/
def execColdMoveFlip (s : State) : Host.Outcome State Fault Refusal :=
  .next (match s.rsv.move with
    | none => s
    | some m =>
      if m.kind != .cold || m.step == .preparing || decide (s.tick < m.tx) then s
      else
        let after := sourceAfter s m
        let e := preparedLeaf s m
        let s1 := flipMap (s.setEngine m.leaf { e with run := .idle }) m
        finishMove (startPlace s1 m.req.place true) m after)

/-- QUIET_MOVE_FLIP (R383): from the first boundary after preparation, an engine that was IDLE stays IDLE on the leaf. On gated engines the preparation waits for
the next power-up, which nothing shows before it. -/
def execQuietMoveFlip (s : State) : Host.Outcome State Fault Refusal :=
  .next (match s.rsv.move with
    | none => s
    | some m =>
      if m.kind != .quiet || (!s.isGated && m.step == .preparing) || decide (s.tick < m.tx) then s
      else
        let after := sourceAfter s m
        let e := preparedLeaf s m
        finishMove (flipMap (s.setEngine m.leaf { e with run := .idle }) m) m after)

/-- The least of a list of readings. -/
def leastOf : List Int → Option Int
  | [] => none
  | x :: t => some (t.foldl min x)

/-- The readings of the last 60 s among those kept of a monitor (R375). -/
def recentSlacks (s : State) (h : List (Nat × Int)) : List (Nat × Int) :=
  h.filter (fun r => decide (s.clk.sysCounter ≤ r.1 + 60000000000))

/-- The least reading of a list. -/
def leastSlack (h : List (Nat × Int)) : Option Int := leastOf (h.map (fun r => r.2))

/-- RSV_ENG_SLACK of an engine reports its readings of the last 60 s, while there are any (R375). -/
def showSlack (s : State) (e : Nat) : State :=
  match leastSlack (recentSlacks s (mapGet (fun _ => []) e s.rsv.slacks)) with
  | some m => s.setInt Ix.rsvEngSlack e m
  | none => s

/-- RSV_LANE_SLACK reports those of the lanes in service (R375, R393). -/
def showLaneSlack (s : State) : State :=
  let live := s.rsv.laneSlacks.filter (fun l => !s.rsv.lanesOut.contains l.1)
  match leastSlack (live.flatMap (fun l => recentSlacks s l.2)) with
  | some m => s.setInt Ix.rsvLaneSlack 0 m
  | none => s

/-- A reading of engine `e` enters its last 60 s (R375). -/
def noteSlack (s : State) (e : Fin 16) (v : Int) : State :=
  let h := (s.clk.sysCounter, v) :: recentSlacks s (mapGet (fun _ => []) e.val s.rsv.slacks)
  showSlack { s with rsv := { s.rsv with slacks := mapSet (fun _ => []) e.val h s.rsv.slacks } } e.val

/-- RSV_SLACK_LOW, once per crossing (R376). -/
def slackWarn (s : State) (e : Fin 16) : State :=
  let low := decide (s.int Ix.rsvEngSlack e.val ≤ s.int Ix.rsvSlackWarn)
  if !low then { s with rsv := { s.rsv with slackLow := s.rsv.slackLow.filter (fun k => k != e.val) } }
  else if s.rsv.slackLow.contains e.val then s
  else
    let place := match placeOf s e with
      | some p => p.val
      | none => 0
    { s with rsv := { s.rsv with slackLow := s.rsv.slackLow ++ [e.val] } }.alarm Al.rsvSlackLow (e.val + 16 * place)

/-- A move of a place is in progress or waiting. -/
def moveAsked (s : State) (p : Fin 16) : Bool :=
  s.rsv.queue.any (fun r => r.place == p) || (match s.rsv.move with
    | some m => m.req.place == p
    | none => false)

/-- Corrected errors of an engine within 24 hours, in rows not yet repaired (R376). -/
def recentCe (s : State) (e : Fin 16) : Nat :=
  ((mapGet (fun _ => []) e.val s.rsv.ces).filter (fun t => decide (s.clk.sysCounter ≤ t + day))).length

/-- A trigger moves the place of an engine and retires the engine, under policy 1 (R376); not again where its move has met a
second shadow mismatch (R380). -/
def askRetire (s : State) (e : Fin 16) : State :=
  match placeOf s e with
  | none => s
  | some p =>
    if s.nat Ix.rsvPolicy == 1 && isWorkPlace p && rsvState s e == 0 && !moveAsked s p && !s.rsv.barred.contains p then
      askMove s { place := p, leaf := none, force := false, retire := true, auto := true }
    else s

/-- The engine triggers of R376 that move a place and retire its engine. -/
def judgeEngine (s : State) (e : Fin 16) : State :=
  if decide (s.int Ix.rsvEngSlack e.val ≤ s.int Ix.rsvSlackRetire) || decide (s.nat Ix.rsvCeLimit < recentCe s e) then askRetire s e
  else s

/-- Corrected errors of a tick that began at `stamp` carry an engine beyond RSV_CE_LIMIT (R376). -/
def judgeCe (stamp : Nat) (s : State) (e : Fin 16) : State :=
  if (mapGet (fun _ => []) e.val s.rsv.ces).any (fun t => decide (stamp ≤ t)) && decide (s.nat Ix.rsvCeLimit < recentCe s e) then
    askRetire s e
  else s

/-- One engine's reading: monitors run while the engine runs (R375). -/
def readEngine (s : State) (r : Nat × Int) : State :=
  let e := Fin.ofNat 16 r.1
  let run := (s.engine e).run
  if decide (r.1 < 16) && (run == .running || run == .waiting) then slackWarn (noteSlack s e r.2) e
  else s

/-- The Bench lanes' readings (R375, R376): lanes at the limit are retired at the next boundary. -/
def readLanes (s : State) (lanes : List (Nat × Int)) : State :=
  let live := lanes.filter (fun r => !s.rsv.lanesOut.contains r.1 && decide (r.1 < 68))
  let bad := (live.filter (fun r => decide (r.2 ≤ s.int Ix.rsvSlackRetire) && !s.rsv.lanesDue.contains r.1)).map
    (fun r => r.1)
  let kept := live.foldl (fun m r =>
    mapSet (fun _ => []) r.1 ((s.clk.sysCounter, r.2) :: recentSlacks s (mapGet (fun _ => []) r.1 m)) m) s.rsv.laneSlacks
  showLaneSlack { s with rsv := { s.rsv with laneSlacks := kept, lanesDue := s.rsv.lanesDue ++ bad } }

/-- AGING_MONITOR_READ (R375, R376): each second the monitors are read and the triggers judged. -/
def execAgingMonitorRead (engines lanes : List (Nat × Int)) (temp : Int) (s : State) :
    Host.Outcome State Fault Refusal :=
  let s1 := readLanes (engines.foldl readEngine (s.setInt Ix.secDieTemp 0 temp)) lanes
  .next ((List.finRange 16).foldl judgeEngine s1)

/-- The next waiting self-test begins, and the others wait their turn (R385). Only a leaf, a SUSPECT or a RETIRED
engine is tested. -/
def startTest (s : State) : State :=
  if !s.rsv.testing.isEmpty then s
  else
    match s.rsv.tests with
    | [] => s
    | e :: t =>
      let s1 := { s with rsv := { s.rsv with tests := t } }
      if rsvState s e = 1 ∨ rsvState s e = 5 ∨ rsvState s e = 6 then
        let odd : List (Fin 16) := if rsvState s e = 1 then [] else [e]
        setRsvState { s1 with rsv := { s1.rsv with testing := [e], untrusted := odd } } e 2
      else s1

/-- Put engines on the list of tests. -/
def addTests (s : State) (es : List (Fin 16)) : State :=
  startTest { s with rsv := { s.rsv with
    tests := s.rsv.tests ++ es.filter (fun e => !s.rsv.tests.contains e && !s.rsv.testing.contains e) } }

/-- Every leaf in turn (R385). -/
def testLeaves (s : State) : State :=
  addTests s ((List.finRange 16).filter (fun e => rsvState s e == 1))

/-- LEAF_TEST_TIMER (R385): RSV_LEAF_TEST_PERIOD hours have passed since the last; off while it is 0. -/
def execLeafTestTimer (s : State) : Host.Outcome State Fault Refusal :=
  let period := s.nat Ix.rsvLeafTestPeriod
  .next (if period = 0 || !s.reached (s.rsv.testedAt + period * 3600000000000) then s
    else testLeaves { s with rsv := { s.rsv with testedAt := s.clk.sysCounter } })

/-- An engine holds a place in use (R393). -/
def holdsWork (s : State) (e : Fin 16) : Bool :=
  match placeOf s e with
  | some p => isWorkPlace p
  | none => false

/-- LEAF_TEST_DONE (R376, R385): an engine under test that passes is a leaf, or in service where it still holds a place that
found no leaf; one that fails is RETIRED. -/
def execLeafTestDone (eng : Fin 16) (pass : Bool) (slack : Int) (s : State) : Host.Outcome State Fault Refusal :=
  .next (if !s.rsv.testing.contains eng then s
    else
      let s1 := noteSlack { s with rsv := { s.rsv with testing := s.rsv.testing.filter (fun e => e != eng)
                                                       untrusted := s.rsv.untrusted.filter (fun e => e != eng) } } eng slack
      let place := match placeOf s eng with
        | some p => p.val
        | none => 0
      let s2 := if pass then setRsvState s1 eng (if holdsWork s eng then 0 else 1)
        else setRsvState (s1.alarm Al.rsvLeafTestFail (eng.val + 16 * place)) eng 6
      startTest s2)

/-- RSV_ENG_FAULTS counts the halts of the last 24 hours (R376, R393). -/
def refreshFaults (s : State) : State :=
  s.rsv.halts.foldl (fun t h =>
    t.setNat Ix.rsvEngFaults h.1 (min (h.2.filter (fun a => decide (s.clk.sysCounter ≤ a + day))).length 255)) s

/-- The slacks that the reserve objects show (R375). -/
def refreshSlacks (s : State) : State :=
  showLaneSlack ((s.rsv.slacks.map (fun x => x.1)).foldl showSlack s)

/-- What the reserve manager does as a tick that began at `stamp` ends: a shadow tick is judged (R380), the corrected errors
of the tick are (R376), a SUSPECT engine without work is tested (R376), and what waits begins. -/
def rsvTick (stamp : Nat) (s : State) : State :=
  let free (t : State) (e : Fin 16) : Bool :=
    rsvState t e == 5 && (match placeOf t e with
      | some p => !isWorkPlace p
      | none => true)
  let s1 := (List.finRange 16).foldl (judgeCe stamp) (shadowEnds (refreshSlacks (refreshFaults s)))
  nextMove (addTests s1 ((List.finRange 16).filter (free s1)))

/-- A move in progress is abandoned, and an automatic one is asked for again (R384). -/
def abandonAuto (s : State) (reason : Nat) : State :=
  match s.rsv.move with
  | none => s
  | some m =>
    let s1 := abandonMove s reason 1
    if m.req.auto then { s1 with rsv := { s1.rsv with queue := s1.rsv.queue ++ [m.req] } } else s1

/-- A change of the tick grid or a step of the tick number is to come or has come: commits without their final check are
rejected (R181), and an automatic move is abandoned. -/
def dropOpen (s : State) : State := abandonAuto (rejectOpen s 14) 3

/-- LANE_RETIRE (R386 to R388): a lane that failed its residue check, or whose slack is at its limit, is retired; a
leaf lane takes its place while there is one. -/
def execLaneRetire (lane : Fin 68) (residue : Bool) (s : State) : Host.Outcome State Fault Refusal :=
  .next (if s.rsv.lanesOut.contains lane.val || !(residue || s.rsv.lanesDue.contains lane.val) then s
    else
      let w := s.nat Ix.rsvLanes
      let live := w % 128
      let leaves := w / 256 % 128
      let out := w / 65536 % 128
      let live1 := if 0 < leaves then live else live - 1
      let s1 := if residue then benchEvent 0x08 1 { s.addHold Ix.rsvLaneResidue 0 1 with
        bench := { s.bench with load := s.bench.load + 1 } } else s
      let s2 := { s1 with rsv := { s1.rsv with
        lanesOut := s1.rsv.lanesOut ++ [lane.val], lanesDue := s1.rsv.lanesDue.filter (fun k => k != lane.val) } }
      let s3 := (s2.setNat Ix.rsvLanes 0 (live1 + 256 * (leaves - 1) + 65536 * (out + 1))).setNat Ix.benchLoadMax 0
        (live1 * (listGet 0 7 s.clk.plan - listGet 0 1 s.clk.plan))
      let lv := s.nat Ix.rsvLeaves
      let s4 := s3.setNat Ix.rsvLeaves 0 (lv % 4 + 4 * min (leaves - 1) 7 + lv / 32 * 32)
      (s4.alarm Al.rsvLaneRetired).alarmIf (decide (live1 < 64)) Al.rsvLaneShort)

/-- The engine whose memory a memory number names (R393). -/
def memEngine (memory : Nat) : Option (Fin 16) :=
  if memory < 16 then some (Fin.ofNat 16 memory) else none

/-- Spare rows of a memory, as RSV_ROWS and, for a bank, FAB_BANK_SPARES report them (R371, R393). -/
def setSpares (s : State) (memory v : Nat) : State :=
  let s1 := s.setNat Ix.rsvRows memory v
  if 0x21 ≤ memory ∧ memory ≤ 0x26 then s1.setNat Ix.fabBankSpares (memory - 0x20) v else s1

/-- ROW_REPAIR_SWITCH (R389): the row's address switches to a spare row, where the row has met an uncorrectable error or
RSV_ROW_CE_LIMIT corrected ones (R376). With none left the repair stops, and an engine's memory is handled as a CE-rate
trigger. -/
def execRowRepairSwitch (memory : Nat) (row : Half) (bad : Bool) (counted : Nat) (s : State) :
    Host.Outcome State Fault Refusal :=
  .next (if !Subs.memory.has memory || (!bad && decide (counted < s.nat Ix.rsvRowCeLimit)) then s
    else
      let w := s.nat Ix.rsvRows memory
      let used := w % 256
      let left := w / 256
      if left = 0 ∨ 255 ≤ used then
        match memEngine memory with
        | none => s
        | some e => askRetire s e
      else
        let s1 := setSpares s memory (used + 1 + 256 * (left - 1))
        let n := s.rsv.repairs
        let entry := memory + 256 * row.toNat + (if bad then 2 ^ 24 else 0) + 2 ^ 32 * (s.tick % 2 ^ 32)
        let s2 := (s1.setNat Ix.rsvRepairLog (n % 64) entry).alarm Al.rsvRowRepaired memory
        let s3 := match memEngine memory with
          | none => s2
          | some e =>
            let h := mapGet (fun _ => []) e.val s2.rsv.ces
            { s2 with rsv := { s2.rsv with ces := mapSet (fun _ => []) e.val (h.drop counted) s2.rsv.ces } }
        let s4 := { s3 with rsv := { s3.rsv with repairs := n + 1, unfused := s3.rsv.unfused ++ [(n, memory)] } }
        let low (a : Nat) : Bool := decide (10 * a < used + left)
        s4.alarmIf (low (left - 1) && !low left) Al.rsvSparesLow memory)

/-- REPAIR_FUSE_WRITE (R390): the oldest repair not yet fused is written, or the bank is full. -/
def execRepairFuseWrite (s : State) : Host.Outcome State Fault Refusal :=
  .next (match s.rsv.unfused with
    | [] => s
    | (n, memory) :: t =>
      let s1 := { s with rsv := { s.rsv with unfused := t } }
      let used := s.nat Ix.rsvRepairFuses
      if 512 ≤ used then
        { s1 with rsv := { s1.rsv with unkept := s1.rsv.unkept ++ [memory] } }.alarm Al.rsvFusesFull memory
      else
        let s2 := s1.setNat Ix.rsvRepairFuses 0 (used + 1)
        if n + 64 < s.rsv.repairs + 1 then s2
        else s2.setNat Ix.rsvRepairLog (n % 64) (s.nat Ix.rsvRepairLog (n % 64) ||| 2 ^ 25))

/-- An RSV_CMD is refused (R384, R393): the code, or 0. A MIGRATE, RETIRE or TEST that needs a busy leaf is refused
with STATE. -/
def rsvCmdCheck (s : State) (v : Nat) : Nat :=
  let op := v % 256
  let arg := v / 256 % 16
  let target := Fin.ofNat 16 (v / 4096)
  let busy (e : Fin 16) : Bool := rsvState s e == 3 || rsvState s e == 4
  let someBusy := (List.finRange 16).any busy
  let noLeaf := someBusy && !(List.finRange 16).any (isLeaf s)
  if v / 2 ^ 18 ≠ 0 ∨ op = 0 ∨ 5 < op then Rc.range
  else if op = 1 then
    if 14 ≤ arg then Rc.range
    else if v.testBit 16 then (if noLeaf then Rc.state else 0)
    else if busy target then Rc.state
    else 0
  else if op = 2 then (if busy (Fin.ofNat 16 arg) || (noLeaf && holdsWork s (Fin.ofNat 16 arg)) then Rc.state else 0)
  else if op = 3 then (if someBusy then Rc.state else 0)
  else if op = 4 then (if rsvState s (Fin.ofNat 16 arg) = 6 then 0 else Rc.state)
  else if 2 ≤ arg then Rc.range
  else if pllState s arg = 4 then 0
  else Rc.state

/-- RSV_CMD RETIRE on an engine (R393): its place is migrated first where it holds one. -/
def retireEngine (s : State) (e : Fin 16) (force : Bool) : State :=
  match placeOf s e with
  | some p =>
    if isWorkPlace p then askMove s { place := p, leaf := none, force := force, retire := true, auto := false }
    else setRsvState s e 6
  | none => setRsvState s e 6

/-- RSV_CMD has landed (R391, R393). -/
def landRsvCmd (s : State) (v : Nat) : State :=
  let op := v % 256
  let arg := Fin.ofNat 16 (v / 256)
  if op = 1 then
    askMove s { place := arg, leaf := if v.testBit 16 then none else some (Fin.ofNat 16 (v / 4096)),
                force := v.testBit 17, retire := false, auto := false }
  else if op = 2 then retireEngine s arg (v.testBit 17)
  else if op = 3 then testLeaves s
  else if op = 4 then (if rsvState s arg = 6 then addTests s [arg] else s)
  else if op = 5 ∧ pllState s arg.val = 4 then
    let s1 := { s with syn := { s.syn with losses := mapSet (fun _ => []) arg.val [] s.syn.losses } }
    s1.setNat Ix.syspllState arg.val 1
  else s

/-- SE_PMU_CNT_LO (R403): the low half loads the count with the staged high half. -/
def execSePmuCntLo (eng : Fin 16) (k : Fin 4) (value : Word) (s : State) : Host.Outcome State Fault Refusal :=
  .next (portWrite s eng .fabric (0x110 + 8 * k.val) value)

/-- SE_PMU_CNT_HI (R403): the high half is staged for the next write of the low half. -/
def execSePmuCntHi (eng : Fin 16) (k : Fin 4) (value : Word) (s : State) : Host.Outcome State Fault Refusal :=
  .next (portWrite s eng .fabric (0x114 + 8 * k.val) value)

end Sys2Proof.Machine
end

