-- ==== Sys2Proof/Machine/Startup.lean ====
section
/-! DEFINITION. Resets, bring-up, quiet mode and firmware update (chapter 20), and the events of security and the
lifecycle (chapter 18). -/

namespace Sys2Proof.Machine

/-- LC_ADVANCE_DONE (R408): the advance in progress completes. -/
def execLcAdvanceDone (s : State) : Host.Outcome State Fault Refusal :=
  .next (match s.sec.advance with
    | none => s
    | some next => lcDone s next)

/-- TAMPER_ASSERTED (R415). -/
def execTamperAsserted (raw : BitVec 5) (s : State) : Host.Outcome State Fault Refusal :=
  .next (tamperLatch s raw.toNat)

/-- DEBUG_GRANT_EXPIRY (R421): the granted seconds have run out. -/
def execDebugGrantExpiry (s : State) : Host.Outcome State Fault Refusal :=
  .next (if s.sec.grant.any (fun g => s.reached g.2) then endGrant s else s)

/-- SEALED_COPY_WRITE (R411). -/
def execSealedCopyWrite (s : State) : Host.Outcome State Fault Refusal :=
  .next (if s.sec.sealDue then sealNow s else s)

/-- JTAG_DEBUG_HALT (R421): under a debug grant of scope bit 0, or in BLANK. An engine halted so is an overrun (R45). -/
def execJtagDebugHalt (target : HaltTarget) (s : State) : Host.Outcome State Fault Refusal :=
  .next (if !dbgOpen s 0 then s
    else
      match target with
      | .engine e =>
        let run := (s.engine e).run
        if run == .running || run == .waiting then haltEngine s e 1 else s
      | .controller => { s with sec := { s.sec with hkHalted := true } })

/-- What the fuses and the flash keep across a reset (R408, R411). A reset in an advance leaves its row set invalid. -/
def keptSec (s : State) : SecSt :=
  let c := s.sec
  let failed := match c.advance with
    | some n => mapSet (fun _ => 0) n (mapGet (fun _ => 0) n c.failed + 1) c.failed
    | none => c.failed
  { SecSt.reset with life := c.life, failed := failed, kRec := c.kRec, imgHash0 := c.imgHash0, imgHash1 := c.imgHash1,
                     dbgHash := c.dbgHash, epoch := c.epoch, copies := c.copies }

/-- The boot flash across a reset: a slot whose writing had not ended is invalid (R456). -/
def keptBoot (s : State) : BootSt :=
  { BootSt.reset with held := true, slot0 := s.boot.slot0, slot1 := s.boot.slot1 }

/-- Spare rows and repair fuses across a reset: repairs not fused are lost (R390). -/
def keptRepairs (s t : State) : State :=
  let t1 := t.setNat Ix.rsvRepairFuses 0 (s.nat Ix.rsvRepairFuses)
  let t2 := (upFrom 0 0x27).foldl (fun u m =>
    if Subs.memory.has m then setSpares u m (s.nat Ix.rsvRows m) else u) t1
  (s.rsv.unfused.map (fun n => n.2) ++ s.rsv.unkept).foldl (fun u m =>
    let w := u.nat Ix.rsvRows m
    if w % 256 = 0 then u else setSpares u m (w - 1 + 256)) t2

/-- A reset begins (R444, R445). A system reset keeps the system PLLs and the count of system resets. -/
def resetBegins (s : State) (cause : Nat) : State :=
  let t : State := { State.reset with pending := s.pending, out := s.out, fresh := s.fresh, sec := keptSec s, boot := keptBoot s }
  let t1 := (keptRepairs s t).setNat Ix.bootResetCause 0 cause
  let t2 := if cause = 0 then t1
    else
      let u := t1.setNat Ix.bootResetCount 0 ((s.nat Ix.bootResetCount + 1) % 4294967296)
      ((u.setNat Ix.syspllActive 0 (s.nat Ix.syspllActive)).setNat Ix.syspllState 0 (s.nat Ix.syspllState)).setNat
        Ix.syspllState 1 (s.nat Ix.syspllState 1)
  t2.emit .resetLevels

/-- PORESET_ASSERT (R444). -/
def execPoresetAssert (s : State) : Host.Outcome State Fault Refusal := .next (resetBegins s 0)

/-- A system reset. One that comes during a power-on reset changes nothing: the power-on reset governs (R444). -/
def sysReset (s : State) (cause : Nat) : State :=
  if s.boot.held && s.nat Ix.bootResetCause == 0 then s else resetBegins s cause

/-- SYSRESET_N (R444). -/
def execSysresetN (s : State) : Host.Outcome State Fault Refusal := .next (sysReset s 1)
/-- SUPPLY_MONITOR_RESET (R444). -/
def execSupplyMonitorReset (s : State) : Host.Outcome State Fault Refusal := .next (sysReset s 2)
/-- WATCHDOG_RESET (R444). -/
def execWatchdogReset (s : State) : Host.Outcome State Fault Refusal := .next (sysReset s 3)
/-- LOCKSTEP_RESET (R444). -/
def execLockstepReset (s : State) : Host.Outcome State Fault Refusal := .next (sysReset s 4)
/-- JTAG_RESET (R444): under a debug grant of scope bit 0. -/
def execJtagReset (s : State) : Host.Outcome State Fault Refusal := .next (if dbgOpen s 0 then sysReset s 6 else s)

/-- A firmware image verifies (R448). -/
def fwVerifies (s : State) (b : List Byte) : Bool :=
  let a := imgNat b 0x08 4
  let d := imgNat b 0x0C 4
  let n := 0x80 + a + d
  imgBytes b 0 4 == [0x44, 0x52, 0x44, 0x46] && b.length == n + 64 && decide (a ≤ 0x400000) && decide (n + 64 ≤ 0x1000000) &&
    (imgBytes b 0x50 0x30).all (fun x => x == 0) && Config.sha256 (imgBytes b 0x10 64) == Config.fwKeyHash &&
    Config.ecdsaOk (imgBytes b 0x10 64) (b.take n) (imgBytes b n 64) && s.sec.life != 4

/-- The A data go to Bank A, the D data to the system region (R449). -/
def loadFirmware (s : State) (b : List Byte) : State :=
  let a := imgNat b 0x08 4
  let d := imgNat b 0x0C 4
  setMemBytes (setMemBytes s 0x0010000000 (imgBytes b 0x80 a)) 0x1000000000 (imgBytes b (0x80 + a) d)

/-- A slot that boots (R450). -/
def slotBoots (s : State) (x : FwSlot) : Bool := x.valid && fwVerifies s x.image

/-- The slots in the order in which they are tried (R450). -/
def fwOrder (s : State) : List Nat :=
  let a := s.boot.slot0
  let b := s.boot.slot1
  if a.valid && b.valid then (if a.seq < b.seq then [1, 0] else [0, 1])
  else if a.valid then [0]
  else if b.valid then [1]
  else []

def fwSlotOf (s : State) (k : Nat) : FwSlot := if k = 0 then s.boot.slot0 else s.boot.slot1

/-- BOOT_STAGE and the fault code (R447). -/
def setStage (s : State) (stage code : Nat) : State :=
  { s with boot := { s.boot with stage := stage, code := code } }.setNat Ix.bootStage 0 stage

/-- The Cabinet is loaded from the sealed copy with the highest sequence that verifies (R411). -/
def loadCabinet (s : State) : State :=
  let fits := s.sec.copies.filter (fun c => c.life == s.sec.life && c.epoch == s.sec.epoch)
  match fits.foldl (fun m c => match m with
      | none => some c
      | some b => if b.seq < c.seq then some c else some b) none with
  | none => s.alarm Al.secSealFail
  | some (c : Sealed) =>
    let s1 := { s with ctl := { s.ctl with keys := c.keys } }.setObj Ix.secImgPubkey 0 (.bytes c.pub)
    (upFrom 0 16).foldl (fun t k => t.setNat Ix.ctlCredPriv k (listGet 0 k c.privs)) s1

/-- What the fuses make the security objects read. -/
def fuseObjects (s : State) : State :=
  let s1 := (s.setNat Ix.secLifecycle 0 s.sec.life).setNat Ix.secEpochLeft 0 (128 - s.sec.epoch)
  ((s1.setObj Ix.secImgKeyHash 0 (.bytes s.sec.imgHash0)).setObj Ix.secImgKeyHash 1 (.bytes s.sec.imgHash1)).setObj
    Ix.secDbgKeyHash 0 (.bytes s.sec.dbgHash)

/-- Steps that both row sets have failed, at the first boot that finds them so (R408). -/
def deadSteps (s : State) : State :=
  s.sec.failed.foldl (fun t x =>
    if x.2 = 2 then
      { t with sec := { t.sec with failed := mapSet (fun _ => 0) x.1 3 t.sec.failed } }.alarm Al.secLcChanged 0xFFFF
    else t) s

/-- Stages 0x05 to 0x07 with a verified image (R447, R449, R452): `source` is the slot, or 2 for the host port. FW_VERSION
reads the VERSION of the image (R7, R448). -/
def toReady (s : State) (image : List Byte) (source : Nat) (fallback : Bool) : State :=
  let s1 := writeFabCtl (loadFirmware s image) 0x101
  let s2 := loadCabinet (setStage ((s1.setNat Ix.bootSource 0 source).setNat Ix.fwVersion 0 (imgNat image 0x04 4)) 7 0)
  let s3 := bootBands s2
  let quiet := decide (s.nat Ix.bootStraps % 4 = 1)
  let s4 := { s3 with boot := { s3.boot with quiet := quiet } }.setFlag Ix.quietMode 0 quiet
  let s5 := noLeafCheck (deadSteps s4)
  let s6 := (s5.alarmIf fallback Al.bootFwFallback).alarm Al.bootRestarted (s.nat Ix.bootResetCause)
  s6.alarmIf quiet Al.quietEntered

/-- The boot from flash, and what follows where no slot verifies (R447, R449, R450). FAB_CTL is locked with REMAP 0 only
where the unit halts: a unit that waits for the host still has to set REMAP (DEDUCED). -/
def bootFlash (s : State) (flash hostNext : Bool) : State :=
  let order := if flash then fwOrder s else []
  match order.find? (fun k => slotBoots s (fwSlotOf s k)) with
  | some k => toReady s (fwSlotOf s k).image k (order.head? != some k)
  | none =>
    let code : Nat := if flash then 6 else 5
    if hostNext then setStage s 4 code else setStage (writeFabCtl s 0x100) 0xFE code

/-- The system PLLs at bring-up (R447): the one that locks is active, the other the hot leaf or still trying. -/
def bringPlls (s : State) (a b : Bool) : State :=
  let act : Nat := if a then (if b then s.nat Ix.syspllActive else 0) else 1
  let s1 := (s.setNat Ix.syspllActive 0 act).setNat Ix.syspllState act 3
  syncHotLeaf (s1.setNat Ix.syspllState (1 - act) (if a && b then 2 else 1))

/-- DRAM installed, in MiB: two devices of 1, 2, 4 or 8 GiB (R362). -/
def dramMib (gib : Fin 4) : Nat := 2048 * 2 ^ gib.val

/-- Bring-up as far as the firmware (R447): a fault halts the unit. -/
def bringUp (s : State) (u : BringUp) : State :=
  let sel := u.straps.toNat % 4
  let slots : BootSt := { s.boot with held := false, slot0 := u.prog0.getD s.boot.slot0, slot1 := u.prog1.getD s.boot.slot1 }
  let s0 := fuseObjects { s with boot := slots }
  let s1 := ((s0.setNat Ix.bootStraps 0 u.straps.toNat).setNat Ix.seat 0 (u.straps.toNat / 4)).setNat Ix.bootTime 0 (u.time % 4294967296)
  if s.sec.life = 4 then setStage s1 0xFD 0
  else if !u.pllA && !u.pllB then setStage s1 0xFE 1
  else if u.badMemory then setStage s1 0xFE 8
  else if !u.ddr0 then setStage s1 0xFE 2
  else if !u.ddr1 then setStage s1 0xFE 3
  else if !u.sizesOk then setStage s1 0xFE 4
  else
    let s2 := bringPlls s1 u.pllA u.pllB
    let s3 := { ((s2.setNat Ix.fabDramSize 0 (dramMib u.size)).setNat Ix.fabDramSpeed 0 (listGet 0 u.speed.val [6400, 7500, 8533])).setNat
                    Ix.fabDlyStoreSize 0 (dramMib u.size - 576) with
                fab := { s2.fab with dramReady := true } }
    let v (x : FwSlot) : Nat := if x.valid then imgNat x.image 0x04 4 else 0
    let s4 := (s3.setNat Ix.bootSlotVersion 0 (v s3.boot.slot0)).setNat Ix.bootSlotVersion 1 (v s3.boot.slot1)
    let s5 := (s4.setNat Ix.bootSlotSeq 0 s4.boot.slot0.seq).setNat Ix.bootSlotSeq 1 s4.boot.slot1.seq
    if sel = 2 then setStage s5 4 0 else bootFlash s5 u.flash (sel == 3)

/-- PORESET_RELEASE (R443, R447): the release of a reset, and the bring-up. -/
def execPoresetRelease (up : BringUp) (s : State) : Host.Outcome State Fault Refusal :=
  .next (if s.boot.stage = 0 then bringUp s up else s)

/-- The content of HP_CMDBUF. -/
def hpCommand (s : State) (n : Nat) : List Byte := (upFrom 0 n).map (fun i => mapGet (fun _ => 0) i s.hp.cmdBuf)

/-- GO at stage 0x04 makes the boot ROM take the image from the window (R451). GO with any other content sets DROP. -/
def bootDescriptor (s : State) : State :=
  if s.boot.stage ≠ 4 then s
  else
    let d := hpCommand s 16
    let len := natLE ((d.drop 4).take 4)
    if s.hp.cmdLen.toNat = 16 ∧ d.take 4 = [0x44, 0x52, 0x48, 0x42] ∧ (d.drop 8).all (fun x => x == 0) then
      let image := memBytes s 0x1000000000 (min len 0x1000000)
      if decide (len ≤ 0x1000000) && fwVerifies s image then toReady s image 2 true
      else setStage s 4 7
    else { s with hp := { s.hp with drop := true } }

/-- HP_BOOT_DESCRIPTOR (R451). -/
def execHpBootDescriptor (s : State) : Host.Outcome State Fault Refusal := .next (bootDescriptor s)

/-- A firmware update starts (R456): the slot not booted is invalid until its record is written. -/
def startFwUpdate (s : State) (b : List Byte) : State :=
  let k : Nat := if s.nat Ix.bootSource = 0 then 1 else 0
  let t := { s.boot with writing := some b }
  let t1 : BootSt := if k = 0 then { t with slot0 := FwSlot.empty } else { t with slot1 := FwSlot.empty }
  (({ s with boot := t1 }.setNat Ix.bootFwStatus 0 1).setNat Ix.bootSlotVersion k 0).setNat Ix.bootSlotSeq k 0

/-- BOOT_FW_FLASH_WRITE_DONE (R456): the slot's record is written last, with SEQ one above the booted slot's. -/
def execBootFwFlashWriteDone (good : Bool) (s : State) : Host.Outcome State Fault Refusal :=
  .next (match s.boot.writing with
    | none => s
    | some b =>
      let src := s.nat Ix.bootSource
      let k : Nat := if src = 0 then 1 else 0
      let seq := if src = 2 then max s.boot.slot0.seq s.boot.slot1.seq + 1 else (fwSlotOf s src).seq + 1
      let s1 := { s with boot := { s.boot with writing := none } }
      if !good then (s1.setNat Ix.bootFwStatus 0 4).alarm Al.bootFwUpdateFail
      else
        let x : FwSlot := { valid := true, seq := seq, image := b }
        let s2 := { s1 with boot := if k = 0 then { s1.boot with slot0 := x } else { s1.boot with slot1 := x } }
        ((s2.setNat Ix.bootSlotVersion k (imgNat b 0x04 4)).setNat Ix.bootSlotSeq k seq).setNat Ix.bootFwStatus 0 2)

/-- The stream engine stops (R454): every receive stream is as at its enable, and no packet is built or waits. -/
def quietNet (s : State) : State :=
  let s1 := stopStreams s
  { s1 with net := { s1.net with rx := s1.net.rx.map (fun x => (x.1, if x.2.run == .off then x.2 else
      { rxFresh x.2.offset x.2.base x.2.chans x.2.fmt with joined := x.2.joined })), fwd := [] } }

/-- Both PTP instances stop, and their candidates are absent (R281, R454). -/
def quietPtp (s : State) : State :=
  [0, 1].foldl (fun t i =>
    let t1 := ptpDecide t i (ptpOf t i)
    if (candOf t1 i).present then refLost t1 i else t1) s

/-- Quiet mode is entered or left (R454, R455). -/
def landQuiet (s : State) : State :=
  match s.boot.quietNext with
  | none => s
  | some q =>
    let s0 := { s with boot := { s.boot with quietNext := none } }
    if q = s.boot.quiet then s0
    else if q then
      let s1 := quietNet (reportGroups s0 (joinedGroups s0) false)
      let s2 := haltWork s1
      (quietPtp ({ s2 with boot := { s2.boot with quiet := true } }.setFlag Ix.quietMode 0 true)).alarm Al.quietEntered
    else
      let s1 := { s0 with boot := { s0.boot with quiet := false } }.setFlag Ix.quietMode 0 false
      let s2 := ptpDecide (ptpDecide (reportGroups s1 (joinedGroups s1) true) 0 (ptpOf s1 0)) 1 (ptpOf s1 1)
      let s3 := if s2.paired then { s2 with pair := { s2.pair with due := .join } } else s2
      s3.alarm Al.quietLeft

end Sys2Proof.Machine
end

