-- ==== Sys2Proof/Machine/Check.lean ====
section
/-! DEFINITION. The checks of a write, a stage and a commit: types and ranges (R185, R478), the rules that own the
objects, and the capacity check (R49). A check reads a state whose dictionary is the one the value will meet. -/

namespace Sys2Proof.Machine

/-- The listed instances of an object: subindex and value. -/
def objEntries (s : State) (ix : Nat) : List (Nat × Val) :=
  (s.dict.filter (fun p => p.1 / 16777216 == ix)).map (fun (p : Nat × Val) => (p.1 % 16777216, p.2))

/-- The phase plan of R40 for a house rate and a TICKLEN. -/
def planFor (rate ticklen : Nat) : List Nat :=
  let b := Machine.budget (rateHz rate) ticklen
  let d2 := b * 64 / 100
  let d3 := b * 68 / 100
  let d4 := b * 96 / 100
  let d5 := b * 98 / 100
  [0, 2048, 0, 4096, 0, d2, 0, d3, d2, d4, d2, d5]

/-- The plan the dictionary holds. -/
def planOf (s : State) : List Nat := (upFrom 0 12).map (fun k => s.nat Ix.phasePlan k)

/-- Physical destinations usable in a rate class (R141). -/
def physUsable (cls d : Nat) : Bool := if d ≤ 0x240F then portUsable cls d else d == 0x4000 || d == 0x4001
def physCount (cls : Nat) : Nat := netCount cls + 32 * tdmSlots cls + 18

/-- Usable physical destinations of class DIRECT. -/
def directCount (s : State) (cls : Nat) : Nat :=
  ((objEntries s Ix.egressClass).filter (fun e => e.2.toNat == 1 && physUsable cls e.1)).length

/-- Engine inputs valid in the maps of images loaded on places, by section (R145). -/
def inputCount (s : State) (second : Bool) : Nat :=
  (List.finRange 16).foldl (fun n e =>
    let g := s.engine e
    if g.image.isSome && (placeOf s e).isSome then n + (slotsOf g.loc.inMap second).length else n) 0

/-- The cycle at which the frame of a source is ready for P5 in a rate class (R135). A second-section slot valid in the image
loaded on a place is ready at FIN2 or D4 also while the place is IDLE (DESIGN CHOICE, assumption 129: R135's first bullet
and its last both fit such a slot). -/
def readyCycle (s : State) (cls : Nat) (plan : List Nat) (src : Nat) : Nat :=
  let d3 := listGet 0 7 plan
  let d4 := listGet 0 9 plan
  if 0x3000 ≤ src ∧ src < 0x4000 then
    let e := engineOf s (Fin.ofNat 16 ((src - 0x3000) / 256))
    match (s.engine e).image with
    | none => listGet 0 10 plan
    | some im =>
      let w := outMapOf s src
      if w.getLsbD 31 && w.getLsbD 16 then
        let f := imgNat im.raw 0x54 4
        if f = 0 then d4 else f
      else listGet 0 10 plan
  else if 0x4000 ≤ src ∧ src < 0x4400 ∧ src - 0x4000 < busCount cls then d3
  else listGet 0 10 plan

/-- The egress term (R135). -/
def egressFits (s : State) (cls ticklen : Nat) (plan : List Nat) : Bool :=
  let p0d := listGet 0 1 plan
  let p1d := listGet 0 3 plan
  let open5 := listGet 0 10 plan
  let d5 := listGet 0 11 plan
  let direct := directCount s cls
  let late := ((objEntries s Ix.latSel).filter (fun e => physUsable cls e.1 && s.nat Ix.egressClass e.1 == 0)).map
    (fun e => readyCycle s cls plan e.2.toNat)
  let after (t : Nat) : Nat := (late.filter (fun r => decide (t < r))).length
  decide (direct ≤ 8 * (p1d - p0d) / ticklen) &&
    (open5 :: (late.filter (fun r => decide (open5 < r))).map (fun r => r - 1)).all (fun t =>
      decide (after t * ticklen ≤ 8 * (d5 - t)))

/-- The Lattice term (R145). -/
def latticeFits (s : State) (cls ticklen : Nat) (plan : List Nat) : Bool :=
  let direct := directCount s cls
  decide (ticklen * (inputCount s false + direct) ≤ 64 * (listGet 0 3 plan - listGet 0 1 plan)) &&
    decide (ticklen * (inputCount s true + (physCount cls - direct)) ≤ 64 * (listGet 0 9 plan - listGet 0 5 plan))

/-- Lanes in service (R388). -/
def lanesLive (s : State) : Nat := s.nat Ix.rsvLanes % 128

/-- The Bench term for `e` crosspoints (R130, R388). -/
def benchTerm (s : State) (ticklen e : Nat) (plan : List Nat) : Bool :=
  decide (e * ticklen + 131072 ≤ lanesLive s * (listGet 0 7 plan - listGet 0 1 plan))

/-- Crosspoints enabled in the dictionary, or enabled or RELEASING in the Bench (R130). -/
def enabledXps (s : State) : List Nat :=
  let on := ((objEntries s Ix.xpEn).filter (fun e => e.2.toNat == 1)).map (fun e => e.1)
  on ++ ((s.bench.xps.filter (fun p => (p.2.en || p.2.state == .releasing) && !on.contains p.1)).map (fun p => p.1))
/-- E of R130 in the running configuration. -/
def enabledCount (s : State) : Nat := (enabledXps s).length
/-- E of R130 with the crosspoints that pending commits enable (R171). -/
def enabledAll (s : State) : Nat :=
  let on := enabledXps s
  let coming := (s.shut.pend.flatMap (fun p => (p.changes.filter (fun c => c.ix == Ix.xpEn && c.val.toNat == 1)).map (fun c => c.sub))).eraseDups
  on.length + (coming.filter (fun i => !on.contains i)).length

/-- The capacity check of R49 for a rate, a TICKLEN, a plan and `e` crosspoints: 0, or the part that fails (CAP_CHECK),
engines apart. -/
def capCode (s : State) (e rate ticklen : Nat) (plan : List Nat) : Nat :=
  let cls := rateClass rate
  if !benchTerm s ticklen e plan then 2
  else if !latticeFits s cls ticklen plan then 3
  else if !egressFits s cls ticklen plan then 4
  else 0

/-- The capacity check of the configuration the dictionary holds, with what pending commits enable. -/
def capAll (s : State) : Nat := capCode s (enabledAll s) (s.nat Ix.houseRate) s.ticklen (planOf s)

/-- How long queued frames take to reach the store, or a section's inputs X memory (R102, R103). -/
def copyBound (lead ticklen q : Nat) : Nat := lead + q * (ceilDiv ticklen 4 + 2)

/-- The windows an image's proof needs of a plan (R41, R107). The first section runs from the P1 deadline, or P2 open
where that is later, to D2; the second from P4 open to D4. Its need is what the header records, and never more than the
window the image was proved in. -/
def imageWindows (plan : List Nat) (b : List Byte) : Bool :=
  let n := imgNat b 7 1
  let was := imgPlan b
  let outs (second : Bool) : Nat := (frameAddrs (imgWords b 0x700 256) second).length
  let tail (q : Nat) : Nat := if q = 0 then 0 else copyBound 24 n q
  let handlers := if imgNat b 0x4A 2 / 2 % 8 = 0 then 0 else Config.handlerPath b
  let fin2 := imgNat b 0x54 4
  let need1 := min (listGet 0 5 was - listGet 0 3 was) (imgNat b 0x38 4 + handlers + tail (outs false))
  let need2 := if fin2 ≠ 0 then fin2 - listGet 0 5 was
    else min (listGet 0 9 was - listGet 0 5 was)
      (copyBound 64 n (frameAddrs (imgWords b 0x100 384) true).length + imgNat b 0x3C 4 + handlers + tail (outs true))
  decide (max (listGet 0 3 plan) (listGet 0 4 plan) + need1 ≤ listGet 0 5 plan) &&
    (!(imgNat b 0x4A 2).testBit 0 || decide (listGet 0 8 plan + need2 ≤ listGet 0 9 plan))

/-- Every loaded image is for the rate and tick length in force and fits the windows of the plan: the engine term of
CAP_CHECK (R49). -/
def enginesFit (s : State) (plan : List Nat) : Bool :=
  (List.finRange 16).all (fun e => match (s.engine e).image with
    | some im => imgRate s im.raw && imageWindows plan im.raw
    | none => true)

/-- CAP_CHECK of the running configuration (R49). -/
def capNow (s : State) : Nat :=
  if !enginesFit s (planOf s) then 1 else capCode s (enabledCount s) (s.nat Ix.houseRate) s.ticklen (planOf s)

/-- A phase plan is accepted (R41). -/
def planOk (s : State) (plan : List Nat) : Bool :=
  let op (k : Nat) : Nat := listGet 0 (2 * k) plan
  let dl (k : Nat) : Nat := listGet 0 (2 * k + 1) plan
  (upFrom 0 6).all (fun k => decide (op k ≤ dl k)) && op 0 == 0 && decide (1152 ≤ dl 0) &&
    (upFrom 0 5).all (fun k => decide (dl k ≤ dl (k + 1))) && decide (dl 2 ≤ op 4) && decide (dl 2 ≤ op 5) &&
    decide (dl 1 + 1024 ≤ 1000000000 / s.fs) && decide (dl 5 + 128 ≤ s.budget) &&
    (List.finRange 16).all (fun e => match (s.engine e).image with
      | some im => imageWindows plan im.raw
      | none => true)

/-- The lines that FAB_DLY_IN enables. -/
def linesOn (s : State) : List Nat :=
  ((objEntries s Ix.fabDlyIn).filter (fun e => e.2.toNat.testBit 31)).map (fun e => e.1)

/-- A line lies in the delay store (R365). -/
def lineStored (s : State) (l : Nat) : Bool := decide (64 * dlyBase s l + 4 * dlyLen s l ≤ dlyStoreBytes s)

/-- D is in its range at a tick length (R365). -/
def delayFits (s : State) (tl l : Nat) : Bool :=
  decide (tl ≤ dlyDelay s l) && decide (dlyDelay s l + dlyBack s l ≤ dlyLen s l)

/-- The settings of a delay line stand at a tick length: it lies in the delay store and overlaps no other enabled line
(DEDUCED, assumption 118), D is in its range, and the windows lie in X memory apart from each other (R365). -/
def lineOk (s : State) (tl l : Nat) : Bool :=
  let len := dlyLen s l
  let e := dlyBack s l
  let out := dlyOut s l
  let inp := dlyIn s l
  lineStored s l && delayFits s tl l &&
    decide (inp + tl ≤ 65536) && decide (out + tl + e ≤ 65536) && (decide (inp + tl ≤ out) || decide (out + tl + e ≤ inp)) &&
    ((linesOn s).filter (fun k => k != l)).all (fun k =>
      decide (64 * dlyBase s l + 4 * len ≤ 64 * dlyBase s k) ||
        decide (64 * dlyBase s k + 4 * dlyLen s k ≤ 64 * dlyBase s l))

/-- The total of the enabled delay lines fits a budget (R368). -/
def dlyFits (s : State) (ticklen budget : Nat) : Bool :=
  decide ((linesOn s).foldl (fun n l => n + dlyCost ticklen (dlyBack s l)) 0 ≤ budget)

/-- A phase plan is refused (R41, R49, R368): the code, or 0. -/
def planCheck (s : State) (plan : List Nat) : Nat :=
  if !planOk s plan then Rc.range
  else if !dlyFits s s.ticklen (dlyBudget s.budget plan) then Rc.capacity
  else if capCode s (enabledAll s) (s.nat Ix.houseRate) s.ticklen plan ≠ 0 then Rc.capacity
  else 0

/-- A house rate and a TICKLEN are refused (R37, R49, R136, R149, R214, R242, R368): the code, or 0. LAT_OFFSET
counts as committed, in `com`, not as accepted writes will leave it. Images proved against other values are no ground:
their engines stay idle. A TICKLEN that an enabled delay line's settings do not allow is refused with RANGE
(DEDUCED, assumption 118). -/
def rateCheck (com s : State) (rate ticklen : Nat) : Nat :=
  let cls := rateClass rate
  let plan := if s.flag Ix.planAuto then planFor rate ticklen else planOf s
  let xpBad := (objEntries s Ix.xpEn).any (fun e => e.2.toNat == 1 &&
    (decide (xpCount cls ≤ e.1) || decide (busCount cls ≤ s.nat Ix.xpBus e.1)))
  let offBad := (objEntries com Ix.latOffset).any (fun e => decide (ticklen ≤ e.2.toNat)) ||
    com.shut.pend.any (fun p => p.checked && p.changes.any (fun c => c.ix == Ix.latOffset && decide (ticklen ≤ c.val.toNat)))
  if (linesOn s).any (fun l => !lineOk s ticklen l) then Rc.range
  else if xpBad || offBad || !tdmRateFits s rate || !netRateFits s rate ticklen ||
      !dlyFits s ticklen (dlyBudget (Machine.budget (rateHz rate) ticklen) plan) ||
      capCode s (enabledAll s) rate ticklen plan ≠ 0 then Rc.capacity
  else 0

/-- The static range of a value, by its type and its row (R185, R478). -/
def typeRange (t : Ty) (v : Val) : Bool :=
  match t, v with
  | .bool, .int n => n == 0 || n == 1
  | .time80, .time _ ns => decide (ns < 1000000000)
  | _, _ => true

/-- Crosspoint objects (R115, R127, R139, R140). `direct`: a direct write, judged by the record in force. -/
def xpCheck (s : State) (direct : Bool) (ix i v : Nat) : Nat :=
  if xpCount s.cls ≤ i then (if ix = Ix.xpEn ∧ v = 0 then 0 else Rc.range)
  else if ix = Ix.xpSrc then
    if !srcPopulated v then Rc.range
    else if direct && (xpOf s i).state != .off then Rc.state
    else 0
  else if ix = Ix.xpBus then
    if busCount s.cls ≤ v then Rc.range
    else if direct && (xpOf s i).state != .off then Rc.state
    else 0
  else if ix = Ix.xpEn ∧ v = 1 ∧ busCount s.cls ≤ s.nat Ix.xpBus i then Rc.range
  else 0

/-- Destination objects (R142, R148, R425). -/
def latCheck (s : State) (ix d v : Nat) : Nat :=
  if ix = Ix.latSel ∧ !srcPopulated v then Rc.range
  else if ix = Ix.latOffset ∧ s.ticklen ≤ v then Rc.range
  else if ix = Ix.latTransp ∧ v = 1 ∧ (d = 0x4000 ∨ d = 0x4001) then Rc.range
  else 0

/-- Parameter objects (R178, R179). -/
def paramCheck (s : State) (ix sub v : Nat) : Nat :=
  let p := sub / 1048576
  let w := sub % 4096
  let n := s.nat Ix.pageWords p
  if 16 ≤ p then Rc.noSub
  else if ix = Ix.param then (if n ≤ w then Rc.range else 0)
  else if w % 2 = 1 ∨ n ≤ w + 1 then Rc.range
  else if ix = Ix.paramGainMode then
    if 2 < v % 4 ∨ v / 4 % 16384 ≠ 0 ∨ v / 65536 = 0 then Rc.range else 0
  else 0

/-- A place whose image, command or pages cannot be written now: a reserve place (R373), or one on the move (R384). -/
def placeBusy (s : State) (p : Nat) : Bool :=
  decide (14 ≤ p) || (match s.rsv.move with
    | some m => m.req.place.val == p
    | none => false)

/-- PAGE_BASE and PAGE_WORDS (R177). -/
def pageCheck (s : State) (ix p v : Nat) : Nat :=
  let base := if ix = Ix.pageBase then v else s.nat Ix.pageBase p
  let words := if ix = Ix.pageWords then v else s.nat Ix.pageWords p
  if (if ix = Ix.pageBase then decide (v % 4 ≠ 0) else decide (v % 4 ≠ 0 ∨ 4096 < v)) then Rc.range
  else if !pagesFit base words then Rc.range
  else if placeBusy s p || (s.engine (engineOf s (Fin.ofNat 16 p))).run != .idle then Rc.state
  else 0

/-- Delay line objects (R365, R368). -/
def dlyCheck (s : State) (ix l v : Nat) : Nat :=
  let on := dlyOn s l
  let t := s.setNat ix l v
  if ix = Ix.fabDlyLen ∧ (v % 16 ≠ 0 ∨ v < 32 ∨ 16777216 < v) then Rc.range
  else if ix = Ix.fabDlyIn ∧ (v % 4 ≠ 0 ∨ v / 131072 % 16384 ≠ 0) then Rc.range
  else if ix = Ix.fabDlyOut ∧ (v % 4 ≠ 0 ∨ v / 65536 % 4 ≠ 0 ∨ 60 < v / 65536) then Rc.range
  else if (ix = Ix.fabDlyBase ∨ ix = Ix.fabDlyLen) ∧ !lineStored t l then Rc.range
  else if ix = Ix.fabDlyIn then
    if !v.testBit 31 then 0
    else if on then (if v = s.nat ix l then 0 else Rc.state)
    else if !lineOk t s.ticklen l then Rc.range
    else if !dlyFits t s.ticklen (s.nat Ix.fabDlyBudget) then Rc.capacity
    else 0
  else if ix = Ix.fabDlyDelay then (if !delayFits t s.ticklen l then Rc.range else 0)
  else if on && v ≠ s.nat ix l then Rc.state
  else 0

/-- A FOREIGN direction, and with it its ASRC channels, runs on a synthesizer (R209, R319). -/
def synInUse (s : State) (syn : Nat) : Bool :=
  s.port.dirs.any (fun d => d.2.run != .off && isTdm d.1 && masterSyn d.2.clk == some syn)

/-- Clock objects (R302, R313, R314, R319). -/
def clockCheck (s : State) (ix sub : Nat) (v : Int) : Nat :=
  let n := v.toNat
  if ix = Ix.syspllSelect then (if pllState s n = 2 then 0 else Rc.state)
  else if ix = Ix.medsynFamily then
    if sub < 2 then Rc.access
    else if synInUse s sub && v ≠ s.int Ix.medsynFamily sub then Rc.range
    else 0
  else if ix = Ix.medsynOffset then
    if sub < 2 then Rc.access
    else if synInUse s sub && decide (10000 < s.nat Ix.medsynSlope sub) then Rc.range
    else 0
  else if ix = Ix.rampSeg then
    let tgt := signedOf 32 (n % 4294967296)
    let slope := n / 4294967296 % 65536
    if tgt < -10000000 ∨ 10000000 < tgt ∨ slope = 0 ∨ 10000 < slope then Rc.range
    else if s.nat Ix.rampState (sub / 16) % 16 = 1 then Rc.state
    else 0
  else if ix = Ix.mclkCfg ∨ ix = Ix.wclkOutCfg then
    if s.nat Ix.medsynState (n % 4) = 0 then Rc.state else 0
  else 0

/-- Time, PTP, trigger and reference objects (R267, R269, R279, R297, R299). -/
def timeCheck (s : State) (ix sub : Nat) (v : Val) : Nat :=
  let n := v.toInt
  let late : Bool := decide (s.nat Ix.trigPeriod sub * s.ticklen * 1000000000 ≤ n.toNat * s.fs)
  if ix = Ix.timeRestep then
    let fresh (k : Nat) : Bool := match (candOf s k).last with
      | some m => decide (s.clk.sysCounter ≤ m.2.1 + 1000000000)
      | none => false
    if n = 0 then 0
    else match activeRef s with
      | some k => if carriesTime k && fresh k then 0 else Rc.state
      | none => Rc.state
  else if ix = Ix.ptpIntervals then
    let w := n.toNat
    let b (k : Nat) : Int := signedOf 8 (w / 2 ^ (8 * k) % 256)
    if b 0 < -7 ∨ 1 < b 0 ∨ b 1 < -3 ∨ 3 < b 1 ∨ b 2 < -7 ∨ 5 < b 2 ∨ b 3 < 2 ∨ 10 < b 3 then Rc.range else 0
  else if ix = Ix.trigOffset ∨ ix = Ix.trigWidth then (if late then Rc.range else 0)
  else if ix = Ix.selectedRef then (if n < 0 ∨ 5 < n then Rc.range else 0)
  else if ix = Ix.refFixedQl then (if n < 0 ∨ 15 < n then Rc.range else 0)
  else if ix = Ix.refHardWin then (if n < s.int Ix.refSoftWin then Rc.range else 0)
  else if ix = Ix.refPhaseStep ∨ ix = Ix.refPhaseForce then
    let lim : Int := if ix = Ix.refPhaseStep ∧ s.isDoor then 8192 else 2097152
    let tod : Bool := match activeRef s with
      | some k => carriesTime k
      | none => false
    let st := s.nat Ix.timeState
    if n < -lim ∨ lim < n then Rc.range
    else if tod ∧ (st = 1 ∨ st = 2) then Rc.state
    else 0
  else 0

/-- The partner was heard ACTIVE, or its watched streams, within the last 4 ticks (R328). -/
def peerAlive (s : State) : Bool :=
  let recent (o : Option Nat) : Bool := match o with
    | some t => decide (s.tick ≤ t + 4)
    | none => false
  (recent s.pair.beatTick && peerRole s == 3) || recent s.pair.watched

/-- PAIR_CMD is refused (R327, R328, R334, R341, R454): the code, or 0. -/
def pairCmdCheck (s : State) (v : Nat) : Nat :=
  let role := s.nat Ix.pairRole
  if v = 0 then 0
  else if s.boot.quiet && (v = 1 || v = 2) then Rc.state
  else if v = 1 then (if role ≠ 0 ∨ (s.paired && peerAlive s) then Rc.state else 0)
  else if v = 2 then (if role = 0 && s.paired then 0 else Rc.state)
  else if v = 3 then (if role = 3 ∧ s.paired ∧ peerRole s = 2 then Rc.state else 0)
  else if v = 4 then
    if role = 3 ∧ s.paired ∧ peerRole s = 2 ∧ unrusUp s ∧ s.pair.swap.isNone ∧ s.rsv.move.isNone then 0 else Rc.state
  else if role = 3 ∧ s.paired ∧ peerRole s = 2 then 0
  else Rc.state

/-- A region of X memory of a place (R344). -/
def regionOk (v most : Nat) : Bool :=
  v % 4 == 0 && decide (v / 65536 ≤ most) && decide (v % 65536 + v / 65536 ≤ 65536)

/-- A direct write breaks the terms of the capacity check that it bears on (R49): enabling a crosspoint the Bench term
(R130), selecting a source the egress term (R135), a latency class the Lattice and egress terms, an image those of its
slots. A commit is checked whole (R170). -/
def capCheck (s : State) (ix sub : Nat) (v : Val) : Nat :=
  let plan := planOf s
  let fits (t : State) : Bool := latticeFits t t.cls t.ticklen plan && egressFits t t.cls t.ticklen plan
  let bad : Bool :=
    if ix = Ix.xpEn then v.toNat == 1 && !s.flag ix sub && !benchTerm s s.ticklen (enabledAll (s.setObj ix sub v)) plan
    else if ix = Ix.latSel then v != s.obj ix sub && !egressFits (s.setObj ix sub v) s.cls s.ticklen plan
    else if ix = Ix.egressClass then v != s.obj ix sub && !fits (s.setObj ix sub v)
    else if ix = Ix.engImage then
      let e := engineOf s (Fin.ofNat 16 sub)
      loadStatus s v.toBytes == 0 && !fits (s.setEngine e (putImage v.toBytes 0 (s.engine e)))
    else false
  if bad then Rc.capacity else 0

/-- The rule that owns an object refuses a value (R191): the code, or 0. `direct`: a direct write; `com` holds the
committed values. PLAN_AUTO := 1 is refused like a plan: the plan it brings must pass the tests of R41. -/
def ownCheck (com s : State) (direct : Bool) (ix sub : Nat) (v : Val) : Nat :=
  let n := v.toNat
  if ix = Ix.houseRate then rateCheck com s n s.ticklen
  else if ix = Ix.ticklen then rateCheck com s (s.nat Ix.houseRate) n
  else if ix = Ix.phasePlan then planCheck s (listSet sub n (planOf s))
  else if ix = Ix.planAuto then (if n = 1 then planCheck s (planFor (s.nat Ix.houseRate) s.ticklen) else 0)
  else if ix = Ix.benchSrcOrder then
    (if v.toBytes.length % 2 = 1 ∨ 65536 < v.toBytes.length then Rc.range else 0)
  else if ix = Ix.engCtl then
    if engCtlRefused s (Fin.ofNat 16 sub) n || placeBusy s sub then Rc.state else 0
  else if ix = Ix.engStartTick then (if placeBusy s sub then Rc.state else 0)
  else if ix = Ix.engImage then (if placeBusy s sub || !imageOpen s sub then Rc.state else 0)
  else if 0x0400 ≤ ix ∧ ix ≤ 0x0406 then xpCheck s direct ix sub n
  else if 0x0600 ≤ ix ∧ ix ≤ 0x0607 then latCheck s ix sub n
  else if ix = Ix.genFreq then (if n < 1000 ∨ 20 * n > 9 * s.fs * 1000 then Rc.range else 0)
  else if ix = Ix.pageBase ∨ ix = Ix.pageWords then pageCheck s ix sub n
  else if 0x0712 ≤ ix ∧ ix ≤ 0x0714 then paramCheck s ix sub n
  else if ix = Ix.ctlLogAck then
    (if n ≤ s.nat Ix.ctlLogHead then 0 else Rc.range)
  else if 0x0900 ≤ ix ∧ ix ≤ 0x0907 then tdmCheck s ix sub n
  else if 0x0B00 ≤ ix ∧ ix ≤ 0x0CFF then netCheck s ix sub n
  else if 0x0D00 ≤ ix ∧ ix ≤ 0x0EFF then timeCheck s ix sub v
  else if 0x0F00 ≤ ix ∧ ix ≤ 0x0FFF then clockCheck s ix sub v.toInt
  else if ix = Ix.pairCmd then pairCmdCheck s n
  else if ix = Ix.pairMode then 0
  else if ix = Ix.pairWatch then (if n < 512 ∨ n = 0xFFFF then 0 else Rc.range)
  else if ix = Ix.pairStateRegion then (if regionOk n 4096 then 0 else Rc.range)
  else if ix = Ix.pairGrRegion then (if regionOk n 1024 then 0 else Rc.range)
  else if 0x1110 ≤ ix ∧ ix ≤ 0x1114 then dlyCheck s ix sub n
  else if ix = Ix.rsvCmd then (if n = 0 then 0 else rsvCmdCheck s n)
  else if ix = Ix.rsvSlackRetire then (if s.int Ix.rsvSlackWarn < v.toInt then Rc.range else 0)
  else if 0x1400 ≤ ix ∧ ix ≤ 0x14FF then secCheck s ix sub v
  else if ix = Ix.bootReset then
    (if n = 1 ∧ s.isDoor ∧ s.paired ∧ peerRole s = 2 then Rc.state else 0)
  else if ix = Ix.quietMode then (if n = 1 ∧ s.nat Ix.pairRole ≠ 0 then Rc.state else 0)
  else 0

/-- The value checks of a write or a stage (R166, R191, R478): the code, or 0. -/
def valueCheck (com s : State) (direct : Bool) (r : ObjRow) (sub : Nat) (v : Val) : Nat :=
  if !typeRange r.ty v || !r.rng.ok v then Rc.range
  else
    let c := ownCheck com s direct r.ix sub v
    if c = 0 ∧ direct then capCheck s r.ix sub v else c

/-- A stage keeps only what depends on the value and the configuration in force (R166). -/
def stageCheck (s : State) (r : ObjRow) (sub : Nat) (v : Val) : Nat :=
  let c := valueCheck s s false r sub v
  if c = Rc.range ∨ c = Rc.noSub then c else 0

/-- Crosspoints named by writes and changes of XP objects. -/
def xpNamed (l : List (Nat × Nat)) : List Nat :=
  ((l.filter (fun p => decide (0x0400 ≤ p.1) && decide (p.1 ≤ 0x0406))).map (fun p => p.2)).eraseDups

/-- Slots the pending commits hold. -/
def motionReserved (s : State) : Nat := s.shut.pend.foldl (fun n p => n + p.motion) 0
def takesReserved (s : State) : Nat := s.shut.pend.foldl (fun n p => n + p.takes) 0

/-- The direct writes accepted and not landed, with those of the frame in service: instances and values. -/
def waitingVals (s : State) : List (Nat × Nat × Nat) :=
  s.writes.map (fun w => (w.ix, w.sub, w.val.toNat)) ++ (match s.ctl.serving with
    | some v => v.accepts.map (fun a => (a.ix, a.sub, a.val.toNat))
    | none => [])

/-- Their instances. -/
def waitingWrites (s : State) : List (Nat × Nat) := (waitingVals s).map (fun p => (p.1, p.2.1))

/-- A direct write of instances would exceed the motion limit (R129). -/
def motionFull (s : State) (l : List (Nat × Nat)) : Bool :=
  let new := (xpNamed (l ++ waitingWrites s)).filter (fun i => !inMotion s i (xpOf s i))
  !(xpNamed l).isEmpty && decide (s.nat Ix.xpMotionMax < motionCount s + motionReserved s + new.length)

/-- The last value a list gives an instance. -/
def lastVal (l : List (Nat × Nat × Nat)) (ix sub : Nat) : Nat :=
  l.foldl (fun v p => if p.1 = ix ∧ p.2.1 = sub then p.2.2 else v) 0

/-- The takes that writes which land together will be, from the selectors of `s` to the last values they give, under the
modes, offsets and transparency that land with them (R148, R153). -/
def takesOf (s : State) (l : List (Nat × Nat × Nat)) : Nat :=
  let t := (l.filter (fun p => p.1 == Ix.latTake || p.1 == Ix.latOffset || p.1 == Ix.latTransp)).foldl
    (fun t p => t.setNat p.1 p.2.1 p.2.2) s
  let ds := ((l.filter (fun p => p.1 == Ix.latSel)).map (fun p => p.2.1)).eraseDups
  ds.foldl (fun n d => n + takeCost t d (lastVal l Ix.latSel d)) 0

/-- A direct write of instances would exceed the take limit (R153), beside the takes held, those that commits reserve and
those of the writes that wait. -/
def takeFull (s : State) (l : List (Nat × Nat × Nat)) : Bool :=
  let n := takesOf s (waitingVals s ++ l)
  decide (takesOf s (waitingVals s) < n) && decide (4096 < takesHeld s + takesReserved s + n)

/-- The dictionary with changes applied. -/
def withChanges (s : State) (cs : List Change) : State := cs.foldl (fun t c => t.setObj c.ix c.sub c.val) s

/-- The state a commit is checked against: the committed dictionary with every earlier pending commit (R170). Earlier are
all those accepted before it, whatever their tick (DESIGN CHOICE, assumption 130: R170 does not say whether earlier goes
by acceptance or by landing). -/
def commitBase (s : State) : State := s.shut.pend.foldl (fun t p => withChanges t p.changes) s

/-- One change of a commit is refused by the rule that owns it (R127, R170): given the base and the other changes.
`busy` says which crosspoints are not OFF. -/
def changeCode (base : State) (cs : List Change) (busy : Nat → Bool) (c : Change) : Nat :=
  let t := withChanges base (cs.filter (fun d => !(d.ix == c.ix && d.sub == c.sub)))
  if (c.ix == Ix.xpSrc || c.ix == Ix.xpBus) && busy c.sub then Rc.state
  else
    match objRow c.ix with
    | none => Rc.noObject
    | some r => valueCheck base t false r c.sub c.val

/-- The INCONSISTENT and CAPACITY tests of a commit (R170): 0, 12 or 11. -/
def commitCode (base : State) (cs : List Change) : Nat :=
  let codes := cs.map (changeCode base cs (fun i => base.flag Ix.xpEn i))
  let weighs := cs.any (fun c => (c.ix == Ix.xpEn && c.val.toNat == 1) || c.ix == Ix.latSel || c.ix == Ix.egressClass)
  if codes.any (fun c => c != 0 && c != Rc.capacity) then 12
  else if codes.contains Rc.capacity || (weighs && capAll (withChanges base cs) != 0) then 11
  else 0

/-- Motion slots and take slots a commit reserves (R129, R153). -/
def commitMotion (cs : List Change) : Nat := (xpNamed (cs.map (fun c => (c.ix, c.sub)))).length
def commitTakes (base : State) (cs : List Change) : Nat := takesOf base (cs.map (fun c => (c.ix, c.sub, c.val.toNat)))

end Sys2Proof.Machine
end

