-- ==== Sys2Proof/Machine/Land.lean ====
section
/-! DEFINITION. Landings: what an object does beside taking its value when a direct write or a commit lands (R163,
R174, R175), and what a boundary's landings do together. -/

namespace Sys2Proof.Machine

/-- The partner's last HEARTBEAT, within 4 ticks, shows it ACTIVE (R327). -/
def peerActive (s : State) : Bool :=
  peerRole s == 3 && (match s.pair.beatTick with
    | some b => decide (s.tick - b ≤ 4)
    | none => false)

/-- PAIR_CMD acts at its landing (R327, R334): 1 TAKE, 2 JOIN, 3 ISOLATE, 5 AUDIT. SWAP has acted at its acceptance.
A command that would be refused by now has no effect. -/
def landPairCmd (s0 : State) (v : Nat) : State :=
  let s := s0.setNat Ix.pairCmd 0 0
  if v = 4 ∨ pairCmdCheck s v ≠ 0 then s
  else if v = 1 then toActive s
  else if v = 2 then (if peerActive s then toSync s else s)
  else if v = 3 then toIsolated s
  else if v = 5 then askDigest s
  else s

/-- The plan in force follows the dictionary, with what depends on it (R41, R130, R368). -/
def applyPlan (s : State) (plan : List Nat) : State :=
  let s1 := forN (fun k t => t.setNat Ix.phasePlan k (listGet 0 k plan)) 12 { s with clk := { s.clk with plan := plan } }
  let s2 := s1.setNat Ix.fabDlyBudget 0 (dlyBudget s1.budget plan)
  let s3 := s2.setNat Ix.benchLoadMax 0 (lanesLive s2 * (listGet 0 7 plan - listGet 0 1 plan))
  s3.setNat Ix.capCheck 0 (capNow s3)

/-- PHASE_PLAN has landed (R41): it is in force from this boundary. A plan without a copy window abandons a warm
move (R384). -/
def landPlan (s : State) : State :=
  let s1 := applyPlan (s.setFlag Ix.planAuto 0 false) (planOf s)
  if copyFits s1 then s1 else abandonAuto s1 5

/-- HOUSE_RATE or TICKLEN has landed (R37): the outputs fade, ramp profiles stop (R314), and the value waits for the
stop. -/
def landRate (old : State) (s : State) (ix v : Nat) : State :=
  let clk := if ix = Ix.houseRate then { s.clk with rateNext := some v } else { s.clk with lenNext := some v }
  let s1 := [0, 1].foldl rampStop { (s.setObj ix 0 (old.obj ix 0)) with clk := { clk with fadeInAt := none } }
  match s1.clk.seq with
  | .running => { s1 with clk := { s1.clk with seq := .fading (fadeTicks s1) }, lat := { s1.lat with seq := fadeOut s1.lat.seq } }
  | _ => s1

/-- TIME_RESTEP or TIME_SET has landed (R36, R267): every egress destination fades, and the step is taken n ticks
from here. One that lands while another is still to be taken takes its place, and the n ticks count anew (DESIGN CHOICE: the spec does
not speak of it). -/
def landRestep (s : State) (aim : Option (Nat × Nat)) : State :=
  { s with clk := { s.clk with restep := some (s.tick + fadeTicks s, aim), fadeInAt := none }
           lat := { s.lat with seq := fadeOut s.lat.seq } }

/-- REF_PHASE_STEP or REF_PHASE_FORCE has landed (R297): the lock point moves by the value, in 1/65,536 sample, and the slew
term has that much more to move the time base by. -/
def landPhaseStep (s0 : State) (ix : Nat) (v : Int) : State :=
  let s := s0.setInt ix 0 0
  let d : Int := v * 1000000000 * 281474976710656 / (65536 * (s.fs : Int))
  let s1 := { s with ref := { s.ref with step := s.ref.step + d, stepLeft := s.ref.stepLeft + d } }
  s1.setInt Ix.refPhaseTotal 0 (hold32 (s1.int Ix.refPhaseTotal + v))

/-- ENG_CTL has landed (R110): it acts at the boundary of ENG_START_TICK, or here where that has come. One that lands while
another waits for its tick replaces it, and a later write of ENG_START_TICK does not move the one that waits (DESIGN
CHOICE: the spec speaks of neither). -/
def landEngCtl (s : State) (p : Fin 16) (cmd : Nat) : State :=
  let t := s.nat Ix.engStartTick p.val
  if t ≤ s.tick then
    engCtlDue { s with ctl := { s.ctl with engCtl := mapErase p.val s.ctl.engCtl } } p cmd
  else { s with ctl := { s.ctl with engCtl := mapPut p.val (some (cmd, t)) s.ctl.engCtl } }

/-- A delay line's objects have landed (R365, R366): its enable starts or ends it. -/
def landLine (s : State) (l : Nat) : State :=
  let has := (mapFind l s.fab.dly).isSome
  let dly := if dlyOn s l then (if has then s.fab.dly else mapPut l DlyLine.start s.fab.dly) else mapErase l s.fab.dly
  let s1 := { s with fab := { s.fab with dly := dly } }
  (if dlyOn s1 l then s1 else s1.setNat Ix.fabDlyState l 0).setNat Ix.fabDlyLoad 0 (dlyLoad s1 s1.ticklen)

/-- The engine counter objects of a place have landed (R405): they are the registers of the engine that holds it, and of its
shadow (R395). -/
def landPmuEng (s : State) (ix sub v : Nat) : State :=
  let p := if ix = Ix.pmuEngEvt ∨ ix = Ix.pmuEngCount then sub / 4 else sub
  let k : Fin 4 := Fin.ofNat 4 sub
  eachPmu s (Fin.ofNat 16 p) (fun pm =>
    if ix = Ix.pmuEngEvt then { pm with evt := pm.evt.set k (BitVec.ofNat 8 v) }
    else if ix = Ix.pmuEngCount then { pm with cnt := pm.cnt.set k (BitVec.ofNat 48 v) }
    else if ix = Ix.pmuEngEn then { pm with en := BitVec.ofNat 4 v }
    else if ix = Ix.pmuEngIrq then { pm with irq := BitVec.ofNat 4 v }
    else { pm with user := v == 1 })

/-- The domain of a PTP instance has changed (R269): the masters it has heard are not of it. -/
def landDomain (old s : State) (i : Nat) : State :=
  if old.nat Ix.ptpDomain i = s.nat Ix.ptpDomain i then s
  else ptpDecide s i { ptpOf s i with legA := none, legB := none }

/-- PTP_PROFILE has landed: the defaults of its profile (R269). -/
def landProfile (s : State) (i : Nat) : State :=
  let st2059 : Bool := s.nat Ix.ptpProfile i == 0
  landDomain s ((s.setNat Ix.ptpDomain i (if st2059 then 127 else 0)).setNat Ix.ptpIntervals i (if st2059 then 0x03FDFEFD else 0x03FD01FD)) i

/-- A key has landed in a credential slot (R206, R411). -/
def landCred (s : State) (slot : Nat) (key : List Byte) : State :=
  markSeal { s.setObj Ix.ctlCredWrap slot (.bytes []) with ctl := { s.ctl with keys := mapPut slot key s.ctl.keys } }

/-- A parameter object lands, and its words will flip (R178). -/
def landTouched (s : State) (ix sub : Nat) : State :=
  let s1 := landParam s ix sub
  let p := sub / 1048576
  { s1 with shut := { s1.shut with
      touched := mapPut p (mapGet (fun _ => []) p s1.shut.touched ++ paramWords ix sub) s1.shut.touched } }

/-- Objects of the tick, engines, Bench, Lattice and Shutter at their landing. `old` is the state before the landing
event; the dictionary of `s` holds its values. -/
def landCore (old : State) (s : State) (w : DirectWrite) : State :=
  let ix := w.ix
  let sub := w.sub
  let v := w.val.toNat
  if ix = Ix.houseRate ∨ ix = Ix.ticklen then landRate old s ix v
  else if ix = Ix.phasePlan then landPlan s
  else if ix = Ix.planAuto then
    (if v = 1 then applyPlan s (planFor (s.nat Ix.houseRate) s.ticklen) else s)
  else if ix = Ix.egressClass then landDest old s ix sub
  else if ix = Ix.engCtl then landEngCtl s (Fin.ofNat 16 sub) v
  else if ix = Ix.engImage then loadImage s (Fin.ofNat 16 sub) w.val.toBytes w.priv
  else if 0x0400 ≤ ix ∧ ix ≤ 0x0406 then landXp old s ix sub
  else if 0x0600 ≤ ix ∧ ix ≤ 0x0604 then landDest old s ix sub
  else if ix = Ix.genLevel then landGen old s sub
  else if ix = Ix.genFreq then keepFrames old s sub
  else if ix = Ix.pageBase ∨ ix = Ix.pageWords then rewritePages s (Fin.ofNat 16 sub)
  else if isParam ix then landTouched s ix sub
  else s

/-- Objects of control, ports and network at their landing. -/
def landIo (old : State) (s : State) (w : DirectWrite) : State :=
  let ix := w.ix
  let sub := w.sub
  if ix = Ix.ctlCredWrap then landCred s sub w.val.toBytes
  else if ix = Ix.ctlCredPriv then markSeal s
  else if ix = Ix.ctlLogAck then logWrapCheck s
  else if ix = Ix.tdmEn then landTdmEn s sub (old.nat ix sub)
  else if ix = Ix.tdmRxFmt ∨ ix = Ix.tdmRxClk then landRestart s (2 * sub)
  else if ix = Ix.tdmTxFmt ∨ ix = Ix.tdmTxClk then landRestart s (2 * sub + 1)
  else if ix = Ix.tdmRxMask then landMask s (2 * sub)
  else if ix = Ix.tdmTxMask then landMask s (2 * sub + 1)
  else if ix = Ix.aesiEn then landAesEn s sub (old.flag ix sub)
  else if ix = Ix.aesiAsrc then landAesAsrc s sub (old.flag ix sub)
  else if ix = Ix.aesiNpcmMode then landNpcmMode s sub
  else if ix = Ix.nrxEn then landRxEn s sub (old.flag ix sub)
  else if ix = Ix.nrxOffset then landRxOffset s sub
  else if ix = Ix.ntxEn then landTxEn s sub
  else if ix = Ix.netPortSpeed then landSpeed s sub (old.nat ix sub)
  else if ix = Ix.ntxDst ∨ ix = Ix.ntxPair ∨ ix = Ix.netPortAddr then landWatch old s
  else s

/-- Objects of time, references and clocks at their landing. -/
def landClocks (old : State) (s : State) (w : DirectWrite) : State :=
  let ix := w.ix
  let sub := w.sub
  let v := w.val.toNat
  if ix = Ix.timeRestep then
    let s1 := s.setNat ix 0 0
    if v = 1 then landRestep s1 none else s1
  else if ix = Ix.timeSet then
    (match w.val with
      | .time sec ns => landRestep s (some (sec, ns))
      | _ => s)
  else if ix = Ix.ptpRole ∨ ix = Ix.ptpPriority then ptpDecide s sub (ptpOf s sub)
  else if ix = Ix.ptpDomain then landDomain old s sub
  else if ix = Ix.ptpProfile then landProfile s sub
  else if 0x0D40 ≤ ix ∧ ix ≤ 0x0D46 then landTrig s sub ix
  else if ix = Ix.refHoldOsc then
    landOscTol (if s.ref.tolWritten then s else s.setNat Ix.refOscTol 0 (if v = 0 then 5000 else 100))
  else if ix = Ix.refOscTol then landOscTol { s with ref := { s.ref with tolWritten := true } }
  else if ix = Ix.refPhaseStep ∨ ix = Ix.refPhaseForce then landPhaseStep s ix w.val.toInt
  else if ix = Ix.syspllSelect then landPllSelect s
  else if ix = Ix.medsynFamily then landMedsynFamily old s sub
  else if ix = Ix.medsynOffset then landMedsynOffset s sub
  else if ix = Ix.clkSyncMode then landSyncMode old s
  else if ix = Ix.wclkOutCfg then setClockOut s 0
  else if ix = Ix.mclkCfg then setClockOut s (sub + 1)
  else s

/-- Objects of the pair, fabric, reserves, counters, security, cue stage and start-up at their landing. -/
def landRest (old : State) (s : State) (w : DirectWrite) : State :=
  let ix := w.ix
  let sub := w.sub
  let v := w.val.toNat
  if ix = Ix.pairCmd then landPairCmd s v
  else if ix = Ix.pairMode then
    (let s0 := if v = 0 ∧ s.isDoor ∧ s.pair.swap.isSome then abandonSwap s else s
     let s1 := landWatch old (if v = 0 then s0.setNat Ix.pairLink 0 0 else s0)
     if v = 0 ∧ (s.nat Ix.pairRole = 1 ∨ s.nat Ix.pairRole = 2) then toIsolated s1 else s1)
  else if ix = Ix.pairWatch then landWatch old s
  else if 0x1110 ≤ ix ∧ ix ≤ 0x1114 then landLine s sub
  else if ix = Ix.rsvCmd then landRsvCmd (s.setNat ix 0 0) v
  else if 0x1300 ≤ ix ∧ ix ≤ 0x1304 then landPmuEng s ix sub v
  else if ix = Ix.secDbgResponse then dbgRespond (s.setObj ix 0 (.bytes [])) w.val.toBytes
  else if 0x1400 ≤ ix ∧ ix ≤ 0x14FF then landSec s ix sub w.val
  else if ix = Ix.cueEn then landCueEn s (Fin.ofNat 2 sub) (old.flag ix sub)
  else if ix = Ix.cueFsVpk then landCueVpk s (Fin.ofNat 2 sub) (old.nat ix sub)
  else if ix = Ix.bootFwImage then startFwUpdate s w.val.toBytes
  else if ix = Ix.quietMode then
    { s.setFlag ix 0 s.boot.quiet with boot := { s.boot with quietNext := some (v == 1) } }
  else s

/-- What an object does at its landing, beside its value. -/
def landEffect (old : State) (s : State) (w : DirectWrite) : State :=
  if w.ix < 0x0800 then landCore old s w
  else if w.ix < 0x0D00 then landIo old s w
  else if w.ix < 0x1000 then landClocks old s w
  else landRest old s w

/-- The records whose changes the landing list has lost have uncorrectable errors once the landings are made (R137, R159,
R172). -/
def faultLost (s : State) : State :=
  if s.clk.commitDue then s
  else
    s.shut.corrupt.foldl (fun t c => if c.1 then xpFault t c.2 else selFault t c.2) { s with shut := { s.shut with corrupt := [] } }

/-- The order in which the changes of one landing event act on parameter pages (R179): PARAM, PARAM_GAIN,
PARAM_GAIN_MODE. -/
def paramLast (ws : List DirectWrite) : List DirectWrite :=
  ws.filter (fun w => !isParam w.ix) ++ ws.filter (fun w => w.ix == Ix.param) ++
    ws.filter (fun w => w.ix == Ix.paramGain) ++ ws.filter (fun w => w.ix == Ix.paramGainMode)

/-- One landing event: every value enters the dictionary, then each object acts (R163, R174). -/
def landAll (s : State) (ws : List DirectWrite) : State :=
  let s1 := ws.foldl (fun t w => t.setObj w.ix w.sub w.val) s
  (paramLast ws).foldl (fun t w => landEffect s t w) s1

/-- A staged change as its commit lands it. -/
def Change.asWrite (c : Change) : DirectWrite :=
  { ix := c.ix, sub := c.sub, val := c.val, mbox := none, after := 0, gen := none, priv := 2 }

/-- The commit of this tick lands (R174, R175): one generation for the whole. Of a mirrored commit the changes to pair
objects apply (R333). -/
def landCommit (s : State) : State :=
  let s0 := { s with clk := { s.clk with commitDue := false } }
  match s0.shut.pend.find? (fun p => p.checked && p.tick == s0.tick) with
  | none => s0
  | some p =>
    let cs := if p.mirrored then p.changes.filter (fun c => isPairObj c.ix) else p.changes
    let s1 := bumpGen (landAll s0 (cs.map Change.asWrite)) none
    endCommit s1 p 0 (s1.nat Ix.shutGen)

/-- One direct write lands (R162, R163): a pair object takes a generation, HOUSE_RATE and TICKLEN when they apply; an engine that asked for it gets its
reply (R106). -/
def landWrite (s : State) (w : DirectWrite) : State :=
  let s1 := landAll s [w]
  let s2 := if isPairObj w.ix && !isGrid w.ix then bumpGen s1 w.gen else s1
  match w.mbox with
  | none => s2
  | some (e, q) =>
    let word0 : Word := BitVec.ofNat 32 (0x81 * 16777216 + q % 256 * 65536)
    let gen : List Word := if isPairObj w.ix then [BitVec.ofNat 32 (s2.nat Ix.shutGen)] else []
    { s2 with ctl := { s2.ctl with mail := s2.ctl.mail ++ [(e, [word0, 0] ++ gen)] } }

/-- The direct writes that land at this boundary, and those that wait for a later one (R176, R178): at most 2,048 to
Bench and Lattice objects, and 256 parameter writes to a place. -/
def landingNow (tick : Nat) : List DirectWrite → Nat → Map Nat → List DirectWrite × List DirectWrite
  | [], _, _ => ([], [])
  | w :: t, n, ps =>
    let media := decide (0x0400 ≤ w.ix) && decide (w.ix ≤ 0x06FF)
    let p := w.sub / 1048576
    let used := mapGet (fun _ => 0) p ps
    let waits := decide (tick < w.after) || (media && decide (2048 ≤ n)) || (isParam w.ix && decide (256 ≤ used))
    let (now, later) := landingNow tick t (if media && !waits then n + 1 else n)
      (if isParam w.ix && !waits then mapPut p (used + 1) ps else ps)
    if waits then (now, w :: later) else (w :: now, later)

/-- The direct writes of this boundary land, in the order they were accepted (R163, R175). -/
def landWrites (s : State) : State :=
  let (now, later) := landingNow s.tick s.writes 0 []
  now.foldl landWrite { s with clk := { s.clk with writesDue := false }, writes := later }

/-- The pages of every place with a parameter change at this boundary flip (R178). -/
def flipPages (s : State) : State :=
  s.shut.touched.foldl (fun t p => flipPage t (Fin.ofNat 16 p.1) p.2) { s with shut := { s.shut with touched := [] } }

/-- The parameter changes of one landing event, on a state of their own. -/
def paramEvent (s : State) (ws : List DirectWrite) : State :=
  let ps := ws.filter (fun w => isParam w.ix)
  let s1 := ps.foldl (fun t w => t.setObj w.ix w.sub w.val) s
  (paramLast ps).foldl (fun t w => landTouched t w.ix w.sub) s1

/-- The Shutter writes the back pages for the landings of the next boundary (R178): of a commit that is frozen, and of
the direct writes. -/
def preparePages (s : State) : State :=
  let t0 := match s.shut.pend.find? (fun p => p.frozen && p.tick == s.tick + 1) with
    | some p => paramEvent s (p.changes.map Change.asWrite)
    | none => s
  let now := (landingNow (s.tick + 1) (s.writes.filter (fun w => isParam w.ix)) 0 []).1
  let t := now.foldl (fun t w => paramEvent t [w]) t0
  t.shut.touched.foldl (fun u q => preparePage t u (Fin.ofNat 16 q.1) q.2) s

/-- The landings of this boundary are finished, and what they do together is done: triggers, clock synthesis, class changes, page
flips, the start of the Bench pass, quiet mode. -/
def settle (s : State) : State :=
  if s.boot.stage ≠ 7 then s
  else
    let s1 := if s.clk.commitDue then landCommit s else s
    let s2 := faultLost (if s1.clk.writesDue then landWrites s1 else s1)
    landQuiet (openBench (flipPages (classSteps (synSettle (trigSettle s2)))))

end Sys2Proof.Machine
end

