-- ==== Sys2Proof/Machine/Frames.lean ====
section
/-! DEFINITION. Command frames: their form, the checks of R195, replies, and the queues of both transports (R188 to
R196). -/

namespace Sys2Proof.Machine

/-- Operation codes (R190). -/
abbrev Oc.read : Nat := 0x01
abbrev Oc.write : Nat := 0x02
abbrev Oc.stage : Nat := 0x03
abbrev Oc.commit : Nat := 0x04
abbrev Oc.abort : Nat := 0x05
abbrev Oc.subscribe : Nat := 0x06
abbrev Oc.unsubscribe : Nat := 0x07
abbrev Oc.openSess : Nat := 0x08
abbrev Oc.close : Nat := 0x09
abbrev Oc.domOpen : Nat := 0x0A
abbrev Oc.domSeg : Nat := 0x0B
abbrev Oc.domClose : Nat := 0x0C

/-- Status codes beside those of the object checks (R191). -/
abbrev Rc.subFull : Nat := 0x0111
abbrev Rc.noHandle : Nat := 0x0112
abbrev Rc.tooLarge : Nat := 0x0113
abbrev Rc.noCredential : Nat := 0x0114
abbrev Rc.noSession : Nat := 0x0115

/-- A little-endian field of a byte string; bytes beyond its end read as 0. -/
def field (b : List Byte) (off n : Nat) : Nat := natLE ((b.drop off).take n)

/-- The operations that `n` operation headers describe, where they describe the bytes exactly (R190). -/
def parseOps : Nat → List Byte → Option (List (Nat × Op))
  | 0, b => if b.isEmpty then some [] else none
  | n + 1, b =>
    let len := field b 2 2
    if b.length < 12 ∨ len < 12 ∨ b.length < len ∨ len % 4 ≠ 0 then none
    else
      let op : Op := { ty := field b 1 1, index := field b 4 2, count := field b 6 2, sub := field b 8 3,
                       set := field b 11 1, data := (b.take len).drop 12 }
      (parseOps n (b.drop len)).map (fun t => (field b 0 1, op) :: t)

/-- Header fields (R190). -/
def frTagged (b : List Byte) : Bool := field b 1 1 % 2 == 1
def frSession (b : List Byte) : Nat := field b 2 1
def frCount (b : List Byte) : Nat := field b 3 1
def frCounter (b : List Byte) : Nat := field b 8 8

/-- The bytes a tag covers, and the tag (R193). -/
def frBody (b : List Byte) : List Byte := if frTagged b then b.take (b.length - 16) else b
def frTag (b : List Byte) : List Byte := b.drop (b.length - 16)

/-- The operations of a frame of the form of R190; none where FORMAT refuses it. Session 0 stands in a frame of one OPEN
only, with its 12 bytes of values (R192). -/
def frameOps (b : List Byte) : Option (List (Nat × Op)) :=
  let least := if frTagged b then 32 else 16
  if b.length < least ∨ 1472 < b.length ∨ field b 4 2 ≠ b.length ∨ field b 6 2 ≠ 0 ∨ 1 < field b 1 1 ∨ 64 < frCount b then none
  else
    match parseOps (frCount b) ((frBody b).drop 16) with
    | none => none
    | some ops =>
      if frSession b ≠ 0 then some ops
      else
        match ops with
        | [(code, op)] => if code = Oc.openSess ∧ op.data.length = 12 then some ops else none
        | _ => none

/-- A header (R190). -/
def header (flags session ops len counter : Nat) : List Byte :=
  [1] ++ bytesLE 1 flags ++ bytesLE 1 session ++ bytesLE 1 ops ++ bytesLE 2 len ++ [0, 0] ++ bytesLE 8 counter

/-- One result (R190). -/
def resultBytes (r : OpResult) : List Byte :=
  let d := padTo 4 r.data
  bytesLE 1 r.op ++ [0] ++ bytesLE 2 (8 + d.length) ++ bytesLE 2 r.status ++ [0, 0] ++ d

/-- A reply: STATUS, GEN and TICK of the snapshot and the results, tagged under a key where one is given (R190, R193). -/
def replyBytes (session counter status gen tick : Nat) (rs : List OpResult) (key : Option (List Byte)) : List Byte :=
  let body := bytesLE 2 status ++ [0, 0] ++ bytesLE 4 gen ++ bytesLE 8 tick ++ (rs.map resultBytes).flatten
  match key with
  | none => header 2 session rs.length (16 + body.length) counter ++ body
  | some k =>
    let msg := header 3 session rs.length (32 + body.length) counter ++ body
    msg ++ Config.cmac k msg

/-- Send a frame to a peer: over UDP, or into the response queue of the host port (R188, R202). -/
def sendTo (s : State) (via : Via) (peer port : Nat) (b : List Byte) : State :=
  match via with
  | .udp => s.emit (.ctlFrame .udp peer port b)
  | .hostPort => { s with hp := { s.hp with rsp := s.hp.rsp ++ [b] } }

/-- The number of a transport in alarms and counts (R205, R206). -/
def viaNo : Via → Nat
  | .udp => 0
  | .hostPort => 1

/-- A frame is refused whole (R190, R195): the status and the last completed tick, no results, no tag. -/
def refuse (s : State) (q : Queued) (status : Nat) : State :=
  let s1 := s.addHold Ix.ctlFramesRej status 1
  let s2 := if status = 4 ∨ status = 5 then s1.alarm (Al.ctlTagReject.src (viaNo q.via)) (frSession q.bytes)
    else if status = 6 then s1.alarm (Al.ctlCounterReject.src (viaNo q.via)) (frSession q.bytes)
    else s1
  sendTo s2 q.via q.peer q.port
    (replyBytes (frSession q.bytes) (frCounter q.bytes) status (s2.nat Ix.shutGen) s2.clk.lastDone [] none)

/-- The frame a transport's controller starts to serve, with its snapshot (R164, R189). -/
def beginServing (s : State) (q : Queued) (session : Nat) (keyed : Bool) (ops : List (Nat × Op)) : State :=
  let v : Serving :=
    { via := q.via, session := session, peer := q.peer, port := q.port, counter := frCounter q.bytes, keyed := keyed
      bytes := q.bytes, ops := ops, results := [], accepts := [], mirrored := false, closing := false
      gen := s.nat Ix.shutGen, tick := s.clk.lastDone, shot := snapshot s }
  { s with ctl := { s.ctl with serving := some v } }

/-- Count an accepted frame (R206). -/
def countOk (s : State) (via : Via) : State := s.addHold Ix.ctlFramesOk (viaNo via) 1

/-- An OPEN frame (R192, R195). One with TAGGED = 0 for an enabled slot is refused with TAG_REQUIRED whatever the tag policy
(DESIGN CHOICE, assumption 139: R192 has it sent with TAGGED = 1 and does not say what answers one that is not). -/
def takeOpen (s : State) (q : Queued) (ops : List (Nat × Op)) : State :=
  let data := match ops with
    | (_, op) :: _ => op.data
    | [] => []
  let slot := field data 0 1
  if 16 ≤ slot ∨ s.nat Ix.ctlCredPriv slot = 0 then
    let r : OpResult := { op := Oc.openSess, status := Rc.noCredential, data := bytesLE 4 0 }
    sendTo ((countOk s q.via).alarm (Al.ctlOpenReject.src (viaNo q.via)) 0) q.via q.peer q.port
      (replyBytes 0 (frCounter q.bytes) 0 (s.nat Ix.shutGen) s.clk.lastDone [r] none)
  else if !frTagged q.bytes then refuse s q 4
  else if Config.cmac (credKey s slot) (frBody q.bytes) ≠ frTag q.bytes then refuse s q 5
  else
    let passes : Bool := match mapGet (fun _ => none) slot s.ctl.openCtr with
      | some c => decide (c < frCounter q.bytes)
      | none => true
    if !passes then refuse s q 6
    else
      let s1 := { s with ctl := { s.ctl with openCtr := mapPut slot (some (frCounter q.bytes)) s.ctl.openCtr } }
      beginServing (countOk s1 q.via) q 0 true ops

/-- A frame of a session (R194, R195). A frame identical to the session's last is answered again and not carried out. -/
def takeFrame (s : State) (q : Queued) (ops : List (Nat × Op)) : State :=
  let k := frSession q.bytes
  match sessOf s k with
  | none => refuse s q 3
  | some x =>
    if x.via ≠ q.via ∨ x.peer ≠ q.peer then refuse s q 3
    else
      let policy := s.nat Ix.ctlTagPolicy
      let needs : Bool := x.tagAll || decide (policy = 2) || (decide (policy = 1) && decide (2 ≤ x.priv))
      if needs ∧ !frTagged q.bytes then refuse s q 4
      else if frTagged q.bytes ∧ Config.cmac x.key (frBody q.bytes) ≠ frTag q.bytes then refuse s q 5
      else if frCounter q.bytes ≤ x.counter then
        if q.bytes = x.lastFrame then
          if x.lastReply.isEmpty ∨ s.pair.replies.any (fun r => r.bytes == x.lastReply) then s
          else sendTo s q.via q.peer q.port x.lastReply
        else refuse s q 6
      else
        let y := { x with counter := frCounter q.bytes, port := q.port, lastFrame := q.bytes, lastReply := [] }
        beginServing (countOk (setSess s k (some y)) q.via) q k (frTagged q.bytes) ops

/-- The controller takes a frame (R195). -/
def takeQueued (s : State) (q : Queued) : State :=
  if field q.bytes 0 1 ≠ 1 then refuse s q 1
  else
    match frameOps q.bytes with
    | none => refuse s q 2
    | some ops => if frSession q.bytes = 0 then takeOpen s q ops else takeFrame s q ops

/-- The frames of the response queue of the host port, with a place for each reply still to come: of the frame in service,
and of those held back (R331). A reply is never dropped (R202), so neither a command nor a notification takes its place
(DESIGN CHOICE: the spec does not say how the place of a coming reply is kept). -/
def hpFrames (s : State) : Nat :=
  let served : Nat := match s.ctl.serving with
    | some v => if v.via = .hostPort then 1 else 0
    | none => 0
  s.hp.rsp.length + served + (s.pair.replies.filter (fun r => !r.udp)).length

/-- Frames of a transport in the queue. -/
def queuedOn (s : State) (via : Via) : Nat := (s.ctl.queue.filter (fun q => q.via == via)).length

/-- The command in HP_CMDBUF is taken, once the queue has room and the response queue is not full (R188, R202). -/
def hpTake (s : State) : State :=
  if s.hp.busy && decide (queuedOn s .hostPort < 16) && decide (hpFrames s < 32) then
    let q : Queued := { via := .hostPort, peer := 0, port := 0, bytes := hpCommand s s.hp.goLen.toNat }
    { s with hp := { s.hp with busy := false }, ctl := { s.ctl with queue := s.ctl.queue ++ [q] } }
  else s

/-- The oldest frame, where it can be answered: a frame of the host port waits while its response queue is full, and the
frames after it wait with it (R189). -/
def nextQueued (s : State) : Option Queued :=
  match s.ctl.queue with
  | [] => none
  | q :: _ => if q.via == .udp || decide (hpFrames s < 32) then some q else none

/-- The controller takes frames until it serves one or none is left, `n` at most. -/
def takeFrames : Nat → State → State
  | 0, s => s
  | n + 1, s =>
    if s.ctl.serving.isSome || s.sec.hkHalted || !s.answers then s
    else
      match nextQueued s with
      | none => s
      | some q => takeFrames n (hpTake (takeQueued { s with ctl := { s.ctl with queue := s.ctl.queue.drop 1 } } q))

/-- The controller goes on (R189). -/
def serveNext (s : State) : State := takeFrames 33 (hpTake s)

/-- The control port is an IPv4 host at an address (R188). -/
def controlHost (s : State) (addr : BitVec 32) : Bool :=
  s.answers && s.nat Ix.ctlIpv4Addr != 0 && addr.toNat == s.nat Ix.ctlIpv4Addr

/-- The SESSION byte of a frame dropped at a full queue is the detail of CTL_FRAME_DROP (R204). -/
def dropFrame (s : State) (via : Via) (session : Nat) : State :=
  (s.addHold Ix.ctlFramesDrop (viaNo via) 1).alarm (Al.ctlFrameDrop.src (viaNo via)) session

/-- COMMAND_FRAME_RECEIVED (R188): an Ethernet frame for the control port. Only untagged, unfragmented datagrams to UDP
port 41814 of its address are commands, and none from the witness (R336). -/
def execCommandFrameReceived (addr : FrameAddr) (sport dport : Half) (vlan fragment : Bool) (bytes : List Byte) (s : State) :
    Host.Outcome State Fault Refusal :=
  let witness : Bool := s.nat Ix.pairWitnessAddr != 0 && addr.src.toNat == s.nat Ix.pairWitnessAddr &&
    sport.toNat == s.nat Ix.pairWitnessPort
  .next (if !controlHost s addr.dst ∨ vlan ∨ fragment ∨ dport.toNat ≠ 41814 ∨ witness then s
    else if 16 ≤ queuedOn s .udp then dropFrame s .udp (frSession bytes)
    else
      let q : Queued := { via := .udp, peer := addr.src.toNat, port := sport.toNat, bytes := bytes }
      serveNext { s with ctl := { s.ctl with queue := s.ctl.queue ++ [q] } })

/-- GO is written to HP_CMDCTL (R201, R202): the command of LEN bytes is submitted; while BUSY it is ignored. Its SESSION
byte is that of HP_CMDBUF, whose writes are ignored meanwhile. -/
def cmdSubmit (s : State) : State :=
  if s.hp.busy then dropFrame { s with hp := { s.hp with drop := true } } .hostPort (frSession (hpCommand s 16))
  else serveNext { s with hp := { s.hp with busy := true, goLen := s.hp.cmdLen } }

/-- HP_CMD_GO (R201, R202): HP_CMDCTL is written with LEN and GO = 1. -/
def execHpCmdGo (len : BitVec 11) (s : State) : Host.Outcome State Fault Refusal :=
  .next (if !s.answers then s else cmdSubmit { s with hp := { s.hp with cmdLen := len } })

/-- POP (R201): the head of the response queue is discarded, and the controller may go on. -/
def rspPop (s : State) : State := serveNext { s with hp := { s.hp with rsp := s.hp.rsp.drop 1 } }

/-- HP_RSP_POP (R201, R202). -/
def execHpRspPop (s : State) : Host.Outcome State Fault Refusal :=
  .next (if !s.answers then s else rspPop s)

/-- CONTROL_ARP_REQUEST (R188): answered where an untagged frame asks for the control port's address. -/
def execControlArpRequest (target : BitVec 32) (ask : ArpAsk) (s : State) : Host.Outcome State Fault Refusal :=
  .next (if controlHost s target && !ask.vlan then s.emit (.arpReply ask.ip.toNat) else s)

/-- CONTROL_ICMP_ECHO (R188): tagged frames and fragments are dropped. -/
def execControlIcmpEcho (target : BitVec 32) (ask : EchoAsk) (payload : List Byte) (s : State) :
    Host.Outcome State Fault Refusal :=
  .next (if controlHost s target && !ask.vlan && !ask.fragment then s.emit (.icmpReply ask.ip.toNat payload) else s)

end Sys2Proof.Machine
end

