-- ==== Sys2Proof/Machine/Control.lean ====
section
/-! DEFINITION. The operations of a command frame (R165 to R173, R186 to R199), and the completion of the frame
(R189, R331). -/

namespace Sys2Proof.Machine

/-- What an operation answers: its status, its result data, the state, and the frame in service after it. -/
structure OpAns where
  status : Nat
  data : List Byte
  st : State
  sv : Serving
  deriving DecidableEq, Repr

/-- A refusal: the reason and the offset of the first failing instance (R191). -/
def refusal (s : State) (v : Serving) (status offset : Nat) : OpAns :=
  { status := status, data := bytesLE 4 offset, st := s, sv := v }

/-- The result of an operation carried out. -/
def carried (s : State) (v : Serving) (data : List Byte) : OpAns := { status := 0, data := data, st := s, sv := v }

/-- The minimum privilege to read an object (R187). -/
def readPriv (ix : Nat) : Nat := if 0x1300 ≤ ix ∧ ix ≤ 0x14FF then 2 else 1

/-- The minimum privilege to write an object (R187). -/
def writePriv (ix : Nat) (keyed : Bool) : Nat :=
  if 0x0400 ≤ ix ∧ ix ≤ 0x07FF then (if keyed then 2 else 1)
  else if 0x0800 ≤ ix ∧ ix ≤ 0x08FF then (if ix = Ix.ctlLogAck then 1 else 3)
  else if 0x1400 ≤ ix ∧ ix ≤ 0x14FF then 3
  else 2

/-- A class whose writes need a keyed frame (R186). -/
def Access.keyed : Access → Bool
  | .rwk => true
  | .rwsk => true
  | _ => false
/-- A class that takes direct writes. -/
def Access.writable : Access → Bool
  | .ro => false
  | _ => true
/-- A class that can be staged. -/
def Access.stages : Access → Bool
  | .rws => true
  | .rwsk => true
  | _ => false

/-- A unit that stands by refuses changes of pair objects (R326). -/
def notActive (s : State) (ix : Nat) : Bool := (s.nat Ix.pairRole == 1 || s.nat Ix.pairRole == 2) && isPairObj ix

/-- The first of some checks that fails. -/
def firstCode : List (Bool × Nat) → Nat
  | [] => 0
  | (bad, c) :: t => if bad then c else firstCode t

/-- The session of the frame in service. -/
def sessOfServing (s : State) (v : Serving) : Option Session := sessOf s v.session

/-- The privilege of the frame in service. -/
def privOf (s : State) (v : Serving) : Nat :=
  match sessOf s v.session with
  | some x => x.priv
  | none => 0

/-- The instances of an operation. -/
def opSubs (op : Op) : List Nat := upFrom op.sub op.count

/-- The offset of the first instance outside an object (R184). -/
def badSub (r : ObjRow) (op : Op) : Option Nat := (upFrom 0 op.count).find? (fun i => !r.subs.has (op.sub + i))

/-- The state as it will stand once every accepted direct write has landed, with those of the frame in service and a
house rate and TICKLEN that wait for their stop: what a further write is judged by. -/
def afterWrites (s : State) (v : Serving) : State :=
  let s0 := match s.clk.rateNext with
    | some r => s.setNat Ix.houseRate 0 r
    | none => s
  let s00 := match s.clk.lenNext with
    | some n => s0.setNat Ix.ticklen 0 n
    | none => s0
  let s1 := s.writes.foldl (fun t w => t.setObj w.ix w.sub w.val) s00
  v.accepts.foldl (fun t a => t.setObj a.ix a.sub a.val) s1

/-- LAT_DEST_STATE [1:0] of two groups of causes together (R147). -/
def joinFade (a b : Nat) : Nat :=
  if a = 2 ∨ b = 2 then 2 else if a = 1 ∨ b = 1 then 1 else if a = 3 ∨ b = 3 then 3 else 0

/-- LAT_SRC_STATE of a source that no tick's end has listed (R161), by the rate class of the snapshot: silence,
generators and unnamed buses are present, an unmapped engine output is not usable, an ingress source without a frame is
absent. `ran`: a tick has ended; before the first it is the default 0. -/
def srcDefault (ran : Bool) (cls i : Nat) : Nat :=
  if !ran || !srcPopulated i then 0
  else if 0x7F00 ≤ i then 1
  else if 0x4000 ≤ i then (if i - 0x4000 < busCount cls then 1 else 3)
  else if 0x3000 ≤ i then 3
  else if portUsable cls i then 2
  else 3

/-- The value of an instance in a snapshot (R164): a pair object as committed, any other from the end of the last
completed tick. -/
def readFrom (n : Snapshot) (ix sub : Nat) : Val :=
  if ix = Ix.shutSetContent then
    (match mapFind sub n.sets with
      | some x => .bytes (changesBytes x.changes)
      | none => .bytes [])
  else if isPairObj ix then dictGet ix sub n.dict
  else if ix = Ix.latDestState ∧ isPhysDest sub then
    let w := (dictGet ix sub n.snap).toNat
    .int (w - w % 4 + joinFade (w % 4) n.shared : Nat)
  else if ix = Ix.latSrcState then
    (match mapFind (objKey ix sub) n.snap with
      | some w => w
      | none =>
        let ran := (mapFind (objKey ix 0x7F00) n.snap).isSome
        .int (srcDefault ran (rateClass (dictGet Ix.houseRate 0 n.snap).toNat) sub : Nat))
  else dictGet ix sub n.snap

/-- The value a read returns, from the frame's snapshot (R164). -/
def readVal (v : Serving) (ix sub : Nat) : Val := readFrom v.shot ix sub

/-- What a read does beside answering: EGRESS_CLIP may be raised again (R134). -/
def noteRead (s : State) (ix sub : Nat) : State :=
  if ix = Ix.egressClipCount then s.setDest sub { s.dest sub with clipped := false } else s

/-- READ (R186, R190, R191). -/
def doRead (s : State) (v : Serving) (op : Op) : OpAns :=
  match objRow op.index with
  | none => refusal s v Rc.noObject 0
  | some r =>
    let c := firstCode [(op.count == 0, Rc.noSub), (r.acc == .wo, Rc.access), (r.ty == .domain, Rc.domain),
      (op.ty != r.ty.code, Rc.type), (!op.data.isEmpty, Rc.type), (decide (privOf s v < readPriv r.ix), Rc.privilege)]
    if c ≠ 0 then refusal s v c 0
    else
      match badSub r op with
      | some i => refusal s v Rc.noSub i
      | none =>
        if r.ix = Ix.secDbgChallenge then
          if dbgLocked s then refusal s v Rc.state 0
          else
            let (n, s1) := dbgChallenge s
            carried s1 v (r.ty.wire (.bytes n))
        else
          let s1 := (opSubs op).foldl (fun t k => noteRead t r.ix k) s
          carried s1 v ((opSubs op).map (fun k => r.ty.wire (readVal v r.ix k))).flatten

/-- A wrapped key is unwrapped under the writer's session key (R206, R423). -/
def wraps (ix : Nat) : Bool := ix == Ix.ctlCredWrap || ix == Ix.secRecoveryWrap

/-- The value an accepted write carries on: a wrapped key as the key it holds. -/
def acceptVal (key : List Byte) (ix : Nat) (x : Val) : Option Val :=
  if wraps ix then (Config.unwrap key x.toBytes).map Val.bytes else some x

/-- Every instance of a write is checked, each on top of those before it: the values to accept, or the offset and reason
of the first that fails. -/
def checkWrites (com : State) (key : List Byte) (priv : Nat) (r : ObjRow) :
    Nat → List (Nat × Val) → State → Except (Nat × Nat) (List Accept)
  | _, [], _ => .ok []
  | i, (sub, x) :: t, virt =>
    let c := valueCheck com virt true r sub x
    if c ≠ 0 then .error (i, c)
    else
      match acceptVal key r.ix x with
      | none => .error (i, Rc.range)
      | some y =>
        match checkWrites com key priv r (i + 1) t (virt.setObj r.ix sub x) with
        | .error e => .error e
        | .ok l => .ok ({ ix := r.ix, sub := sub, val := y, priv := priv } :: l)

/-- The 12 values of a plan written together are judged together (R41, R191). -/
def checkPlan (priv : Nat) (r : ObjRow) (vals : List (Nat × Val)) (virt : State) : Except (Nat × Nat) (List Accept) :=
  let plan := vals.foldl (fun l p => listSet p.1 p.2.toNat l) (planOf virt)
  let c := planCheck virt plan
  if c ≠ 0 then .error (0, c)
  else .ok (vals.map (fun p => { ix := r.ix, sub := p.1, val := p.2, priv := priv }))

/-- The motion and take slots that all instances of a write would take together (R129, R153, R191). -/
def slotsCode (s : State) (vals : List (Nat × Nat × Nat)) : Nat :=
  if motionFull s (vals.map (fun p => (p.1, p.2.1))) then Rc.motionFull
  else if takeFull s vals then Rc.takeFull
  else 0

/-- The alarm of a refusal (R41, R129, R153). -/
def refusalAlarm (s : State) (ix c : Nat) : State :=
  if c = Rc.motionFull then s.alarm Al.xpMotionFull
  else if c = Rc.takeFull then s.alarm Al.latTakeFull
  else if ix = Ix.phasePlan ∧ (c = Rc.range ∨ c = Rc.capacity) then s.alarm Al.planRejected
  else s

/-- The checks of a write of an object that do not look at its values (R186, R187, R326). -/
def writeGate (s : State) (v : Serving) (r : ObjRow) : Nat :=
  firstCode [(!r.acc.writable, Rc.access), (decide (privOf s v < writePriv r.ix r.acc.keyed), Rc.privilege),
    (r.acc.keyed && !v.keyed, Rc.keyRequired), (notActive s r.ix, Rc.notActive)]

/-- The values of a write are judged in the order of their instances, and accepted when the frame is complete (R189, R191).
`out` is the first instance that lies outside the object; `vals` stops before it. -/
def acceptWrites (s : State) (v : Serving) (r : ObjRow) (vals : List (Nat × Val)) (out : Option Nat) : OpAns :=
  let virt := afterWrites s v
  let key := match sessOf s v.session with
    | some x => x.key
    | none => []
  let ans := if r.ix = Ix.phasePlan ∧ out = none then checkPlan (privOf s v) r vals virt else checkWrites s key (privOf s v) r 0 vals virt
  match ans with
  | .error (i, c) => refusal (refusalAlarm s r.ix c) v c i
  | .ok l =>
    let c := slotsCode s (vals.map (fun p => (r.ix, p.1, p.2.toNat)))
    if out.isSome then refusal s v Rc.noSub (out.getD 0)
    else if c ≠ 0 then refusal (refusalAlarm s r.ix c) v c 0
    else carried s { v with accepts := v.accepts ++ l, mirrored := v.mirrored || isPairObj r.ix } []

/-- WRITE (R186 to R191). -/
def doWrite (s : State) (v : Serving) (op : Op) : OpAns :=
  match objRow op.index with
  | none => refusal s v Rc.noObject 0
  | some r =>
    let c := firstCode [(op.count == 0, Rc.noSub), (r.ty == .domain, Rc.domain), (op.ty != r.ty.code, Rc.type)]
    let out := badSub r op
    if c ≠ 0 then refusal s v c 0
    else if out = some 0 then refusal s v Rc.noSub 0
    else
      match r.ty.takeMany op.count op.data with
      | none => refusal s v Rc.type 0
      | some vals =>
        let c2 := writeGate s v r
        if c2 ≠ 0 then refusal s v c2 0 else acceptWrites s v r (((opSubs op).zip vals).take (out.getD op.count)) out

/-- Put a change into a set: a new object instance goes last, one already there keeps its place (R166). -/
def putChange (cs : List Change) (c : Change) : List Change :=
  if cs.any (fun d => d.ix == c.ix && d.sub == c.sub) then
    cs.map (fun d => if d.ix == c.ix && d.sub == c.sub then c else d)
  else cs ++ [c]

/-- The first instance of a stage operation that fails its checks (R166). -/
def stageBad (s : State) (r : ObjRow) : Nat → List (Nat × Val) → Option (Nat × Nat)
  | _, [] => none
  | i, (sub, x) :: t =>
    let c := stageCheck s r sub x
    if c ≠ 0 then some (i, c) else stageBad s r (i + 1) t

/-- STAGE (R165 to R167). -/
def doStage (s : State) (v : Serving) (op : Op) : OpAns :=
  match objRow op.index with
  | none => refusal s v Rc.noObject 0
  | some r =>
    let c := firstCode [(decide (16 ≤ op.set), Rc.range), (op.count == 0, Rc.noSub),
      (!r.acc.stages || r.ty == .domain, Rc.notStageable), (op.ty != r.ty.code, Rc.type)]
    let out := badSub r op
    if c ≠ 0 then refusal s v c 0
    else if out = some 0 then refusal s v Rc.noSub 0
    else
      match r.ty.takeMany op.count op.data with
      | none => refusal s v Rc.type 0
      | some vals =>
        let set := mapFind op.set s.shut.sets
        let owner := match set with
          | some x => x.session
          | none => v.session
        let c2 := writeGate s v r
        if c2 ≠ 0 then refusal s v c2 0
        else if owner ≠ v.session then refusal s v 6 0
        else
          let ins := ((opSubs op).zip vals).take (out.getD op.count)
          match (stageBad s r 0 ins).or (out.map (fun i => (i, Rc.noSub))) with
          | some (i, k) => refusal s v k i
          | none =>
            let new := ins.map (fun p => ({ ix := r.ix, sub := p.1, val := p.2, keyed := v.keyed } : Change))
            let old := match set with
              | some x => x.changes
              | none => []
            let cs := new.foldl putChange old
            if 65536 < cs.length ∨ 196608 < stageUsed s - recordCount old + recordCount cs then
              refusal (s.alarm Al.stageFull) v Rc.stageFull 0
            else
              let slot := match sessOf s v.session with
                | some x => x.slot
                | none => 0
              let s1 := setSet s op.set (some { session := v.session, changes := cs })
              carried (mirrorStage s1 op.set slot new) { v with mirrored := v.mirrored || isPairObj r.ix } []

/-- A commit is checked in the order of R170: the code, or 0 with its landing tick. -/
def commitCheck (s : State) (v : Serving) (set target : Nat) : Nat × Nat :=
  match mapFind set s.shut.sets with
  | none => (6, 0)
  | some x =>
    let n := recordCount x.changes
    let soon := s.tick + commitLead s.budget n
    let land := if target = 0 then freeTick s soon 9 else target
    let base := commitBase s
    let code := firstCode [(x.session != v.session, 6), (x.changes.any (fun c => c.keyed) && !v.keyed, 7),
      (!s.isDoor, 8), (x.changes.isEmpty, 4), (target != 0 && decide (target < soon), 1),
      (decide (s.tick + 16777216 < target), 3), (tickHeld s land, 2), (decide (8 ≤ s.shut.pend.length), 5)]
    if code ≠ 0 then (code, 0)
    else
      let inner := commitCode base x.changes
      if inner ≠ 0 then (inner, 0)
      else
        let waiting := ((xpNamed (waitingWrites s)).filter (fun i => !inMotion s i (xpOf s i))).length
        let m := commitMotion x.changes
        let t := commitTakes base x.changes
        let wt := takesOf s (waitingVals s)
        if 0 < m ∧ s.nat Ix.xpMotionMax < motionCount s + motionReserved s + waiting + m then (9, 0)
        else if 0 < t ∧ 4096 < takesHeld s + takesReserved s + wt + t then (10, 0)
        else (0, land)

/-- COMMIT (R169 to R171). -/
def doCommit (s : State) (v : Serving) (op : Op) : OpAns :=
  if op.index ≠ 0 ∨ op.count ≠ 0 ∨ op.ty ≠ 0 ∨ op.data.length ≠ 8 then refusal s v Rc.type 0
  else if 16 ≤ op.set then refusal s v Rc.range 0
  else
    let (code, land) := commitCheck s v op.set (field op.data 0 8)
    if code ≠ 0 then
      let s1 := if code = 9 then s.alarm Al.xpMotionFull else if code = 10 then s.alarm Al.latTakeFull else s
      refusal (s1.addHold Ix.shutRejects 0 1) v code 0
    else
      let cs := match mapFind op.set s.shut.sets with
        | some x => x.changes
        | none => []
      let id := s.shut.nextId
      let p : Pending := { id := id, session := v.session, tick := land, changes := cs, frozen := false, checked := false
                           motion := commitMotion cs, takes := commitTakes (commitBase s) cs, mirrored := false }
      let s1 := setSet s op.set none
      let s2 := { s1 with shut := { s1.shut with pend := s1.shut.pend ++ [p], nextId := (id + 1) % 4294967296 } }
      let s3 := mirrorSetEnd (mirrorCommit (syncStage (takeSlot s2 id land)) id op.set land) op.set 0 id
      carried s3 { v with mirrored := true } (bytesLE 4 id ++ bytesLE 8 land)

/-- ABORT (R173). -/
def doAbort (s : State) (v : Serving) (op : Op) : OpAns :=
  if 1 < op.index ∨ op.count ≠ 0 ∨ op.ty ≠ 0 ∨ op.data.length ≠ 4 * op.index then refusal s v Rc.type 0
  else if op.index = 0 then
    if 16 ≤ op.set then refusal s v Rc.range 0
    else
      match mapFind op.set s.shut.sets with
      | none => refusal s v 6 0
      | some x =>
        if x.session ≠ v.session then refusal s v 6 0
        else carried (mirrorSetEnd (setSet s op.set none) op.set 1 0) { v with mirrored := true } []
  else
    match s.shut.pend.find? (fun p => p.id == field op.data 0 4 && p.session == v.session && !p.mirrored) with
    | none => refusal s v 6 0
    | some p =>
      if p.frozen ∨ p.tick ≤ s.tick + 1 then refusal s v Rc.state 0
      else carried (rejectCommit s p 13) { v with mirrored := true } []

/-- SUBSCRIBE (R198). A DOMAIN object is answered DOMAIN, and COUNT above 256 NO_SUB (DESIGN CHOICE, assumption 141: R198
gives the limits and no status). -/
def doSubscribe (s : State) (v : Serving) (op : Op) : OpAns :=
  match objRow op.index, sessOf s v.session with
  | none, _ => refusal s v Rc.noObject 0
  | _, none => refusal s v Rc.state 0
  | some r, some x =>
    let total := s.ctl.sessions.foldl (fun n p => n + (match p.2 with
      | some y => y.subs.length
      | none => 0)) 0
    let c := firstCode [(op.count == 0, Rc.noSub), (decide (256 < op.count), Rc.noSub), (r.acc == .wo, Rc.access),
      (r.ty == .domain, Rc.domain), (op.ty != r.ty.code, Rc.type), (op.data.length != 4, Rc.type),
      (decide (privOf s v < readPriv r.ix), Rc.privilege), (decide (64 ≤ x.subs.length) || decide (1024 ≤ total), Rc.subFull)]
    if c ≠ 0 then refusal s v c 0
    else
      match badSub r op with
      | some i => refusal s v Rc.noSub i
      | none =>
        let h := x.nextHandle
        let sub : Subscription := { handle := h, ix := r.ix, sub := op.sub, count := op.count, period := field op.data 0 2
                                    start := s.tick, sent := (opSubs op).map (readVal v r.ix), lastTick := 0 }
        carried (setSess s v.session (some { x with subs := x.subs ++ [sub], nextHandle := (h + 1) % 65536 })) v (bytesLE 2 h)

/-- UNSUBSCRIBE (R198). -/
def doUnsubscribe (s : State) (v : Serving) (op : Op) : OpAns :=
  match sessOf s v.session with
  | none => refusal s v Rc.state 0
  | some x =>
    let h := field op.data 0 2
    if op.index ≠ 0 ∨ op.count ≠ 0 ∨ op.ty ≠ 0 ∨ op.data.length ≠ 4 then refusal s v Rc.type 0
    else if x.subs.any (fun u => u.handle == h) then
      carried (setSess s v.session (some { x with subs := x.subs.filter (fun u => u.handle != h) })) v []
    else refusal s v Rc.noHandle 0

/-- A session for an OPEN frame, with its number and nonce (R192). -/
def openSession (s : State) (v : Serving) (op : Op) : OpAns :=
  let slot := field op.data 0 1
  match freeSession s with
  | none => refusal (s.alarm (Al.ctlOpenReject.src (viaNo v.via)) 0) v Rc.noSession 0
  | some k =>
    let (n, s1) := s.draw
    let nd := bytesLE 8 (unsignedOf 64 n)
    let nh := op.data.drop 4
    let key := Config.cmac (credKey s slot) ([0x44, 0x52, 0x44, 0x53] ++ bytesLE 1 k ++ bytesLE 1 slot ++ [0, 0] ++ nh ++ nd)
    let priv := s.nat Ix.ctlCredPriv slot
    let x : Session := { via := v.via, peer := v.peer, port := v.port, slot := slot, priv := priv
                         tagAll := field op.data 1 1 % 2 == 1, key := key, counter := v.counter, lastFrame := [], lastReply := []
                         notifySeq := 1, subs := [], nextHandle := 1, transfer := none, closing := false }
    let mine := (s1.shut.sets.filter (fun p => p.2.session == 0 && mapGet (fun _ => none) p.1 s1.pair.orphans == some slot)).map
      (fun p => p.1)
    let own (t : State) (i : Nat) : State :=
      match mapFind i t.shut.sets with
      | some y => setSet t i (some { y with session := k })
      | none => t
    let s2 := mine.foldl own (setSess s1 k (some x))
    carried { s2 with pair := { s2.pair with orphans := s2.pair.orphans.filter (fun p => !mine.contains p.1) } }
      { v with session := k } (bytesLE 1 k ++ bytesLE 1 priv ++ [0, 0] ++ nd)

/-- OPEN (R192); in a frame of an open session it is answered STATE (DESIGN CHOICE, assumption 140: R191 and R192 give it no
status). -/
def doOpen (s : State) (v : Serving) (op : Op) : OpAns :=
  if v.session ≠ 0 then refusal s v Rc.state 0 else openSession s v op

/-- CLOSE (R196): the session closes once the reply has been sent. -/
def doClose (s : State) (v : Serving) (op : Op) : OpAns :=
  if op.index ≠ 0 ∨ op.count ≠ 0 ∨ op.ty ≠ 0 ∨ op.data.length ≠ 0 then refusal s v Rc.type 0
  else carried s { v with closing := true } []

/-- The transfer area (R197, R364). -/
def transferArea : Nat := 0x1020000000
/-- Bytes held by the open transfers. -/
def transferUsed (s : State) : Nat :=
  s.ctl.sessions.foldl (fun n p => n + (match p.2 with
    | some x => (match x.transfer with
      | some t => t.length
      | none => 0)
    | none => 0)) 0

/-- The windows of the open transfers: start and length. -/
def windowsOpen (s : State) (via : Option Via) : List (Nat × Nat) :=
  s.ctl.sessions.filterMap (fun p => match p.2 with
    | some x => if via.isNone || via == some x.via then x.transfer.map (fun t => (t.window, t.length)) else none
    | none => none)

/-- Bytes of a window, as the transfer area holds them. -/
def windowBytes (s : State) (t : Transfer) : List Byte := memBytes s t.window t.length

/-- The free stretches of the transfer area from `c` on, between windows in order of their starts: start and length. -/
def gapsFrom : Nat → List (Nat × Nat) → List (Nat × Nat)
  | c, [] => [(c, transferArea + 67108864 - c)]
  | c, (a, n) :: t => (c, a - c) :: gapsFrom (a + n) t

/-- The places at which a window of `size` bytes can start in a free stretch. -/
def startsIn (size : Nat) (g : Nat × Nat) : Nat := if size ≤ g.2 then g.2 - size + 1 else 0

/-- Start number `n` of a window of `size` bytes in the free stretches. -/
def startAt (size : Nat) : Nat → List (Nat × Nat) → Nat
  | _, [] => transferArea
  | n, g :: t => if n < startsIn size g then g.1 + n else startAt size (n - startsIn size g) t

/-- The free stretches of the transfer area (R197). -/
def transferGaps (s : State) : List (Nat × Nat) :=
  let ws := (windowsOpen s none).filter (fun w => w.2 != 0)
  gapsFrom transferArea (ws.foldl (fun m w => mapPut w.1 w.2 m) [])

/-- A refusal because the engine takes no image sets ENG_LOAD_STATUS to 7 (R109; DEDUCED for DOM_OPEN: the rule's sentence
follows both refusals). -/
def imageRefused (s : State) (r : ObjRow) (sub : Nat) (a : OpAns) : OpAns :=
  if r.ix = Ix.engImage ∧ a.status = Rc.state ∧ !imageOpen s sub then { a with st := a.st.setNat Ix.engLoadStatus sub 7 } else a

/-- The checks that the operations on a transfer have in common (R184, R191): the code, or 0. -/
def domCode (r : ObjRow) (op : Op) : Nat :=
  firstCode [(op.count != 1, Rc.noSub), (!r.subs.has op.sub, Rc.noSub), (r.ty != .domain, Rc.type), (op.ty != r.ty.code, Rc.type)]

/-- DOM_OPEN (R197). The address of the window within the transfer area is the device's choice: a free value, outside the
windows of the other transfers. Where no free stretch takes the window, the area counts as full (DESIGN CHOICE). A value above 16 MiB is refused with RANGE
(DESIGN CHOICE, assumption 142: R197 gives the limit and no status). -/
def doDomOpen (s : State) (v : Serving) (op : Op) : OpAns :=
  match objRow op.index, sessOf s v.session with
  | none, _ => refusal s v Rc.noObject 0
  | _, none => refusal s v Rc.state 0
  | some r, some x =>
    let len := field op.data 0 4
    let writing : Bool := decide (0 < len)
    let value := readVal v r.ix op.sub
    let size := if writing then len else value.toBytes.length
    let need := if writing then writePriv r.ix r.acc.keyed else readPriv r.ix
    let gaps := transferGaps s
    let starts := (gaps.map (startsIn size)).foldl (· + ·) 0
    let c := firstCode [(domCode r op != 0, domCode r op), (op.data.length != 4, Rc.type),
      (if writing then !r.acc.writable else r.acc == .wo, Rc.access), (decide (privOf s v < need), Rc.privilege),
      (x.transfer.isSome, Rc.domainBusy), (decide (16777216 < size), Rc.range),
      (decide (67108864 < transferUsed s + size) || starts == 0, Rc.domainBusy),
      (writing && r.ix == Ix.engImage && !imageOpen s op.sub, Rc.state)]
    if c ≠ 0 then imageRefused s r op.sub (refusal s v c 0)
    else
      let (n, s1) := s.draw
      let window := startAt size (unsignedOf 64 n % starts) gaps
      let t : Transfer := { ix := r.ix, sub := op.sub, writing := writing, length := size, window := window }
      let s2 := if writing then s1 else setMemBytes s1 window value.toBytes
      carried (setSess s2 v.session (some { x with transfer := some t })) v (bytesLE 4 size ++ bytesLE 8 window)

/-- The open transfer of the session, where an operation names its object. -/
def transferOf (s : State) (v : Serving) (op : Op) : Option (Session × Transfer) :=
  match sessOf s v.session with
  | none => none
  | some x =>
    match x.transfer with
    | none => none
    | some t => if t.ix = op.index ∧ t.sub = op.sub then some (x, t) else none

/-- The transfer that an operation on one names (R191): the code of its refusal, or the object, the session and the
transfer. -/
def domTransfer (s : State) (v : Serving) (op : Op) : Except Nat (ObjRow × Session × Transfer) :=
  match objRow op.index with
  | none => .error Rc.noObject
  | some r =>
    if domCode r op ≠ 0 then .error (domCode r op)
    else
      match transferOf s v op with
      | none => .error Rc.domain
      | some (x, t) => .ok (r, x, t)

/-- DOM_SEG (R197): bytes into the window, or out of it. Padding after the last byte of the value is no part of it. -/
def doDomSeg (s : State) (v : Serving) (op : Op) : OpAns :=
  match domTransfer s v op with
  | .error c => refusal s v c 0
  | .ok (_, _, t) =>
    let off := field op.data 0 4
    let room := t.length - off
    let body := op.data.drop 4
    if op.data.length < 4 then refusal s v Rc.type 0
    else if t.length < off then refusal s v Rc.domain 0
    else if t.writing then
      if 1024 < body.length then refusal s v Rc.type 0
      else if room + 3 < body.length then refusal s v Rc.domain 0
      else carried (setMemBytes s (t.window + off) (body.take room)) v []
    else if op.data.length ≠ 8 then refusal s v Rc.type 0
    else carried s v (memBytes s (t.window + off) (min (field op.data 4 2) room))

/-- DOM_CLOSE (R197): a value read is released; a value written is applied as a direct write where its hash matches. -/
def doDomClose (s : State) (v : Serving) (op : Op) : OpAns :=
  match domTransfer s v op with
  | .error c => refusal s v c 0
  | .ok (r, x, t) =>
    let free (u : State) : State := setSess u v.session (some { x with transfer := none })
    if op.data.length ≠ (if t.writing then 32 else 0) then refusal s v Rc.type 0
    else if !t.writing then carried (free s) v []
    else
      let value := windowBytes s t
      let c := writeGate s v r
      if c ≠ 0 then refusal s v c 0
      else if Config.sha256 value ≠ op.data then refusal s v Rc.domain 0
      else if r.ix = Ix.bootFwImage ∧ (s.boot.writing.isSome ∨ s.writes.any (fun w => w.ix == Ix.bootFwImage)) then refusal s v Rc.domainBusy 0
      else if r.ix = Ix.bootFwImage ∧ !fwVerifies s value then refusal (s.setNat Ix.bootFwStatus 0 3) v Rc.range 0
      else
        let a := acceptWrites s v r [(op.sub, .bytes value)] none
        if a.status ≠ 0 then imageRefused s r op.sub a else { a with st := free a.st }

/-- One operation by its code (R190). An unlisted code is refused as not permitted. -/
def doOp (s : State) (v : Serving) (code : Nat) (op : Op) : OpAns :=
  if code = Oc.read then doRead s v op
  else if code = Oc.write then doWrite s v op
  else if code = Oc.stage then doStage s v op
  else if code = Oc.commit then doCommit s v op
  else if code = Oc.abort then doAbort s v op
  else if code = Oc.subscribe then doSubscribe s v op
  else if code = Oc.unsubscribe then doUnsubscribe s v op
  else if code = Oc.openSess then doOpen s v op
  else if code = Oc.close then doClose s v op
  else if code = Oc.domOpen then doDomOpen s v op
  else if code = Oc.domSeg then doDomSeg s v op
  else if code = Oc.domClose then doDomClose s v op
  else refusal s v Rc.access 0

/-- A write-only object acts when its frame is complete (R186). -/
def actWriteOnly (s : State) (ix sub : Nat) (v : Nat) : State :=
  let clear (w : Nat) : Nat := w - (w &&& v)
  if ix = Ix.engFlagsClr then s.setNat Ix.engFlags sub (clear (s.nat Ix.engFlags sub))
  else if ix = Ix.busSatClr then (if v = 1 then (s.setFlag Ix.busSat sub false).setFlag Ix.busOvf sub false else s)
  else if ix = Ix.limGrClr then (if v = 1 then s.setNat Ix.limGrMax sub 0 else s)
  else if ix = Ix.rampStart then landRampStart (s.setNat ix sub v) sub
  else if ix = Ix.clkSyncArm then landSyncArm (s.setNat ix 0 v)
  else if ix = Ix.pmuEngOvfClr then
    eachPmu s (Fin.ofNat 16 sub) (fun pm => { pm with ovf := pm.ovf &&& ~~~(BitVec.ofNat 4 v) })
  else if ix = Ix.pmuOvfClr then s.setNat Ix.pmuOvf 0 (clear (s.nat Ix.pmuOvf))
  else if ix = Ix.cueCmd then cueCommand s (Fin.ofNat 2 sub) v
  else s

/-- A write-only object. -/
def writeOnly (ix : Nat) : Bool :=
  match objRow ix with
  | some r => r.acc == .wo
  | none => false

/-- What an accepted direct write does before it lands (R37, R181, R267, R341, R384): pending commits that would be
jumped over are rejected, a move is abandoned, a planned swap is agreed. -/
def onAccept (s : State) (ix v : Nat) : State :=
  if ix = Ix.houseRate ∨ ix = Ix.ticklen ∨ ix = Ix.timeSet ∨ (ix = Ix.timeRestep ∧ v = 1) then dropOpen s
  else if ix = Ix.pairCmd ∧ v = 4 then
    let tw := s.tick + 2
    let ts := tw + 16 + s.nat Ix.pairWarmTicks
    { s with pair := { s.pair with swap := some { tw := tw, ts := ts, giver := true, lockstep := [], got := [] } } }.setNat Ix.pairSwapTick 0 ts
  else s

/-- The first boundary at which a direct write may land: a parameter write waits for a P3 deadline (R178); a change of
house rate or TICKLEN and a step of the time base let a commit land that has passed its final check (R172). -/
def firstBoundary (s : State) (ix : Nat) : Nat :=
  let late : Bool := isParam ix && s.clk.closed.contains 3
  let grid : Bool := ix == Ix.houseRate || ix == Ix.ticklen || ix == Ix.timeSet || ix == Ix.timeRestep
  let held : Bool := grid && s.shut.pend.any (fun p => p.checked && p.tick == s.tick + 1)
  if late || held then s.tick + 2 else s.tick + 1

/-- Accept one direct write (R163, R189, R333). -/
def acceptOne (s : State) (a : Accept) (mbox : Option (Nat × Nat)) : State :=
  if writeOnly a.ix then actWriteOnly s a.ix a.sub a.val.toNat
  else
    let w : DirectWrite := { ix := a.ix, sub := a.sub, val := a.val, mbox := mbox, after := firstBoundary s a.ix, gen := none,
                             priv := a.priv }
    onAccept (directWrite s w) a.ix a.val.toNat

/-- What a reply brings with it once it has been sent (R196, R206, R446). -/
def afterReply (s : State) (a : AfterReply) : State :=
  let s1 := replySent s a
  if a.reset then sysReset s1 5 else s1

/-- What follows the reply of a frame: a CLOSE, a write of a credential slot, a reset. -/
def nextOf (s : State) (v : Serving) : AfterReply :=
  { close := if v.closing then (sessOf s v.session).map (fun x => (v.session, x.key)) else none
    slots := (v.accepts.filter (fun a => a.ix == Ix.ctlCredWrap || a.ix == Ix.ctlCredPriv)).map (fun a => a.sub)
    reset := v.accepts.any (fun a => a.ix == Ix.bootReset && a.val.toNat != 0) }

/-- Send the reply of a frame, and do what follows it; or hold it until the partner has every record of the frame (R331). -/
def sendReply (s : State) (v : Serving) (b : List Byte) : State :=
  if v.mirrored ∧ mirrorsNow s ∧ !s.pair.lost then
    { s with pair := { s.pair with replies := s.pair.replies ++
      [{ udp := v.via == .udp, peer := v.peer, port := v.port, bytes := b, seq := s.pair.seqOut, next := nextOf s v }] } }
  else afterReply (sendTo s v.via v.peer v.port b) (nextOf s v)

/-- The key a reply is tagged under (R192, R193). -/
def replyKey (s : State) (v : Serving) : Option (List Byte) :=
  match sessOf s v.session with
  | some x => if v.keyed ∨ x.tagAll then some x.key else none
  | none => if v.session = 0 ∧ v.keyed then some (credKey s (field v.bytes 28 1)) else none

/-- The bytes a reply to the frame in service would have with some results. -/
def replyOf (s : State) (v : Serving) (rs : List OpResult) : List Byte :=
  let shown := if frSession v.bytes = 0 then 0 else v.session
  replyBytes shown v.counter 0 v.gen v.tick rs (replyKey s v)

/-- The frame is complete (R189, R190): its direct writes are accepted, its reply is sent with what follows it, and the
controller goes on. -/
def completeFrame (s0 : State) (v : Serving) : State :=
  let s1 := v.accepts.foldl (fun t a => acceptOne t a none) { s0 with ctl := { s0.ctl with serving := none } }
  let b := replyOf s0 v v.results
  serveNext (sendReply (mapSess s1 v.session (fun x => { x with lastReply := b })) v b)

/-- The length a reply would have with one more result. -/
def replyLen (s : State) (v : Serving) (r : OpResult) : Nat := (replyOf s v (v.results ++ [r])).length

/-- Whether a result fits (R191): the reply stays within 1,472 bytes, with room for the final result TOO_LARGE where
operations are left, or for the result of the one that is left. -/
def resultFits (s : State) (v : Serving) (r : OpResult) (rest : List (Nat × Op)) : Bool :=
  let n := replyLen s v r
  match rest with
  | [] => decide (n ≤ 1472)
  | (code, op) :: t =>
    decide (n + 12 ≤ 1472) ||
      (t.isEmpty && decide (n + 8 ≤ 1472) &&
        (let a := doOp s v code op
         a.status == 0 && a.data.isEmpty))

/-- The final result of a reply that is full (R191). Where only 8 bytes are left it carries no data (DESIGN CHOICE: the
last operation of the frame no longer fits because the state has changed since the one before it). -/
def cutResult (s : State) (v : Serving) (code : Nat) : OpResult :=
  let r : OpResult := { op := code, status := Rc.tooLarge, data := bytesLE 4 0 }
  if replyLen s v r ≤ 1472 then r else { r with data := [] }

/-- Carry out the operation at the head of the frame in service (R191), and complete the frame after its last one. -/
def carryOut (s : State) (v : Serving) (code : Nat) (op : Op) (rest : List (Nat × Op)) : State :=
  let a := doOp s v code op
  let r : OpResult := { op := code, status := a.status, data := a.data }
  if resultFits a.st a.sv r rest then
    let v1 := { a.sv with results := a.sv.results ++ [r], ops := rest }
    if rest.isEmpty then completeFrame a.st v1 else { a.st with ctl := { a.st.ctl with serving := some v1 } }
  else completeFrame s { v with results := v.results ++ [cutResult s v code], ops := [] }

end Sys2Proof.Machine
end

