-- ==== Sys2Proof/Machine/HostRows.lean ====
section
/-! DEFINITION. The commands of the control protocol: each operation of the frame in service, by what it does (R190),
and what the controller does by itself: closing sessions and sending notifications (R196, R198, R199). -/

namespace Sys2Proof.Machine

/-- The row of a write of an object with a row of its own, by the first byte of its value. -/
def writeRowLow (ix v : Nat) : Instr :=
  if ix = Ix.engFlagsClr then .engFlagsClr
  else if ix = Ix.engCtl then (if v = 0 then .stop else if v = 1 then .run else if v = 2 then .restart else .write)
  else if ix = Ix.houseRate then .houseRate
  else if ix = Ix.ticklen then .ticklen
  else if ix = Ix.phasePlan then .phasePlan
  else if ix = Ix.busSatClr then .busSatClr
  else if ix = Ix.limGrClr then .limGrClr
  else if ix = Ix.ctlLogAck then .ctlLogAck
  else if ix = Ix.ctlCredWrap then .ctlCredWrap
  else if ix = Ix.ctlCredPriv then .ctlCredPriv
  else .write

/-- The same for the clocks. -/
def writeRowClock (ix : Nat) : Instr :=
  if ix = Ix.timeRestep then .timeRestep
  else if ix = Ix.timeSet then .timeSet
  else if ix = Ix.refPhaseStep then .refPhaseStep
  else if ix = Ix.refPhaseForce then .refPhaseForce
  else if ix = Ix.syspllSelect then .syspllSelect
  else if ix = Ix.rampStart then .rampStart
  else if ix = Ix.medsynOffset then .medsynOffset
  else if ix = Ix.clkSyncArm then .clkSyncArm
  else .write

/-- The same for the objects from 0x1000 on: commands of the pair, of the reserve manager and of the cue stage are told
apart by their value (R344, R393, R437, R457). -/
def writeRowHigh (ix v : Nat) : Instr :=
  if ix = Ix.pairCmd then listGet .write v [.write, .take, .join, .isolate, .swap, .audit]
  else if ix = Ix.rsvCmd then listGet .write v [.write, .migrate, .retire, .test, .restore, .clearPll]
  else if ix = Ix.pmuEngOvfClr then .pmuEngOvfClr
  else if ix = Ix.pmuOvfClr then .pmuOvfClr
  else if ix = Ix.secLcAdvance then .secLcAdvance
  else if ix = Ix.secTamperClr then .secTamperClr
  else if ix = Ix.secDbgEnd then .secDbgEnd
  else if ix = Ix.secImgPubkey then .secImgPubkey
  else if ix = Ix.secImgKeyHash then .secImgKeyHash
  else if ix = Ix.cueCmd then listGet .write v [.write, .clear, .recheck]
  else if ix = Ix.bootReset then listGet .write v [.write, .bootReset, .bootResetAnyRole]
  else if ix = Ix.quietMode then listGet .write v [.quietLeave, .quietEnter]
  else .write

/-- The row of a write. -/
def writeRow (ix v : Nat) : Instr :=
  if ix < 0x0D00 then writeRowLow ix v else if ix < 0x1000 then writeRowClock ix else writeRowHigh ix v

/-- The row of a DOM_CLOSE: a value written to one of three objects has a row of its own (R109, R420, R456). -/
def closeRow (op : Op) : Instr :=
  if op.data.length ≠ 32 then .domClose
  else if op.index = Ix.engImage then .engImage
  else if op.index = Ix.bootFwImage then .bootFwImage
  else if op.index = Ix.secDbgResponse then .secDbgResponse none
  else .domClose

/-- The row of the table that an operation belongs to. An operation with an unlisted code counts as a READ. -/
def rowOf (code : Nat) (op : Op) : Instr :=
  if code = Oc.write then writeRow op.index (field op.data 0 1)
  else if code = Oc.stage then .stage
  else if code = Oc.commit then .commit
  else if code = Oc.abort then .abort
  else if code = Oc.subscribe then .subscribe
  else if code = Oc.unsubscribe then .unsubscribe
  else if code = Oc.openSess then .openOp
  else if code = Oc.close then .closeOp
  else if code = Oc.domOpen then .domOpen
  else if code = Oc.domSeg then .domSeg
  else if code = Oc.domClose then closeRow op
  else if code = Oc.read ∧ op.index = Ix.secDbgChallenge then .secDbgChallenge false
  else .read

/-- The controller runs (R421, R447). -/
def hkRuns (s : State) : Bool := s.answers && !s.sec.hkHalted

/-- Carry out the operation at the head of the frame in service, where it belongs to a row. -/
def serve (row : Instr) (s : State) : State :=
  match s.ctl.serving with
  | none => s
  | some v =>
    match v.ops with
    | [] => s
    | (code, op) :: rest => if hkRuns s && rowOf code op == row then carryOut s v code op rest else s

/-- READ (R190, R191): values from one snapshot. An operation with an unlisted code is refused here. -/
def execRead (s : State) : Host.Outcome State Fault Refusal := .next (serve .read s)
/-- WRITE (R189, R191). -/
def execWrite (s : State) : Host.Outcome State Fault Refusal := .next (serve .write s)
/-- STAGE (R166). -/
def execStage (s : State) : Host.Outcome State Fault Refusal := .next (serve .stage s)
/-- COMMIT (R170, R171). -/
def execCommit (s : State) : Host.Outcome State Fault Refusal := .next (serve .commit s)
/-- ABORT (R173). -/
def execAbort (s : State) : Host.Outcome State Fault Refusal := .next (serve .abort s)
/-- SUBSCRIBE (R198). -/
def execSubscribe (s : State) : Host.Outcome State Fault Refusal := .next (serve .subscribe s)
/-- UNSUBSCRIBE (R198). -/
def execUnsubscribe (s : State) : Host.Outcome State Fault Refusal := .next (serve .unsubscribe s)
/-- OPEN (R192). -/
def execOpenOp (s : State) : Host.Outcome State Fault Refusal := .next (serve .openOp s)
/-- CLOSE (R196). -/
def execCloseOp (s : State) : Host.Outcome State Fault Refusal := .next (serve .closeOp s)
/-- DOM_OPEN (R197). -/
def execDomOpen (s : State) : Host.Outcome State Fault Refusal := .next (serve .domOpen s)
/-- DOM_SEG (R197). -/
def execDomSeg (s : State) : Host.Outcome State Fault Refusal := .next (serve .domSeg s)
/-- DOM_CLOSE (R197). -/
def execDomClose (s : State) : Host.Outcome State Fault Refusal := .next (serve .domClose s)
/-- ENG_FLAGS_CLR (R75). -/
def execEngFlagsClr (s : State) : Host.Outcome State Fault Refusal := .next (serve .engFlagsClr s)
/-- RUN (R110). -/
def execRun (s : State) : Host.Outcome State Fault Refusal := .next (serve .run s)
/-- STOP (R110). -/
def execStop (s : State) : Host.Outcome State Fault Refusal := .next (serve .stop s)
/-- RESTART (R110). -/
def execRestart (s : State) : Host.Outcome State Fault Refusal := .next (serve .restart s)
/-- ENG_IMAGE (R109): DOM_CLOSE accepts the image; it is verified and loaded at its landing. -/
def execEngImage (s : State) : Host.Outcome State Fault Refusal := .next (serve .engImage s)
/-- HOUSE_RATE (R37). -/
def execHouseRate (s : State) : Host.Outcome State Fault Refusal := .next (serve .houseRate s)
/-- TICKLEN (R37). -/
def execTicklen (s : State) : Host.Outcome State Fault Refusal := .next (serve .ticklen s)
/-- PHASE_PLAN (R41). -/
def execPhasePlan (s : State) : Host.Outcome State Fault Refusal := .next (serve .phasePlan s)
/-- BUS_SAT_CLR (R121). -/
def execBusSatClr (s : State) : Host.Outcome State Fault Refusal := .next (serve .busSatClr s)
/-- LIM_GR_CLR (R139). -/
def execLimGrClr (s : State) : Host.Outcome State Fault Refusal := .next (serve .limGrClr s)
/-- CTL_LOG_ACK (R205). -/
def execCtlLogAck (s : State) : Host.Outcome State Fault Refusal := .next (serve .ctlLogAck s)
/-- CTL_CRED_WRAP (R206). -/
def execCtlCredWrap (s : State) : Host.Outcome State Fault Refusal := .next (serve .ctlCredWrap s)
/-- CTL_CRED_PRIV (R206). -/
def execCtlCredPriv (s : State) : Host.Outcome State Fault Refusal := .next (serve .ctlCredPriv s)
/-- TIME_RESTEP (R267). -/
def execTimeRestep (s : State) : Host.Outcome State Fault Refusal := .next (serve .timeRestep s)
/-- TIME_SET (R267). -/
def execTimeSet (s : State) : Host.Outcome State Fault Refusal := .next (serve .timeSet s)
/-- REF_PHASE_STEP (R297). -/
def execRefPhaseStep (s : State) : Host.Outcome State Fault Refusal := .next (serve .refPhaseStep s)
/-- REF_PHASE_FORCE (R297). -/
def execRefPhaseForce (s : State) : Host.Outcome State Fault Refusal := .next (serve .refPhaseForce s)
/-- SYSPLL_SELECT (R302). -/
def execSyspllSelect (s : State) : Host.Outcome State Fault Refusal := .next (serve .syspllSelect s)
/-- RAMP_START (R313). -/
def execRampStart (s : State) : Host.Outcome State Fault Refusal := .next (serve .rampStart s)
/-- MEDSYN_OFFSET (R314). -/
def execMedsynOffset (s : State) : Host.Outcome State Fault Refusal := .next (serve .medsynOffset s)
/-- CLK_SYNC_ARM (R316). -/
def execClkSyncArm (s : State) : Host.Outcome State Fault Refusal := .next (serve .clkSyncArm s)
/-- TAKE (R327, R328). -/
def execTake (s : State) : Host.Outcome State Fault Refusal := .next (serve .take s)
/-- JOIN (R327). -/
def execJoin (s : State) : Host.Outcome State Fault Refusal := .next (serve .join s)
/-- ISOLATE (R328). -/
def execIsolate (s : State) : Host.Outcome State Fault Refusal := .next (serve .isolate s)
/-- SWAP (R341). -/
def execSwap (s : State) : Host.Outcome State Fault Refusal := .next (serve .swap s)
/-- AUDIT (R334). -/
def execAudit (s : State) : Host.Outcome State Fault Refusal := .next (serve .audit s)
/-- MIGRATE (R393). -/
def execMigrate (s : State) : Host.Outcome State Fault Refusal := .next (serve .migrate s)
/-- RETIRE (R393). -/
def execRetire (s : State) : Host.Outcome State Fault Refusal := .next (serve .retire s)
/-- TEST (R385). -/
def execTest (s : State) : Host.Outcome State Fault Refusal := .next (serve .test s)
/-- RESTORE (R376). -/
def execRestore (s : State) : Host.Outcome State Fault Refusal := .next (serve .restore s)
/-- CLEAR_PLL (R391). -/
def execClearPll (s : State) : Host.Outcome State Fault Refusal := .next (serve .clearPll s)
/-- PMU_ENG_OVF_CLR (R405). -/
def execPmuEngOvfClr (s : State) : Host.Outcome State Fault Refusal := .next (serve .pmuEngOvfClr s)
/-- PMU_OVF_CLR (R405). -/
def execPmuOvfClr (s : State) : Host.Outcome State Fault Refusal := .next (serve .pmuOvfClr s)
/-- SEC_LC_ADVANCE (R407). -/
def execSecLcAdvance (s : State) : Host.Outcome State Fault Refusal := .next (serve .secLcAdvance s)
/-- SEC_TAMPER_CLR (R415). -/
def execSecTamperClr (s : State) : Host.Outcome State Fault Refusal := .next (serve .secTamperClr s)
/-- SEC_DBG_END (R421). -/
def execSecDbgEnd (s : State) : Host.Outcome State Fault Refusal := .next (serve .secDbgEnd s)
/-- SEC_IMG_PUBKEY (R418). -/
def execSecImgPubkey (s : State) : Host.Outcome State Fault Refusal := .next (serve .secImgPubkey s)
/-- SEC_IMG_KEY_HASH (R418). -/
def execSecImgKeyHash (s : State) : Host.Outcome State Fault Refusal := .next (serve .secImgKeyHash s)
/-- CLEAR (R437). -/
def execClear (s : State) : Host.Outcome State Fault Refusal := .next (serve .clear s)
/-- RECHECK (R437). -/
def execRecheck (s : State) : Host.Outcome State Fault Refusal := .next (serve .recheck s)
/-- BOOT_RESET with value 1 (R446). -/
def execBootReset (s : State) : Host.Outcome State Fault Refusal := .next (serve .bootReset s)
/-- BOOT_RESET with value 2 (R446). -/
def execBootResetAnyRole (s : State) : Host.Outcome State Fault Refusal := .next (serve .bootResetAnyRole s)
/-- BOOT_FW_IMAGE (R456). -/
def execBootFwImage (s : State) : Host.Outcome State Fault Refusal := .next (serve .bootFwImage s)
/-- QUIET_MODE = 1 (R454). -/
def execQuietEnter (s : State) : Host.Outcome State Fault Refusal := .next (serve .quietEnter s)
/-- QUIET_MODE = 0 (R455). -/
def execQuietLeave (s : State) : Host.Outcome State Fault Refusal := .next (serve .quietLeave s)

/-- SEC_DBG_CHALLENGE (R420): a READ of the object, or a request over JTAG, issues a fresh nonce. -/
def execSecDbgChallenge (jtag : Bool) (s : State) : Host.Outcome State Fault Refusal :=
  .next (if !jtag then serve (.secDbgChallenge false) s
    else if s.boot.held || s.sec.life == 4 || dbgLocked s then s
    else (dbgChallenge s).2)

/-- SEC_DBG_RESPONSE (R420): through the object, or over JTAG. -/
def execSecDbgResponse (jtag : Option (List Byte)) (s : State) : Host.Outcome State Fault Refusal :=
  .next (match jtag with
    | none => serve (.secDbgResponse none) s
    | some b => if s.boot.held || s.sec.life == 4 then s else dbgRespond s b)

/-- KEEPALIVE (R190): a frame with no operations is complete at once. -/
def execKeepalive (s : State) : Host.Outcome State Fault Refusal :=
  .next (match s.ctl.serving with
    | none => s
    | some v => if hkRuns s && v.ops.isEmpty then completeFrame s v else s)

/-- SESSION_TIMEOUT (R196): CTL_SESSION_TIMEOUT seconds have passed without an accepted frame of the session. -/
def execSessionTimeout (session : Fin 33) (s : State) : Host.Outcome State Fault Refusal :=
  let served : Bool := match s.ctl.serving with
    | some v => v.session == session.val
    | none => false
  .next (if hkRuns s && !served && (sessOf s session.val).isSome then
      (closeSession s session.val).alarm Al.ctlSessionExpired session.val
    else s)

/-- The instances of a subscription. -/
def subVals (s : State) (u : Subscription) : List Val := (upFrom u.sub u.count).map (readFrom (snapshot s) u.ix)

/-- A notification of a subscription is due (R198): it differs from what was last sent and the gap has passed, or its
period ends in this tick. -/
def subDue (s : State) (u : Subscription) : Bool :=
  if u.period = 0 then
    subVals s u != u.sent && (u.lastTick == 0 || decide (u.lastTick + s.nat Ix.ctlNotifyGap ≤ s.tick))
  else decide (u.start < s.tick) && (s.tick - u.start) % u.period == 0 && u.lastTick != s.tick

/-- Total length of some byte strings. -/
def totalLen (l : List (List Byte)) : Nat := (l.map List.length).foldl (· + ·) 0

/-- Split byte strings, in order, into groups of at most `lim` bytes; one that is longer stands alone. -/
def groupsOf (lim : Nat) (l : List (List Byte)) : List (List (List Byte)) :=
  let p := l.foldl (fun (p : List (List (List Byte)) × List (List Byte)) b =>
    if p.2.isEmpty || decide (totalLen p.2 + b.length ≤ lim) then (p.1, p.2 ++ [b]) else (p.1 ++ [p.2], [b])) ([], [])
  if p.2.isEmpty then p.1 else p.1 ++ [p.2]

/-- The records of a subscription (R199): consecutive instances, as many to a record as a frame with room for `room` bytes
of records takes. -/
def subRecords (s : State) (room : Nat) (u : Subscription) : List (List Byte) :=
  match objRow u.ix with
  | none => []
  | some r =>
    let gs := groupsOf (room - 8) ((subVals s u).map r.ty.wire)
    (gs.foldl (fun (p : Nat × List (List Byte)) g =>
      (p.1 + g.length, p.2 ++ [padTo 4 (bytesLE 2 u.handle ++ bytesLE 2 g.length ++ bytesLE 4 p.1 ++ g.flatten)])) (u.sub, [])).2

/-- One notification frame of a session (R193, R199). -/
def notifyBytes (s : State) (k : Nat) (x : Session) (rs : List (List Byte)) : List Byte :=
  let body := bytesLE 4 (s.nat Ix.shutGen) ++ [0, 0, 0, 0] ++ bytesLE 8 s.clk.lastDone ++ rs.flatten
  if x.tagAll then
    let msg := header 5 k rs.length (32 + body.length) x.notifySeq ++ body
    msg ++ Config.cmac x.key msg
  else header 4 k rs.length (16 + body.length) x.notifySeq ++ body

/-- Send one notification frame (R199, R202): one that finds the response queue full is dropped and counted. -/
def sendNotify (s : State) (k : Nat) (rs : List (List Byte)) : State :=
  match sessOf s k with
  | none => s
  | some x =>
    let b := notifyBytes s k x rs
    let s1 := setSess s k (some { x with notifySeq := x.notifySeq + 1 })
    if x.via = .hostPort ∧ 32 ≤ hpFrames s then s1.addHold Ix.ctlFramesDrop 1 1
    else sendTo s1 x.via x.peer x.port b

/-- The bytes of records that a notification of a session takes: 1,472 less its header, GEN and TICK, and its tag (R190,
R193, R199). -/
def notifyRoom (x : Session) : Nat := if x.tagAll then 1424 else 1440

/-- NOTIFICATION_DUE (R198, R199): every notification of the session that is due after this boundary is sent. -/
def execNotificationDue (session : Fin 33) (s : State) : Host.Outcome State Fault Refusal :=
  let k := session.val
  .next (match sessOf s k with
    | none => s
    | some x =>
      let due := x.subs.filter (subDue s)
      if !hkRuns s || due.isEmpty then s
      else
        let subs := x.subs.map (fun u => if subDue s u then { u with sent := subVals s u, lastTick := s.tick } else u)
        let s1 := setSess s k (some { x with subs := subs })
        (groupsOf (notifyRoom x) (due.flatMap (subRecords s (notifyRoom x)))).foldl (fun t g => sendNotify t k g) s1)

end Sys2Proof.Machine
end

