-- ==== Sys2Proof/Machine/HostPort.lean ====
section
/-! DEFINITION. The registers and the data port of the host port (R200 to R203, R451), writes of registers with no
command of their own (R10), and direct writes that engines ask for by mailbox (R106). -/

namespace Sys2Proof.Machine

/-- The bytes of one access of the data port for a value of INC; reserved values have none (R201). -/
def incSize (inc : BitVec 3) : Nat := listGet 0 inc.toNat [1, 2, 4, 8, 32]

/-- The boot ROM waits for an image through the host port: the data port serves one window, for writes (R451). -/
def hpBooting (s : State) : Bool := s.boot.stage == 4 && !s.boot.held

/-- An access lies inside an open window of a session on the host port (R203). -/
def inWindow (s : State) (a n : Nat) : Bool :=
  (windowsOpen s (some .hostPort)).any (fun w => decide (w.1 ≤ a) && decide (a + n ≤ w.1 + w.2))

/-- One access of the data port: ERRCODE, or 0, and what it read (R203). -/
def dpAccess (s : State) (write : Bool) (a n : Nat) (data : List Byte) (errs : List (Nat × Ecc)) : Nat × List Byte × State :=
  if a % n ≠ 0 then (5, [], s)
  else if hpBooting s then
    if write ∧ 0x1000000000 ≤ a ∧ a + n ≤ 0x1001000000 then (0, [], setMemBytes s a data) else (1, [], s)
  else if !s.hp.mode && !inWindow s a n then (1, [], s)
  else if s.hp.mode && !dbgOpen s 2 then (2, [], s)
  else
    let tx : FabTx := { master := 0x01, write := write, addr := BitVec.ofNat 40 a, size := n, beats := 1, data := data
                        errs := errs, cycle := Config.dpCycle s.tick a, waits := 0, stalls := 0, ownStalls := 0 }
    match fabRun s tx with
    | (0, b, s1) => (0, b, s1)
    | (k, _, s1) => (if k = Kind.ecc then 4 else 3, [], s1)

/-- An access has failed (R203): the rest of the transfer is discarded. -/
def dpFail (s : State) (code : Nat) : State :=
  { s with hp := { s.hp with err := true, errCode := BitVec.ofNat 8 code, wbuf := [], rbuf := [], ready := false } }

/-- HP_DPADDR advances by INC. -/
def dpStep (s : State) (n : Nat) : State := { s with hp := { s.hp with dpAddr := s.hp.dpAddr + BitVec.ofNat 40 n } }

/-- Fetch `k` accesses of `n` bytes. -/
def dpFetch (n : Nat) (errs : List (Nat × Ecc)) : Nat → State → State
  | 0, s => { s with hp := { s.hp with ready := true, rbuf := s.hp.rbuf.take s.hp.dpLen.toNat } }
  | k + 1, s =>
    match dpAccess s false s.hp.dpAddr.toNat n [] errs with
    | (0, b, s1) => dpFetch n errs k (dpStep { s1 with hp := { s1.hp with rbuf := s1.hp.rbuf ++ b } } n)
    | (c, _, s1) => dpFail s1 c

/-- Drain the bytes written, `k` accesses of `n` bytes at most; bytes that do not complete an access wait (R203). -/
def dpDrain (n : Nat) (errs : List (Nat × Ecc)) : Nat → State → State
  | 0, s => s
  | k + 1, s =>
    if s.hp.wbuf.length < n then s
    else
      match dpAccess s true s.hp.dpAddr.toNat n (s.hp.wbuf.take n) errs with
      | (0, _, s1) => dpDrain n errs k (dpStep { s1 with hp := { s1.hp with wbuf := s1.hp.wbuf.drop n } } n)
      | (c, _, s1) => dpFail s1 c

/-- The host port serves its data port. -/
def dpServed (s : State) : Bool := s.answers || hpBooting s

/-- A write of HP_DPCTL (R201, R203): its fields, and a fetch where START and DIR are 1 and LEN is 1 to 4,096. -/
def dpControl (s : State) (w : Word) (errs : List (Nat × Ecc)) : State :=
  if !dpServed s then s
  else
    let n := w.toNat
    let len := n / 65536 % 8192
    let inc : BitVec 3 := BitVec.ofNat 3 n
    let s1 := { s with hp := { s.hp with
      inc := inc, dir := w.getLsbD 3, mode := w.getLsbD 4, dpLen := BitVec.ofNat 13 len } }
    let size := incSize inc
    if w.getLsbD 31 ∧ w.getLsbD 3 ∧ 1 ≤ len ∧ len ≤ 4096 ∧ 0 < size then
      dpFetch size errs (ceilDiv len size) { s1 with hp := { s1.hp with ready := false, rbuf := [] } }
    else s1

/-- Bytes written to HP_DPDATA (R203): what finds the 8 KiB buffer full is discarded. -/
def dpWrite (s : State) (b : List Byte) (errs : List (Nat × Ecc)) : State :=
  if !dpServed s || s.hp.dir then s
  else
    let room := 8192 - s.hp.wbuf.length
    let s1 := { s with hp := { s.hp with wbuf := s.hp.wbuf ++ b.take room, ovf := s.hp.ovf || decide (room < b.length) } }
    let size := incSize s.hp.inc
    if size = 0 then s1 else dpDrain size errs 8192 s1

/-- HP_DP_START (R203): HP_DPCTL is written, with the ECC outcome of the reads. -/
def execHpDpStart (ctl : Word) (errs : List (Nat × Ecc)) (s : State) : Host.Outcome State Fault Refusal := .next (dpControl s ctl errs)

/-- HP_DPDATA_WRITE (R203). -/
def execHpDpdataWrite (bytes : List Byte) (errs : List (Nat × Ecc)) (s : State) : Host.Outcome State Fault Refusal :=
  .next (dpWrite s bytes errs)

/-- A write of HP_CMDCTL: LEN, DROP, GO (R201, R451). -/
def cmdControl (s : State) (w : Word) : State :=
  let s1 := { s with hp := { s.hp with cmdLen := BitVec.ofNat 11 w.toNat, drop := s.hp.drop && !w.getLsbD 18 } }
  if !w.getLsbD 16 then s1 else if s.answers then cmdSubmit s1 else bootDescriptor s1

/-- A word written to HP_CMDBUF; ignored while BUSY. -/
def cmdBuffer (s : State) (at' : Nat) (w : Word) : State :=
  if s.hp.busy then s
  else { s with hp := { s.hp with cmdBuf := (upFrom 0 4).foldl (fun m i =>
    mapPut (at' + i) (BitVec.ofNat 8 (w.toNat / 256 ^ i)) m) s.hp.cmdBuf } }

/-- A write of a host-port register (R200, R201). Before READY only those of R451 take it. -/
def hpWrite (s : State) (off : Nat) (w : Word) : State :=
  let r := off / 4 * 4
  let up : Bool := s.answers
  if r = 0x08 ∧ up then { s with hp := { s.hp with irqEvt := s.hp.irqEvt && !w.getLsbD 1 } }
  else if r = 0x0C ∧ up then { s with hp := { s.hp with irqEn := BitVec.ofNat 5 w.toNat } }
  else if r = 0x10 ∧ dpServed s then cmdControl s w
  else if r = 0x14 ∧ up ∧ w.getLsbD 17 then rspPop s
  else if r = 0x18 ∧ dpServed s then
    { s with hp := { s.hp with dpAddr := BitVec.ofNat 40 (s.hp.dpAddr.toNat / 4294967296 * 4294967296 + w.toNat) } }
  else if r = 0x1C ∧ dpServed s then
    { s with hp := { s.hp with dpAddr := BitVec.ofNat 40 (s.hp.dpAddr.toNat % 4294967296 + w.toNat % 256 * 4294967296) } }
  else if r = 0x20 then dpControl s w []
  else if r = 0x24 ∧ dpServed s then
    { s with hp := { s.hp with err := s.hp.err && !w.getLsbD 2, ovf := s.hp.ovf && !w.getLsbD 3 } }
  else if 0x1000 ≤ r ∧ r < 0x2000 then dpWrite s (bytesLE 4 w.toNat) []
  else if 0x2000 ≤ r ∧ r < 0x25C0 ∧ dpServed s then cmdBuffer s (r - 0x2000) w
  else s

/-- HP_IRQ_STAT (R201): RSP, EVT, CMD_FREE, DP_READY, DP_ERR. -/
def irqStat (s : State) : Nat :=
  (if s.hp.rsp.isEmpty then 0 else 1) + (if s.hp.irqEvt then 2 else 0) + (if s.hp.busy then 0 else 4) +
    (if s.hp.ready then 8 else 0) + (if s.hp.err then 16 else 0)

/-- IRQ_N is asserted (R201). -/
def irqAsserted (s : State) : Bool := irqStat s &&& s.hp.irqEn.toNat != 0

/-- A read of a host-port register (R200, R201): each field as its type says (R10), write-only fields and HP_CMDBUF as 0.
Before READY only those of R451 answer, and in a reset none (DESIGN CHOICE: R451 gives HP_ID 200 µs after the release).
BUSY of HP_DPSTAT reads 1 while written bytes wait for the rest of their access. A SCRAPPED device answers HP_ID alone (R409),
and HP_BOOT_STAT too from the boot ROM's stop on (R447; DEDUCED, assumption 163). -/
def hpWord (s : State) (off : Nat) : Word :=
  let up : Bool := s.answers
  let bit (b : Bool) (k : Nat) : Nat := if b then 2 ^ k else 0
  let h := s.hp
  let n : Nat :=
    if s.boot.held then 0
    else if off = 0x00 then 0x1D204A6F
    else if off = 0x04 ∧ s.sec.life = 4 ∧ s.boot.stage = 7 then 0
    else if off = 0x04 then bit up 0 + 256 * s.boot.stage + 65536 * s.boot.code
    else if off = 0x08 ∧ up then irqStat s
    else if off = 0x0C ∧ up then h.irqEn.toNat
    else if off = 0x10 ∧ dpServed s then h.cmdLen.toNat + bit h.busy 17 + bit h.drop 18
    else if off = 0x14 ∧ up then
      (h.rsp.head?.getD []).length + bit (!h.rsp.isEmpty) 16 + 16777216 * h.rsp.length
    else if off = 0x18 ∧ dpServed s then h.dpAddr.toNat % 4294967296
    else if off = 0x1C ∧ dpServed s then h.dpAddr.toNat / 4294967296
    else if off = 0x20 ∧ dpServed s then h.inc.toNat + bit h.dir 3 + bit h.mode 4 + 65536 * h.dpLen.toNat
    else if off = 0x24 ∧ dpServed s then
      bit h.ready 0 + bit (!h.wbuf.isEmpty) 1 + bit h.err 2 + bit h.ovf 3 + 256 * h.errCode.toNat
    else if 0x3000 ≤ off ∧ off < 0x35C0 ∧ up then field (h.rsp.head?.getD []) (off - 0x3000) 4
    else 0
  BitVec.ofNat 32 n

/-- `n` bytes read from HP_DPDATA (R203): fetched bytes in order, and 0 beyond them. READY falls with the last of them. -/
def dpTake (s : State) (n : Nat) : List Byte × State :=
  if !dpServed s then (List.replicate n 0, s)
  else
    let got := s.hp.rbuf.take n
    let rest := s.hp.rbuf.drop n
    (got ++ List.replicate (n - got.length) 0, { s with hp := { s.hp with rbuf := rest, ready := s.hp.ready && !rest.isEmpty } })

/-- Whether an address lies in HP_DPDATA (R200). -/
def atDpData (a : Nat) : Bool := decide (0x1000 ≤ a) && decide (a < 0x2000)

/-- `n` words read from an address on, which advances by 4 (R200). -/
def hpReads : Nat → Nat → State → List Byte × State
  | _, 0, s => ([], s)
  | a, n + 1, s =>
    let (b, s1) := if atDpData a then dpTake s 4 else (bytesLE 4 (hpWord s a).toNat, s)
    let (c, s2) := hpReads (a + 4) n s1
    (b ++ c, s2)

/-- Words written from an address on, which advances by 4 (R200). -/
def hpWrites : Nat → Nat → List Byte → State → State
  | _, 0, _, s => s
  | a, n + 1, b, s => hpWrites (a + 4) n (b.drop 4) (hpWrite s a (BitVec.ofNat 32 (natLE (b.take 4))))

/-- A transaction of the host port (R200): the opcode and its inverse, the address, and the data of a write or the bytes to
read. A command that is neither, or whose second byte is not the inverse, is ignored. Low address bits, bytes beyond a
multiple of 4 and bytes beyond 4,096 are ignored (DESIGN CHOICE: the spec says how a host builds a transaction). One that
begins in HP_DPDATA passes every byte through the data port (R203). -/
def hostBus (s : State) (code inverse : Byte) (addr : Nat) (data : List Byte) (len : Nat) : State :=
  let a := addr / 4 * 4
  let words (n : Nat) : Nat := min (n / 4) 1024
  if inverse ≠ ~~~code then s
  else if code = 0x3A then
    let (b, s1) := if atDpData a then dpTake s (4 * words len) else hpReads a (words len) s
    s1.emit (.hostData b)
  else if code = 0xC5 then
    let n := words data.length
    if atDpData a then dpWrite s (data.take (4 * n)) [] else hpWrites a n data s
  else s

/-- REGISTER_WRITE (R10): each field takes what its type says; a register of RO fields keeps its value. A transaction of
the host port (R200), a read among them, stands here as well: the table has no row of its own for it. -/
def execRegisterWrite (reg : Reg) (value : Word) (s : State) : Host.Outcome State Fault Refusal :=
  .next (match reg with
    | .hostPort off => hpWrite s off.toNat value
    | .hostBus code inv addr data len => hostBus s code inv addr.toNat data len
    | .engine e off => portWrite s e .fabric (4 * off.toNat) value
    | .fabCtl => writeFabCtl s value.toNat
    | .record xp k => benchWrite s xp.val k.val value
    | .selector d => if isPhysDest d.toNat || isEngDest d.toNat then selectorWrite s d.toNat value else s)

/-- The privilege of the session that loaded an engine's image, ENGINEER at most (R106). -/
def mailPriv (e : Engine) : Nat :=
  match e.image with
  | some im => min im.priv 2
  | none => 0

/-- A WRITE message is checked as a direct write (R106, R186, R187, R191, R326): the reason it is refused, or what is
accepted. -/
def mailCheck (s : State) (priv : Nat) (ws : List Word) : Except Nat Accept :=
  let ix := (listGet 0 1 ws).toNat % 65536
  let sub := (listGet 0 2 ws).toNat % 16777216
  match objRow ix with
  | none => .error Rc.noObject
  | some r =>
    let c := firstCode [(!r.subs.has sub, Rc.noSub), (r.acc != .rw && r.acc != .rws, Rc.access), (r.ty == .domain, Rc.domain)]
    if c ≠ 0 then .error c
    else
      match r.ty.takeMany 1 ((ws.drop 3).flatMap (fun w => bytesLE 4 w.toNat)) with
      | some [x] =>
        let virt := s.writes.foldl (fun t w => t.setObj w.ix w.sub w.val) s
        let c1 := firstCode [(decide (priv < writePriv ix false), Rc.privilege), (notActive s ix, Rc.notActive)]
        let c2 := if c1 ≠ 0 then c1 else valueCheck s virt true r sub x
        let c3 := if c2 ≠ 0 then c2 else slotsCode s [(ix, sub, x.toNat)]
        if c3 ≠ 0 then .error c3 else .ok { ix := ix, sub := sub, val := x, priv := priv }
      | _ => .error Rc.type

/-- MBOX_WRITE (R106): the controller acts on the oldest message collected from an engine, a WRITE. -/
def execMboxWrite (eng : Fin 16) (s : State) : Host.Outcome State Fault Refusal :=
  .next (match inboxOf s eng 1 with
    | none => s
    | some ws =>
      let seq := (listGet 0 0 ws).toNat / 65536 % 256
      let s1 := takeInbox s eng ws
      if !hkRuns s then s
      else
        match mailCheck s1 (mailPriv (s.engine eng)) ws with
        | .ok a => acceptOne s1 a (some (eng.val, seq))
        | .error c =>
          let word0 : Word := BitVec.ofNat 32 (0x81 * 16777216 + seq * 65536)
          let s2 := refusalAlarm s1 ((listGet 0 1 ws).toNat % 65536) c
          { s2 with ctl := { s2.ctl with mail := s2.ctl.mail ++ [(eng.val, [word0, BitVec.ofNat 32 c])] } })

end Sys2Proof.Machine
end

