-- ==== Sys2Proof/Machine/Net.lean ====
section
/-! DEFINITION. The events of the media network (chapter 10): packets, software rings, ARP and IGMP, chain
forwarding and links. -/

namespace Sys2Proof.Machine

/-- Count one of NET_PORT_COUNTS (R259). -/
def portCount (s : State) (p k : Nat) : State := s.addHold Ix.netPortCounts (8 * p + k) 1

/-- A stream's leg `l` matches a packet on port `p` (R243). -/
def legMatches (s : State) (p : Nat) (k : NetPacket) (r l : Nat) : Bool :=
  let pair := s.nat Ix.nrxPair r
  let src := legWord (s.nat Ix.nrxSrc r) l
  let ss := s.nat Ix.nrxSsrc r
  legUsed pair l && legPort pair l == p && legWord (s.nat Ix.nrxDst r) l == k.dst.toNat &&
    s.nat Ix.nrxUdp r / 65536 ^ l % 65536 == k.dport.toNat && (src == 0 || src == k.src.toNat) &&
    (!ss.testBit 32 || ss % 4294967296 == k.ssrc.toNat)

/-- A packet passes R245 for stream `r`. -/
def packetOk (s : State) (r : Nat) (k : NetPacket) : Bool :=
  let f := (rxOf s r).fmt
  k.ipOk && !k.fragment && k.udpOk && k.version == 2 && k.ptype == nfType f &&
    k.payload.length == payloadBytes s.cls f

/-- A packet reaches the leg of a stream it matches (R241, R243, R245, R257). -/
def takePacket (s : State) (p r l : Nat) (k : NetPacket) : State :=
  if packetOk s r k then
    let st := s.nat Ix.nrxState r
    let s1 := if st.testBit (4 + l) then s else s.setNat Ix.nrxState r (st + 2 ^ (4 + l))
    placePacket (netEvent 0x02 p 1 s1) p r l k
  else (rxStat s r 5 1).alarm Al.netRxFormat (streamDetail r l)

/-- The enabled streams and legs that a packet on port `p` matches (R243). -/
def packetHits (s : State) (p : Nat) (k : NetPacket) : List (Nat × Nat) :=
  (s.net.rx.filter (fun x => x.2.run != .off)).flatMap (fun x =>
    ([0, 1].filter (legMatches s p k x.1)).map (fun l => (x.1, l)))

/-- A packet that no enabled stream matches belongs to a ring (R251): it comes as RING_FRAME_RECEIVED. -/
def ringPacket (s : State) (p : Nat) (k : NetPacket) : Bool :=
  k.dport == 319 || k.dport == 320 || k.mac.toNat == s.nat Ix.netPortMac p

/-- STREAM_PACKET_RECEIVED (R235, R243, R251). A tagged frame, one longer than 1,518 bytes (1,460 of payload), or one that
neither a stream nor a ring takes, is dropped and counted. -/
def execStreamPacketReceived (port : Fin 4) (k : NetPacket) (s : State) : Host.Outcome State Fault Refusal :=
  if s.boot.quiet then .next s else
  let p := port.val
  if !linkUp s p then .next s
  else if k.tagged ∨ 1460 < k.payload.length then .next (portCount (portCount s p 0) p 3)
  else
    let s0 := if isWatched s p k.src.toNat k.dst.toNat k.dport.toNat then
        { s with pair := { s.pair with watched := some s.tick } }
      else s
    let hits := packetHits s p k
    if !hits.isEmpty then .next (hits.foldl (fun s h => takePacket s p h.1 h.2 k) (portCount s0 p 0))
    else if ringPacket s p k then .next s0
    else .next (portCount (portCount s0 p 0) p 3)

/-- The IPv4 source of stream packets on a port (R236). -/
def streamSource (s : State) (p : Nat) : Nat :=
  if s.nat Ix.netSvcAddr p = 0 then s.nat Ix.netPortAddr p else s.nat Ix.netSvcAddr p

/-- The sum of the 16-bit words of bytes, most significant first, an odd last byte padded with 0. -/
def sumWords : List Byte → Nat
  | [] => 0
  | [a] => a.toNat * 256
  | a :: b :: t => a.toNat * 256 + b.toNat + sumWords t

/-- The one's complement of a one's complement sum; 0 is sent as 0xFFFF. -/
def checksumOf (n : Nat) : Nat :=
  let a := n % 65536 + n / 65536
  let b := a % 65536 + a / 65536
  if b % 65536 = 65535 then 65535 else 65535 - b % 65536

/-- The RTP header (R240): version 2, no padding, extension or contributing sources. -/
def rtpBytes (h : StreamHdr) : List Byte :=
  128 :: bytesBE 1 (h.ptype + (if h.marker then 128 else 0)) ++ bytesBE 2 h.seq ++ bytesBE 4 h.ts ++ bytesBE 4 h.ssrc

/-- The UDP checksum over the whole datagram, its pseudo-header included (R240). -/
def udpChecksum (h : StreamHdr) (payload : List Byte) : Nat :=
  let len := 20 + payload.length
  checksumOf (sumWords (bytesBE 4 h.src ++ bytesBE 4 h.dst ++ [0, 17] ++ bytesBE 2 len ++ bytesBE 2 h.sport ++ bytesBE 2 h.dport ++
    bytesBE 2 len ++ [0, 0] ++ rtpBytes h ++ payload))

/-- The packet a stream sends (R240). -/
def streamOutput (s : State) (p : Nat) (k : ReadyPacket) : Output :=
  let f := s.nat Ix.ntxFmt k.stream
  let i := s.nat Ix.ntxIphdr k.stream
  let h : StreamHdr :=
    { src := streamSource s p, dst := legWord (s.nat Ix.ntxDst k.stream) k.leg, dscp := i % 64, ttl := i / 256, df := true
      ident := 0, sport := s.nat Ix.ntxUdp k.stream / 65536, dport := s.nat Ix.ntxUdp k.stream % 65536, checksum := 0
      marker := false, ptype := nfType f, seq := k.first / perPacket s.cls f % 65536, ts := k.first % 4294967296
      ssrc := s.nat Ix.ntxSsrc k.stream }
  .stream p { h with checksum := udpChecksum h k.payload } k.payload

/-- EtherType of a frame without its FCS. -/
def etherType (b : List Byte) : Nat := natBE ((b.drop 12).take 2)
/-- IPv4 protocol. -/
def ipProto (b : List Byte) : Nat := (listGet 0 23 b).toNat
/-- Bytes of the IPv4 header. -/
def ipHeader (b : List Byte) : Nat := 4 * ((listGet 0 14 b).toNat % 16)
/-- UDP destination port of an IPv4 frame. -/
def udpPort (b : List Byte) : Nat := natBE ((b.drop (14 + ipHeader b + 2)).take 2)
/-- IPv4 destination. -/
def ipDest (b : List Byte) : Nat := natBE ((b.drop 30).take 4)
/-- The destination MAC address. -/
def macDest (b : List Byte) : Nat := natBE (b.take 6)

/-- PTP over IPv4 UDP. -/
def ptpUdp (b : List Byte) : Bool :=
  etherType b == 0x0800 && ipProto b == 17 && (udpPort b == 319 || udpPort b == 320)
/-- Where the PTP message of a frame begins. -/
def ptpOffset (b : List Byte) : Option Nat :=
  if etherType b = 0x88F7 then some 14 else if ptpUdp b then some (14 + ipHeader b + 8) else none
/-- A PTP event message: message types 0 to 3. -/
def ptpEvent (b : List Byte) : Bool :=
  match ptpOffset b with
  | some o => decide ((listGet 0 o b).toNat % 16 < 4)
  | none => false

/-- The row of R251 that a frame on port `p` matches. -/
def ringClass (s : State) (p : Nat) (b : List Byte) : Option Nat :=
  let et := etherType b
  if (ptpOffset b).isSome then some 0
  else if et = 0x0806 ∨ (et = 0x0800 ∧ ipProto b = 1 ∧ (ipDest b = s.nat Ix.netPortAddr p ∨ ipDest b = s.nat Ix.netSvcAddr p)) then
    some 1
  else if et = 0x0800 ∧ ipProto b = 2 then some 2
  else if macDest b = s.nat Ix.netPortMac p then some 3
  else none

/-- An address range lies in Bank B, the one bank NETD reaches (R347). -/
def inBankB (a n : Nat) : Bool := decide (0x20000000 ≤ a) && decide (a + n ≤ 0x20800000)

/-- A 32-bit word of fabric memory. -/
def bankWord (s : State) (a : Nat) : Nat := natLE (memBytes s a 4)
def setMemWord (s : State) (a w : Nat) : State := setMemBytes s a (bytesLE 4 w)

/-- The buffer a descriptor names (R253, R254). -/
def descBuffer (s : State) (d : Nat) : Nat := bankWord s (d + 4) + bankWord s (d + 8) % 256 * 4294967296

/-- Write a timestamp into words 4 to 6 of a descriptor (R253). -/
def writeTime (s : State) (d : Nat) (t : FrameTime) : State :=
  setMemWord (setMemWord (setMemWord s (d + 16) t.ns.toNat) (d + 20) (t.sec.toNat % 4294967296)) (d + 24)
    (t.sec.toNat / 4294967296 + t.qns.toNat * 65536 + 262144)

/-- Clear OWN, with the fields written back to word 0, and interrupt where IRQ is set (R252). -/
def releaseDesc (s : State) (d w0 ring : Nat) : State :=
  let s1 := setMemWord s d (w0 % 2147483648)
  if w0.testBit 14 then { s1 with net := { s1.net with irqs := s1.net.irqs ++ [ring] } } else s1

/-- A ring stands as R252 has it: 16 to 4,096 descriptors in Bank B, aligned to 32 bytes. -/
def ringOk (k : RingPlace) : Bool :=
  decide (16 ≤ k.size) && decide (k.size ≤ 4096) && k.base.toNat % 32 == 0 && inBankB k.base.toNat (32 * k.size)

/-- A ring as firmware has set it up (R252). One set up anew starts at its first descriptor: DESIGN CHOICE (log 122). -/
def ringAt (s : State) (i : Nat) (k : RingPlace) : Ring :=
  let r : Ring := mapGet (fun _ => Ring.none) i s.net.rings
  if r.base = k.base.toNat ∧ r.size = k.size then r else { Ring.none with base := k.base.toNat, size := k.size }

def setRing (s : State) (i : Nat) (r : Ring) : State :=
  { s with net := { s.net with rings := mapSet (fun _ => Ring.none) i r s.net.rings } }

/-- The address of the descriptor a ring processes next. -/
def ringDesc (r : Ring) : Nat := r.base + 32 * r.next

/-- The descriptor a ring processes next is Darond's (R252). -/
def ringOwned (s : State) (r : Ring) : Bool := decide (0 < r.size) && (bankWord s (ringDesc r)).testBit 31

/-- The ring moves on to its next descriptor, and from the last to the first (R252). -/
def advanceRing (s : State) (i : Nat) (r : Ring) : State := setRing s i { r with next := (r.next + 1) % r.size }

/-- Deliver a frame to a receive descriptor (R251, R254). -/
def deliverRing (s : State) (p cls d : Nat) (frame : List Byte) (time : FrameTime) : State :=
  let w0 := bankWord s d
  let size := w0 / 65536 % 2048
  let buf := descBuffer s d
  let body := frame.take size
  let bad := !inBankB buf body.length
  let s1 := if bad then s else setMemBytes s buf body
  let status := if bad then 3 else if size < frame.length then 1 else 0
  let s2 := setMemWord (writeTime s1 d time) (d + 28) (status + 256 * cls)
  let s3 := releaseDesc s2 d (w0 / 16384 * 16384 + frame.length % 2048 + p * 2048 + (if ptpEvent frame then 8192 else 0)) (4 * cls + p)
  let s4 := netEvent 0x08 p 1 s3
  if ptpEvent frame then netEvent 0x0A p 1 s4 else s4

/-- The frame of a UDP datagram matches an enabled receive stream on its port (R243): such a frame goes to the stream
engine. -/
def streamFrame (s : State) (p : Nat) (b : List Byte) : Bool :=
  etherType b == 0x0800 && ipProto b == 17 &&
    !(packetHits s p { mac := BitVec.ofNat 48 (macDest b), tagged := false, src := BitVec.ofNat 32 (natBE ((b.drop 26).take 4))
                       dst := BitVec.ofNat 32 (ipDest b), dport := BitVec.ofNat 16 (udpPort b), ipOk := true, fragment := false
                       udpOk := true, version := 2, ptype := 0
                       ssrc := BitVec.ofNat 32 (natBE ((b.drop (14 + ipHeader b + 16)).take 4)), ts := 0, payload := [], sample := 0
                       stamp := 0 }).isEmpty

/-- A frame is longer than 1,518 bytes with its FCS, or VLAN-tagged (R235). -/
def frameRefused (b : List Byte) : Bool := decide (1514 < b.length) || etherType b == 0x8100

/-- A frame reaches its receive ring, or finds it without a free descriptor (R251, R252). -/
def ringTake (s : State) (p cls : Nat) (frame : List Byte) (time : FrameTime) (place : Option RingPlace) : State :=
  let i := 4 * cls + p
  let none' := (portCount s p 4).alarm Al.netRingDrop i
  match place with
  | none => none'
  | some k =>
    let r := ringAt s i k
    if ringOk k && ringOwned s r then advanceRing (deliverRing s p cls (ringDesc r) frame time) i r else none'

/-- RING_FRAME_RECEIVED (R235, R251, R254). A frame that an enabled stream matches is not the rings': it comes as
STREAM_PACKET_RECEIVED. -/
def execRingFrameReceived (port : Fin 4) (frame : List Byte) (fcs : Bool) (time : FrameTime)
    (ring : Option RingPlace) (s : State) : Host.Outcome State Fault Refusal :=
  if s.boot.quiet then .next s else
  let p := port.val
  if !linkUp s p then .next s
  else
    let s1 := portCount s p 0
    if !fcs then .next (portCount s1 p 2)
    else if frameRefused frame then .next (portCount s1 p 3)
    else if streamFrame s p frame then .next s
    else
      match ringClass s p frame with
      | none => .next (portCount s1 p 3)
      | some cls => .next (ringTake s1 p cls frame time ring)

/-- TX_DESCRIPTOR_HANDOVER (R252): firmware sets OWN in a descriptor of its ring. Rings 16 to 31 are reserved (R251). -/
def execTxDescriptorHandover (ring : Fin 32) (slot : RingSlot) (osc : Bool) (s : State) :
    Host.Outcome State Fault Refusal :=
  if s.boot.quiet then .next s
  else if 16 ≤ ring.val ∨ !ringOk slot.place ∨ slot.place.size ≤ slot.index then .next s
  else
    let d := slot.place.base.toNat + 32 * slot.index
    let w0 := bankWord s d
    let s1 := setMemWord s d (if w0.testBit 31 then w0 else w0 + 2147483648)
    .next (setRing s1 (32 + ring.val) { ringAt s1 (32 + ring.val) slot.place with osc := osc })

/-- Replace bytes of a frame from an offset on. -/
def putBytes (b : List Byte) (off : Nat) (v : List Byte) : List Byte := b.take off ++ v ++ b.drop (off + v.length)

/-- A UDP checksum of 0 in a modified IPv4 frame (R255). -/
def clearUdp (b : List Byte) : List Byte := if ptpUdp b then putBytes b (14 + ipHeader b + 6) [0, 0] else b

/-- Add to correctionField, in 2^−16 ns (R255, R256). -/
def addCorrection (b : List Byte) (o n : Nat) : List Byte :=
  putBytes b (o + 8) (bytesBE 8 ((natBE ((b.drop (o + 8)).take 8) + n) % 2 ^ 64))

/-- A PTP message over IPv6 UDP, which is never modified (R255). -/
def ptpIpv6 (b : List Byte) : Bool :=
  etherType b == 0x86DD && (listGet 0 20 b) == 17 &&
    (let q := natBE ((b.drop 56).take 2)
     q == 319 || q == 320)

/-- A frame under OSC (R255): a one-step Sync takes its egress time. The answer says whether it changed. -/
def oscFrame (b : List Byte) (t : FrameTime) : List Byte × Bool :=
  match ptpOffset b with
  | some o =>
    if (listGet 0 o b).toNat % 16 = 0 ∧ !(listGet 0 (o + 6) b).getLsbD 1 then
      let stamped := putBytes b (o + 34) (bytesBE 6 t.sec.toNat ++ bytesBE 4 t.ns.toNat)
      (clearUdp (addCorrection stamped o (t.qns.toNat * 16384)), true)
    else (b, false)
  | none => (b, false)

/-- The timestamp fields of a descriptor that is written back without one hold no value (R253). -/
def clearTime (s : State) (d : Nat) : State :=
  let w := bankWord s (d + 24)
  setMemWord s (d + 24) (if w.testBit 18 then w - 262144 else w)

/-- The fields of a transmit descriptor (R253). -/
def txLen (s : State) (d : Nat) : Nat := bankWord s d % 2048
def txPort (s : State) (d : Nat) : Nat := bankWord s d / 2048 % 4
/-- The frame of a transmit descriptor. -/
def descFrame (s : State) (d : Nat) : List Byte := memBytes s (descBuffer s d) (txLen s d)

/-- A transmit descriptor can be sent: its length, its buffer, its port's link and its port's address allow it (R236, R253). -/
def txSends (s : State) (d : Nat) : Bool :=
  decide (60 ≤ txLen s d) && decide (txLen s d ≤ 1514) && inBankB (descBuffer s d) (txLen s d) && linkUp s (txPort s d) &&
    s.nat Ix.netPortAddr (txPort s d) != 0

/-- Where the PTP message of a frame begins, whatever carries it: over IPv6 after Ethernet, IPv6 and UDP headers. -/
def ptpAt (b : List Byte) : Option Nat := (ptpOffset b).or (if ptpIpv6 b then some 62 else none)

/-- A PTP event message, whatever carries it. -/
def eventFrame (b : List Byte) : Bool :=
  match ptpAt b with
  | some o => decide ((listGet 0 o b).toNat % 16 < 4)
  | none => false

/-- The chain's queue of the port its frames leave on (R256). -/
def fwdOf (s : State) (q : Nat) : List FwdFrame := mapGet (fun _ => []) q s.net.fwd
def setFwd (s : State) (q : Nat) (l : List FwdFrame) : State :=
  { s with net := { s.net with fwd := mapSet (fun _ => []) q l s.net.fwd } }

/-- A PTP event frame waits for port `p` in a transmit ring or in the chain's queue: the first class of R247. -/
def eventWaits (s : State) (p : Nat) : Bool :=
  (fwdOf s p).any (fun k => eventFrame k.bytes) ||
  s.net.rings.any (fun q => decide (32 ≤ q.1) && ringOwned s q.2 &&
    (let d := ringDesc q.2
     txPort s d == p && txSends s d && eventFrame (descFrame s d)))

/-- A stream packet waits at port `p` and is to be sent: the second class of R247. -/
def streamWaits (s : State) (p : Nat) : Bool :=
  (mapGet (fun _ => []) p s.net.ready).any (fun (k : ReadyPacket) => sendsPacket s k.stream k.first)

/-- A frame that begins to leave port `p` must wait for those of a class before its own (R247). -/
def mustWait (s : State) (p : Nat) (event : Bool) : Bool := !event && (eventWaits s p || streamWaits s p)

/-- A forwarded frame as it leaves (R256): a PTP event message with its residence time added to correctionField, and over
IPv4 with a UDP checksum of 0. -/
def fwdBytes (k : FwdFrame) : List Byte :=
  match ptpAt k.bytes with
  | some o => if eventFrame k.bytes then clearUdp (addCorrection k.bytes o k.residence) else k.bytes
  | none => k.bytes

/-- A forwarded frame leaves port `q` (R256). Of an event message both timestamps of R255 are taken. -/
def fwdSend (q : Nat) (s : State) (k : FwdFrame) : State :=
  let s1 := (portCount (portCount s (5 - q) 5) q 1).emit (.netFrame q (fwdBytes k))
  netEvent 0x0C (5 - q) 1 (if eventFrame k.bytes then netEvent 0x0A q 1 (netEvent 0x0A (5 - q) 1 (netEvent 0x0B q 1 s1)) else s1)

/-- The port takes its turn with the chain's queue (R247, R256): event frames leave, and the others once no frame of a class
before theirs waits. -/
def fwdTurn (s : State) (q : Nat) : State :=
  let l := fwdOf s q
  let events := l.filter (fun k => eventFrame k.bytes)
  let rest := l.filter (fun k => !eventFrame k.bytes)
  if l.isEmpty ∨ !linkUp s q ∨ s.nat Ix.netPortAddr q = 0 then s
  else
    let s1 := events.foldl (fwdSend q) (setFwd s q rest)
    if mustWait s1 q false then s1 else rest.foldl (fwdSend q) (setFwd s1 q [])

/-- The chain's ports at a tick boundary: what waits leaves as soon as it may (R256). -/
def chainTurn (s : State) : State := fwdTurn (fwdTurn s 2) 3

/-- STREAM_PACKET_SENT (R247, R248): the earliest ready packet of the port goes on the wire while the unit is
door-holder, after the PTP event frames that wait; otherwise it goes nowhere. A port whose link is down discards it (R257). -/
def execStreamPacketSent (turn : PortTurn) (s0 : State) : Host.Outcome State Fault Refusal :=
  if s0.boot.quiet then .next s0 else
  let p := turn.port.val
  let s := fwdTurn s0 p
  match mapGet (fun _ => []) p s.net.ready with
  | [] => .next s
  | k :: rest =>
    let s1 := { s with net := { s.net with ready := mapSet (fun _ => []) p rest s.net.ready } }
    if !sendsPacket s k.stream k.first then .next s1
    else if !linkUp s p then
      .next ((portCount s1 p 7).alarm Al.netTxDrop (streamDetail k.stream k.leg))
    else if eventWaits s p then .next s
    else
      let s2 := portCount (s1.addHold Ix.ntxPackets (2 * k.stream + k.leg) 1) p 1
      .next (netEvent 0x0D p turn.waited (netEvent 0x03 p 1 (s2.emit (streamOutput s p k))))

/-- A transmit descriptor is written back with its status and OWN clear (R252, R253). -/
def finishDesc (s : State) (i : Nat) (r : Ring) (status : Nat) : State :=
  let d := ringDesc r
  releaseDesc (setMemWord (advanceRing s i r) (d + 28) status) d (bankWord s d) i

/-- The frame of a descriptor leaves its port (R253, R255). -/
def sendDesc (s : State) (r : Ring) (time : FrameTime) : State :=
  let d := ringDesc r
  let p := txPort s d
  let frame := descFrame s d
  let event := eventFrame frame
  let (out, changed) := if r.osc then oscFrame frame time else (frame, false)
  let s2 := (portCount s p 1).emit (.netFrame p out)
  let s3 := netEvent 0x09 p 1 (if changed then netEvent 0x0B p 1 s2 else s2)
  if (bankWord s d).testBit 13 || (r.osc && event) then writeTime (if event then netEvent 0x0A p 1 s3 else s3) d time
  else clearTime s3 d

/-- RING_FRAME_SENT (R247, R253, R255, R257): the next descriptor of a transmit ring is processed and written
back, as the first bit of its frame leaves; it waits for frames of a class before its own. What status a port without an
address (R236) writes back is not given: it is dropped as where the link is down. DESIGN CHOICE (log 123). -/
def execRingFrameSent (ring : Fin 32) (send : RingSend) (s0 : State) : Host.Outcome State Fault Refusal :=
  if s0.boot.quiet then .next s0 else
  let i := 32 + ring.val
  let r : Ring := mapGet (fun _ => Ring.none) i s0.net.rings
  let d := ringDesc r
  let p := txPort s0 d
  let s := fwdTurn s0 p
  let len := txLen s d
  if !ringOwned s r then .next s
  else if len < 60 ∨ 1514 < len then .next (finishDesc (clearTime s d) i r 2)
  else if !linkUp s p ∨ s.nat Ix.netPortAddr p = 0 then .next (finishDesc (clearTime (portCount s p 7) d) i r 1)
  else if !inBankB (descBuffer s d) len ∨ send.fault then .next (finishDesc (clearTime s d) i r 3)
  else if mustWait s p (eventFrame (descFrame s d)) then .next s
  else .next (finishDesc (sendDesc s r send.time) i r (if r.osc && ptpIpv6 (descFrame s d) then 4 else 0))

/-- MEDIA_ARP_REQUEST (R236): NET_PORT_ADDR is answered in every role, NET_SVC_ADDR only by the door-holder. -/
def execMediaArpRequest (port : Fin 4) (target : BitVec 32) (s : State) : Host.Outcome State Fault Refusal :=
  if s.boot.quiet then .next s else
  let p := port.val
  let t := target.toNat
  let own := s.nat Ix.netPortAddr p
  let svc := s.nat Ix.netSvcAddr p
  if linkUp s p && own != 0 && (t == own || (svc != 0 && t == svc && s.isDoor)) then
    .next (sendCtl s p (.mediaArp p t false))
  else .next s

/-- IGMP_REPEAT (R250): the join report is repeated once. -/
def execIgmpRepeat (stream : Fin 512) (watch : Bool) (s : State) : Host.Outcome State Fault Refusal :=
  if s.boot.quiet then .next s else
  let r := stream.val
  if watch then
    if s.net.watchDue.contains r then
      let s1 := { s with net := { s.net with watchDue := s.net.watchDue.filter (fun k => k != r) } }
      .next (if (watchedStreams s1).contains r then reportGroups s1 (watchGroupsOf s1 r) true else s1)
    else .next s
  else
  let x := rxOf s r
  if !x.repeatDue.isEmpty && x.run != .off then .next (reportGroups (setRx s r { x with repeatDue := [] }) x.repeatDue true)
  else .next s

/-- The sources of a group on a port, as the streams that have joined it name them (R250): none of them, where one takes any
source. -/
def groupSources (gs : List (Nat × Nat × Nat)) (p g : Nat) : List Nat × Bool :=
  let mine := (gs.filter (fun h => h.1 == p && h.2.1 == g)).map (fun h => h.2.2)
  if mine.contains 0 then ([], true) else (mine, false)

/-- The answer to a query about one joined group (RFC 3376, R250): its sources, or the ones among those asked for. -/
def answerQuery (gs : List (Nat × Nat × Nat)) (p : Nat) (ask : List Nat) (s : State) (g : Nat) : State :=
  let (mine, any) := groupSources gs p g
  if ask.isEmpty then sendCtl s p (.igmpState p g mine any)
  else
    let both := if any then ask else mine.filter (fun a => ask.contains a)
    if both.isEmpty then s else sendCtl s p (.igmpState p g both false)

/-- IGMP_QUERY (R250): every group joined on the port that the query asks for is reported. -/
def execIgmpQuery (port : Fin 4) (query : GroupQuery) (s : State) :
    Host.Outcome State Fault Refusal :=
  if s.boot.quiet then .next s else
  let gs := joinedGroups s
  let asked := (gs.filter (fun g => g.1 == port.val && (query.group == 0 || g.2.1 == query.group.toNat))).map (fun g => g.2.1)
  .next (asked.eraseDups.foldl (answerQuery gs port.val (query.sources.map (fun a => a.toNat))) s)

/-- A frame is forwarded in chain mode (R256). -/
def chainForwards (s : State) (p : Nat) (b : List Byte) : Bool :=
  let d := macDest b
  d != s.nat Ix.netPortMac p && !(decide (0x0180C2000000 ≤ d) && decide (d ≤ 0x0180C200000F))

/-- A frame to a group address is delivered locally too, where it is counted (R256). -/
def groupFrame (b : List Byte) : Bool := (listGet 0 0 b).getLsbD 0

/-- The chain's queue of a port takes a frame, within 256 KiB (R256). -/
def fwdWait (s : State) (q : Nat) (k : FwdFrame) : State :=
  let l := fwdOf s q
  if 262144 < l.foldl (fun n x => n + x.bytes.length) 0 + k.bytes.length then
    (portCount s (5 - q) 6).alarm (Al.netFwdDrop.src (5 - q))
  else setFwd s q (l ++ [k])

/-- CHAIN_FORWARD (R235, R236, R247, R256). A frame the port refuses is dropped; one that finds the far port down, or
without an address, is not forwarded. Another leaves at once, behind what its port has to send first, or waits in the queue:
`busy`, while the port is still sending a frame, or for frames of a class before its own. The frames received are counted
here where no local delivery counts them. When a waiting frame leaves (assumption 144): at its port's next turn or at the
next boundary. -/
def execChainForward (port : Fin 4) (frame : List Byte) (residence : Nat) (busy : Bool) (s : State) :
    Host.Outcome State Fault Refusal :=
  if s.boot.quiet then .next s else
  let p := port.val
  let q := 5 - p
  let s0 := if groupFrame frame then s else portCount s p 0
  if s.nat Ix.netPair1Mode ≠ 1 ∨ p < 2 ∨ !linkUp s p ∨ !chainForwards s p frame then .next s
  else if frameRefused frame then .next (if groupFrame frame then s else portCount s0 p 3)
  else if !linkUp s q ∨ s.nat Ix.netPortAddr q = 0 then .next ((portCount s0 p 6).alarm (Al.netFwdDrop.src p))
  else
    let k : FwdFrame := { bytes := frame, residence := residence }
    let s1 := if busy then s0 else fwdTurn s0 q
    .next (if busy || mustWait s1 q (eventFrame frame) then fwdWait s1 q k else fwdSend q s1 k)

/-- LINK_DOWN_DECLARED (R257, R271). -/
def execLinkDownDeclared (port : Fin 4) (s : State) : Host.Outcome State Fault Refusal := .next (downLink s port.val)

/-- LINK_UP_DECLARED (R257, R271). -/
def execLinkUpDeclared (port : Fin 4) (s : State) : Host.Outcome State Fault Refusal :=
  let v := s.nat Ix.netPortSpeed port.val
  let i := port.val / 2
  if v = 0 then .next s
  else
    let s1 := s.setNat Ix.netLink port.val (if v = 1 then 1 else 2)
    .next (ptpDecide s1 i (ptpOf s1 i))

/-- LEG_DOWN (R257). -/
def execLegDown (stream : Fin 512) (leg : Fin 2) (s : State) : Host.Outcome State Fault Refusal :=
  let r := stream.val
  let st := s.nat Ix.nrxState r
  if (rxOf s r).run != .off && st.testBit (4 + leg.val) then
    .next ((s.setNat Ix.nrxState r (st - 2 ^ (4 + leg.val))).alarm Al.netLegDown (streamDetail r leg.val))
  else .next s

end Sys2Proof.Machine
end

