-- ==== Sys2Proof/Machine/Ticks.lean ====
section
/-! DEFINITION. The phases of a tick: deadlines, the opening of P4 and P5, gathers, Bench frames and egress
(R39 to R45, R116 to R119, R146, R153, R159, R172), and the instants at which landings are made (R163, R174). -/

namespace Sys2Proof.Machine

/-- Whether the sequencer runs ticks (R36, R37). -/
def ticksRun (s : State) : Bool :=
  s.boot.stage == 7 && !s.syn.dead && (match s.clk.seq with
    | .running => true
    | .fading _ => true
    | _ => false)

/-- Whether the unit sums, gathers and runs sections in this tick (R325, R333, R341): not while it stands by, except in
the warm of a planned swap, and as the old door-holder until its outputs have faded; and not in the tick of a takeover,
whose engines and Bench begin in the next (R338). -/
def unitWorks (s : State) : Bool :=
  let role := s.nat Ix.pairRole
  let warm := match s.pair.swap with
    | some w => !w.giver && decide (w.tw < s.tick)
    | none => false
  ticksRun s && !s.pair.runDue && (role == 0 || role == 3 || warm || s.pair.outHold.isSome)

/-- Run a phase's work, where the unit does it at all, after the landings of the tick. -/
def inTick (s : State) (f : State → State) : State :=
  if unitWorks s then f (settle s) else s

/-- Close phase `k` of the tick, once. -/
def closePhase (s : State) (k : Nat) (f : State → State) : State :=
  if !ticksRun s || s.clk.closed.contains k then s
  else
    let s1 := settle s
    f { s1 with clk := { s1.clk with closed := s1.clk.closed ++ [k] } }

/-- The end of P0 (R43, R50): ingress frames not handed over are absent. -/
def closeP0 (s : State) : State :=
  if s.port.held.isEmpty then s
  else
    let s1 := { s with port := { s.port with held := [] } }
    (s1.addWrap Ix.overrunCount 0x12 1).alarm Al.ingressLate

/-- An engine has signalled DONE of a section in this tick (R45, R100). -/
def sectionDone (e : Engine) (second : Bool) : Bool :=
  if second then e.ran2 && e.sec != 2 else e.ran1 && e.sec != 1

/-- An engine runs the section in every tick. -/
def runsSection (e : Engine) (second : Bool) : Bool :=
  (e.run == .running || e.run == .waiting) && (!second || (match e.image with
    | some im => imgSecond im
    | none => false))

/-- The deadline of a section (R44, R45): engines that have not signalled DONE have overrun, and every output of the
section not written is substituted. A place whose engine has not been started writes nothing: its frames are absent
(R142). A place that STOP has made IDLE is substituted, fade-out and then silence, as R110 says, and not absent as R142 says
of an IDLE place (DESIGN CHOICE, assumption 102: the two rules differ). -/
def closeSection (s : State) (second : Bool) : State :=
  let s1 := (List.finRange 16).foldl (fun t e =>
    let g := t.engine e
    if runsSection g second && !sectionDone g second then haltEngine t e 1 else t) s
  (List.finRange 16).foldl (fun t p =>
    let g := t.engine (engineOf t p)
    if g.image.isNone || (g.run == .idle && !g.subst) then t
    else (slotsOf g.loc.outMap second).foldl (fun u k => substitute u (0x3000 + 256 * p.val + k)) t) s1

/-- A crosspoint will be OFF at the end of the tick, as its P3 deadline leaves it (R127, R172). A unit that stands by has
not yet run its frame. -/
def offAtEnd (s : State) (i : Nat) : Bool :=
  let x := xpOf s i
  let y := if unitWorks s || x.mode == 1 then x else (xpFrame 0 x (List.replicate s.ticklen 0)).2.1
  x.state == .off || xpReleased y

/-- The final check of a commit (R172). -/
def finalCheckOf (s : State) (p : Pending) : State :=
  let cs := if p.mirrored then p.changes.filter (fun c => isPairObj c.ix) else p.changes
  let bad := cs.any (fun c =>
    let r := changeCode s cs (fun i => !offAtEnd s i) c
    r != 0 && r != Rc.capacity)
  if bad then rejectCommit s p 12
  else { s with shut := { s.shut with
      pend := s.shut.pend.map (fun q => if q.id == p.id then { q with checked := true, frozen := true } else q) } }

/-- The final check of the commit that lands in the next tick (R172). -/
def finalCheck (s : State) : State :=
  match s.shut.pend.find? (fun p => !p.checked && p.tick == s.tick + 1) with
  | none => s
  | some p => finalCheckOf s p

/-- What the end of each phase does. -/
def phaseEnd (s : State) (k : Nat) : State :=
  match k with
  | 0 => closeP0 s
  | 1 => if unitWorks s then closeEgress s 1 else s
  | 2 => if unitWorks s then closeSection s false else s
  | 3 => preparePages (finalCheck (if unitWorks s then closeBench s else s))
  | 4 => if unitWorks s then closeSection s true else s
  | _ => if unitWorks s then closeEgress s 0 else if s.boot.quiet then s else standbyStreams s

/-- P0_DEADLINE (R43). -/
def execP0Deadline (s : State) : Host.Outcome State Fault Refusal := .next (closePhase s 0 (phaseEnd · 0))
/-- P1_DEADLINE (R44). -/
def execP1Deadline (s : State) : Host.Outcome State Fault Refusal := .next (closePhase s 1 (phaseEnd · 1))
/-- P2_DEADLINE (R45). -/
def execP2Deadline (s : State) : Host.Outcome State Fault Refusal := .next (closePhase s 2 (phaseEnd · 2))
/-- P3_DEADLINE (R118, R172). -/
def execP3Deadline (s : State) : Host.Outcome State Fault Refusal := .next (closePhase s 3 (phaseEnd · 3))
/-- P4_DEADLINE (R45). -/
def execP4Deadline (s : State) : Host.Outcome State Fault Refusal := .next (closePhase s 4 (phaseEnd · 4))
/-- P5_DEADLINE (R44). -/
def execP5Deadline (s : State) : Host.Outcome State Fault Refusal := .next (closePhase s 5 (phaseEnd · 5))

/-- PHASE_D2_OPEN (R40): P4 and P5 open. -/
def execPhaseD2Open (s : State) : Host.Outcome State Fault Refusal :=
  .next (if ticksRun s then
    let s1 := settle s
    { s1 with clk := { s1.clk with late := true } }
  else s)

/-- A reader's phase has opened in the tick: the bus pass and the processed egress wait for D2 (R39, R40). -/
def phaseOpen (s : State) (d : Nat) : Bool :=
  match readerOf s d with
  | .p4Engine => s.clk.late
  | .p5 => s.clk.late
  | _ => true

/-- Gather a destination whose phase is open. -/
def gatherOpen (s : State) (d : Nat) (q : LatReads) : State :=
  if phaseOpen s d then gatherWith s d q else s

/-- LATTICE_GATHER (R146, R159). -/
def execLatticeGather (g : DestGather) (s : State) : Host.Outcome State Fault Refusal :=
  .next (inTick s (gatherOpen · g.dest.toNat g.reads))

/-- READER_WAIT_END (R43): the frame a destination waited for has come, and it is gathered. -/
def execReaderWaitEnd (g : DestGather) (s : State) : Host.Outcome State Fault Refusal :=
  .next (inTick s (gatherOpen · g.dest.toNat g.reads))

/-- SOFT_TAKE_END (R153): a SOFT take past k = 31 gives up its slot. -/
def execSoftTakeEnd (dest : Half) (s : State) : Host.Outcome State Fault Refusal :=
  .next (match (s.dest dest.toNat).take with
    | some t => if t.soft then s.setDest dest.toNat (endTake (s.dest dest.toNat)) else s
    | none => s)

/-- INPUT_GATHER_DONE (R102): the section's input frames are in X memory. Where a frame is still awaited the
gather is not complete and the section is not opened for it. -/
def execInputGatherDone (eng : Fin 16) (g : SectionGather) (s0 : State) : Host.Outcome State Fault Refusal :=
  if !unitWorks s0 then .next s0
  else
    let s := settle s0
    match feedPlace s eng with
    | none => .next s
    | some p =>
      let e := s.engine eng
      if e.image.isNone || (g.second && !s.clk.late) then .next s
      else
        let ks := slotsOf e.loc.inMap g.second
        let (s1, all) := gatherSlots s p ks g.reads
        if !all then .next s1
        else
          let s2 := fillInputs s1 p eng ks
          let e2 := s2.engine eng
          .next (s2.setEngine eng (if g.second then { e2 with gather2 := true } else { e2 with gather1 := true }))

/-- A crosspoint under a mode whose count runs out within this tick's frame. -/
def endsNow (s : State) (i mode : Nat) : Bool :=
  let x := xpOf s i
  (x.state == .moving || x.state == .releasing) && x.mode == mode && decide (1 ≤ x.rem) && decide (x.rem ≤ s.ticklen)

/-- The Bench walks as far as a crosspoint whose count runs out in this frame (R116, R125), until the P3 deadline (R118). -/
def sumTo (s : State) (i mode : Nat) (q : SumReads) : State :=
  if endsNow s i mode && !s.clk.closed.contains 3 then (walkOn (walkTo (fun k => k == i) (benchWalk s)) q s).1 else s

/-- ZC_TIMEOUT_STEP (R125): the Bench sums a crosspoint whose ZC count runs out in this frame: it steps to its target
at that sample, unless a crossing comes first. -/
def execZcTimeoutStep (m : XpSum) (s : State) : Host.Outcome State Fault Refusal :=
  .next (inTick s (sumTo · m.xp.val 1 m.reads))

/-- RAMP_MOVE_END (R125): the Bench sums a crosspoint whose RAMP count runs out in this frame. -/
def execRampMoveEnd (m : XpSum) (s : State) : Host.Outcome State Fault Refusal :=
  .next (inTick s (sumTo · m.xp.val 2 m.reads))

/-- BUS_FRAME_WRITTEN (R116, R118): the Bench walks as far as the last crosspoint of a bus, and its frame is written once
that one is summed. -/
def execBusFrameWritten (bus : Fin 1024) (reads : SumReads) (s : State) : Host.Outcome State Fault Refusal :=
  .next (inTick s (fun t =>
    if !t.bench.named.contains bus.val || t.bench.written.contains bus.val || t.clk.closed.contains 3 then t
    else
      match walkOn (walkOfBus t bus.val) reads (benchEvent 0x03 reads.waited t) with
      | (t1, true) => writeBus t1 bus.val
      | (t1, false) => t1))

/-- BENCH_SCRUB_READ (R119, R137): a record is scrubbed. -/
def execBenchScrubRead (xp : Fin 786432) (ecc : Ecc) (s : State) : Host.Outcome State Fault Refusal :=
  let s1 := benchEvent 0x09 1 s
  .next (match ecc with
    | .ok => s1
    | .corrected => s1.addHold Ix.benchEccCe 0 1
    | .bad => xpFault s1 xp.val)

/-- EGRESS_CONVERT (R131). -/
def execEgressConvert (dest : Half) (s : State) : Host.Outcome State Fault Refusal :=
  .next (inTick s (convertDest · dest.toNat))

/-- LATTICE_SCRUB_READ (R159): a word of the selector table, or of a frame that the store holds of a source, in the tick
buffer that takes the tag `age` ticks before the newest. -/
def execLatticeScrubRead (selector : Bool) (id : Half) (age : Fin 3) (ecc : Ecc) (s : State) :
    Host.Outcome State Fault Refusal :=
  .next (if !selector && (ingressBank id.toNat).isSome then s
    else match ecc with
    | .ok => s
    | .corrected => s.addHold Ix.latEccCe 0 1
    | .bad =>
      if selector then selFault s id.toNat
      else
        let (ws, tag) := slotFrame s id.toNat ((s.tick + 2 - age.val) % 3)
        slotFault s id.toNat ws.isEmpty tag)

/-- COMMIT_FREEZE (R172): at sample 0 of tick T − 1 a pending commit can no longer be aborted, and the Shutter writes the
back pages for it (R178). -/
def execCommitFreeze (id : Word) (s : State) : Host.Outcome State Fault Refusal :=
  .next (if s.shut.pend.any (fun p => p.id == id.toNat && !p.frozen && decide (p.tick ≤ s.tick + 1)) then
    preparePages { s with shut := { s.shut with
      pend := s.shut.pend.map (fun p => if p.id == id.toNat && decide (p.tick ≤ s.tick + 1) then { p with frozen := true } else p) } }
  else s)

/-- COMMIT_LANDING (R174): the commit of this tick lands. -/
def execCommitLanding (s : State) : Host.Outcome State Fault Refusal :=
  .next (if ticksRun s && s.clk.commitDue then landCommit s else s)

/-- DIRECT_WRITE_LANDING (R163, R175): the direct writes of this boundary land, after its commit. -/
def execDirectWriteLanding (s : State) : Host.Outcome State Fault Refusal :=
  .next (if ticksRun s && s.clk.writesDue then landWrites (if s.clk.commitDue then landCommit s else s) else s)

/-- ENG_CTL_ACT (R110, R453): an accepted ENG_CTL command of a place acts at the boundary of its tick. -/
def execEngCtlAct (place : Fin 16) (s : State) : Host.Outcome State Fault Refusal :=
  .next (match mapGet (fun _ => none) place.val s.ctl.engCtl with
    | none => s
    | some (cmd, t) =>
      if t ≤ s.tick then engCtlDue { s with ctl := { s.ctl with engCtl := mapErase place.val s.ctl.engCtl } } place cmd
      else s)

/-- UNOWNED_SET_EXPIRY (R338): open sets still unowned 10 s after a takeover are discarded. -/
def execUnownedSetExpiry (s : State) : Host.Outcome State Fault Refusal :=
  .next (match s.shut.unowned with
    | none => s
    | some t =>
      if s.tick < t then s
      else
        let gone := (s.shut.sets.filter (fun p => p.2.session == 0)).map (fun p => p.1)
        let s1 := gone.foldl (fun u n => setSet (mirrorSetEnd u n 2 0) n none) s
        { s1 with shut := { s1.shut with unowned := none }, pair := { s1.pair with orphans := [] } })

end Sys2Proof.Machine
end

