-- ==== Sys2Proof/Machine/PairOps.lean ====
section
/-! DEFINITION. What the units of a pair do with what they receive: mirror records and the snapshot (R332, R333, R342),
digests (R334), evidence and the witness (R335, R336), the heartbeat (R329), and the places of a planned swap (R341). -/

namespace Sys2Proof.Machine

/-- Change the pair's own state. -/
def State.onPair (s : State) (f : PairSt → PairSt) : State := { s with pair := f s.pair }

/-- The unit takes mirror records: STANDBY-SYNC or STANDBY (R330). -/
def standsBy (s : State) : Bool := s.nat Ix.pairRole == 1 || s.nat Ix.pairRole == 2

/-- A frame of the shared sequence arrives (R322): whether its content is taken. A frame is taken in order only, with a
good CRC; its further records belong to it. The start of a snapshot sets the sequence. -/
def linkFrame (s : State) (f : LinkRec) (start : Bool) : Bool × State :=
  if !s.paired then (false, s)
  else if f.first then
    let ok : Bool := f.good && (f.seq == (s.pair.seqIn + 1) % 4294967296 || start)
    (ok, s.onPair (fun p => { p with seqIn := if ok then f.seq else p.seqIn, frameOk := ok }))
  else (s.pair.frameOk && f.good && f.seq == s.pair.seqIn, s)

/-- A value on the link as an object holds it. -/
def valOf (w : WireVal) : Option Val :=
  match objRow w.index.toNat with
  | none => none
  | some r => (r.ty.take w.value).map (fun p => p.1)

/-- Changes on the link. -/
def changesOf (ws : List WireVal) : List Change :=
  ws.filterMap (fun w => (valOf w).map (fun v => { ix := w.index.toNat, sub := w.sub, val := v, keyed := w.keyed }))

/-- A mirrored direct write lands at its tick, or at once where that has passed (R333). -/
def mirroredWrite (s : State) (ix sub gen tick : Nat) (v : Val) : State :=
  let w : DirectWrite := { ix := ix, sub := sub, val := v, mbox := none, after := tick, gen := some gen, priv := 2 }
  if !isPairObj ix then s
  else if tick ≤ s.tick then landWrite s w
  else { s with writes := s.writes ++ [w] }

/-- A mirrored pending commit (R333). One that comes after the instant of its final check is checked at once, and one
that comes after its landing tick is checked and lands at once. -/
def mirroredCommit (s : State) (id land : Nat) (cs : List Change) : State :=
  let p : Pending := { id := id, session := 0, tick := land, changes := cs, frozen := false, checked := false
                       motion := commitMotion cs, takes := commitTakes (commitBase s) cs, mirrored := true }
  let s1 := syncStage (takeSlot { s with shut := { s.shut with
    pend := s.shut.pend ++ [p], nextId := (id + 1) % 4294967296 } } id land)
  if land ≤ s1.tick then
    let s2 := finalCheckOf s1 p
    if s2.shut.pend.any (fun q => q.id == id) then
      let s3 := bumpGen (landAll s2 ((cs.filter (fun c => isPairObj c.ix)).map Change.asWrite)) none
      endCommit s3 p 0 (s3.nat Ix.shutGen)
    else s2
  else if land = s1.tick + 1 ∧ s1.clk.closed.contains 3 then finalCheck s1
  else s1

/-- The unit and its partner differ (R333, R342): it is STANDBY-SYNC, and resyncs. -/
def mismatch (s : State) : State := (if standsBy s then toSync s else s).alarm Al.mirrorMismatch

/-- COMMIT_END (R333): the partner's result of a commit, against the unit's own. The unit takes the commit's generation, where
no later landing has given it another. A rejection that needs no check ends the commit here too. The answer says whether the
record is done with. -/
def mirroredEnd (s : State) (id code gen : Nat) : Bool × State :=
  match s.pair.results.find? (fun r => r.1 == id) with
  | some r =>
    let s1 := s.onPair (fun p => { p with results := p.results.filter (fun q => q.1 != id) })
    (true, if r.2.1 ≠ code then mismatch s1
      else if code = 0 ∧ r.2.2 = s1.nat Ix.shutGen ∧ gen ≠ r.2.2 then setGen s1 gen else s1)
  | none =>
    match s.shut.pend.find? (fun p => p.id == id) with
    | none => (true, s)
    | some p =>
      if code = 8 ∨ 13 ≤ code then
        let s1 := rejectCommit s p code
        (true, s1.onPair (fun q => { q with results := q.results.filter (fun r => r.1 != id) }))
      else (false, s)

/-- XP_STEP (R332): a ZC step or a fault of a crosspoint. -/
def mirroredStep (s : State) (i event : Nat) (cur : Int) : State :=
  let x := xpOf s i
  if event = 2 then xpFault s i
  else setXp s i (xpSettle { x with cur := cur, rem := if cur = x.tgt then 0 else x.rem })

/-- A DOMAIN value received in BULK frames, by its hash (R332). -/
def bulkValue (s : State) (index sub len : Nat) (hash : List Byte) : Option (List Byte) :=
  s.pair.parts.findSome? (fun p => match p with
    | .domain i k d => if i = index ∧ k = sub ∧ d.length = len ∧ Config.sha256 d = hash then some d else none
    | _ => none)

/-- Apply one mirror record (R333). The answer says whether it is done with; a record whose time has not come is kept. -/
def applyRecord (s : State) (r : MirRec) : Bool × State :=
  match r with
  | .write gen tick w =>
    match valOf w with
    | none => (true, s)
    | some v => (true, mirroredWrite s w.index.toNat w.sub gen tick v)
  | .stage _ set slot ws =>
    let old := match mapFind set s.shut.sets with
      | some x => if x.session = 0 then x.changes else []
      | none => []
    let s1 := setSet s set (some { session := 0, changes := (changesOf ws).foldl putChange old })
    (true, s1.onPair (fun p => { p with orphans := mapPut set (some slot) p.orphans }))
  | .setEnd _ set _ _ => (true, (setSet s set none).onPair (fun p => { p with orphans := mapErase set p.orphans }))
  | .commit _ id set land =>
    let cs := match mapFind set s.shut.sets with
      | some x => x.changes
      | none => []
    (true, mirroredCommit s id land cs)
  | .commitEnd _ id code gen => mirroredEnd s id code gen
  | .xpStep _ i _ event cur => (true, mirroredStep s i event cur)
  | .gr _ place base ws => (true, s.onPair (fun p => { p with gr := mapPut place (base, ws) p.gr }))
  | .placeCrc tick cs => (true, s.onPair (fun p => { p with theirCrcs := some (tick, cs) }))
  | .domain gen tick index sub len hash =>
    match bulkValue s index sub len hash with
    | none => (false, s)
    | some d => (true, mirroredWrite s index sub gen tick (.bytes d))

/-- Apply records in order, keeping those that have to wait. -/
def applyRecords : List MirRec → State → State
  | [], s => s
  | r :: t, s =>
    match applyRecord s r with
    | (true, s1) => applyRecords t s1
    | (false, s1) => applyRecords t (s1.onPair (fun p => { p with held := p.held ++ [r] }))

/-- Try again the records that wait. -/
def retryHeld (s : State) : State := applyRecords s.pair.held (s.onPair (fun p => { p with held := [] }))

/-- A mirror record arrives (R322, R333): a unit whose snapshot is not complete keeps it; a unit in quiet mode, or one
that does not stand by, discards it (R454). PLACE_CRC goes both ways (R341). -/
def receiveRecord (s0 : State) (f : LinkRec) (r : MirRec) : State :=
  let (ok, s) := linkFrame s0 f false
  let crc : Bool := match r with
    | .placeCrc _ _ => true
    | _ => false
  if !ok || s.boot.quiet || !(standsBy s || (crc && s.isDoor)) then s
  else if s.nat Ix.pairRole = 1 ∧ !s.pair.snapTaken then s.onPair (fun p => { p with held := p.held ++ [r] })
  else applyRecords [r] s

/-- The door-holder's snapshot (R342): values that differ from their defaults, DOMAIN values, pending commits, open sets, each
in parts that fit a frame. -/
def snapParts (s : State) : List BulkPart :=
  let vals := pairValues s
  let plain := vals.filter (fun p => (objRow p.1).map (fun r => r.ty) != some Ty.domain)
  let doms := vals.filter (fun p => (objRow p.1).map (fun r => r.ty) == some Ty.domain)
  let wires (cs : List Change) : List WireVal := cs.map (fun c => wireOf c.ix c.sub c.val c.keyed)
  let slotOf' (x : StageSet) (k : Nat) : Nat := match sessOf s x.session with
    | some y => y.slot
    | none => (mapGet (fun _ => none) k s.pair.orphans).getD 0
  [.start (s.nat Ix.shutGen)] ++ plain.map (fun p => .value (wireOf p.1 p.2.1 p.2.2)) ++
    doms.flatMap (fun p => splitPart (.domain p.1 p.2.1 p.2.2.toBytes)) ++
    s.shut.pend.flatMap (fun p => splitPart (.pending p.id p.tick (wires p.changes))) ++
    s.shut.sets.flatMap (fun p => splitPart (.openSet p.1 (slotOf' p.2 p.1) (wires p.2.changes))) ++ [.done]

/-- The direct writes accepted and not landed follow a snapshot as records, with the generations they are to have (R342). -/
def mirrorWaiting (s : State) : State :=
  (s.writes.foldl (fun (a : State × List DirectWrite) w =>
    let t := { a.1 with writes := a.2 }
    ((if isPairObj w.ix then mirrorWrite t (comingGen t w.after) w.after w.ix w.sub w.val else t), a.2 ++ [w])) (s, [])).1

/-- Send the snapshot, and what is to land after it. -/
def sendSnapshot (s : State) : State :=
  let s1 := (snapParts s).foldl sendBulk s
  let s2 := mirrorWaiting (s1.onPair (fun p => { p with snapSent := true, digestAt := none, asked := none }))
  { s2 with writes := s.writes }

/-- A value as a landing of the snapshot. -/
def snapWrite (ix sub : Nat) (v : Val) : DirectWrite :=
  { ix := ix, sub := sub, val := v, mbox := none, after := 0, gen := none, priv := 2 }

/-- The pair objects, commits and sets of the unit go (R342): each object the snapshot does not name takes its default. -/
def clearPair (s : State) (keep : List (Nat × Nat)) : State :=
  let gone := (pairValues s).filter (fun p => !keep.contains (p.1, p.2.1))
  let s1 := (gone.filter (fun p => p.1 == Ix.engImage)).foldl (fun t p =>
    let e := engineOf t (Fin.ofNat 16 p.2.1)
    (t.setEngine e { t.engine e with image := none }).setObj p.1 p.2.1 (.bytes [])) s
  let s2 := landAll s1 ((gone.filter (fun p => p.1 != Ix.engImage)).map (fun p => snapWrite p.1 p.2.1 (objDefault (objKey p.1 p.2.1))))
  let s3 := s2.shut.pend.foldl (fun t p => freeSlot t p.id) s2
  let s4 := (s3.shut.sets.map (fun p => p.1)).foldl (fun t n => setSet t n none) { s3 with shut := { s3.shut with pend := [] } }
  { s4 with writes := s4.writes.filter (fun w => !isPairObj w.ix) }

/-- Enter a part of a snapshot among those received: pieces of one value, and changes of one commit or set, are put together. -/
def addPart (ps : List BulkPart) (p : BulkPart) : List BulkPart :=
  match p with
  | .piece i k total off d =>
    let same (q : BulkPart) : Bool := match q with
      | .piece i' k' _ _ _ => i' == i && k' == k
      | _ => false
    let old := if off = 0 then [] else (ps.findSome? (fun q => match q with
      | .piece i' k' _ _ d' => if i' = i ∧ k' = k then some d' else none
      | _ => none)).getD []
    if off ≠ old.length then ps
    else
      let all := old ++ d
      ps.filter (fun q => !same q) ++ [if total ≤ all.length then .domain i k all else .piece i k total 0 all]
  | .pending id land ws =>
    if ps.any (fun q => match q with
      | .pending id' _ _ => id' == id
      | _ => false) then
      ps.map (fun q => match q with
        | .pending id' l old => if id' = id then .pending id l (old ++ ws) else q
        | _ => q)
    else ps ++ [.pending id land ws]
  | .openSet set slot ws =>
    if ps.any (fun q => match q with
      | .openSet n _ _ => n == set
      | _ => false) then
      ps.map (fun q => match q with
        | .openSet n l old => if n = set then .openSet n l (old ++ ws) else q
        | _ => q)
    else ps ++ [.openSet set slot ws]
  | _ => ps ++ [p]

/-- The snapshot is complete (R342): the unit's pair state is replaced, images are loaded before the commands of their places
land (R109), and the records that waited are applied. -/
def takeSnapshot (s : State) : State :=
  let ps := s.pair.parts
  let all := ps.filterMap (fun p => match p with
    | .value w => (valOf w).map (fun v => (w.index.toNat, w.sub, v))
    | .domain i k d => some (i, k, Val.bytes d)
    | _ => none)
  let vals := all.filter (fun p => p.1 == Ix.engImage) ++ all.filter (fun p => p.1 != Ix.engImage)
  let s1 := clearPair s (vals.map (fun p => (p.1, p.2.1)))
  let s2 := landAll s1 (vals.map (fun p => snapWrite p.1 p.2.1 p.2.2))
  let s3 := ps.foldl (fun t p => match p with
    | .pending id land ws => mirroredCommit t id land (changesOf ws)
    | .openSet set slot ws =>
      (setSet t set (some { session := 0, changes := changesOf ws })).onPair (fun q =>
        { q with orphans := mapPut set (some slot) q.orphans })
    | .start g => setGen t g
    | _ => t) s2
  let s4 := (s3.addWrap Ix.pairResyncs 0 1).onPair (fun p => { p with snapTaken := true, parts := [], past := [], theirs := none })
  retryHeld s4

/-- A part of a snapshot, or a DOMAIN value, arrives (R330, R342). -/
def receiveBulk (s0 : State) (f : LinkRec) (part : BulkPart) : State :=
  let joining : Bool := s0.nat Ix.pairRole == 1 && decide (s0.pair.tries ≤ 3)
  let start : Bool := match part with
    | .start _ => joining
    | _ => false
  let (ok, s) := linkFrame s0 f start
  if !ok || s.boot.quiet || !standsBy s then s
  else if start then
    s.onPair (fun p => { p with parts := [part], held := [], snapTaken := false })
  else if s.nat Ix.pairRole = 1 ∧ !s.pair.snapTaken then
    (if s.pair.parts.isEmpty then s
     else if part = .done then takeSnapshot s
     else s.onPair (fun p => { p with parts := addPart p.parts part }))
  else
    match part with
    | .domain _ _ _ => retryHeld (s.onPair (fun p => { p with parts := addPart p.parts part }))
    | .piece _ _ _ _ _ => retryHeld (s.onPair (fun p => { p with parts := addPart p.parts part }))
    | _ => s

/-- The digests of this unit and its partner at one generation are compared (R334, R342). -/
def compareDigest (s : State) (g : Nat) (own theirs : List Byte) : State :=
  let same : Bool := own == theirs
  let s1 := (((s.setObj Ix.pairDigest 0 (.bytes own)).setNat Ix.pairDigestGen 0 g).setFlag Ix.pairDigestOk 0 same).onPair
    (fun p => { p with theirs := none })
  if same then (if s1.nat Ix.pairRole = 1 then setRole s1 2 else s1)
  else if s1.nat Ix.pairRole = 1 then
    (s1.onPair (fun p => { p with tries := p.tries + 1, snapTaken := false, parts := [], held := [] })).alarm Al.mirrorMismatch
  else mismatch s1

/-- The longest W of R335 in ticks, from the packet times of the watched streams. -/
def watchTicks (s : State) : Nat :=
  let longest := (watchedStreams s).foldl (fun n k => max n (perPacket s.cls (s.nat Ix.ntxFmt k))) 0
  max 4 (ceilDiv (2 * longest) s.ticklen)

/-- Evidence (2): no watched packet in the last W ticks (R335). -/
def streamsAbsent (s : State) : Bool :=
  !(watchedStreams s).isEmpty && (match s.pair.watched with
    | none => true
    | some t => decide (t + watchTicks s < s.tick))

/-- Evidence (3): a GRANT is valid (R335). -/
def granted (s : State) : Bool :=
  match s.pair.grant with
  | some t => decide (s.tick ≤ t)
  | none => false

/-- PAIR_EVIDENCE follows at a boundary, and a standby that sees (1) alone raises LINK_SPLIT once (R337, R344). -/
def weighEvidence (s : State) : State :=
  if !s.paired then s
  else
    let e1 := s.pair.lost
    let e2 := streamsAbsent s
    let e3 := granted s
    let s1 := s.setNat Ix.pairEvidence 0 ((if e1 then 1 else 0) + (if e2 then 2 else 0) + (if e3 then 4 else 0))
    if s1.nat Ix.pairRole = 2 ∧ e1 ∧ !e2 ∧ !e3 ∧ !s1.pair.split then
      (s1.onPair (fun p => { p with split := true })).alarm Al.linkSplit
    else s1

/-- Lanes that have failed, by bit (R344). -/
def lanesFailed (s : State) : Nat := s.nat Ix.pairLink / 8 % 8
/-- How many lanes have failed. -/
def failedCount (s : State) : Nat := ((upFrom 0 3).filter (fun k => (lanesFailed s).testBit k)).length

/-- The role byte of the heartbeat and of the witness request (R329): the link is degraded with two lanes failed (R323). -/
def roleByte (s : State) : Nat :=
  s.nat Ix.pairRole + 16 * s.nat Ix.seat + (if s.pair.swap.isSome then 32 else 0) + (if 2 ≤ failedCount s then 64 else 0)

/-- A lane counts as failed or not, in PAIR_LINK and RSV_LEAVES (R344, R393): the spare lane is there while none has
failed. -/
def setLane (s : State) (k : Nat) (bad : Bool) : State :=
  let v := s.nat Ix.pairLink
  let lock := v % 8
  let fail := v / 8 % 8
  let bit := 2 ^ k
  let fail1 := if bad then fail ||| bit else fail - (fail &&& bit)
  let lock1 := if bad then lock - (lock &&& bit) else lock ||| bit
  let s1 := s.setNat Ix.pairLink 0 (lock1 + 8 * fail1 + (if fail1 = 7 then 0 else v / 64 * 64))
  let lv := s1.nat Ix.rsvLeaves
  s1.setNat Ix.rsvLeaves 0 (lv % 64 + (if fail1 = 0 then 64 else 0))

/-- A lane that a HEARTBEAT has reported moves its traffic to the spare lane (R323). -/
def moveLane (s : State) (k : Nat) : State :=
  if (lanesFailed s).testBit k then s
  else
    let s1 := (setLane s k true).alarm Al.unrLaneFail k
    (s1.alarmIf (failedCount s1 == 2) Al.unrLinkDegraded).alarmIf (failedCount s1 == 3) Al.unrLinkDown

/-- The first boundary after a report (R323): every lane that this unit or its partner has reported is moved. -/
def moveLanes (s : State) : State :=
  ((upFrom 0 3).filter (fun k => s.pair.laneDue.testBit k)).foldl moveLane (s.onPair (fun p => { p with laneDue := 0 }))

/-- The quality byte (R284, R285). -/
def qualityByte (s : State) : Nat := ownLevel s % 16 + (if activeRef s = some 5 then 128 else 0)

/-- PLAN_CRC (R329): the CRC-32 of the 12 values of the plan. -/
def planCrc (s : State) : Nat := (crc32 ((planOf s).flatMap (fun v => bytesLE 4 v))).toNat

/-- The payload of the heartbeat of this tick (R329). -/
def beatBytes (s : State) : List Byte :=
  let ns := boundaryAt s s.tick / nsUnit
  bytesLE 6 (ns / 1000000000) ++ bytesLE 4 (ns % 1000000000) ++ bytesLE 1 (roleByte s) ++ bytesLE 1 (qualityByte s) ++
    bytesLE 4 (dictGet Ix.shutGen 0 s.snap).toNat ++ bytesLE 4 (s.nat Ix.pairId) ++ bytesLE 1 (s.nat Ix.houseRate) ++
    bytesLE 1 s.ticklen ++ bytesLE 2 (s.nat Ix.pairLink % 8 + 8 * (lanesFailed s ||| s.pair.laneSeen ||| s.pair.laneDue)) ++ bytesLE 4 (planCrc s) ++ bytesLE 4 s.pair.seqIn ++
    bytesLE 8 (unsignedOf 64 Config.uniqueId) ++ bytesLE 8 (s.nat Ix.pairSwapTick) ++ List.replicate 16 0

/-- PAIR_MIRROR_LAG (R344): ticks of unacknowledged mirror records. -/
def syncLag (s : State) : State :=
  let lag := match s.pair.unacked.find? (fun u => u.ty == 2) with
    | some u => min (s.tick - u.tick) 65535
    | none => 0
  s.setNat Ix.pairMirrorLag 0 lag

/-- Replies that have waited for the partner are sent, with what follows each (R331), and the controller may go on. -/
def releaseReplies (s : State) (p : HeldReply → Bool) : State :=
  let go := s.pair.replies.filter p
  let s1 := s.onPair (fun q => { q with replies := q.replies.filter (fun r => !p r) })
  serveNext (go.foldl (fun t r => afterReply (sendTo t (if r.udp then .udp else .hostPort) r.peer r.port r.bytes) r.next) s1)

/-- An acknowledgement arrives (R322, R331): frames that waited for room in Bank E are sent. -/
def takeAck (s : State) (ack : Nat) : State :=
  let covers (n : Nat) : Bool := n == ack || genLower n ack
  let left := s.pair.unacked.filter (fun u => !covers u.seq)
  let (all, now) := drainBank s.tick left (bankUsed left)
  let s1 := if left.length < s.pair.unacked.length then
      now.foldl (fun t u => t.emit (frameOut 0 s.tick u)) (s.onPair (fun p => { p with unacked := all, ackTick := s.tick }))
    else s
  syncLag (releaseReplies s1 (fun r => covers r.seq))

/-- A counted HEARTBEAT as the objects report it (R329, R344), and the lanes it newly reports as failed (R323). -/
def noteBeat (s : State) (b : Beat) (lanes : Nat) : State :=
  let told := b.lanes.toNat / 8 % 8
  let s1 := ((s.setNat Ix.pairPeerRole 0 b.role.toNat).setNat Ix.pairPeerGen 0 b.gen.toNat).setNat Ix.pairPeerId 0 b.uniqueId.toNat
  let failed := s1.nat Ix.pairLink / 8 % 8
  let s2 := s1.setNat Ix.pairLink 0 (lanes % 8 + 8 * failed + 128)
  s2.onPair (fun p => { p with beat := true, missed := 0, lost := false, split := false
                               beatTick := some s2.tick, peerTick := b.tick
                               peerLanes := told, laneDue := p.laneDue ||| (told - (told &&& p.peerLanes)) })

/-- The partner as candidate 5 (R284, R329): its quality, and the time of its heartbeat against the unit's own. -/
def noteReference (s : State) (b : Beat) (offset : Int) : State :=
  let s1 := setCand s 5 { candOf s 5 with quality := b.quality.toNat }
  refPhase s1 5 offset

/-- A standby's configuration or generation does not follow the partner's (R327). -/
def beatDiffers (s : State) (b : Beat) : Bool :=
  b.rate.toNat != s.nat Ix.houseRate || b.len.toNat != s.ticklen || b.planCrc.toNat != planCrc s

/-- The partner's generation is behind the unit's own at the same tick end, or farther than order goes (R163, R327). -/
def genDiffers (s : State) (b : Beat) : Bool :=
  let own := (dictGet Ix.shutGen 0 s.snap).toNat
  b.tick == s.tick && (genLower b.gen.toNat own || (own + 4294967296 - b.gen.toNat) % 4294967296 == 2147483648)

/-- What the door-holder does at a HEARTBEAT of a partner that joins (R342): snapshot, then DIGEST, and again where the
partner has not become STANDBY 2 s later. -/
def serveJoin (s : State) : State :=
  let late : Bool := match s.pair.digestAt with
    | some t => decide (t + ticksOfMs s 2000 ≤ s.tick)
    | none => false
  if peerRole s = 1 then
    (if !s.pair.snapSent ∨ late then sendSnapshot s
     else if s.pair.unacked.isEmpty ∧ s.pair.digestAt.isNone ∧ s.pair.asked.isNone then askDigest s
     else s)
  else if peerRole s = 2 then s
  else s.onPair (fun p => { p with snapSent := false, digestAt := none })

/-- The swap tick the door-holder announces (R341): the standby agrees, or learns that the swap is over. -/
def noteSwap (s : State) (b : Beat) : State :=
  if s.nat Ix.pairRole ≠ 2 then s
  else
    let ts := b.swapTick
    if ts = 0 then (if s.pair.swap.isSome ∧ s.tick < s.nat Ix.pairSwapTick then
        (haltWork (s.onPair (fun p => { p with swap := none }))).setNat Ix.pairSwapTick 0 0 else s)
    else if s.pair.swap.isSome then s
    else (s.onPair (fun p => { p with swap := some { tw := ts, ts := ts, giver := false, lockstep := [], got := [] } })).setNat
      Ix.pairSwapTick 0 ts

/-- What follows from a counted HEARTBEAT. A planned swap with a partner that is not STANDBY any more is abandoned. -/
def afterBeat (s : State) (b : Beat) : State :=
  let role := s.nat Ix.pairRole
  if role = 0 then
    (if s.flag Ix.pairAutoJoin ∧ b.role.toNat % 4 = 3 ∧ !s.boot.quiet ∧ s.pair.due = .none then
       s.onPair (fun p => { p with due := .join }) else s)
  else if role = 3 then serveJoin (if s.pair.swap.isSome ∧ b.role.toNat % 4 ≤ 1 then abandonSwap s else s)
  else if role = 2 then
    (if beatDiffers s b then (toSync s).alarm Al.pairMismatch
     else if genDiffers s b then toSync s
     else noteSwap s b)
  else s

/-- A witness request (R336). -/
def askWitness (s : State) (claim : Bool) : State :=
  let (n, s1) := s.draw
  let nonce := unsignedOf 64 n
  let head := [1] ++ bytesLE 1 (if claim then 1 else 2) ++ bytesLE 1 (s.nat Ix.seat) ++ bytesLE 1 (roleByte s) ++
    bytesLE 4 (s.nat Ix.pairId) ++ bytesLE 8 nonce ++ bytesLE 8 s.tick ++ bytesLE 4 (s.nat Ix.shutGen) ++ [0, 0, 0, 0]
  let tag := Config.cmac (credKey s (s.nat Ix.pairWitnessSlot)) head
  let s2 := s1.emit (.witness (s.nat Ix.pairWitnessAddr) (s.nat Ix.pairWitnessPort) (head ++ tag))
  s2.onPair (fun p => { p with asks := p.asks ++ [{ nonce := nonce, seat := s.nat Ix.seat, pairId := s.nat Ix.pairId, claim := claim, tick := s.tick }], nextAsk := s.tick + 12 })

/-- The unit can ask a witness now (R336). -/
def canAsk (s : State) : Bool :=
  s.paired && s.pair.lost && s.nat Ix.pairWitnessAddr != 0 && s.nat Ix.ctlIpv4Addr != 0 && decide (s.pair.nextAsk ≤ s.tick)

/-- A reply of the witness (R336): the request it answers, where it is accepted as a reply of type `ty`. A tag that fails
raises WITNESS_TAG_REJECT. -/
def witnessReply (s : State) (m : WitMsg) (ty : Nat) : Option Ask × State :=
  let b := m.bytes
  if !s.paired ∨ m.addr.toNat ≠ s.nat Ix.pairWitnessAddr ∨ m.port.toNat ≠ s.nat Ix.pairWitnessPort ∨ m.addr = 0 ∨ b.length ≠ 48 ∨
      field b 1 1 ≠ ty then (none, s)
  else if Config.cmac (credKey s (s.nat Ix.pairWitnessSlot)) (b.take 32) ≠ b.drop 32 then (none, s.alarm Al.witnessTagReject)
  else
    match s.pair.asks.find? (fun a => a.nonce == field b 8 8 && decide (s.tick ≤ a.tick + s.nat Ix.pairWitnessTimeout)) with
    | none => (none, s)
    | some a =>
      if field b 0 1 ≠ 1 ∨ field b 2 1 ≠ a.seat ∨ field b 4 4 ≠ a.pairId then (none, s)
      else (some a, s.onPair (fun p => { p with asks := p.asks.filter (fun x => x.nonce != a.nonce) }))

/-- The unit yields at the boundary after this (R340). -/
def mustYield (s : State) : State := s.onPair (fun p => { p with due := .giveWay, causeTick := s.tick })

/-- The CRC-32 of a place's output frames of this tick (R332, R380). -/
def placeCrc (s : State) (p : Nat) : Word :=
  let outs := (upFrom 0 256).filterMap (fun k =>
    match (s.source (0x3000 + 256 * p + k)).hist.head? with
    | some f => if f.tag = s.tag then some (wordBytes f.words) else none
    | none => none)
  crc32 outs.flatten

/-- At the end of a tick, both units send the results of the places in lockstep (R341). -/
def sendCrcs (s : State) : State :=
  match s.pair.swap with
  | none => s
  | some w =>
    if w.lockstep.isEmpty then s
    else
      let cs := (upFrom 0 16).map (fun p => if w.lockstep.contains p then placeCrc s p else 0)
      let body := wordBytes cs
      let s1 := sendFrame s 0x02 (record 0x08 0 s.tick body)
      s1.onPair (fun q => { q with crcTick := s.tick, crcs := (upFrom 0 16).zip cs })

/-- Results of both units for one tick are compared (R341). -/
def compareCrcs (s : State) : State :=
  match s.pair.theirCrcs, s.pair.swap with
  | some (t, cs), some _ =>
    if t ≠ s.pair.crcTick then s
    else
      let s1 := s.onPair (fun p => { p with theirCrcs := none })
      let bad := (upFrom 0 16).filter (fun p =>
        let a := mapGet (fun _ => (0 : Word)) p s.pair.crcs
        let b : Word := listGet 0 p cs
        a != 0 && b != 0 && a != b)
      let s2 := bad.foldl (fun u p => (u.addHold Ix.pairWarmDiff p 1).alarm Al.pairWarmDiff p) s1
      if !bad.isEmpty && s2.flag Ix.pairSwapStrict && s2.isDoor then abandonSwap s2 else s2
  | _, _ => s

/-- The door-holder sends its limiter states, 256 to a frame (R321, R341). -/
def sendLimiters (s : State) (ls : List LimState) : State :=
  (piecesOf 256 (ls.length / 256 + 1) ls).foldl (fun t l => sendBulk t (.limiters l)) s

/-- The door-holder sends the state region of a place, 2,000 words to a frame (R321, R341), and whether the place runs. -/
def sendRegion (s : State) (p base : Nat) (ws : List Word) (runs : Bool) : State :=
  let ls := piecesOf 2000 (ws.length / 2000 + 1) ws
  ((upFrom 0 ls.length).zip ls).foldl (fun t e =>
    sendBulk t (.region p (base + 2000 * e.1) e.2 (e.1 + 1 == ls.length) runs)) s

/-- The state region of a place (R344): X base and words. -/
def regionOf (s : State) (p : Nat) : Nat × List Word :=
  let v := s.nat Ix.pairStateRegion p
  let e := s.engine (engineOf s (Fin.ofNat 16 p))
  (v % 65536, (upFrom (v % 65536) (v / 65536)).map (fun a => mapGet (fun _ => 0) a e.x))

/-- The limiter states of every destination that has one in use (R341). -/
def limStates (s : State) : List LimState :=
  (s.lat.dests.filter (fun d => isPhysDest d.1)).map (fun d =>
    { dest := BitVec.ofNat 16 d.1, g := BitVec.ofNat 32 d.2.lim.g, held := d.2.lim.held })

/-- The limiters of a standby are at rest until the states of the door-holder come: a state not sent is that at rest (R341). -/
def restLims (s : State) : State :=
  s.lat.dests.foldl (fun t d => t.setDest d.1 { t.dest d.1 with lim := Limiter.reset }) s

/-- A standby's limiter takes the state sent (R341). -/
def takeLim (s : State) (l : LimState) : State :=
  let d := l.dest.toNat
  let r := s.dest d
  let c := ceilingOf (s.int Ix.limCeil d)
  s.setDest d { r with lim := { r.lim with g := l.g.toNat, held := l.held, hq := l.held.map (limQ c) } }

/-- A standby loads the state region of a place and runs it in lockstep (R341): as at a takeover, but without a fade. -/
def lockPlace (s : State) (p : Fin 16) (base : Nat) (ws : List Word) : State :=
  let e := engineOf s p
  if (s.engine e).image.isNone then s
  else
    let s1 := restorePlace s p
    let s2 := s1.setEngine e (putX base ws (s1.engine e))
    let s3 := startPlace s2 p true
    s3.setEngine e { s3.engine e with fadeIn := 0 }

end Sys2Proof.Machine
end

