-- ==== Sys2Proof/Machine/Time.lean ====
section
/-! DEFINITION. The commands of chapter 11: measurements and the first step of the time base, PTP, triggers and
captures. -/

namespace Sys2Proof.Machine

/-- TIME_STATE under a measurement of a time-carrying reference (R264, R265, R294): `x` is the offset measured,
`net` the offset less the build-out not yet removed. -/
def timeFollow (s : State) (x net : Int) : State :=
  let lim : Int := s.nat Ix.timeLockLimit
  let inside := decide ((net.natAbs : Int) ≤ lim)
  match s.nat Ix.timeState with
  | 0 =>
    if s.isDoor ∨ s.tim.stepped then s
    else
      let os := (x :: s.tim.offs).take 8
      let lo := os.foldl min x
      let hi := os.foldl max x
      { s with tim := { s.tim with offs := os, firstDue := if os.length = 8 ∧ hi - lo ≤ 1000 then some x else s.tim.firstDue } }
  | 1 =>
    let n := if inside then s.tim.within + 1 else 0
    if 16 ≤ n then { s with tim := { s.tim with within := 0, beyond := 0 } }.setNat Ix.timeState 0 2
    else { s with tim := { s.tim with within := n } }
  | 2 =>
    let n := if inside then 0 else s.tim.beyond + 1
    if 16 ≤ n then ({ s with tim := { s.tim with within := 0, beyond := 0 } }.setNat Ix.timeState 0 1).alarm Al.timeLockLost
    else { s with tim := { s.tim with beyond := n } }
  | _ => s

/-- A measurement of the active reference drives the time base (R263, R264, R266, R294). The offset of a reference without
time of day is judged modulo its period (R282). -/
def timeDrive (s : State) (k : Nat) (x est : Int) : State :=
  let net := reducePhase s k (x - (s.ref.build + s.ref.step) / 2 ^ 48)
  let s1 := timeSteer (s.setInt Ix.timeOffset 0 (max (-2147483647) (min 2147483647 net))) k x est
  let s2 := { s1 with tim := { s1.tim with lastRef := k, lastOff := x } }
  let s3 := if carriesTime k then timeFollow s2 x net else s2
  s3.alarmIf (s.tim.stepped && decide (s.nat Ix.timeStepAlarm < net.natAbs)) Al.timeOffsetLarge

/-- TIME_MEASUREMENT (R264, R293). A candidate without time of day gives its phase here; of the others the
measurement last received is applied. Only the active reference steers. PPS_IN and TENM_IN that are not coherent make
candidate 4 absent (R281). -/
def execTimeMeasurement (ref : Fin 6) (offset est : Int) (cycles : Option Nat) (s : State) : Host.Outcome State Fault Refusal :=
  let k := ref.val
  let apart : Bool := match cycles with
    | some n => k == 4 && decide (n < 9999980 ∨ 10000020 < n)
    | none => false
  if apart then .next (if (candOf s 4).present then refLost s 4 else s)
  else
    let s1 := if carriesTime k then s else refPhase s k offset
    let c := candOf s1 k
    let x := if carriesTime k then c.fresh else c.last.map (fun m => m.1)
    let s2 := setCand s1 k { c with fresh := none }
    match x with
    | some x => .next (if activeRef s = some k ∧ c.present then timeDrive s2 k x est else s2)
    | none => .next s2

/-- TIME_FIRST_STEP (R265): the time base is set to the reference time and ρ takes the digital PLL's estimate. It
waits while a commit stands between its final check and its landing. -/
def execTimeFirstStep (s : State) : Host.Outcome State Fault Refusal :=
  match s.tim.firstDue with
  | none => .next s
  | some off =>
    if s.tim.stepped then .next s
    else if s.tim.firstHeld || commitBetween s then .next { s with tim := { s.tim with firstHeld := true } }
    else .next (takeFirst (dropOpen s) off)

/-- PTP_SYNC_RECEIVED (R269, R271): a slave or passive leg measures; the slave leg's offset, with what leg changes
have added, goes to reference selection. The asymmetry of the leg is corrected by PTP_ASYM. -/
def execPtpSyncReceived (inst leg : Fin 2) (domain : Byte) (offset : Int) (delay : Nat) (diff : Int) (s : State) :
    Host.Outcome State Fault Refusal :=
  if s.boot.quiet then .next s else
  let i := inst.val
  let p := ptpOf s i
  let st := ptpLegState s i p p.slave leg.val
  if !(st == 9 || st == 7) || domain.toNat != s.nat Ix.ptpDomain i then .next s
  else
    let k := 2 * i + leg.val
    let x := offset - s.int Ix.ptpAsym k
    let s1 := (s.setInt Ix.ptpOffset k (hold32 x)).setNat Ix.ptpPathDelay k (min delay 0xFFFFFFFF)
    let slave := p.slave == leg.val
    let s2 := setPtp s1 i { p with diff := diff, valid := p.valid || slave }
    if !slave then .next s2
    else
      let old := s2.nat Ix.ptpState i
      .next (refPhase (s2.setNat Ix.ptpState i (if old.testBit 9 then old else old + 512)) i (x + p.bias))

/-- The data set of an Announce. -/
def announceData (a : Announce) : PtpData :=
  { priority1 := a.priority1.toNat, clockClass := a.clockClass.toNat, accuracy := a.accuracy.toNat
    variance := a.variance.toNat, priority2 := a.priority2.toNat, gm := a.gm.toNat, steps := a.steps.toNat
    sender := a.sender.toNat }

/-- PTP_ANNOUNCE_RECEIVED (R269 to R272): an Announce of the domain feeds the best master clock algorithm; the
unit's own are ignored. -/
def execPtpAnnounceReceived (inst leg : Fin 2) (announce : Announce) (s : State) : Host.Outcome State Fault Refusal :=
  if s.boot.quiet then .next s else
  let i := inst.val
  let role := s.nat Ix.ptpRole i
  if announce.domain.toNat ≠ s.nat Ix.ptpDomain i ∨ role = 0 ∨ role = 3 ∨ !linkUp s (2 * i + leg.val) ∨
      announce.sender.toNat = ptpIdentity s i then .next s
  else
    let p := ptpOf s i
    let d := some (announceData announce)
    let s1 := ptpDecide s i (if leg.val = 0 then { p with legA := d } else { p with legB := d })
    .next (match announce.tlv with
      | some b => s1.setObj Ix.ptpSmRx i (.bytes b)
      | none => s1)

/-- PTP_ANNOUNCE_TIMEOUT (R272): a leg on which a master was heard loses it. The alarm is of a slave instance: of its slave
leg, or of a slave-only instance that hears no master on either leg. -/
def execPtpAnnounceTimeout (inst leg : Fin 2) (s : State) : Host.Outcome State Fault Refusal :=
  if s.boot.quiet then .next s else
  let i := inst.val
  let p := ptpOf s i
  let deaf := s.nat Ix.ptpRole i == 1 && p.slave == 2 && linkUp s (2 * i + leg.val)
  .next ((ptpLegLost s i leg.val).alarmIf (p.slave == leg.val || deaf) (Al.ptpAnnounceTimeout.src (0x10 + i)) (leg.val + 1))

/-- TRIG_EDGE (R273, R275): the edge a trigger has scheduled in this tick. -/
def execTrigEdge (trig : Fin 8) (s : State) : Host.Outcome State Fault Refusal :=
  let s1 := trigSettle s
  match trigNext s1 trig.val with
  | some (c, x, k, old) => .next (trigFire s1 trig.val c x k old)
  | none => .next s1

/-- TRIG_PULSE_END (R273): the pulse running ends, and the output rests at its inactive level. -/
def execTrigPulseEnd (trig : Fin 8) (s : State) : Host.Outcome State Fault Refusal :=
  let g := trigOf s trig.val
  match g.pulse with
  | none => .next s
  | some q =>
    let s1 := setTrig s trig.val { g with pulse := none }
    let s2 := if g.driven then s1.emit (.trigger trig.val false (g.pcfg.testBit 0) q (!g.pcfg.testBit 2)) else s1
    .next (if g.pcfg.testBit 0 != g.cur.cfg.testBit 0 then trigRests s2 trig.val else s2)

/-- CAPT_EDGE_STAMP (R276, R277): an enabled edge is stamped, or counted and dropped within 1 µs of the last stamp;
the first drop after 1 ms without one raises CAPT_EXCESS. -/
def execCaptEdgeStamp (input : Fin 4) (rising : Bool) (quarter : Nat) (s : State) : Host.Outcome State Fault Refusal :=
  let c := input.val
  let r : Capt := mapGet (fun _ => Capt.reset) c s.tim.capts
  let put (s : State) (r : Capt) : State := { s with tim := { s.tim with capts := mapSet (fun _ => Capt.reset) c r s.tim.capts } }
  let recent (o : Option Int) (span : Int) : Bool := match o with
    | some t => decide ((quarter : Int) < t + span)
    | none => false
  if !(s.nat Ix.captEn c).testBit (if rising then 0 else 1) then .next s
  else if recent r.stamp 4000 then
    .next ((put (s.addHold Ix.captDrops c 1) { r with drop := some quarter }).alarmIf (!recent r.drop 4000000)
      (Al.captExcess.src (0x30 + c)))
  else
    let q := s.nat Ix.captSeq c
    let k := 16 * c + q % 16
    let s1 := (s.setObj Ix.captLog k (timeVal (quarter / 4))).setNat Ix.captEdge k ((if rising then 1 else 0) + 2 * (quarter % 4))
    .next (put (s1.addWrap Ix.captSeq c 1) { r with stamp := some quarter })

end Sys2Proof.Machine
end

