-- ==== Sys2Proof/Machine/Boundary.lean ====
section
/-! DEFINITION. The tick boundary (R34 to R38): the end of one tick, the beginning of the next, steps of the time base
(R36, R267), and the stop and restart of the sequencer for a new tick grid (R37). -/

namespace Sys2Proof.Machine

/-- The deadlines of phases not yet closed pass with the tick (R38, R43). -/
def closeRest (s : State) : State :=
  (upFrom 0 6).foldl (fun t k =>
    if t.clk.closed.contains k then t
    else phaseEnd { t with clk := { t.clk with closed := t.clk.closed ++ [k], late := t.clk.late || decide (3 < k) } } k) s

/-- The Bench moves and faults of the tick go to the partner (R332). -/
def mirrorSteps (s : State) : State :=
  let s1 := s.bench.steps.foldl (fun t e =>
    mirror t 0x06 0 t.tick (bytesLE 4 e.1 ++ bytesLE 1 e.2.1 ++ bytesLE 1 e.2.2.1 ++ [0, 0] ++ bytesLE 4 (unsignedOf 32 e.2.2.2))) s
  { s1 with bench := { s1.bench with steps := [] } }

/-- The Bench hands every record that changed in the tick to the mirror (R119), which passes them on as steps and landings
(R332). -/
def handRecords (s : State) : State :=
  benchEvent 0x0A s.bench.dirty.length
  { s with pair := { s.pair with benchRecs := s.bench.dirty.map (fun i => (i, xpWords (xpOf s i))) }
           bench := { s.bench with dirty := [] } }

/-- The gain-reduction regions go to the partner every 12 ticks (R330, R332). -/
def mirrorRegions (s : State) : State :=
  if s.tick % 12 ≠ 0 ∨ !mirrorsNow s then s
  else
    (List.finRange 16).foldl (fun t p =>
      let v := t.nat Ix.pairGrRegion p.val
      let e := t.engine (engineOf t p)
      if v / 65536 = 0 ∨ e.image.isNone then t
      else
        let ws := xWords e (v % 65536) (v / 65536)
        mirror t 0x07 0 t.tick (bytesLE 1 p.val ++ [0] ++ bytesLE 2 ws.length ++ bytesLE 4 (v % 65536) ++ wordBytes ws)) s

/-- A destination that nobody gathers: its fades and its take run on with the tick (R330). -/
def idleDest (n : Nat) (r : Dest) : Dest :=
  let r1 := r.withCauses (r.causes.map (fun f => iterate (fun g => (fadeStep g).2) n f))
  { r1 with take := r1.take.map (fun t => if t.soft then { t with k := t.k + (n - t.offset), offset := 0 } else t) }

/-- A unit that stands by keeps moves, takes and fades current without sums and gathers (R330, R333): RAMP moves and
fades advance by a tick; ZC steps come from the partner. -/
def idleTick (s : State) : State :=
  let n := s.ticklen
  let zeros : List Word := List.replicate n 0
  let moving := (s.bench.xps.filter (fun p => (p.2.state == .moving || p.2.state == .releasing) && p.2.mode != 1)).map (fun p => p.1)
  let s1 := moving.foldl (fun t i =>
    let x := xpOf t i
    let y := (xpFrame 0 x zeros).2.1
    setXp t i (xpSettle { y with lastNeg := x.lastNeg })) s
  (s1.lat.dests.map (fun p => p.1)).foldl (fun t d => t.setDest d (idleDest n (t.dest d))) s1

/-- What the objects of the engines' counters show (R405). -/
def refreshPmu (s : State) (p : Fin 16) : State :=
  let m := (s.engine (engineOf s p)).loc.pmu
  let s1 := forN (fun k t => t.setNat Ix.pmuEngCount (4 * p.val + k) (m.cnt[k]?.getD 0).toNat) 4 s
  let s2 := forN (fun k t => t.setNat Ix.pmuEngEvt (4 * p.val + k) (m.evt[k]?.getD 0).toNat) 4 s1
  let s3 := ((s2.setNat Ix.pmuEngEn p.val m.en.toNat).setNat Ix.pmuEngIrq p.val m.irq.toNat).setFlag Ix.pmuEngUser p.val m.user
  (s3.setNat Ix.pmuEngOvf p.val m.ovf.toNat).setNat Ix.pmuEngOvfpc p.val (m.ovfPc.toNat + 65536 * m.ovfCnt.toNat)

/-- FAB_DLY_STATE of an enabled line (R371). -/
def refreshLine (s : State) (l : Nat) : State :=
  let e := s.engine (engineOf s (Fin.ofNat 16 (l / 256)))
  let runs : Bool := e.run == .running || e.run == .waiting
  s.setNat Ix.fabDlyState l (if !runs then 3 else if s.fab.lateNow.contains l then 2 else 1)

/-- The sources whose state the end of a tick reports: those with a record, engine outputs mapped now, and those reported
before, those an error has made absent, and silence, whose entry shows that a tick has ended (R159, R161). -/
def reported (s : State) : List Nat :=
  let recs := s.lat.srcs.map (fun p => p.1)
  let outs := (List.finRange 16).flatMap (fun p =>
    let m := (s.engine (engineOf s p)).loc.outMap
    (slotsOf m false ++ slotsOf m true).map (fun k => 0x3000 + 256 * p.val + k))
  let listed := (objEntries s Ix.latSrcState).map (fun e => e.1)
  ([0x7F00] ++ recs ++ outs ++ s.lat.badFrames.map (fun (p : Nat × Nat) => p.1) ++ listed).eraseDups

/-- The objects that count slots (R139, R161). -/
def refreshSlots (s : State) : State :=
  (s.setNat Ix.xpMotionCount 0 (motionCount s + motionReserved s)).setNat Ix.latTakeCount 0 (takesHeld s + takesReserved s)

/-- LAT_ENG_MAP [7] of every place: a shadow is present (R161, R378). -/
def refreshMap (s : State) : State :=
  (List.finRange 16).foldl (fun t p =>
    t.setNat Ix.latEngMap p.val (t.nat Ix.latEngMap p.val % 16 + (if 1 < (feedsOf t p).length then 128 else 0))) s

/-- The objects that report the end of a tick, `stamp` being the system counter at its start. -/
def refreshTick (s : State) (stamp : Nat) : State :=
  let s1 := (List.finRange 16).foldl (fun t p => refreshPmu (refreshEngine t p) p) (refreshGrant s)
  let s2 := refreshNet ((s1.fab.dly.map (fun p => p.1)).foldl refreshLine s1)
  let s3 := (reported s2).foldl (fun t i => t.setNat Ix.latSrcState i (srcStateCode t i)) (refreshMap (refreshSlots s2))
  let s4 := ((s3.setNat Ix.dramLoad 0 s3.fab.moved0).setNat Ix.dramLoad 1 s3.fab.moved1).setNat Ix.tickNow 0 s3.tick
  (((s4.setNat Ix.capCheck 0 (capNow s4)).setObj Ix.timeNow 0 (timeVal (s4.tim.t / nsUnit))).setNat Ix.timeSyscnt 0 s4.clk.sysCounter).setNat Ix.timeTickStamp 0 stamp

/-- An engine at the end of a tick. -/
def engineTickEnd (n : Nat) (e : Engine) : Engine :=
  { e with tcyc := 0, gather1 := false, gather2 := false, ran1 := false, ran2 := false, fadeIn := e.fadeIn - n }

/-- A missed tick is counted (R329). -/
def countBeats (s : State) : State :=
  if !s.paired then s
  else
    let s1 := if s.pair.beat then s else (s.addHold Ix.pairHbMissed 0 1).onPair (fun p => { p with missed := p.missed + 1 })
    syncLag (s1.onPair (fun p => { p with beat := false }))

/-- The pair at the end of a tick: results of lockstep, digests, and the end of an old door-holder's outputs (R334, R341). -/
def pairTickEnd (s : State) : State :=
  let s1 := compareCrcs (sendCrcs (mirrorRegions (mirrorSteps s)))
  let s2 := if s1.nat Ix.pairRole = 2 ∨ (s1.nat Ix.pairRole = 1 ∧ s1.pair.snapTaken) then keepDigest s1 else s1
  let s3 := match s2.pair.outHold with
    | some t => if t ≤ s2.tick ∧ !s2.isDoor ∧ s2.lat.door.mode = .silent then
        (haltWork s2).onPair (fun p => { p with outHold := none }) else s2
    | none => s2
  countBeats s3

/-- The end of a tick of `n` cycles, whose time has passed: late work is late, and reports are made (R38, R44, R164). -/
def endTick (s0 : State) (n stamp : Nat) : State :=
  let s := settle s0
  let s1 := closeRest (s.alarmIf (decide (n < listGet 0 11 s.clk.plan)) Al.tickShort)
  let s2 := portsSend stamp n (cueTick (if unitWorks s1 then s1 else idleTick s1))
  let s3 := endLattice (handRecords (endBench (pairTickEnd s2)))
  let s4 := cycleEvents n { s3 with engines := s3.engines.map (engineTickEnd s3.ticklen)
                                    ctl := { s3.ctl with mailed := [], collected := [] } }
  let s5 := refreshTick (rsvTick stamp s4) stamp
  { s5 with fab := { s5.fab with moved0 := 0, moved1 := 0, lateNow := [] }, clk := { s5.clk with lastDone := s5.tick } }

/-- The tick number jumps (R36, R181): TICK_STEP, and commits it could pass over are rejected. What waits to be sent is
void, and the tick at which a swap passed the door says nothing any more. -/
def stepTick (s : State) : State :=
  (dropOpen (voidOut { s with bench := { s.bench with past := [] }, net := { s.net with pass := none } })).alarm Al.tickStep

/-- The boundaries that direct writes wait for are counted on from a new tick number (R163); those of the partner name
their tick (R333). -/
def rebaseWrites (s : State) (from_ to_ : Nat) : State :=
  { s with writes := s.writes.map (fun w => if w.gen.isSome then w else { w with after := w.after + to_ - from_ }) }

/-- Commits whose tick comes without their final check are rejected (R172, R181). -/
def dropLate (s : State) (k : Nat) : State :=
  (s.shut.pend.filter (fun p => decide (p.tick < k) || (p.tick == k && !p.checked))).foldl (fun t p => rejectCommit t p 14) s

/-- The pair at the beginning of a tick: lanes that a report moves, a role change that was due, evidence, records that waited, the HEARTBEAT. A unit
that is no longer paired holds no reply back. -/
def pairTickBegin (s : State) : State :=
  if !s.paired then (if s.pair.replies.isEmpty then s else releaseReplies s (fun _ => true))
  else
    let s0 := moveLanes s
    let s1 := if s0.pair.due = .join ∧ s0.nat Ix.pairRole = 0 ∧ !s0.boot.quiet then toSync s0 else s0
    let s2 := weighEvidence s1
    let s3 := if standsBy s2 ∧ (s2.nat Ix.pairRole = 2 ∨ s2.pair.snapTaken) then retryHeld s2 else s2
    (s3.emit (.unrus 0x01 0 0 s3.tick (beatBytes s3))).onPair (fun p => { p with laneDue := p.laneDue ||| p.laneSeen, laneSeen := 0 })

/-- The values that reads are served from, as the end of the tick leaves them (R164). -/
def keepSnap (s : State) : State := { s with snap := s.dict, shut := { s.shut with setsThen := s.shut.sets } }

/-- The evaluation of the references at a boundary (R292), which the quality sent as PTP master follows (R270). -/
def ownQuality (s : State) : State :=
  let t := refBoundary s
  if t.nat Ix.refOwnQl = s.nat Ix.refOwnQl then t else ptpQuality t

/-- What a tick follows: a tick that has run; a stretch in which no phase ran (R36); or nothing, on a new grid or after a
step (R36, R37). -/
inductive After where
  | tick | idle | step
  deriving DecidableEq, Repr

/-- Tick `k` begins (R35, R39): what the ports and the network took in tick `last` is handed over, and the landings of the
boundary are due. -/
def beginTick (s0 : State) (k last : Nat) (held : List Nat) (after : After) : State :=
  let s := dropLate s0 k
  let s1 := { s with
    clk := { s.clk with
      tick := k, lastRun := k, closed := [], late := false, lateEgress := false
      commitDue := s.shut.pend.any (fun p => p.tick == k && p.checked), writesDue := !s.writes.isEmpty }
    port := { s.port with held := held } }
  let s2 := netHandOver (tagOf (last + 1)) (if after = .step then voidIn s1 else portsTick (tagOf (last + 1)) true s1)
  let s3 := match s2.clk.fadeInAt with
    | some f => if f ≤ k then { s2 with clk := { s2.clk with fadeInAt := none }, lat := { s2.lat with seq := fadeIn s2.lat.seq } } else s2
    | none => s2
  chainTurn (mailTick (shadowBegins (pairTickBegin (synBoundary (ptpTurn (ownQuality (if after = .tick then keepSnap s3 else s3)))))))

/-- An image no longer matches the rate, the tick length or the plan (R37): its engine is left idle. -/
def checkImage (s : State) (e : Fin 16) : State :=
  let g := s.engine e
  match g.image with
  | none => s
  | some im =>
    if imageFits s im.raw then s
    else
      let s1 := match g.run with
        | .running | .waiting => s.setEngine e { stopEngine g with subst := false }
        | _ => s
      s1.alarm (Al.imagePlanMismatch.src e.val)

/-- A commit that has passed its final check for tick `k` lands, though that tick is not run (R172). -/
def landChecked (s : State) (k : Nat) : State :=
  if s.shut.pend.any (fun p => p.checked && p.tick == k) then
    flipPages (faultLost (landCommit { s with clk := { s.clk with tick := k } }))
  else s

/-- A value of the grid that has waited enters the dictionary, with its generation (R37, R163). -/
def gridValue (s : State) (ix : Nat) (v : Option Nat) : State :=
  match v with
  | some v => bumpGen (s.setNat ix 0 v) none
  | none => s

/-- The sequencer has stopped for a new tick grid (R37, R136, R149, R275): tags are void, the values apply, and what
depends on them follows. -/
def applyGrid (s0 : State) : State :=
  let s := voidOut s0
  let rate := s.clk.rateNext.getD (s.nat Ix.houseRate)
  let len := s.clk.lenNext.getD s.ticklen
  let s1 := gridValue (gridValue s Ix.houseRate s.clk.rateNext) Ix.ticklen s.clk.lenNext
  let s2 := dropTakes (completeMoves s1)
  let s3 := { s2 with
    clk := { s2.clk with seq := .stopped, rateNext := none, lenNext := none }
    bench := { s2.bench with past := [], srcs := s2.bench.srcs.map (fun (p : Nat × BenchSrc) => (p.1, { p.2 with last := [] })) }
    lat := { s2.lat with
      seq := Fade.silent
      srcs := s2.lat.srcs.map (fun (p : Nat × Source) => (p.1, { p.2 with hist := [] }))
      dests := s2.lat.dests.map (fun (p : Nat × Dest) => (p.1, { p.2 with lim := Limiter.reset, last := [] })) } }
  let s4 := applyPlan s3 (if s3.flag Ix.planAuto then planFor rate len else planOf s3)
  let s5 := resetClockOuts (synDivide (houseFamily (trigSuspend (netRestart s4))))
  let b := s5.budget
  ((((refreshNet s5).setNat Ix.tickBudget 0 b).setNat Ix.latencyProcessed 0 (2 * len + 5)).setNat Ix.latencyDirect 0 (len + 5)).setNat
    Ix.shutLeadFull 0 (commitLead b 65536)

/-- Landings of a boundary at which no tick begins (R36, R163): the phases stand idle, and accepted direct writes land. -/
def landIdle (s : State) : State := landQuiet (classSteps (flipPages (synSettle (trigSettle (landWrites s)))))

/-- A boundary that the sequencer stands idle through after a backward step, at tick number `k` (R36): no phase runs and
every egress destination stays silent; what does not belong to the phases goes on. What the ports have taken reaches no
reader. -/
def idleBoundary (s : State) (k : Nat) : State :=
  let s1 := portsTick (tagOf k) false (dropLate s k)
  let s2 := { s1 with
    clk := { s1.clk with seq := .idle, tick := k, closed := [], late := false, commitDue := false, writesDue := false }
    lat := { s1.lat with seq := Fade.silent } }
  chainTurn (pairTickBegin (ptpTurn (ownQuality (landIdle (synBoundary (countBeats s2))))))

/-- A boundary that passes while the sequencer stands stopped (R37, R306, R311): no tick begins, but the references are judged,
PTP goes on, and MEDSYN0 is compared with the boundary and trimmed. -/
def stoppedBoundary (s : State) : State := synDivide (synBoundary (ptpTurn (ownQuality s)))

/-- Egress fades in from the first tick whose frames carry tags of the time that runs now (R36), unless a re-step or a
new grid is to silence it again. -/
def fadeInFrom (s : State) (k : Nat) : State :=
  { s with clk := { s.clk with seq := .running, fadeInAt := if s.clk.restep.isSome then none else some k }
           lat := { s.lat with seq := Fade.silent } }

/-- The boundary that follows a tick: the next tick begins, or the sequencer stops or idles. `k` is the number the time
base gives it. A house rate or TICKLEN that waits for the outputs to be silent applies where a step has silenced them. -/
def crossBoundary (s : State) (k : Nat) (held : List Nat) : State :=
  let last := s.tick
  let s0 := if k = last + 1 then s else rebaseWrites s (last + 1) k
  let s1 := if k = last + 1 ∨ s.clk.seq = .stepped then s0 else stepTick s0
  let after : After := match s1.clk.seq with
    | .stepped => .step
    | .idle => .idle
    | _ => .tick
  let kept := if after = .tick then keepSnap s1 else s1
  let back : Bool := after != .tick || decide (k ≤ s1.clk.lastRun)
  if back && (s1.clk.rateNext.isSome || s1.clk.lenNext.isSome) then applyGrid kept
  else if k ≤ s1.clk.lastRun then serveNext (idleBoundary kept k)
  else
    let s2 := if back then fadeInFrom s1 (if after = .idle ∧ k = last + 1 then k else k + 1) else s1
    match s2.clk.seq with
    | .fading left =>
      if left ≤ 1 then applyGrid (landChecked (keepSnap s2) k)
      else serveNext (beginTick { s2 with clk := { s2.clk with seq := .fading (left - 1) } } k last held after)
    | _ => serveNext (beginTick s2 k last held after)

/-- A keyed re-step takes the place of the next boundary (R36). -/
def restepDue (s : State) : Bool :=
  match s.clk.restep with
  | some (b, _) => decide (b ≤ s.tick + 1)
  | none => false

/-- Boundaries pass: ticks run, or the sequencer stands idle after a backward step (R36). -/
def boundariesRun (s : State) : Bool :=
  ticksRun s || (s.boot.stage == 7 && !s.syn.dead && s.clk.seq == .idle)

/-- A first step held back for a commit is taken at the boundary after its landing tick (R172, R265). -/
def heldStep (s : State) : State :=
  match s.tim.firstDue with
  | some off => if s.tim.firstHeld && !s.tim.stepped && !commitBetween s then takeFirst (dropOpen s) off else s
  | none => s

/-- TICK_BOUNDARY (R34, R36, R38): the tick under way ends and the next begins, at the instant the time base gives it.
`held` names the ingress sources whose frames are late. -/
def execTickBoundary (held : List Nat) (s : State) : Host.Outcome State Fault Refusal :=
  .next (if s.boot.stage ≠ 7 ∨ s.syn.dead ∨ (restepDue s ∧ boundariesRun s) then s
    else if s.clk.seq = .stopped then stoppedBoundary (timePass s (cyclesTo s (tickAt s s.tim.t + 1)))
    else
      let k := tickAt s s.tim.t + 1
      let n := cyclesTo s k
      let stamp := s.clk.sysCounter
      let s1 := if ticksRun s then endTick (timePass s n) n stamp else portsSend stamp n (timePass s n)
      heldStep (crossBoundary s1 k held))

/-- KEYED_RESTEP_TAKEN (R36, R181, R267): in place of the boundary n ticks after its landing the time base is set, and the
next boundary begins the first tick of the new time. -/
def execKeyedRestepTaken (s : State) : Host.Outcome State Fault Refusal :=
  .next (match s.clk.restep with
    | none => s
    | some (_, aim) =>
      if !restepDue s ∨ !boundariesRun s then s
      else
        let k := tickAt s s.tim.t + 1
        let n := cyclesTo s k
        let s1 := if ticksRun s then landChecked (keepSnap (endTick (timePass s n) n s.clk.sysCounter)) (s.tick + 1)
          else portsSend s.clk.sysCounter n (timePass s n)
        let s2 := match aim with
          | some (sec, ns) => timeJump s1 ((sec * 1000000000 + ns) * nsUnit)
          | none =>
            let t := timeJump s1 (refTime s1 (offsetNow s1))
            let first := !t.tim.stepped
            let u := { t with tim := { t.tim with stepped := true, slew := 0 }, ref := { t.ref with build := 0, stepLeft := 0 } }
            setRho (reportBuild ((if first then u.setNat Ix.timeState 0 1 else u).setInt Ix.timeOffset 0 0))
        let s3 := { s2 with clk := { s2.clk with restep := none, seq := .stepped }, lat := { s2.lat with seq := Fade.silent } }
        (stepTick s3).alarm Al.timeRestepped)

/-- SEQUENCER_RESTART (R37, R311): the first tick of the new grid begins, after a change of family once MEDSYN0 is locked and
its house dividers are aligned. `cycles` is the time the sequencer stood still before it looked for a boundary. -/
def execSequencerRestart (cycles : Nat) (s : State) : Host.Outcome State Fault Refusal :=
  .next (if s.boot.stage ≠ 7 ∨ s.syn.dead ∨ s.clk.seq ≠ .stopped ∨ s.syn.relock then s
    else
      let s1 := timePass s cycles
      let k := tickAt s1 s1.tim.t + 1
      let s2 := timePass s1 (cyclesTo s1 k)
      let s3 := { s2 with clk := { s2.clk with restep := s2.clk.restep.map (fun r => (k + 1, r.2)) } }
      let s4 := fadeInFrom (rebaseWrites (rejectOpen s3 14) (s2.tick + 1) k) (k + 1)
      serveNext ((List.finRange 16).foldl checkImage (beginTick s4 k s2.tick [] .step)))

end Sys2Proof.Machine
end

