-- ==== Sys2Proof/Machine/Clock.lean ====
section
/-! DEFINITION. The commands of chapter 13: system PLLs, media synthesizers, ramps and SYNC. -/

namespace Sys2Proof.Machine

/-- SYSPLL_LOSS_OF_LOCK (R301 to R303): with both PLLs lost the unit is ISOLATED for good (R327). -/
def execSyspllLossOfLock (pll : Fin 2) (s : State) : Host.Outcome State Fault Refusal :=
  let p := pll.val
  let st := pllState s p
  if st ≠ 2 ∧ st ≠ 3 then .next s
  else
    let (s1, failed) := pllLost s p
    let down := s1.setNat Ix.syspllState p (if failed then 4 else 1)
    if st = 2 then .next (noLeafCheck down)
    else if pllState s (1 - p) = 2 then .next (noLeafCheck (pllSwitch down (1 - p)))
    else .next (if s.syn.dead then s1 else (toIsolated (stopForGood s1)).alarm Al.syspllBothLost)

/-- SYSPLL_HOT_LEAF_READY (R302): a relocked PLL has held lock for 1 s. -/
def execSyspllHotLeafReady (pll : Fin 2) (s : State) : Host.Outcome State Fault Refusal :=
  .next (if pllState s pll.val = 1 then syncHotLeaf (s.setNat Ix.syspllState pll.val 2) else s)

/-- MEDSYN_LOCK_DECLARED (R307 to R309): a search stores its result in the slot used least recently. -/
def execMedsynLockDeclared (syn : Fin 4) (band : BitVec 12) (drops : Nat) (s : State) : Host.Outcome State Fault Refusal :=
  let i := syn.val
  let st := s.nat Ix.medsynState i
  if st = 0 ∨ st = 3 then .next s
  else
    let s1 := fenceDrops s i drops
    if st ≠ 1 then .next (s1.setNat Ix.medsynState i 3)
    else
      .next (storeBand (s1.setNat Ix.medsynState i 3) i band.toNat)

/-- MEDSYN_LOSS_OF_LOCK (R308, R310): outputs go on from the NCO. -/
def execMedsynLossOfLock (syn : Fin 4) (drops : Nat) (s : State) : Host.Outcome State Fault Refusal :=
  if s.nat Ix.medsynState syn.val = 3 then
    .next ((fenceDrops (s.setNat Ix.medsynState syn.val 4) syn.val drops).alarm (Al.medsynLockLost.src (0x10 + syn.val)))
  else .next s

/-- HOP_TIMEOUT (R309): the hop becomes a full search. -/
def execHopTimeout (syn : Fin 4) (drops : Nat) (s : State) : Host.Outcome State Fault Refusal :=
  .next (if s.nat Ix.medsynState syn.val = 2 then fenceDrops (s.setNat Ix.medsynState syn.val 1) syn.val drops else s)

/-- RAMP_SEGMENT_END (R313): a segment's hold ends within this tick; the next starts where it stands, and after the
last the profile is IDLE. -/
def execRampSegmentEnd (ramp : RampEnd) (s0 : State) : Host.Outcome State Fault Refusal :=
  let i := ramp.syn.val
  let s := fenceDrops s0 (i + 2) ramp.drops
  match mapFind i s.syn.ramps with
  | none => .next s
  | some r =>
    match r.segs with
    | [] => .next s
    | seg :: rest =>
      if (boundaryAt s (s.tick + 1) : Int) ≤ segEnd r seg then .next s
      else if rest.isEmpty then
        .next (setRampState ({ s with syn := { s.syn with ramps := mapErase i s.syn.ramps } }.setInt
          Ix.medsynOffsetNow (i + 2) seg.1) i 0 r.index)
      else
        let r1 : Ramp := { segs := rest, index := r.index + 1, start := seg.1, since := segEnd r seg }
        .next (setRampState { s with syn := { s.syn with ramps := mapPut i r1 s.syn.ramps } } i 1 r1.index)

/-- The dividers SYNC acts on (R317). -/
def syncAct (quarter : Nat) (wrong : BitVec 128) (s : State) : State :=
  ((upFrom 0 64).filter (fun b => (s.nat Ix.clkSyncSet).testBit b)).foldl (fun s b =>
    (dividersOf s b).foldl (syncDivider quarter wrong b) s) (s.setObj Ix.clkSyncLast 0 (timeVal (quarter / 4)))

/-- SYNC_EDGE (R316, R317): an active edge whose level has held for CLK_SYNC_DEBOUNCE. -/
def execSyncEdge (falling : Bool) (quarter held : Nat) (wrong : BitVec 128) (s : State) : Host.Outcome State Fault Refusal :=
  let mode := s.nat Ix.clkSyncMode
  if mode % 4 = 0 ∨ falling ≠ mode.testBit 7 ∨ held < s.nat Ix.clkSyncDebounce then .next s
  else if s.nat Ix.clkSyncState ≠ 1 then .next (s.addHold Ix.clkSyncIgnored 0 1)
  else .next (syncAct quarter wrong (s.setNat Ix.clkSyncState 0 (if mode % 4 = 2 then 2 else 0)))

/-- SYNC_HOLD_OFF_END (R316). -/
def execSyncHoldOffEnd (s : State) : Host.Outcome State Fault Refusal :=
  .next (if s.nat Ix.clkSyncState = 2 then s.setNat Ix.clkSyncState 0 (if s.nat Ix.clkSyncMode % 4 = 2 then 1 else 0) else s)

end Sys2Proof.Machine
end

