-- ==== Sys2Proof/Machine/EngineAlu.lean ====
section
/-! DEFINITION. The ALU and accumulator operations of the Y/ALU slot (R72, R73, R85). -/

namespace Sys2Proof.Machine

/-- The code of data register n (R62). -/
def dCode (n : Fin 16) : BitVec 7 := BitVec.ofNat 7 n.val

/-- An ALU result into Dz with N and Z of the result, C and V where given, and SV on saturation (R72). -/
def aluOut (z : Option (Fin 16)) (r : Word) (cv : Option (Bool × Bool)) (sv : Bool) (e : Engine) : SlotOut :=
  let e1 := match z with
    | some d => launch 3 0 (.reg (dCode d) r) e
    | none => e
  let e2 := launch 3 0 (.flags (flagN r) (flagZ r) cv) e1
  .ok (if sv then launch 3 0 (.sticky false true false) e2 else e2)

/-- ADD, wrapping (R72). -/
def aluAdd (z x : Fin 16) (src : AluSrc) (e : Engine) : SlotOut :=
  let a := e.rf.getD x
  let b := aluValue src e.rf
  aluOut (some z) (a + b) (some (carryAdd a b, overAdd a b)) false e

/-- SUB, and CMP where there is no destination (R72). -/
def aluSub (z : Option (Fin 16)) (x : Fin 16) (src : AluSrc) (e : Engine) : SlotOut :=
  let a := e.rf.getD x
  let b := aluValue src e.rf
  aluOut z (a - b) (some (carrySub a b, overSub a b)) false e

/-- A saturated result (ADDS, SUBS, ABS, NEG of R72). -/
def aluSat (z : Fin 16) (r : Int) (e : Engine) : SlotOut :=
  let (w, sv) := sat32 r
  aluOut (some z) w none sv e

/-- A result that sets N and Z only (R72). -/
def aluLogic (z : Fin 16) (r : Word) (e : Engine) : SlotOut :=
  aluOut (some z) r none false e

/-- MIN and MAX are signed (R72). -/
def minWord (a b : Word) : Word := if a.toInt ≤ b.toInt then a else b
def maxWord (a b : Word) : Word := if a.toInt ≤ b.toInt then b else a

/-- An accumulator written from the Y/ALU slot, clamped under R68. -/
def accOut (a : Fin 4) (r : Int) (e : Engine) : SlotOut :=
  let (v, av) := clampAcc r
  .ok (launch 3 0 (.acc a v av) e)

/-- The exact value of ASH (R72): a left shift, or a right shift truncating toward minus infinity. -/
def ashValue (v n : Int) : Int :=
  if 0 ≤ n then v * (2 : Int) ^ n.toNat else v / (2 : Int) ^ (-n).toNat

/-- ADD (R72). -/
def execAdd (is : Issue) (z x : Fin 16) (src : AluSrc) (s : State) : Host.Outcome State Fault Refusal :=
  .next (issueSlot is (fun _ e => aluAdd z x src e) s)
/-- SUB (R72). -/
def execSub (is : Issue) (z x : Fin 16) (src : AluSrc) (s : State) : Host.Outcome State Fault Refusal :=
  .next (issueSlot is (fun _ e => aluSub (some z) x src e) s)
/-- ADDS (R72). -/
def execAdds (is : Issue) (z x : Fin 16) (src : AluSrc) (s : State) : Host.Outcome State Fault Refusal :=
  .next (issueSlot is (fun _ e => aluSat z ((e.rf.getD x).toInt + (aluValue src e.rf).toInt) e) s)
/-- SUBS (R72). -/
def execSubs (is : Issue) (z x : Fin 16) (src : AluSrc) (s : State) : Host.Outcome State Fault Refusal :=
  .next (issueSlot is (fun _ e => aluSat z ((e.rf.getD x).toInt - (aluValue src e.rf).toInt) e) s)
/-- AND (R72). -/
def execAndOp (is : Issue) (z x : Fin 16) (src : AluSrc) (s : State) : Host.Outcome State Fault Refusal :=
  .next (issueSlot is (fun _ e => aluLogic z (e.rf.getD x &&& aluValue src e.rf) e) s)
/-- OR (R72). -/
def execOrOp (is : Issue) (z x : Fin 16) (src : AluSrc) (s : State) : Host.Outcome State Fault Refusal :=
  .next (issueSlot is (fun _ e => aluLogic z (e.rf.getD x ||| aluValue src e.rf) e) s)
/-- XOR (R72). -/
def execXorOp (is : Issue) (z x : Fin 16) (src : AluSrc) (s : State) : Host.Outcome State Fault Refusal :=
  .next (issueSlot is (fun _ e => aluLogic z (e.rf.getD x ^^^ aluValue src e.rf) e) s)
/-- NOT (R72). -/
def execNotOp (is : Issue) (z x : Fin 16) (s : State) : Host.Outcome State Fault Refusal :=
  .next (issueSlot is (fun _ e => aluLogic z (~~~(e.rf.getD x)) e) s)
/-- ASR (R72). -/
def execAsr (is : Issue) (z x : Fin 16) (src : ShiftSrc) (s : State) : Host.Outcome State Fault Refusal :=
  .next (issueSlot is (fun _ e => aluLogic z ((e.rf.getD x).sshiftRight (shiftValue src e.rf)) e) s)
/-- LSR (R72). -/
def execLsr (is : Issue) (z x : Fin 16) (src : ShiftSrc) (s : State) : Host.Outcome State Fault Refusal :=
  .next (issueSlot is (fun _ e => aluLogic z (e.rf.getD x >>> shiftValue src e.rf) e) s)
/-- LSL (R72). -/
def execLsl (is : Issue) (z x : Fin 16) (src : ShiftSrc) (s : State) : Host.Outcome State Fault Refusal :=
  .next (issueSlot is (fun _ e => aluLogic z (e.rf.getD x <<< shiftValue src e.rf) e) s)
/-- MIN (R72). -/
def execMinOp (is : Issue) (z x : Fin 16) (src : AluSrc) (s : State) : Host.Outcome State Fault Refusal :=
  .next (issueSlot is (fun _ e => aluLogic z (minWord (e.rf.getD x) (aluValue src e.rf)) e) s)
/-- MAX (R72). -/
def execMaxOp (is : Issue) (z x : Fin 16) (src : AluSrc) (s : State) : Host.Outcome State Fault Refusal :=
  .next (issueSlot is (fun _ e => aluLogic z (maxWord (e.rf.getD x) (aluValue src e.rf)) e) s)
/-- ABS (R72). -/
def execAbsOp (is : Issue) (z x : Fin 16) (s : State) : Host.Outcome State Fault Refusal :=
  .next (issueSlot is (fun _ e => aluSat z ((e.rf.getD x).toInt.natAbs : Int) e) s)
/-- NEG (R72). -/
def execNegOp (is : Issue) (z x : Fin 16) (s : State) : Host.Outcome State Fault Refusal :=
  .next (issueSlot is (fun _ e => aluSat z (-(e.rf.getD x).toInt) e) s)
/-- CMP (R72). -/
def execCmp (is : Issue) (x : Fin 16) (src : AluSrc) (s : State) : Host.Outcome State Fault Refusal :=
  .next (issueSlot is (fun _ e => aluSub none x src e) s)
/-- CLR (R72). -/
def execClr (is : Issue) (a : Fin 4) (s : State) : Host.Outcome State Fault Refusal :=
  .next (issueSlot is (fun _ e => accOut a 0 e) s)
/-- ADDA (R72). -/
def execAdda (is : Issue) (a b : Fin 4) (s : State) : Host.Outcome State Fault Refusal :=
  .next (issueSlot is (fun _ e => accOut a ((e.rf.getAcc a).toInt + (e.rf.getAcc b).toInt) e) s)
/-- ASH (R72): a shift outside −40 to +40 makes the bundle illegal (R86). -/
def execAsh (is : Issue) (a : Fin 4) (n : BitVec 7) (s : State) : Host.Outcome State Fault Refusal :=
  .next (issueSlot is (fun _ e =>
    if n.toInt < -40 ∨ 40 < n.toInt then .illegal false
    else accOut a (ashValue (e.rf.getAcc a).toInt n.toInt) e) s)
/-- LDACC (R72). -/
def execLdacc (is : Issue) (a : Fin 4) (x : Fin 16) (s : State) : Host.Outcome State Fault Refusal :=
  .next (issueSlot is (fun _ e => accOut a ((e.rf.getD x).toInt * (2 : Int) ^ e.rf.shift.toNat) e) s)
/-- MOVW (R72, R73): the store window into a data register; no N or Z. -/
def execMovw (is : Issue) (z : Fin 16) (a : Fin 4) (s : State) : Host.Outcome State Fault Refusal :=
  .next (issueSlot is (fun _ e =>
    let (w, sv) := window (e.rf.getAcc a).toInt e.rf.shift.toNat
    let e1 := launch 3 0 (.reg (dCode z) w) e
    .ok (if sv then launch 3 0 (.sticky false true false) e1 else e1)) s)

end Sys2Proof.Machine
end

