-- ==== Sys2Proof/Machine/EngineMac.lean ====
section
/-! DEFINITION. The MAC forms (R67 to R71). -/

namespace Sys2Proof.Machine

/-- The exact product of two data registers (R67). -/
def product (r : RegFile) (x y : Fin 16) : Int := (r.getD x).toInt * (r.getD y).toInt

/-- A MAC-slot result on its way: it lands at the end of the second cycle after issue (R88). -/
def launchMac (slot : Nat) (a : Fin 4) (op : MacOp) (c : Int) (e : Engine) : Engine :=
  launch slot 2 (.macc a op c) e

/-- A form of a MAC slot: with a complex form in the bundle MAC1 must be NOP (R83, R86). -/
def macSlot (lane : Lane) (act : Engine → Engine) (e : Engine) : SlotOut :=
  match lane with
  | .mac0 => .ok (act e)
  | .mac1 => if e.cur.complex then .illegal false else .ok (act { e with cur := { e.cur with mac1 := true } })

/-- A one-product form (R69). -/
def macOne (is : Issue) (lane : Lane) (op : MacOp) (a : Fin 4) (x y : Fin 16) (s : State) : State :=
  issueSlot is (fun _ e => macSlot lane (fun e =>
    noteEvent 0x06 1 (noteEvent 0x05 1 (launchMac (laneSlot lane) a op (product e.rf x y) e))) e) s

/-- A two-product form into one accumulator, summed exactly and clamped once (R69). -/
def macSum (is : Issue) (lane : Lane) (op : MacOp) (a : Fin 4) (x y u v : Fin 16) (s : State) : State :=
  issueSlot is (fun _ e => macSlot lane (fun e =>
    noteEvent 0x06 1 (noteEvent 0x05 2
      (launchMac (laneSlot lane) a op (product e.rf x y + product e.rf u v) e))) e) s

/-- A two-product form into two accumulators, each clamped on its own; with one accumulator named twice it
acts as the one-accumulator form (R69, R71). -/
def macTwo (is : Issue) (lane : Lane) (op : MacOp) (a b : Fin 4) (x y u v : Fin 16) (s : State) : State :=
  if a = b then macSum is lane op a x y u v s
  else
    issueSlot is (fun _ e => macSlot lane (fun e =>
      noteEvent 0x06 1 (noteEvent 0x05 2
        (launchMac (laneSlot lane) b op (product e.rf u v)
          (launchMac (laneSlot lane) a op (product e.rf x y) e)))) e) s

/-- The even and odd register of a pair. -/
def evenReg (p : Fin 8) : Fin 16 := Fin.ofNat 16 (2 * p.val)
def oddReg (p : Fin 8) : Fin 16 := Fin.ofNat 16 (2 * p.val + 1)

/-- A complex form on the accumulator pair 2e, 2e + 1, by the conjugate where `conj` (R70). It occupies
both MAC slots, so MAC1 must be NOP (R86). -/
def macComplex (is : Issue) (op : MacOp) (conj : Bool) (p : Fin 2) (x y : Fin 8) (s : State) : State :=
  issueSlot is (fun _ e =>
    let xr := evenReg x
    let xi := oddReg x
    let yr := evenReg y
    let yi := oddReg y
    let pr (a b : Fin 16) : Int := product e.rf a b
    let re := if conj then pr xr yr + pr xi yi else pr xr yr - pr xi yi
    let im := if conj then pr xi yr - pr xr yi else pr xr yi + pr xi yr
    if e.cur.mac1 then .illegal false
    else
      .ok (noteEvent 0x06 1 (noteEvent 0x05 4
        (launchMac 1 (Fin.ofNat 4 (2 * p.val + 1)) op im
          (launchMac 0 (Fin.ofNat 4 (2 * p.val)) op re { e with cur := { e.cur with complex := true } }))))) s

/-- MPY (R69). -/
def execMpy (is : Issue) (lane : Lane) (a : Fin 4) (x y : Fin 16) (s : State) : Host.Outcome State Fault Refusal :=
  .next (macOne is lane .load a x y s)
/-- MAC (R69). -/
def execMac (is : Issue) (lane : Lane) (a : Fin 4) (x y : Fin 16) (s : State) : Host.Outcome State Fault Refusal :=
  .next (macOne is lane .add a x y s)
/-- MSU (R69). -/
def execMsu (is : Issue) (lane : Lane) (a : Fin 4) (x y : Fin 16) (s : State) : Host.Outcome State Fault Refusal :=
  .next (macOne is lane .sub a x y s)
/-- MPY2 (R69). -/
def execMpy2 (is : Issue) (lane : Lane) (a b : Fin 4) (x y u v : Fin 16) (s : State) :
    Host.Outcome State Fault Refusal :=
  .next (macTwo is lane .load a b x y u v s)
/-- MAC2 (R69). -/
def execMac2 (is : Issue) (lane : Lane) (a b : Fin 4) (x y u v : Fin 16) (s : State) :
    Host.Outcome State Fault Refusal :=
  .next (macTwo is lane .add a b x y u v s)
/-- MSU2 (R69). -/
def execMsu2 (is : Issue) (lane : Lane) (a b : Fin 4) (x y u v : Fin 16) (s : State) :
    Host.Outcome State Fault Refusal :=
  .next (macTwo is lane .sub a b x y u v s)
/-- DPY2 (R69). -/
def execDpy2 (is : Issue) (lane : Lane) (a : Fin 4) (x y u v : Fin 16) (s : State) :
    Host.Outcome State Fault Refusal :=
  .next (macSum is lane .load a x y u v s)
/-- DOT2 (R69). -/
def execDot2 (is : Issue) (lane : Lane) (a : Fin 4) (x y u v : Fin 16) (s : State) :
    Host.Outcome State Fault Refusal :=
  .next (macSum is lane .add a x y u v s)
/-- DSU2 (R69). -/
def execDsu2 (is : Issue) (lane : Lane) (a : Fin 4) (x y u v : Fin 16) (s : State) :
    Host.Outcome State Fault Refusal :=
  .next (macSum is lane .sub a x y u v s)
/-- CMPY (R70). -/
def execCmpy (is : Issue) (e : Fin 2) (x y : Fin 8) (s : State) : Host.Outcome State Fault Refusal :=
  .next (macComplex is .load false e x y s)
/-- CMAC (R70). -/
def execCmac (is : Issue) (e : Fin 2) (x y : Fin 8) (s : State) : Host.Outcome State Fault Refusal :=
  .next (macComplex is .add false e x y s)
/-- CMPYJ (R70). -/
def execCmpyj (is : Issue) (e : Fin 2) (x y : Fin 8) (s : State) : Host.Outcome State Fault Refusal :=
  .next (macComplex is .load true e x y s)
/-- CMACJ (R70). -/
def execCmacj (is : Issue) (e : Fin 2) (x y : Fin 8) (s : State) : Host.Outcome State Fault Refusal :=
  .next (macComplex is .add true e x y s)

end Sys2Proof.Machine
end

