-- ==== Sys2Proof/Machine/EngineMove.lean ====
section
/-! DEFINITION. Loads, stores, register moves, immediates and engine-local register accesses (R54, R61,
R73, R76, R84, R88, R105). -/

namespace Sys2Proof.Machine

/-- The post-modification and CV of a move's address form (R76). -/
def launchAddress (slot : Nat) (n : Fin 8) (post : Option Half) (cv : Bool) (e : Engine) : Engine :=
  let e1 := match post with
    | some v => launch slot 0 (.post n v) e
    | none => e
  if cv then launch slot 0 (.sticky false false true) e1 else e1

/-- A word of X or Y memory. -/
def memWord (e : Engine) (side : Side) (addr : Nat) : Word :=
  match side with
  | .x => mapGet (fun _ => 0) addr e.x
  | .y => mapGet (fun _ => 0) addr e.y

/-- The event of a move: 0x07 for X, 0x08 for Y memory (R394). -/
def moveEvent : Side → Nat
  | .x => 0x07
  | .y => 0x08

/-- The engine port accesses the sub-bank of a line in this cycle (R55). -/
def touch (side : Side) (addr : Nat) (e : Engine) : Engine := { e with busy := e.busy ++ [(side == .y, subBank addr)] }

/-- The registers of a load take the words from `addr` on, lowest address first (R54). -/
def loadRegs (side : Side) (addr : Nat) : List (BitVec 7) → Engine → Engine
  | [], e => e
  | c :: t, e => loadRegs side (addr + 1) t (launchReg (sideSlot side) 1 c (memWord e side addr) e)

/-- The words of a store go to `addr` on, lowest address first (R54). -/
def storeWords (side : Side) (addr : Nat) : List Word → Engine → Engine
  | [], e => e
  | w :: t, e => storeWords side (addr + 1) t (launch (sideSlot side) 0 (.mem (side == .y) addr w) e)

/-- A load from X or Y memory (R54, R57, R76): of its words, the corrected ones are noted, and whether one is
uncorrectable; both take effect when the bundle's last slot has been commanded. -/
def loadSlot (side : Side) (form : AForm) (an : Fin 8) (reg : MoveReg) (ecc : LineEcc) (e : Engine) : SlotOut :=
  let n := moveWords reg
  let (ea, post, cv) := address e.rf form an n
  let addr := alignAddr ea n
  let fixed := (lineFixed n ecc).map (fun i => ((if side == .x then 1 else 2 : Nat), addr + i))
  let e1 := launchAddress (sideSlot side) an post cv (loadRegs side addr (moveCodes reg) (touch side addr e))
  .ok (noteEvent (moveEvent side) 1
    { e1 with cur := { e1.cur with fixed := e1.cur.fixed ++ fixed, bad := e1.cur.bad || lineBad n ecc } })

/-- A store of registers to X or Y memory (R54, R76). -/
def storeSlot (side : Side) (form : AForm) (an : Fin 8) (reg : MoveReg) (e : Engine) : SlotOut :=
  let (ea, post, cv) := address e.rf form an (moveWords reg)
  let addr := alignAddr ea (moveWords reg)
  let ws := (moveCodes reg).map (readCode e.rf e.loops.length)
  .ok (noteEvent (moveEvent side) 1 (launchAddress (sideSlot side) an post cv (storeWords side addr ws (touch side addr e))))

/-- A store of an accumulator's window (R73). -/
def storeAcc (side : Side) (form : AForm) (an : Fin 8) (a : Fin 4) (e : Engine) : SlotOut :=
  let (ea, post, cv) := address e.rf form an 1
  let (w, sv) := window (e.rf.getAcc a).toInt e.rf.shift.toNat
  let e1 := launchAddress (sideSlot side) an post cv (storeWords side ea.toNat [w] (touch side ea.toNat e))
  let e2 := if sv then launch (sideSlot side) 0 (.sticky false true false) e1 else e1
  .ok (noteEvent (moveEvent side) 1 e2)

/-- The word an LDI gives a register: the immediate sign-extended, or its bits [31:16] replaced (R84). -/
def immWord (old : Word) (high : Bool) (imm : Half) : Word :=
  if high then imm ++ old.extractLsb' 0 16 else imm.signExtend 32

/-- An immediate load. A high half of SR is read-only, so nothing is written there (R64, R84). -/
def immSlot (side : Side) (dst : BitVec 7) (high : Bool) (imm : Half) (e : Engine) : SlotOut :=
  if high && dst == 0x3C then .ok e
  else .ok (launchReg (sideSlot side) 0 dst (immWord (readCode e.rf e.loops.length dst) high imm) e)

/-- LD. -/
def execLd (is : Issue) (side : Side) (form : AForm) (an : Fin 8) (reg : MoveReg) (ecc : LineEcc) (s : State) :
    Host.Outcome State Fault Refusal :=
  .next (issueSlot is (fun _ e => loadSlot side form an reg ecc e) s)

/-- ST. -/
def execSt (is : Issue) (side : Side) (form : AForm) (an : Fin 8) (reg : MoveReg) (s : State) :
    Host.Outcome State Fault Refusal :=
  .next (issueSlot is (fun _ e => storeSlot side form an reg e) s)

/-- STA (R73). -/
def execSta (is : Issue) (side : Side) (form : AForm) (an : Fin 8) (a : Fin 4) (s : State) :
    Host.Outcome State Fault Refusal :=
  .next (issueSlot is (fun _ e => storeAcc side form an a e) s)

/-- MOV (R61, R62). -/
def execMov (is : Issue) (side : Side) (src dst : BitVec 7) (s : State) : Host.Outcome State Fault Refusal :=
  .next (issueSlot is (fun _ e =>
    .ok (launchReg (sideSlot side) 0 dst (readCode e.rf e.loops.length src) e)) s)

/-- LDI (R84). -/
def execLdi (is : Issue) (side : Side) (dst : BitVec 7) (high : Bool) (imm : Half) (s : State) :
    Host.Outcome State Fault Refusal :=
  .next (issueSlot is (fun _ e => immSlot side dst high imm e) s)

/-- A read of an engine-local register by the program: it is read at issue and lands as a load does (R88, R104); what it
latches is latched at the end of the cycle. -/
def localSlot (dst : BitVec 7) (off : Nat) (tv : TickView) (e : Engine) : SlotOut :=
  let (w, e1) := localRead tv .engine off e
  let e2 := launchReg 2 1 dst w e
  .ok (match latchOf off e1 with
    | some v => launch 2 0 (.latch off v) e2
    | none => e2)

/-- LDL (R84, R104). -/
def execLdl (is : Issue) (dst : BitVec 7) (off : BitVec 13) (s : State) : Host.Outcome State Fault Refusal :=
  .next (issueSlot is (localSlot dst (4 * off.toNat)) s)

/-- STL (R84, R104). -/
def execStl (is : Issue) (src : BitVec 7) (off : BitVec 13) (s : State) : Host.Outcome State Fault Refusal :=
  .next (issueSlot is (fun _ e =>
    .ok (launch 2 0 (.loc (4 * off.toNat) (readCode e.rf e.loops.length src)) e)) s)

end Sys2Proof.Machine
end

