-- ==== Sys2Proof/Machine/Pair.lean ====
section
/-! DEFINITION. Commands of the redundant pair and the Unrus link (chapter 14, R391). -/

namespace Sys2Proof.Machine

/-- HEARTBEAT (R324, R329): counted where its CRC is good and PAIR_ID and seat are the partner's; any other is missed.
`lanes` are the lanes the unit receives in lock. -/
def execHeartbeat (beat : Beat) (good : Bool) (offset : Int) (lanes : Half) (s : State) : Host.Outcome State Fault Refusal :=
  let seat := beat.role.toNat / 16 % 2
  .next (if s.boot.stage ≠ 7 ∨ !s.paired ∨ !good then s
    else if beat.pairId.toNat ≠ s.nat Ix.pairId ∨ seat = s.nat Ix.seat then s.alarm Al.pairMismatch
    else
      let s1 := noteReference (noteBeat s beat lanes.toNat) beat offset
      afterBeat (takeAck s1 beat.ack.toNat) beat)

/-- HEARTBEAT_LOSS (R281, R329, R331, R336): the fourth consecutive missed tick has ended. Replies held back are sent, the
link counts as down, and candidate 5 is absent. -/
def execHeartbeatLoss (s : State) : Host.Outcome State Fault Refusal :=
  .next (if !s.paired ∨ s.pair.lost ∨ s.pair.missed < 4 then s
    else
      let wait := if s.isDoor then 0 else s.nat Ix.pairClaimDelay
      let s0 := refLost (s.setNat Ix.pairLink 0 (s.nat Ix.pairLink % 128)) 5
      let s1 := s0.onPair (fun p => { p with lost := true, split := false, noAnswer := false
                                             nextAsk := s.tick + wait })
      weighEvidence (releaseReplies (s1.alarm Al.pairHbLost) (fun _ => true)))

/-- UNRUS_RETRANSMIT (R322): 2 ticks have passed without the acknowledgement advancing. -/
def execUnrusRetransmit (s : State) : Host.Outcome State Fault Refusal :=
  .next (if !s.paired ∨ s.pair.unacked.isEmpty ∨ s.tick < s.pair.ackTick + 2 then s
    else
      let s1 := (s.pair.unacked.filter (fun u => u.sent)).foldl (fun t u => t.emit (frameOut 1 u.tick u)) s
      s1.onPair (fun p => { p with ackTick := s.tick }))

/-- UNRUS_LANE_FAILURE (R323): a lane has lost block lock, or shows too many invalid sync headers. The next HEARTBEAT reports
it, and the boundary after that moves its traffic. -/
def execUnrusLaneFailure (lane : Fin 3) (s : State) : Host.Outcome State Fault Refusal :=
  .next (if !s.paired ∨ (lanesFailed s).testBit lane.val then s
    else s.onPair (fun p => { p with laneSeen := p.laneSeen ||| 2 ^ lane.val }))

/-- UNRUS_LANE_RESTORE (R391): a failed lane has held lock for 10 s, and is the spare again. -/
def execUnrusLaneRestore (lane : Fin 3) (s : State) : Host.Outcome State Fault Refusal :=
  .next (if (lanesFailed s).testBit lane.val then setLane s lane.val false else s)

/-- MIRROR_WRITE (R333). -/
def execMirrorWrite (frame : LinkRec) (gen tick : Nat) (val : WireVal) (s : State) : Host.Outcome State Fault Refusal :=
  .next (receiveRecord s frame (.write gen tick val))
/-- MIRROR_STAGE (R332). -/
def execMirrorStage (frame : LinkRec) (tick set slot : Nat) (changes : List WireVal) (s : State) :
    Host.Outcome State Fault Refusal :=
  .next (receiveRecord s frame (.stage tick set slot changes))
/-- MIRROR_SET_END (R332). -/
def execMirrorSetEnd (frame : LinkRec) (tick set reason id : Nat) (s : State) : Host.Outcome State Fault Refusal :=
  .next (receiveRecord s frame (.setEnd tick set reason id))
/-- MIRROR_COMMIT (R333). -/
def execMirrorCommit (frame : LinkRec) (tick id set land : Nat) (s : State) : Host.Outcome State Fault Refusal :=
  .next (receiveRecord s frame (.commit tick id set land))
/-- MIRROR_COMMIT_END (R333). -/
def execMirrorCommitEnd (frame : LinkRec) (tick id : Nat) (code : EndCode) (s : State) : Host.Outcome State Fault Refusal :=
  .next (receiveRecord s frame (.commitEnd tick id code.code code.gen))
/-- MIRROR_XP_STEP (R332). -/
def execMirrorXpStep (frame : LinkRec) (tick xp sample event : Nat) (cur : Int) (s : State) :
    Host.Outcome State Fault Refusal :=
  .next (receiveRecord s frame (.xpStep tick xp sample event cur))
/-- MIRROR_GR (R332). -/
def execMirrorGr (frame : LinkRec) (tick place base : Nat) (words : List Word) (s : State) :
    Host.Outcome State Fault Refusal :=
  .next (receiveRecord s frame (.gr tick place base words))
/-- MIRROR_PLACE_CRC (R341): compared with the unit's own results for the tick. -/
def execMirrorPlaceCrc (frame : LinkRec) (tick : Nat) (crcs : List Word) (s : State) : Host.Outcome State Fault Refusal :=
  .next (compareCrcs (receiveRecord s frame (.placeCrc tick crcs)))
/-- MIRROR_DOMAIN (R332): the value itself has come, or comes, in BULK frames. -/
def execMirrorDomain (frame : LinkRec) (gen tick index sub len : Nat) (hash : List Byte) (s : State) :
    Host.Outcome State Fault Refusal :=
  .next (receiveRecord s frame (.domain gen tick index sub len hash))

/-- BULK (R342). -/
def execBulk (frame : LinkRec) (part : BulkPart) (s : State) : Host.Outcome State Fault Refusal :=
  .next (receiveBulk s frame part)

/-- DIGEST (R334): the partner's digest of a generation; a unit at that generation takes its own. -/
def execDigest (frame : LinkRec) (gen : Nat) (hash : List Byte) (s0 : State) : Host.Outcome State Fault Refusal :=
  let (ok, s) := linkFrame s0 frame false
  let ready : Bool := s.nat Ix.pairRole == 2 || (s.nat Ix.pairRole == 1 && s.pair.snapTaken)
  .next (if !ok || s.boot.quiet || !ready then s
    else
      let s1 := if s.nat Ix.shutGen = gen then keepDigest s else s
      s1.onPair (fun p => { p with theirs := some (gen, hash) }))

/-- MIRROR_DIGEST_COMPLETE (R334): the door-holder sends DIGEST; the partner compares. -/
def execMirrorDigestComplete (s : State) : Host.Outcome State Fault Refusal :=
  let at' (g : Nat) : Option (List Byte) := (s.pair.past.find? (fun p => p.1 == g)).map (fun p => p.2)
  .next (if s.isDoor then
      (match s.pair.asked.bind (fun g => (at' g).map (fun d => (g, d))) with
        | none => s
        | some (g, d) =>
          let s1 := ((s.setObj Ix.pairDigest 0 (.bytes d)).setNat Ix.pairDigestGen 0 g).onPair (fun p =>
            { p with asked := none, digestAt := some s.tick })
          sendFrame s1 0x05 (bytesLE 4 g ++ d))
    else if standsBy s then
      (match s.pair.theirs with
        | none => s
        | some (g, h) =>
          match at' g with
          | some d => compareDigest s g d h
          | none => s)
    else s)

/-- AUDIT_TIMER (R334): PAIR_AUDIT_PERIOD has passed; the door-holder begins a comparison with a STANDBY partner. -/
def execAuditTimer (s : State) : Host.Outcome State Fault Refusal :=
  .next (if s.paired ∧ s.isDoor ∧ s.nat Ix.pairAuditPeriod ≠ 0 ∧ peerRole s = 2 ∧ s.pair.asked.isNone then askDigest s else s)

/-- DOOR_TAKEOVER (R335, R337, R338): a standby with (1) and either (2) or (3) takes the door. -/
def execDoorTakeover (s : State) : Host.Outcome State Fault Refusal :=
  .next (if ticksRun s ∧ s.paired ∧ s.nat Ix.pairRole = 2 ∧ s.pair.lost ∧ (streamsAbsent s ∨ granted s) then takeDoor s else s)

/-- TAKEOVER_ENGINES_RUN (R338): the tick after the takeover. -/
def execTakeoverEnginesRun (s : State) : Host.Outcome State Fault Refusal :=
  .next (match s.pair.tookAt with
    | some t => if s.pair.runDue ∧ t < s.tick ∧ s.isDoor then takeoverRun s else s
    | none => s)

/-- WITNESS_CLAIM (R336): a standby, PAIR_CLAIM_DELAY after heartbeat loss and every 12 ticks. -/
def execWitnessClaim (s : State) : Host.Outcome State Fault Refusal :=
  .next (if canAsk s ∧ s.nat Ix.pairRole = 2 then askWitness s true else s)
/-- WITNESS_HOLD (R336): a door-holder, at heartbeat loss and every 12 ticks. -/
def execWitnessHold (s : State) : Host.Outcome State Fault Refusal :=
  .next (if canAsk s ∧ s.isDoor then askWitness s false else s)

/-- GRANT (R335, R336): evidence (3) for 24 ticks. -/
def execGrant (msg : WitMsg) (s : State) : Host.Outcome State Fault Refusal :=
  .next (match witnessReply s msg 0x81 with
    | (some _, s1) => s1.onPair (fun p => { p with grant := some (s.tick + 24) })
    | (none, s1) => s1)
/-- DENY (R336). -/
def execDeny (msg : WitMsg) (s : State) : Host.Outcome State Fault Refusal := .next (witnessReply s msg 0x82).2
/-- KEEP (R336). -/
def execKeep (msg : WitMsg) (s : State) : Host.Outcome State Fault Refusal := .next (witnessReply s msg 0x83).2
/-- YIELD (R340): an ACTIVE unit yields at the boundary after it. -/
def execYield (msg : WitMsg) (s : State) : Host.Outcome State Fault Refusal :=
  .next (match witnessReply s msg 0x84 with
    | (some _, s1) => if s1.isDoor then mustYield s1 else s1
    | (none, s1) => s1)

/-- WITNESS_TIMEOUT (R336): a request has gone unanswered; the alarm is raised once per loss. -/
def execWitnessTimeout (nonce : Long) (s : State) : Host.Outcome State Fault Refusal :=
  .next (match s.pair.asks.find? (fun a => a.nonce == nonce.toNat && decide (a.tick + s.nat Ix.pairWitnessTimeout ≤ s.tick)) with
    | none => s
    | some a =>
      let once := s.pair.noAnswer
      (s.onPair (fun p => { p with asks := p.asks.filter (fun x => x.nonce != a.nonce), noAnswer := true })).alarmIf (!once)
        Al.witnessNoAnswer)

/-- FOREIGN_COPY (R335, R340): a watched packet from another unit's MAC address. A unit that took the door within the last
64 ticks yields only where the other did too and its own seat is B. -/
def execForeignCopy (port : Fin 4) (mac : BitVec 48) (dst : BitVec 32) (dport : Half) (took : Bool) (s : State) :
    Host.Outcome State Fault Refusal :=
  let p := port.val
  let own : Bool := (upFrom 0 4).any (fun k => s.nat Ix.netPortMac k == mac.toNat)
  .next (if s.boot.stage ≠ 7 ∨ s.boot.quiet ∨ !linkUp s p ∨ own ∨ !isWatched s p (s.nat Ix.netSvcAddr p) dst.toNat dport.toNat then s
    else
      let s1 := s.onPair (fun q => { q with watched := some s.tick })
      if !s1.isDoor then s1
      else
        let s2 := s1.alarm Al.pairDualActive
        let recent : Bool := match s.pair.tookAt with
          | some t => decide (s.tick ≤ t + 64)
          | none => false
        if !recent || (took && s.nat Ix.seat == 1) then mustYield s2 else s2)

/-- PAIR_YIELD (R340): the boundary after the cause. -/
def execPairYield (s : State) : Host.Outcome State Fault Refusal :=
  .next (if s.pair.due = .giveWay ∧ s.pair.causeTick < s.tick then
      (if s.isDoor then giveWay s else s.onPair (fun p => { p with due := .none }))
    else s)

/-- A place is in lockstep (R341). -/
def joinLockstep (s : State) (w : Swap) (p : Fin 16) : State :=
  s.onPair (fun q => { q with swap := some { w with lockstep := (w.lockstep ++ [p.val]).eraseDups, got := [] } })

/-- The door-holder sends its limiter states in t_w, and the state region of place p in t_w + p (R341). -/
def swapSend (s : State) (w : Swap) (place : Option (Fin 16)) : State :=
  match place with
  | none => if s.tick = w.tw then sendLimiters s (limStates s) else s
  | some p =>
    if s.tick = w.tw + p.val then
      let r := regionOf s p.val
      joinLockstep (sendRegion s p.val r.1 r.2 ((placesRunning s).contains p)) w p
    else s

/-- The standby takes the limiter states, with the t_w they were sent in, or the words of a region; once the region is whole it
loads it, and runs the place in lockstep where it runs on the door-holder (R341). `base` is the X word of these words. -/
def swapTake (s : State) (w : Swap) (f : SnapFrame) (place : Option (Fin 16)) (base : Nat) (words : List Word) : State :=
  if w.ts ≤ s.tick then s
  else match place with
  | none =>
    let s1 := if w.tw = w.ts then restLims s else s
    f.states.foldl takeLim (s1.onPair (fun q => { q with swap := some { w with tw := f.tick } }))
  | some p =>
    if w.tw = w.ts ∨ w.lockstep.contains p.val then s
    else if !f.last then s.onPair (fun q => { q with swap := some { w with got := w.got ++ words } })
    else
      let s1 := if f.runs then lockPlace s p (base - w.got.length) (w.got ++ words) else s
      joinLockstep s1 w p

/-- SWAP_SNAPSHOT (R341): a frame of the shared sequence on the unit that receives the door (R322). -/
def execSwapSnapshot (snap : SnapFrame) (place : Option (Fin 16)) (base : Nat) (words : List Word) (s : State) :
    Host.Outcome State Fault Refusal :=
  .next (match s.pair.swap with
    | none => s
    | some w =>
      if w.giver then swapSend s w place
      else
        let (ok, s1) := linkFrame s snap.frame false
        if ok ∧ s1.nat Ix.pairRole = 2 then swapTake s1 w snap place base words else s1)

/-- The door passes (R339, R341): its tick is noted. -/
def notePass (s : State) (w : Swap) : State :=
  (syncTx { s with
    net := { s.net with pass := some (w.ts, w.giver) }
    pair := { s.pair with doorAt := s.clk.sysCounter, swapDue := false } }).setNat Ix.pairLastDoor 0 w.ts

/-- The giving door-holder leaves the door (R341): it is STANDBY, and its engines and outputs run on for PAIR_OUT_HOLD. -/
def giveDoor (s : State) (w : Swap) : State :=
  let ps := placesRunning s
  let s1 := moveQuietly (setRole (rejectOpen s 8) 2)
  notePass (s1.onPair (fun p => { p with
    snapSent := false, snapTaken := true, outHold := some (w.ts + s.nat Ix.pairOutHold)
    deferred := ps.map (fun p => (p.val, some w.ts)) })) w

/-- The standby takes the door in a swap (R341): its outputs are driven without a fade, and it mirrors to its partner, which
holds the same state. -/
def getDoor (s : State) (w : Swap) : State :=
  let s1 := announceArp (setRole s 3)
  notePass ((setDoor s1 Fade.unity).onPair (fun p => { p with
    deferred := [], split := false, snapSent := true, digestAt := none, asked := none })) w

/-- SWAP_TICK_PASS (R337, R341): at the swap tick the roles exchange, of a door-holder and a STANDBY. With either heartbeat in
doubt seat A holds the door and seat B does not. -/
def execSwapTickPass (s : State) : Host.Outcome State Fault Refusal :=
  .next (match s.pair.swap with
    | none => s
    | some w =>
      if s.tick < w.ts then s
      else
        let seen : Bool := match s.pair.beatTick with
          | some _ => decide (w.ts ≤ s.pair.peerTick + 1)
          | none => false
        let s1 := dropSwap s
        let seatA : Bool := s.nat Ix.seat == 0
        if !s.paired ∨ s.nat Ix.pairRole ≠ (if w.giver then 3 else 2) then s1
        else if w.giver then
          (if !seen && seatA then s1.alarm Al.pairSwapAbandoned else (giveDoor s1 w).alarmIf seen Al.pairSwapDone)
        else if !seen && !seatA then haltWork (s1.alarm Al.pairSwapAbandoned)
        else (getDoor s1 w).alarm Al.pairSwapDone)

/-- SWAP_OUT_HOLD_END (R341): the physical outputs of the old door-holder take the standard fade-out. -/
def execSwapOutHoldEnd (s : State) : Host.Outcome State Fault Refusal :=
  .next (match s.pair.outHold with
    | some t => if t ≤ s.tick ∧ !s.isDoor then setDoor s (fadeOut s.lat.door) else s
    | none => s)

/-- SWAP_INTERVAL_EXPIRY (R339): PAIR_SWAP_INTERVAL has passed since the last swap or takeover, by the system counter; before
the first, since reset (DESIGN CHOICE, assumption 150). It is raised once. -/
def execSwapIntervalExpiry (s : State) : Host.Outcome State Fault Refusal :=
  let passed := decide (s.pair.doorAt + s.nat Ix.pairSwapInterval * 3600000000000 ≤ s.clk.sysCounter)
  .next (if s.paired ∧ s.nat Ix.pairSwapInterval ≠ 0 ∧ passed ∧ !s.pair.swapDue then
    (s.onPair (fun p => { p with swapDue := true })).alarm Al.pairSwapDue else s)

end Sys2Proof.Machine
end

