-- ==== Sys2Proof/Machine/Ports.lean ====
section
/-! DEFINITION. The events of the serial audio ports (chapter 09): frames, lost clocks, rate windows, returns,
fade ends, rate converters and AES3. -/

namespace Sys2Proof.Machine

/-- The key of a direction in the port table. -/
def dirKey : Dirn → Nat
  | .tdm p tx => 2 * p.val + (if tx then 1 else 0)
  | .aes i => 64 + i.val

/-- The word of a received slot (R23): 16- and 24-bit slots whole, a 32-bit slot's bits [31:8]. -/
def slotWord (fmt raw : Nat) : Word :=
  let v := if fmt % 4 = 2 then raw / 256 else raw
  convertIn (fmtBits fmt) (signedOf (fmtBits fmt) (v % 2 ^ fmtBits fmt))

/-- A receive frame is bad (R217). One that has not completed at the hand-over of its block is met there. -/
def frameBad (d : Dir) (f : TdmFrame) : Bool :=
  f.bclks != fmtSlots d.fmt * fmtWidth d.fmt || !f.timely || (clkFollower d.clk && f.fast)

/-- The counter at the latest frame edge of a direction (R15). -/
def stampFrame (s : State) (k stamp : Nat) : State := setDir s k { dirOf s k with stamp := stamp }

/-- Where the house sample of the edge lies in the tick, a HOUSE transmit direction has sent the frames before it. -/
def sendBefore (s : State) (k : Nat) (f : TdmFrame) : State :=
  let d := dirOf s k
  let m := min f.place s.ticklen - d.frames
  forN (fun j t => clockOut t k (f.stamp - (m - j) * s.budget / s.ticklen)) m s

/-- A slip (R211): the direction fades on its held sample, and the next frame is assigned anew. One that is out of service
for its rate stays so. -/
def slipDir (s0 : State) (k : Nat) (f : TdmFrame) : State :=
  let s := if isRx k then s0 else sendBefore s0 k f
  let s1 := outOfService s k (if (dirOf s k).run == .mismatch then .mismatch else .recovering) true
  let s2 := if isRx k then setDir s1 k (frameHeld (dirOf s1 k)) else s1
  (s2.addHold Ix.tdmErrors (4 * (k / 2) + 3) 1).alarm (Al.tdmSlip.src (k / 2)) (k % 2)

/-- The phase of a frame lies outside the interval of R211. -/
def phaseOut (f : TdmFrame) : Bool := decide (f.phase ≤ -4352) || decide (256 < f.phase)

/-- A HOUSE follower that has been assigned slips on this frame (R211). -/
def slips (d : Dir) (f : TdmFrame) : Bool := houseFollower d && d.assigned && d.run != .lost && phaseOut f

/-- TDM_PHASE as a frame measures it (R210). -/
def notePhase (s : State) (k : Nat) (f : TdmFrame) : State := s.setInt Ix.tdmPhase k (max (-4096) (min 0 f.phase))

/-- The direction whose buffer steers the port's NCO (R220): transmit where that direction is a FOLLOW master. -/
def steers (s : State) (k : Nat) : Bool :=
  clkMode (dirOf s k).clk == 1 && (!isRx k || !((dirOf s (k + 1)).run != .off && clkMode (dirOf s (k + 1)).clk == 1))

/-- The NCO after a frame of the direction that steers it (R220): it stops at ±200 ppm, and reaching the limit raises
TDM_FOLLOW_LIMIT. -/
def steerNco (s : State) (k : Nat) (nco : Int) : State :=
  let n := k / 2
  if !steers s k then s
  else
    let v := max (-200000) (min 200000 nco)
    let at_ := decide (v.natAbs = 200000)
    let st := s.nat Ix.tdmState n
    let s1 := (s.setInt Ix.tdmNcoPpm n v).setNat Ix.tdmState n (st % 256 + (if at_ then 256 else 0))
    s1.alarmIf (at_ && !st.testBit 8) (Al.tdmFollowLimit.src n) (k % 2)

/-- The converters of a direction. -/
def asrcsOf (s : State) (k : Nat) (d : Dir) : List Nat :=
  d.chans.filterMap (fun c => asrcOf s (asrcUser k c.1))

/-- The converters of a direction acquire again, and its channels fade (R222). -/
def reacquire (s : State) (k : Nat) : State :=
  let d := dirOf s k
  let s1 := (asrcsOf s k d).foldl (fun s c => s.setNat Ix.asrcState c 1) s
  setDir s1 k { mapChans (fun c => { c with svc := fadeOut c.svc }) d with ticks := 0, counts := false }

/-- A lost direction hears its clock again: it recovers, and its converters acquire (R217, R222). -/
def clockBack (s : State) (k : Nat) : State :=
  let d := dirOf s k
  if d.run != .lost then s
  else
    let s1 := setDir s k { d with run := .recovering }
    if usesAsrc s1 k d then reacquire s1 k else s1

/-- A channel's frames of the tick are `n`: it drops what is too much, or repeats its held sample. -/
def placeAt (n time : Nat) (c : Chan) : Chan := pushHeld (n - c.fifo.length) time { c with fifo := c.fifo.take n }

/-- A good frame (R210): a HOUSE follower not yet assigned is measured and its frame put at its house sample; a lost
direction hears its clock again. -/
def goodFrame (s : State) (k : Nat) (f : TdmFrame) : State :=
  let s0 := clockBack s k
  let d := dirOf s0 k
  let measure := houseFollower d && !d.assigned
  let s1 := if measure then notePhase s0 k f else s0
  let d1 := if measure then
      { mapChans (placeAt f.place d.stamp) d with frames := f.place, assigned := true, counts := false, ticks := 0 }
    else d
  setDir s1 k { frameIn (f.raw.map (slotWord d.fmt)) d1 with bad := 0 }

/-- A frame of the receive direction (R210, R211, R217). -/
def rxFrame (s : State) (k : Nat) (f : TdmFrame) : State :=
  let d := dirOf s k
  let s1 := stampFrame s k f.stamp
  if frameBad d f then steerNco (badFrame s1 k) k f.nco
  else if slips d f then slipDir s1 k f
  else steerNco (goodFrame s1 k f) k f.nco

/-- A frame of the transmit direction is clocked out (R210, R211, R220, R222): a HOUSE follower measures its phase, and
slips outside the interval; FOLLOW and FOREIGN directions send from their buffers, and a FOLLOW master steers. -/
def txFrame (s : State) (k : Nat) (f : TdmFrame) : State :=
  let d := dirOf s k
  if houseFollower d then
    if slips d f then slipDir s k f
    else if d.assigned then s
    else
      let s1 := notePhase s k f
      setDir s1 k { dirOf s1 k with assigned := true, counts := false, ticks := 0 }
  else if clkMode d.clk = 0 then s
  else
    let s1 := if d.run == .lost then s else clockOut s k f.stamp
    if clkMode d.clk = 1 then steerNco s1 k f.nco else s1

/-- TDM_FRAME_RECEIVED (R210, R211, R217). A disabled direction ignores DI (R207). -/
def execTdmFrameReceived (port : Fin 32) (f : TdmFrame) (s : State) : Host.Outcome State Fault Refusal :=
  let k := 2 * port.val + (if f.tx then 1 else 0)
  .next (if (dirOf s k).run == .off then s else if f.tx then txFrame s k f else rxFrame s k f)

/-- TDM_FS_TIMEOUT (R217, R219): a follower without frame syncs for 2 frame periods declares loss. A transmit
follower holds DO until its clock returns. -/
def execTdmFsTimeout (port : Fin 32) (tx : Bool) (s : State) : Host.Outcome State Fault Refusal :=
  let k := dirKey (.tdm port tx)
  let d := dirOf s k
  if d.run == .off || d.run == .lost || !clkFollower d.clk then .next s
  else
    let s1 := outOfService s k .lost true
    let s2 := if tx then setDir s1 k (mapChans (fun c => { c with svc := Fade.silent }) (dirOf s1 k)) else s1
    .next (s2.alarm (Al.tdmClockLoss.src port.val) (if tx then 1 else 0))

/-- TX_FOLLOWER_CLOCK_RETURN (R219): transmission starts at once under the fade-in; slots on converters stay silent until
these have acquired (R222). -/
def execTxFollowerClockReturn (port : Fin 32) (s : State) : Host.Outcome State Fault Refusal :=
  let k := 2 * port.val + 1
  let d := dirOf s k
  if d.run == .lost && clkFollower d.clk && usesAsrc s k d then .next (clockBack s k)
  else if d.run == .lost && clkFollower d.clk then
    .next (setDir s k { mapChans (fun c => { c with svc := fadeIn c.svc, hold := false }) d with run := .running, bad := 0 })
  else .next s

/-- A rate lies outside what the direction accepts (R218, R226), in mHz. -/
def rateOutside (s : State) (k : Nat) (d : Dir) (rate : Nat) : Bool :=
  if usesAsrc s k d then decide (rate < 32000000) || decide (192000000 < rate)
  else
    let house := s.fs * 1000
    decide (200 * house < ((rate : Int) - house).natAbs * 1000000)

/-- The rate moved faster than a converter tracks, 10,000 ppm/s, over one window of 64 frames (R222). -/
def slewTooFast (old rate : Nat) : Bool :=
  old != 0 && decide (10000 * 64 * old * 1000 < ((rate : Int) - old).natAbs * 1000000 * rate)

/-- The locked converters of a direction follow its rate (R222): their ratio is the rate measured over the house rate. -/
def trackRatio (s : State) (k rate : Nat) : State :=
  if !usesAsrc s k (dirOf s k) then s
  else
    let s1 := (asrcsOf s k (dirOf s k)).foldl (fun t c =>
      if t.nat Ix.asrcState c = 2 then t.setNat Ix.asrcRatio c (rate * 16777216 / (t.fs * 1000)) else t) s
    syncDir s1 k

/-- RATE_WINDOW (R218): the measured rate, and for a follower the monitor; a master has none. -/
def execRateWindow (dirn : Dirn) (rate : BitVec 32) (s : State) : Host.Outcome State Fault Refusal :=
  let k := dirKey dirn
  let d := dirOf s k
  let r := rate.toNat
  if d.run == .off then .next s
  else if isTdm k && !clkFollower d.clk then .next (trackRatio (s.setNat Ix.tdmRate k r) k r)
  else
    let old := if isTdm k then s.nat Ix.tdmRate k else s.nat Ix.aesiRate (k - 64)
    let s0 := if isTdm k then s.setNat Ix.tdmRate k r else s.setNat Ix.aesiRate (k - 64) r
    let s1 := if usesAsrc s0 k d && slewTooFast old r then reacquire s0 k else trackRatio s0 k r
    let d1 := dirOf s1 k
    if rateOutside s1 k d1 r then
      let n := d1.out + 1
      let s2 := setDir s1 k { d1 with out := n, inside := 0 }
      if 2 ≤ n ∧ d1.run ≠ .mismatch ∧ d1.run ≠ .lost then
        let s3 := outOfService s2 k .mismatch false
        .next (if isTdm k then s3.alarm (Al.rateMismatch.src (k / 2)) (k % 2)
          else s3.alarm (Al.aesRateMismatch.src (k - 64)))
      else .next s2
    else
      let n := d1.inside + 1
      .next (setDir s1 k { d1 with
        inside := n, out := 0, run := if d1.run == .mismatch && decide (2 ≤ n) then .recovering else d1.run })

/-- The direction meets the return rule (R217), and what R218, R222 and R227 add to it. -/
def canReturn (s : State) (k : Nat) (d : Dir) : Bool :=
  (d.run == .starting || d.run == .recovering || d.run == .running) && decide (1 ≤ d.ticks) &&
    (isTdm k || decide (2 ≤ (aesOf s (k - 64)).blocks))

/-- A channel's converter, where it has one, is locked (R222). -/
def chanLocked (s : State) (k : Nat) (d : Dir) (slot : Nat) : Bool :=
  !usesAsrc s k d ||
    (match asrcOf s (asrcUser k slot) with
      | some c => s.nat Ix.asrcState c == 2
      | none => false)

/-- DIRECTION_RETURN (R217): the channels whose converters are locked come in under the fade-in. -/
def execDirectionReturn (dirn : Dirn) (s : State) : Host.Outcome State Fault Refusal :=
  let k := dirKey dirn
  let d := dirOf s k
  if !canReturn s k d || d.restart || d.stopping then .next s
  else
    .next (setDir s k { d with
      run := if d.run == .running || d.chans.isEmpty || d.chans.any (fun c => chanLocked s k d c.1) then .running else d.run
      chans := d.chans.map (fun c => (c.1, if chanLocked s k d c.1 then { c.2 with svc := fadeIn c.2.svc, hold := false } else c.2)) })

/-- PORT_FADE_END (R207, R212, R213): a restart starts again, a disabled direction stops, and slots whose mask
fade-out has ended leave the frame. -/
def execPortFadeEnd (dirn : Dirn) (s : State) : Host.Outcome State Fault Refusal :=
  let k := dirKey dirn
  let d := dirOf s k
  if d.run == .off then .next s
  else if d.stopping && d.chans.all (fun c => c.2.en.mode == .silent) then
    let s1 := stopDir s k
    .next (if dirEnabled s k then startDir s1 k else s1)
  else if d.restart && !d.stopping && d.chans.all (fun c => c.2.svc.mode == .silent) then .next (startDir (stopDir s k) k)
  else
    let gone := d.chans.filter (fun c => c.2.mask.mode == .silent)
    let s1 := setDir s k { d with chans := d.chans.filter (fun c => c.2.mask.mode != .silent) }
    .next (if isTdm k then gone.foldl (fun s c => freeAsrc s (asrcUser k c.1)) s1 else s1)

/-- The direction and slot a converter channel serves. -/
def asrcPlace (s : State) (ch : Nat) : Option (Nat × Nat) :=
  let user := s.nat Ix.asrcMap ch
  let id := user % 32768
  if user = 0xFFFF then none
  else if 0x2400 ≤ id then some (64 + (id - 0x2400) / 2, id % 2)
  else some (2 * ((id - 0x2000) / 32) + (if 32768 ≤ user then 1 else 0), id % 32)

/-- A channel's buffer stands at `n` samples besides those of the tick: it drops its oldest, or starts with silence. -/
def centred (n : Nat) (f : List Sample) : List Sample :=
  List.replicate (n - f.length) { Sample.zero with low := true, mute := true } ++ f.drop (f.length - n)

/-- A transmit channel's buffer stands at `n` samples that have entered before house sample `b`. -/
def centredOut (n b : Nat) (f : List Sample) : List Sample :=
  let ins := f.filter (fun x => decide (x.time < b))
  List.replicate (n - ins.length) Sample.zero ++ ins.drop (ins.length - n) ++ f.filter (fun x => decide (b ≤ x.time))

/-- A converter's FIFO is centred: 8 samples stand in it (R223). -/
def centreAsrc (s : State) (ch : Nat) : State :=
  match asrcPlace s ch with
  | none => s
  | some (k, slot) =>
    let d := dirOf s k
    match mapFind slot d.chans with
    | none => s
    | some c =>
      let f := if isRx k then centred 8 c.fifo else centredOut 8 (s.tick * s.ticklen) c.fifo
      setDir s k { d with chans := mapPut slot { c with fifo := f } d.chans }

/-- ASRC_LOCKED (R222): an acquiring converter has learned its ratio. -/
def execAsrcLocked (ch : Fin 80) (ratio : BitVec 32) (s : State) : Host.Outcome State Fault Refusal :=
  if s.nat Ix.asrcState ch.val = 1 then
    let s1 := centreAsrc ((s.setNat Ix.asrcState ch.val 2).setNat Ix.asrcRatio ch.val ratio.toNat) ch.val
    .next (match asrcPlace s1 ch.val with
      | some (k, _) => syncDir s1 k
      | none => s1)
  else .next s

/-- Count and report an underrun (`over` false) or overrun of a direction (R223, R231, R232). -/
def reportSlip (s : State) (k : Nat) (full : Bool) : State :=
  if isTdm k then
    (s.addHold Ix.tdmErrors (4 * (k / 2) + (if full then 2 else 1)) 1).alarm
      ((if full then Al.tdmOverrun else Al.tdmUnderrun).src (k / 2)) (k % 2)
  else (s.addHold Ix.aesiErrors (4 * (k - 64) + 3) 1).alarm (Al.aesSlip.src (k - 64))

/-- A receive buffer of `size` samples, of which up to `use` leave in the present tick, can be empty, or full, within the
tick. -/
def inMeets (size use : Nat) (full : Bool) (c : Chan) : Bool :=
  if full then decide (size ≤ c.fifo.length) else decide (c.fifo.length ≤ use)

/-- A transmit buffer of `size` samples can be empty, or full, within the present tick: between what has entered by its
beginning and by its end, `more` samples of it being still to come. -/
def outMeets (s : State) (size more : Nat) (full : Bool) (c : Chan) : Bool :=
  if full then decide (size ≤ entered ((s.tick + 1) * s.ticklen) c + more) else decide (entered (s.tick * s.ticklen) c = 0)

/-- A channel fades on its held sample, its buffer centred at `half` (R223): of a receive buffer with that sample, faded;
`extra` samples of the present tick have come in. -/
def slipChan (s : State) (k half extra : Nat) (c : Chan) : Chan :=
  let c1 := { c with svc := fadeOut c.svc, hold := true }
  if isRx k then pushHeld (half + extra) (dirOf s k).stamp { c1 with fifo := [] }
  else { c1 with fifo := centredOut half (s.tick * s.ticklen) c.fifo }

/-- House samples of the tick that have not yet reached a transmit channel. -/
def stillToCome (s : State) (c : Chan) : Nat := (s.tick + 1) * s.ticklen - max c.next (s.tick * s.ticklen)

/-- A converter channel's FIFO empties or fills (R223): its slot fades on its held sample, the FIFO is centred,
and only whole good ticks from now on count for its return. -/
def slipAsrc (s : State) (ch : Nat) (full : Bool) : State :=
  match asrcPlace s ch with
  | none => s
  | some (k, slot) =>
    let d := dirOf s k
    match mapFind slot d.chans with
    | none => s
    | some c =>
      let meets := if isRx k then inMeets 16 (asrcTake s k slot c.fifo.length) full c
        else outMeets s 16 (foreignIn (chanRatio s k slot) 0 (stillToCome s c)) full c
      if s.nat Ix.asrcState ch ≠ 2 ∨ !meets then s
      else
        let s1 := setDir s k { d with chans := mapPut slot (slipChan s k 8 0 c) d.chans, ticks := 0, counts := false }
        reportSlip s1 k full

/-- A FOLLOW or synchronous AES3 buffer empties or fills (R220, R223, R226): the direction fades on its held
samples and its buffer is centred. A buffer that is neither empty nor full does not. -/
def slipElastic (s : State) (k : Nat) (full : Bool) : State :=
  let d := dirOf s k
  let size := 2 * halfFill s k
  let meets := d.chans.all (fun c => if isRx k then inMeets size s.ticklen full c.2 else outMeets s size (stillToCome s c.2) full c.2)
  if d.run == .off || !usesElastic s k d || !meets then s
  else
    let s1 := setDir s k { d with
      chans := d.chans.map (fun c => (c.1, slipChan s k (halfFill s k) d.frames c.2))
      run := if d.run == .running then .recovering else d.run, ticks := 0, counts := false, good := false }
    reportSlip s1 k full

/-- What empties or fills. -/
def slipBuffer (s : State) (b : Buffer) (full : Bool) : State :=
  match b with
  | .asrc ch => slipAsrc s ch.val full
  | .follow p tx => slipElastic s (dirKey (.tdm p tx)) full
  | .aes i => slipElastic s (64 + i.val) full

/-- ASRC_UNDERRUN (R223). -/
def execAsrcUnderrun (b : Buffer) (s : State) : Host.Outcome State Fault Refusal := .next (slipBuffer s b false)
/-- ASRC_OVERRUN (R223). -/
def execAsrcOverrun (b : Buffer) (s : State) : Host.Outcome State Fault Refusal := .next (slipBuffer s b true)

/-- The Pa form a sample of subframe A shows (R229): 1 in 16-bit mode, 2 in 24-bit mode, 0 none. -/
def paForm (w : BitVec 24) : Nat :=
  if w = 0x96F872 then 2 else if w.extractLsb' 8 16 = (0xF872 : BitVec 16) then 1 else 0
/-- A sample of subframe B shows the Pb that goes with a Pa form (R229). -/
def pbMatches (form : Nat) (w : BitVec 24) : Bool :=
  (form == 2 && w == 0xA54E1F) || (form == 1 && w.extractLsb' 8 16 == (0x4E1F : BitVec 16))

/-- The latest sample of subframe A is non-PCM: its frame holds a Pa/Pb pair (R229). -/
def markPa (s : State) (i : Nat) : State :=
  let k := 64 + i
  let d := dirOf s k
  match mapFind 0 d.chans with
  | none => s
  | some c =>
    let f := c.fifo.take (c.fifo.length - 1) ++ (c.fifo.drop (c.fifo.length - 1)).map (fun x => { x with npcm := true })
    setDir s k { d with chans := mapPut 0 { c with fifo := f } d.chans }

/-- The preamble test looks for pairs (R229). -/
def pairTest (s : State) (i : Nat) : Bool := s.nat Ix.aesiNpcmMode i == 0 || s.nat Ix.aesiNpcmMode i == 2
/-- The non-PCM tests of one subframe (R229). -/
def aesNpcmTest (s : State) (i : Nat) (sub : AesSub) : State :=
  let a := aesOf s i
  if !sub.second then
    setAes s i { a with paSeen := if pairTest s i then paForm sub.data else 0
                        quietA := if a.nonAudioA then 0 else a.quietA + 1 }
  else
    let found := pairTest s i && pbMatches a.paSeen sub.data
    let s1 := setAes s i { a with paSeen := 0
                                  quietA := if found then 0 else a.quietA
                                  quietB := if found || a.nonAudioB then 0 else a.quietB + 1 }
    if found then toNonPcm (markPa s1 i) i true true else s1

/-- User bits of a subframe: 192 of them make a block (R227). -/
def aesUser (s : State) (i : Nat) (sub : AesSub) : State :=
  let a := aesOf s i
  let old := if sub.second then a.userB else a.userA
  let l := (if sub.start then [] else old) ++ [sub.user]
  let put (l : List Bool) : State := setAes s i (if sub.second then { a with userB := l } else { a with userA := l })
  if l.length < 192 then put l
  else
    let word (w : Nat) : Nat := (upFrom 0 32).foldl (fun n b => if listGet false (32 * w + b) l then n + 2 ^ b else n) 0
    (upFrom 0 6).foldl (fun s w => s.setNat Ix.aesiUser (12 * i + 6 * (if sub.second then 1 else 0) + w) (word w)) (put [])

/-- One channel of an AES3 input takes a word, or its held sample (R217, R227). -/
def aesPush (s : State) (i : Nat) (second : Bool) (w : Option Word) : State :=
  let k := 64 + i
  let d := dirOf s k
  let slot := if second then 1 else 0
  let a := aesOf s i
  match mapFind slot d.chans with
  | none => s
  | some c =>
    let c1 := match w with
      | some w => chanPush c (if second then a.npcmB else a.npcmA) d.stamp w
      | none => pushHeld 1 d.stamp c
    setDir s k { d with
      chans := mapPut slot { c1 with concealed := c1.concealed || w.isNone } d.chans
      frames := if second then d.frames + 1 else d.frames, good := d.good && w.isSome }

/-- AES3 input `i` has declared loss (R227): candidate 3, where it is input 0, is absent (R281). -/
def aesLost (s : State) (i : Nat) : State :=
  let s1 := s.alarm (Al.aesLockLoss.src i)
  if i = 0 then refLost s1 3 else s1

/-- A bad subframe (R217, R227): counted and concealed; the second in a row declares loss. -/
def aesBad (s : State) (i : Nat) (sub : AesSub) : State :=
  let k := 64 + i
  let d := dirOf s k
  let s1 := if sub.biphase then s.addHold Ix.aesiErrors (4 * i) 1 else s
  let s2 := if sub.parity then s1.addHold Ix.aesiErrors (4 * i + 1) 1 else s1
  let lose := d.bad != 0 && d.run != .lost
  let s3 := if lose then outOfService s2 k .lost true else s2
  let s4 := if lose then setAes s3 i { aesOf s3 i with blocks := 0 } else s3
  let s5 := aesPush s4 i sub.second none
  let s6 := setDir s5 k { dirOf s5 k with bad := d.bad + 1 }
  if lose then aesLost s6 i else s6

/-- AES_SUBFRAME_RECEIVED (R225, R227, R229). -/
def execAesSubframeReceived (input : Fin 8) (sub : AesSub) (s : State) : Host.Outcome State Fault Refusal :=
  let i := input.val
  let k := 64 + i
  if (dirOf s k).run == .off then .next s
  else
    let s0 := if sub.second then s else stampFrame s k sub.stamp
    if sub.biphase || sub.parity then .next (aesBad s0 i sub)
    else
      let st := s0.nat Ix.aesiState i
      let bit := if sub.second then 7 else 6
      let s1 := s0.setNat Ix.aesiState i (if st.testBit bit = sub.validity then st else st ^^^ 2 ^ bit)
      let s2 := aesUser (aesNpcmTest s1 i sub) i sub
      let s3 := clockBack (aesPush s2 i sub.second (some (convertIn 24 sub.data.toInt))) k
      .next (setDir s3 k { dirOf s3 k with bad := 0 })

/-- A channel-status block verifies (R227). -/
def csGood (block : List Byte) : Bool := block.length == 24 && block.getLast? == some (Config.crcc (block.take 23))

/-- A channel-status block of one subframe (R227): kept where its CRCC verifies, else counted. -/
def aesStatus (s : State) (i : Nat) (second : Bool) (block : List Byte) : State :=
  if !csGood block then s.addHold Ix.aesiErrors (4 * i + 2) 1
  else
    let f := if second then 1 else 0
    let s1 := (upFrom 0 6).foldl (fun s w =>
      s.setNat Ix.aesiCs (12 * i + 6 * f + w) (natLE ((block.drop (4 * w)).take 4))) s
    let na := (listGet 0 0 block).getLsbD 1
    let a := aesOf s1 i
    setAes s1 i (if second then { a with nonAudioB := na, csB := true } else { a with nonAudioA := na, csA := true })

/-- A synchronous input that locks centres its buffer at 8 (R226). -/
def centreAes (s : State) (i : Nat) : State :=
  let k := 64 + i
  if (aesOf s i).asrc then s
  else
    let d := dirOf s k
    setDir s k (mapChans (fun c => { c with fifo := centred (8 + d.frames) c.fifo }) d)

/-- AES_CS_BLOCK (R227): a channel-status block of both subframes completes. -/
def execAesCsBlock (input : Fin 8) (blockA blockB : List Byte) (preambles : Bool) (s : State) :
    Host.Outcome State Fault Refusal :=
  let i := input.val
  if (dirOf s (64 + i)).run == .off then .next s
  else
    let a := aesOf s i
    let s1 := setAes s i { a with blocks := if preambles then a.blocks + 1 else 0 }
    let s2 := if preambles && a.blocks == 1 then centreAes s1 i else s1
    let s3 := aesStatus (aesStatus s2 i false blockA) i true blockB
    .next (applyStatus s3 i (csGood blockA) (csGood blockB))

/-- AES_PREAMBLE_TIMEOUT (R227). -/
def execAesPreambleTimeout (input : Fin 8) (s : State) : Host.Outcome State Fault Refusal :=
  let i := input.val
  let d := dirOf s (64 + i)
  if d.run == .off || d.run == .lost then .next s
  else
    let s1 := outOfService (setAes s i { aesOf s i with blocks := 0 }) (64 + i) .lost true
    .next (aesLost s1 i)

/-- AES_NPCM_RETURN (R229): a subframe returns to PCM once 8,192 frames have passed with no pair and with its
non-audio bit clear. -/
def execAesNpcmReturn (input : Fin 8) (s : State) : Host.Outcome State Fault Refusal :=
  let i := input.val
  let a := aesOf s i
  .next (syncDir (setAes s i { a with
    npcmA := a.npcmA && (decide (a.quietA < 8192) || a.nonAudioA)
    npcmB := a.npcmB && (decide (a.quietB < 8192) || a.nonAudioB) }) (64 + i))

end Sys2Proof.Machine
end

