-- ==== Sys2Proof/Machine/Ref.lean ====
section
/-! DEFINITION. The commands of chapter 12: averages, absences and timers of the candidate references, and the
holdover oscillator. -/

namespace Sys2Proof.Machine

/-- One candidate's 1-second average (R281, R286, R288): outside the coarse window it is absent; inside, it is present where
there is activity on it. -/
def refAverage (s0 : State) (k : Nat) (avg : Int) : State :=
  if coarseWin k < avg.natAbs then refFails (s0.setInt Ix.refFreq k (hold32 avg)) k true
  else
    let s := setCand s0 k { candOf s0 k with coarse := false }
    let s1 := if carriesTime k && !(candOf s k).active then s else refPresent s k
    if (candOf s1 k).present then refMonitors s1 k avg else s1

/-- REF_SECOND_AVERAGE (R286 to R289). -/
def execRefSecondAverage (avgs : List (Option Int)) (osc : Int) (s : State) : Host.Outcome State Fault Refusal :=
  let s0 := { s with ref := { s.ref with osc := osc } }
  let s1 := (upFrom 0 6).foldl (fun s k =>
    match listGet none k avgs with
    | some a => refAverage s k a
    | none => s) s0
  let s2 := refSample (refRank s1) avgs
  let s3 := { s2 with ref := { s2.ref with switched := false } }
  .next (holdFollow s3)

/-- REF_ABSENT (R281). -/
def execRefAbsent (ref : Fin 6) (s : State) : Host.Outcome State Fault Refusal :=
  .next (if (candOf s ref.val).present then refLost s ref.val else s)

/-- REF_QUALIFIED (R290): a candidate that has qualified for REF_QUAL_TIME with every condition of eligibility held becomes
ELIGIBLE. -/
def execRefQualified (ref : Fin 6) (s : State) : Host.Outcome State Fault Refusal :=
  let k := ref.val
  let c := candOf s k
  let s1 := s.setNat Ix.refQl k (if c.present then levelOf s k else 15)
  let passed := decide (c.since + s.nat Ix.refQualTime * 1000000000 ≤ s.clk.sysCounter)
  if refState s k = 1 ∧ c.present ∧ passed ∧ !c.avgs.isEmpty ∧ (refReason s1 k).isNone then .next (setRefState s1 k 2) else .next s

/-- REF_HOLD_SPEC_EXPIRY (R285, R295). -/
def execRefHoldSpecExpiry (s : State) : Host.Outcome State Fault Refusal :=
  if inHoldover s && !s.ref.specOver then
    let s1 := { s with ref := { s.ref with specOver := true } }
    .next (ptpQuality ((s1.setNat Ix.refOwnQl 0 (ownLevel s1)).alarm Al.refHoldoverExpired))
  else .next s

/-- HOLD_OSC_ACTIVITY_LOSS (R286): the declared OCXO is lost; the crystal serves. -/
def execHoldOscActivityLoss (s : State) : Host.Outcome State Fault Refusal :=
  if s.nat Ix.refHoldOsc = 0 ∨ s.ref.oscLost then .next s
  else .next (holdFollow ({ s with ref := { s.ref with oscLost := true } }.alarm Al.holdOscLost))

/-- HOLD_OSC_RETURN (R286): the OCXO has been present for 2 s. -/
def execHoldOscReturn (s : State) : Host.Outcome State Fault Refusal :=
  .next (if s.ref.oscLost then holdFollow { s with ref := { s.ref with oscLost := false } } else s)

end Sys2Proof.Machine
end

