-- ==== Sys2Proof/Machine/Dispatch.lean ====
section
/-! DEFINITION. The meaning of every command, by constructor. -/

namespace Sys2Proof.Machine

/-- The effect of a command on everything but the queue. -/
def exec (i : Instr) (s : State) : Host.Outcome State Fault Refusal :=
  match i with
  | .mpy is lane a x y => Sys2Proof.Machine.execMpy is lane a x y s
  | .mac is lane a x y => Sys2Proof.Machine.execMac is lane a x y s
  | .msu is lane a x y => Sys2Proof.Machine.execMsu is lane a x y s
  | .mpy2 is lane a b x y u v => Sys2Proof.Machine.execMpy2 is lane a b x y u v s
  | .mac2 is lane a b x y u v => Sys2Proof.Machine.execMac2 is lane a b x y u v s
  | .msu2 is lane a b x y u v => Sys2Proof.Machine.execMsu2 is lane a b x y u v s
  | .dpy2 is lane a x y u v => Sys2Proof.Machine.execDpy2 is lane a x y u v s
  | .dot2 is lane a x y u v => Sys2Proof.Machine.execDot2 is lane a x y u v s
  | .dsu2 is lane a x y u v => Sys2Proof.Machine.execDsu2 is lane a x y u v s
  | .cmpy is e x y => Sys2Proof.Machine.execCmpy is e x y s
  | .cmac is e x y => Sys2Proof.Machine.execCmac is e x y s
  | .cmpyj is e x y => Sys2Proof.Machine.execCmpyj is e x y s
  | .cmacj is e x y => Sys2Proof.Machine.execCmacj is e x y s
  | .ld is side form an reg ecc => Sys2Proof.Machine.execLd is side form an reg ecc s
  | .st is side form an reg => Sys2Proof.Machine.execSt is side form an reg s
  | .sta is side form an a => Sys2Proof.Machine.execSta is side form an a s
  | .mov is side src dst => Sys2Proof.Machine.execMov is side src dst s
  | .ldi is side dst high imm => Sys2Proof.Machine.execLdi is side dst high imm s
  | .ldl is dst off => Sys2Proof.Machine.execLdl is dst off s
  | .stl is src off => Sys2Proof.Machine.execStl is src off s
  | .add is z x src => Sys2Proof.Machine.execAdd is z x src s
  | .sub is z x src => Sys2Proof.Machine.execSub is z x src s
  | .adds is z x src => Sys2Proof.Machine.execAdds is z x src s
  | .subs is z x src => Sys2Proof.Machine.execSubs is z x src s
  | .andOp is z x src => Sys2Proof.Machine.execAndOp is z x src s
  | .orOp is z x src => Sys2Proof.Machine.execOrOp is z x src s
  | .xorOp is z x src => Sys2Proof.Machine.execXorOp is z x src s
  | .notOp is z x => Sys2Proof.Machine.execNotOp is z x s
  | .asr is z x src => Sys2Proof.Machine.execAsr is z x src s
  | .lsr is z x src => Sys2Proof.Machine.execLsr is z x src s
  | .lsl is z x src => Sys2Proof.Machine.execLsl is z x src s
  | .minOp is z x src => Sys2Proof.Machine.execMinOp is z x src s
  | .maxOp is z x src => Sys2Proof.Machine.execMaxOp is z x src s
  | .absOp is z x => Sys2Proof.Machine.execAbsOp is z x s
  | .negOp is z x => Sys2Proof.Machine.execNegOp is z x s
  | .cmp is x src => Sys2Proof.Machine.execCmp is x src s
  | .clr is a => Sys2Proof.Machine.execClr is a s
  | .adda is a b => Sys2Proof.Machine.execAdda is a b s
  | .ash is a n => Sys2Proof.Machine.execAsh is a n s
  | .ldacc is a x => Sys2Proof.Machine.execLdacc is a x s
  | .movw is z a => Sys2Proof.Machine.execMovw is z a s
  | .bra is target => Sys2Proof.Machine.execBra is target s
  | .bcc is cond target => Sys2Proof.Machine.execBcc is cond target s
  | .call is target => Sys2Proof.Machine.execCall is target s
  | .ret is => Sys2Proof.Machine.execRet is s
  | .rti is => Sys2Proof.Machine.execRti is s
  | .braDx is x => Sys2Proof.Machine.execBraDx is x s
  | .repImm is count => Sys2Proof.Machine.execRepImm is count s
  | .repDx is x => Sys2Proof.Machine.execRepDx is x s
  | .doImm is count fin => Sys2Proof.Machine.execDoImm is count fin s
  | .doDx is x fin => Sys2Proof.Machine.execDoDx is x fin s
  | .endl is => Sys2Proof.Machine.execEndl is s
  | .loopExit eng => Sys2Proof.Machine.execLoopExit eng s
  | .waitphase is second => Sys2Proof.Machine.execWaitphase is second s
  | .waitphaseReturn eng cycle stall => Sys2Proof.Machine.execWaitphaseReturn eng cycle stall s
  | .doneOp is => Sys2Proof.Machine.execDoneOp is s
  | .postImm is slot => Sys2Proof.Machine.execPostImm is slot s
  | .postDx is x => Sys2Proof.Machine.execPostDx is x s
  | .postStallEnd eng stall => Sys2Proof.Machine.execPostStallEnd eng stall s
  | .illegalBundle is bundle => Sys2Proof.Machine.execIllegalBundle is bundle s
  | .eccWriteback eng mem word => Sys2Proof.Machine.execEccWriteback eng mem word s
  | .subbankRetry eng fabric => Sys2Proof.Machine.execSubbankRetry eng fabric s
  | .interruptTaken eng => Sys2Proof.Machine.execInterruptTaken eng s
  | .inputGatherDone eng gather => Sys2Proof.Machine.execInputGatherDone eng gather s
  | .outputFrameCopied eng second reads => Sys2Proof.Machine.execOutputFrameCopied eng second reads s
  | .engFlagsClr => Sys2Proof.Machine.execEngFlagsClr s
  | .mboxInMessage eng words => Sys2Proof.Machine.execMboxInMessage eng words s
  | .mboxAck eng port => Sys2Proof.Machine.execMboxAck eng port s
  | .mboxSend eng port => Sys2Proof.Machine.execMboxSend eng port s
  | .mboxOutCollect eng => Sys2Proof.Machine.execMboxOutCollect eng s
  | .mboxWrite eng => Sys2Proof.Machine.execMboxWrite eng s
  | .mboxAlarm eng => Sys2Proof.Machine.execMboxAlarm eng s
  | .writeReply eng => Sys2Proof.Machine.execWriteReply eng s
  | .softIrqSet eng port => Sys2Proof.Machine.execSoftIrqSet eng port s
  | .run => Sys2Proof.Machine.execRun s
  | .stop => Sys2Proof.Machine.execStop s
  | .restart => Sys2Proof.Machine.execRestart s
  | .engCtlAct place => Sys2Proof.Machine.execEngCtlAct place s
  | .engImage => Sys2Proof.Machine.execEngImage s
  | .tickBoundary held => Sys2Proof.Machine.execTickBoundary held s
  | .p0Deadline => Sys2Proof.Machine.execP0Deadline s
  | .p1Deadline => Sys2Proof.Machine.execP1Deadline s
  | .phaseD2Open => Sys2Proof.Machine.execPhaseD2Open s
  | .p2Deadline => Sys2Proof.Machine.execP2Deadline s
  | .p3Deadline => Sys2Proof.Machine.execP3Deadline s
  | .p4Deadline => Sys2Proof.Machine.execP4Deadline s
  | .p5Deadline => Sys2Proof.Machine.execP5Deadline s
  | .readerWaitEnd gather => Sys2Proof.Machine.execReaderWaitEnd gather s
  | .houseRate => Sys2Proof.Machine.execHouseRate s
  | .ticklen => Sys2Proof.Machine.execTicklen s
  | .sequencerRestart cycles => Sys2Proof.Machine.execSequencerRestart cycles s
  | .phasePlan => Sys2Proof.Machine.execPhasePlan s
  | .keyedRestepTaken => Sys2Proof.Machine.execKeyedRestepTaken s
  | .directWriteLanding => Sys2Proof.Machine.execDirectWriteLanding s
  | .zcTimeoutStep sum => Sys2Proof.Machine.execZcTimeoutStep sum s
  | .rampMoveEnd sum => Sys2Proof.Machine.execRampMoveEnd sum s
  | .busFrameWritten bus reads => Sys2Proof.Machine.execBusFrameWritten bus reads s
  | .busSatClr => Sys2Proof.Machine.execBusSatClr s
  | .benchScrubRead xp ecc => Sys2Proof.Machine.execBenchScrubRead xp ecc s
  | .egressConvert dest => Sys2Proof.Machine.execEgressConvert dest s
  | .limGrClr => Sys2Proof.Machine.execLimGrClr s
  | .latticeGather gather => Sys2Proof.Machine.execLatticeGather gather s
  | .softTakeEnd dest => Sys2Proof.Machine.execSoftTakeEnd dest s
  | .latticeScrubRead selector id age ecc => Sys2Proof.Machine.execLatticeScrubRead selector id age ecc s
  | .stage => Sys2Proof.Machine.execStage s
  | .commit => Sys2Proof.Machine.execCommit s
  | .abort => Sys2Proof.Machine.execAbort s
  | .commitFreeze id => Sys2Proof.Machine.execCommitFreeze id s
  | .commitLanding => Sys2Proof.Machine.execCommitLanding s
  | .unownedSetExpiry => Sys2Proof.Machine.execUnownedSetExpiry s
  | .commandFrameReceived addr sport dport vlan fragment bytes => Sys2Proof.Machine.execCommandFrameReceived addr sport dport vlan fragment bytes s
  | .read => Sys2Proof.Machine.execRead s
  | .write => Sys2Proof.Machine.execWrite s
  | .keepalive => Sys2Proof.Machine.execKeepalive s
  | .subscribe => Sys2Proof.Machine.execSubscribe s
  | .unsubscribe => Sys2Proof.Machine.execUnsubscribe s
  | .openOp => Sys2Proof.Machine.execOpenOp s
  | .closeOp => Sys2Proof.Machine.execCloseOp s
  | .domOpen => Sys2Proof.Machine.execDomOpen s
  | .domSeg => Sys2Proof.Machine.execDomSeg s
  | .domClose => Sys2Proof.Machine.execDomClose s
  | .sessionTimeout session => Sys2Proof.Machine.execSessionTimeout session s
  | .notificationDue session => Sys2Proof.Machine.execNotificationDue session s
  | .hpCmdGo len => Sys2Proof.Machine.execHpCmdGo len s
  | .hpRspPop => Sys2Proof.Machine.execHpRspPop s
  | .hpDpStart ctl errs => Sys2Proof.Machine.execHpDpStart ctl errs s
  | .hpDpdataWrite bytes errs => Sys2Proof.Machine.execHpDpdataWrite bytes errs s
  | .registerWrite reg value => Sys2Proof.Machine.execRegisterWrite reg value s
  | .ctlLogAck => Sys2Proof.Machine.execCtlLogAck s
  | .ctlCredWrap => Sys2Proof.Machine.execCtlCredWrap s
  | .ctlCredPriv => Sys2Proof.Machine.execCtlCredPriv s
  | .controlArpRequest target ask => Sys2Proof.Machine.execControlArpRequest target ask s
  | .controlIcmpEcho target ask payload => Sys2Proof.Machine.execControlIcmpEcho target ask payload s
  | .tdmFrameReceived port frame => Sys2Proof.Machine.execTdmFrameReceived port frame s
  | .tdmFsTimeout port tx => Sys2Proof.Machine.execTdmFsTimeout port tx s
  | .rateWindow dirn rate => Sys2Proof.Machine.execRateWindow dirn rate s
  | .directionReturn dirn => Sys2Proof.Machine.execDirectionReturn dirn s
  | .portFadeEnd dirn => Sys2Proof.Machine.execPortFadeEnd dirn s
  | .asrcLocked ch ratio => Sys2Proof.Machine.execAsrcLocked ch ratio s
  | .asrcUnderrun buffer => Sys2Proof.Machine.execAsrcUnderrun buffer s
  | .asrcOverrun buffer => Sys2Proof.Machine.execAsrcOverrun buffer s
  | .aesSubframeReceived input sub => Sys2Proof.Machine.execAesSubframeReceived input sub s
  | .aesCsBlock input blockA blockB preambles => Sys2Proof.Machine.execAesCsBlock input blockA blockB preambles s
  | .aesPreambleTimeout input => Sys2Proof.Machine.execAesPreambleTimeout input s
  | .aesNpcmReturn input => Sys2Proof.Machine.execAesNpcmReturn input s
  | .streamPacketReceived port packet => Sys2Proof.Machine.execStreamPacketReceived port packet s
  | .streamPacketSent turn => Sys2Proof.Machine.execStreamPacketSent turn s
  | .ringFrameReceived port frame fcs time ring => Sys2Proof.Machine.execRingFrameReceived port frame fcs time ring s
  | .txDescriptorHandover ring slot osc => Sys2Proof.Machine.execTxDescriptorHandover ring slot osc s
  | .ringFrameSent ring send => Sys2Proof.Machine.execRingFrameSent ring send s
  | .mediaArpRequest port target => Sys2Proof.Machine.execMediaArpRequest port target s
  | .igmpRepeat stream watch => Sys2Proof.Machine.execIgmpRepeat stream watch s
  | .igmpQuery port query => Sys2Proof.Machine.execIgmpQuery port query s
  | .chainForward port frame residence busy => Sys2Proof.Machine.execChainForward port frame residence busy s
  | .linkDownDeclared port => Sys2Proof.Machine.execLinkDownDeclared port s
  | .linkUpDeclared port => Sys2Proof.Machine.execLinkUpDeclared port s
  | .legDown stream leg => Sys2Proof.Machine.execLegDown stream leg s
  | .timeMeasurement ref offset est cycles => Sys2Proof.Machine.execTimeMeasurement ref offset est cycles s
  | .timeFirstStep => Sys2Proof.Machine.execTimeFirstStep s
  | .timeRestep => Sys2Proof.Machine.execTimeRestep s
  | .timeSet => Sys2Proof.Machine.execTimeSet s
  | .ptpSyncReceived inst leg domain offset delay diff => Sys2Proof.Machine.execPtpSyncReceived inst leg domain offset delay diff s
  | .ptpAnnounceReceived inst leg announce => Sys2Proof.Machine.execPtpAnnounceReceived inst leg announce s
  | .ptpAnnounceTimeout inst leg => Sys2Proof.Machine.execPtpAnnounceTimeout inst leg s
  | .trigEdge trig => Sys2Proof.Machine.execTrigEdge trig s
  | .trigPulseEnd trig => Sys2Proof.Machine.execTrigPulseEnd trig s
  | .captEdgeStamp input rising quarter => Sys2Proof.Machine.execCaptEdgeStamp input rising quarter s
  | .refSecondAverage avgs osc => Sys2Proof.Machine.execRefSecondAverage avgs osc s
  | .refAbsent ref => Sys2Proof.Machine.execRefAbsent ref s
  | .refQualified ref => Sys2Proof.Machine.execRefQualified ref s
  | .refHoldSpecExpiry => Sys2Proof.Machine.execRefHoldSpecExpiry s
  | .holdOscActivityLoss => Sys2Proof.Machine.execHoldOscActivityLoss s
  | .refPhaseStep => Sys2Proof.Machine.execRefPhaseStep s
  | .refPhaseForce => Sys2Proof.Machine.execRefPhaseForce s
  | .syspllLossOfLock pll => Sys2Proof.Machine.execSyspllLossOfLock pll s
  | .syspllHotLeafReady pll => Sys2Proof.Machine.execSyspllHotLeafReady pll s
  | .syspllSelect => Sys2Proof.Machine.execSyspllSelect s
  | .medsynLockDeclared syn band drops => Sys2Proof.Machine.execMedsynLockDeclared syn band drops s
  | .medsynLossOfLock syn drops => Sys2Proof.Machine.execMedsynLossOfLock syn drops s
  | .hopTimeout syn drops => Sys2Proof.Machine.execHopTimeout syn drops s
  | .rampStart => Sys2Proof.Machine.execRampStart s
  | .rampSegmentEnd ramp => Sys2Proof.Machine.execRampSegmentEnd ramp s
  | .medsynOffset => Sys2Proof.Machine.execMedsynOffset s
  | .clkSyncArm => Sys2Proof.Machine.execClkSyncArm s
  | .syncEdge falling quarter held wrong => Sys2Proof.Machine.execSyncEdge falling quarter held wrong s
  | .heartbeat beat good offset lanes => Sys2Proof.Machine.execHeartbeat beat good offset lanes s
  | .heartbeatLoss => Sys2Proof.Machine.execHeartbeatLoss s
  | .unrusRetransmit => Sys2Proof.Machine.execUnrusRetransmit s
  | .unrusLaneFailure lane => Sys2Proof.Machine.execUnrusLaneFailure lane s
  | .mirrorWrite frame gen tick val => Sys2Proof.Machine.execMirrorWrite frame gen tick val s
  | .mirrorStage frame tick set slot changes => Sys2Proof.Machine.execMirrorStage frame tick set slot changes s
  | .mirrorSetEnd frame tick set reason id => Sys2Proof.Machine.execMirrorSetEnd frame tick set reason id s
  | .mirrorCommit frame tick id set land => Sys2Proof.Machine.execMirrorCommit frame tick id set land s
  | .mirrorCommitEnd frame tick id code => Sys2Proof.Machine.execMirrorCommitEnd frame tick id code s
  | .mirrorXpStep frame tick xp sample event cur => Sys2Proof.Machine.execMirrorXpStep frame tick xp sample event cur s
  | .mirrorGr frame tick place base words => Sys2Proof.Machine.execMirrorGr frame tick place base words s
  | .mirrorPlaceCrc frame tick crcs => Sys2Proof.Machine.execMirrorPlaceCrc frame tick crcs s
  | .mirrorDomain frame gen tick index sub len hash => Sys2Proof.Machine.execMirrorDomain frame gen tick index sub len hash s
  | .bulk frame part => Sys2Proof.Machine.execBulk frame part s
  | .digest frame gen hash => Sys2Proof.Machine.execDigest frame gen hash s
  | .auditTimer => Sys2Proof.Machine.execAuditTimer s
  | .take => Sys2Proof.Machine.execTake s
  | .join => Sys2Proof.Machine.execJoin s
  | .isolate => Sys2Proof.Machine.execIsolate s
  | .swap => Sys2Proof.Machine.execSwap s
  | .audit => Sys2Proof.Machine.execAudit s
  | .doorTakeover => Sys2Proof.Machine.execDoorTakeover s
  | .takeoverEnginesRun => Sys2Proof.Machine.execTakeoverEnginesRun s
  | .witnessClaim => Sys2Proof.Machine.execWitnessClaim s
  | .witnessHold => Sys2Proof.Machine.execWitnessHold s
  | .grant msg => Sys2Proof.Machine.execGrant msg s
  | .deny msg => Sys2Proof.Machine.execDeny msg s
  | .keep msg => Sys2Proof.Machine.execKeep msg s
  | .yield msg => Sys2Proof.Machine.execYield msg s
  | .witnessTimeout nonce => Sys2Proof.Machine.execWitnessTimeout nonce s
  | .foreignCopy port mac dst dport took => Sys2Proof.Machine.execForeignCopy port mac dst dport took s
  | .pairYield => Sys2Proof.Machine.execPairYield s
  | .swapSnapshot snap place base words => Sys2Proof.Machine.execSwapSnapshot snap place base words s
  | .swapTickPass => Sys2Proof.Machine.execSwapTickPass s
  | .swapOutHoldEnd => Sys2Proof.Machine.execSwapOutHoldEnd s
  | .swapIntervalExpiry => Sys2Proof.Machine.execSwapIntervalExpiry s
  | .fabricTransaction tx => Sys2Proof.Machine.execFabricTransaction tx s
  | .masterReset master granted => Sys2Proof.Machine.execMasterReset master granted s
  | .remap value => Sys2Proof.Machine.execRemap value s
  | .lock => Sys2Proof.Machine.execLock s
  | .bankScrubRead bank ecc hit => Sys2Proof.Machine.execBankScrubRead bank ecc hit s
  | .delayStream place second reads => Sys2Proof.Machine.execDelayStream place second reads s
  | .agingMonitorRead engines lanes temp => Sys2Proof.Machine.execAgingMonitorRead engines lanes temp s
  | .movePrepared => Sys2Proof.Machine.execMovePrepared s
  | .moveCopy reads => Sys2Proof.Machine.execMoveCopy reads s
  | .moveCutover => Sys2Proof.Machine.execMoveCutover s
  | .coldMoveFlip => Sys2Proof.Machine.execColdMoveFlip s
  | .quietMoveFlip => Sys2Proof.Machine.execQuietMoveFlip s
  | .migrate => Sys2Proof.Machine.execMigrate s
  | .retire => Sys2Proof.Machine.execRetire s
  | .test => Sys2Proof.Machine.execTest s
  | .restore => Sys2Proof.Machine.execRestore s
  | .clearPll => Sys2Proof.Machine.execClearPll s
  | .leafTestTimer => Sys2Proof.Machine.execLeafTestTimer s
  | .leafTestDone eng pass slack => Sys2Proof.Machine.execLeafTestDone eng pass slack s
  | .laneRetire lane residue => Sys2Proof.Machine.execLaneRetire lane residue s
  | .rowRepairSwitch memory row bad counted => Sys2Proof.Machine.execRowRepairSwitch memory row bad counted s
  | .repairFuseWrite => Sys2Proof.Machine.execRepairFuseWrite s
  | .unrusLaneRestore lane => Sys2Proof.Machine.execUnrusLaneRestore lane s
  | .sePmuCntLo eng k value => Sys2Proof.Machine.execSePmuCntLo eng k value s
  | .sePmuCntHi eng k value => Sys2Proof.Machine.execSePmuCntHi eng k value s
  | .pmuEngOvfClr => Sys2Proof.Machine.execPmuEngOvfClr s
  | .pmuOvfClr => Sys2Proof.Machine.execPmuOvfClr s
  | .secLcAdvance => Sys2Proof.Machine.execSecLcAdvance s
  | .lcAdvanceDone => Sys2Proof.Machine.execLcAdvanceDone s
  | .tamperAsserted raw => Sys2Proof.Machine.execTamperAsserted raw s
  | .secTamperClr => Sys2Proof.Machine.execSecTamperClr s
  | .secDbgChallenge jtag => Sys2Proof.Machine.execSecDbgChallenge jtag s
  | .secDbgResponse jtag => Sys2Proof.Machine.execSecDbgResponse jtag s
  | .debugGrantExpiry => Sys2Proof.Machine.execDebugGrantExpiry s
  | .secDbgEnd => Sys2Proof.Machine.execSecDbgEnd s
  | .secImgPubkey => Sys2Proof.Machine.execSecImgPubkey s
  | .secImgKeyHash => Sys2Proof.Machine.execSecImgKeyHash s
  | .sealedCopyWrite => Sys2Proof.Machine.execSealedCopyWrite s
  | .cueChecksDone ch code => Sys2Proof.Machine.execCueChecksDone ch code s
  | .cueLatch ch => Sys2Proof.Machine.execCueLatch ch s
  | .cueRetry ch => Sys2Proof.Machine.execCueRetry ch s
  | .cueRetryCountReset ch => Sys2Proof.Machine.execCueRetryCountReset ch s
  | .cueOpenLoop ch => Sys2Proof.Machine.execCueOpenLoop ch s
  | .sillReport ch mag phase fosc temp bst pvdd => Sys2Proof.Machine.execSillReport ch mag phase fosc temp bst pvdd s
  | .cueSupplyFault boost => Sys2Proof.Machine.execCueSupplyFault boost s
  | .cueSupplyReturn => Sys2Proof.Machine.execCueSupplyReturn s
  | .cueThermalFault ch => Sys2Proof.Machine.execCueThermalFault ch s
  | .cueThermalReturn ch => Sys2Proof.Machine.execCueThermalReturn ch s
  | .cueFadeEnd ch => Sys2Proof.Machine.execCueFadeEnd ch s
  | .clear => Sys2Proof.Machine.execClear s
  | .recheck => Sys2Proof.Machine.execRecheck s
  | .poresetAssert => Sys2Proof.Machine.execPoresetAssert s
  | .poresetRelease up => Sys2Proof.Machine.execPoresetRelease up s
  | .sysresetN => Sys2Proof.Machine.execSysresetN s
  | .supplyMonitorReset => Sys2Proof.Machine.execSupplyMonitorReset s
  | .watchdogReset => Sys2Proof.Machine.execWatchdogReset s
  | .lockstepReset => Sys2Proof.Machine.execLockstepReset s
  | .jtagReset => Sys2Proof.Machine.execJtagReset s
  | .bootReset => Sys2Proof.Machine.execBootReset s
  | .bootResetAnyRole => Sys2Proof.Machine.execBootResetAnyRole s
  | .hpBootDescriptor => Sys2Proof.Machine.execHpBootDescriptor s
  | .bootFwImage => Sys2Proof.Machine.execBootFwImage s
  | .quietEnter => Sys2Proof.Machine.execQuietEnter s
  | .quietLeave => Sys2Proof.Machine.execQuietLeave s
  | .txFollowerClockReturn port => Sys2Proof.Machine.execTxFollowerClockReturn port s
  | .holdOscReturn => Sys2Proof.Machine.execHoldOscReturn s
  | .syncHoldOffEnd => Sys2Proof.Machine.execSyncHoldOffEnd s
  | .mirrorDigestComplete => Sys2Proof.Machine.execMirrorDigestComplete s
  | .bootFwFlashWriteDone good => Sys2Proof.Machine.execBootFwFlashWriteDone good s
  | .jtagDebugHalt target => Sys2Proof.Machine.execJtagDebugHalt target s

end Sys2Proof.Machine
end

