-- ==== Sys2Proof/Safety.lean ====
section
/-! DEFINITION. What a safe run is, in the terms the statements use: the canonical form of the stores, what a command
may do to the queue and to what has left the block, and the conditions under which an engine issues a slot. -/

namespace Sys2Proof.Machine

/-- A step answers a next state. -/
def Steps (s : State) : Prop := ∃ t, step s = .next t

/-- The canonical form of the fabric memory: addresses strictly rising, and no byte 0 listed. -/
def Memory.wf (m : Map Byte) : Bool := mapWf (fun _ => 0) m

/-- The fabric memory, the object dictionary and its copy of the last tick have their canonical form. -/
def State.canonical (s : State) : Bool :=
  Memory.wf s.fab.mem && mapWf objDefault s.dict && mapWf objDefault s.snap

/-- The engine as a slot finds it: the all-NOP bundles before it have issued, and its bundle is open and fetched. -/
def slotFinds (s : State) (is : Issue) : Engine := (startBundle is (s.engine is.eng)).1

/-- A slot can be issued: its engine is RUNNING and not stalled, no fetch that it waits for meets an uncorrectable error,
and where it is the last of its bundle, no load of the bundle before it has met one (R57, R87). -/
structure SlotReady (s : State) (is : Issue) : Prop where
  issues : canIssue (s.engine is.eng) = true
  fetched : (startBundle is (s.engine is.eng)).2.2 = false
  loaded : is.last = true → (slotFinds s is).cur.bad = false

/-- The engine after a slot: the last slot of a bundle ends its cycle, and the words that its loads corrected await their
write-back (R57). -/
def slotLeaves (is : Issue) (e : Engine) : Engine := if is.last then (closeBundle e).1 else e

/-- An engine with further results in flight and further events of the bundle being issued. -/
def flying (e : Engine) (ls : List Landing) (evs : List (Nat × Nat)) : Engine :=
  { e with flight := e.flight ++ ls, events := e.events ++ evs }

/-- A result of the bundle being issued, landing `d` cycles after its issue cycle. -/
def result (e : Engine) (d slot : Nat) (eff : Eff) : Landing := { due := e.cyc + d, seq := e.seq, slot := slot, eff := eff }

/-- Registers that the issue of a slot may change: the event log, ENG_FLAGS, ENG_ECC_CE and RSV_ENG_CE. -/
def slotIx (ix : Nat) : Bool :=
  ix == Ix.ctlLogHead || ix == Ix.ctlLogCode || ix == Ix.ctlLogTick || ix == Ix.ctlLogDetail || ix == Ix.ctlLogRepeat ||
    ix == Ix.engFlags || ix == Ix.engEccCe || ix == Ix.rsvEngCe

/-- What the issue of a slot on engine `n` leaves as it was: every other engine, every byte of the fabric memory, every
register but those of `slotIx`, and every other part of the block but the event log, the count of corrected errors and
the delay lines that DONE makes due. -/
structure SlotFrame (s t : State) (n : Fin 16) : Prop where
  engines : ∀ m, m ≠ n → t.engine m = s.engine m
  mem : ∀ a, memByte t a = memByte s a
  regs : ∀ ix sub, slotIx ix = false → t.obj ix sub = s.obj ix sub
  rest : t.snap = s.snap ∧ t.writes = s.writes ∧ t.clk = s.clk ∧ t.lat = s.lat ∧ t.bench = s.bench ∧ t.shut = s.shut ∧
    t.port = s.port ∧ t.net = s.net ∧ t.tim = s.tim ∧ t.ref = s.ref ∧ t.syn = s.syn ∧ t.pair = s.pair ∧ t.sec = s.sec ∧
    t.boot = s.boot ∧ t.cue = s.cue ∧ t.out = s.out

/-- The command is carried out as a slot of engine `is.eng` that leaves the engine as `e`, and the rest as it was. -/
def SlotDoes (i : Instr) (is : Issue) (s : State) (e : Engine) : Prop :=
  ∃ t, exec i s = .next t ∧ t.engine is.eng = slotLeaves is e ∧ SlotFrame s t is.eng

/-- The operation at the head of the frame in service, with the operations that follow it (R189, R190). -/
structure InService (s : State) (v : Serving) (code : Nat) (op : Op) (rest : List (Nat × Op)) : Prop where
  runs : hkRuns s = true
  serving : s.ctl.serving = some v
  ops : v.ops = (code, op) :: rest

/-- The frame in service once its head has been carried out with result data `data`, more operations following. -/
def answered (s : State) (v : Serving) (code : Nat) (rest : List (Nat × Op)) (data : List Byte) : State :=
  let r : OpResult := { op := code, status := 0, data := data }
  { s with ctl := { s.ctl with serving := some { v with results := v.results ++ [r], ops := rest } } }

/-- The result fits the reply, with room for a cut result where operations follow (R191). -/
def fitsReply (s : State) (v : Serving) (code : Nat) (rest : List (Nat × Op)) (data : List Byte) : Prop :=
  replyLen s v { op := code, status := 0, data := data } + (if rest.isEmpty then 0 else 12) ≤ 1472

/-- The frame in service is one WRITE of the value `x` to one object instance, every check of R186, R187, R191 and R326
passes, and the result fits the reply. -/
structure LastWrite (s : State) (v : Serving) (op : Op) (r : ObjRow) (x : Val) : Prop where
  served : InService s v Oc.write op []
  alone : v.accepts = [] ∧ v.closing = false
  row : objRow op.index = some r
  form : op.count = 1 ∧ r.subs.has op.sub = true ∧ op.ty = r.ty.code ∧ r.ty ≠ .domain
  value : r.ty.takeMany 1 op.data = some [x]
  gate : r.acc.writable = true ∧ writePriv r.ix r.acc.keyed ≤ privOf s v ∧ (r.acc.keyed = true → v.keyed = true) ∧
    notActive s r.ix = false
  check : valueCheck s (afterWrites s v) true r op.sub x = 0
  slots : slotsCode s [(r.ix, op.sub, x.toNat)] = 0
  fits : fitsReply s v Oc.write [] []

/-- The registers whose writes have a command of their own and land later, by command: index, and the value where the
command is one value of a register. -/
def writeRows : List (Instr × Nat × Option Nat) :=
  [(.run, Ix.engCtl, some 1), (.stop, Ix.engCtl, some 0), (.restart, Ix.engCtl, some 2), (.houseRate, Ix.houseRate, none),
   (.ticklen, Ix.ticklen, none), (.ctlLogAck, Ix.ctlLogAck, none), (.ctlCredPriv, Ix.ctlCredPriv, none),
   (.timeRestep, Ix.timeRestep, none), (.timeSet, Ix.timeSet, none), (.refPhaseStep, Ix.refPhaseStep, none),
   (.refPhaseForce, Ix.refPhaseForce, none), (.syspllSelect, Ix.syspllSelect, none), (.medsynOffset, Ix.medsynOffset, none)] ++
  [(.take, Ix.pairCmd, some 1), (.join, Ix.pairCmd, some 2), (.isolate, Ix.pairCmd, some 3), (.swap, Ix.pairCmd, some 4),
   (.audit, Ix.pairCmd, some 5), (.migrate, Ix.rsvCmd, some 1), (.retire, Ix.rsvCmd, some 2), (.test, Ix.rsvCmd, some 3),
   (.restore, Ix.rsvCmd, some 4), (.clearPll, Ix.rsvCmd, some 5), (.secLcAdvance, Ix.secLcAdvance, none),
   (.secTamperClr, Ix.secTamperClr, none), (.secDbgEnd, Ix.secDbgEnd, none), (.secImgPubkey, Ix.secImgPubkey, none),
   (.secImgKeyHash, Ix.secImgKeyHash, none), (.quietLeave, Ix.quietMode, some 0), (.quietEnter, Ix.quietMode, some 1)]

/-- The registers of a load, from an address on, lowest first (R54). -/
def loadResults (e : Engine) (side : Side) : Nat → List (BitVec 7) → List Landing
  | _, [] => []
  | addr, c :: t => result e 1 (sideSlot side) (.reg c (memWord e side addr)) :: loadResults e side (addr + 1) t

/-- The words of a store, from an address on, lowest first (R54). -/
def storeResults (e : Engine) (side : Side) : Nat → List Word → List Landing
  | _, [] => []
  | addr, w :: t => result e 0 (sideSlot side) (.mem (side == .y) addr w) :: storeResults e side (addr + 1) t

/-- What an address form does beside giving the address: post-modification and CV (R76). -/
def addressResults (e : Engine) (side : Side) (n : Fin 8) (post : Option Half) (cv : Bool) : List Landing :=
  (match post with
    | some v => [result e 0 (sideSlot side) (.post n v)]
    | none => []) ++ if cv then [result e 0 (sideSlot side) (.sticky false false true)] else []

/-- The results of an ALU operation: the destination where there is one, N and Z of the result, C and V where given, SV
where it saturates (R64, R72). -/
def aluResults (e : Engine) (z : Option (Fin 16)) (r : Word) (cv : Option (Bool × Bool)) (sv : Bool) : List Landing :=
  (match z with
    | some d => [result e 0 3 (.reg (dCode d) r)]
    | none => []) ++ result e 0 3 (.flags r.msb (r == 0) cv) :: if sv then [result e 0 3 (.sticky false true false)] else []

end Sys2Proof.Machine
end

