-- ==== Sys2Proof/Certificates/Slice0/Obligations.lean ====
section
/-! DEFINITION. The statements about the block, for the provers. -/

open Sys2Proof Sys2Proof.Machine

/-! ## The engines -/

/-- MAC forms (R67 to R71): exact products of data registers, on their way to the accumulators they name, two cycles after
issue; in MAC1 where the bundle holds no complex form, and the bundle then has a form of MAC1 (R86). The reading of log
entry 12 is the model's. -/
def Obligations.MacFormsLaunchTheirProducts : Prop :=
  ∀ (s : State) (is : Issue) (lane : Lane) (a b : Fin 4) (x y u v : Fin 16), SlotReady s is →
    (lane = .mac1 → (slotFinds s is).cur.complex = false) →
    let e := if lane = .mac1 then { slotFinds s is with cur := { (slotFinds s is).cur with mac1 := true } } else slotFinds s is
    let p (i j : Fin 16) : Int := (e.rf.getD i).toInt * (e.rf.getD j).toInt
    let one (op : MacOp) : Engine := flying e [result e 2 (laneSlot lane) (.macc a op (p x y))] [(0x05, 1), (0x06, 1)]
    let two (op : MacOp) : Engine :=
      if a = b then flying e [result e 2 (laneSlot lane) (.macc a op (p x y + p u v))] [(0x05, 2), (0x06, 1)]
      else flying e [result e 2 (laneSlot lane) (.macc a op (p x y)), result e 2 (laneSlot lane) (.macc b op (p u v))]
        [(0x05, 2), (0x06, 1)]
    let sum (op : MacOp) : Engine :=
      flying e [result e 2 (laneSlot lane) (.macc a op (p x y + p u v))] [(0x05, 2), (0x06, 1)]
    SlotDoes (.mpy is lane a x y) is s (one .load) ∧ SlotDoes (.mac is lane a x y) is s (one .add) ∧
    SlotDoes (.msu is lane a x y) is s (one .sub) ∧
    SlotDoes (.mpy2 is lane a b x y u v) is s (two .load) ∧ SlotDoes (.mac2 is lane a b x y u v) is s (two .add) ∧
    SlotDoes (.msu2 is lane a b x y u v) is s (two .sub) ∧
    SlotDoes (.dpy2 is lane a x y u v) is s (sum .load) ∧ SlotDoes (.dot2 is lane a x y u v) is s (sum .add) ∧
    SlotDoes (.dsu2 is lane a x y u v) is s (sum .sub)

/-- Complex forms (R70): the four products of each part summed exactly; where no form of MAC1 has issued in the bundle,
which from then on takes none (R86). -/
def Obligations.ComplexFormsLaunchTheirSums : Prop :=
  ∀ (s : State) (is : Issue) (p : Fin 2) (x y : Fin 8), SlotReady s is → (slotFinds s is).cur.mac1 = false →
    let e := { slotFinds s is with cur := { (slotFinds s is).cur with complex := true } }
    let d (k : Nat) : Int := (e.rf.getD (Fin.ofNat 16 k)).toInt
    let re (k : Fin 8) : Int := d (2 * k.val)
    let im (k : Fin 8) : Int := d (2 * k.val + 1)
    let does (op : MacOp) (r i : Int) : Engine :=
      flying e [result e 2 0 (.macc (Fin.ofNat 4 (2 * p.val)) op r), result e 2 1 (.macc (Fin.ofNat 4 (2 * p.val + 1)) op i)]
        [(0x05, 4), (0x06, 1)]
    SlotDoes (.cmpy is p x y) is s (does .load (re x * re y - im x * im y) (re x * im y + im x * re y)) ∧
    SlotDoes (.cmac is p x y) is s (does .add (re x * re y - im x * im y) (re x * im y + im x * re y)) ∧
    SlotDoes (.cmpyj is p x y) is s (does .load (re x * re y + im x * im y) (im x * re y - re x * im y)) ∧
    SlotDoes (.cmacj is p x y) is s (does .add (re x * re y + im x * im y) (im x * re y - re x * im y))

/-- Loads and stores, moves and immediates (R54, R55, R57, R61, R73, R76, R84, R88). The words of a load that were corrected
await their write-back, and an uncorrectable one halts the engine at the last slot of the bundle, which is the matter of
another statement. The reading of log entry 8 is the model's. -/
def Obligations.MovesLaunchTheirResults : Prop :=
  ∀ (s : State) (is : Issue) (side : Side) (form : AForm) (n : Fin 8) (reg : MoveReg) (ecc : LineEcc) (a : Fin 4)
    (src dst : BitVec 7) (high : Bool) (imm : Half), SlotReady s is →
    let e := slotFinds s is
    let k : Nat := moveWords reg
    let (ea, post, cv) := address e.rf form n k
    let (ea1, post1, cv1) := address e.rf form n 1
    let addr := alignAddr ea k
    let ev := if side = .x then 0x07 else 0x08
    let w := window (e.rf.getAcc a).toInt e.rf.shift.toNat
    let old := readCode e.rf e.loops.length dst
    let fixed : List (Nat × Nat) := (lineFixed k ecc).map (fun i => ((if side = .x then 1 else 2 : Nat), addr + i))
    let ldEng : Engine := flying (touch side addr e) (loadResults e side addr (moveCodes reg) ++ addressResults e side n post cv) [(ev, 1)]
    (is.last = false ∨ lineBad k ecc = false → SlotDoes (.ld is side form n reg ecc) is s
      { ldEng with cur := { e.cur with fixed := e.cur.fixed ++ fixed, bad := e.cur.bad || lineBad k ecc } }) ∧
    SlotDoes (.st is side form n reg) is s
      (flying (touch side addr e) (storeResults e side addr ((moveCodes reg).map (readCode e.rf e.loops.length)) ++ addressResults e side n post cv)
        [(ev, 1)]) ∧
    SlotDoes (.sta is side form n a) is s
      (flying (touch side ea1.toNat e) (storeResults e side ea1.toNat [w.1] ++ addressResults e side n post1 cv1 ++
        if w.2 then [result e 0 (sideSlot side) (.sticky false true false)] else []) [(ev, 1)]) ∧
    SlotDoes (.mov is side src dst) is s
      (flying e [result e 0 (sideSlot side) (.reg dst (readCode e.rf e.loops.length src))] []) ∧
    SlotDoes (.ldi is side dst high imm) is s
      (if high = true ∧ dst = 0x3C then e
        else flying e [result e 0 (sideSlot side) (.reg dst (if high then imm ++ old.extractLsb' 0 16 else imm.signExtend 32))] [])

/-- LDL and STL (R84, R88, R104): LDL reads the register at issue and its word lands as that of a load does, what the read
latches being latched at the end of the issue cycle; STL writes the register at the end of the issue cycle. The reading of
log entry 13 is the model's. -/
def Obligations.LocalAccessesReachTheRegisters : Prop :=
  ∀ (s : State) (is : Issue) (c : BitVec 7) (off : BitVec 13), SlotReady s is →
    let e := slotFinds s is
    let r := localRead (tickView s e) .engine (4 * off.toNat) e
    SlotDoes (.ldl is c off) is s
      (flying e (result e 1 2 (.reg c r.1) :: (match latchOf (4 * off.toNat) r.2 with
        | some v => [result e 0 2 (.latch (4 * off.toNat) v)]
        | none => [])) []) ∧
    SlotDoes (.stl is c off) is s
      (flying e [result e 0 2 (.loc (4 * off.toNat) (readCode e.rf e.loops.length c))] [])

/-- ALU operations (R64, R72). -/
def Obligations.AluOperationsGiveResultsAndFlags : Prop :=
  ∀ (s : State) (is : Issue) (z x : Fin 16) (src : AluSrc) (sh : ShiftSrc), SlotReady s is →
    let e := slotFinds s is
    let a : Word := e.rf.getD x
    let b : Word := aluValue src e.rf
    let n : Nat := shiftValue sh e.rf
    let wraps (r : Word) (c v : Bool) : Engine := flying e (aluResults e (some z) r (some (c, v)) false) []
    let plain (r : Word) : Engine := flying e (aluResults e (some z) r none false) []
    let sat (r : Int) : Engine := flying e (aluResults e (some z) (sat32 r).1 none (sat32 r).2) []
    let sub : List Landing → Engine := fun l => flying e l []
    SlotDoes (.add is z x src) is s
      (wraps (a + b) (decide (2 ^ 32 ≤ a.toNat + b.toNat)) ((a + b).toInt != a.toInt + b.toInt)) ∧
    SlotDoes (.sub is z x src) is s (wraps (a - b) (decide (b.toNat ≤ a.toNat)) ((a - b).toInt != a.toInt - b.toInt)) ∧
    SlotDoes (.cmp is x src) is s
      (sub (aluResults e none (a - b) (some (decide (b.toNat ≤ a.toNat), (a - b).toInt != a.toInt - b.toInt)) false)) ∧
    SlotDoes (.adds is z x src) is s (sat (a.toInt + b.toInt)) ∧ SlotDoes (.subs is z x src) is s (sat (a.toInt - b.toInt)) ∧
    SlotDoes (.absOp is z x) is s (sat a.toInt.natAbs) ∧ SlotDoes (.negOp is z x) is s (sat (-a.toInt)) ∧
    SlotDoes (.andOp is z x src) is s (plain (a &&& b)) ∧ SlotDoes (.orOp is z x src) is s (plain (a ||| b)) ∧
    SlotDoes (.xorOp is z x src) is s (plain (a ^^^ b)) ∧ SlotDoes (.notOp is z x) is s (plain (~~~a)) ∧
    SlotDoes (.asr is z x sh) is s (plain (a.sshiftRight n)) ∧ SlotDoes (.lsr is z x sh) is s (plain (a >>> n)) ∧
    SlotDoes (.lsl is z x sh) is s (plain (a <<< n)) ∧
    SlotDoes (.minOp is z x src) is s (plain (if a.toInt ≤ b.toInt then a else b)) ∧
    SlotDoes (.maxOp is z x src) is s (plain (if a.toInt ≤ b.toInt then b else a))

/-- Accumulator operations (R67, R68, R71 to R73): each gives its exact result clamped once, and the landing of an accumulate
whose cycle has come adds exactly, clamps once and sets AV where it clamps. The reading of log entry 12 is the model's. -/
def Obligations.AccumulatorOperationsClampTheirResults : Prop :=
  (∀ (s : State) (is : Issue) (a b : Fin 4) (x z : Fin 16) (n : BitVec 7), SlotReady s is →
     let e := slotFinds s is
     let v (k : Fin 4) : Int := (e.rf.getAcc k).toInt
     let acc (r : Int) : Engine := flying e [result e 0 3 (.acc a (clampAcc r).1 (clampAcc r).2)] []
     let w := window (v a) e.rf.shift.toNat
     SlotDoes (.clr is a) is s (acc 0) ∧ SlotDoes (.adda is a b) is s (acc (v a + v b)) ∧
     SlotDoes (.ldacc is a x) is s (acc ((e.rf.getD x).toInt * 2 ^ e.rf.shift.toNat)) ∧
     (-40 ≤ n.toInt → n.toInt ≤ 40 →
       SlotDoes (.ash is a n) is s
         (acc (if 0 ≤ n.toInt then v a * 2 ^ n.toInt.toNat else v a / 2 ^ (-n.toInt).toNat))) ∧
     SlotDoes (.movw is z a) is s
       (flying e (result e 0 3 (.reg (dCode z) w.1) :: if w.2 then [result e 0 3 (.sticky false true false)] else []) [])) ∧
  (∀ (e : Engine) (l : Landing) (a : Fin 4) (c : Int), e.flight = [l] → l.due ≤ e.cyc → l.eff = .macc a .add c →
     let r : Int := (e.rf.getAcc a).toInt + c
     let f : RegFile := (landCycle e).1.rf
     (2 ^ 71 - 1 < r → (f.getAcc a).toInt = 2 ^ 71 - 1 ∧ f.av = true) ∧
     (r < -(2 ^ 71) → (f.getAcc a).toInt = -(2 ^ 71) ∧ f.av = true) ∧
     (-(2 ^ 71) ≤ r → r ≤ 2 ^ 71 - 1 → (f.getAcc a).toInt = r ∧ f.av = e.rf.av))

/-- Branches, calls and returns (R91, R92, R97) where they are legal: the target waits for the delay slots, CALL pushes the
bundle after them, RET pops. The reading of log entry 8 is the model's. -/
def Obligations.FlowOperationsSetTheirTarget : Prop :=
  ∀ (s : State) (is : Issue) (cond : Cond) (target : BitVec 13) (x : Fin 16), SlotReady s is →
    let e := slotFinds s is
    let take (t : BitVec 13) : Engine := { flying e [] [(0x09, 1)] with flow := some (.branch (some t) false) }
    flowIllegal e = false →
    SlotDoes (.bra is target) is s (take target) ∧
    SlotDoes (.bcc is cond target) is s
      (if condHolds e.rf cond then take target else { e with flow := some (.branch none false) }) ∧
    SlotDoes (.braDx is x) is s (take ((e.rf.getD x).setWidth 13)) ∧
    (e.calls.length < 8 → SlotDoes (.call is target) is s { take target with calls := (e.lastPc + 4) :: e.calls }) ∧
    (∀ t rest, e.calls = t :: rest → SlotDoes (.ret is) is s { take t with calls := rest }) ∧
    SlotDoes (.rti is) is s { flying e [] [(0x09, 1)] with flow := some (.branch none true) }

/-- REP, DO and ENDL (R91, R93 to R95) where they are legal, the count of a register being its low 16 bits; a REP is legal
in a delay slot where the bundle it repeats is one too. The reading of log
entry 13 is the model's. -/
def Obligations.LoopOperationsSetTheirLoop : Prop :=
  ∀ (s : State) (is : Issue) (k : Half) (k11 : BitVec 11) (fin : BitVec 13) (x : Fin 16), SlotReady s is →
    let e := slotFinds s is
    let dx : Nat := (e.rf.getD x).toNat % 65536
    let flow (f : FlowOp) : Engine := { e with flow := some f }
    e.rep = 0 →
    (atLe e e.lastPc = false → (∀ b, e.branch = some b → 1 < b.left) →
      SlotDoes (.repImm is k) is s (flow (.rep k.toNat)) ∧ SlotDoes (.repDx is x) is s (flow (.rep dx))) ∧
    (e.branch = none → atLe e e.lastPc = false → e.loops.length < 4 → (e.lastPc + 1).toNat + 1 ≤ fin.toNat →
      (e.loops ≠ [] → fin.toNat < e.rf.le.toNat) →
      SlotDoes (.doImm is k11 fin) is s (flow (.doLoop k11.toNat fin)) ∧ SlotDoes (.doDx is x fin) is s (flow (.doLoop dx fin))) ∧
    (e.branch = none → e.loops ≠ [] → SlotDoes (.endl is) is s (flow .endl))

/-- Tick operations (R100, R103) where they are legal: WAITPHASE sets what its bundle waits for; DONE queues every valid slot
not yet posted and closes the section; POST queues its slot, or stalls on a full queue. The reading of log entry 14 is the
model's. -/
def Obligations.TickOperationsOpenAndCloseSections : Prop :=
  ∀ (s : State) (is : Issue) (second : Bool) (j : Byte) (x : Fin 16), SlotReady s is →
    let e := slotFinds s is
    let tv := tickView s e
    let ks : List Nat := (slotsOf e.loc.outMap (e.sec == 2)).filter (fun k => !e.posted.contains k)
    let q : List (Nat × Nat) := if e.sec = 1 then e.q1 else e.q2
    let posts (k : Nat) : Engine :=
      if e.posted.contains k then noteEvent 0x0F 1 e
      else if q.length < 32 then queueSlots tv [k] e
      else { noteEvent 0x0F 1 e with stalled := some k }
    e.branch = none → e.rep = 0 →
    (e.sec = 0 → SlotDoes (.waitphase is second) is s { e with flow := some (.wait second) }) ∧
    (e.sec ≠ 0 → SlotDoes (.doneOp is) is s
      { noteEvent 0x13 1 (queueSlots tv ks e) with flow := some (.done (e.sec == 2)), sec := 0 }) ∧
    (e.sec ≠ 0 → (slotsOf e.loc.outMap (e.sec == 2)).contains j.toNat = true → SlotDoes (.postImm is j) is s (posts j.toNat)) ∧
    (e.sec ≠ 0 → (slotsOf e.loc.outMap (e.sec == 2)).contains (e.rf.getD x).toNat = true →
      SlotDoes (.postDx is x) is s (posts (e.rf.getD x).toNat))

/-- What happens to an engine beside its slots: loops are left (R94), write-backs end (R57), retries delay the other port and count (R55, R394), waits
end (R100), stalled POSTs complete (R103), interrupts are taken (R97). The reading of log entry 14 is the model's. -/
def Obligations.EngineEventsMoveTheirEngine : Prop :=
  ∀ (s : State) (n : Fin 16),
    let e := s.engine n
    (∀ lc ls le rest, e.exitDue = true → e.loops = (lc, ls, le) :: rest →
      exec (.loopExit n) s = .next (s.setEngine n
        { e with exitDue := false, loops := rest, rf := { e.rf with lc := lc, ls := ls, le := le } })) ∧
    (∀ mem word, exec (.eccWriteback n mem word) s =
      .next (s.setEngine n { e with fix := e.fix.filter (fun f => f != (mem.val, word.toNat)) })) ∧
    (∀ (fabric : Bool) (k : Fin 4), ∃ t, exec (.subbankRetry n fabric) s = .next t ∧ SlotFrame s t n ∧
      (t.engine n).rf = e.rf ∧ (t.engine n).pc = e.pc ∧ (t.engine n).x = e.x ∧ (t.engine n).y = e.y ∧
      (t.engine n).flight = e.flight ∧
      (t.engine n).port = e.port.map (fun w => if w.fabric = fabric then { w with due := w.due + 1 } else w) ∧
      (t.engine n).loc.pmu.cnt[k.val] =
        if e.loc.pmu.en.getLsbD k.val ∧ (e.loc.pmu.evt[k.val]).toNat = (if fabric then 0x12 else 0x11)
        then e.loc.pmu.cnt[k.val] + 1 else e.loc.pmu.cnt[k.val]) ∧
    (∀ cycle stall b, waitReady s e cycle = true → copyHolds s n b cycle = false → e.flow = some (.wait b) → e.waitFor = (if b then 2 else 1) →
      e.branch = none → e.rep = 0 → e.loops = [] → e.rtiDue = false →
      ∃ t, exec (.waitphaseReturn n cycle stall) s = .next t ∧ (t.engine n).run = .running ∧ (t.engine n).sec = e.waitFor ∧
        (t.engine n).waitFor = 0 ∧ (t.engine n).posted = [] ∧ (t.engine n).lastPc = e.pc ∧ (t.engine n).pc = e.pc + 1 ∧
        (if b then (t.engine n).ran2 else (t.engine n).ran1) = true ∧ (∀ m, m ≠ n → t.engine m = s.engine m) ∧
        ∀ a, memByte t a = memByte s a) ∧
    (∀ stall k, e.stalled = some k → e.run = .running → (e.sec = 1 ∨ e.sec = 2) →
      (if e.sec = 1 then e.q1 else e.q2).length < 32 →
      ∃ t, exec (.postStallEnd n stall) s = .next t ∧ SlotFrame s t n ∧ (t.engine n).stalled = none ∧
        (t.engine n).posted = e.posted ++ [k] ∧
        (t.engine n).q1 = (if e.sec = 1 then e.q1 ++ [(k, s.tag)] else e.q1) ∧
        (t.engine n).q2 = (if e.sec = 1 then e.q2 else e.q2 ++ [(k, s.tag)])) ∧
    (∀ v, irqVector e = some v → e.rf.ie = true → boundaryOpen e = true → e.flight = [] →
      ∃ t, exec (.interruptTaken n) s = .next t ∧ SlotFrame s t n ∧ (t.engine n).run = .running ∧ (t.engine n).pc = v ∧
        (t.engine n).loc.ira = e.pc ∧ (t.engine n).rf.ie = false ∧ (t.engine n).rf.d = e.rf.d ∧
        (t.engine n).rf.acc = e.rf.acc ∧
        (e.exitDue = false → (t.engine n).loc.isr = srWord e.rf e.loops.length ∧ (t.engine n).loops = e.loops))

/-- A fetch that cannot be corrected, an illegal bundle, a stack fault and a load that cannot be corrected, at the last slot of its bundle, halt the engine as
an overrun (R45, R57, R86, R92): under reserve policy 0, with no move in progress, its place stays on it. The readings of
log entries 8, 15 and 18 are the model's. -/
def Obligations.BadBundlesHaltTheEngine : Prop :=
  ∀ (s : State) (is : Issue) (bundle : BitVec 128) (side : Side) (form : AForm) (an : Fin 8) (reg : MoveReg)
    (ecc : LineEcc) (target : BitVec 13),
    let e := s.engine is.eng
    let halts (c : Instr) (fault : BitVec 5) : Prop :=
      ∃ t, exec c s = .next t ∧ (t.engine is.eng).run = .halted ∧ (t.engine is.eng).flight = [] ∧
        (t.engine is.eng).loc.fault = e.loc.fault ||| fault ∧ (t.engine is.eng).rf = e.rf ∧
        t.nat Ix.overrunCount is.eng.val = (s.nat Ix.overrunCount is.eng.val + 1) % 4294967296 ∧
        (∀ m, m ≠ is.eng → t.engine m = s.engine m) ∧ ∀ a, memByte t a = memByte s a
    canIssue e = true → s.rsv.move = none → s.nat Ix.rsvPolicy = 0 → is.nops = 0 → e.exitDue = false →
    (e.inBundle = false → lineBad 4 is.fetch = false → bundleLegal bundle = false → halts (.illegalBundle is bundle) 4) ∧
    (e.inBundle = false → lineBad 4 is.fetch = true → halts (.bra is target) 2) ∧
    (e.inBundle = true → is.last = true → lineBad (moveWords reg) ecc = true → halts (.ld is side form an reg ecc) 2) ∧
    (e.inBundle = true → e.calls.length = 8 → halts (.call is target) 12) ∧
    (e.inBundle = true → e.calls = [] → halts (.ret is) 12)

/-- The mailboxes and the SOFT interrupt (R105, R106), apart from a place that is being moved. The readings of log entries 85
and 93 are the model's. -/
def Obligations.MailboxCommandsMoveTheirMessages : Prop :=
  ∀ (s : State) (n : Fin 16) (port : LocalPort), s.rsv.move = none →
    let e := s.engine n
    let loc (l : EngLocal) : Engine := { e with loc := l }
    let may : Prop := match port with
      | .engine => canIssue e = true
      | .fabric => windowGated s n = false
    (∀ ws : List Word, e.loc.inValid = false → s.ctl.mailed.contains n.val = false →
      (∀ m ∈ s.ctl.mail, m.1 ≠ n.val) → 1 ≤ ws.length → ws.length ≤ 8 →
      ∃ t, exec (.mboxInMessage n ws) s = .next t ∧ (t.engine n).loc.inValid = true ∧
        (t.engine n).loc.inLen.toNat = ws.length ∧ t.ctl.mailed = s.ctl.mailed ++ [n.val] ∧
        (∀ i : Fin 8, i.val < ws.length → (t.engine n).loc.inMsg[i.val] = listGet 0 i.val ws) ∧
        t.dict = s.dict ∧ t.fab = s.fab ∧ t.out = s.out ∧ ∀ m, m ≠ n → t.engine m = s.engine m) ∧
    (∀ m, s.ctl.mail.find? (fun m => m.1 == n.val) = some m → e.loc.inValid = false →
      s.ctl.mailed.contains n.val = false → m.2.length = 3 →
      ∃ t, exec (.writeReply n) s = .next t ∧ (t.engine n).loc.inValid = true ∧ (t.engine n).loc.inLen = 3 ∧
        (∀ i : Fin 8, i.val < 3 → (t.engine n).loc.inMsg[i.val] = listGet 0 i.val m.2) ∧
        t.ctl.mail = s.ctl.mail.erase m ∧ t.dict = s.dict ∧ ∀ m, m ≠ n → t.engine m = s.engine m) ∧
    (may → exec (.mboxAck n port) s = .next (s.setEngine n (loc { e.loc with inValid := false }))) ∧
    (may → exec (.softIrqSet n port) s = .next (s.setEngine n (loc { e.loc with softPend := true }))) ∧
    (may → e.loc.outFull = false →
      exec (.mboxSend n port) s = .next (s.setEngine n (loc { e.loc with outFull := true }))) ∧
    (may → e.loc.outFull = true → e.loc.outDrops ≠ 0xFFFF →
      exec (.mboxSend n port) s = .next
        ((s.setEngine n (loc { e.loc with outDrop := true, outDrops := e.loc.outDrops + 1 })).alarm (Al.engMboxDrop.src n.val))) ∧
    (let ws : List Word := e.loc.outMsg.toList.take e.loc.outLen.toNat
     s.ctl.collected.contains n.val = false → e.loc.outFull = true →
      exec (.mboxOutCollect n) s = .next ({ s with ctl := { s.ctl with
        collected := s.ctl.collected ++ [n.val]
        inbox := s.ctl.inbox ++ if ws ≠ [] ∧ (msgOp ws = 1 ∨ msgOp ws = 2) then [(n.val, ws)] else [] } }.setEngine n
          (loc { e.loc with outFull := false }))) ∧
    (∀ ws, inboxOf s n 2 = some ws →
      exec (.mboxAlarm n) s = .next ({ s with ctl := { s.ctl with inbox := s.ctl.inbox.erase (n.val, ws) } }.alarm
        ⟨0x02, n.val, 0x8000 + (listGet 0 1 ws).toNat % 4096⟩)) ∧
    (∀ ws a, inboxOf s n 1 = some ws → hkRuns s = true → writeOnly a.ix = false →
      mailCheck { s with ctl := { s.ctl with inbox := s.ctl.inbox.erase (n.val, ws) } } (mailPriv e) ws = .ok a →
      ∃ t, exec (.mboxWrite n) s = .next t ∧ t.writes = s.writes ++ [
        { ix := a.ix, sub := a.sub, val := a.val, mbox := some (n.val, (listGet 0 0 ws).toNat / 65536 % 256),
          after := firstBoundary s a.ix, gen := none, priv := a.priv }] ∧
        t.ctl.inbox = s.ctl.inbox.erase (n.val, ws))

/-! ## The tick -/

/-- TICK_BOUNDARY, KEYED_RESTEP_TAKEN and SEQUENCER_RESTART (R34 to R38, R267): a new tick begins where the time base says,
the time base is set in place of a boundary, the sequencer runs again on the new grid. The readings of log entries 24, 30
and 52 are the model's. -/
def Obligations.BoundariesBeginTicks : Prop :=
  ∀ (s : State) (held : List Nat), s.boot.stage = 7 → s.syn.dead = false →
    let k := tickAt s s.tim.t + 1
    (s.clk.seq = .running → s.clk.restep = none → settle s = s → s.clk.lastRun < k →
      ∃ t, exec (.tickBoundary held) s = .next t ∧ t.clk.tick = k ∧ t.clk.lastRun = k ∧ t.clk.seq = .running ∧
        t.clk.closed = [] ∧ t.clk.late = false ∧ t.clk.sysCounter = s.clk.sysCounter + cyclesTo s k) ∧
    (s.clk.seq = .idle → s.clk.restep = none → k ≤ s.clk.lastRun → s.clk.rateNext = none → s.clk.lenNext = none →
      ∃ t, exec (.tickBoundary held) s = .next t ∧ t.clk.tick = k ∧ t.clk.seq = .idle ∧ t.clk.lastRun = s.clk.lastRun ∧
        t.lat.seq = Fade.silent ∧ t.clk.closed = [] ∧ t.clk.late = false ∧
        t.clk.sysCounter = s.clk.sysCounter + cyclesTo s k) ∧
    (∀ b sec ns, (s.clk.seq = .running ∨ s.clk.seq = .idle) → s.clk.restep = some (b, some (sec, ns)) → b ≤ s.clk.tick + 1 →
      settle s = s →
      ∃ t, exec .keyedRestepTaken s = .next t ∧ t.clk.seq = .stepped ∧ t.clk.restep = none ∧
        t.tim.t = (sec * 1000000000 + ns) * nsUnit ∧ t.lat.seq = Fade.silent) ∧
    (∀ cycles, s.clk.seq = .stopped → s.syn.relock = false → s.clk.restep = none →
      let s1 := timePass s cycles
      let k1 := tickAt s1 s1.tim.t + 1
      ∃ t, exec (.sequencerRestart cycles) s = .next t ∧ t.clk.seq = .running ∧ t.clk.tick = k1 ∧ t.clk.lastRun = k1 ∧
        t.clk.fadeInAt = some (k1 + 1) ∧ t.clk.closed = [])

/-- The deadlines of the phases and the opening of P4 and P5, in a tick whose landings are made (R39, R40, R43 to R45, R118,
R172). The reading of log entry 22 is the model's. -/
def Obligations.DeadlinesCloseTheirPhase : Prop :=
  ∀ s : State, ticksRun s = true → settle s = s →
    let shut (k : Nat) : State := { s with clk := { s.clk with closed := s.clk.closed ++ [k] } }
    let open' (k : Nat) : Prop := s.clk.closed.contains k = false
    let late (c : Instr) (k : Nat) (second : Bool) : Prop :=
      ∃ t, exec c s = .next t ∧ t.clk.closed = s.clk.closed ++ [k] ∧ ∀ e,
        if runsSection (s.engine e) second && !sectionDone (s.engine e) second then
          (t.engine e).run = .halted ∧ (t.engine e).loc.fault = (s.engine e).loc.fault ||| 1 ∧
            t.nat Ix.overrunCount e.val = (s.nat Ix.overrunCount e.val + 1) % 4294967296
        else t.engine e = s.engine e
    let egress (c : Instr) (k cls : Nat) : Prop :=
      (unconverted s cls = [] → (cls = 0 → quietOuts s = []) → exec c s = .next (shut k)) ∧
      (unconverted s cls ≠ [] →
        ∃ t, exec c s = .next t ∧ t.clk.closed = s.clk.closed ++ [k] ∧ t.clk.lateEgress = true ∧
          t.nat Ix.overrunCount 0x11 = (if s.clk.lateEgress then s.nat Ix.overrunCount 0x11
            else (s.nat Ix.overrunCount 0x11 + 1) % 4294967296))
    (exec .phaseD2Open s = .next { s with clk := { s.clk with late := true } }) ∧
    (open' 0 → s.port.held = [] → exec .p0Deadline s = .next (shut 0)) ∧
    (open' 0 → s.port.held ≠ [] → exec .p0Deadline s =
      .next (({ shut 0 with port := { s.port with held := [] } }.addWrap
        Ix.overrunCount 0x12 1).alarm Al.ingressLate)) ∧
    (unitWorks s = true → open' 1 → egress .p1Deadline 1 1) ∧
    (unitWorks s = true → open' 5 → egress .p5Deadline 5 0) ∧
    (unitWorks s = true → s.rsv.move = none → s.nat Ix.rsvPolicy = 0 → open' 2 → late .p2Deadline 2 false) ∧
    (unitWorks s = true → s.rsv.move = none → s.nat Ix.rsvPolicy = 0 → open' 4 → late .p4Deadline 4 true) ∧
    (open' 3 → unitWorks s = true → s.bench.named.all (fun b => s.bench.written.contains b) = true → s.bench.satNow = [] →
      s.bench.ovfNow = [] → (∀ p ∈ s.shut.pend, p.tick ≠ s.clk.tick + 1) → s.shut.touched = [] →
      (∀ w ∈ s.writes, isParam w.ix = false) →
      exec .p3Deadline s = .next (shut 3))

/-- A commit is frozen, and its pages are prepared (R172, R178). The commits and direct writes of a boundary land (R162, R163,
R173 to R175, R183), here on objects of the Bench: every value enters the dictionary, one generation is taken, and the commit's result is reported. Sets without an owner expire
(R338). The reading of log entry 10 is the model's. -/
def Obligations.LandingsTakeTheirValues : Prop :=
  ∀ s : State,
    (∀ id : Word, ∃ t, exec (.commitFreeze id) s = .next t ∧
      t.shut.pend = s.shut.pend.map (fun p => if p.id = id.toNat ∧ p.tick ≤ s.clk.tick + 1 then { p with frozen := true } else p) ∧
      t.shut.sets = s.shut.sets ∧ t.dict = s.dict ∧ t.writes = s.writes ∧ t.clk = s.clk ∧ t.bench = s.bench ∧ t.lat = s.lat ∧
      (∀ a, memByte t a = memByte s a) ∧
      ∀ e, (t.engine e).rf = (s.engine e).rf ∧ (t.engine e).x = (s.engine e).x ∧ (t.engine e).run = (s.engine e).run) ∧
    (∀ t0, s.shut.unowned = some t0 → t0 ≤ s.clk.tick →
      ∃ t, exec .unownedSetExpiry s = .next t ∧ t.shut.unowned = none ∧ (∀ p ∈ t.shut.sets, p.2.session ≠ 0) ∧
        ∀ p ∈ s.shut.sets, p.2.session ≠ 0 → p.1 ∉ (s.shut.sets.filter (fun q => q.2.session == 0)).map (fun q => q.1) →
          p ∈ t.shut.sets) ∧
    (ticksRun s = true → s.clk.commitDue = true → ∀ p,
      s.shut.pend.find? (fun p => p.checked && p.tick == s.clk.tick) = some p → p.mirrored = false →
      (∀ c ∈ p.changes, 0x0400 ≤ c.ix ∧ c.ix ≤ 0x0406 ∧ c.sub < 16777216) →
      (p.changes.map (fun c => (c.ix, c.sub))).Nodup →
      ∃ t, exec .commitLanding s = .next t ∧ t.clk.commitDue = false ∧ (∀ c ∈ p.changes, t.obj c.ix c.sub = c.val) ∧
        t.shut.pend = s.shut.pend.filter (fun q => q.id != p.id) ∧
        t.nat Ix.shutGen = (s.nat Ix.shutGen + 1) % 4294967296 ∧ t.nat Ix.shutGenTick = s.clk.tick ∧
        t.nat Ix.shutHistory (p.id % 64) = p.id ∧ t.nat Ix.shutHistGen (p.id % 64) = (s.nat Ix.shutGen + 1) % 4294967296 ∧
        t.nat Ix.shutHistTick (p.id % 64) = s.clk.tick ∧ (∀ a, memByte t a = memByte s a) ∧ t.engines = s.engines) ∧
    (ticksRun s = true → s.clk.commitDue = false → s.clk.writesDue = true → ∀ w, s.writes = [w] → w.after ≤ s.clk.tick →
      w.mbox = none → w.gen = none → 0x0400 ≤ w.ix → w.ix ≤ 0x0406 → w.sub < 16777216 →
      ∃ t, exec .directWriteLanding s = .next t ∧ t.clk.writesDue = false ∧ t.writes = [] ∧ t.obj w.ix w.sub = w.val ∧
        t.nat Ix.shutGen = (s.nat Ix.shutGen + 1) % 4294967296 ∧ t.nat Ix.shutGenTick = s.clk.tick ∧
        (∀ a, memByte t a = memByte s a) ∧ t.engines = s.engines)

/-- ENG_CTL_ACT on a door-holder (R59, R102, R110): STOP leaves the engine IDLE with nothing in flight, RUN starts an idle one
and RESTART any one whose image fits at bundle 0 with its registers reset, memories kept but for the
writes of the other port that have not landed yet. The readings of log entries 15
and 54 are the model's. -/
def Obligations.EngineControlStartsAndStops : Prop :=
  ∀ (s : State) (p : Fin 16) (cmd t0 : Nat), mapGet (fun _ => none) p.val s.ctl.engCtl = some (cmd, t0) → t0 ≤ s.clk.tick →
    s.isDoor = true →
    let n := engineOf s p
    let e := s.engine n
    let starts (clear : Bool) : Prop :=
      ∃ t, exec (.engCtlAct p) s = .next t ∧ (t.engine n).run = .running ∧ (t.engine n).pc = 0 ∧
        (t.engine n).rf = RegFile.reset ∧ (t.engine n).fadeIn = 256 ∧ (t.engine n).flight = [] ∧ (t.engine n).loops = [] ∧
        (t.engine n).calls = [] ∧ (t.engine n).x = (drainPort e).x ∧ (t.engine n).y = (drainPort e).y ∧ (t.engine n).p = e.p ∧
        (t.engine n).loc.fault = (if clear then 0 else e.loc.fault) ∧ (∀ m, m ≠ n → t.engine m = s.engine m) ∧
        t.ctl.engCtl = mapErase p.val s.ctl.engCtl
    (cmd = 0 → (e.run = .running ∨ e.run = .waiting) →
      ∃ t, exec (.engCtlAct p) s = .next t ∧ (t.engine n).run = .idle ∧ (t.engine n).flight = [] ∧ (t.engine n).sec = 0 ∧
        (t.engine n).q1 = [] ∧ (t.engine n).q2 = [] ∧ (t.engine n).x = (drainPort e).x ∧ (t.engine n).y = (drainPort e).y ∧
        (t.engine n).rf = e.rf ∧ (∀ m, m ≠ n → t.engine m = s.engine m) ∧ t.dict = s.dict ∧
        t.ctl.engCtl = mapErase p.val s.ctl.engCtl) ∧
    (∀ im, e.image = some im → imageFits s im.raw = true →
      (cmd = 1 → e.run = .idle → starts false) ∧ (cmd = 2 → e.run ≠ .leaf → starts true))

/-- The tick DMA of a section (R57, R102, R103, R144): a section whose inputs have all come is ready, and a queued output frame of
the engine that holds a place reaches the store with its tag. The reading of log entry 14 is the model's. -/
def Obligations.TickTransfersMoveFrames : Prop :=
  ∀ (s : State) (n : Fin 16) (second : Bool),
    let e := s.engine n
    (∀ reads p, unitWorks s = true → settle s = s → feedPlace s n = some p → e.image ≠ none → (second = true → s.clk.late = true) →
      (gatherSlots s p (slotsOf e.loc.inMap second) reads).2 = true →
      ∃ t, exec (.inputGatherDone n ⟨second, reads⟩) s = .next t ∧
        (if second then (t.engine n).gather2 else (t.engine n).gather1) = true ∧
        (slotsOf e.loc.inMap second = [] → t.engine n = if second then { e with gather2 := true } else { e with gather1 := true }) ∧
        ∀ m, m ≠ n → t.engine m = s.engine m) ∧
    (∀ (reads : FrameReads) k rest p, (if second then e.q2 else e.q1) = (k, s.tag) :: rest → s.rsv.move = none →
      placeOf s n = some p → k < 256 → e.image ≠ none → e.fadeIn = 0 → reads.bad = false →
      let i := 0x3000 + 256 * p.val + k
      let a := (mapGet (fun _ => 0) k e.loc.outMap).toNat % 65536
      let fixed := (reads.fixed.eraseDups.filter (fun j => decide (j < s.ticklen))).map (fun j => ((1 : Nat), (a + j) % 65536))
      let frame : Frame := { tag := s.tag, words := xWords e a s.ticklen, low := [], npcm := false, bad := false }
      ((s.source i).hist.head?.map (fun f => f.tag)) ≠ some s.tag →
      ∃ t, exec (.outputFrameCopied n second reads) s = .next t ∧
        t.engine n = { e with q1 := if second then e.q1 else rest, q2 := if second then rest else e.q2, fix := e.fix ++ fixed } ∧
        (t.source i).hist = frame :: (s.source i).hist.filter (fun f => f.tag % 3 != s.tag % 3) ∧
        (∀ j, j ≠ i → t.source j = s.source j) ∧ t.fab = s.fab ∧ (reads.fixed = [] → t.dict = s.dict))

/-! ## Bench, Lattice and egress -/

/-- The Bench (R116 to R119, R121, R125, R126, R137): the command of a move whose count runs out in this tick sums its
crosspoint, those before it in the walk being summed, and leaves it at its target, STEADY where it was MOVING; the frame of a
bus is the window of its exact sums; a record that cannot be corrected is OFF with FAULT, and a corrected one is counted. -/
def Obligations.BenchCommandsSumTheirCrosspoints : Prop :=
  ∀ s : State,
    (∀ (xp : Fin 786432) (q : SumReads) ws,
      let x := xpOf s xp.val
      unitWorks s = true → settle s = s → s.clk.closed.contains 3 = false → xpActive s xp.val x = true →
      s.bench.summed.contains xp.val = false →
      (∀ j ∈ walkTo (fun k => k == xp.val) (benchWalk s), j ≠ xp.val → s.bench.summed.contains j = true) →
      (benchWords s x.src).2 = some ws → ws.length = s.ticklen → q.bad = [] → (∀ f ∈ q.frames, f.2 ≠ .bad) → 1 ≤ x.rem → x.rem ≤ s.ticklen →
      (x.state = .moving ∨ x.state = .releasing) →
      let y : Xp := { x with cur := x.tgt, rem := 0, state := if x.state = .moving then .steady else .releasing,
                             lastNeg := (ws.getLast?.map (fun w => w.msb)).getD x.lastNeg }
      (x.mode = 1 → ∃ t, exec (.zcTimeoutStep ⟨xp, q⟩) s = .next t ∧ xpOf t xp.val = y ∧ t.bench.summed = s.bench.summed ++ [xp.val] ∧
        (∀ j, j ≠ xp.val → xpOf t j = xpOf s j) ∧ t.engines = s.engines ∧ t.lat = s.lat) ∧
      (x.mode = 2 → ∃ t, exec (.rampMoveEnd ⟨xp, q⟩) s = .next t ∧ xpOf t xp.val = y ∧ t.bench.summed = s.bench.summed ++ [xp.val] ∧
        (∀ j, j ≠ xp.val → xpOf t j = xpOf s j) ∧ t.engines = s.engines ∧ t.lat = s.lat)) ∧
    (∀ (bus : Fin 1024) (q : SumReads),
      let i := 0x4000 + bus.val
      unitWorks s = true → settle s = s → s.bench.named.contains bus.val = true → s.bench.written.contains bus.val = false →
      s.clk.closed.contains 3 = false → (∀ j ∈ walkOfBus s bus.val, s.bench.summed.contains j = true) →
      (s.source i).fade.mode = .unity → ((s.source i).hist.head?.map (fun f => f.tag)) ≠ some s.tag →
      ∃ t f, exec (.busFrameWritten bus q) s = .next t ∧ (t.source i).hist.head? = some f ∧ f.tag = s.tag ∧
        f.words = (upFrom 0 s.ticklen).map (fun j => (window (mapGet (fun _ => 0) (32 * bus.val + j) s.bench.acc) 28).1) ∧
        f.npcm = false ∧ f.bad = false ∧ t.bench.written = s.bench.written ++ [bus.val] ∧
        (∀ j, j ≠ i → t.source j = s.source j) ∧ t.engines = s.engines) ∧
    (∀ xp : Fin 786432,
      (∃ t, exec (.benchScrubRead xp .bad) s = .next t ∧
        xpOf t xp.val = { xpOf s xp.val with state := .off, fault := true, cur := 0, rem := 0 } ∧
        t.nat Ix.benchEccUe = (s.nat Ix.benchEccUe + 1) % 4294967296 ∧ (∀ j, j ≠ xp.val → xpOf t j = xpOf s j) ∧
        t.engines = s.engines) ∧
      (∃ t, exec (.benchScrubRead xp .corrected) s = .next t ∧
        t.nat Ix.benchEccCe = min (s.nat Ix.benchEccCe + 1) 0xFFFFFFFF ∧ (∀ j, xpOf t j = xpOf s j) ∧ t.engines = s.engines) ∧
      (∃ t, exec (.benchScrubRead xp .ok) s = .next t ∧ t.nat Ix.benchEccCe = s.nat Ix.benchEccCe ∧
        (∀ j, xpOf t j = xpOf s j) ∧ t.engines = s.engines))

/-- Gathers of the Lattice (R42, R43, R146, R153, R159): a destination without a take and at unity takes the words of its source
once a tick, by its own gather or at the end of its reader's wait, and one whose source is absent counts it; a SOFT take past its
last sample ends; scrubbing counts and marks errors. The reading of log entry 19 is the model's. -/
def Obligations.LatticeCommandsGatherTheirDestination : Prop :=
  ∀ (s : State) (d : Half) (q : LatReads),
    let r := s.dest d.toNat
    let n := d.toNat
    (unitWorks s = true → settle s = s → phaseOpen s n = true → r.gathered = false → destUsable s n = true → r.take = none →
      r.hasFault = false → q.sel ≠ .bad → q.frame ≠ .bad →
      (∀ w, lookFor s (readerOf s n) r.sel r.transp = .frame w false → allUnity (r.causes ++ sharedCauses s n) = true →
        (∃ t, exec (.latticeGather ⟨d, q⟩) s = .next t ∧ (t.dest n).words = w ∧ (t.dest n).last = w ∧ (t.dest n).gathered = true ∧
          (t.dest n).isAbsent = false ∧ (t.dest n).isNpcm = false ∧ (∀ m, m ≠ n → t.dest m = s.dest m) ∧
          (∀ i, t.source i = s.source i) ∧ t.engines = s.engines) ∧
        (∃ t, exec (.readerWaitEnd ⟨d, q⟩) s = .next t ∧ (t.dest n).words = w ∧ (t.dest n).last = w ∧ (t.dest n).gathered = true ∧
          (t.dest n).isAbsent = false ∧ (t.dest n).isNpcm = false ∧ (∀ m, m ≠ n → t.dest m = s.dest m) ∧
          (∀ i, t.source i = s.source i) ∧ t.engines = s.engines)) ∧
      (lookFor s (readerOf s n) r.sel r.transp = .absent →
        (∃ t, exec (.latticeGather ⟨d, q⟩) s = .next t ∧ (t.dest n).isAbsent = true ∧ (t.dest n).gathered = true ∧
          t.nat Ix.latAbsentCount n = min (s.nat Ix.latAbsentCount n + 1) 0xFFFFFFFF ∧ (∀ m, m ≠ n → t.dest m = s.dest m) ∧
          t.engines = s.engines) ∧
        (∃ t, exec (.readerWaitEnd ⟨d, q⟩) s = .next t ∧ (t.dest n).isAbsent = true ∧ (t.dest n).gathered = true ∧
          t.nat Ix.latAbsentCount n = min (s.nat Ix.latAbsentCount n + 1) 0xFFFFFFFF ∧ (∀ m, m ≠ n → t.dest m = s.dest m) ∧
          t.engines = s.engines))) ∧
    (∀ k, r.take = some k → k.soft = true → 32 ≤ k.k →
      exec (.softTakeEnd d) s = .next (s.setDest n { r with take := none })) ∧
    (∀ sel age, sel = true ∨ ingressBank n = none →
      exec (.latticeScrubRead sel d age .corrected) s = .next (s.addHold Ix.latEccCe 0 1)) ∧
    (∀ age, ∃ t, exec (.latticeScrubRead true d age .bad) s = .next t ∧ (t.dest n).hasFault = true ∧
      (t.dest n).fault = fadeOut r.fault ∧ t.nat Ix.latEccUe = (s.nat Ix.latEccUe + 1) % 4294967296 ∧
      ∀ m, m ≠ n → t.dest m = s.dest m) ∧
    (∀ age ecc, ingressBank n ≠ none → exec (.latticeScrubRead false d age ecc) s = .next s) ∧
    (∀ age f, ingressBank n = none → age.val + 1 ≤ s.clk.tick → storedFrame s n (s.clk.tick - 1 - age.val) = some f →
      f.words ≠ [] →
      ∃ t, exec (.latticeScrubRead false d age .bad) s = .next t ∧
        (t.source n).hist = (s.source n).hist.map (fun h => if h.tag = f.tag then { h with bad := true } else h) ∧
        t.nat Ix.latEccUe = (s.nat Ix.latEccUe + 1) % 4294967296 ∧ ∀ m, m ≠ n → t.source m = s.source m)

/-- EGRESS_CONVERT of a destination without an output format (R131, R132, R134): the words that have passed the limiter leave
the block as mix words, but for an AES3 output, which sends nothing while it is off. The reading of log entry 28 is the
model's. -/
def Obligations.EgressConvertHandsOver : Prop :=
  ∀ (s : State) (d : Half),
    let r := s.dest d.toNat
    let (ws, l) := limRun s d.toNat r
    unitWorks s = true → settle s = s → isPhysDest d.toNat = true → r.gathered = true → r.converted = false →
    r.egFade.mode = .unity → d.toNat < 0x2000 ∨ 0x2400 ≤ d.toNat → outBits s d.toNat = none →
    ∃ t, exec (.egressConvert d) s = .next t ∧
      t.out = (if 0x2400 ≤ d.toNat ∧ d.toNat < 0x2410 then s.out
        else s.out ++ [.egress d.toNat s.tag (ws.map (fun w => w.toInt))]) ∧
      (t.dest d.toNat).egress = ws ∧ (t.dest d.toNat).converted = true ∧ (t.dest d.toNat).lim = l ∧
      t.int Ix.limGr d.toNat = grOf l.g ∧ t.int Ix.limGrMax d.toNat = min (grOf l.g) (s.int Ix.limGrMax d.toNat) ∧
      ∀ m, m ≠ d.toNat → t.dest m = s.dest m

/-- The limiter of R132 while nothing is limited: with g at unity and every sample within the ceiling, each sample passes
unchanged four samples later. -/
def Obligations.LimiterPassesSamplesBelowTheCeiling : Prop :=
  ∀ (c kr : Nat) (xs : List Word) (l : Limiter), l.g = 2 ^ 31 → l.held.length = 4 → l.hq = List.replicate 4 (2 ^ 31) →
    (∀ x ∈ xs, limQ c x = 2 ^ 31) → kr ≤ 2 ^ 64 →
    let r := limFrame (limSample c kr) xs l
    r.1 = (l.held ++ xs).take xs.length ∧ r.2.g = 2 ^ 31 ∧ r.2.held = (l.held ++ xs).drop xs.length

/-! ## Control: frames, operations, landings -/

/-- A WRITE that passes its checks, of a register whose effect comes at its landing (R163, R189): when its frame is complete
the value waits to land and nothing else has it yet. The commands are those of `writeRows` (RUN, STOP, RESTART,
HOUSE_RATE, TICKLEN, CTL_LOG_ACK, CTL_CRED_PRIV, TIME_RESTEP, TIME_SET, REF_PHASE_STEP, REF_PHASE_FORCE, SYSPLL_SELECT,
MEDSYN_OFFSET, TAKE, JOIN, ISOLATE, SWAP, AUDIT, MIGRATE, RETIRE, TEST, RESTORE, CLEAR_PLL, SEC_LC_ADVANCE,
SEC_TAMPER_CLR, SEC_DBG_END, SEC_IMG_PUBKEY, SEC_IMG_KEY_HASH, QUIET_ENTER, QUIET_LEAVE), WRITE for every other register,
a plan (R41), and a wrapped key, whose key the device unwraps, or refuses where it does not unwrap (R206). The reading of
log entry 11 is the model's. -/
def Obligations.ObjectWritesWaitForTheirLanding : Prop :=
  ∀ (s : State) (v : Serving) (op : Op) (r : ObjRow) (x : Val), LastWrite s v op r x → r.acc ≠ .wo →
    let waits (c : Instr) (y : Val) : Prop :=
      ∃ t, exec c s = .next t ∧
        t.writes = s.writes ++ [{ ix := r.ix, sub := op.sub, val := y, mbox := none, after := firstBoundary s r.ix, gen := none,
                                  priv := privOf s v }] ∧
        t.obj r.ix op.sub = s.obj r.ix op.sub ∧ (∀ a, memByte t a = memByte s a) ∧ (s.rsv.move = none → t.engines = s.engines)
    (∀ c n, (c, r.ix, none) ∈ writeRows ∨ ((c, r.ix, some n) ∈ writeRows ∧ field op.data 0 1 = n) → waits c x) ∧
    (r.ix = Ix.phasePlan → planCheck (afterWrites s v) (listSet op.sub x.toNat (planOf (afterWrites s v))) = 0 → waits .phasePlan x) ∧
    (∀ z, r.ix = Ix.ctlCredWrap → sessOf s v.session = some z →
      match Config.unwrap z.key x.toBytes with
      | some y => waits .ctlCredWrap (.bytes y)
      | none => ∃ t, exec .ctlCredWrap s = .next t ∧ t.writes = s.writes ∧ ∀ a, memByte t a = memByte s a) ∧
    (writeRow r.ix (field op.data 0 1) = .write → wraps r.ix = false → waits .write x)

/-- A write-only register acts when its frame is complete (R75, R121, R139, R186, R313, R316, R405, R437): ENG_FLAGS_CLR,
PMU_ENG_OVF_CLR and PMU_OVF_CLR clear the bits written as 1, BUS_SAT_CLR and LIM_GR_CLR act on a 1, RAMP_START makes its
profile due at the next boundary, where its RAMP_START_TICK is read, CLK_SYNC_ARM arms SYNC in ONE-SHOT mode, and CUE_CMD acts
on a channel that is enabled. The reading of log entry 57 is the model's. -/
def Obligations.WriteOnlyRegistersActAtOnce : Prop :=
  ∀ (s : State) (v : Serving) (op : Op) (r : ObjRow) (x : Val), LastWrite s v op r x →
    let sub := op.sub
    let n := x.toNat
    let cleared (ix k : Nat) (t : State) : Prop := t.nat ix k = s.nat ix k - (s.nat ix k &&& n)
    let pm (t : State) : EngPmu := (t.engine (engineOf s (Fin.ofNat 16 sub))).loc.pmu
    (r.ix = Ix.engFlagsClr → ∃ t, exec .engFlagsClr s = .next t ∧ cleared Ix.engFlags sub t ∧ t.engines = s.engines ∧
      t.writes = s.writes) ∧
    (r.ix = Ix.busSatClr → n = 1 → ∃ t, exec .busSatClr s = .next t ∧ t.flag Ix.busSat sub = false ∧
      t.flag Ix.busOvf sub = false ∧ t.engines = s.engines ∧ t.writes = s.writes) ∧
    (r.ix = Ix.limGrClr → n = 1 → ∃ t, exec .limGrClr s = .next t ∧ t.nat Ix.limGrMax sub = 0 ∧ t.engines = s.engines ∧
      t.writes = s.writes) ∧
    (r.ix = Ix.rampStart → n = 1 → ∃ t, exec .rampStart s = .next t ∧ t.nat Ix.rampStart sub = 0 ∧
      mapFind sub t.syn.due = some none ∧ t.syn.ramps = s.syn.ramps ∧ t.engines = s.engines ∧ t.writes = s.writes) ∧
    (r.ix = Ix.clkSyncArm → n = 1 → s.nat Ix.clkSyncMode % 4 = 1 → ∃ t, exec .clkSyncArm s = .next t ∧
      t.nat Ix.clkSyncState = 1 ∧ t.engines = s.engines ∧ t.writes = s.writes) ∧
    (r.ix = Ix.pmuEngOvfClr → ∃ t, exec .pmuEngOvfClr s = .next t ∧ (pm t).ovf = (pm s).ovf &&& ~~~(BitVec.ofNat 4 n) ∧
      (pm t).cnt = (pm s).cnt ∧ (pm t).evt = (pm s).evt ∧ t.writes = s.writes) ∧
    (r.ix = Ix.pmuOvfClr → ∃ t, exec .pmuOvfClr s = .next t ∧ cleared Ix.pmuOvf 0 t ∧ t.engines = s.engines ∧
      t.writes = s.writes) ∧
    (∀ ch : Fin 2, r.ix = Ix.cueCmd → ch.val = sub → s.flag Ix.cueEn sub = true →
      (field op.data 0 1 = 1 → n = 1 → cueState s ch = CueS.locked →
        ∃ t, exec .clear s = .next t ∧ t.nat Ix.cueRetries sub = 0 ∧ t.engines = s.engines ∧ t.writes = s.writes ∧
          cueState t ch = (if (cueOf s ch).supply ∨ (cueOf s ch).hot then CueS.shielded else CueS.checking)) ∧
      (field op.data 0 1 = 2 → n = 2 → cuePlays s ch = true →
        ∃ t, exec .recheck s = .next t ∧ (cueOf t ch).fade = fadeOut (cueOf s ch).fade ∧ (cueOf t ch).counts = false ∧
          t.engines = s.engines ∧ t.writes = s.writes ∧
          (cueOf t ch).next = (if (cueOf s ch).next = .shield then .shield else .check) ∧ cueState t ch = cueState s ch))

/-- READ, STAGE, COMMIT and ABORT with more operations following (R164 to R166, R170 to R173, R186, R187, R190, R191): values
from one snapshot; a change kept in its set; a set that becomes a pending commit at its landing tick; a set given up. The
readings of log entries 11 and 32 are the model's. -/
def Obligations.StagingOperationsCarryOut : Prop :=
  ∀ (s : State) (v : Serving) (op : Op) (nx : Nat × Op) (more : List (Nat × Op)) (r : ObjRow),
    let rest := nx :: more
    (InService s v Oc.read op rest → objRow op.index = some r → r.acc ≠ .wo → r.ty ≠ .domain → op.ty = r.ty.code →
      1 ≤ op.count → op.data = [] → readPriv r.ix ≤ privOf s v → badSub r op = none →
      op.index ≠ Ix.secDbgChallenge → op.index ≠ Ix.egressClipCount →
      let data := ((opSubs op).map (fun k => r.ty.wire (readVal v r.ix k))).flatten
      fitsReply s v Oc.read rest data → exec .read s = .next (answered s v Oc.read rest data)) ∧
    (∀ x, InService s v Oc.stage op rest → objRow op.index = some r → r.acc.stages = true → r.ty ≠ .domain → op.set < 16 →
      op.ty = r.ty.code → op.count = 1 → r.subs.has op.sub = true → r.ty.takeMany 1 op.data = some [x] → writeGate s v r = 0 →
      (∀ y, mapFind op.set s.shut.sets = some y → y.session = v.session) → stageCheck s r op.sub x = 0 → mirrorsNow s = false →
      let old : List Change := ((mapFind op.set s.shut.sets).map (fun y => y.changes)).getD []
      let new := putChange old { ix := r.ix, sub := op.sub, val := x, keyed := v.keyed }
      new.length ≤ 65536 → stageUsed s - recordCount old + recordCount new ≤ 196608 →
      fitsReply s v Oc.stage rest [] →
      ∃ t, exec .stage s = .next t ∧ mapFind op.set t.shut.sets = some { session := v.session, changes := new } ∧
        t.nat Ix.shutSetCount op.set = new.length ∧ t.nat Ix.shutSetState op.set = 1 + 256 * v.session ∧
        t.obj r.ix op.sub = s.obj r.ix op.sub ∧ t.shut.pend = s.shut.pend ∧ t.engines = s.engines) ∧
    (∀ land, InService s v Oc.commit op rest → op.index = 0 → op.count = 0 → op.ty = 0 → op.data.length = 8 → op.set < 16 →
      commitCheck s v op.set (field op.data 0 8) = (0, land) → mirrorsNow s = false →
      fitsReply s v Oc.commit rest (bytesLE 4 s.shut.nextId ++ bytesLE 8 land) →
      ∃ t p w, exec .commit s = .next t ∧ t.shut.pend = s.shut.pend ++ [p] ∧ p.id = s.shut.nextId ∧ p.tick = land ∧
        p.session = v.session ∧ p.checked = false ∧ p.frozen = false ∧
        (∃ y, mapFind op.set s.shut.sets = some y ∧ p.changes = y.changes) ∧ mapFind op.set t.shut.sets = none ∧
        t.shut.nextId = (s.shut.nextId + 1) % 4294967296 ∧ t.ctl.serving = some w ∧ w.ops = rest ∧
        w.results = v.results ++ [{ op := Oc.commit, status := 0, data := bytesLE 4 s.shut.nextId ++ bytesLE 8 land }]) ∧
    (∀ y, InService s v Oc.abort op rest → op.index = 0 → op.count = 0 → op.ty = 0 → op.data = [] → op.set < 16 →
      mapFind op.set s.shut.sets = some y → y.session = v.session → mirrorsNow s = false → fitsReply s v Oc.abort rest [] →
      ∃ t, exec .abort s = .next t ∧ mapFind op.set t.shut.sets = none ∧ t.nat Ix.shutSetState op.set = 0 ∧
        (∀ k, k ≠ op.set → mapFind k t.shut.sets = mapFind k s.shut.sets) ∧ t.shut.pend = s.shut.pend ∧ t.engines = s.engines)

/-- Subscriptions, sessions and DOMAIN transfers with more operations following (R192, R196 to R198), and the debug nonce
(R420). The readings of log entries 3, 81 and 82 are the model's. -/
def Obligations.SessionOperationsCarryOut : Prop :=
  ∀ (s : State) (v : Serving) (op : Op) (nx : Nat × Op) (more : List (Nat × Op)) (r : ObjRow) (z : Session),
    let rest := nx :: more
    sessOf s v.session = some z →
    let with' (t : State) (y : Session) : Prop := sessOf t v.session = some y ∧ t.engines = s.engines
    (InService s v Oc.subscribe op rest → objRow op.index = some r → 1 ≤ op.count → op.count ≤ 256 → r.acc ≠ .wo →
      r.ty ≠ .domain → op.ty = r.ty.code → op.data.length = 4 → readPriv r.ix ≤ z.priv → badSub r op = none →
      s.ctl.sessions.foldl (fun n p => n + (match p.2 with
        | some y => y.subs.length
        | none => 0)) 0 < 1024 → z.subs.length < 64 → fitsReply s v Oc.subscribe rest (bytesLE 2 z.nextHandle) →
      ∃ t u, exec .subscribe s = .next t ∧
        with' t { z with subs := z.subs ++ [u], nextHandle := (z.nextHandle + 1) % 65536 } ∧ u.handle = z.nextHandle ∧
        u.ix = r.ix ∧ u.sub = op.sub ∧ u.count = op.count ∧ u.period = field op.data 0 2 ∧ u.start = s.clk.tick) ∧
    (InService s v Oc.unsubscribe op rest → op.index = 0 → op.count = 0 → op.ty = 0 → op.data.length = 4 →
      z.subs.any (fun u => u.handle == field op.data 0 2) = true → fitsReply s v Oc.unsubscribe rest [] →
      ∃ t, exec .unsubscribe s = .next t ∧
        with' t { z with subs := z.subs.filter (fun u => u.handle != field op.data 0 2) }) ∧
    (InService s v Oc.close op rest → op.index = 0 → op.count = 0 → op.ty = 0 → op.data = [] → fitsReply s v Oc.close rest [] →
      exec .closeOp s = .next (answered s { v with closing := true } Oc.close rest [])) ∧
    (InService s v Oc.domOpen op rest → objRow op.index = some r → op.count = 1 → r.subs.has op.sub = true → r.ty = .domain →
      op.ty = r.ty.code → op.data.length = 4 → 1 ≤ field op.data 0 4 → field op.data 0 4 ≤ 16777216 → r.acc.writable = true →
      writePriv r.ix r.acc.keyed ≤ z.priv → z.transfer = none → transferUsed s + field op.data 0 4 ≤ 67108864 →
      (r.ix = Ix.engImage → imageOpen s op.sub = true) →
      (∀ j y u, sessOf s j = some y → y.transfer = some u → u.window + u.length ≤ transferArea + 67108864) →
      ((transferGaps s).map (startsIn (field op.data 0 4))).foldl (· + ·) 0 ≠ 0 →
      (∀ d : List Byte, d.length = 12 → fitsReply s v Oc.domOpen rest d) →
      ∃ t tr, exec .domOpen s = .next t ∧ with' t { z with transfer := some tr } ∧ tr.ix = r.ix ∧ tr.sub = op.sub ∧
        tr.writing = true ∧ tr.length = field op.data 0 4 ∧ transferArea ≤ tr.window ∧
        tr.window + tr.length ≤ transferArea + 67108864 ∧ t.fresh = s.fresh + 1) ∧
    (∀ tr, InService s v Oc.domSeg op rest → objRow op.index = some r → r.subs.has op.sub = true → r.ty = .domain →
      op.ty = r.ty.code → z.transfer = some tr → tr.ix = op.index → tr.sub = op.sub → tr.writing = true →
      op.count = 1 → 4 ≤ op.data.length → op.data.length ≤ 1028 → field op.data 0 4 + (op.data.length - 4) ≤ tr.length →
      fitsReply s v Oc.domSeg rest [] →
      ∃ t, exec .domSeg s = .next t ∧ with' t z ∧ ∀ a, memByte t a =
        let base := tr.window + field op.data 0 4
        if base ≤ a ∧ a < base + (op.data.length - 4) then listGet 0 (a - base) (op.data.drop 4) else memByte s a) ∧
    (∀ tr, InService s v Oc.domClose op rest → objRow op.index = some r → r.subs.has op.sub = true → r.ty = .domain →
      op.ty = r.ty.code → z.transfer = some tr → tr.ix = op.index → tr.sub = op.sub → tr.writing = false → op.count = 1 → op.data = [] → fitsReply s v Oc.domClose rest [] →
      ∃ t, exec .domClose s = .next t ∧ with' t { z with transfer := none } ∧ t.writes = s.writes) ∧
    (InService s v Oc.read op rest → op.index = Ix.secDbgChallenge → objRow op.index = some r → op.count = 1 → op.sub = 0 →
      op.ty = r.ty.code → op.data = [] → 2 ≤ z.priv → dbgLocked s = false →
      (∀ d : List Byte, d.length = (r.ty.wire (.bytes (List.replicate 32 0))).length → fitsReply s v Oc.read rest d) →
      ∃ t b, exec (.secDbgChallenge false) s = .next t ∧ t.sec.nonce = some (b, s.clk.sysCounter) ∧ b.length = 32 ∧
        t.fresh = s.fresh + 1 ∧ with' t z)

/-- OPEN alone in its frame (R192): a session on the lowest free number, with the credential's privilege and a key of both
nonces. The readings of log entries 3 and 5 are the model's. -/
def Obligations.OpenGivesTheLowestFreeSession : Prop :=
  ∀ (s : State) (v : Serving) (op : Op) (k : Nat), InService s v Oc.openSess op [] → v.session = 0 → v.accepts = [] →
    v.closing = false → freeSession s = some k →
    let slot := field op.data 0 1
    let nd := bytesLE 8 (unsignedOf 64 (Config.free s.fresh))
    (∀ t : State, ∀ d : List Byte, d.length = 12 → fitsReply t { v with session := k } Oc.openSess [] d) →
    ∃ t y, exec .openOp s = .next t ∧ sessOf t k = some y ∧ y.via = v.via ∧ y.peer = v.peer ∧ y.slot = slot ∧
      y.priv = s.nat Ix.ctlCredPriv slot ∧ y.subs = [] ∧ y.transfer = none ∧
      y.key = Config.cmac (credKey s slot) ([0x44, 0x52, 0x44, 0x53] ++ bytesLE 1 k ++ bytesLE 1 slot ++ [0, 0] ++
        op.data.drop 4 ++ nd) ∧ 1 ≤ k ∧ k ≤ 32

/-- A DOM_CLOSE of a value whose hash is right and whose frame is complete (R109, R197, R420, R456): the value waits to land
as a direct write, and the transfer is over; a firmware image that does not verify is refused. The readings of log entries
53 and 82 are the model's. -/
def Obligations.DomainValuesWaitForTheirLanding : Prop :=
  ∀ (s : State) (v : Serving) (op : Op) (r : ObjRow) (z : Session) (tr : Transfer), InService s v Oc.domClose op [] →
    v.accepts = [] → v.closing = false → objRow op.index = some r → r.ty = .domain → sessOf s v.session = some z → z.transfer = some tr →
    tr.ix = op.index → tr.sub = op.sub → tr.writing = true → op.count = 1 → op.data.length = 32 → r.subs.has op.sub = true → op.ty = r.ty.code → writeGate s v r = 0 →
    let value := memBytes s tr.window tr.length
    Config.sha256 value = op.data → valueCheck s (afterWrites s v) true r op.sub (.bytes value) = 0 →
    slotsCode s [(r.ix, op.sub, 0)] = 0 → r.acc = .rwk →
    (∀ t : State, fitsReply t v Oc.domClose [] []) →
    let waits (c : Instr) : Prop :=
      ∃ t y, exec c s = .next t ∧
        t.writes = s.writes ++ [{ ix := r.ix, sub := op.sub, val := .bytes value, mbox := none, after := firstBoundary s r.ix,
                                  gen := none, priv := privOf s v }] ∧
        sessOf t v.session = some y ∧ y.transfer = none ∧ ∀ a, memByte t a = memByte s a
    (op.index = Ix.engImage → waits .engImage) ∧
    (op.index = Ix.bootFwImage → s.boot.writing = none → (∀ w ∈ s.writes, w.ix ≠ Ix.bootFwImage) →
      if fwVerifies s value = true then waits .bootFwImage
      else ∃ t, exec .bootFwImage s = .next t ∧ t.writes = s.writes ∧ t.nat Ix.bootFwStatus = 3 ∧ ∀ a, memByte t a = memByte s a) ∧
    (op.index = Ix.secDbgResponse → waits (.secDbgResponse none)) ∧
    (op.index ≠ Ix.engImage → op.index ≠ Ix.bootFwImage → op.index ≠ Ix.secDbgResponse → waits .domClose)

/-- Frames at both transports (R188, R192 to R196, R199 to R202): a frame of an open session is taken into service, one with
no operations left is answered, ARP and ICMP are answered, a session that times out is closed, a notification leaves. The
readings of log entries 79 and 80 are the model's. -/
def Obligations.FramesAreTakenAndAnswered : Prop :=
  ∀ s : State, hkRuns s = true →
    (∀ (src dst : BitVec 32) (sport : Half) b ops x, controlHost s dst = true → s.nat Ix.pairWitnessAddr = 0 →
      s.ctl.serving = none → s.ctl.queue = [] → s.hp.busy = false → field b 0 1 = 1 → frameOps b = some ops → frSession b ≠ 0 →
      frTagged b = false → sessOf s (frSession b) = some x → x.via = .udp → x.peer = src.toNat → x.tagAll = false →
      s.nat Ix.ctlTagPolicy = 0 → x.counter < frCounter b →
      ∃ t v y, exec (.commandFrameReceived ⟨src, dst⟩ sport 41814 false false b) s = .next t ∧ t.ctl.serving = some v ∧ v.ops = ops ∧
        v.session = frSession b ∧ v.counter = frCounter b ∧ v.keyed = false ∧ v.shot.snap = s.snap ∧ v.shot.dict = s.dict ∧
        v.gen = s.nat Ix.shutGen ∧ v.tick = s.clk.lastDone ∧ v.port = sport.toNat ∧ v.results = [] ∧ sessOf t (frSession b) = some y ∧ y.counter = frCounter b ∧
        y.lastFrame = b ∧ t.nat Ix.ctlFramesOk 0 = min (s.nat Ix.ctlFramesOk 0 + 1) 0xFFFFFFFF ∧ t.out = s.out ∧
        t.ctl.queue = []) ∧
    (∀ v, s.ctl.serving = some v → v.ops = [] → v.accepts = [] → v.mirrored = false → v.closing = false → v.via = .udp →
      s.ctl.queue = [] → s.hp.busy = false →
      ∃ t, exec .keepalive s = .next t ∧ t.out = s.out ++ [.ctlFrame .udp v.peer v.port (replyOf s v v.results)] ∧
        t.ctl.serving = none ∧ t.writes = s.writes ∧ t.engines = s.engines ∧
        ∀ x, sessOf s v.session = some x → sessOf t v.session = some { x with lastReply := replyOf s v v.results }) ∧
    (∀ len : BitVec 11, s.hp.busy = true → exec (.hpCmdGo len) s = .next
      (({ s with hp := { s.hp with drop := true, cmdLen := len } }.addHold Ix.ctlFramesDrop 1 1).alarm (Al.ctlFrameDrop.src 1)
        (frSession (hpCommand s 16)))) ∧
    (∀ len : BitVec 11, s.hp.busy = false → s.ctl.serving ≠ none → queuedOn s .hostPort < 16 → hpFrames s < 32 →
      ∃ t q, exec (.hpCmdGo len) s = .next t ∧ t.hp.busy = false ∧ t.hp.cmdLen = len ∧ t.ctl.queue = s.ctl.queue ++ [q] ∧
        q.via = .hostPort ∧ q.bytes = hpCommand s len.toNat ∧ q.bytes.length = len.toNat ∧ t.dict = s.dict ∧ t.engines = s.engines) ∧
    (s.ctl.serving ≠ none → s.hp.busy = false →
      exec .hpRspPop s = .next { s with hp := { s.hp with rsp := s.hp.rsp.drop 1 } }) ∧
    (∀ (src dst : BitVec 32) (vlan fragment : Bool) payload,
      exec (.controlArpRequest dst ⟨src, vlan⟩) s = .next (if controlHost s dst = true ∧ vlan = false then s.emit (.arpReply src.toNat) else s) ∧
      exec (.controlIcmpEcho dst ⟨src, vlan, fragment⟩ payload) s =
        .next (if controlHost s dst = true ∧ vlan = false ∧ fragment = false then s.emit (.icmpReply src.toNat payload) else s)) ∧
    (∀ (k : Fin 33) x, sessOf s k.val = some x → (∀ v, s.ctl.serving = some v → v.session ≠ k.val) →
      ∃ t, exec (.sessionTimeout k) s = .next t ∧ sessOf t k.val = none ∧ t.nat Ix.ctlSessState k.val = 0 ∧
        (∀ p ∈ t.shut.sets, p.2.session ≠ k.val) ∧ (∀ j, j ≠ k.val → sessOf t j = sessOf s j) ∧ t.writes = s.writes ∧
        t.engines = s.engines) ∧
    (∀ (k : Fin 33) x u b, sessOf s k.val = some x → x.via = .udp → x.subs = [u] → subDue s u = true → subRecords s (notifyRoom x) u = [b] →
      ∃ t, exec (.notificationDue k) s = .next t ∧
        t.out = s.out ++ [.ctlFrame .udp x.peer x.port (notifyBytes s k.val x [b])] ∧
        sessOf t k.val = some { x with subs := [{ u with sent := subVals s u, lastTick := s.clk.tick }],
                                       notifySeq := x.notifySeq + 1 } ∧ t.engines = s.engines)

/-- The data port, registers written directly, the fabric and its reset (R10, R120, R147, R201, R203, R351, R352, R354). The
readings of log entries 58 and 83 are the model's. -/
def Obligations.DirectAccessesReachTheirTarget : Prop :=
  ∀ (s : State) (a : BitVec 40) (size : Nat) (inc : BitVec 3), incSize inc = size → 0 < size → a.toNat % size = 0 →
    0x1000000000 ≤ a.toNat → a.toNat + size ≤ 0x1000000000 + dramBytes s → dramBytes s ≤ 2 ^ 38 → s.fab.dramReady = true →
    let writes (t : State) (data : List Byte) : Prop := ∀ k, memByte t k =
      if a.toNat ≤ k ∧ k < a.toNat + size then listGet 0 (k - a.toNat) data else memByte s k
    let keeps (t : State) : Prop := ∀ k, memByte t k = memByte s k
    (∀ errs : List (Nat × Ecc), (∀ e ∈ errs, e.2 = .ok) → s.answers = true → s.hp.dpAddr = a → inWindow s a.toNat size = true →
      (∃ t, exec (.hpDpStart (BitVec.ofNat 32 (0x80000008 + inc.toNat + 65536 * size)) errs) s = .next t ∧
        t.hp.rbuf = memBytes s a.toNat size ∧ t.hp.ready = true ∧ t.hp.dpAddr.toNat = a.toNat + size ∧ keeps t ∧
        t.hp.dir = true ∧ t.hp.mode = false ∧ t.hp.dpLen.toNat = size ∧ t.engines = s.engines) ∧
      (∀ data, data.length = size → s.hp.inc = inc → s.hp.mode = false → s.hp.dir = false → s.hp.wbuf = [] →
        ∃ t, exec (.hpDpdataWrite data errs) s = .next t ∧ writes t data ∧ t.hp.wbuf = [] ∧
          t.hp.dpAddr.toNat = a.toNat + size ∧ t.hp.err = s.hp.err ∧ t.engines = s.engines)) ∧
    (∀ tx : FabTx, tx.addr = a → tx.size = size → tx.beats = 1 → tx.master = 0x01 → (∀ e ∈ tx.errs, e.2 = .ok) →
      a.toNat % 4096 + size ≤ 4096 →
      (tx.write = true → tx.data.length = size → ∃ t, exec (.fabricTransaction tx) s = .next t ∧ writes t tx.data ∧
        t.out = s.out ++ [.fabric 1 tx.id.val 0 []] ∧ t.engines = s.engines) ∧
      (tx.write = false → ∃ t, exec (.fabricTransaction tx) s = .next t ∧ keeps t ∧
        t.out = s.out ++ [.fabric 1 tx.id.val 0 (memBytes s a.toNat size)] ∧ t.engines = s.engines)) ∧
    (∀ m granted, ∃ t, exec (.masterReset m granted) s = .next t ∧ keeps t ∧
      t.nat Ix.fabResetBursts = min (s.nat Ix.fabResetBursts + granted) 0xFFFFFFFF ∧ t.engines = s.engines) ∧
    (∀ v, exec (.remap v) s = .next { s with fab := { s.fab with remap := if s.fab.lock then s.fab.remap else v } }) ∧
    (exec .lock s = .next { s with fab := { s.fab with lock := true } }) ∧
    (∀ w : Word, exec (.registerWrite .fabCtl w) s = .next { s with fab := { s.fab with
      remap := if s.fab.lock then s.fab.remap else w.getLsbD 0, lock := s.fab.lock || w.getLsbD 8 } }) ∧
    (∀ (xp : Fin 786432) w, ∃ t, exec (.registerWrite (.record xp 3) w) s = .next t ∧
      xpOf t xp.val = { xpOf s xp.val with rlen := w.toNat / 65536 } ∧ ∀ j, j ≠ xp.val → xpOf t j = xpOf s j) ∧
    (∀ (n : Fin 16) w, windowGated s n = false → exec (.registerWrite (.engine n 5) w) s = .next (s.setEngine n
      { s.engine n with loc := { (s.engine n).loc with fault := (s.engine n).loc.fault &&& ~~~(w.setWidth 5) } }))

/-! ## Serial audio ports -/

/-- TDM directions (R207, R210, R213, R217 to R219): frames in, lost clocks, rate windows, returns and ends of fades. The
reading of log entry 37 is the model's. -/
def Obligations.TdmEventsMoveTheirDirection : Prop :=
  ∀ (s : State) (p : Fin 32),
    let k := 2 * p.val
    let d := dirOf s k
    let others (t : State) (k : Nat) : Prop := (∀ j, j ≠ k → dirOf t j = dirOf s j) ∧ t.engines = s.engines ∧ t.lat = s.lat ∧
      ∀ a, memByte t a = memByte s a
    (∀ f : TdmFrame, d.run = .running → clkMode d.clk = 0 → clkFollower d.clk = false → f.tx = false → f.timely = true →
      f.bclks = fmtSlots d.fmt * fmtWidth d.fmt →
      ∃ t, exec (.tdmFrameReceived p f) s = .next t ∧ others t k ∧ (dirOf t k).run = .running ∧ (dirOf t k).bad = 0 ∧
        (dirOf t k).frames = d.frames + 1 ∧ (dirOf t k).stamp = f.stamp ∧
        ∀ slot c, mapFind slot d.chans = some c →
          let w := listGet c.held slot (f.raw.map (slotWord d.fmt))
          ∃ c', mapFind slot (dirOf t k).chans = some c' ∧ c'.held = (if c.hold then c.held else w) ∧
            (c.hold = false → allUnity [c.en, c.mask, c.svc] = true →
              ∃ o, c'.fifo = c.fifo ++ [o] ∧ o.w = w ∧ o.low = false ∧ o.npcm = false ∧ o.time = f.stamp)) ∧
    (∀ f : TdmFrame, d.run = .running → clkMode d.clk = 0 → d.bad = 0 → f.tx = false → f.timely = false →
      ∃ t, exec (.tdmFrameReceived p f) s = .next t ∧ others t k ∧ (dirOf t k).run = .running ∧ (dirOf t k).bad = 1 ∧
        (dirOf t k).good = false ∧
        t.nat Ix.tdmErrors (4 * p.val) = min (s.nat Ix.tdmErrors (4 * p.val) + 1) 0xFFFFFFFF ∧
        ∀ slot c, mapFind slot d.chans = some c → ∃ c', mapFind slot (dirOf t k).chans = some c' ∧ c'.held = c.held ∧ c'.concealed = true ∧
          c'.fifo.length = c.fifo.length + 1) ∧
    (d.run = .running → clkFollower d.clk = true →
      ∃ t, exec (.tdmFsTimeout p false) s = .next t ∧ others t k ∧ (dirOf t k).run = .lost ∧ (dirOf t k).ticks = 0 ∧
        ∀ slot c, mapFind slot d.chans = some c →
          mapFind slot (dirOf t k).chans = some { c with svc := fadeOut c.svc, hold := true }) ∧
    (∀ rate : BitVec 32, d.run = .running → clkFollower d.clk = true → clkMode d.clk = 0 →
      (rateOutside s k d rate.toNat = false → ∃ t, exec (.rateWindow (.tdm p false) rate) s = .next t ∧ others t k ∧
        t.nat Ix.tdmRate k = rate.toNat ∧ dirOf t k = { d with inside := d.inside + 1, out := 0 }) ∧
      (rateOutside s k d rate.toNat = true → 1 ≤ d.out → ∃ t, exec (.rateWindow (.tdm p false) rate) s = .next t ∧
        others t k ∧ t.nat Ix.tdmRate k = rate.toNat ∧ (dirOf t k).run = .mismatch ∧ (dirOf t k).out = d.out + 1)) ∧
    ((d.run = .starting ∨ d.run = .recovering) → 1 ≤ d.ticks → d.restart = false → d.stopping = false → clkMode d.clk ≠ 2 →
      ∃ t, exec (.directionReturn (.tdm p false)) s = .next t ∧ others t k ∧ (dirOf t k).run = .running ∧
        ∀ slot c, mapFind slot d.chans = some c →
          mapFind slot (dirOf t k).chans = some { c with svc := fadeIn c.svc, hold := false }) ∧
    (d.run ≠ .off → d.stopping = true → d.chans.all (fun c => c.2.en.mode == .silent) = true → dirEnabled s k = false →
      ∃ t, exec (.portFadeEnd (.tdm p false)) s = .next t ∧ others t k ∧ dirOf t k = Dir.reset ∧
        t.nat Ix.tdmState p.val % 8 = 0) ∧
    (let x := dirOf s (k + 1)
     x.run = .lost → clkFollower x.clk = true → clkMode x.clk ≠ 2 →
      ∃ t, exec (.txFollowerClockReturn p) s = .next t ∧ others t (k + 1) ∧ (dirOf t (k + 1)).run = .running ∧
        ∀ slot c, mapFind slot x.chans = some c →
          mapFind slot (dirOf t (k + 1)).chans = some { c with svc := fadeIn c.svc, hold := false })

/-- Converters, buffers and AES3 inputs (R220, R222, R223, R225, R227, R229): a ratio learned, a buffer that empties or fills;
a subframe, a channel-status block, a lost signal, the return to PCM. The readings of log entries 38 and 39 are the
model's. -/
def Obligations.ConvertersAndAesInputsFollowTheirEvents : Prop :=
  (∀ s : State,
     (∀ (ch : Fin 80) (ratio : BitVec 32), s.nat Ix.asrcState ch.val = 1 →
       ∃ t, exec (.asrcLocked ch ratio) s = .next t ∧ t.nat Ix.asrcState ch.val = 2 ∧ t.nat Ix.asrcRatio ch.val = ratio.toNat ∧
         (∀ j, j ≠ ch.val → t.nat Ix.asrcState j = s.nat Ix.asrcState j) ∧ t.engines = s.engines ∧ t.lat = s.lat ∧
         ∀ k slot c, asrcPlace s ch.val = some (k, slot) → mapFind slot (dirOf s k).chans = some c →
           (∀ j, j ≠ k → dirOf t j = dirOf s j) ∧
             ∃ c', mapFind slot (dirOf t k).chans = some c' ∧ c'.held = c.held ∧ c'.svc = c.svc ∧
               (isRx k = true → c'.fifo.length = 8 ∧ ∀ o ∈ c'.fifo, o ∈ c.fifo ∨ o.w = 0) ∧
               (isRx k = false → c'.fifo = centredOut 8 (s.clk.tick * s.ticklen) c.fifo)) ∧
     (∀ p : Fin 32,
       let k := 2 * p.val + 1
       let d := dirOf s k
       let centred (t : State) : Prop := (dirOf t k).run = .recovering ∧ (∀ j, j ≠ k → dirOf t j = dirOf s j) ∧
         ∀ slot c, mapFind slot d.chans = some c → mapFind slot (dirOf t k).chans =
           some { c with svc := fadeOut c.svc, hold := true, fifo := centredOut (halfFill s k) (s.clk.tick * s.ticklen) c.fifo }
       d.run = .running → clkMode d.clk = 1 →
       let meets (full : Bool) : Prop :=
         d.chans.all (fun c => outMeets s (2 * halfFill s k) (stillToCome s c.2) full c.2) = true
       (meets false → ∃ t, exec (.asrcUnderrun (.follow p true)) s = .next t ∧ centred t ∧
         t.nat Ix.tdmErrors (4 * p.val + 1) = min (s.nat Ix.tdmErrors (4 * p.val + 1) + 1) 0xFFFFFFFF) ∧
       (meets true →
         ∃ t, exec (.asrcOverrun (.follow p true)) s = .next t ∧ centred t ∧
         t.nat Ix.tdmErrors (4 * p.val + 2) = min (s.nat Ix.tdmErrors (4 * p.val + 2) + 1) 0xFFFFFFFF))) ∧
  (∀ (s : State) (n : Fin 8),
     let i := n.val
     let k := 64 + i
     let d := dirOf s k
     let a := aesOf s i
     let others (t : State) : Prop := (∀ j, j ≠ k → dirOf t j = dirOf s j) ∧ (∀ j, j ≠ i → aesOf t j = aesOf s j) ∧
       t.engines = s.engines ∧ t.lat = s.lat
     (∀ sub : AesSub, d.run = .running → sub.biphase = false → sub.parity = false → sub.second = false →
       ∃ t, exec (.aesSubframeReceived n sub) s = .next t ∧ others t ∧ (dirOf t k).run = .running ∧ (dirOf t k).bad = 0 ∧
         (t.nat Ix.aesiState i).testBit 6 = sub.validity ∧
         ∀ c, mapFind 0 d.chans = some c →
           let w := convertIn 24 sub.data.toInt
           ∃ c', mapFind 0 (dirOf t k).chans = some c' ∧ c'.held = (if c.hold then c.held else w) ∧
             (c.hold = false → allUnity [c.en, c.mask, c.svc] = true → ∃ o, c'.fifo = c.fifo ++ [o] ∧ o.w = w ∧ o.low = false ∧ o.npcm = a.npcmA)) ∧
     (∀ ba bb : List Byte, d.run ≠ .off → ba.length = 24 → bb.length = 24 → ba.getLast? = some (Config.crcc (ba.take 23)) →
       bb.getLast? = some (Config.crcc (bb.take 23)) → (listGet 0 0 ba).getLsbD 1 = false → (listGet 0 0 bb).getLsbD 1 = false →
       ∃ t, exec (.aesCsBlock n ba bb true) s = .next t ∧ others t ∧ (aesOf t i).blocks = a.blocks + 1 ∧
         (∀ w : Fin 6, t.nat Ix.aesiCs (12 * i + w.val) = natLE ((ba.drop (4 * w.val)).take 4) ∧
           t.nat Ix.aesiCs (12 * i + 6 + w.val) = natLE ((bb.drop (4 * w.val)).take 4)) ∧
         t.nat Ix.aesiErrors (4 * i + 2) = s.nat Ix.aesiErrors (4 * i + 2)) ∧
     (d.run = .running → ∃ t, exec (.aesPreambleTimeout n) s = .next t ∧ others t ∧ (dirOf t k).run = .lost ∧
       (aesOf t i).blocks = 0 ∧ ∀ slot c, mapFind slot d.chans = some c →
         mapFind slot (dirOf t k).chans = some { c with svc := fadeOut c.svc, hold := true }) ∧
     (8192 ≤ a.quietA → a.nonAudioA = false → 8192 ≤ a.quietB → a.nonAudioB = false →
       ∃ t, exec (.aesNpcmReturn n) s = .next t ∧ others t ∧ aesOf t i = { a with npcmA := false, npcmB := false } ∧
         dirOf t k = d))

/-! ## Media network -/

/-- Streams (R238 to R243, R247, R248, R257, R260): the samples of a packet take their places in the ring of the stream its
leg belongs to, a ready packet leaves its port, a leg that is down is reported. The readings of log entries 41 and 42 are
the model's. -/
def Obligations.StreamPacketsArriveAndLeave : Prop :=
  ∀ (s : State) (port : Fin 4), s.boot.quiet = false →
    let p := port.val
    (∀ (k : NetPacket) r l first, linkUp s p = true → k.tagged = false → k.payload.length ≤ 1460 →
      isWatched s p k.src.toNat k.dst.toNat k.dport.toNat = false → packetHits s p k = [(r, l)] →
      r < 512 → packetOk s r k = true →
      let x := rxOf s r
      let n := perPacket s.cls x.fmt
      (∀ i, i < n → nearestSample (s.clk.tick * s.ticklen + k.sample) ((k.ts.toNat + i) % 4294967296) = some (first + i)) →
      (∀ i, i < n → s.clk.tick ≤ (first + i + x.offset) / s.ticklen) →
      first + n + x.offset ≤ (s.clk.tick - 3) * s.ticklen + ringSamples s.cls →
      (∀ i, i < n → mapFind (first + i + x.offset) x.got = none) →
      ∃ t, exec (.streamPacketReceived port k) s = .next t ∧
        (∀ i, i < n → mapFind (first + i + x.offset) (rxOf t r).got =
          some { raw := rawSample x.fmt i k.payload, stamp := k.stamp }) ∧
        (t.nat Ix.nrxState r).testBit (4 + l) = true ∧
        t.nat Ix.nrxStats (8 * r + l) = min (s.nat Ix.nrxStats (8 * r + l) + n) 0xFFFFFFFF ∧
        t.nat Ix.netPortCounts (8 * p) = min (s.nat Ix.netPortCounts (8 * p) + 1) 0xFFFFFFFF ∧
        (∀ j, j ≠ r → rxOf t j = rxOf s j) ∧ t.engines = s.engines ∧ t.lat = s.lat) ∧
    (∀ waited k rest, k.stream < 512 → k.leg < 2 → mapGet (fun _ => []) p s.net.ready = k :: rest →
      sendsPacket s k.stream k.first = true → linkUp s p = true → eventWaits s p = false → fwdOf s p = [] →
      ∃ t, exec (.streamPacketSent ⟨port, waited⟩) s = .next t ∧ t.out = s.out ++ [streamOutput s p k] ∧
        mapGet (fun _ => []) p t.net.ready = rest ∧
        t.nat Ix.ntxPackets (2 * k.stream + k.leg) = min (s.nat Ix.ntxPackets (2 * k.stream + k.leg) + 1) 0xFFFFFFFF ∧
        t.nat Ix.netPortCounts (8 * p + 1) = min (s.nat Ix.netPortCounts (8 * p + 1) + 1) 0xFFFFFFFF ∧ t.net.rx = s.net.rx ∧
        t.engines = s.engines ∧ ∀ a, memByte t a = memByte s a) ∧
    (∀ (r : Fin 512) (l : Fin 2), (rxOf s r.val).run ≠ .off → (s.nat Ix.nrxState r.val).testBit (4 + l.val) = true →
      exec (.legDown r l) s = .next ((s.setNat Ix.nrxState r.val (s.nat Ix.nrxState r.val - 2 ^ (4 + l.val))).alarm
        Al.netLegDown (streamDetail r.val l.val)))

/-- Software rings and forwarding (R235, R236, R251 to R254, R256): a frame reaches the buffer of the next descriptor of its
ring, a descriptor is handed over, the frame of a ring's next descriptor leaves, a chain forwards. The readings of log entries
43, 44, 122 and 123 are the model's. -/
def Obligations.RingFramesReachTheirBuffer : Prop :=
  ∀ s : State, s.boot.quiet = false →
    let ring (t : State) (i : Nat) : Ring := mapGet (fun _ => Ring.none) i t.net.rings
    let next (r : Ring) : Ring := { r with next := (r.next + 1) % r.size }
    (∀ (port : Fin 4) frame time (place : RingPlace) cls,
      let p := port.val
      let i := 4 * cls + p
      let r := ringAt s i place
      let d := r.base + 32 * r.next
      let buf := descBuffer s d
      linkUp s p = true → frame.length ≤ 1514 → etherType frame ≠ 0x8100 → streamFrame s p frame = false →
      ringClass s p frame = some cls → ringOk place = true → (bankWord s d).testBit 31 = true →
      frame.length ≤ bankWord s d / 65536 % 2048 → inBankB buf frame.length = true →
      (d + 32 ≤ buf ∨ buf + frame.length ≤ d) →
      ∃ t, exec (.ringFrameReceived port frame true time (some place)) s = .next t ∧
        (∀ i, i < frame.length → memByte t (buf + i) = listGet 0 i frame) ∧ (bankWord t d).testBit 31 = false ∧
        bankWord t d % 2048 = frame.length ∧ ring t i = next r ∧ (∀ j, j ≠ i → ring t j = ring s j) ∧
        (∀ k, (k < d ∨ d + 32 ≤ k) → (k < buf ∨ buf + frame.length ≤ k) → memByte t k = memByte s k) ∧
        t.nat Ix.netPortCounts (8 * p) = min (s.nat Ix.netPortCounts (8 * p) + 1) 0xFFFFFFFF ∧ t.engines = s.engines) ∧
    (∀ (n : Fin 32) (place : RingPlace) index osc,
      let i := 32 + n.val
      let d := place.base.toNat + 32 * index
      n.val < 16 → ringOk place = true → index < place.size →
      ∃ t, exec (.txDescriptorHandover n ⟨place, index⟩ osc) s = .next t ∧ (bankWord t d).testBit 31 = true ∧
        bankWord t d % 2147483648 = bankWord s d % 2147483648 ∧ ring t i = { ringAt s i place with osc := osc } ∧
        (∀ j, j ≠ i → ring t j = ring s j) ∧ (∀ k, (k < d ∨ d + 4 ≤ k) → memByte t k = memByte s k) ∧ t.out = s.out) ∧
    (∀ (n : Fin 32) time,
      let i := 32 + n.val
      let r := ring s i
      let d := r.base + 32 * r.next
      let w := bankWord s d
      let len := w % 2048
      let p := w / 2048 % 4
      let frame := memBytes s (descBuffer s d) len
      0 < r.size → w.testBit 31 = true → 60 ≤ len → len ≤ 1514 → linkUp s p = true → s.nat Ix.netPortAddr p ≠ 0 →
      inBankB (descBuffer s d) len = true → mustWait s p (eventFrame frame) = false → fwdOf s p = [] → w.testBit 13 = false →
      r.osc = false →
      ∃ t, exec (.ringFrameSent n ⟨time, false⟩) s = .next t ∧ t.out = s.out ++ [.netFrame p frame] ∧
        (bankWord t d).testBit 31 = false ∧ (bankWord t (d + 24)).testBit 18 = false ∧ bankWord t (d + 28) = 0 ∧
        ring t i = next r ∧ (∀ j, j ≠ i → ring t j = ring s j) ∧
        (∀ k, (k < d ∨ d + 32 ≤ k) → memByte t k = memByte s k)) ∧
    (∀ (port : Fin 4) frame res,
      let p := port.val
      let q := 5 - p
      let out := match ptpAt frame with
        | some o => if eventFrame frame then clearUdp (addCorrection frame o res) else frame
        | none => frame
      let queued : Nat := (fwdOf s q).foldl (fun n x => n + x.bytes.length) 0
      s.nat Ix.netPair1Mode = 1 → 2 ≤ p → linkUp s p = true → linkUp s q = true → chainForwards s p frame = true →
      frameRefused frame = false → s.nat Ix.netPortAddr q ≠ 0 →
      (fwdOf s q = [] → mustWait s q (eventFrame frame) = false →
        ∃ t, exec (.chainForward port frame res false) s = .next t ∧ t.out = s.out ++ [.netFrame q out] ∧
        t.nat Ix.netPortCounts (8 * p + 5) = min (s.nat Ix.netPortCounts (8 * p + 5) + 1) 0xFFFFFFFF ∧
        t.net = s.net ∧ t.engines = s.engines) ∧
      (queued + frame.length ≤ 262144 → ∃ t, exec (.chainForward port frame res true) s = .next t ∧ t.out = s.out ∧
        fwdOf t q = fwdOf s q ++ [{ bytes := frame, residence := res }] ∧ t.engines = s.engines) ∧
      (262144 < queued + frame.length → ∃ t, exec (.chainForward port frame res true) s = .next t ∧ t.out = s.out ∧
        t.net = s.net ∧ t.nat Ix.netPortCounts (8 * p + 6) = min (s.nat Ix.netPortCounts (8 * p + 6) + 1) 0xFFFFFFFF))

/-- ARP, IGMP and links of the media ports (R236, R250, R257). The reading of log entry 45 is the model's. -/
def Obligations.LinksAndGroupsAreReported : Prop :=
  ∀ (s : State) (port : Fin 4),
    let p := port.val
    let sends (j : Nat) : Bool := linkUp s j && s.nat Ix.netPortAddr j != 0
    let reports (gs : List (Nat × Nat × Nat)) : List Output :=
      (gs.filter (fun g => sends g.1)).map (fun g => .igmp g.1 g.2.1 g.2.2 true)
    (s.boot.quiet = false → linkUp s p = true → s.nat Ix.netPortAddr p ≠ 0 → s.nat Ix.netPortAddr p < 4294967296 →
      ∃ t, exec (.mediaArpRequest port (BitVec.ofNat 32 (s.nat Ix.netPortAddr p))) s = .next t ∧
        t.out = s.out ++ [.mediaArp p (s.nat Ix.netPortAddr p) false] ∧ t.net = s.net ∧ t.engines = s.engines ∧
        t.nat Ix.netPortCounts (8 * p + 1) = min (s.nat Ix.netPortCounts (8 * p + 1) + 1) 0xFFFFFFFF) ∧
    (∀ (group : BitVec 32) (sources : List (BitVec 32)), s.boot.quiet = false → sends p = true →
      let here := (joinedGroups s).filter (fun g => g.1 == p)
      let ask := sources.map (fun a => a.toNat)
      let answer (g : Nat) : List Output :=
        let mine := (here.filter (fun h => h.2.1 == g)).map (fun h => h.2.2)
        let all := mine.contains 0
        let both := if all then ask else mine.filter (fun a => ask.contains a)
        if ask = [] then [.igmpState p g (if all then [] else mine) all]
        else if both = [] then [] else [.igmpState p g both false]
      ∃ t, exec (.igmpQuery port ⟨group, sources⟩) s = .next t ∧ t.out = s.out ++
        (((here.filter (fun g => group == 0 || g.2.1 == group.toNat)).map (fun g => g.2.1)).eraseDups).flatMap answer ∧
        t.net = s.net ∧ t.engines = s.engines) ∧
    (∀ r : Fin 512, s.boot.quiet = false → (rxOf s r.val).run ≠ .off → (rxOf s r.val).repeatDue ≠ [] →
      ∃ t, exec (.igmpRepeat r false) s = .next t ∧ rxOf t r.val = { rxOf s r.val with repeatDue := [] } ∧
        t.out = s.out ++ reports (rxOf s r.val).repeatDue ∧
        (∀ j, j ≠ r.val → rxOf t j = rxOf s j) ∧ t.engines = s.engines) ∧
    (∀ r : Fin 512, s.boot.quiet = false → s.net.watchDue.contains r.val = true → (watchedStreams s).contains r.val = true →
      ∃ t, exec (.igmpRepeat r true) s = .next t ∧ t.out = s.out ++ reports (watchGroupsOf s r.val) ∧
        t.net.watchDue = s.net.watchDue.filter (fun k => k != r.val) ∧ t.net.rx = s.net.rx ∧ t.engines = s.engines) ∧
    (linkUp s p = true →
      ∃ t, exec (.linkDownDeclared port) s = .next t ∧ t.nat Ix.netLink p = 0 ∧ mapGet (fun _ => []) p t.net.ready = [] ∧
        (∀ j, j ≠ p → mapGet (fun _ => []) j t.net.ready = mapGet (fun _ => []) j s.net.ready) ∧
        t.net.rx = s.net.rx ∧ t.net.tx = s.net.tx ∧ t.engines = s.engines ∧ t.lat = s.lat ∧ t.out = s.out) ∧
    (s.nat Ix.netPortSpeed p ≠ 0 →
      ∃ t, exec (.linkUpDeclared port) s = .next t ∧ t.nat Ix.netLink p = (if s.nat Ix.netPortSpeed p = 1 then 1 else 2) ∧
        t.net.rx = s.net.rx ∧ t.net.tx = s.net.tx ∧ t.net.ready = s.net.ready ∧ t.engines = s.engines ∧ t.lat = s.lat ∧
        t.out = s.out)

/-! ## Time, triggers and references -/

/-- The time base (R262 to R266, R293): a measurement of a candidate that is not active only reports; one of the active
reference sets the frequency part of the rate; the slew part stays within the bounds of R266 as time passes; the first step
sets TIME80 to the reference time and leaves no commit pending. The readings of log entries 7 and 31 are the model's. -/
def Obligations.TimeBaseFollowsItsReference : Prop :=
  ∀ (s : State) (ref : Fin 6) (offset est : Int) (cycles : Option Nat),
    let k := ref.val
    let c := candOf s k
    let rest (t : State) : Prop := t.engines = s.engines ∧ t.lat = s.lat ∧ t.out = s.out ∧ t.clk = s.clk
    let coherent : Prop := k = 4 → ∀ n, cycles = some n → 9999980 ≤ n ∧ n ≤ 10000020
    (carriesTime k = false → activeRef s ≠ some k → coherent → (c.present = true ∨ c.coarse = false) →
      let x : Int := match c.phases with
        | (_, p) :: _ => p + reducePhase s k (offset - p)
        | [] => offset
      let phases := filterKeeps s k ((s.clk.sysCounter, x) :: c.phases)
      ∃ t, exec (.timeMeasurement ref offset est cycles) s = .next t ∧ rest t ∧ t.tim = s.tim ∧ (candOf t k).present = true ∧
        (candOf t k).phases = phases ∧ t.int Ix.refPhase k = hold32 (reducePhase s k (meanOf (phases.map (fun q => q.2)))) ∧
        ∀ j, j ≠ k → candOf t j = candOf s j) ∧
    (¬ coherent → c.present = true → ∃ t, exec (.timeMeasurement ref offset est cycles) s = .next t ∧ rest t ∧ t.tim = s.tim ∧
      (candOf t k).present = false ∧ refState t k = 0 ∧ ∀ j, j ≠ k → candOf t j = candOf s j) ∧
    (∀ x, carriesTime k = true → activeRef s = some k → c.present = true → c.fresh = some x → s.ref.reacq = false →
      let net := x - (s.ref.build + s.ref.step) / 2 ^ 48
      ∃ t, exec (.timeMeasurement ref offset est cycles) s = .next t ∧ rest t ∧ candOf t k = { c with fresh := none } ∧
        t.tim.t = s.tim.t ∧ t.tim.lastOff = x ∧ t.int Ix.timeOffset 0 = max (-2147483647) (min 2147483647 net) ∧
        t.tim.est = est ∧ t.tim.slew = s.tim.slew ∧ t.tim.rho = clampRho (est + s.tim.slew) ∧
        t.int Ix.timeRate 0 = t.tim.rho * 1000000000000 / 2 ^ 48 ∧
        (net.natAbs ≤ s.nat Ix.timeLockLimit → s.nat Ix.timeState = 1 → s.tim.within < 15 →
          t.nat Ix.timeState = 1 ∧ t.tim.within = s.tim.within + 1) ∧
        (net.natAbs ≤ s.nat Ix.timeLockLimit → s.nat Ix.timeState = 1 → s.tim.within = 15 → t.nat Ix.timeState = 2) ∧
        (s.nat Ix.timeLockLimit < net.natAbs → s.nat Ix.timeState = 2 → s.tim.beyond = 15 → t.nat Ix.timeState = 1)) ∧
    (∀ n, s.tim.aim = none → s.tim.slew.natAbs ≤ slewMax s → (s.tim.est.natAbs : Int) + s.tim.slew.natAbs ≤ rhoMax →
      let t := timePass s n
      t.clk.sysCounter = s.clk.sysCounter + n ∧ t.tim.t = s.tim.t + (n * (2 ^ 48 + s.tim.rho) / 2 ^ 16).toNat ∧
        t.tim.slew.natAbs ≤ slewMax s ∧ (t.tim.slew - s.tim.slew).natAbs ≤ slopeOver s n ∧
        t.ref.stepLeft.natAbs ≤ (s.ref.stepLeft - s.tim.slew * n).natAbs ∧ t.engines = s.engines ∧ t.lat = s.lat) ∧
    (∀ off, s.tim.firstDue = some off → s.tim.stepped = false → s.tim.firstHeld = false → commitBetween s = false →
      ∃ t, exec .timeFirstStep s = .next t ∧ t.shut.pend = [] ∧ (s.shut.pend = [] → s.rsv.move = none → rest t) ∧
        t.tim.t = refTime s off ∧ t.tim.stepped = true ∧
        t.tim.firstDue = none ∧ t.tim.rho = clampRho s.tim.est ∧ t.nat Ix.timeState = 1 ∧ t.int Ix.timeOffset 0 = 0)

/-- PTP (R269 to R272): Syncs measure on the slave and the passive leg, Announces feed the choice of master, a silent leg has
no master. The reading of log entry 47 is the model's. -/
def Obligations.PtpMessagesMoveTheirInstance : Prop :=
  ∀ (s : State) (inst leg : Fin 2), s.boot.quiet = false →
    let i := inst.val
    let k := 2 * i + leg.val
    let p := ptpOf s i
    let data (x : State) : Option PtpData := if leg.val = 0 then (ptpOf x i).legA else (ptpOf x i).legB
    let rest (t : State) : Prop := (∀ j, j ≠ i → ptpOf t j = ptpOf s j) ∧ t.engines = s.engines ∧ t.lat = s.lat ∧ t.out = s.out
    (∀ (domain : Byte) (offset : Int) delay diff, domain.toNat = s.nat Ix.ptpDomain i →
      let x := offset - s.int Ix.ptpAsym k
      let measured (t : State) : Prop := t.int Ix.ptpOffset k = hold32 x ∧ t.nat Ix.ptpPathDelay k = min delay 0xFFFFFFFF ∧
        (ptpOf t i).diff = diff
      (p.slave = leg.val → ptpLegState s i p p.slave leg.val = 9 → ((candOf s i).present = true ∨ (candOf s i).coarse = false) →
        ∃ t, exec (.ptpSyncReceived inst leg domain offset delay diff) s = .next t ∧ rest t ∧ measured t ∧
          (ptpOf t i).valid = true ∧ (t.nat Ix.ptpState i).testBit 9 = true ∧ (candOf t i).fresh = some (x + p.bias)) ∧
      (p.slave ≠ leg.val → ptpLegState s i p p.slave leg.val = 7 →
        ∃ t, exec (.ptpSyncReceived inst leg domain offset delay diff) s = .next t ∧ rest t ∧ measured t ∧ t.ref = s.ref)) ∧
    (∀ (a : Announce) b, a.domain.toNat = s.nat Ix.ptpDomain i → s.nat Ix.ptpRole i ≠ 0 → s.nat Ix.ptpRole i ≠ 3 →
      linkUp s k = true → a.sender.toNat ≠ ptpIdentity s i → a.tlv = some b →
      ∃ t, exec (.ptpAnnounceReceived inst leg a) s = .next t ∧ rest t ∧ data t = some (announceData a) ∧
        t.obj Ix.ptpSmRx i = .bytes b) ∧
    ((data s).isSome = true →
      ∃ t, exec (.ptpAnnounceTimeout inst leg) s = .next t ∧ rest t ∧ data t = none ∧ (ptpOf t i).slave ≠ leg.val)

/-- Triggers and captures (R273 to R277). The reading of log entry 49 is the model's. -/
def Obligations.TriggersFireAndCapturesStamp : Prop :=
  ∀ s : State,
    (∀ (trig : Fin 8) set x k old, s.tim.touched = [] → trigNext s trig.val = some (set, x, k, old) →
      ∃ t, exec (.trigEdge trig) s = .next t ∧ t.obj Ix.trigLast trig.val = timeVal (x / s.fs) ∧
        t.nat Ix.trigCount trig.val = min (s.nat Ix.trigCount trig.val + 1) 0xFFFFFFFF ∧
        t.out = (if set.cfg.testBit 1 = false ∨ s.isDoor = true then
          s.out ++ [.trigger trig.val true (!set.cfg.testBit 0) (placeQuarter s x) (!set.cfg.testBit 2)] else s.out) ∧
        (k = none → old = false → s.nat Ix.trigState trig.val = 1 → t.nat Ix.trigState trig.val = 2) ∧
        (∀ n, k = some n → (trigOf t trig.val).lastTick = some n) ∧ (∀ j, j ≠ trig.val → trigOf t j = trigOf s j) ∧
        t.engines = s.engines ∧ t.lat = s.lat) ∧
    (∀ (trig : Fin 8) q,
      let g := trigOf s trig.val
      let s1 := setTrig s trig.val { g with pulse := none }
      let s2 := if g.driven = true then s1.emit (.trigger trig.val false (g.pcfg.testBit 0) q (!g.pcfg.testBit 2)) else s1
      g.pulse = some q → exec (.trigPulseEnd trig) s = .next (if g.pcfg.testBit 0 = g.cur.cfg.testBit 0 then s2
        else s2.emit (.trigRest trig.val ((s.nat Ix.trigCfg trig.val).testBit 0)))) ∧
    (∀ (input : Fin 4) rising (quarter : Nat),
      let c := input.val
      let q := s.nat Ix.captSeq c
      let slot := 16 * c + q % 16
      let r := mapGet (fun _ => Capt.reset) c s.tim.capts
      (s.nat Ix.captEn c).testBit (if rising = true then 0 else 1) = true →
      ((∀ was, r.stamp = some was → was + 4000 ≤ (quarter : Int)) →
        ∃ t, exec (.captEdgeStamp input rising quarter) s = .next t ∧ t.obj Ix.captLog slot = timeVal (quarter / 4) ∧
          t.nat Ix.captEdge slot = (if rising = true then 1 else 0) + 2 * (quarter % 4) ∧
          t.nat Ix.captSeq c = (q + 1) % 4294967296 ∧ t.nat Ix.captDrops c = s.nat Ix.captDrops c ∧
          t.engines = s.engines ∧ t.lat = s.lat ∧ t.out = s.out) ∧
      (∀ was, r.stamp = some was → (quarter : Int) < was + 4000 →
        ∃ t, exec (.captEdgeStamp input rising quarter) s = .next t ∧
          t.nat Ix.captDrops c = min (s.nat Ix.captDrops c + 1) 0xFFFFFFFF ∧ t.nat Ix.captSeq c = q ∧
          (∀ j, j < 64 → t.obj Ix.captLog j = s.obj Ix.captLog j) ∧ t.engines = s.engines ∧ t.lat = s.lat ∧ t.out = s.out))

/-- Candidates (R281, R285, R286, R290, R295): their averages, their absence and qualification, the holdover oscillator. The
reading of log entry 48 is the model's. -/
def Obligations.CandidatesAreJudged : Prop :=
  ∀ s : State,
    let rest (t : State) : Prop := t.engines = s.engines ∧ t.lat = s.lat ∧ t.out = s.out ∧ t.clk = s.clk
    (∀ (avgs : List (Option Int)) osc, ∃ t, exec (.refSecondAverage avgs osc) s = .next t ∧ rest t ∧ t.ref.osc = osc ∧
      t.ref.switched = false ∧ ∀ (k : Fin 6) a, listGet none k.val avgs = some a →
        (coarseWin k.val < a.natAbs → (candOf t k.val).present = false ∧ t.int Ix.refFreq k.val = hold32 a ∧
          refState t k.val = 0) ∧
        (a.natAbs ≤ coarseWin k.val → (carriesTime k.val = false ∨ (candOf s k.val).present = true) →
          (candOf t k.val).present = true ∧ (candOf t k.val).avgs = (a :: (candOf s k.val).avgs).take 10 ∧
          t.int Ix.refFreq k.val = hold32 a)) ∧
    (∀ ref : Fin 6,
      let k := ref.val
      (candOf s k).present = true → ∃ t, exec (.refAbsent ref) s = .next t ∧ rest t ∧ t.tim = s.tim ∧
        (candOf t k).present = false ∧ refState t k = 0 ∧ (∀ j, j ≠ k → candOf t j = candOf s j) ∧
        (refState s k ≠ 0 → t.nat Ix.refState k = 16 ∧ t.nat Ix.refQl k = 15)) ∧
    (∀ ref : Fin 6,
      let k := ref.val
      let s1 := s.setNat Ix.refQl k (levelOf s k)
      refState s k = 1 → (candOf s k).present = true → (candOf s k).avgs ≠ [] → refReason s1 k = none →
        (candOf s k).since + s.nat Ix.refQualTime * 1000000000 ≤ s.clk.sysCounter →
        exec (.refQualified ref) s = .next (setRefState s1 k 2)) ∧
    (inHoldover s = true → s.ref.specOver = false → ∃ t, exec .refHoldSpecExpiry s = .next t ∧ rest t ∧ t.tim.t = s.tim.t ∧
      t.tim.rho = s.tim.rho ∧ t.ref.specOver = true ∧ t.nat Ix.refOwnQl = 11) ∧
    (s.nat Ix.refHoldOsc ≠ 0 → s.ref.oscLost = false → ∃ t, exec .holdOscActivityLoss s = .next t ∧ rest t ∧
      t.ref = { s.ref with oscLost := true } ∧ (inHoldover s = true → t.tim.est = holdRate t) ∧
      (inHoldover s = false → t.tim = s.tim)) ∧
    (s.ref.oscLost = true → ∃ t, exec .holdOscReturn s = .next t ∧ rest t ∧ t.ref = { s.ref with oscLost := false } ∧
      (inHoldover s = true → t.tim.est = holdRate t) ∧ (inHoldover s = false → t.tim = s.tim))

/-! ## Clock synthesis -/

/-- System PLLs (R301 to R303): a loss is counted, the hot leaf takes over, the third loss in 24 hours fails the PLL, and with
both lost every output is silent for good. Media synthesizers, ramp profiles and SYNC (R307 to R310, R313, R316, R317).
The readings of log entries 50 and 51 are the model's. -/
def Obligations.ClocksFollowTheirEvents : Prop :=
  (∀ (s : State) (pll : Fin 2),
     let p := pll.val
     let recent := (mapGet (fun _ => []) p s.syn.losses).filter (fun t => decide (s.clk.sysCounter ≤ t + day))
     let down := if 2 ≤ recent.length then 4 else 1
     let counted (t : State) : Prop := t.nat Ix.syspllLosses p = min (s.nat Ix.syspllLosses p + 1) 0xFFFFFFFF
     (pllState s p = 2 →
       ∃ t, exec (.syspllLossOfLock pll) s = .next t ∧ counted t ∧ pllState t p = down ∧ pllState t (1 - p) = pllState s (1 - p) ∧
         t.nat Ix.syspllActive = s.nat Ix.syspllActive ∧ t.tim = s.tim ∧ t.engines = s.engines ∧ t.out = s.out) ∧
     (pllState s p = 3 → pllState s (1 - p) = 2 →
       ∃ t, exec (.syspllLossOfLock pll) s = .next t ∧ counted t ∧ pllState t p = down ∧ pllState t (1 - p) = 3 ∧
         t.nat Ix.syspllActive = 1 - p ∧ s.tim.t ≤ t.tim.t ∧ t.tim.t ≤ s.tim.t + nsUnit ∧ t.engines = s.engines ∧
         t.lat = s.lat ∧ t.out = s.out) ∧
     (pllState s p = 3 → pllState s (1 - p) ≠ 2 → s.syn.dead = false →
       ∃ t, exec (.syspllLossOfLock pll) s = .next t ∧ counted t ∧ t.syn.dead = true ∧ t.lat.seq = Fade.silent ∧
         t.clk.seq = .stopped ∧ t.nat Ix.pairRole = 0 ∧ Output.silence ∈ t.out) ∧
     (pllState s p = 1 → ∃ t, exec (.syspllHotLeafReady pll) s = .next t ∧ pllState t p = 2 ∧
       pllState t (1 - p) = pllState s (1 - p) ∧ t.nat Ix.syspllActive = s.nat Ix.syspllActive ∧
       (t.nat Ix.rsvLeaves).testBit 5 = true ∧ t.nat Ix.rsvLeaves % 32 = s.nat Ix.rsvLeaves % 32 ∧
       t.nat Ix.rsvLeaves / 64 = s.nat Ix.rsvLeaves / 64 ∧ t.tim = s.tim ∧ t.engines = s.engines)) ∧
  (∀ s : State,
     (∀ (syn : Fin 4) (band : BitVec 12) drops,
       let i := syn.val
       ((s.nat Ix.medsynState i = 2 ∨ s.nat Ix.medsynState i = 4) → exec (.medsynLockDeclared syn band drops) s =
         .next ((fenceDrops s i drops).setNat Ix.medsynState i 3)) ∧
       (∀ slot slots, slot < 8 → s.nat Ix.medsynState i = 1 → slotOrder s i = slot :: slots →
         ∃ t, exec (.medsynLockDeclared syn band drops) s = .next t ∧ t.nat Ix.medsynState i = 3 ∧
           t.nat Ix.medsynBandmem (8 * i + slot) =
             band.toNat + 4096 * (s.nat Ix.medsynFamily i % 2) + 8192 + 65536 * (dieCode s % 256) ∧
           slotOrder t i = slots.filter (fun k => k != slot) ++ [slot] ∧
           t.nat Ix.medsynFenceDrops i = min (s.nat Ix.medsynFenceDrops i + drops) 0xFFFFFFFF ∧ t.engines = s.engines)) ∧
     (∀ (syn : Fin 4) drops,
       let i := syn.val
       (s.nat Ix.medsynState i = 3 → ∃ t, exec (.medsynLossOfLock syn drops) s = .next t ∧ t.nat Ix.medsynState i = 4 ∧
         t.nat Ix.medsynFenceDrops i = min (s.nat Ix.medsynFenceDrops i + drops) 0xFFFFFFFF ∧ t.syn = s.syn ∧
         t.engines = s.engines ∧ t.out = s.out) ∧
       (s.nat Ix.medsynState i = 2 → exec (.hopTimeout syn drops) s =
         .next (fenceDrops (s.setNat Ix.medsynState i 1) i drops))) ∧
     (∀ (syn : Fin 2) (drops : Nat) (r : Ramp) seg rest,
       let i := syn.val
       mapFind i s.syn.ramps = some r → r.segs = seg :: rest → segEnd r seg < boundaryAt s (s.tick + 1) →
       ∃ t, exec (.rampSegmentEnd ⟨syn, drops⟩) s = .next t ∧
         t.nat Ix.medsynFenceDrops (i + 2) = min (s.nat Ix.medsynFenceDrops (i + 2) + drops) 0xFFFFFFFF ∧ t.tim = s.tim ∧ t.engines = s.engines ∧ t.out = s.out ∧
         (rest = [] → mapFind i t.syn.ramps = none ∧ t.int Ix.medsynOffsetNow (i + 2) = seg.1 ∧ t.nat Ix.rampState i % 16 = 0) ∧
         (rest ≠ [] → mapFind i t.syn.ramps =
           some { segs := rest, index := r.index + 1, start := seg.1, since := segEnd r seg } ∧
           t.nat Ix.rampState i = 1 + 16 * ((r.index + 1) % 16))) ∧
     (∀ falling quarter held wrong,
       let mode := s.nat Ix.clkSyncMode
       mode % 4 ≠ 0 → falling = mode.testBit 7 → s.nat Ix.clkSyncDebounce ≤ held →
       (s.nat Ix.clkSyncState = 1 → ∃ t, exec (.syncEdge falling quarter held wrong) s = .next t ∧
         t.obj Ix.clkSyncLast 0 = timeVal (quarter / 4) ∧ t.nat Ix.clkSyncState = (if mode % 4 = 2 then 2 else 0) ∧
         t.tim = s.tim ∧ t.syn = { s.syn with aligned := t.syn.aligned } ∧ t.engines = s.engines ∧ t.lat = s.lat) ∧
       (s.nat Ix.clkSyncState ≠ 1 → exec (.syncEdge falling quarter held wrong) s = .next (s.addHold Ix.clkSyncIgnored 0 1))) ∧
     (s.nat Ix.clkSyncState = 2 → exec .syncHoldOffEnd s =
       .next (s.setNat Ix.clkSyncState 0 (if s.nat Ix.clkSyncMode % 4 = 2 then 1 else 0))))

/-! ## Redundant pairs -/

/-- The heartbeat and the lanes of the link (R322 to R324, R329, R331, R344, R391, R393). The readings of log entries 36 and
77 are the model's. A lane found failed moves at a boundary after the report (R323). -/
def Obligations.HeartbeatsAndLanesAreWatched : Prop :=
  ∀ s : State, s.paired = true →
    (∀ (beat : Beat) offset lanes, s.boot.stage = 7 → beat.pairId.toNat = s.nat Ix.pairId →
      beat.role.toNat / 16 % 2 ≠ s.nat Ix.seat → s.pair.replies = [] →
      (s.ctl.serving.isSome = true ∨ nextQueued (hpTake s) = none) →
      ∃ t, exec (.heartbeat beat true offset lanes) s = .next t ∧ t.nat Ix.pairPeerRole = beat.role.toNat ∧
        t.nat Ix.pairPeerGen = beat.gen.toNat ∧ t.nat Ix.pairPeerId = beat.uniqueId.toNat ∧ t.pair.beat = true ∧
        t.pair.missed = 0 ∧ t.pair.lost = false ∧ t.pair.beatTick = some s.clk.tick ∧ t.pair.peerTick = beat.tick ∧
        (candOf t 5).quality = beat.quality.toNat ∧ (candOf t 5).present = true ∧ t.clk = s.clk) ∧
    (∀ (beat : Beat) offset lanes, s.boot.stage = 7 →
      (beat.pairId.toNat ≠ s.nat Ix.pairId ∨ beat.role.toNat / 16 % 2 = s.nat Ix.seat) →
      exec (.heartbeat beat true offset lanes) s = .next (s.alarm Al.pairMismatch)) ∧
    (s.pair.lost = false → 4 ≤ s.pair.missed → (∀ r ∈ s.pair.replies, r.next.reset = false) →
      (s.ctl.serving.isSome = true ∨ (s.ctl.queue = [] ∧ s.hp.busy = false)) →
      ∃ t, exec .heartbeatLoss s = .next t ∧ t.pair.lost = true ∧ t.pair.replies = [] ∧
        (∀ r ∈ s.pair.replies, r.udp = true → Output.ctlFrame .udp r.peer r.port r.bytes ∈ t.out) ∧
        (t.nat Ix.pairLink).testBit 7 = false ∧ (candOf t 5).present = false ∧
        t.pair.nextAsk = s.clk.tick + (if s.isDoor = true then 0 else s.nat Ix.pairClaimDelay) ∧
        (t.nat Ix.pairEvidence).testBit 0 = true ∧ t.nat Ix.pairRole = s.nat Ix.pairRole ∧ t.engines = s.engines ∧
        t.lat = s.lat) ∧
    (let again (u : Unacked) : Output := match u.bulk with
       | some part => .bulk 1 u.seq u.tick part
       | none => .unrus u.ty 1 u.seq u.tick u.payload
     s.pair.unacked ≠ [] → s.pair.ackTick + 2 ≤ s.clk.tick → exec .unrusRetransmit s =
       .next { s with out := s.out ++ (s.pair.unacked.filter (fun u => u.sent)).map again, pair := { s.pair with ackTick := s.clk.tick } }) ∧
    (∀ lane : Fin 3,
      let others (t : State) : Prop := ∀ k, k < 3 → k ≠ lane.val → (lanesFailed t).testBit k = (lanesFailed s).testBit k
      ((lanesFailed s).testBit lane.val = false →
        exec (.unrusLaneFailure lane) s =
          .next { s with pair := { s.pair with laneSeen := s.pair.laneSeen ||| 2 ^ lane.val } } ∧
        (s.pair.laneDue = 2 ^ lane.val →
          let t := moveLanes s
          (lanesFailed t).testBit lane.val = true ∧ (t.nat Ix.pairLink).testBit lane.val = false ∧ others t ∧
            (t.nat Ix.rsvLeaves).testBit 6 = false ∧ t.pair = { s.pair with laneDue := 0 } ∧ t.engines = s.engines ∧
            t.out = s.out)) ∧
      ((lanesFailed s).testBit lane.val = true →
        ∃ t, exec (.unrusLaneRestore lane) s = .next t ∧ (lanesFailed t).testBit lane.val = false ∧
          (t.nat Ix.pairLink).testBit lane.val = true ∧ others t ∧ (t.nat Ix.rsvLeaves).testBit 6 = (lanesFailed t == 0) ∧
          t.pair = s.pair ∧ t.engines = s.engines ∧ t.out = s.out))

/-- Mirror records (R322, R330, R332, R333, R341, R342): a record that comes in order to a STANDBY is applied. The readings of
log entries 60 and 76 are the model's. -/
def Obligations.MirrorRecordsAreApplied : Prop :=
  ∀ (s : State) (f : LinkRec), s.paired = true → s.boot.quiet = false → f.first = true → f.good = true →
    f.seq = (s.pair.seqIn + 1) % 4294967296 →
    let p1 : PairSt := { s.pair with seqIn := f.seq, frameOk := true }
    let s1 : State := { s with pair := p1 }
    (s.nat Ix.pairRole = 2 →
      (∀ gen tick (w : WireVal) v, valOf w = some v → isPairObj w.index.toNat = true → s.clk.tick < tick →
        exec (.mirrorWrite f gen tick w) s = .next { s1 with writes := s.writes ++
          [{ ix := w.index.toNat, sub := w.sub, val := v, mbox := none, after := tick, gen := some gen, priv := 2 }] }) ∧
      (∀ tick set slot ws, mapFind set s.shut.sets = none →
        ∃ t, exec (.mirrorStage f tick set slot ws) s = .next t ∧
          mapFind set t.shut.sets = some { session := 0, changes := (changesOf ws).foldl putChange [] } ∧
          mapFind set t.pair.orphans = some (some slot) ∧ t.shut.pend = s.shut.pend ∧ t.engines = s.engines) ∧
      (∀ tick set reason id, ∃ t, exec (.mirrorSetEnd f tick set reason id) s = .next t ∧ mapFind set t.shut.sets = none ∧
        mapFind set t.pair.orphans = none ∧ t.shut.pend = s.shut.pend ∧ t.engines = s.engines) ∧
      (∀ tick id set land (x : StageSet), mapFind set s.shut.sets = some x → s.clk.tick + 1 < land →
        ∃ t p, exec (.mirrorCommit f tick id set land) s = .next t ∧ t.shut.pend = s.shut.pend ++ [p] ∧ p.id = id ∧
          p.tick = land ∧ p.changes = x.changes ∧ p.mirrored = true ∧ t.shut.nextId = (id + 1) % 4294967296 ∧
          t.writes = s.writes ∧ t.engines = s.engines) ∧
      (∀ tick id (e : EndCode) g, s.pair.results.find? (fun r => r.1 == id) = some (id, e.code, g) →
        let s2 : State := { s with pair := { p1 with results := s.pair.results.filter (fun q => q.1 != id) } }
        exec (.mirrorCommitEnd f tick id e) s =
          .next (if e.code = 0 ∧ g = s.nat Ix.shutGen ∧ e.gen ≠ g then setGen s2 e.gen else s2)) ∧
      (∀ tick xp sample event cur, event ≠ 2 →
        let x := xpOf s xp
        ∃ t, exec (.mirrorXpStep f tick xp sample event cur) s = .next t ∧
          xpOf t xp = xpSettle { x with cur := cur, rem := if cur = x.tgt then 0 else x.rem } ∧
          (∀ j, j ≠ xp → xpOf t j = xpOf s j) ∧ t.engines = s.engines ∧ t.lat = s.lat) ∧
      (∀ tick place base words, exec (.mirrorGr f tick place base words) s =
        .next { s with pair := { p1 with gr := mapPut place (base, words) s.pair.gr } }) ∧
      (∀ tick crcs, (s.pair.swap = none → exec (.mirrorPlaceCrc f tick crcs) s =
          .next { s with pair := { p1 with theirCrcs := some (tick, crcs) } }) ∧
        (∀ w place, s.pair.swap = some w → tick = s.pair.crcTick → place < 16 →
          mapGet (fun _ => (0 : Word)) place s.pair.crcs ≠ 0 → listGet (0 : Word) place crcs ≠ 0 →
          mapGet (fun _ => (0 : Word)) place s.pair.crcs ≠ listGet 0 place crcs →
          ∃ t, exec (.mirrorPlaceCrc f tick crcs) s = .next t ∧ t.pair.theirCrcs = none ∧
            t.nat Ix.pairWarmDiff place = min (s.nat Ix.pairWarmDiff place + 1) 0xFFFFFFFF)) ∧
      (∀ gen tick index sub len hash, bulkValue s index sub len hash = none →
        exec (.mirrorDomain f gen tick index sub len hash) s =
          .next { s with pair := { p1 with held := s.pair.held ++ [.domain gen tick index sub len hash] } }) ∧
      (∀ gen tick index sub len hash d, bulkValue s index sub len hash = some d → isPairObj index = true → s.clk.tick < tick →
        exec (.mirrorDomain f gen tick index sub len hash) s = .next { s1 with writes := s.writes ++
          [{ ix := index, sub := sub, val := .bytes d, mbox := none, after := tick, gen := some gen, priv := 2 }] }) ∧
      (∀ index sub data, s.pair.held = [] → exec (.bulk f (.domain index sub data)) s =
        .next { s with pair := { p1 with parts := s.pair.parts ++ [.domain index sub data] } })) ∧
    (s.nat Ix.pairRole = 1 → s.pair.tries ≤ 3 →
      ∀ gen, exec (.bulk f (.start gen)) s =
        .next { s with pair := { p1 with parts := [.start gen], held := [], snapTaken := false } })

/-- Digests (R334, R342): the door-holder sends its digest of a generation; the partner keeps it, compares, becomes STANDBY
where they agree and resyncs where they do not. The reading of log entry 75 is the model's. -/
def Obligations.DigestsAreExchangedAndCompared : Prop :=
  ∀ s : State,
    (∀ (f : LinkRec) gen hash, s.paired = true → s.boot.quiet = false → s.nat Ix.pairRole = 2 → f.first = true →
      f.good = true → f.seq = (s.pair.seqIn + 1) % 4294967296 →
      ∃ t, exec (.digest f gen hash) s = .next t ∧ t.pair.theirs = some (gen, hash) ∧ t.pair.seqIn = f.seq ∧
        (s.nat Ix.shutGen ≠ gen → t.pair.past = s.pair.past) ∧ t.dict = s.dict ∧ t.engines = s.engines) ∧
    (∀ g d, s.isDoor = true → s.pair.asked = some g → s.pair.past.find? (fun p => p.1 == g) = some (g, d) →
      s.pair.unacked.all (fun u => u.sent) = true → bankUsed s.pair.unacked + 24 + d.length ≤ 4194304 →
      ∃ t, exec .mirrorDigestComplete s = .next t ∧ t.obj Ix.pairDigest 0 = .bytes d ∧ t.nat Ix.pairDigestGen = g ∧
        t.pair.asked = none ∧ t.pair.digestAt = some s.clk.tick ∧
        t.out = s.out ++ [.unrus 5 0 ((s.pair.seqOut + 1) % 4294967296) s.clk.tick (bytesLE 4 g ++ d)] ∧ t.engines = s.engines) ∧
    (∀ g d h, standsBy s = true → s.pair.theirs = some (g, h) → s.pair.past.find? (fun p => p.1 == g) = some (g, d) →
      ∃ t, exec .mirrorDigestComplete s = .next t ∧ t.obj Ix.pairDigest 0 = .bytes d ∧ t.nat Ix.pairDigestGen = g ∧
        t.flag Ix.pairDigestOk = (d == h) ∧ t.pair.theirs = none ∧
        t.nat Ix.pairRole = (if d = h then 2 else 1)) ∧
    (s.paired = true → s.isDoor = true → s.nat Ix.pairAuditPeriod ≠ 0 → peerRole s = 2 → s.pair.asked = none →
      ∃ t, exec .auditTimer s = .next t ∧ t.pair.asked = some (s.nat Ix.shutGen) ∧ t.dict = s.dict ∧ t.out = s.out ∧
        t.engines = s.engines)

/-- Evidence, the witness and takeovers (R335 to R338, R340): a standby takes the door on heartbeat loss with absent streams
or a GRANT, and never without; a door-holder told to yield gives it away at the next boundary. The readings of log entries
62 and 73 are the model's. -/
def Obligations.DoorPassesOnEvidenceOnly : Prop :=
  ∀ s : State,
    (ticksRun s = true → s.paired = true → s.nat Ix.pairRole = 2 → s.pair.lost = true →
      (streamsAbsent s = true ∨ granted s = true) → ∃ t, exec .doorTakeover s = .next t ∧ t.nat Ix.pairRole = 3 ∧
        t.pair.tookAt = some s.clk.tick ∧ t.pair.runDue = true ∧ t.nat Ix.pairLastDoor = s.clk.tick ∧
        t.nat Ix.pairTakeovers = (s.nat Ix.pairTakeovers + 1) % 4294967296 ∧ t.pair.deferred = s.pair.deferred) ∧
    ((s.pair.lost = false ∨ s.nat Ix.pairRole ≠ 2 ∨ (streamsAbsent s = false ∧ granted s = false)) →
      exec .doorTakeover s = .next s) ∧
    (∀ td, s.pair.tookAt = some td → s.pair.runDue = true → td < s.clk.tick → s.isDoor = true →
      ∃ t, exec .takeoverEnginesRun s = .next t ∧ t.pair.runDue = false ∧ t.pair.deferred = [] ∧
        t.lat.door = fadeIn s.lat.door ∧ Output.roleAct true ∈ t.out ∧ t.net.ready = []) ∧
    (let asked (t : State) (claim : Bool) : Prop := ∃ nonce b, t.pair.asks =
         s.pair.asks ++ [{ nonce := nonce, seat := s.nat Ix.seat, pairId := s.nat Ix.pairId, claim := claim, tick := s.clk.tick }] ∧ t.pair.nextAsk = s.clk.tick + 12 ∧
         t.out = s.out ++ [.witness (s.nat Ix.pairWitnessAddr) (s.nat Ix.pairWitnessPort) b] ∧
         b.take 2 = [1, if claim = true then 1 else 2] ∧ field b 8 8 = nonce ∧ t.dict = s.dict ∧ t.engines = s.engines
     (canAsk s = true → s.nat Ix.pairRole = 2 → ∃ t, exec .witnessClaim s = .next t ∧ asked t true) ∧
     (canAsk s = true → s.isDoor = true → ∃ t, exec .witnessHold s = .next t ∧ asked t false)) ∧
    (∀ (m : WitMsg) (a : Ask) (ty : Nat),
      let b := m.bytes
      let left := s.pair.asks.filter (fun x => x.nonce != a.nonce)
      let tag := Config.cmac (credKey s (s.nat Ix.pairWitnessSlot)) (b.take 32)
      s.paired = true → m.addr.toNat = s.nat Ix.pairWitnessAddr → m.port.toNat = s.nat Ix.pairWitnessPort → m.addr ≠ 0 →
      b.length = 48 → field b 1 1 = ty →
      (tag ≠ b.drop 32 →
        (ty = 0x81 → exec (.grant m) s = .next (s.alarm Al.witnessTagReject)) ∧
        (ty = 0x82 → exec (.deny m) s = .next (s.alarm Al.witnessTagReject)) ∧
        (ty = 0x83 → exec (.keep m) s = .next (s.alarm Al.witnessTagReject)) ∧
        (ty = 0x84 → exec (.yield m) s = .next (s.alarm Al.witnessTagReject))) ∧
      (tag = b.drop 32 → field b 0 1 = 1 → field b 2 1 = a.seat → field b 4 4 = a.pairId →
        s.pair.asks.find? (fun x => x.nonce == field b 8 8 && decide (s.clk.tick ≤ x.tick + s.nat Ix.pairWitnessTimeout)) = some a →
        (ty = 0x81 → exec (.grant m) s =
          .next { s with pair := { s.pair with asks := left, grant := some (s.clk.tick + 24) } }) ∧
        (ty = 0x82 → exec (.deny m) s = .next { s with pair := { s.pair with asks := left } }) ∧
        (ty = 0x83 → exec (.keep m) s = .next { s with pair := { s.pair with asks := left } }) ∧
        (ty = 0x84 → s.isDoor = true → exec (.yield m) s =
          .next { s with pair := { s.pair with asks := left, due := .giveWay, causeTick := s.clk.tick } }))) ∧
    (∀ (nonce : Long) a, s.pair.asks.find? (fun x => x.nonce == nonce.toNat &&
        decide (x.tick + s.nat Ix.pairWitnessTimeout ≤ s.clk.tick)) = some a →
      ∃ t, exec (.witnessTimeout nonce) s = .next t ∧ t.pair.noAnswer = true ∧
        t.pair.asks = s.pair.asks.filter (fun x => x.nonce != a.nonce) ∧ t.engines = s.engines) ∧
    (∀ (port : Fin 4) (mac : BitVec 48) (dst : BitVec 32) (dport : Half) took,
      s.boot.stage = 7 → s.boot.quiet = false → linkUp s port.val = true →
      (∀ k, k < 4 → s.nat Ix.netPortMac k ≠ mac.toNat) →
      isWatched s port.val (s.nat Ix.netSvcAddr port.val) dst.toNat dport.toNat = true →
      (s.isDoor = false → exec (.foreignCopy port mac dst dport took) s =
        .next { s with pair := { s.pair with watched := some s.clk.tick } }) ∧
      (s.isDoor = true → (∀ td, s.pair.tookAt = some td → td + 64 < s.clk.tick) →
        ∃ t, exec (.foreignCopy port mac dst dport took) s = .next t ∧ t.pair =
          { s.pair with watched := some s.clk.tick, due := .giveWay, causeTick := s.clk.tick } ∧ t.engines = s.engines)) ∧
    (s.pair.due = .giveWay → s.pair.causeTick < s.clk.tick → s.isDoor = true →
      ∃ t, exec .pairYield s = .next t ∧ t.nat Ix.pairRole = 1 ∧ t.lat.door = Fade.silent ∧ t.net.ready = [] ∧
        t.pair.due = .none ∧ Output.roleAct false ∈ t.out)

/-- Planned swaps (R339, R341): the states sent, the swap tick, the end of the hold of the outputs, the interval. The reading
of log entry 74 is the model's. -/
def Obligations.SwapsExchangeTheDoor : Prop :=
  ∀ (s : State) (w : Swap), s.pair.swap = some w →
    let seen := ∃ b, s.pair.beatTick = some b ∧ w.ts ≤ s.pair.peerTick + 1
    let seq := (s.pair.seqOut + 1) % 4294967296
    let room (n : Nat) : Prop := s.pair.unacked.all (fun u => u.sent) = true ∧ bankUsed s.pair.unacked + 36 + n ≤ 4194304
    let comes (f : SnapFrame) : Prop := s.paired = true ∧ s.nat Ix.pairRole = 2 ∧ f.frame.first = true ∧ f.frame.good = true ∧
      f.frame.seq = (s.pair.seqIn + 1) % 4294967296
    (w.giver = true → s.clk.tick = w.tw → (limStates s).length ≤ 256 → room (24 * (limStates s).length) → ∀ f base words,
      ∃ t, exec (.swapSnapshot f none base words) s = .next t ∧
        t.out = s.out ++ [.bulk 0 seq s.clk.tick (.limiters (limStates s))] ∧ t.pair.seqOut = seq ∧
        t.pair.swap = s.pair.swap ∧ t.dict = s.dict ∧ t.engines = s.engines ∧ t.lat = s.lat) ∧
    (w.giver = true → ∀ p : Fin 16, s.clk.tick = w.tw + p.val → (regionOf s p.val).2.length ≤ 2000 →
      room (4 * (regionOf s p.val).2.length) → ∀ f base words,
      ∃ t, exec (.swapSnapshot f (some p) base words) s = .next t ∧ t.out = s.out ++ [.bulk 0 seq s.clk.tick
          (.region p.val (regionOf s p.val).1 (regionOf s p.val).2 true ((placesRunning s).contains p))] ∧
        t.pair.swap = some { w with lockstep := (w.lockstep ++ [p.val]).eraseDups, got := [] } ∧ t.pair.seqOut = seq ∧
        t.dict = s.dict ∧ t.engines = s.engines ∧ t.lat = s.lat) ∧
    (w.giver = false → s.clk.tick < w.ts → ∀ (f : SnapFrame) (l : LimState) base words, comes f → f.states = [l] →
      ∃ t, exec (.swapSnapshot f none base words) s = .next t ∧ (t.dest l.dest.toNat).lim.g = l.g.toNat ∧
        (t.dest l.dest.toNat).lim.held = l.held ∧ t.pair.swap = some { w with tw := f.tick } ∧ t.pair.seqIn = f.frame.seq ∧
        t.engines = s.engines) ∧
    (w.giver = false → ∀ (p : Fin 16) im (f : SnapFrame), s.clk.tick < w.ts → w.tw ≠ w.ts → w.lockstep.contains p.val = false →
      comes f → f.last = true → f.runs = true → (s.engine (engineOf s p)).image = some im → ∀ base words,
      ∃ t, exec (.swapSnapshot f (some p) base words) s = .next t ∧ t.pair.seqIn = f.frame.seq ∧
        t.pair.swap = some { w with lockstep := (w.lockstep ++ [p.val]).eraseDups, got := [] } ∧
        (t.engine (engineOf s p)).run = .running ∧ (t.engine (engineOf s p)).image = some im) ∧
    (w.ts ≤ s.clk.tick → s.paired = true → s.nat Ix.pairRole = 3 → (seen ∨ s.nat Ix.seat ≠ 0) → s.rsv.move = none →
      w.giver = true → ∃ t, exec .swapTickPass s = .next t ∧
      t.nat Ix.pairRole = 2 ∧ t.nat Ix.pairSwapTick = 0 ∧ t.nat Ix.pairLastDoor = w.ts ∧ t.pair.swap = none ∧
      t.pair.outHold = some (w.ts + s.nat Ix.pairOutHold) ∧ t.net.pass = some (w.ts, true) ∧ t.lat.door = s.lat.door ∧
      t.pair.doorAt = s.clk.sysCounter) ∧
    (w.ts ≤ s.clk.tick → s.paired = true → s.nat Ix.pairRole = 2 → (seen ∨ s.nat Ix.seat = 0) → w.giver = false →
      ∃ t, exec .swapTickPass s = .next t ∧
      t.nat Ix.pairRole = 3 ∧ t.nat Ix.pairSwapTick = 0 ∧ t.nat Ix.pairLastDoor = w.ts ∧ t.pair.swap = none ∧
      t.pair.deferred = [] ∧ t.net.pass = some (w.ts, false) ∧ t.lat.door = Fade.unity ∧ t.engines = s.engines) ∧
    (w.ts ≤ s.clk.tick → s.paired = true → s.nat Ix.pairRole = 3 → ¬ seen → w.giver = true → s.nat Ix.seat = 0 →
      ∃ t, exec .swapTickPass s = .next t ∧
      t.nat Ix.pairRole = 3 ∧ t.pair.swap = none ∧ t.nat Ix.pairSwapTick = 0 ∧ t.lat = s.lat ∧ t.engines = s.engines) ∧
    (w.ts ≤ s.clk.tick → s.nat Ix.pairRole ≠ (if w.giver = true then 3 else 2) → ∃ t, exec .swapTickPass s = .next t ∧
      t.nat Ix.pairRole = s.nat Ix.pairRole ∧ t.pair.swap = none ∧ t.nat Ix.pairSwapTick = 0 ∧ t.lat = s.lat ∧
      t.engines = s.engines) ∧
    (∀ hold, s.pair.outHold = some hold → hold ≤ s.clk.tick → s.isDoor = false → exec .swapOutHoldEnd s =
      .next { s with lat := { s.lat with door := fadeOut s.lat.door } }) ∧
    (s.paired = true → s.nat Ix.pairSwapInterval ≠ 0 → s.pair.swapDue = false →
      s.pair.doorAt + s.nat Ix.pairSwapInterval * 3600000000000 ≤ s.clk.sysCounter →
      exec .swapIntervalExpiry s = .next ({ s with pair := { s.pair with swapDue := true } }.alarm Al.pairSwapDue))

/-! ## Fabric memories and the reserve -/

/-- Scrubs and delay lines (R172, R181, R359, R365, R366, R369): errors are counted and acted on, a line writes its frame at
its index and advances. The reading of log entry 88 is the model's. -/
def Obligations.MemoriesAreScrubbedAndLinesStream : Prop :=
  ∀ s : State,
    (∀ (bank : Fin 7) hit, bank ≠ 0 →
      (∃ t, exec (.bankScrubRead bank .corrected hit) s = .next t ∧
        t.nat Ix.fabBankEccCe bank.val = min (s.nat Ix.fabBankEccCe bank.val + 1) 0xFFFFFFFF ∧
        (bank.val = 4 → t.nat Ix.stageEccCe = min (s.nat Ix.stageEccCe + 1) 0xFFFFFFFF) ∧ t.shut = s.shut ∧
        t.engines = s.engines ∧ ∀ a, memByte t a = memByte s a) ∧
      (∃ t, exec (.bankScrubRead bank .bad hit) s = .next t ∧
        t.nat Ix.fabBankEccUe bank.val = (s.nat Ix.fabBankEccUe bank.val + 1) % 4294967296 ∧
        ((∀ id, hit ≠ .pending id) → t.engines = s.engines) ∧
        (∀ a, memByte t a = memByte s a) ∧ (bank.val ≠ 4 → t.shut = s.shut ∧ t.lat = s.lat ∧ t.bench = s.bench) ∧
        (bank.val = 4 → t.nat Ix.stageEccUe = (s.nat Ix.stageEccUe + 1) % 4294967296 ∧
          (∀ id, hit = .pending id → s.shut.pend.any (fun p => p.id == id && !p.checked) = true →
            t.shut.pend = s.shut.pend.filter (fun p => p.id != id)) ∧
          (∀ n, hit = .openSet n → mapFind n t.shut.sets = none) ∧
          (∀ i, hit = .landingXp i → t.bench = s.bench ∧ t.shut.corrupt = s.shut.corrupt ++
            (if s.shut.pend.any (fun p => p.checked && p.changes.any (fun c => 0x0400 ≤ c.ix && c.ix ≤ 0x0406 && c.sub == i)) = true
              then [(true, i)] else [])) ∧
          (∀ d, hit = .landingDest d → t.lat = s.lat ∧ t.shut.corrupt = s.shut.corrupt ++
            (if s.shut.pend.any (fun p => p.checked && p.changes.any (fun c => 0x0600 ≤ c.ix && c.ix ≤ 0x0604 && c.sub == d)) = true
              then [(false, d)] else []))))) ∧
    (∀ i, s.clk.commitDue = false →
      (s.shut.corrupt = [(true, i)] → (xpOf (faultLost s) i).fault = true ∧ (xpOf (faultLost s) i).state = .off ∧
        (xpOf (faultLost s) i).cur = 0 ∧ (faultLost s).shut.corrupt = []) ∧
      (s.shut.corrupt = [(false, i)] → ((faultLost s).dest i).hasFault = true ∧
        ((faultLost s).dest i).fault = fadeOut (s.dest i).fault ∧ (faultLost s).shut.corrupt = [])) ∧
    (∀ (place : Fin 16) second (reads : StreamReads),
      let k := 2 * place.val + (if second = true then 1 else 0)
      let run := (s.engine (engineOf s place)).run
      s.fab.dlyDue.contains k = true →
      (linesOf s place second = [] ∨ (run ≠ .running ∧ run ≠ .waiting) → ∃ t, exec (.delayStream place second reads) s = .next t ∧
        t.fab.dlyDue = s.fab.dlyDue.filter (fun x => x != k) ∧ t.fab.dly = s.fab.dly ∧ t.engines = s.engines ∧
        ∀ a, memByte t a = memByte s a) ∧
      (∀ l r, run = .running ∨ run = .waiting → reads.bad = [] → reads.fixed = [] →
        linesOf s place second = [l] → mapFind l s.fab.dly = some r → s.ticklen ≤ dlyLen s l →
        let len := dlyLen s l
        let ws := xWords (s.engine (engineOf s place)) (dlyIn s l) s.ticklen
        ∃ t, exec (.delayStream place second reads) s = .next t ∧ t.fab.dlyDue = s.fab.dlyDue.filter (fun x => x != k) ∧
          mapFind l t.fab.dly = some { w := (r.w + s.ticklen) % len, n := min (r.n + s.ticklen) len } ∧
          (∀ i, i < s.ticklen → memBytes t (dlyAddr s l ((r.w + i) % len)) 4 = bytesLE 4 (listGet 0 i ws).toNat) ∧
          (∀ a, (a < dlyAddr s l 0 ∨ dlyAddr s l len ≤ a) → memByte t a = memByte s a) ∧
          t.fab.dlyLate.contains l = lateLine reads l ∧ (lateLine reads l = true → t.engines = s.engines)))

/-- Moves of a place (R377 to R383): the leaf is prepared, a warm move copies, and at the flip the leaf takes the place; a
difference in the shadow ticks begins the copy again, once. The reading of log entry 63 is the model's. -/
def Obligations.MovesRunInSteps : Prop :=
  ∀ (s : State) (m : Move), s.rsv.move = some m → m.leaf ≠ m.source → s.rsv.queue = [] →
    let others (t : State) : Prop := ∀ e, e ≠ m.leaf → e ≠ m.source → t.engine e = s.engine e
    let took (t : State) : Prop := others t ∧ t.nat Ix.latEngMap m.req.place.val = m.leaf.val ∧ t.rsv.move = none ∧
      rsvState t m.leaf = 0 ∧ (t.engine m.source).run = .leaf ∧
      t.nat Ix.rsvMigrations = (s.nat Ix.rsvMigrations + 1) % 4294967296
    (∀ im, m.step = .preparing → (s.engine m.source).image = some im →
      ∃ t, exec .movePrepared s = .next t ∧ t.rsv.move = some { m with step := .prepared, tx := s.clk.tick + 1 } ∧ others t ∧
        t.engine m.source = s.engine m.source ∧ (t.engine m.leaf).image = some im ∧ (t.engine m.leaf).run = .leaf ∧
        t.dict = s.dict) ∧
    (m.kind = .warm → m.step = .prepared → copyFits s = true → lastDone (s.engine m.source) = true →
      s.fab.dlyDue.any (fun k => k / 2 == m.req.place.val) = false →
      ∀ ends, ∃ t, exec (.moveCopy { bad := false, ends := ends }) s = .next t ∧ t.rsv.move = some { m with
          step := .copied, tx := s.clk.tick + 1, held := min ends (listGet 0 3 s.clk.plan), posts := [] } ∧
        others t ∧ t.engine m.source = s.engine m.source ∧
        t.engine m.leaf = copyEngine (s.engine m.source) (s.engine m.leaf) ∧ t.nat Ix.rsvMigTick = s.clk.tick + 3) ∧
    (m.kind = .warm → m.step = .copied → m.tx + 2 ≤ s.clk.tick → placeOf s m.leaf ≠ some m.req.place →
      ∃ t, exec .moveCutover s = .next t ∧ took t ∧ t.engine m.leaf = s.engine m.leaf) ∧
    (∀ leaf k tag ws x, m.kind = .warm → m.step = .copied → m.tx ≤ s.clk.tick → s.clk.tick < m.tx + 2 →
      s.flag Ix.rsvShadowCheck = true → m.req.force = false → m.repeated = false →
      m.posts.find? (fun x => x.1 == !leaf && x.2.1 == k && x.2.2.1 == tag) = some x → x.2.2.2 ≠ crc32 (wordBytes ws) →
      let t := notePost s leaf k tag ws
      t.rsv.move = some { m with step := .prepared, repeated := true, posts := [] } ∧
        others t ∧ t.engine m.source = s.engine m.source ∧ t.engine m.leaf = { s.engine m.leaf with run := .leaf } ∧
        t.nat Ix.latEngMap m.req.place.val = s.nat Ix.latEngMap m.req.place.val ∧
        t.nat Ix.rsvMigDiffs = (s.nat Ix.rsvMigDiffs + 1) % 4294967296) ∧
    (∀ im, m.kind = .cold → m.step ≠ .preparing → m.tx ≤ s.clk.tick → placeOf s m.leaf ≠ some m.req.place →
      (s.engine m.source).image = some im →
      ∃ t, exec .coldMoveFlip s = .next t ∧ took t ∧ (t.engine m.leaf).run = .running ∧ (t.engine m.leaf).pc = 0 ∧
        (t.engine m.leaf).image = some im) ∧
    (∀ im, m.kind = .quiet → (s.isGated = true ∨ m.step ≠ .preparing) → m.tx ≤ s.clk.tick → placeOf s m.leaf ≠ some m.req.place →
      (s.engine m.source).image = some im →
      ∃ t, exec .quietMoveFlip s = .next t ∧ took t ∧ (t.engine m.leaf).run = .idle ∧ (t.engine m.leaf).image = some im)

/-- Monitors, self-tests, lanes, rows and counters (R375, R385, R387, R389, R390, R393, R403). The reading of log entry 64 is
the model's. -/
def Obligations.ReserveIsWatchedAndRepaired : Prop :=
  ∀ s : State,
    (∀ (e : Fin 16) (v temp : Int) least, s.nat Ix.rsvPolicy ≠ 1 → (s.engine e).run = .running →
      leastSlack (recentSlacks s ((s.clk.sysCounter, v) :: recentSlacks s (mapGet (fun _ => []) e.val s.rsv.slacks))) = some least →
      ∃ t, exec (.agingMonitorRead [(e.val, v)] [] temp) s = .next t ∧ t.int Ix.secDieTemp = temp ∧
        t.int Ix.rsvEngSlack e.val = least ∧ (∀ f, f ≠ e → t.int Ix.rsvEngSlack f.val = s.int Ix.rsvEngSlack f.val) ∧
        t.rsv.move = s.rsv.move ∧ t.engines = s.engines) ∧
    (∀ (lane : Fin 68) (v temp : Int), s.nat Ix.rsvPolicy ≠ 1 → s.rsv.lanesOut.contains lane.val = false →
      s.rsv.lanesDue.contains lane.val = false →
      ∃ t, exec (.agingMonitorRead [] [(lane.val, v)] temp) s = .next t ∧
        t.rsv.lanesDue = s.rsv.lanesDue ++ (if v ≤ s.int Ix.rsvSlackRetire then [lane.val] else []) ∧
        t.rsv.lanesOut = s.rsv.lanesOut ∧ t.engines = s.engines) ∧
    (∀ e es, s.nat Ix.rsvLeafTestPeriod ≠ 0 →
      s.reached (s.rsv.testedAt + s.nat Ix.rsvLeafTestPeriod * 3600000000000) = true → s.rsv.testing = [] → s.rsv.tests = [] →
      (List.finRange 16).filter (fun e => rsvState s e == 1) = e :: es →
      ∃ t, exec .leafTestTimer s = .next t ∧ t.rsv.testing = [e] ∧ t.rsv.tests = es ∧ rsvState t e = 2 ∧
        t.engines = s.engines) ∧
    (∀ (e : Fin 16) pass slack, s.rsv.testing.contains e = true → s.rsv.tests = [] →
      ∃ t, exec (.leafTestDone e pass slack) s = .next t ∧ rsvState t e = (if pass = true then (if holdsWork s e = true then 0 else 1) else 6) ∧
        t.rsv.testing = s.rsv.testing.filter (fun x => x != e) ∧ (∀ f, f ≠ e → rsvState t f = rsvState s f) ∧
        t.engines = s.engines) ∧
    (∀ (lane : Fin 68),
      let w := s.nat Ix.rsvLanes
      let leaves := w / 256 % 128
      s.rsv.lanesOut.contains lane.val = false →
      ∃ t, exec (.laneRetire lane true) s = .next t ∧ t.rsv.lanesOut = s.rsv.lanesOut ++ [lane.val] ∧
        t.nat Ix.rsvLaneResidue = min (s.nat Ix.rsvLaneResidue + 1) 0xFFFFFFFF ∧
        t.nat Ix.rsvLanes = (if 0 < leaves then w % 128 else w % 128 - 1) + 256 * (leaves - 1) + 65536 * (w / 65536 % 128 + 1) ∧
        t.engines = s.engines) ∧
    (∀ memory (row : Half) bad counted,
      let w := s.nat Ix.rsvRows memory
      Subs.memory.has memory = true → 0 < w / 256 → w % 256 < 255 → (bad = true ∨ s.nat Ix.rsvRowCeLimit ≤ counted) →
      ∃ t, exec (.rowRepairSwitch memory row bad counted) s = .next t ∧
        t.nat Ix.rsvRows memory = w % 256 + 1 + 256 * (w / 256 - 1) ∧ t.rsv.repairs = s.rsv.repairs + 1 ∧
        t.rsv.unfused = s.rsv.unfused ++ [(s.rsv.repairs, memory)] ∧ t.nat Ix.rsvRepairLog (s.rsv.repairs % 64) =
          memory + 256 * row.toNat + (if bad = true then 2 ^ 24 else 0) + 2 ^ 32 * (s.clk.tick % 2 ^ 32) ∧
        t.engines = s.engines) ∧
    (∀ n memory more, s.rsv.unfused = (n, memory) :: more → 512 ≤ s.nat Ix.rsvRepairFuses → exec .repairFuseWrite s =
      .next ({ s with rsv := { s.rsv with unfused := more, unkept := s.rsv.unkept ++ [memory] } }.alarm Al.rsvFusesFull memory)) ∧
    (∀ n memory more, s.rsv.unfused = (n, memory) :: more → s.nat Ix.rsvRepairFuses < 512 →
      ∃ t, exec .repairFuseWrite s = .next t ∧ t.rsv.unfused = more ∧ t.nat Ix.rsvRepairFuses = s.nat Ix.rsvRepairFuses + 1 ∧
        (s.rsv.repairs ≤ n + 63 → (t.nat Ix.rsvRepairLog (n % 64)).testBit 25 = true) ∧ t.engines = s.engines) ∧
    (∀ (e : Fin 16) (k : Fin 4) (value : Word),
      let l := (s.engine e).loc
      let pm := l.pmu
      windowGated s e = false →
      exec (.sePmuCntLo e k value) s = .next (s.setEngine e { s.engine e with loc := { l with
        pmu := { pm with cnt := pm.cnt.set k.val (pm.staged[k.val] ++ value) } } }) ∧
      exec (.sePmuCntHi e k value) s = .next (s.setEngine e { s.engine e with loc := { l with
        pmu := { pm with staged := pm.staged.set k.val (value.setWidth 16) } } }))

/-! ## Security -/

/-- Lifecycle advances, tamper and the sealed copy (R407, R408, R411 to R413, R415): each completed advance and each new
enabled cause wipes the Cabinet and the credentials. The readings of log entries 55 and 66 are the model's. -/
def Obligations.LifecycleAndTamperWipeTheCabinet : Prop :=
  ∀ s : State,
    let wiped (t : State) : Prop := t.ctl.keys = [] ∧ t.sec.grant = none ∧ t.obj Ix.secImgPubkey 0 = .bytes [] ∧
      t.nat Ix.secWipes = (s.nat Ix.secWipes + 1) % 4294967296 ∧
      (∀ a, memByte t a = if inCabinet a = true then 0 else memByte s a) ∧
      (∀ k : Fin 16, t.nat Ix.ctlCredPriv k.val = if k.val = 0 ∧ t.sec.life ≠ 4 then 3 else 0) ∧
      ∃ c, t.sec.copies = [c] ∧ c.keys = [] ∧ c.life = t.sec.life ∧ c.epoch = t.sec.epoch
    (∀ next, s.sec.advance = some next → ∃ t, exec .lcAdvanceDone s = .next t ∧ wiped t ∧ t.sec.life = next ∧
      t.nat Ix.secLifecycle = next ∧ t.sec.advance = none ∧ t.sec.epoch = s.sec.epoch) ∧
    (∀ b : Fin 5, (s.nat Ix.secTamperEn).testBit b.val = true → (s.nat Ix.secTamperState).testBit b.val = false →
      s.sec.advance = none → ∃ t, exec (.tamperAsserted (BitVec.ofNat 5 (2 ^ b.val))) s = .next t ∧ wiped t ∧
        t.nat Ix.secTamperRaw = 2 ^ b.val ∧ t.nat Ix.secTamperState = s.nat Ix.secTamperState + 2 ^ b.val ∧
        t.nat Ix.secTamperTick = s.clk.tick ∧ t.sec.epoch = min (s.sec.epoch + 1) 128 ∧ t.sec.life = s.sec.life ∧
        t.engines = s.engines) ∧
    (∀ raw : BitVec 5, (∀ b, b < 5 → raw.getLsbD b = true → (s.nat Ix.secTamperEn).testBit b = false ∨
        (s.nat Ix.secTamperState).testBit b = true) →
      exec (.tamperAsserted raw) s = .next (s.setNat Ix.secTamperRaw 0 raw.toNat)) ∧
    (s.sec.sealDue = true → ∃ t c, exec .sealedCopyWrite s = .next t ∧ t.sec.copies = c :: s.sec.copies.take 1 ∧
      c.keys = s.ctl.keys ∧ c.life = s.sec.life ∧ c.epoch = s.sec.epoch ∧ c.pub = (s.obj Ix.secImgPubkey 0).toBytes ∧
      (∀ x, x ∈ s.sec.copies → x.seq < c.seq) ∧ t.sec.sealDue = false ∧ t.dict = s.dict ∧ t.engines = s.engines)

/-- Debug (R420, R421): a grant that ends lets the controller run on; a halt over JTAG needs an open scope. The reading of log
entry 69 is the model's. -/
def Obligations.DebugHaltsUnderAGrantOnly : Prop :=
  ∀ s : State,
    (∀ g, s.sec.grant = some g → s.reached g.2 = true → ∃ t, exec .debugGrantExpiry s = .next t ∧
      t.sec = { s.sec with grant := none, hkHalted := false } ∧ t.nat Ix.secDbgState = 0 ∧ t.engines = s.engines) ∧
    (∀ target, dbgOpen s 0 = false → exec (.jtagDebugHalt target) s = .next s) ∧
    (dbgOpen s 0 = true → exec (.jtagDebugHalt .controller) s = .next { s with sec := { s.sec with hkHalted := true } }) ∧
    (∀ e : Fin 16, dbgOpen s 0 = true → (s.engine e).run = .running → s.nat Ix.rsvPolicy = 0 → s.rsv.move = none →
      ∃ t, exec (.jtagDebugHalt (.engine e)) s = .next t ∧ (t.engine e).run = .halted ∧
        (t.engine e).loc.fault = (s.engine e).loc.fault ||| 1 ∧ (∀ f, f ≠ e → t.engine f = s.engine f) ∧
        t.nat Ix.overrunCount e.val = (s.nat Ix.overrunCount e.val + 1) % 4294967296 ∧ t.sec = s.sec)

/-! ## Cue channels -/

/-- Checks, latches and retries (R429 to R431, R434, R435). The reading of log entry 65 is the model's. -/
def Obligations.CueChannelsCheckLatchAndRetry : Prop :=
  ∀ (s : State) (ch : Fin 2),
    let n := ch.val
    let c := cueOf s ch
    let r := s.nat Ix.cueRetries n
    let other (t : State) : Prop := cueOf t (1 - ch) = cueOf s (1 - ch) ∧ cueState t (1 - ch) = cueState s (1 - ch) ∧
      t.engines = s.engines ∧ t.lat = s.lat ∧ t.out = s.out
    let fault (t : State) (k : Nat) : Prop := t.nat Ix.cueFaults (4 * n + k) = min (s.nat Ix.cueFaults (4 * n + k) + 1) 0xFFFFFFFF
    (∀ code : Fin 6, cueState s ch = CueS.checking →
      ∃ t, exec (.cueChecksDone ch code) s = .next t ∧ other t ∧ t.nat Ix.cueCheckResult n = code.val ∧
        (code = 0 → cueState t ch = CueS.playing) ∧ (code = 5 → cueState t ch = CueS.openLoop ∧ fault t 1) ∧
        ((code = 0 ∨ code = 5) → cueOf t ch = { c with
          startDue := true, fade := Fade.silent, next := .none, since := s.clk.sysCounter }) ∧
        (code ≠ 0 → code ≠ 5 →
          let r1 := if c.counts = true then min (r + 1) 3 else r
          fault t 0 ∧ t.nat Ix.cueRetries n = r1 ∧ (cueOf t ch).fade = Fade.silent ∧
          cueState t ch = (if s.flag Ix.cueEn n = true then (if 3 ≤ r1 then CueS.locked else CueS.waiting) else CueS.off))) ∧
    (cuePlays s ch = true → ∃ t, exec (.cueLatch ch) s = .next t ∧ other t ∧ fault t 0 ∧ t.nat Ix.cueRetries n = r ∧
      (cueOf t ch).fade = Fade.silent ∧
      cueState t ch = (if s.flag Ix.cueEn n = true then (if 3 ≤ r then CueS.locked else CueS.waiting) else CueS.off)) ∧
    (cueState s ch = CueS.waiting → c.supply = false → c.hot = false → r < 3 → s.reached (c.since + 500000000) = true →
      ∃ t, exec (.cueRetry ch) s = .next t ∧ other t ∧ t.nat Ix.cueRetries n = r + 1 ∧ cueState t ch = CueS.checking ∧
        (cueOf t ch).counts = false) ∧
    (cuePlays s ch = true → s.reached (c.since + 60000000000) = true → exec (.cueRetryCountReset ch) s = .next (s.setNat Ix.cueRetries n 0)) ∧
    (cueState s ch = CueS.playing → ∃ t, exec (.cueOpenLoop ch) s = .next t ∧ other t ∧ cueState t ch = CueS.openLoop ∧
      fault t 1 ∧ cueOf t ch = c)

/-- Reports and protections (R432, R433, R436, R437). The reading of log entry 65 is the model's. -/
def Obligations.CueProtectionsFadeAndReturn : Prop :=
  ∀ (s : State) (ch : Fin 2),
    let n := ch.val
    let c := cueOf s ch
    let after : CueNext := if c.next = .off then .off else .shield
    let back := if s.flag Ix.cueEn n = true then CueS.checking else CueS.off
    (∀ (mag phase : Half) (fosc : Word) (temp : Int) (bst pvdd : Half), cuePlays s ch = true →
      ∃ t, exec (.sillReport ch mag phase fosc temp bst pvdd) s = .next t ∧
        t.nat Ix.cueZ n = mag.toNat + 65536 * phase.toNat ∧ t.nat Ix.cueFosc n = fosc.toNat ∧ t.int Ix.cueTemp n = temp ∧
        t.nat Ix.cueBstV = bst.toNat ∧ t.nat Ix.cuePvdd = pvdd.toNat ∧ cueState t ch = cueState s ch ∧
        (s.nat Ix.cueZLimits n % 65536 ≤ mag.toNat → mag.toNat ≤ s.nat Ix.cueZLimits n / 65536 →
          (cueOf t ch).zOut = 0 ∧ (cueOf t ch).zIn = min (c.zIn + 1) 3) ∧
        ((mag.toNat < s.nat Ix.cueZLimits n % 65536 ∨ s.nat Ix.cueZLimits n / 65536 < mag.toNat) →
          (cueOf t ch).zIn = 0 ∧ (cueOf t ch).zOut = min (c.zOut + 1) 3 ∧
          (2 ≤ c.zOut → c.zWarned = false → (cueOf t ch).zWarned = true ∧
            t.nat Ix.cueFaults (4 * n + 3) = min (s.nat Ix.cueFaults (4 * n + 3) + 1) 0xFFFFFFFF))) ∧
    (∃ t, exec (.cueSupplyFault false) s = .next t ∧ (cueOf t ch).supply = true ∧ t.out = s.out ∧ t.engines = s.engines ∧
      (cuePlays s ch = true → (cueOf t ch).fade = fadeOut c.fade ∧ (cueOf t ch).next = after ∧ cueState t ch = cueState s ch) ∧
      (cueState s ch = CueS.checking → cueState t ch = CueS.shielded ∧ (cueOf t ch).fade = Fade.silent)) ∧
    (∃ t, exec (.cueSupplyFault true) s = .next t ∧ t.out = s.out ∧ t.engines = s.engines ∧
      t.nat Ix.cueFaults (4 * n) = min (s.nat Ix.cueFaults (4 * n) + 1) 0xFFFFFFFF ∧
      (cuePlays s ch = true → (cueOf t ch).fade = Fade.silent ∧ cueState t ch = (if s.flag Ix.cueEn n = true then
        (if 3 ≤ s.nat Ix.cueRetries n then CueS.locked else CueS.waiting) else CueS.off))) ∧
    (∃ t, exec .cueSupplyReturn s = .next t ∧ (cueOf t ch).supply = false ∧ t.engines = s.engines ∧
      (cueState s ch = CueS.shielded → c.hot = false → cueState t ch = back) ∧
      (cueState s ch = CueS.shielded → c.hot = true → cueState t ch = CueS.shielded)) ∧
    (∃ t, exec (.cueThermalFault ch) s = .next t ∧ (cueOf t ch).hot = true ∧ t.engines = s.engines ∧
      t.nat Ix.cueFaults (4 * n + 2) = min (s.nat Ix.cueFaults (4 * n + 2) + 1) 0xFFFFFFFF ∧
      cueOf t (1 - ch) = cueOf s (1 - ch) ∧
      (cuePlays s ch = true → (cueOf t ch).fade = fadeOut c.fade ∧ (cueOf t ch).next = after)) ∧
    (∃ t, exec (.cueThermalReturn ch) s = .next t ∧ (cueOf t ch).hot = false ∧ t.engines = s.engines ∧
      cueOf t (1 - ch) = cueOf s (1 - ch) ∧
      (cueState s ch = CueS.shielded → c.supply = false → cueState t ch = back)) ∧
    (c.fade.mode = .silent → ∃ t, exec (.cueFadeEnd ch) s = .next t ∧ t.engines = s.engines ∧
      cueOf t (1 - ch) = cueOf s (1 - ch) ∧ (c.next = .none → t = s) ∧ (c.next = .off → cueState t ch = CueS.off) ∧
      (c.next = .shield → cueState t ch = CueS.shielded) ∧
      (c.next = .check → c.supply = false → c.hot = false → cueState t ch = back))

/-! ## Resets and start-up -/

/-- Resets (R444 to R446): whatever the state, the block returns to its reset values; the fuses, the flash, the queue and what
has left stay. The readings of log entries 1 and 2 are the model's. -/
def Obligations.ResetsLeaveTheResetState : Prop :=
  ∀ s : State,
    let kept (ix : Nat) : Bool := ix == Ix.bootResetCause || ix == Ix.bootResetCount || ix == Ix.syspllActive ||
      ix == Ix.syspllState || ix == Ix.rsvRows || ix == Ix.fabBankSpares || ix == Ix.rsvRepairFuses
    let cleared (t : State) (cause : Nat) : Prop := t.engines = State.reset.engines ∧ t.lat = State.reset.lat ∧
      t.bench = State.reset.bench ∧ t.fab = State.reset.fab ∧ t.pair = State.reset.pair ∧ t.clk = State.reset.clk ∧
      t.net = State.reset.net ∧ t.tim = State.reset.tim ∧ t.shut = State.reset.shut ∧ t.pending = s.pending ∧
      t.out = s.out ++ [.resetLevels] ∧ t.sec.life = s.sec.life ∧ t.sec.epoch = s.sec.epoch ∧ t.sec.copies = s.sec.copies ∧
      t.boot.slot0 = s.boot.slot0 ∧ t.boot.slot1 = s.boot.slot1 ∧ t.boot.held = true ∧ t.nat Ix.bootResetCause = cause ∧
      ∀ ix sub, kept ix = false → t.obj ix sub = State.reset.obj ix sub
    (∃ t, exec .poresetAssert s = .next t ∧ cleared t 0) ∧
    ((s.boot.held = false ∨ s.nat Ix.bootResetCause ≠ 0) →
      let system (c : Instr) (cause : Nat) : Prop := ∃ t, exec c s = .next t ∧ cleared t cause ∧
        t.nat Ix.bootResetCount = (s.nat Ix.bootResetCount + 1) % 4294967296 ∧
        t.nat Ix.syspllActive = s.nat Ix.syspllActive
      system .sysresetN 1 ∧ system .supplyMonitorReset 2 ∧ system .watchdogReset 3 ∧ system .lockstepReset 4 ∧
      (dbgOpen s 0 = true → system .jtagReset 6)) ∧
    (∀ (v : Serving) (op : Op) (r : ObjRow) (x : Val), LastWrite s v op r x → r.ix = Ix.bootReset → v.mirrored = false → s.boot.held = false →
      (field op.data 0 1 = 1 → x = .int 1 → ∃ t, exec .bootReset s = .next t ∧ t.nat Ix.bootResetCause = 5 ∧
        t.boot.held = true ∧ t.engines = State.reset.engines ∧ t.ctl = State.reset.ctl) ∧
      (field op.data 0 1 = 2 → x = .int 2 → ∃ t, exec .bootResetAnyRole s = .next t ∧ t.nat Ix.bootResetCause = 5 ∧
        t.boot.held = true ∧ t.engines = State.reset.engines ∧ t.ctl = State.reset.ctl))

/-- Bring-up (R443, R447, R450, R451, R454, R456): the stage a unit reaches, the image it boots from, a firmware slot written.
The readings of log entries 1, 67 and 71 are the model's. -/
def Obligations.BringUpReachesItsStage : Prop :=
  ∀ s : State,
    (∀ u : BringUp, s.boot.stage = 0 →
      let at' (stage code : Nat) : Prop := ∃ t, exec (.poresetRelease u) s = .next t ∧ t.boot.stage = stage ∧
        t.nat Ix.bootStage = stage ∧ t.boot.code = code ∧ t.boot.held = false ∧ t.nat Ix.seat = u.straps.toNat / 4 ∧
        t.engines = s.engines ∧ t.lat = s.lat
      let fine := s.sec.life ≠ 4 ∧ (u.pllA = true ∨ u.pllB = true) ∧ u.badMemory = false ∧ u.ddr0 = true ∧ u.ddr1 = true ∧
        u.sizesOk = true
      (s.sec.life = 4 → at' 0xFD 0) ∧ (s.sec.life ≠ 4 → u.pllA = false → u.pllB = false → at' 0xFE 1) ∧
      (fine → u.straps.toNat % 4 = 2 → at' 4 0) ∧
      (fine → u.straps.toNat % 4 ≠ 2 → u.flash = false → at' (if u.straps.toNat % 4 = 3 then 4 else 0xFE) 5) ∧
      (fine → u.straps.toNat % 4 ≠ 2 → u.flash = true → u.prog0 = none → u.prog1 = none → s.boot.slot0.valid = true →
        s.boot.slot1.valid = false → fwVerifies s s.boot.slot0.image = true →
        ∃ t, exec (.poresetRelease u) s = .next t ∧ t.boot.stage = 7 ∧ t.nat Ix.bootStage = 7 ∧ t.nat Ix.bootSource = 0 ∧
          t.boot.quiet = decide (u.straps.toNat % 4 = 1) ∧ t.fab.lock = true ∧ t.engines = s.engines) ∧
      (fine → u.straps.toNat % 4 ≠ 2 → u.flash = true → u.prog0 = none → u.prog1 = none → s.boot.slot0.valid = true →
        s.boot.slot1.valid = false → fwVerifies s s.boot.slot0.image = false →
        at' (if u.straps.toNat % 4 = 3 then 4 else 0xFE) 6)) ∧
    (let d := hpCommand s 16
     let len := natLE ((d.drop 4).take 4)
     let image := memBytes s 0x1000000000 (min len 0x1000000)
     let named := s.hp.cmdLen.toNat = 16 ∧ d.take 4 = [0x44, 0x52, 0x48, 0x42] ∧ (d.drop 8).all (fun x => x == 0) = true
     s.boot.stage = 4 →
     (¬ named → exec .hpBootDescriptor s = .next { s with hp := { s.hp with drop := true } }) ∧
     (named → len ≤ 0x1000000 → fwVerifies s image = true →
       ∃ t, exec .hpBootDescriptor s = .next t ∧ t.boot.stage = 7 ∧ t.nat Ix.bootStage = 7 ∧ t.nat Ix.bootSource = 2 ∧
         t.fab.lock = true ∧ t.engines = s.engines) ∧
     (named → (0x1000000 < len ∨ fwVerifies s image = false) →
       ∃ t, exec .hpBootDescriptor s = .next t ∧ t.boot.stage = 4 ∧ t.boot.code = 7 ∧ t.fab = s.fab ∧
         t.engines = s.engines)) ∧
    (∀ b, s.boot.writing = some b →
      ∃ t, exec (.bootFwFlashWriteDone true) s = .next t ∧ t.boot.writing = none ∧ t.nat Ix.bootFwStatus = 2 ∧
        t.nat Ix.bootSource = s.nat Ix.bootSource ∧ t.engines = s.engines ∧
        (if s.nat Ix.bootSource = 0 then t.boot.slot1 else t.boot.slot0).image = b ∧
        (if s.nat Ix.bootSource = 0 then t.boot.slot1 else t.boot.slot0).valid = true) ∧
    (∀ b, s.boot.writing = some b → s.nat Ix.bootSource = 0 →
      (∃ t, exec (.bootFwFlashWriteDone true) s = .next t ∧ t.boot = { s.boot with writing := none
                                                                                   slot1 := { valid := true
                                                                                              seq := s.boot.slot0.seq + 1
                                                                                              image := b } } ∧
        t.nat Ix.bootFwStatus = 2 ∧ t.nat Ix.bootSlotSeq 1 = s.boot.slot0.seq + 1 ∧ t.engines = s.engines) ∧
      (∃ t, exec (.bootFwFlashWriteDone false) s = .next t ∧ t.boot = { s.boot with writing := none } ∧
        t.nat Ix.bootFwStatus = 4 ∧ t.engines = s.engines))

/-! ## The whole block -/

/-- R77: next(A, d) in linear mode. -/
def Obligations.LinearModeAddsModuloMemory : Prop :=
  ∀ (r : RegFile) (n : Fin 8) (d : Int), r.vmode.extractLsb' (2 * n.val) 2 = 0 → r.vl[n.val] = 0 →
    ((nextAddr r n d).1.toNat : Int) = (((r.va[n.val]).toNat : Int) + d) % 65536 ∧ (nextAddr r n d).2 = false

/-- R416: what a write of SEC_TAMPER_EN is answered in each lifecycle state (0 BLANK, 1 PROVISIONED, 2 DEPLOYED), and the step
to RETURNED. -/
def Obligations.TamperEnablesOnlyGrowInDeployed : Prop :=
  ∀ s : State,
    let answer (direct : Bool) (v : Nat) : Option Nat :=
      (objRow Ix.secTamperEn).map (fun r => valueCheck s s direct r 0 (.int v))
    (∀ direct v, v < 32 → (s.sec.life = 0 ∨ s.sec.life = 1) → answer direct v = some 0) ∧
    (∀ direct v, v < 32 → s.sec.life = 2 →
      ((∃ b, (s.nat Ix.secTamperEn).testBit b = true ∧ v.testBit b = false) → answer direct v = some Rc.state) ∧
      ((∀ b, (s.nat Ix.secTamperEn).testBit b = true → v.testBit b = true) → answer direct v = some 0)) ∧
    (s.sec.advance = some 3 → ∃ t, exec .lcAdvanceDone s = .next t ∧ t.nat Ix.secLifecycle = 3 ∧ t.nat Ix.secTamperEn = 0)

/-- The event log (R204, R205): an alarm adds an entry, or a repeat to the newest entry of the same code and detail that is at
most 12 ticks old; an entry of a class in the mask asserts ALARM_N. Nothing else changes. -/
def Obligations.AlarmsEnterTheEventLog : Prop :=
  ∀ (s : State) (a : AlarmId) (detail : Nat),
    let head := s.nat Ix.ctlLogHead
    let last := (head + 1023) % 1024
    let same := 0 < head ∧ s.nat Ix.ctlLogCode last = a.code ∧ s.nat Ix.ctlLogDetail last = detail ∧
      s.nat Ix.ctlLogTick last ≤ s.clk.tick ∧ s.clk.tick ≤ s.nat Ix.ctlLogTick last + 12
    let t := s.alarm a detail
    (∀ td, s.pair.tookAt = some td → s.clk.tick < td ∨ td + 64 < s.clk.tick) → s.nat Ix.ctlLogAck ≤ head → head < s.nat Ix.ctlLogAck + 1024 → head < 0xFFFFFFFF →
    (same → t.nat Ix.ctlLogHead = head ∧ t.nat Ix.ctlLogRepeat last = min (s.nat Ix.ctlLogRepeat last + 1) 0xFFFF ∧
      t.nat Ix.ctlLogTick last = s.nat Ix.ctlLogTick last) ∧
    (¬ same → t.nat Ix.ctlLogHead = head + 1 ∧ t.nat Ix.ctlLogCode (head % 1024) = a.code ∧
      t.nat Ix.ctlLogDetail (head % 1024) = detail ∧ t.nat Ix.ctlLogRepeat (head % 1024) = 0 ∧
      t.nat Ix.ctlLogTick (head % 1024) = s.clk.tick ∧
      (a.source < 256 → a.num < 65536 → (s.nat Ix.ctlAlarmMask).testBit a.cls = true → alarmAsserted t = true)) ∧
    t.engines = s.engines ∧ t.lat = s.lat ∧ t.bench = s.bench ∧ t.fab = s.fab ∧ t.pair = s.pair ∧ t.writes = s.writes ∧
    t.out = s.out ∧ t.pending = s.pending ∧ ∀ ix sub, (ix < Ix.ctlLogCode ∨ Ix.ctlLogHead < ix) → t.obj ix sub = s.obj ix sub

/-- A step carries out the command at the front of the queue with the rest of the queue; with none waiting the block idles
(the model's choice, log entry 6). -/
def Obligations.StepRunsTheFrontCommand : Prop :=
  (∀ (c : Instr) (s : State) (rest : List Instr), s.pending = c :: rest → step s = exec c { s with pending := rest }) ∧
  ∀ s : State, s.pending = [] → step s = .next s

/-- Every command of the block answers a next state in every state, leaves the queue as it found it, and takes back nothing
that has left the block and no free value drawn. The readings of log entries 3 and 28 are the model's. -/
def Obligations.EveryCommandCompletes : Prop :=
  ∀ (c : Instr) (s : State), ∃ t more, exec c s = .next t ∧ t.pending = s.pending ∧ t.out = s.out ++ more ∧ s.fresh ≤ t.fresh

/-- The block after reset (R11, R59): its stores have their canonical form, every object holds its default, every engine's
registers hold their reset values, and no command waits. Where the spec gives no reset value the value is the model's
choice (log entry 2). -/
def Obligations.ResetStateIsCanonical : Prop :=
  State.reset.canonical = true ∧ State.reset.pending = [] ∧ State.reset.out = [] ∧
    (∀ ix sub, sub < 16777216 → State.reset.obj ix sub = objDefault (objKey ix sub)) ∧
    (∀ e : Fin 16, (State.reset.engine e).rf = RegFile.reset ∧ (State.reset.engine e).pc = 0) ∧ ∀ a, memByte State.reset a = 0

/-- The canonical form of the stores is an invariant of every step, from every state that has it. -/
def Obligations.EveryStepKeepsTheCanonicalForm : Prop :=
  ∀ s t : State, s.canonical = true → step s = .next t → t.canonical = true
end

