-- ==== Sys2Proof/Laws/Store.lean ====
section
/-! SUPPORT. What reading and writing one key of a sparse store does, and that every write keeps the canonical form. -/

namespace Sys2Proof.Machine

variable {α : Type}

@[simp] theorem mapFind_mapPut_self (k : Nat) (v : α) (m : Map α) : mapFind k (mapPut k v m) = some v := by
  induction m with
  | nil => simp [mapPut, mapFind]
  | cons x t ih =>
    obtain ⟨k', v'⟩ := x
    simp only [mapPut]
    split
    · simp [mapFind]
    · split
      · simp [mapFind]
      · next h => simp [mapFind, h, ih]

theorem mapFind_mapPut_ne {k j : Nat} (h : j ≠ k) (v : α) (m : Map α) : mapFind j (mapPut k v m) = mapFind j m := by
  induction m with
  | nil => simp [mapPut, mapFind, Ne.symm h]
  | cons x t ih =>
    obtain ⟨k', v'⟩ := x
    simp only [mapPut]
    split
    · simp [mapFind, Ne.symm h]
    · split
      · next h2 => subst h2; simp [mapFind, Ne.symm h]
      · simp [mapFind, ih]

@[simp] theorem mapFind_mapErase_self (k : Nat) (m : Map α) : mapFind k (mapErase k m) = none := by
  induction m with
  | nil => simp [mapErase, mapFind]
  | cons x t ih =>
    obtain ⟨k', v'⟩ := x
    simp only [mapErase]
    split
    · exact ih
    · next h => simp [mapFind, h, ih]

theorem mapFind_mapErase_ne {k j : Nat} (h : j ≠ k) (m : Map α) : mapFind j (mapErase k m) = mapFind j m := by
  induction m with
  | nil => simp [mapErase]
  | cons x t ih =>
    obtain ⟨k', v'⟩ := x
    simp only [mapErase]
    split
    · next h2 => subst h2; simp [mapFind, Ne.symm h, ih]
    · simp [mapFind, ih]

/-- A key that has been written reads as what was written. -/
@[simp] theorem mapGet_mapSet_self [DecidableEq α] (d : Nat → α) (k : Nat) (v : α) (m : Map α) :
    mapGet d k (mapSet d k v m) = v := by
  unfold mapGet mapSet
  split
  · next h => simp [h]
  · simp

/-- Every other key reads as before. -/
theorem mapGet_mapSet_ne [DecidableEq α] (d : Nat → α) {k j : Nat} (h : j ≠ k) (v : α) (m : Map α) :
    mapGet d j (mapSet d k v m) = mapGet d j m := by
  unfold mapGet mapSet
  split
  · rw [mapFind_mapErase_ne h]
  · rw [mapFind_mapPut_ne h]

/-- Reading any key after a write. -/
theorem mapGet_mapSet [DecidableEq α] (d : Nat → α) (k j : Nat) (v : α) (m : Map α) :
    mapGet d j (mapSet d k v m) = if j = k then v else mapGet d j m := by
  split
  · next h => subst h; simp
  · next h => exact mapGet_mapSet_ne d h v m

theorem mapWfFrom_weaken [DecidableEq α] {d : Nat → α} {lo : Option Nat} {m : Map α} (h : mapWfFrom d lo m = true) :
    mapWfFrom d none m = true := by
  cases m with
  | nil => rfl
  | cons x t =>
    obtain ⟨k, v⟩ := x
    simp [mapWfFrom] at h ⊢
    exact ⟨h.1.2, h.2⟩

theorem mapWfFrom_lower [DecidableEq α] {d : Nat → α} {a b : Nat} {m : Map α} (hab : a ≤ b)
    (h : mapWfFrom d (some b) m = true) : mapWfFrom d (some a) m = true := by
  cases m with
  | nil => rfl
  | cons x t =>
    obtain ⟨k, v⟩ := x
    simp [mapWfFrom] at h ⊢
    exact ⟨⟨by omega, h.1.2⟩, h.2⟩

theorem mapWfFrom_put [DecidableEq α] {d : Nat → α} (k : Nat) (v : α) (hv : v ≠ d k) (m : Map α) :
    ∀ lo : Option Nat, (∀ l, lo = some l → l < k) → mapWfFrom d lo m = true → mapWfFrom d lo (mapPut k v m) = true := by
  induction m with
  | nil =>
    intro lo hlo _
    cases lo with
    | none => simp [mapPut, mapWfFrom, hv]
    | some l => simp [mapPut, mapWfFrom, hv, hlo l rfl]
  | cons x t ih =>
    intro lo hlo h
    obtain ⟨k', v'⟩ := x
    simp only [mapPut]
    split
    · next hk =>
      simp only [mapWfFrom, Bool.and_eq_true, decide_eq_true_eq] at h ⊢
      refine ⟨⟨?_, hv⟩, ⟨hk, h.1.2⟩, h.2⟩
      cases lo with
      | none => rfl
      | some l => simpa using hlo l rfl
    · split
      · next hk =>
        subst hk
        simp only [mapWfFrom, Bool.and_eq_true, decide_eq_true_eq] at h ⊢
        exact ⟨⟨h.1.1, hv⟩, h.2⟩
      · simp only [mapWfFrom, Bool.and_eq_true, decide_eq_true_eq] at h ⊢
        refine ⟨h.1, ih (some k') ?_ h.2⟩
        intro l hl
        cases hl
        omega

theorem mapWfFrom_erase [DecidableEq α] {d : Nat → α} (k : Nat) (m : Map α) :
    ∀ lo : Option Nat, mapWfFrom d lo m = true → mapWfFrom d lo (mapErase k m) = true := by
  induction m with
  | nil => intro lo _; rfl
  | cons x t ih =>
    intro lo h
    obtain ⟨k', v'⟩ := x
    simp only [mapErase]
    simp only [mapWfFrom, Bool.and_eq_true, decide_eq_true_eq] at h
    split
    · refine ih lo ?_
      cases lo with
      | none => exact mapWfFrom_weaken h.2
      | some l => exact mapWfFrom_lower (by simp at h; omega) h.2
    · simp only [mapWfFrom, Bool.and_eq_true, decide_eq_true_eq]
      exact ⟨h.1, ih _ h.2⟩

/-- A write keeps the canonical form. -/
theorem mapWf_mapSet [DecidableEq α] {d : Nat → α} (k : Nat) (v : α) {m : Map α} (h : mapWf d m = true) :
    mapWf d (mapSet d k v m) = true := by
  unfold mapSet mapWf
  split
  · exact mapWfFrom_erase k m none h
  · next hv => exact mapWfFrom_put k v hv m none (by simp) h

theorem mapWfFrom_filter [DecidableEq α] {d : Nat → α} (p : Nat × α → Bool) (m : Map α) :
    ∀ lo : Option Nat, mapWfFrom d lo m = true → mapWfFrom d lo (m.filter p) = true := by
  induction m with
  | nil => intro lo _; rfl
  | cons x t ih =>
    intro lo h
    obtain ⟨k, v⟩ := x
    simp only [mapWfFrom, Bool.and_eq_true, decide_eq_true_eq] at h
    simp only [List.filter_cons]
    split
    · simp only [mapWfFrom, Bool.and_eq_true, decide_eq_true_eq]
      exact ⟨h.1, ih _ h.2⟩
    · refine ih lo ?_
      cases lo with
      | none => exact mapWfFrom_weaken h.2
      | some l => exact mapWfFrom_lower (by simp at h; omega) h.2

/-- Dropping entries keeps the canonical form. -/
theorem mapWf_filter [DecidableEq α] {d : Nat → α} (p : Nat × α → Bool) {m : Map α} (h : mapWf d m = true) :
    mapWf d (m.filter p) = true :=
  mapWfFrom_filter p m none h

/-- Equal reads are equal stores, in the canonical form. -/
theorem mapFind_none_of_lower [DecidableEq α] {d : Nat → α} {l k : Nat} {m : Map α} (hk : k ≤ l)
    (h : mapWfFrom d (some l) m = true) : mapFind k m = none := by
  induction m generalizing l with
  | nil => rfl
  | cons x t ih =>
    obtain ⟨k', v'⟩ := x
    simp only [mapWfFrom, Bool.and_eq_true, decide_eq_true_eq] at h
    have : k' ≠ k := by omega
    simp only [mapFind, this, if_false]
    exact ih (by omega) h.2

end Sys2Proof.Machine
end

