-- ==== Sys2Proof/Laws/Keep.lean ====
section
/-! SUPPORT. What every operation of the block leaves in order: the queue of waiting commands as it was, what has left
the block still there, no free value drawn twice, and the stores in canonical form. -/

namespace Sys2Proof.Machine

/-- From `s` to `t` the queue is as it was, outputs are only added, free values are only drawn, and the canonical form
is kept. -/
structure Keep (s t : State) : Prop where
  pending : t.pending = s.pending
  out : s.out <+: t.out
  fresh : s.fresh ≤ t.fresh
  canon : s.canonical = true → t.canonical = true

theorem canonical_iff (s : State) : s.canonical = true ↔
    Memory.wf s.fab.mem = true ∧ mapWf objDefault s.dict = true ∧ mapWf objDefault s.snap = true := by
  simp [State.canonical, Bool.and_eq_true, and_assoc]

theorem Keep.refl (s : State) : Keep s s := ⟨rfl, List.prefix_refl _, Nat.le_refl _, id⟩

theorem Keep.trans {s t u : State} (h : Keep s t) (k : Keep t u) : Keep s u :=
  ⟨k.pending.trans h.pending, h.out.trans k.out, Nat.le_trans h.fresh k.fresh, fun c => k.canon (h.canon c)⟩

/-- `Keep`, by the fields it speaks of. -/
def KeepCore (s : State) (pending : List Instr) (out : List Output) (fresh : Nat) (dict snap : Map Val) (mem : Map Byte) : Prop :=
  pending = s.pending ∧ s.out <+: out ∧ s.fresh ≤ fresh ∧ (s.canonical = true →
    Memory.wf mem = true ∧ mapWf objDefault dict = true ∧ mapWf objDefault snap = true)

/-- A state written out: only the fields of `KeepCore` matter. -/
theorem keep_mk (s : State) (pending out fresh dict snap writes clk engines lat bench shut ctl hp rsv fab port net tim ref syn
    pair sec boot cue) :
    Keep s (State.mk pending out fresh dict snap writes clk engines lat bench shut ctl hp rsv fab port net tim ref syn pair sec
      boot cue) ↔ KeepCore s pending out fresh dict snap fab.mem :=
  ⟨fun h => ⟨h.pending, h.out, h.fresh, fun c => (canonical_iff _).1 (h.canon c)⟩,
    fun h => ⟨h.1, h.2.1, h.2.2.1, fun c => (canonical_iff _).2 (h.2.2.2 c)⟩⟩

theorem Keep.core {s t : State} (h : Keep s t) : KeepCore s t.pending t.out t.fresh t.dict t.snap t.fab.mem :=
  ⟨h.pending, h.out, h.fresh, fun c => (canonical_iff _).1 (h.canon c)⟩

/-- A free value drawn. -/
theorem Keep.coreDraw {s t : State} (h : Keep s t) {n : Nat} (hn : t.fresh ≤ n) :
    KeepCore s t.pending t.out n t.dict t.snap t.fab.mem :=
  ⟨h.pending, h.out, Nat.le_trans h.fresh hn, fun c => (canonical_iff _).1 (h.canon c)⟩

/-- Another fabric memory in canonical form. -/
theorem Keep.coreMem {s t : State} (h : Keep s t) {mem : Map Byte} (hm : s.canonical = true → Memory.wf mem = true) :
    KeepCore s t.pending t.out t.fresh t.dict t.snap mem :=
  ⟨h.pending, h.out, h.fresh, fun c => ⟨hm c, ((canonical_iff _).1 (h.canon c)).2⟩⟩

/-- The snapshot of a tick (R164). -/
theorem Keep.coreSnap {s t : State} (h : Keep s t) : KeepCore s t.pending t.out t.fresh t.dict t.dict t.fab.mem :=
  ⟨h.pending, h.out, h.fresh, fun c =>
    have k := (canonical_iff _).1 (h.canon c)
    ⟨k.1, k.2.1, k.2.1⟩⟩

theorem Keep.ite {s t u : State} {c : Prop} [Decidable c] (ht : Keep s t) (hu : Keep s u) : Keep s (if c then t else u) := by
  split
  · exact ht
  · exact hu

theorem Keep.ite1 {α : Type} {s : State} {c : Prop} [Decidable c] {a b : State × α} (ha : Keep s a.1) (hb : Keep s b.1) :
    Keep s (if c then a else b).1 := by
  split
  · exact ha
  · exact hb

theorem Keep.ite2 {α : Type} {s : State} {c : Prop} [Decidable c] {a b : α × State} (ha : Keep s a.2) (hb : Keep s b.2) :
    Keep s (if c then a else b).2 := by
  split
  · exact ha
  · exact hb

theorem Keep.ite22 {α β : Type} {s : State} {c : Prop} [Decidable c] {a b : α × β × State} (ha : Keep s a.2.2)
    (hb : Keep s b.2.2) : Keep s (if c then a else b).2.2 := by
  split
  · exact ha
  · exact hb

theorem Keep.foldl {α : Type} {s t : State} {f : State → α → State} (h : Keep s t)
    (hf : ∀ u a, Keep s u → Keep s (f u a)) (l : List α) : Keep s (l.foldl f t) := by
  induction l generalizing t with
  | nil => exact h
  | cons a l ih => exact ih (hf t a h)

/-- A fold that carries something beside the state. -/
theorem Keep.foldlFst {α β : Type} {s : State} {f : State × β → α → State × β} {p : State × β} (h : Keep s p.1)
    (hf : ∀ q a, Keep s q.1 → Keep s (f q a).1) (l : List α) : Keep s (l.foldl f p).1 := by
  induction l generalizing p with
  | nil => exact h
  | cons a l ih => exact ih (hf p a h)

theorem Keep.forN {s t : State} {f : Nat → State → State} (h : Keep s t) (hf : ∀ k u, Keep s u → Keep s (f k u)) (n : Nat) :
    Keep s (forN f n t) := by
  induction n with
  | zero => exact h
  | succ n ih => exact hf n _ ih

theorem Keep.iterate {s t : State} {f : State → State} (h : Keep s t) (hf : ∀ u, Keep s u → Keep s (f u)) (n : Nat) :
    Keep s (iterate f n t) := by
  induction n generalizing t with
  | zero => exact h
  | succ n ih => exact ih (hf t h)

theorem Keep.setObj {s t : State} (h : Keep s t) (ix sub : Nat) (v : Val) : Keep s (t.setObj ix sub v) :=
  ⟨h.pending, h.out, h.fresh, fun c => by
    have k := (canonical_iff t).1 (h.canon c)
    rw [canonical_iff]
    exact ⟨k.1, mapWf_mapSet _ _ k.2.1, k.2.2⟩⟩

theorem Keep.emit {s t : State} (h : Keep s t) (o : Output) : Keep s (t.emit o) :=
  ⟨h.pending, h.out.trans (List.prefix_append _ _), h.fresh, h.canon⟩

theorem Keep.setMemByte {s t : State} (h : Keep s t) (a : Nat) (b : Byte) : Keep s (setMemByte t a b) :=
  ⟨h.pending, h.out, h.fresh, fun c => by
    have k := (canonical_iff t).1 (h.canon c)
    rw [canonical_iff]
    exact ⟨mapWf_mapSet _ _ k.1, k.2.1, k.2.2⟩⟩

/-- A reset empties the stores and keeps the queue, the outputs and the count of free values. -/
theorem Keep.reset (s : State) (sec : SecSt) (boot : BootSt) :
    Keep s { State.reset with pending := s.pending, out := s.out, fresh := s.fresh, sec := sec, boot := boot } :=
  ⟨rfl, List.prefix_refl _, Nat.le_refl _, fun _ => rfl⟩

/-- What a command answers, when it answers a next state, is in order. -/
def KeepOut (s : State) : Host.Outcome State Fault Refusal → Prop
  | .next t => Keep s t
  | .fault _ => True
  | .refused _ => True

theorem Keep.iteAns {s : State} {c : Prop} [Decidable c] {a b : OpAns} (ha : Keep s a.st) (hb : Keep s b.st) :
    Keep s (if c then a else b).st := by
  split
  · exact ha
  · exact hb

theorem KeepOut.next {s t : State} (h : Keep s t) : KeepOut s (.next t) := h

theorem KeepOut.ite {s : State} {c : Prop} [Decidable c] {a b : Host.Outcome State Fault Refusal} (ha : KeepOut s a)
    (hb : KeepOut s b) : KeepOut s (if c then a else b) := by
  split
  · exact ha
  · exact hb

end Sys2Proof.Machine
end

