-- ==== Sys2Proof/Laws/KeepAudio.lean ====
section
/-! SUPPORT. `Keep` for every operation and command of Ops, ReserveOps, PmuOps, LatticeOps, BenchOps, PortOps, TakeOps, NetOps. -/

namespace Sys2Proof.Machine

set_option linter.unusedVariables false
set_option linter.unusedSimpArgs false

theorem setObj_keep {s0 s : State} (h : Keep s0 s) (a1 a2 a3) : Keep s0 (s.setObj a1 a2 a3) := h.setObj a1 a2 a3

theorem setNat_keep {s0 s : State} (h : Keep s0 s) (a1 a2 a3) : Keep s0 (@State.setNat s a1 a2 a3) := by
  unfold State.setNat
  with_reducible repeat' (first | assumption | apply setObj_keep)

theorem logAdd_keep {s0 s : State} (h : Keep s0 s) (a1 a2) : Keep s0 (@logAdd s a1 a2) := by
  unfold logAdd
  with_reducible repeat' (first | assumption | apply Keep.ite | apply setNat_keep | simp only [keep_mk] | apply Keep.core)

theorem logWrapCheck_keep {s0 s : State} (h : Keep s0 s) : Keep s0 (@logWrapCheck s) := by
  unfold logWrapCheck
  with_reducible repeat' (first | assumption | apply Keep.ite | apply logAdd_keep | simp only [keep_mk] | apply Keep.core)

theorem logAlarm_keep {s0 s : State} (h : Keep s0 s) (a1 a2) : Keep s0 (@logAlarm s a1 a2) := by
  unfold logAlarm
  with_reducible repeat' (first | assumption | apply logWrapCheck_keep | apply logAdd_keep)

theorem alarm_keep {s0 s : State} (h : Keep s0 s) (a1 a2) : Keep s0 (@State.alarm s a1 a2) := by
  unfold State.alarm
  with_reducible repeat' (first | assumption | apply Keep.ite | apply logAlarm_keep)

theorem alarmIf_keep {s0 s : State} (h : Keep s0 s) (a1 a2 a3) : Keep s0 (@State.alarmIf s a1 a2 a3) := by
  unfold State.alarmIf
  with_reducible repeat' (first | assumption | apply Keep.ite | apply alarm_keep)

theorem setInt_keep {s0 s : State} (h : Keep s0 s) (a1 a2 a3) : Keep s0 (@State.setInt s a1 a2 a3) := by
  unfold State.setInt
  with_reducible repeat' (first | assumption | apply setObj_keep)

theorem setEngine_keep {s0 s : State} (h : Keep s0 s) (a1 a2) : Keep s0 (@State.setEngine s a1 a2) := by
  unfold State.setEngine
  with_reducible repeat' (first | assumption | simp only [keep_mk] | apply Keep.core)

theorem addBlock_keep {s0 s : State} (h : Keep s0 s) (a0 a1 a2 a3 a4) : Keep s0 (@addBlock a0 a1 a2 a3 a4 s) := by
  unfold addBlock
  with_reducible repeat' (first | assumption | apply Keep.ite | apply setNat_keep | apply alarmIf_keep)

theorem fabEvent_keep {s0 s : State} (h : Keep s0 s) (a0 a1 a2 a3) : Keep s0 (@fabEvent a0 a1 a2 a3 s) := by
  unfold fabEvent
  with_reducible repeat' (first
    | assumption | apply Keep.ite | apply addBlock_keep | apply Keep.foldl | (intro _; intros; try dsimp -zeta only))

theorem addHold_keep {s0 s : State} (h : Keep s0 s) (a1 a2 a3) : Keep s0 (@State.addHold s a1 a2 a3) := by
  unfold State.addHold
  with_reducible repeat' (first | assumption | apply setNat_keep)

theorem addWrap_keep {s0 s : State} (h : Keep s0 s) (a1 a2 a3) : Keep s0 (@State.addWrap s a1 a2 a3) := by
  unfold State.addWrap
  with_reducible repeat' (first | assumption | apply setNat_keep)

theorem setDest_keep {s0 s : State} (h : Keep s0 s) (a1 a2) : Keep s0 (@State.setDest s a1 a2) := by
  unfold State.setDest
  with_reducible repeat' (first | assumption | apply setNat_keep | simp only [keep_mk] | apply Keep.core)

theorem selFault_keep {s0 s : State} (h : Keep s0 s) (a1) : Keep s0 (@selFault s a1) := by
  unfold selFault
  with_reducible repeat' (first | assumption | apply alarm_keep | apply addWrap_keep | apply setDest_keep)

theorem setSource_keep {s0 s : State} (h : Keep s0 s) (a1 a2) : Keep s0 (@State.setSource s a1 a2) := by
  unfold State.setSource
  with_reducible repeat' (first | assumption | simp only [keep_mk] | apply Keep.core)

theorem frameFault_keep {s0 s : State} (h : Keep s0 s) (a1 a2) : Keep s0 (@frameFault s a1 a2) := by
  unfold frameFault
  with_reducible repeat' (first
    | assumption | apply setSource_keep | apply alarm_keep | apply addWrap_keep | simp only [keep_mk] | apply Keep.core
    | split)

theorem slotFault_keep {s0 s : State} (h : Keep s0 s) (a1 a2 a3) : Keep s0 (@slotFault s a1 a2 a3) := by
  unfold slotFault
  with_reducible repeat' (first | assumption | apply Keep.ite | apply alarm_keep | apply addWrap_keep | apply frameFault_keep)

theorem setXp_keep {s0 s : State} (h : Keep s0 s) (a1 a2) : Keep s0 (@setXp s a1 a2) := by
  unfold setXp
  with_reducible repeat' (first
    | assumption | apply Keep.ite | apply setNat_keep | apply setInt_keep | simp only [keep_mk] | apply Keep.core)

theorem emit_keep {s0 s : State} (h : Keep s0 s) (o) : Keep s0 (s.emit o) := h.emit o

theorem setAes_keep {s0 s : State} (h : Keep s0 s) (a1 a2) : Keep s0 (@setAes s a1 a2) := by
  unfold setAes
  with_reducible repeat' (first | assumption | simp only [keep_mk] | apply Keep.core)

theorem netEvent_keep {s0 s : State} (h : Keep s0 s) (a0 a1 a2) : Keep s0 (@netEvent a0 a1 a2 s) := by
  unfold netEvent
  with_reducible repeat' (first
    | assumption | apply Keep.ite | apply addBlock_keep | apply Keep.foldl | simp only [keep_mk]
    | (intro _; intros; try dsimp -zeta only))

theorem sendCtl_keep {s0 s : State} (h : Keep s0 s) (a1 a2) : Keep s0 (@sendCtl s a1 a2) := by
  unfold sendCtl
  with_reducible repeat' (first | assumption | apply Keep.ite | apply addHold_keep | apply netEvent_keep | apply emit_keep)

theorem draw_keep {s0 s : State} (h : Keep s0 s) : Keep s0 (@State.draw s).2 := by
  unfold State.draw
  with_reducible repeat' (first | assumption | simp only [keep_mk] | refine Keep.coreDraw ?_ (Nat.le_succ _))

theorem draw_keep_eq {s0 s t : State}  {x0} (e : @State.draw s = (x0, t)) (h : Keep s0 s) : Keep s0 t := by
  have k := draw_keep h 
  rw [e] at k
  exact k

theorem syncLeaves_keep {s0 s : State} (h : Keep s0 s) : Keep s0 (@syncLeaves s) := by
  unfold syncLeaves
  with_reducible repeat' (first | assumption | apply setNat_keep)

theorem setRsvState_keep {s0 s : State} (h : Keep s0 s) (a1 a2) : Keep s0 (@setRsvState s a1 a2) := by
  unfold setRsvState
  with_reducible repeat' (first | assumption | apply Keep.ite | apply syncLeaves_keep | apply setNat_keep | apply alarm_keep)

theorem setMigState_keep {s0 s : State} (h : Keep s0 s) (a1 a2 a3) : Keep s0 (@setMigState s a1 a2 a3) := by
  unfold setMigState
  with_reducible repeat' (first | assumption | apply setNat_keep)

theorem abandonMove_keep {s0 s : State} (h : Keep s0 s) (a1 a2) : Keep s0 (@abandonMove s a1 a2) := by
  unfold abandonMove
  with_reducible repeat' (first
    | assumption | apply setRsvState_keep | apply setEngine_keep | apply alarm_keep | apply setMigState_keep
    | simp only [keep_mk] | apply Keep.core | split)

theorem coldNow_keep {s0 s : State} (h : Keep s0 s) (a1) : Keep s0 (@coldNow s a1) := by
  unfold coldNow
  with_reducible repeat' (first
    | assumption | apply Keep.ite | apply setEngine_keep | apply setMigState_keep | simp only [keep_mk] | apply Keep.core)

theorem startMove_keep {s0 s : State} (h : Keep s0 s) (a1) : Keep s0 (@startMove s a1) := by
  unfold startMove
  with_reducible repeat' (first
    | assumption | apply Keep.ite | apply alarm_keep | apply setMigState_keep | apply setEngine_keep | apply setRsvState_keep
    | simp only [keep_mk] | apply Keep.core | split)

theorem nextMove_keep {s0 s : State} (h : Keep s0 s) : Keep s0 (@nextMove s) := by
  unfold nextMove
  with_reducible repeat' (first
    | assumption | apply Keep.ite | apply startMove_keep | simp only [keep_mk] | apply Keep.core | split)

theorem askFirst_keep {s0 s : State} (h : Keep s0 s) (a1) : Keep s0 (@askFirst s a1) := by
  unfold askFirst
  with_reducible repeat' (first | assumption | apply nextMove_keep | simp only [keep_mk] | apply Keep.core)

theorem askMove_keep {s0 s : State} (h : Keep s0 s) (a1) : Keep s0 (@askMove s a1) := by
  unfold askMove
  with_reducible repeat' (first | assumption | apply nextMove_keep | simp only [keep_mk] | apply Keep.core)

theorem onHalt_keep {s0 s : State} (h : Keep s0 s) (a1) : Keep s0 (@onHalt s a1) := by
  unfold onHalt
  with_reducible repeat' (first
    | assumption | apply Keep.ite | apply setNat_keep | apply abandonMove_keep | apply coldNow_keep | apply setRsvState_keep
    | apply askFirst_keep | apply askMove_keep | simp only [keep_mk] | apply Keep.core | split)

theorem haltEngine_keep {s0 s : State} (h : Keep s0 s) (a1 a2) : Keep s0 (@haltEngine s a1 a2) := by
  unfold haltEngine
  with_reducible repeat' (first
    | assumption | apply addWrap_keep | apply setEngine_keep | apply onHalt_keep | apply alarm_keep)

theorem aesAsrc_keep {s0 s : State} (h : Keep s0 s) (a1 a2) : Keep s0 (@aesAsrc s a1 a2) := by
  unfold aesAsrc
  with_reducible repeat' (first
    | assumption | apply Keep.ite | apply setNat_keep | apply Keep.foldl | simp only [keep_mk]
    | (intro _; intros; try dsimp -zeta only))

theorem syncDir_keep {s0 s : State} (h : Keep s0 s) (a1) : Keep s0 (@syncDir s a1) := by
  unfold syncDir
  with_reducible repeat' (first | assumption | apply Keep.ite | apply setNat_keep)

theorem setDir_keep {s0 s : State} (h : Keep s0 s) (a1 a2) : Keep s0 (@setDir s a1 a2) := by
  unfold setDir
  with_reducible repeat' (first | assumption | apply syncDir_keep | simp only [keep_mk] | apply Keep.core)

theorem setFlag_keep {s0 s : State} (h : Keep s0 s) (a1 a2 a3) : Keep s0 (@State.setFlag s a1 a2 a3) := by
  unfold State.setFlag
  with_reducible repeat' (first | assumption | apply setObj_keep)

theorem landDest_keep {s0 s : State} (h : Keep s0 s) (a0 a2 a3) : Keep s0 (@landDest a0 s a2 a3) := by
  unfold landDest
  with_reducible repeat' (first | assumption | apply setDest_keep | simp only [keep_mk] | apply Keep.core)

theorem landXp_keep {s0 s : State} (h : Keep s0 s) (a0 a2 a3) : Keep s0 (@landXp a0 s a2 a3) := by
  unfold landXp
  with_reducible repeat' (first | assumption | apply setXp_keep | simp only [keep_mk] | apply Keep.core)

theorem putFrame_keep {s0 s : State} (h : Keep s0 s) (a1 a2) : Keep s0 (@putFrame s a1 a2) := by
  unfold putFrame
  with_reducible repeat' (first | assumption | apply Keep.ite | apply setSource_keep)

theorem keepFrames_keep {s0 s : State} (h : Keep s0 s) (a0 a2) : Keep s0 (@keepFrames a0 s a2) := by
  unfold keepFrames
  with_reducible repeat' (first
    | assumption | apply putFrame_keep | apply Keep.foldl | (intro _; intros; try dsimp -zeta only) | split)

theorem landGen_keep {s0 s : State} (h : Keep s0 s) (a0 a2) : Keep s0 (@landGen a0 s a2) := by
  unfold landGen
  with_reducible repeat' (first | assumption | apply Keep.ite | apply keepFrames_keep | simp only [keep_mk] | apply Keep.core)

theorem takeAsrc_keep {s0 s : State} (h : Keep s0 s) (a1) : Keep s0 (@takeAsrc s a1) := by
  unfold takeAsrc
  with_reducible repeat' (first | assumption | apply setNat_keep | split)

theorem startDir_keep {s0 s : State} (h : Keep s0 s) (a1) : Keep s0 (@startDir s a1) := by
  unfold startDir
  with_reducible repeat' (first
    | assumption | apply Keep.ite | apply setDir_keep | apply takeAsrc_keep | apply setAes_keep | apply aesAsrc_keep
    | apply Keep.foldl | (intro _; intros; try dsimp -zeta only))

theorem landTdmEn_keep {s0 s : State} (h : Keep s0 s) (a1 a2) : Keep s0 (@landTdmEn s a1 a2) := by
  unfold landTdmEn
  with_reducible repeat' (first
    | assumption | apply Keep.ite | apply startDir_keep | apply setDir_keep | apply Keep.foldl | simp only [keep_mk]
    | (intro _; intros; try dsimp -zeta only))

theorem freeAsrc_keep {s0 s : State} (h : Keep s0 s) (a1) : Keep s0 (@freeAsrc s a1) := by
  unfold freeAsrc
  with_reducible repeat' (first | assumption | apply Keep.ite | apply setNat_keep | simp only [keep_mk] | split)

theorem deferMask_keep {s0 s : State} (h : Keep s0 s) (a1) : Keep s0 (@deferMask s a1) := by
  unfold deferMask
  with_reducible repeat' (first
    | assumption | apply freeAsrc_keep | apply setDir_keep | apply Keep.foldl | simp only [keep_mk]
    | (intro _; intros; try dsimp -zeta only) | split)

theorem outOfService_keep {s0 s : State} (h : Keep s0 s) (a1 a2 a3) : Keep s0 (@outOfService s a1 a2 a3) := by
  unfold outOfService
  with_reducible repeat' (first | assumption | apply setDir_keep)

theorem landRestart_keep {s0 s : State} (h : Keep s0 s) (a1) : Keep s0 (@landRestart s a1) := by
  unfold landRestart
  with_reducible repeat' (first
    | assumption | apply Keep.ite | apply deferMask_keep | apply outOfService_keep | apply setDir_keep)

theorem landMask_keep {s0 s : State} (h : Keep s0 s) (a1) : Keep s0 (@landMask s a1) := by
  unfold landMask
  with_reducible repeat' (first
    | assumption | apply Keep.ite | apply setDir_keep | apply takeAsrc_keep | apply Keep.foldl
    | (intro _; intros; try dsimp -zeta only))

theorem landAesEn_keep {s0 s : State} (h : Keep s0 s) (a1 a2) : Keep s0 (@landAesEn s a1 a2) := by
  unfold landAesEn
  with_reducible repeat' (first | assumption | apply Keep.ite | apply startDir_keep | apply setDir_keep)

theorem landAesAsrc_keep {s0 s : State} (h : Keep s0 s) (a1 a2) : Keep s0 (@landAesAsrc s a1 a2) := by
  unfold landAesAsrc
  with_reducible repeat' (first | assumption | apply Keep.ite | apply landRestart_keep)

theorem toNonPcm_keep {s0 s : State} (h : Keep s0 s) (a1 a2 a3) : Keep s0 (@toNonPcm s a1 a2 a3) := by
  unfold toNonPcm
  with_reducible repeat' (first | assumption | apply setAes_keep | apply syncDir_keep | apply alarmIf_keep)

theorem applyStatus_keep {s0 s : State} (h : Keep s0 s) (a1 a2 a3) : Keep s0 (@applyStatus s a1 a2 a3) := by
  unfold applyStatus
  with_reducible repeat' (first | assumption | apply Keep.ite | apply toNonPcm_keep)

theorem landNpcmMode_keep {s0 s : State} (h : Keep s0 s) (a1) : Keep s0 (@landNpcmMode s a1) := by
  unfold landNpcmMode
  with_reducible repeat' (first | assumption | apply applyStatus_keep)

theorem setRx_keep {s0 s : State} (h : Keep s0 s) (a1 a2) : Keep s0 (@setRx s a1 a2) := by
  unfold setRx
  with_reducible repeat' (first | assumption | apply setNat_keep | simp only [keep_mk] | apply Keep.core)

theorem reportGroups_keep {s0 s : State} (h : Keep s0 s) (a1 a2) : Keep s0 (@reportGroups s a1 a2) := by
  unfold reportGroups
  with_reducible repeat' (first
    | assumption | apply sendCtl_keep | apply Keep.foldl | (intro _; intros; try dsimp -zeta only))

theorem igmpReport_keep {s0 s : State} (h : Keep s0 s) (a1 a2) : Keep s0 (@igmpReport s a1 a2) := by
  unfold igmpReport
  with_reducible repeat' (first | assumption | apply Keep.ite | apply reportGroups_keep)

theorem joinStream_keep {s0 s : State} (h : Keep s0 s) (a1 a2) : Keep s0 (@joinStream s a1 a2) := by
  unfold joinStream
  with_reducible repeat' (first | assumption | apply setRx_keep | apply igmpReport_keep)

theorem landRxEn_keep {s0 s : State} (h : Keep s0 s) (a1 a2) : Keep s0 (@landRxEn s a1 a2) := by
  unfold landRxEn
  with_reducible repeat' (first
    | assumption | apply Keep.ite | apply joinStream_keep | apply igmpReport_keep | apply setRx_keep)

theorem landRxOffset_keep {s0 s : State} (h : Keep s0 s) (a1) : Keep s0 (@landRxOffset s a1) := by
  unfold landRxOffset
  with_reducible repeat' (first | assumption | apply Keep.ite | apply setRx_keep)

theorem setTx_keep {s0 s : State} (h : Keep s0 s) (a1 a2) : Keep s0 (@setTx s a1 a2) := by
  unfold setTx
  with_reducible repeat' (first | assumption | simp only [keep_mk] | apply Keep.core)

theorem landTxEn_keep {s0 s : State} (h : Keep s0 s) (a1) : Keep s0 (@landTxEn s a1) := by
  unfold landTxEn
  with_reducible repeat' (first | assumption | apply Keep.ite | apply setTx_keep | apply setNat_keep)

theorem landWatch_keep {s0 s : State} (h : Keep s0 s) (a0) : Keep s0 (@landWatch a0 s) := by
  unfold landWatch
  with_reducible repeat' (first
    | assumption | apply Keep.ite | apply reportGroups_keep | simp only [keep_mk] | apply Keep.core)

theorem syncHotLeaf_keep {s0 s : State} (h : Keep s0 s) : Keep s0 (@syncHotLeaf s) := by
  unfold syncHotLeaf
  with_reducible repeat' (first | assumption | apply setNat_keep)

theorem xpFault_keep {s0 s : State} (h : Keep s0 s) (a1) : Keep s0 (@xpFault s a1) := by
  unfold xpFault
  with_reducible repeat' (first
    | assumption | apply setXp_keep | apply alarm_keep | apply addWrap_keep | simp only [keep_mk] | apply Keep.core)

theorem openBench_keep {s0 s : State} (h : Keep s0 s) : Keep s0 (@openBench s) := by
  unfold openBench
  with_reducible repeat' (first | assumption | apply Keep.ite | simp only [keep_mk] | apply Keep.core)

theorem benchEvent_keep {s0 s : State} (h : Keep s0 s) (a0 a1) : Keep s0 (@benchEvent a0 a1 s) := by
  unfold benchEvent
  with_reducible repeat' (first
    | assumption | apply Keep.ite | apply addBlock_keep | apply Keep.foldl | simp only [keep_mk]
    | (intro _; intros; try dsimp -zeta only))

theorem asrcWords_keep (n c) {s0 s : State} (h : Keep s0 s) : Keep s0 (asrcWords n c s).2 := by
  induction n generalizing s with
  | zero => exact h
  | succ n ih => exact ih ((keep_mk ..).2 (h.coreDraw (Nat.le_succ _)))
theorem asrcWords_keep_eq {s0 s t : State} {a0 a1} {x0} (e : asrcWords a0 a1 s = (x0, t)) (h : Keep s0 s) : Keep s0 t := by
  have k := asrcWords_keep a0 a1 h
  rw [e] at k
  exact k

theorem txWords_keep {s0 s : State} (h : Keep s0 s) (a1 a2 a3 a4 a5) : Keep s0 (@txWords s a1 a2 a3 a4 a5).2 := by
  unfold txWords
  with_reducible repeat' (first | assumption | apply Keep.ite2 | apply asrcWords_keep | simp only [keep_mk] | split)

theorem txWords_keep_eq {s0 s t : State} {a1 a2 a3 a4 a5} {x0}
    (e : @txWords s a1 a2 a3 a4 a5 = (x0, t)) (h : Keep s0 s) : Keep s0 t := by
  have k := txWords_keep h a1 a2 a3 a4 a5
  rw [e] at k
  exact k

theorem setBlock_keep {s0 s : State} (h : Keep s0 s) (a1 a2) : Keep s0 (@setBlock s a1 a2) := by
  unfold setBlock
  with_reducible repeat' (first | assumption | simp only [keep_mk] | apply Keep.core)

theorem enterSlot_keep {s0 s : State} (h : Keep s0 s) (a1 a2) : Keep s0 (@enterSlot s a1 a2) := by
  unfold enterSlot
  with_reducible repeat' (first
    | assumption | apply txWords_keep | apply setBlock_keep | apply setDir_keep | simp only [keep_mk] | split)

theorem enterPacket_keep {s0 s : State} (h : Keep s0 s) (a1 a2 a3) : Keep s0 (@enterPacket s a1 a2 a3) := by
  unfold enterPacket
  with_reducible repeat' (first
    | assumption | apply Keep.ite | apply alarm_keep | apply addHold_keep | apply Keep.foldl | simp only [keep_mk]
    | apply Keep.core | (intro _; intros; try dsimp -zeta only))

theorem txSamples_keep {s0 s : State} (h : Keep s0 s) (a1 a2 a3) : Keep s0 (@txSamples s a1 a2 a3) := by
  unfold txSamples
  with_reducible repeat' (first
    | assumption | apply setTx_keep | apply enterPacket_keep | apply Keep.foldl | simp only [keep_mk]
    | (intro _; intros; try dsimp -zeta only) | split)

theorem benchWords_keep {s0 s : State} (h : Keep s0 s) (a1) : Keep s0 (@benchWords s a1).1 := by
  unfold benchWords
  with_reducible repeat' (first | assumption | simp only [keep_mk] | apply Keep.core | split)

theorem benchWords_keep_eq {s0 s t : State} {a1} {x1} (e : @benchWords s a1 = (t, x1)) (h : Keep s0 s) : Keep s0 t := by
  have k := benchWords_keep h a1
  rw [e] at k
  exact k

theorem xpEvents_keep {s0 s : State} (h : Keep s0 s) (a1 a2) : Keep s0 (@xpEvents s a1 a2) := by
  unfold xpEvents
  with_reducible repeat' (first
    | assumption | apply Keep.ite | apply addHold_keep | apply benchEvent_keep | simp only [keep_mk] | apply Keep.core)

theorem sumXp_keep {s0 s : State} (h : Keep s0 s) (a1) : Keep s0 (@sumXp s a1).1 := by
  unfold sumXp
  with_reducible repeat' (first
    | assumption | apply Keep.ite1 | refine benchWords_keep_eq (by assumption) ?_ | apply benchEvent_keep | apply setXp_keep
    | apply xpEvents_keep | simp only [keep_mk] | apply Keep.core | split)

theorem sumXp_keep_eq {s0 s t : State} {a1} {x1} (e : @sumXp s a1 = (t, x1)) (h : Keep s0 s) : Keep s0 t := by
  have k := sumXp_keep h a1
  rw [e] at k
  exact k

theorem sumXps_keep (l) {s0 s : State} (h : Keep s0 s) : Keep s0 (sumXps l s).1 := by
  induction l generalizing s with
  | nil => exact h
  | cons i t ih =>
    simp only [sumXps]
    split
    · next e => exact ih (sumXp_keep_eq e h)
    · next e => exact sumXp_keep_eq e h
theorem sumXps_keep_eq {s0 s t : State} {a0} {x1} (e : sumXps a0 s = (t, x1)) (h : Keep s0 s) : Keep s0 t := by
  have k := sumXps_keep a0 h
  rw [e] at k
  exact k

theorem readCheck_keep {s0 s : State} (h : Keep s0 s) (a1 a2 a3) : Keep s0 (@readCheck s a1 a2 a3) := by
  unfold readCheck
  with_reducible repeat' (first
    | assumption | apply fabEvent_keep | apply addHold_keep | apply addWrap_keep | apply frameFault_keep | simp only [keep_mk]
    | split)

theorem frameReads_keep {s0 s : State} (h : Keep s0 s) (a0 a2) : Keep s0 (@frameReads a0 s a2) := by
  unfold frameReads
  with_reducible repeat' (first | assumption | apply Keep.ite | apply readCheck_keep)

theorem sumReads_keep {s0 s : State} (h : Keep s0 s) (a0 a1) : Keep s0 (@sumReads a0 a1 s) := by
  unfold sumReads
  with_reducible repeat' (first
    | assumption | apply Keep.ite | apply xpFault_keep | apply addHold_keep | apply frameReads_keep | apply Keep.foldl
    | (intro _; intros; try dsimp -zeta only))

theorem walkOn_keep {s0 s : State} (h : Keep s0 s) (a0 a1) : Keep s0 (@walkOn a0 a1 s).1 := by
  unfold walkOn
  with_reducible repeat' (first | assumption | apply sumXps_keep | apply sumReads_keep)

theorem walkOn_keep_eq {s0 s t : State} {a0 a1} {x1} (e : @walkOn a0 a1 s = (t, x1)) (h : Keep s0 s) : Keep s0 t := by
  have k := walkOn_keep h a0 a1
  rw [e] at k
  exact k

theorem noteFill_keep {s0 s : State} (h : Keep s0 s) (a1) : Keep s0 (@noteFill s a1) := by
  unfold noteFill
  with_reducible repeat' (first | assumption | apply Keep.ite | apply setNat_keep)

theorem txTick_keep {s0 s : State} (h : Keep s0 s) (a1) : Keep s0 (@txTick s a1) := by
  unfold txTick
  with_reducible repeat' (first | assumption | apply Keep.ite | apply setDir_keep)

theorem voidDir_keep {s0 s : State} (h : Keep s0 s) (a1) : Keep s0 (@voidDir s a1) := by
  unfold voidDir
  with_reducible repeat' (first | assumption | apply Keep.ite | apply setDir_keep)

theorem voidIn_keep {s0 s : State} (h : Keep s0 s) : Keep s0 (@voidIn s) := by
  unfold voidIn
  with_reducible repeat' (first
    | assumption | apply noteFill_keep | apply txTick_keep | apply voidDir_keep | apply Keep.foldl
    | (intro _; intros; try dsimp -zeta only))

theorem quietHandOver_keep {s0 s : State} (h : Keep s0 s) (a0 a2) : Keep s0 (@quietHandOver a0 s a2) := by
  unfold quietHandOver
  with_reducible repeat' (first
    | assumption | apply Keep.ite | apply setRx_keep | apply setBlock_keep | apply putFrame_keep | apply Keep.foldl
    | simp only [keep_mk] | (intro _; intros; try dsimp -zeta only))

theorem rxStat_keep {s0 s : State} (h : Keep s0 s) (a1 a2 a3) : Keep s0 (@rxStat s a1 a2 a3) := by
  unfold rxStat
  with_reducible repeat' (first | assumption | apply Keep.ite | apply addHold_keep)

theorem rxHandOver_keep {s0 s : State} (h : Keep s0 s) (a0 a2) : Keep s0 (@rxHandOver a0 s a2) := by
  unfold rxHandOver
  with_reducible repeat' (first
    | assumption | apply Keep.ite | apply setBlock_keep | apply putFrame_keep | apply rxStat_keep | apply netEvent_keep
    | apply alarmIf_keep | apply setRx_keep | apply igmpReport_keep | apply Keep.foldl | simp only [keep_mk]
    | (intro _; intros; try dsimp -zeta only))

theorem netHandOver_keep {s0 s : State} (h : Keep s0 s) (a0) : Keep s0 (@netHandOver a0 s) := by
  unfold netHandOver
  with_reducible repeat' (first
    | assumption | apply quietHandOver_keep | apply rxHandOver_keep | apply Keep.foldl
    | (intro _; intros; try dsimp -zeta only) | split)

theorem badFrame_keep {s0 s : State} (h : Keep s0 s) (a1) : Keep s0 (@badFrame s a1) := by
  unfold badFrame
  with_reducible repeat' (first
    | assumption | apply Keep.ite | apply addHold_keep | apply outOfService_keep | apply setDir_keep | apply alarm_keep)

theorem fillBlock_keep (n) {s0 s : State} (h : Keep s0 s) (k) : Keep s0 (fillBlock n s k) := by
  induction n generalizing s with
  | zero => exact h
  | succ n ih =>
    simp only [fillBlock]
    refine ih ?_
    split
    · exact badFrame_keep h _
    · exact setDir_keep h _ _

theorem fillTick_keep {s0 s : State} (h : Keep s0 s) (a1 a2) : Keep s0 (@fillTick s a1 a2) := by
  unfold fillTick
  with_reducible repeat' (first | assumption | apply Keep.ite | apply setDir_keep | apply fillBlock_keep)

theorem chanBlock_keep {s0 s : State} (h : Keep s0 s) (a1 a2 a3 a4) : Keep s0 (@chanBlock s a1 a2 a3 a4).2.2 := by
  unfold chanBlock
  with_reducible repeat' (first | assumption | apply Keep.ite22 | apply asrcWords_keep | simp only [keep_mk] | split)

theorem chanBlock_keep_eq {s0 s t : State} {a1 a2 a3 a4} {x0 x1}
    (e : @chanBlock s a1 a2 a3 a4 = (x0, x1, t)) (h : Keep s0 s) : Keep s0 t := by
  have k := chanBlock_keep h a1 a2 a3 a4
  rw [e] at k
  exact k

theorem handChan_keep {s0 : State} {p : State × Map Chan} (h : Keep s0 p.1) (tag put k d c) :
    Keep s0 (handChan tag put k d p c).1 := by
  unfold handChan
  split
  next xs c1 s1 e =>
  have hb := setBlock_keep (chanBlock_keep_eq e h)
  exact Keep.ite (putFrame_keep (hb _ _) _ _) (hb _ _)

theorem handOver_keep {s0 s : State} (h : Keep s0 s) (tag put k) : Keep s0 (handOver tag put s k) := by
  unfold handOver
  refine Keep.ite h ?_
  have k1 := fillTick_keep h k (dirOf s k)
  have k2 := Keep.foldlFst (f := handChan tag put k (dirOf (fillTick s k (dirOf s k)) k)) (p := (fillTick s k (dirOf s k), []))
    k1 (fun _ c hq => handChan_keep hq _ _ _ _ c) (dirOf (fillTick s k (dirOf s k)) k).chans
  exact setDir_keep k2 _ _

theorem portsTick_keep {s0 s : State} (h : Keep s0 s) (tag put) : Keep s0 (portsTick tag put s) := by
  exact Keep.foldl h (fun _ k hu => noteFill_keep (txTick_keep (handOver_keep hu tag put k) k) k) _

theorem writeBus_keep {s0 s : State} (h : Keep s0 s) (a1) : Keep s0 (@writeBus s a1) := by
  unfold writeBus
  with_reducible repeat' (first
    | assumption | apply setSource_keep | apply putFrame_keep | apply benchEvent_keep | simp only [keep_mk] | apply Keep.core)

theorem dramBursts_keep {s0 s : State} (h : Keep s0 s) (a0 a1 a2) : Keep s0 (@dramBursts a0 a1 a2 s) := by
  unfold dramBursts
  with_reducible repeat' (first
    | assumption | apply fabEvent_keep | apply Keep.foldl | simp only [keep_mk] | (intro _; intros; try dsimp -zeta only))

theorem readsOf_keep {s0 s : State} (h : Keep s0 s) (a1 a2) : Keep s0 (@readsOf s a1 a2) := by
  unfold readsOf
  with_reducible repeat' (first
    | assumption | apply addHold_keep | apply selFault_keep | apply readCheck_keep | simp only [keep_mk] | split)

theorem placeSample_keep {s0 s : State} (h : Keep s0 s) (a1 a2 a3 a4 a5 a6) : Keep s0 (@placeSample s a1 a2 a3 a4 a5 a6) := by
  unfold placeSample
  with_reducible repeat' (first
    | assumption | apply Keep.ite | apply netEvent_keep | apply alarm_keep | apply rxStat_keep | apply setRx_keep)

theorem noteSent_keep {s0 s : State} (h : Keep s0 s) (a1 a2 a3) : Keep s0 (@noteSent s a1 a2 a3) := by
  unfold noteSent
  with_reducible repeat' (first | assumption | simp only [keep_mk] | apply Keep.core)

theorem clockSlot_keep {s0 : State} {p : State × Map Chan × Map Word} (h : Keep s0 p.1) (k stamp c) :
    Keep s0 (clockSlot k stamp p c).1 := by
  exact noteSent_keep h _ _ _

theorem clockOut_keep {s0 s : State} (h : Keep s0 s) (k stamp) : Keep s0 (clockOut s k stamp) := by
  have k1 := Keep.foldlFst (f := clockSlot k stamp) (p := (s, [], [])) h (fun _ c hq => clockSlot_keep hq _ _ c) (dirOf s k).chans
  exact emit_keep (setDir_keep k1 _ _) _

theorem stopDir_keep {s0 s : State} (h : Keep s0 s) (a1) : Keep s0 (@stopDir s a1) := by
  unfold stopDir
  with_reducible repeat' (first
    | assumption | apply Keep.ite | apply freeAsrc_keep | apply aesAsrc_keep | apply setDir_keep | apply setNat_keep
    | apply emit_keep | apply Keep.foldl | (intro _; intros; try dsimp -zeta only))

theorem substitute_keep {s0 s : State} (h : Keep s0 s) (a1) : Keep s0 (@substitute s a1) := by
  unfold substitute
  with_reducible repeat' (first | assumption | apply Keep.ite | apply setSource_keep | apply putFrame_keep)

theorem shadowDiffers_keep {s0 s : State} (h : Keep s0 s) (a1) : Keep s0 (@shadowDiffers s a1) := by
  unfold shadowDiffers
  with_reducible repeat' (first
    | assumption | apply Keep.ite | apply addWrap_keep | apply abandonMove_keep | apply nextMove_keep | apply setRsvState_keep
    | apply setEngine_keep | apply setMigState_keep | simp only [keep_mk] | apply Keep.core)

theorem voidOut_keep {s0 s : State} (h : Keep s0 s) : Keep s0 (@voidOut s) := by
  unfold voidOut
  with_reducible repeat' (first | assumption | apply setDir_keep | apply Keep.foldl | (intro _; intros; try dsimp -zeta only))

theorem refreshNet_keep {s0 s : State} (h : Keep s0 s) : Keep s0 (@refreshNet s) := by
  unfold refreshNet
  with_reducible repeat' (first | assumption | apply setNat_keep | apply Keep.foldl | (intro _; intros; try dsimp -zeta only))

theorem closeBench_keep {s0 s : State} (h : Keep s0 s) : Keep s0 (@closeBench s) := by
  unfold closeBench
  with_reducible repeat' (first
    | assumption | apply Keep.ite | apply substitute_keep | apply alarm_keep | apply addWrap_keep | apply alarmIf_keep
    | apply setFlag_keep | apply Keep.foldl | simp only [keep_mk] | apply Keep.core | (intro _; intros; try dsimp -zeta only))

theorem sendTick_keep {s0 s : State} (h : Keep s0 s) (a0 a1 a3) : Keep s0 (@sendTick a0 a1 s a3) := by
  unfold sendTick
  with_reducible repeat' (first
    | assumption | apply Keep.ite | apply setDir_keep | apply clockOut_keep | apply Keep.forN
    | (intro _; intros; try dsimp -zeta only))

theorem stampAes_keep {s0 s : State} (h : Keep s0 s) (a0 a1) : Keep s0 (@stampAes a0 a1 s) := by
  unfold stampAes
  with_reducible repeat' (first | assumption | simp only [keep_mk] | apply Keep.core)

theorem portsSend_keep {s0 s : State} (h : Keep s0 s) (a0 a1) : Keep s0 (@portsSend a0 a1 s) := by
  unfold portsSend
  with_reducible repeat' (first
    | assumption | apply sendTick_keep | apply stampAes_keep | apply Keep.foldl | (intro _; intros; try dsimp -zeta only))

theorem endLattice_keep {s0 s : State} (h : Keep s0 s) : Keep s0 (@endLattice s) := by
  unfold endLattice
  with_reducible repeat' (first
    | assumption | apply setDest_keep | apply setNat_keep | apply Keep.foldl | simp only [keep_mk] | apply Keep.core
    | (intro _; intros; try dsimp -zeta only))

theorem endBench_keep {s0 s : State} (h : Keep s0 s) : Keep s0 (@endBench s) := by
  unfold endBench
  with_reducible repeat' (first
    | assumption | apply setXp_keep | apply setNat_keep | apply Keep.foldl | simp only [keep_mk] | apply Keep.core
    | (intro _; intros; try dsimp -zeta only))

theorem cycleEvents_keep {s0 s : State} (h : Keep s0 s) (a0) : Keep s0 (@cycleEvents a0 s) := by
  unfold cycleEvents
  with_reducible repeat' (first | assumption | apply netEvent_keep | apply benchEvent_keep | apply fabEvent_keep)

theorem countGather_keep {s0 s : State} (h : Keep s0 s) (a1) : Keep s0 (@countGather s a1) := by
  unfold countGather
  with_reducible repeat' (first | assumption | simp only [keep_mk] | apply Keep.core | split)

theorem gatherDest_keep {s0 s : State} (h : Keep s0 s) (a1) : Keep s0 (@gatherDest s a1) := by
  unfold gatherDest
  with_reducible repeat' (first
    | assumption | apply Keep.ite | apply countGather_keep | apply setDest_keep | apply addHold_keep | apply alarmIf_keep
    | simp only [keep_mk] | split)

theorem gatherWith_keep {s0 s : State} (h : Keep s0 s) (a1 a2) : Keep s0 (@gatherWith s a1 a2) := by
  unfold gatherWith
  with_reducible repeat' (first | assumption | apply Keep.ite | apply gatherDest_keep | apply readsOf_keep)

theorem dropTakes_keep {s0 s : State} (h : Keep s0 s) : Keep s0 (@dropTakes s) := by
  unfold dropTakes
  with_reducible repeat' (first
    | assumption | apply setDest_keep | apply Keep.foldl | simp only [keep_mk] | (intro _; intros; try dsimp -zeta only))

theorem completeMoves_keep {s0 s : State} (h : Keep s0 s) : Keep s0 (@completeMoves s) := by
  unfold completeMoves
  with_reducible repeat' (first
    | assumption | apply setXp_keep | apply Keep.foldl | simp only [keep_mk] | (intro _; intros; try dsimp -zeta only) | split)

theorem netRestart_keep {s0 s : State} (h : Keep s0 s) : Keep s0 (@netRestart s) := by
  unfold netRestart
  with_reducible repeat' (first
    | assumption | apply Keep.ite | apply setRx_keep | apply Keep.foldl | simp only [keep_mk] | apply Keep.core
    | (intro _; intros; try dsimp -zeta only))

theorem placePacket_keep {s0 s : State} (h : Keep s0 s) (a1 a2 a3 a4) : Keep s0 (@placePacket s a1 a2 a3 a4) := by
  unfold placePacket
  with_reducible repeat' (first
    | assumption | apply placeSample_keep | apply Keep.foldl | (intro _; intros; try dsimp -zeta only) | split)

end Sys2Proof.Machine
end

