-- ==== Sys2Proof/Laws/KeepEngine.lean ====
section
/-! SUPPORT. `Keep` for every operation and command of EgressOps, DelayOps, Engines, EngineFlow, EngineTick, LinkOps, PageOps, LoadOps, SessOps, ShutOps, RoleOps, SecOps. -/

namespace Sys2Proof.Machine

set_option linter.unusedVariables false
set_option linter.unusedSimpArgs false

theorem execEccWriteback_keep (s0 : State) (a0 a1 a2) : KeepOut s0 (@execEccWriteback a0 a1 a2 s0) := by
  unfold execEccWriteback
  with_reducible repeat' (first | apply KeepOut.next | exact Keep.refl _ | apply setEngine_keep)

theorem addPlace_keep {s0 s : State} (h : Keep s0 s) (a1 a2 a3 a4) : Keep s0 (@addPlace s a1 a2 a3 a4) := by
  unfold addPlace
  with_reducible repeat' (first | assumption | apply Keep.ite | apply addHold_keep | apply addWrap_keep | split)

theorem countCorrected_keep {s0 s : State} (h : Keep s0 s) (a1) : Keep s0 (@countCorrected s a1) := by
  unfold countCorrected
  with_reducible repeat' (first
    | assumption | apply addPlace_keep | apply addHold_keep | simp only [keep_mk] | apply Keep.core)

theorem countOn_keep {s0 s : State} (h : Keep s0 s) (a1 a2) : Keep s0 (@countOn s a1 a2) := by
  unfold countOn
  with_reducible repeat' (first | assumption | apply Keep.ite | simp only [keep_mk] | apply Keep.core)

theorem countMoved_keep {s0 s : State} (h : Keep s0 s) (a1 a2) : Keep s0 (@countMoved s a1 a2) := by
  unfold countMoved
  with_reducible repeat' (first | assumption | apply Keep.ite | apply countOn_keep)

theorem setMemByte_keep {s0 s : State} (h : Keep s0 s) (a b) : Keep s0 (setMemByte s a b) := h.setMemByte a b

theorem setMemBytes_keep {s0 s : State} (h : Keep s0 s) (a l) : Keep s0 (setMemBytes s a l) := by
  induction l generalizing s a with
  | nil => exact h
  | cons b t ih => exact ih (setMemByte_keep h a b) (a + 1)

theorem setPageWord_keep {s0 s : State} (h : Keep s0 s) (a1 a2 a3) : Keep s0 (@setPageWord s a1 a2 a3) := by
  unfold setPageWord
  with_reducible repeat' (first | assumption | simp only [keep_mk] | apply Keep.core)

theorem setGen_keep {s0 s : State} (h : Keep s0 s) (a1) : Keep s0 (@setGen s a1) := by
  unfold setGen
  with_reducible repeat' (first | assumption | apply setNat_keep)

theorem bumpGen_keep {s0 s : State} (h : Keep s0 s) (a1) : Keep s0 (@bumpGen s a1) := by
  unfold bumpGen
  with_reducible repeat' (first | assumption | apply setGen_keep | split)

theorem countFixes_keep (n k) {s0 s : State} (h : Keep s0 s) : Keep s0 (countFixes n k s) := by
  induction k generalizing s with
  | zero => exact h
  | succ k ih => exact ih (countCorrected_keep h n)

theorem dlySectionDone_keep {s0 s : State} (h : Keep s0 s) (a1 a2) : Keep s0 (@dlySectionDone s a1 a2) := by
  unfold dlySectionDone
  with_reducible repeat' (first | assumption | simp only [keep_mk] | apply Keep.core)

theorem hostFlags_keep {s0 s : State} (h : Keep s0 s) (a1 a2) : Keep s0 (@hostFlags s a1 a2) := by
  unfold hostFlags
  with_reducible repeat' (first | assumption | apply setNat_keep | apply alarmIf_keep | simp only [keep_mk] | split)

theorem applySig_keep {s0 s : State} (h : Keep s0 s) (a0 a2) : Keep s0 (@applySig a0 s a2) := by
  unfold applySig
  with_reducible repeat' (first
    | assumption | apply alarmIf_keep | apply alarm_keep | apply countFixes_keep | apply dlySectionDone_keep
    | apply hostFlags_keep | simp only [keep_mk] | split)

theorem commitEngine_keep {s0 s : State} (h : Keep s0 s) (a1 a2) : Keep s0 (@commitEngine s a1 a2) := by
  unfold commitEngine
  with_reducible repeat' (first
    | assumption | apply applySig_keep | apply setEngine_keep | apply Keep.foldl | (intro _; intros; try dsimp -zeta only))

theorem sendUnit_keep {s0 s : State} (h : Keep s0 s) (a1 a2 a3) : Keep s0 (@sendUnit s a1 a2 a3) := by
  unfold sendUnit
  with_reducible repeat' (first | assumption | apply Keep.ite | apply emit_keep | simp only [keep_mk] | apply Keep.core)

theorem sendFrame_keep {s0 s : State} (h : Keep s0 s) (a1 a2) : Keep s0 (@sendFrame s a1 a2) := by
  unfold sendFrame
  with_reducible repeat' (first | assumption | apply sendUnit_keep)

theorem mirror_keep {s0 s : State} (h : Keep s0 s) (a1 a2 a3 a4) : Keep s0 (@mirror s a1 a2 a3 a4) := by
  unfold mirror
  with_reducible repeat' (first | assumption | apply Keep.ite | apply sendFrame_keep)

theorem sendBulk_keep {s0 s : State} (h : Keep s0 s) (a1) : Keep s0 (@sendBulk s a1) := by
  unfold sendBulk
  with_reducible repeat' (first | assumption | apply sendUnit_keep)

theorem mirrorWrite_keep {s0 s : State} (h : Keep s0 s) (a1 a2 a3 a4 a5) : Keep s0 (@mirrorWrite s a1 a2 a3 a4 a5) := by
  unfold mirrorWrite
  with_reducible repeat' (first
    | assumption | apply Keep.ite | apply mirror_keep | apply sendBulk_keep | apply Keep.foldl
    | (intro _; intros; try dsimp -zeta only))

theorem directWrite_keep {s0 s : State} (h : Keep s0 s) (a1) : Keep s0 (@directWrite s a1) := by
  unfold directWrite
  with_reducible repeat' (first
    | assumption | apply Keep.ite | apply mirrorWrite_keep | simp only [keep_mk] | apply Keep.core)

theorem setSess_keep {s0 s : State} (h : Keep s0 s) (a1 a2) : Keep s0 (@setSess s a1 a2) := by
  unfold setSess
  with_reducible repeat' (first | assumption | apply setNat_keep | simp only [keep_mk] | apply Keep.core | split)

theorem eachPmu_keep {s0 s : State} (h : Keep s0 s) (a1 a2) : Keep s0 (@eachPmu s a1 a2) := by
  unfold eachPmu
  with_reducible repeat' (first
    | assumption | apply setEngine_keep | apply Keep.foldl | simp only [keep_mk] | (intro _; intros; try dsimp -zeta only))

theorem syncStage_keep {s0 s : State} (h : Keep s0 s) : Keep s0 (@syncStage s) := by
  unfold syncStage
  with_reducible repeat' (first | assumption | apply setNat_keep)

theorem setSet_keep {s0 s : State} (h : Keep s0 s) (a1 a2) : Keep s0 (@setSet s a1 a2) := by
  unfold setSet
  with_reducible repeat' (first
    | assumption | apply syncStage_keep | apply setNat_keep | simp only [keep_mk] | apply Keep.core | split)

theorem backPage_keep {s0 s : State} (h : Keep s0 s) (a1 a2) : Keep s0 (@backPage s a1 a2) := by
  unfold backPage
  with_reducible repeat' (first
    | assumption | apply setEngine_keep | apply Keep.foldl | simp only [keep_mk] | (intro _; intros; try dsimp -zeta only))

theorem haltEcc_keep {s0 s : State} (h : Keep s0 s) (a1) : Keep s0 (@haltEcc s a1) := by
  unfold haltEcc
  with_reducible repeat' (first | assumption | apply addPlace_keep | apply alarm_keep | apply haltEngine_keep)

theorem haltIllegal_keep {s0 s : State} (h : Keep s0 s) (a1 a2) : Keep s0 (@haltIllegal s a1 a2) := by
  unfold haltIllegal
  with_reducible repeat' (first | assumption | apply alarm_keep | apply haltEngine_keep | apply alarmIf_keep)

theorem issueSlot_keep {s0 s : State} (h : Keep s0 s) (a0 a1) : Keep s0 (@issueSlot a0 a1 s) := by
  unfold issueSlot
  with_reducible repeat' (first
    | assumption | apply Keep.ite | apply commitEngine_keep | apply haltEcc_keep | apply haltIllegal_keep
    | simp only [keep_mk] | split)

theorem dlyPlaceStart_keep {s0 s : State} (h : Keep s0 s) (a1) : Keep s0 (@dlyPlaceStart s a1) := by
  unfold dlyPlaceStart
  with_reducible repeat' (first | assumption | simp only [keep_mk] | apply Keep.core)

theorem startPlace_keep {s0 s : State} (h : Keep s0 s) (a1 a2) : Keep s0 (@startPlace s a1 a2) := by
  unfold startPlace
  with_reducible repeat' (first | assumption | apply dlyPlaceStart_keep | apply setEngine_keep)

theorem engCtlAct_keep {s0 s : State} (h : Keep s0 s) (a1 a2) : Keep s0 (@engCtlAct s a1 a2) := by
  unfold engCtlAct
  with_reducible repeat' (first
    | assumption | apply Keep.ite | apply setEngine_keep | apply startPlace_keep | simp only [keep_mk] | split)

theorem engCtlDue_keep {s0 s : State} (h : Keep s0 s) (a1 a2) : Keep s0 (@engCtlDue s a1 a2) := by
  unfold engCtlDue
  with_reducible repeat' (first | assumption | apply Keep.ite | apply engCtlAct_keep | simp only [keep_mk] | apply Keep.core)

theorem reportImage_keep {s0 s : State} (h : Keep s0 s) (a1 a2) : Keep s0 (@reportImage s a1 a2) := by
  unfold reportImage
  with_reducible repeat' (first | assumption | apply setNat_keep | apply setObj_keep)

theorem rewritePages_keep {s0 s : State} (h : Keep s0 s) (a1) : Keep s0 (@rewritePages s a1) := by
  unfold rewritePages
  with_reducible repeat' (first
    | assumption | apply setEngine_keep | apply Keep.foldl | simp only [keep_mk] | apply Keep.core
    | (intro _; intros; try dsimp -zeta only))

theorem loadImage_keep {s0 s : State} (h : Keep s0 s) (a1 a2 a3) : Keep s0 (@loadImage s a1 a2 a3) := by
  unfold loadImage
  with_reducible repeat' (first
    | assumption | apply Keep.ite | apply setNat_keep | apply reportImage_keep | apply setEngine_keep
    | apply rewritePages_keep | apply alarm_keep | simp only [keep_mk] | apply Keep.core)

theorem landParam_keep {s0 s : State} (h : Keep s0 s) (a1 a2) : Keep s0 (@landParam s a1 a2) := by
  unfold landParam
  with_reducible repeat' (first | assumption | apply Keep.ite | apply setPageWord_keep)

theorem markSeal_keep {s0 s : State} (h : Keep s0 s) : Keep s0 (@markSeal s) := by
  unfold markSeal
  with_reducible repeat' (first | assumption | simp only [keep_mk] | apply Keep.core)

theorem announceArp_keep {s0 s : State} (h : Keep s0 s) : Keep s0 (@announceArp s) := by
  unfold announceArp
  with_reducible repeat' (first
    | assumption | apply Keep.ite | apply sendCtl_keep | apply Keep.foldl | (intro _; intros; try dsimp -zeta only))

theorem syncTx_keep {s0 s : State} (h : Keep s0 s) : Keep s0 (@syncTx s) := by
  unfold syncTx
  with_reducible repeat' (first | assumption | apply setNat_keep | apply Keep.foldl | (intro _; intros; try dsimp -zeta only))

theorem setRole_keep {s0 s : State} (h : Keep s0 s) (a1) : Keep s0 (@setRole s a1) := by
  unfold setRole
  with_reducible repeat' (first
    | assumption | apply Keep.ite | apply syncTx_keep | apply setNat_keep | apply emit_keep | simp only [keep_mk]
    | apply Keep.core)

theorem startFresh_keep {s0 s : State} (h : Keep s0 s) (a1) : Keep s0 (@startFresh s a1) := by
  unfold startFresh
  with_reducible repeat' (first
    | assumption | apply startPlace_keep | apply rewritePages_keep | apply setEngine_keep | simp only [keep_mk] | split)

theorem runDeferred_keep {s0 s : State} (h : Keep s0 s) : Keep s0 (@runDeferred s) := by
  unfold runDeferred
  with_reducible repeat' (first
    | assumption | apply Keep.ite | apply startFresh_keep | apply Keep.foldl | simp only [keep_mk] | apply Keep.core
    | (intro _; intros; try dsimp -zeta only))

theorem setDoor_keep {s0 s : State} (h : Keep s0 s) (a1) : Keep s0 (@setDoor s a1) := by
  unfold setDoor
  with_reducible repeat' (first | assumption | simp only [keep_mk] | apply Keep.core)

theorem toActive_keep {s0 s : State} (h : Keep s0 s) : Keep s0 (@toActive s) := by
  unfold toActive
  with_reducible repeat' (first
    | assumption | apply announceArp_keep | apply setRole_keep | apply runDeferred_keep | apply setDoor_keep
    | simp only [keep_mk] | apply Keep.core)

theorem unpreparePage_keep {s0 s : State} (h : Keep s0 s) (a1 a2) : Keep s0 (@unpreparePage s a1 a2) := by
  unfold unpreparePage
  with_reducible repeat' (first | assumption | apply backPage_keep)

theorem freeSlot_keep {s0 s : State} (h : Keep s0 s) (a1) : Keep s0 (@freeSlot s a1) := by
  unfold freeSlot
  with_reducible repeat' (first | assumption | apply setNat_keep | split)

theorem mirrorCommitEnd_keep {s0 s : State} (h : Keep s0 s) (a1 a2 a3) : Keep s0 (@mirrorCommitEnd s a1 a2 a3) := by
  unfold mirrorCommitEnd
  with_reducible repeat' (first | assumption | apply mirror_keep)

theorem endCommit_keep {s0 s : State} (h : Keep s0 s) (a1 a2 a3) : Keep s0 (@endCommit s a1 a2 a3) := by
  unfold endCommit
  with_reducible repeat' (first
    | assumption | apply Keep.ite | apply freeSlot_keep | apply setNat_keep | apply mirrorCommitEnd_keep
    | apply syncStage_keep | simp only [keep_mk] | apply Keep.core)

theorem rejectCommit_keep {s0 s : State} (h : Keep s0 s) (a1 a2) : Keep s0 (@rejectCommit s a1 a2) := by
  unfold rejectCommit
  with_reducible repeat' (first
    | assumption | apply Keep.ite | apply unpreparePage_keep | apply alarmIf_keep | apply addHold_keep | apply endCommit_keep
    | apply Keep.foldl | (intro _; intros; try dsimp -zeta only))

theorem rejectOpen_keep {s0 s : State} (h : Keep s0 s) (a1) : Keep s0 (@rejectOpen s a1) := by
  unfold rejectOpen
  with_reducible repeat' (first
    | assumption | apply rejectCommit_keep | apply Keep.foldl | (intro _; intros; try dsimp -zeta only))

theorem haltWork_keep {s0 s : State} (h : Keep s0 s) : Keep s0 (@haltWork s) := by
  unfold haltWork
  with_reducible repeat' (first
    | assumption | apply setEngine_keep | apply Keep.foldl | simp only [keep_mk] | apply Keep.core
    | (intro _; intros; try dsimp -zeta only))

theorem moveQuietly_keep {s0 s : State} (h : Keep s0 s) : Keep s0 (@moveQuietly s) := by
  unfold moveQuietly
  with_reducible repeat' (first | assumption | apply askFirst_keep | apply abandonMove_keep | split)

theorem leaveDoor_keep {s0 s : State} (h : Keep s0 s) : Keep s0 (@leaveDoor s) := by
  unfold leaveDoor
  with_reducible repeat' (first
    | assumption | apply rejectOpen_keep | apply haltWork_keep | apply moveQuietly_keep | apply setNat_keep
    | simp only [keep_mk] | apply Keep.core)

theorem dropSwap_keep {s0 s : State} (h : Keep s0 s) : Keep s0 (@dropSwap s) := by
  unfold dropSwap
  with_reducible repeat' (first | assumption | apply setNat_keep | simp only [keep_mk] | apply Keep.core)

theorem stopStreams_keep {s0 s : State} (h : Keep s0 s) : Keep s0 (@stopStreams s) := by
  unfold stopStreams
  with_reducible repeat' (first | assumption | simp only [keep_mk] | apply Keep.core)

theorem toSync_keep {s0 s : State} (h : Keep s0 s) : Keep s0 (@toSync s) := by
  unfold toSync
  with_reducible repeat' (first
    | assumption | apply Keep.ite | apply setDoor_keep | apply leaveDoor_keep | apply dropSwap_keep | apply haltWork_keep
    | apply stopStreams_keep | apply setRole_keep | apply alarmIf_keep | simp only [keep_mk] | apply Keep.core)

theorem toIsolated_keep {s0 s : State} (h : Keep s0 s) : Keep s0 (@toIsolated s) := by
  unfold toIsolated
  with_reducible repeat' (first
    | assumption | apply Keep.ite | apply leaveDoor_keep | apply haltWork_keep | apply dropSwap_keep | apply stopStreams_keep
    | apply setRole_keep | apply setDoor_keep | simp only [keep_mk] | apply Keep.core)

theorem keepDigest_keep {s0 s : State} (h : Keep s0 s) : Keep s0 (@keepDigest s) := by
  unfold keepDigest
  with_reducible repeat' (first | assumption | apply Keep.ite | simp only [keep_mk] | apply Keep.core)

theorem askDigest_keep {s0 s : State} (h : Keep s0 s) : Keep s0 (@askDigest s) := by
  unfold askDigest
  with_reducible repeat' (first | assumption | apply keepDigest_keep | simp only [keep_mk] | apply Keep.core)

theorem abandonSwap_keep {s0 s : State} (h : Keep s0 s) : Keep s0 (@abandonSwap s) := by
  unfold abandonSwap
  with_reducible repeat' (first | assumption | apply alarm_keep | apply dropSwap_keep)

theorem dbgRespond_keep {s0 s : State} (h : Keep s0 s) (a1) : Keep s0 (@dbgRespond s a1) := by
  unfold dbgRespond
  with_reducible repeat' (first
    | assumption | apply Keep.ite | apply alarm_keep | apply setNat_keep | simp only [keep_mk] | apply Keep.core)

theorem endGrant_keep {s0 s : State} (h : Keep s0 s) : Keep s0 (@endGrant s) := by
  unfold endGrant
  with_reducible repeat' (first
    | assumption | apply alarm_keep | apply setNat_keep | simp only [keep_mk] | apply Keep.core | split)

theorem mirrorSetEnd_keep {s0 s : State} (h : Keep s0 s) (a1 a2 a3) : Keep s0 (@mirrorSetEnd s a1 a2 a3) := by
  unfold mirrorSetEnd
  with_reducible repeat' (first | assumption | apply mirror_keep)

theorem closeSession_keep {s0 s : State} (h : Keep s0 s) (a1) : Keep s0 (@closeSession s a1) := by
  unfold closeSession
  with_reducible repeat' (first
    | assumption | apply mirrorSetEnd_keep | apply setSet_keep | apply setSess_keep | apply Keep.foldl | simp only [keep_mk]
    | apply Keep.core | (intro _; intros; try dsimp -zeta only))

theorem closeSessions_keep {s0 s : State} (h : Keep s0 s) (a1) : Keep s0 (@closeSessions s a1) := by
  unfold closeSessions
  with_reducible repeat' (first
    | assumption | apply closeSession_keep | apply Keep.foldl | (intro _; intros; try dsimp -zeta only))

theorem wipeCreds_keep {s0 s : State} (h : Keep s0 s) : Keep s0 (@wipeCreds s) := by
  unfold wipeCreds
  with_reducible repeat' (first
    | assumption | apply setNat_keep | apply Keep.foldl | simp only [keep_mk] | apply Keep.core
    | (intro _; intros; try dsimp -zeta only))

theorem sealNow_keep {s0 s : State} (h : Keep s0 s) : Keep s0 (@sealNow s) := by
  unfold sealNow
  with_reducible repeat' (first | assumption | simp only [keep_mk] | apply Keep.core)

theorem wipe_keep {s0 s : State} (h : Keep s0 s) (advance) : Keep s0 (wipe s advance) := by
  unfold wipe
  lift_lets
  intro a1
  have k1 : Keep s0 a1 := endGrant_keep (closeSessions_keep h _)
  clear_value a1
  intro e
  have ke : Keep s0 e := wipeCreds_keep k1
  clear_value e
  intro f a2
  have k2 : Keep s0 a2 := by
    dsimp only [a2]
    rw [keep_mk]
    exact ke.coreMem fun c => mapWf_filter _ ((canonical_iff _).1 (k1.canon c)).1
  clear_value a2
  intro n c a3
  have k3 : Keep s0 a3 := by
    dsimp only [a3]
    rw [keep_mk]
    exact k2.core
  clear_value a3
  intro a4
  have k4 : Keep s0 a4 := sealNow_keep (addWrap_keep (setNat_keep (setObj_keep k3 _ _ _) _ _ _) _ _ _)
  clear_value a4
  exact alarmIf_keep (alarm_keep k4 _ _) _ _ _

theorem tamperLatch_keep {s0 s : State} (h : Keep s0 s) (a1) : Keep s0 (@tamperLatch s a1) := by
  unfold tamperLatch
  with_reducible repeat' (first
    | assumption | apply Keep.ite | apply setNat_keep | apply endGrant_keep | apply wipe_keep | apply alarm_keep
    | apply Keep.foldl | (intro _; intros; try dsimp -zeta only))

theorem landSec_keep {s0 s : State} (h : Keep s0 s) (a1 a2 a3) : Keep s0 (@landSec s a1 a2 a3) := by
  unfold landSec
  with_reducible repeat' (first
    | assumption | apply Keep.ite | apply setNat_keep | apply endGrant_keep | apply setObj_keep | apply markSeal_keep
    | apply tamperLatch_keep | simp only [keep_mk] | apply Keep.core)

theorem flipPage_keep {s0 s : State} (h : Keep s0 s) (a1 a2) : Keep s0 (@flipPage s a1 a2) := by
  unfold flipPage
  with_reducible repeat' (first
    | assumption | apply setEngine_keep | apply Keep.foldl | simp only [keep_mk] | apply Keep.core
    | (intro _; intros; try dsimp -zeta only))

theorem setEgress_keep {s0 s : State} (h : Keep s0 s) (a1 a2) : Keep s0 (@setEgress s a1 a2) := by
  unfold setEgress
  with_reducible repeat' (first | assumption | apply setDest_keep)

theorem noteClips_keep {s0 s : State} (h : Keep s0 s) (a1 a2) : Keep s0 (@noteClips s a1 a2) := by
  unfold noteClips
  with_reducible repeat' (first
    | assumption | apply Keep.ite | apply benchEvent_keep | apply addHold_keep | apply alarm_keep | apply setDest_keep)

theorem countClips_keep {s0 s : State} (h : Keep s0 s) (a1 a2 a3) : Keep s0 (@countClips s a1 a2 a3) := by
  unfold countClips
  with_reducible repeat' (first | assumption | apply Keep.ite | apply noteClips_keep)

theorem aesBits_keep {s0 s : State} (h : Keep s0 s) (a1) : Keep s0 (@aesBits s a1) := by
  unfold aesBits
  with_reducible repeat' (first | assumption | apply emit_keep | simp only [keep_mk] | apply Keep.core)

theorem sendEgress_keep {s0 s : State} (h : Keep s0 s) (a1 a2) : Keep s0 (@sendEgress s a1 a2) := by
  unfold sendEgress
  with_reducible repeat' (first
    | assumption | apply Keep.ite | apply emit_keep | apply countClips_keep | apply setBlock_keep | apply aesBits_keep
    | apply txSamples_keep | simp only [keep_mk] | split)

theorem handEgress_keep {s0 s : State} (h : Keep s0 s) (a1 a2) : Keep s0 (@handEgress s a1 a2) := by
  unfold handEgress
  with_reducible repeat' (first
    | assumption | apply Keep.ite | apply setEgress_keep | apply countClips_keep | apply enterSlot_keep
    | apply sendEgress_keep | split)

theorem classStep_keep {s0 s : State} (h : Keep s0 s) (a1) : Keep s0 (@classStep s a1) := by
  unfold classStep
  with_reducible repeat' (first
    | assumption | apply Keep.ite | apply handEgress_keep | apply setDest_keep | simp only [keep_mk] | split)

theorem classSteps_keep {s0 s : State} (h : Keep s0 s) : Keep s0 (@classSteps s) := by
  unfold classSteps
  with_reducible repeat' (first
    | assumption | apply classStep_keep | apply Keep.foldl | (intro _; intros; try dsimp -zeta only))

theorem dbgChallenge_keep {s0 s : State} (h : Keep s0 s) : Keep s0 (@dbgChallenge s).2 := by
  unfold dbgChallenge
  with_reducible repeat' (first | assumption | apply draw_keep | simp only [keep_mk] | apply Keep.core)

theorem dbgChallenge_keep_eq {s0 s t : State}  {x0} (e : @dbgChallenge s = (x0, t)) (h : Keep s0 s) : Keep s0 t := by
  have k := dbgChallenge_keep h 
  rw [e] at k
  exact k

theorem mirrorStage_keep {s0 s : State} (h : Keep s0 s) (a1 a2 a3) : Keep s0 (@mirrorStage s a1 a2 a3) := by
  unfold mirrorStage
  with_reducible repeat' (first | assumption | apply mirror_keep | apply Keep.foldl | (intro _; intros; try dsimp -zeta only))

theorem mirrorCommit_keep {s0 s : State} (h : Keep s0 s) (a1 a2 a3) : Keep s0 (@mirrorCommit s a1 a2 a3) := by
  unfold mirrorCommit
  with_reducible repeat' (first | assumption | apply mirror_keep)

theorem takeSlot_keep {s0 s : State} (h : Keep s0 s) (a1 a2) : Keep s0 (@takeSlot s a1 a2) := by
  unfold takeSlot
  with_reducible repeat' (first | assumption | apply setNat_keep | split)

theorem replySent_keep {s0 s : State} (h : Keep s0 s) (a1) : Keep s0 (@replySent s a1) := by
  unfold replySent
  with_reducible repeat' (first | assumption | apply Keep.ite | apply closeSession_keep | apply closeSessions_keep | split)

theorem mapSess_keep {s0 s : State} (h : Keep s0 s) (a1 a2) : Keep s0 (@mapSess s a1 a2) := by
  unfold mapSess
  with_reducible repeat' (first | assumption | apply setSess_keep | split)

theorem stopEngines_keep {s0 s : State} (h : Keep s0 s) : Keep s0 (@stopEngines s) := by
  unfold stopEngines
  with_reducible repeat' (first
    | assumption | apply setEngine_keep | apply Keep.foldl | simp only [keep_mk] | apply Keep.core
    | (intro _; intros; try dsimp -zeta only))

theorem fuseLife_keep {s0 s : State} (h : Keep s0 s) (a1) : Keep s0 (@fuseLife s a1) := by
  unfold fuseLife
  with_reducible repeat' (first
    | assumption | apply Keep.ite | apply setNat_keep | apply setObj_keep | simp only [keep_mk] | apply Keep.core)

theorem lcDone_keep {s0 s : State} (h : Keep s0 s) (a1) : Keep s0 (@lcDone s a1) := by
  unfold lcDone
  with_reducible repeat' (first
    | assumption | apply Keep.ite | apply stopEngines_keep | apply toIsolated_keep | apply wipe_keep | apply fuseLife_keep
    | apply alarm_keep)

theorem execCall_keep (s0 : State) (a0 a1) : KeepOut s0 (@execCall a0 a1 s0) := by
  unfold execCall
  with_reducible repeat' (first | apply KeepOut.next | exact Keep.refl _ | apply issueSlot_keep)

theorem execDoImm_keep (s0 : State) (a0 a1 a2) : KeepOut s0 (@execDoImm a0 a1 a2 s0) := by
  unfold execDoImm
  with_reducible repeat' (first | apply KeepOut.next | exact Keep.refl _ | apply issueSlot_keep)

theorem execPostStallEnd_keep (s0 : State) (a0 a1) : KeepOut s0 (@execPostStallEnd a0 a1 s0) := by
  unfold execPostStallEnd
  with_reducible repeat' (first
    | apply KeepOut.next | apply KeepOut.ite | exact Keep.refl _ | apply commitEngine_keep | simp only [keep_mk] | split)

theorem execEndl_keep (s0 : State) (a0) : KeepOut s0 (@execEndl a0 s0) := by
  unfold execEndl
  with_reducible repeat' (first | apply KeepOut.next | exact Keep.refl _ | apply issueSlot_keep)

theorem substEgress_keep {s0 s : State} (h : Keep s0 s) (a1) : Keep s0 (@substEgress s a1) := by
  unfold substEgress
  with_reducible repeat' (first | assumption | apply handEgress_keep | apply setDest_keep)

theorem closeEgress_keep {s0 s : State} (h : Keep s0 s) (a1) : Keep s0 (@closeEgress s a1) := by
  unfold closeEgress
  with_reducible repeat' (first
    | assumption | apply Keep.ite | apply handEgress_keep | apply substEgress_keep | apply addWrap_keep | apply alarm_keep
    | apply Keep.foldl | simp only [keep_mk] | apply Keep.core | (intro _; intros; try dsimp -zeta only))

theorem preparePage_keep {s0 s : State} (h : Keep s0 s) (a0 a2 a3) : Keep s0 (@preparePage a0 s a2 a3) := by
  unfold preparePage
  with_reducible repeat' (first | assumption | apply backPage_keep)

theorem standbyStreams_keep {s0 s : State} (h : Keep s0 s) : Keep s0 (@standbyStreams s) := by
  unfold standbyStreams
  with_reducible repeat' (first
    | assumption | apply txSamples_keep | apply Keep.foldl | (intro _; intros; try dsimp -zeta only))

theorem refreshEngine_keep {s0 s : State} (h : Keep s0 s) (a1) : Keep s0 (@refreshEngine s a1) := by
  unfold refreshEngine
  with_reducible repeat' (first | assumption | apply setNat_keep)

theorem refreshGrant_keep {s0 s : State} (h : Keep s0 s) : Keep s0 (@refreshGrant s) := by
  unfold refreshGrant
  with_reducible repeat' (first | assumption | apply setNat_keep | split)

theorem notePost_keep {s0 s : State} (h : Keep s0 s) (a1 a2 a3 a4) : Keep s0 (@notePost s a1 a2 a3 a4) := by
  unfold notePost
  with_reducible repeat' (first
    | assumption | apply Keep.ite | apply shadowDiffers_keep | simp only [keep_mk] | apply Keep.core | split)

theorem storeOutput_keep {s0 s : State} (h : Keep s0 s) (a1 a2 a3 a4 a5) : Keep s0 (@storeOutput s a1 a2 a3 a4 a5) := by
  unfold storeOutput
  with_reducible repeat' (first | assumption | apply Keep.ite | apply setSource_keep | apply putFrame_keep)

theorem deliverPost_keep {s0 s : State} (h : Keep s0 s) (a1 a2 a3 a4 a5) : Keep s0 (@deliverPost s a1 a2 a3 a4 a5) := by
  unfold deliverPost
  with_reducible repeat' (first
    | assumption | apply Keep.ite | apply notePost_keep | apply addHold_keep | apply storeOutput_keep | simp only [keep_mk]
    | split)

theorem execWaitphase_keep (s0 : State) (a0 a1) : KeepOut s0 (@execWaitphase a0 a1 s0) := by
  unfold execWaitphase
  with_reducible repeat' (first | apply KeepOut.next | exact Keep.refl _ | apply issueSlot_keep)

theorem restorePlace_keep {s0 s : State} (h : Keep s0 s) (a1) : Keep s0 (@restorePlace s a1) := by
  unfold restorePlace
  with_reducible repeat' (first
    | assumption | apply rewritePages_keep | apply setEngine_keep | apply dlyPlaceStart_keep | simp only [keep_mk] | split)

theorem dlyMoved_keep {s0 s : State} (h : Keep s0 s) (a1 a2 a3) : Keep s0 (@dlyMoved s a1 a2 a3) := by
  unfold dlyMoved
  with_reducible repeat' (first
    | assumption | apply dramBursts_keep | apply countMoved_keep | apply fabEvent_keep | apply Keep.foldl
    | (intro _; intros; try dsimp -zeta only))

theorem dlyWrite_keep {s0 s : State} (h : Keep s0 s) (l w ws) : Keep s0 (dlyWrite s l w ws) := by
  induction ws generalizing s w with
  | nil => exact h
  | cons v t ih => exact ih (setMemBytes_keep h _ _) _

theorem streamLine_keep {s0 s : State} (h : Keep s0 s) (a1 a2 a3 a4) : Keep s0 (@streamLine s a1 a2 a3 a4) := by
  unfold streamLine
  with_reducible repeat' (first
    | assumption | apply Keep.ite | apply dlyMoved_keep | apply dlyWrite_keep | apply setEngine_keep | apply Keep.foldl
    | simp only [keep_mk] | apply Keep.core | (intro _; intros; try dsimp -zeta only) | split)

theorem execBraDx_keep (s0 : State) (a0 a1) : KeepOut s0 (@execBraDx a0 a1 s0) := by
  unfold execBraDx
  with_reducible repeat' (first | apply KeepOut.next | exact Keep.refl _ | apply issueSlot_keep)

theorem execOutputFrameCopied_keep (s0 : State) (a0 a1 a2) : KeepOut s0 (@execOutputFrameCopied a0 a1 a2 s0) := by
  unfold execOutputFrameCopied
  with_reducible repeat' (first
    | apply KeepOut.next | apply KeepOut.ite | exact Keep.refl _ | apply countFixes_keep | apply setEngine_keep
    | apply deliverPost_keep | apply alarm_keep | apply haltEngine_keep | simp only [keep_mk] | split)

theorem giveWay_keep {s0 s : State} (h : Keep s0 s) : Keep s0 (@giveWay s) := by
  unfold giveWay
  with_reducible repeat' (first | assumption | apply alarm_keep | apply toSync_keep | apply setDoor_keep)

theorem execBcc_keep (s0 : State) (a0 a1 a2) : KeepOut s0 (@execBcc a0 a1 a2 s0) := by
  unfold execBcc
  with_reducible repeat' (first | apply KeepOut.next | exact Keep.refl _ | apply issueSlot_keep)

theorem execInterruptTaken_keep (s0 : State) (a0) : KeepOut s0 (@execInterruptTaken a0 s0) := by
  unfold execInterruptTaken
  with_reducible repeat' (first
    | apply KeepOut.next | apply KeepOut.ite | exact Keep.refl _ | apply commitEngine_keep | simp only [keep_mk]
    | refine Keep.coreDraw ?_ (Nat.le_succ _) | split)

theorem dlyOpen_keep {s0 s : State} (h : Keep s0 s) (a1 a2) : Keep s0 (@dlyOpen s a1 a2) := by
  unfold dlyOpen
  with_reducible repeat' (first
    | assumption | apply alarm_keep | apply Keep.foldl | simp only [keep_mk] | apply Keep.core
    | (intro _; intros; try dsimp -zeta only))

theorem execRti_keep (s0 : State) (a0) : KeepOut s0 (@execRti a0 s0) := by
  unfold execRti
  with_reducible repeat' (first | apply KeepOut.next | exact Keep.refl _ | apply issueSlot_keep)

theorem execSubbankRetry_keep (s0 : State) (a0 a1) : KeepOut s0 (@execSubbankRetry a0 a1 s0) := by
  unfold execSubbankRetry
  with_reducible repeat' (first | apply KeepOut.next | exact Keep.refl _ | apply commitEngine_keep)

theorem execDoDx_keep (s0 : State) (a0 a1 a2) : KeepOut s0 (@execDoDx a0 a1 a2 s0) := by
  unfold execDoDx
  with_reducible repeat' (first | apply KeepOut.next | exact Keep.refl _ | apply issueSlot_keep)

theorem execBra_keep (s0 : State) (a0 a1) : KeepOut s0 (@execBra a0 a1 s0) := by
  unfold execBra
  with_reducible repeat' (first | apply KeepOut.next | exact Keep.refl _ | apply issueSlot_keep)

theorem execRet_keep (s0 : State) (a0) : KeepOut s0 (@execRet a0 s0) := by
  unfold execRet
  with_reducible repeat' (first | apply KeepOut.next | exact Keep.refl _ | apply issueSlot_keep)

theorem execRepImm_keep (s0 : State) (a0 a1) : KeepOut s0 (@execRepImm a0 a1 s0) := by
  unfold execRepImm
  with_reducible repeat' (first | apply KeepOut.next | exact Keep.refl _ | apply issueSlot_keep)

theorem execRepDx_keep (s0 : State) (a0 a1) : KeepOut s0 (@execRepDx a0 a1 s0) := by
  unfold execRepDx
  with_reducible repeat' (first | apply KeepOut.next | exact Keep.refl _ | apply issueSlot_keep)

theorem execLoopExit_keep (s0 : State) (a0) : KeepOut s0 (@execLoopExit a0 s0) := by
  unfold execLoopExit
  with_reducible repeat' (first | apply KeepOut.next | exact Keep.refl _ | apply setEngine_keep)

theorem execWaitphaseReturn_keep (s0 : State) (a0 a1 a2) : KeepOut s0 (@execWaitphaseReturn a0 a1 a2 s0) := by
  unfold execWaitphaseReturn
  with_reducible repeat' (first
    | apply KeepOut.next | apply KeepOut.ite | exact Keep.refl _ | apply commitEngine_keep | apply dlyOpen_keep | split)

theorem execDoneOp_keep (s0 : State) (a0) : KeepOut s0 (@execDoneOp a0 s0) := by
  unfold execDoneOp
  with_reducible repeat' (first | apply KeepOut.next | exact Keep.refl _ | apply issueSlot_keep)

theorem execPostImm_keep (s0 : State) (a0 a1) : KeepOut s0 (@execPostImm a0 a1 s0) := by
  unfold execPostImm
  with_reducible repeat' (first | apply KeepOut.next | exact Keep.refl _ | apply issueSlot_keep)

theorem execPostDx_keep (s0 : State) (a0 a1) : KeepOut s0 (@execPostDx a0 a1 s0) := by
  unfold execPostDx
  with_reducible repeat' (first | apply KeepOut.next | exact Keep.refl _ | apply issueSlot_keep)

theorem execIllegalBundle_keep (s0 : State) (a0 a1) : KeepOut s0 (@execIllegalBundle a0 a1 s0) := by
  unfold execIllegalBundle
  with_reducible repeat' (first
    | apply KeepOut.next | apply KeepOut.ite | exact Keep.refl _ | apply Keep.ite | apply commitEngine_keep
    | apply haltEcc_keep | apply haltIllegal_keep)

theorem gatherSlots_keep {s0 s : State} (h : Keep s0 s) (a1 a2 a3) : Keep s0 (@gatherSlots s a1 a2 a3).1 := by
  unfold gatherSlots
  with_reducible repeat' (first
    | assumption | apply gatherWith_keep | apply Keep.foldl | simp only [keep_mk] | (intro _; intros; try dsimp -zeta only))

theorem gatherSlots_keep_eq {s0 s t : State} {a1 a2 a3} {x1}
    (e : @gatherSlots s a1 a2 a3 = (t, x1)) (h : Keep s0 s) : Keep s0 t := by
  have k := gatherSlots_keep h a1 a2 a3
  rw [e] at k
  exact k

theorem fillInputs_keep {s0 s : State} (h : Keep s0 s) (a1 a2 a3) : Keep s0 (@fillInputs s a1 a2 a3) := by
  unfold fillInputs
  with_reducible repeat' (first
    | assumption | apply setEngine_keep | apply Keep.foldl | simp only [keep_mk] | (intro _; intros; try dsimp -zeta only))

theorem reportGr_keep {s0 s : State} (h : Keep s0 s) (a1 a2) : Keep s0 (@reportGr s a1 a2) := by
  unfold reportGr
  with_reducible repeat' (first | assumption | apply setInt_keep)

theorem convertDest_keep {s0 s : State} (h : Keep s0 s) (a1) : Keep s0 (@convertDest s a1) := by
  unfold convertDest
  with_reducible repeat' (first
    | assumption | apply Keep.ite | apply handEgress_keep | apply reportGr_keep | apply setDest_keep)

theorem takeDoor_keep {s0 s : State} (h : Keep s0 s) : Keep s0 (@takeDoor s) := by
  unfold takeDoor
  with_reducible repeat' (first
    | assumption | apply syncTx_keep | apply setNat_keep | apply restorePlace_keep | apply alarm_keep | apply Keep.foldl
    | simp only [keep_mk] | apply Keep.core | (intro _; intros; try dsimp -zeta only))

theorem takeoverRun_keep {s0 s : State} (h : Keep s0 s) : Keep s0 (@takeoverRun s) := by
  unfold takeoverRun
  with_reducible repeat' (first
    | assumption | apply Keep.ite | apply emit_keep | apply stopStreams_keep | apply announceArp_keep | apply startPlace_keep
    | apply setDoor_keep | apply Keep.foldl | simp only [keep_mk] | apply Keep.core | (intro _; intros; try dsimp -zeta only))

end Sys2Proof.Machine
end

