-- ==== Sys2Proof/Laws/KeepClock.lean ====
section
/-! SUPPORT. `Keep` for every operation and command of FabOps, Mailbox, RefOps, TimeOps, SynOps. -/

namespace Sys2Proof.Machine

set_option linter.unusedVariables false
set_option linter.unusedSimpArgs false

theorem setRho_keep {s0 s : State} (h : Keep s0 s) : Keep s0 (@setRho s) := by
  unfold setRho
  with_reducible repeat' (first | assumption | apply alarmIf_keep | apply setInt_keep | simp only [keep_mk] | apply Keep.core)

theorem holdFollow_keep {s0 s : State} (h : Keep s0 s) : Keep s0 (@holdFollow s) := by
  unfold holdFollow
  with_reducible repeat' (first | assumption | apply Keep.ite | apply setRho_keep | simp only [keep_mk] | apply Keep.core)

theorem fixWord_keep {s0 s : State} (h : Keep s0 s) (a1 a2) : Keep s0 (@fixWord s a1 a2) := by
  unfold fixWord
  with_reducible repeat' (first | assumption | apply setEngine_keep)

theorem latticeFault_keep {s0 s : State} (h : Keep s0 s) (a1) : Keep s0 (@latticeFault s a1) := by
  unfold latticeFault
  with_reducible repeat' (first | assumption | apply Keep.ite | apply selFault_keep | apply slotFault_keep | split)

theorem wordEcc_keep {s0 s : State} (h : Keep s0 s) (a1 a2 a3 a4 a5) : Keep s0 (@wordEcc s a1 a2 a3 a4 a5).1 := by
  unfold wordEcc
  with_reducible repeat' (first
    | assumption | apply Keep.ite1 | apply fabEvent_keep | apply addHold_keep | apply alarm_keep | apply addWrap_keep
    | apply fixWord_keep | apply countCorrected_keep | apply latticeFault_keep | simp only [keep_mk] | split)

theorem wordEcc_keep_eq {s0 s t : State} {a1 a2 a3 a4 a5} {x1}
    (e : @wordEcc s a1 a2 a3 a4 a5 = (t, x1)) (h : Keep s0 s) : Keep s0 t := by
  have k := wordEcc_keep h a1 a2 a3 a4 a5
  rw [e] at k
  exact k

theorem fabEcc_keep {s0 s : State} (h : Keep s0 s) (m t a n w errs) : Keep s0 (fabEcc s m t a n w errs).1 := by
  exact Keep.foldlFst (p := (s, false)) h (fun _ e k => wordEcc_keep k m t e.1 w e.2) _
theorem fabEcc_keep_eq {s0 s t : State} {a1 a2 a3 a4 a5 a6} {x1}
    (e : fabEcc s a1 a2 a3 a4 a5 a6 = (t, x1)) (h : Keep s0 s) : Keep s0 t := by
  have k := fabEcc_keep h a1 a2 a3 a4 a5 a6
  rw [e] at k
  exact k

theorem pageWrite_keep {s0 s : State} (h : Keep s0 s) (a1 a2 a3) : Keep s0 (@pageWrite s a1 a2 a3) := by
  unfold pageWrite
  with_reducible repeat' (first
    | assumption | apply setPageWord_keep | apply bumpGen_keep | simp only [keep_mk] | apply Keep.core)

theorem yWrite_keep {s0 s : State} (h : Keep s0 s) (a1 a2 a3) : Keep s0 (@yWrite s a1 a2 a3) := by
  unfold yWrite
  with_reducible repeat' (first | assumption | apply pageWrite_keep | apply setEngine_keep | split)

theorem windowWrite_keep {s0 s : State} (h : Keep s0 s) (a1 a2 a3) : Keep s0 (@windowWrite s a1 a2 a3).2 := by
  unfold windowWrite
  with_reducible repeat' (first
    | assumption | apply Keep.ite2 | apply setEngine_keep | apply yWrite_keep | apply commitEngine_keep)

theorem windowWrite_keep_eq {s0 s t : State} {a1 a2 a3} {x0}
    (e : @windowWrite s a1 a2 a3 = (x0, t)) (h : Keep s0 s) : Keep s0 t := by
  have k := windowWrite_keep h a1 a2 a3
  rw [e] at k
  exact k

theorem benchWrite_keep {s0 s : State} (h : Keep s0 s) (a1 a2 a3) : Keep s0 (@benchWrite s a1 a2 a3) := by
  unfold benchWrite
  with_reducible repeat' (first | assumption | apply Keep.ite | apply bumpGen_keep | apply setXp_keep)

theorem selectorWrite_keep {s0 s : State} (h : Keep s0 s) (a1 a2) : Keep s0 (@selectorWrite s a1 a2) := by
  unfold selectorWrite
  with_reducible repeat' (first
    | assumption | apply directWrite_keep | apply Keep.foldl | (intro _; intros; try dsimp -zeta only))

theorem writeFabCtl_keep {s0 s : State} (h : Keep s0 s) (a1) : Keep s0 (@writeFabCtl s a1) := by
  unfold writeFabCtl
  with_reducible repeat' (first | assumption | simp only [keep_mk] | apply Keep.core)

theorem deviceWrite_keep {s0 s : State} (h : Keep s0 s) (a1 a2 a3 a4) : Keep s0 (@deviceWrite s a1 a2 a3 a4).2 := by
  unfold deviceWrite
  with_reducible repeat' (first
    | assumption | apply Keep.ite | apply Keep.ite2 | apply windowWrite_keep | apply benchWrite_keep
    | apply selectorWrite_keep | apply writeFabCtl_keep | simp only [keep_mk] | split)

theorem deviceWrite_keep_eq {s0 s t : State} {a1 a2 a3 a4} {x0}
    (e : @deviceWrite s a1 a2 a3 a4 = (x0, t)) (h : Keep s0 s) : Keep s0 t := by
  have k := deviceWrite_keep h a1 a2 a3 a4
  rw [e] at k
  exact k

theorem deviceWrites_keep (m t off n b) {s0 s : State} (h : Keep s0 s) : Keep s0 (deviceWrites m t off n b s).2 := by
  induction n generalizing s off b with
  | zero => exact h
  | succ n ih =>
    simp only [deviceWrites]
    split
    · next e => exact ih _ _ (deviceWrite_keep_eq e h)
    · next e => exact deviceWrite_keep_eq e h
theorem deviceWrites_keep_eq {s0 s t : State} {a0 a1 a2 a3 a4} {x0}
    (e : deviceWrites a0 a1 a2 a3 a4 s = (x0, t)) (h : Keep s0 s) : Keep s0 t := by
  have k := deviceWrites_keep a0 a1 a2 a3 a4 h
  rw [e] at k
  exact k

theorem windowRead_keep {s0 s : State} (h : Keep s0 s) (cyc n off) : Keep s0 (windowRead s cyc n off).2.2 := by
  unfold windowRead
  lift_lets
  intro e
  clear_value e
  refine Keep.ite22 h (Keep.ite22 h (Keep.ite22 h (Keep.ite22 h (Keep.ite22 ?_ h))))
  split
  exact setEngine_keep h n _
theorem windowRead_keep_eq {s0 s t : State} {a0 a1 a2} {x0 x1} (e : windowRead s a0 a1 a2 = (x0, x1, t)) (h : Keep s0 s) :
    Keep s0 t := by
  have k := windowRead_keep h a0 a1 a2
  rw [e] at k
  exact k

theorem deviceRead_keep {s0 s : State} (h : Keep s0 s) (a1 a2 a3) : Keep s0 (@deviceRead s a1 a2 a3).2.2 := by
  unfold deviceRead
  with_reducible repeat' (first | assumption | apply Keep.ite22 | apply windowRead_keep | split)

theorem deviceRead_keep_eq {s0 s t : State} {a1 a2 a3} {x0 x1}
    (e : @deviceRead s a1 a2 a3 = (x0, x1, t)) (h : Keep s0 s) : Keep s0 t := by
  have k := deviceRead_keep h a1 a2 a3
  rw [e] at k
  exact k

theorem deviceReads_keep (cyc t off n) {s0 s : State} (h : Keep s0 s) : Keep s0 (deviceReads cyc t off n s).2.2 := by
  induction n generalizing s off with
  | zero => exact h
  | succ n ih =>
    simp only [deviceReads]
    split
    · next e => exact ih _ (deviceRead_keep_eq e h)
    · next e => exact deviceRead_keep_eq e h
theorem deviceReads_keep_eq {s0 s t : State} {a0 a1 a2 a3} {x0 x1} (e : deviceReads a0 a1 a2 a3 s = (x0, x1, t))
    (h : Keep s0 s) : Keep s0 t := by
  have k := deviceReads_keep a0 a1 a2 a3 h
  rw [e] at k
  exact k

theorem fabBeat_keep {s0 s : State} (h : Keep s0 s) (a1 a2 a3 a4 a5 a6 a7) : Keep s0 (@fabBeat s a1 a2 a3 a4 a5 a6 a7).2.2 := by
  unfold fabBeat
  with_reducible repeat' (first
    | assumption | apply Keep.ite | apply Keep.ite22 | apply fabEcc_keep | apply countMoved_keep | apply setMemBytes_keep
    | apply deviceWrites_keep | apply deviceReads_keep | simp only [keep_mk] | split)

theorem fabBeat_keep_eq {s0 s t : State} {a1 a2 a3 a4 a5 a6 a7} {x0 x1}
    (e : @fabBeat s a1 a2 a3 a4 a5 a6 a7 = (x0, x1, t)) (h : Keep s0 s) : Keep s0 t := by
  have k := fabBeat_keep h a1 a2 a3 a4 a5 a6 a7
  rw [e] at k
  exact k

theorem ptpSend_keep {s0 s : State} (h : Keep s0 s) (a1 a2 a3 a4) : Keep s0 (@ptpSend s a1 a2 a3 a4) := by
  unfold ptpSend
  with_reducible repeat' (first | assumption | apply Keep.ite | apply sendCtl_keep)

theorem setPtp_keep {s0 s : State} (h : Keep s0 s) (a1 a2) : Keep s0 (@setPtp s a1 a2) := by
  unfold setPtp
  with_reducible repeat' (first | assumption | simp only [keep_mk] | apply Keep.core)

theorem ptpDue_keep {s0 s : State} (h : Keep s0 s) (a0 a1 a3) : Keep s0 (@ptpDue a0 a1 s a3) := by
  unfold ptpDue
  with_reducible repeat' (first | assumption | apply Keep.ite | apply ptpSend_keep | apply setPtp_keep)

theorem ptpTurn_keep {s0 s : State} (h : Keep s0 s) : Keep s0 (@ptpTurn s) := by
  unfold ptpTurn
  with_reducible repeat' (first
    | assumption | apply Keep.ite | apply ptpDue_keep | apply setPtp_keep | apply Keep.foldl | simp only [keep_mk]
    | (intro _; intros; try dsimp -zeta only))

theorem setRampState_keep {s0 s : State} (h : Keep s0 s) (a1 a2 a3) : Keep s0 (@setRampState s a1 a2 a3) := by
  unfold setRampState
  with_reducible repeat' (first | assumption | apply setNat_keep)

theorem rampStop_keep {s0 s : State} (h : Keep s0 s) (a1) : Keep s0 (@rampStop s a1) := by
  unfold rampStop
  with_reducible repeat' (first
    | assumption | apply setRampState_keep | apply setInt_keep | simp only [keep_mk] | apply Keep.core | split)

theorem setCand_keep {s0 s : State} (h : Keep s0 s) (a1 a2) : Keep s0 (@setCand s a1 a2) := by
  unfold setCand
  with_reducible repeat' (first | assumption | simp only [keep_mk] | apply Keep.core)

theorem setRefReason_keep {s0 s : State} (h : Keep s0 s) (a1 a2 a3) : Keep s0 (@setRefReason s a1 a2 a3) := by
  unfold setRefReason
  with_reducible repeat' (first | assumption | apply setNat_keep)

theorem refFails_keep {s0 s : State} (h : Keep s0 s) (a1 a2) : Keep s0 (@refFails s a1 a2) := by
  unfold refFails
  with_reducible repeat' (first
    | assumption | apply Keep.ite | apply setCand_keep | apply alarm_keep | apply setNat_keep | apply setRefReason_keep)

theorem refLost_keep {s0 s : State} (h : Keep s0 s) (a1) : Keep s0 (@refLost s a1) := by
  unfold refLost
  with_reducible repeat' (first | assumption | apply refFails_keep)

theorem ptpDecide_keep {s0 s : State} (h : Keep s0 s) (a1 a2) : Keep s0 (@ptpDecide s a1 a2) := by
  unfold ptpDecide
  with_reducible repeat' (first
    | assumption | apply Keep.ite | apply setNat_keep | apply setPtp_keep | apply alarmIf_keep | apply refLost_keep)

theorem downLink_keep {s0 s : State} (h : Keep s0 s) (a1) : Keep s0 (@downLink s a1) := by
  unfold downLink
  with_reducible repeat' (first
    | assumption | apply Keep.ite | apply setNat_keep | apply alarm_keep | apply addHold_keep | apply ptpDecide_keep
    | apply Keep.foldl | simp only [keep_mk] | apply Keep.core | (intro _; intros; try dsimp -zeta only))

theorem landSpeed_keep {s0 s : State} (h : Keep s0 s) (a1 a2) : Keep s0 (@landSpeed s a1 a2) := by
  unfold landSpeed
  with_reducible repeat' (first | assumption | apply Keep.ite | apply downLink_keep)

theorem landTrig_keep {s0 s : State} (h : Keep s0 s) (a1 a2) : Keep s0 (@landTrig s a1 a2) := by
  unfold landTrig
  with_reducible repeat' (first | assumption | simp only [keep_mk] | apply Keep.core)

theorem landOscTol_keep {s0 s : State} (h : Keep s0 s) : Keep s0 (@landOscTol s) := by
  unfold landOscTol
  with_reducible repeat' (first | assumption | apply holdFollow_keep | apply setInt_keep)

theorem pllSwitch_keep {s0 s : State} (h : Keep s0 s) (a1) : Keep s0 (@pllSwitch s a1) := by
  unfold pllSwitch
  with_reducible repeat' (first
    | assumption | apply draw_keep | apply alarm_keep | apply syncHotLeaf_keep | apply setNat_keep | simp only [keep_mk]
    | apply Keep.core)

theorem landPllSelect_keep {s0 s : State} (h : Keep s0 s) : Keep s0 (@landPllSelect s) := by
  unfold landPllSelect
  with_reducible repeat' (first | assumption | apply Keep.ite | apply pllSwitch_keep | apply setNat_keep)

theorem useSlot_keep {s0 s : State} (h : Keep s0 s) (a1 a2) : Keep s0 (@useSlot s a1 a2) := by
  unfold useSlot
  with_reducible repeat' (first | assumption | simp only [keep_mk] | apply Keep.core)

theorem retune_keep {s0 s : State} (h : Keep s0 s) (a1) : Keep s0 (@retune s a1) := by
  unfold retune
  with_reducible repeat' (first | assumption | apply Keep.ite | apply setNat_keep | apply useSlot_keep | split)

theorem landMedsynFamily_keep {s0 s : State} (h : Keep s0 s) (a0 a2) : Keep s0 (@landMedsynFamily a0 s a2) := by
  unfold landMedsynFamily
  with_reducible repeat' (first | assumption | apply Keep.ite | apply retune_keep | apply rampStop_keep)

theorem rampBegin_keep {s0 s : State} (h : Keep s0 s) (a1 a2) : Keep s0 (@rampBegin s a1 a2) := by
  unfold rampBegin
  with_reducible repeat' (first | assumption | apply setRampState_keep | simp only [keep_mk] | apply Keep.core)

theorem landMedsynOffset_keep {s0 s : State} (h : Keep s0 s) (a1) : Keep s0 (@landMedsynOffset s a1) := by
  unfold landMedsynOffset
  with_reducible repeat' (first | assumption | apply Keep.ite | apply rampBegin_keep)

theorem landSyncMode_keep {s0 s : State} (h : Keep s0 s) (a0) : Keep s0 (@landSyncMode a0 s) := by
  unfold landSyncMode
  with_reducible repeat' (first | assumption | apply Keep.ite | apply setNat_keep)

theorem setClockOut_keep {s0 s : State} (h : Keep s0 s) (a1) : Keep s0 (@setClockOut s a1) := by
  unfold setClockOut
  with_reducible repeat' (first | assumption | apply emit_keep | simp only [keep_mk] | apply Keep.core | split)

theorem synDivide_keep {s0 s : State} (h : Keep s0 s) : Keep s0 (@synDivide s) := by
  unfold synDivide
  with_reducible repeat' (first | assumption | simp only [keep_mk] | apply Keep.core)

theorem rampBoundary_keep {s0 s : State} (h : Keep s0 s) : Keep s0 (@rampBoundary s) := by
  unfold rampBoundary
  with_reducible repeat' (first
    | assumption | apply rampBegin_keep | apply setInt_keep | apply Keep.foldl | simp only [keep_mk] | apply Keep.core
    | (intro _; intros; try dsimp -zeta only))

theorem synSettle_keep {s0 s : State} (h : Keep s0 s) : Keep s0 (@synSettle s) := by
  unfold synSettle
  with_reducible repeat' (first
    | assumption | apply Keep.ite | apply synDivide_keep | apply rampBoundary_keep | simp only [keep_mk] | apply Keep.core)

theorem trigRests_keep {s0 s : State} (h : Keep s0 s) (a1) : Keep s0 (@trigRests s a1) := by
  unfold trigRests
  with_reducible repeat' (first | assumption | apply emit_keep)

theorem setTrig_keep {s0 s : State} (h : Keep s0 s) (a1 a2) : Keep s0 (@setTrig s a1 a2) := by
  unfold setTrig
  with_reducible repeat' (first | assumption | simp only [keep_mk] | apply Keep.core)

theorem trigLand_keep {s0 s : State} (h : Keep s0 s) (a1) : Keep s0 (@trigLand s a1) := by
  unfold trigLand
  with_reducible repeat' (first
    | assumption | apply Keep.ite | apply trigRests_keep | apply alarmIf_keep | apply setTrig_keep | apply setNat_keep)

theorem trigSettle_keep {s0 s : State} (h : Keep s0 s) : Keep s0 (@trigSettle s) := by
  unfold trigSettle
  with_reducible repeat' (first
    | assumption | apply trigLand_keep | apply Keep.foldl | simp only [keep_mk] | apply Keep.core
    | (intro _; intros; try dsimp -zeta only))

theorem portWrite_keep {s0 s : State} (h : Keep s0 s) (a1 a2 a3 a4) : Keep s0 (@portWrite s a1 a2 a3 a4) := by
  unfold portWrite
  with_reducible repeat' (first | assumption | apply Keep.ite | apply commitEngine_keep)

theorem execMboxAck_keep (s0 : State) (a0 a1) : KeepOut s0 (@execMboxAck a0 a1 s0) := by
  unfold execMboxAck
  with_reducible repeat' (first | apply KeepOut.next | exact Keep.refl _ | apply portWrite_keep)

theorem landRampStart_keep {s0 s : State} (h : Keep s0 s) (a1) : Keep s0 (@landRampStart s a1) := by
  unfold landRampStart
  with_reducible repeat' (first | assumption | apply Keep.ite | apply setNat_keep | simp only [keep_mk] | apply Keep.core)

theorem landSyncArm_keep {s0 s : State} (h : Keep s0 s) : Keep s0 (@landSyncArm s) := by
  unfold landSyncArm
  with_reducible repeat' (first | assumption | apply Keep.ite | apply setNat_keep)

theorem setRefState_keep {s0 s : State} (h : Keep s0 s) (a1 a2) : Keep s0 (@setRefState s a1 a2) := by
  unfold setRefState
  with_reducible repeat' (first | assumption | apply setNat_keep)

theorem refHold_keep {s0 s : State} (h : Keep s0 s) : Keep s0 (@refHold s) := by
  unfold refHold
  with_reducible repeat' (first
    | assumption | apply Keep.ite | apply setRefState_keep | apply setNat_keep | apply alarmIf_keep | apply setRho_keep
    | apply alarm_keep | simp only [keep_mk] | apply Keep.core | split)

theorem aimSlew_keep {s0 s : State} (h : Keep s0 s) (a1 a2) : Keep s0 (@aimSlew s a1 a2) := by
  unfold aimSlew
  with_reducible repeat' (first | assumption | apply Keep.ite | simp only [keep_mk] | apply Keep.core)

theorem trigStepped_keep {s0 s : State} (h : Keep s0 s) (a1) : Keep s0 (@trigStepped s a1) := by
  unfold trigStepped
  with_reducible repeat' (first
    | assumption | apply Keep.ite | apply setTrig_keep | apply alarm_keep | apply setNat_keep | apply Keep.foldl
    | simp only [keep_mk] | (intro _; intros; try dsimp -zeta only))

theorem timeJump_keep {s0 s : State} (h : Keep s0 s) (a1) : Keep s0 (@timeJump s a1) := by
  unfold timeJump
  with_reducible repeat' (first
    | assumption | apply Keep.ite | apply aimSlew_keep | apply trigStepped_keep | simp only [keep_mk] | apply Keep.core
    | split)

theorem reportBuild_keep {s0 s : State} (h : Keep s0 s) : Keep s0 (@reportBuild s) := by
  unfold reportBuild
  with_reducible repeat' (first | assumption | apply setInt_keep)

theorem takeFirst_keep {s0 s : State} (h : Keep s0 s) (a1) : Keep s0 (@takeFirst s a1) := by
  unfold takeFirst
  with_reducible repeat' (first
    | assumption | apply timeJump_keep | apply setRho_keep | apply reportBuild_keep | apply setInt_keep | apply setNat_keep
    | simp only [keep_mk] | apply Keep.core)

theorem stopForGood_keep {s0 s : State} (h : Keep s0 s) : Keep s0 (@stopForGood s) := by
  unfold stopForGood
  with_reducible repeat' (first | assumption | apply emit_keep | simp only [keep_mk] | apply Keep.core)

theorem writeMail_keep {s0 s : State} (h : Keep s0 s) (a1 a2) : Keep s0 (@writeMail s a1 a2) := by
  unfold writeMail
  with_reducible repeat' (first | assumption | apply setEngine_keep | simp only [keep_mk] | apply Keep.core | split)

theorem mailTick_keep {s0 s : State} (h : Keep s0 s) : Keep s0 (@mailTick s) := by
  unfold mailTick
  with_reducible repeat' (first
    | assumption | apply writeMail_keep | apply Keep.foldl | simp only [keep_mk] | apply Keep.core
    | (intro _; intros; try dsimp -zeta only))

theorem framePhase_keep {s0 s : State} (h : Keep s0 s) : Keep s0 (@framePhase s).2 := by
  unfold framePhase
  with_reducible repeat' (first | assumption | apply draw_keep)

theorem framePhase_keep_eq {s0 s t : State}  {x0} (e : @framePhase s = (x0, t)) (h : Keep s0 s) : Keep s0 t := by
  have k := framePhase_keep h 
  rw [e] at k
  exact k

theorem synBoundary_keep {s0 s : State} (h : Keep s0 s) : Keep s0 (@synBoundary s) := by
  unfold synBoundary
  with_reducible repeat' (first | assumption | apply framePhase_keep | simp only [keep_mk] | apply Keep.core)

theorem refWritten_keep {s0 s : State} (h : Keep s0 s) : Keep s0 (@refWritten s) := by
  unfold refWritten
  with_reducible repeat' (first | assumption | apply setObj_keep | apply Keep.foldl | (intro _; intros; try dsimp -zeta only))

theorem startQualify_keep {s0 s : State} (h : Keep s0 s) (a1) : Keep s0 (@startQualify s a1) := by
  unfold startQualify
  with_reducible repeat' (first | assumption | apply setRefState_keep | apply setCand_keep)

theorem refJudge_keep {s0 s : State} (h : Keep s0 s) (a1) : Keep s0 (@refJudge s a1) := by
  unfold refJudge
  with_reducible repeat' (first
    | assumption | apply Keep.ite | apply alarm_keep | apply setRefReason_keep | apply startQualify_keep | split)

theorem refSwitchTo_keep {s0 s : State} (h : Keep s0 s) (a1) : Keep s0 (@refSwitchTo s a1) := by
  unfold refSwitchTo
  with_reducible repeat' (first
    | assumption | apply Keep.ite | apply setRefState_keep | apply setNat_keep | apply setInt_keep | apply setRho_keep
    | apply alarm_keep | apply reportBuild_keep | apply addHold_keep | simp only [keep_mk] | apply Keep.core | split)

theorem refChoose_keep {s0 s : State} (h : Keep s0 s) : Keep s0 (@refChoose s) := by
  unfold refChoose
  with_reducible repeat' (first | assumption | apply Keep.ite | apply refHold_keep | apply refSwitchTo_keep | split)

theorem refBoundary_keep {s0 s : State} (h : Keep s0 s) : Keep s0 (@refBoundary s) := by
  unfold refBoundary
  with_reducible repeat' (first
    | assumption | apply refWritten_keep | apply setNat_keep | apply refJudge_keep | apply refChoose_keep | apply Keep.foldl
    | simp only [keep_mk] | apply Keep.core | (intro _; intros; try dsimp -zeta only) | split)

theorem ptpQuality_keep {s0 s : State} (h : Keep s0 s) : Keep s0 (@ptpQuality s) := by
  unfold ptpQuality
  with_reducible repeat' (first
    | assumption | apply ptpDecide_keep | apply Keep.foldl | (intro _; intros; try dsimp -zeta only))

theorem matrixEvent_keep {s0 s : State} (h : Keep s0 s) (a0 a1 a2 a3 a4) : Keep s0 (@matrixEvent a0 a1 a2 a3 a4 s) := by
  unfold matrixEvent
  with_reducible repeat' (first | assumption | apply Keep.ite | apply fabEvent_keep)

theorem fabBeats_keep (tx i n) {s0 s : State} (h : Keep s0 s) : Keep s0 (fabBeats tx i n s).2.2 := by
  induction n generalizing s i with
  | zero => exact h
  | succ n ih =>
    simp only [fabBeats]
    split
    · next e => exact ih _ (fabBeat_keep_eq e h)
    · next e => exact fabBeat_keep_eq e h
theorem fabBeats_keep_eq {s0 s t : State} {a0 a1 a2} {x0 x1}
    (e : fabBeats a0 a1 a2 s = (x0, x1, t)) (h : Keep s0 s) : Keep s0 t := by
  have k := fabBeats_keep a0 a1 a2 h
  rw [e] at k
  exact k

theorem fabError_keep {s0 s : State} (h : Keep s0 s) (a1 a2 a3 a4) : Keep s0 (@fabError s a1 a2 a3 a4) := by
  unfold fabError
  with_reducible repeat' (first | assumption | apply addWrap_keep | apply setNat_keep | apply alarm_keep)

theorem fabRun_keep {s0 s : State} (h : Keep s0 s) (a1) : Keep s0 (@fabRun s a1).2.2 := by
  unfold fabRun
  with_reducible repeat' (first
    | assumption | apply Keep.ite | apply Keep.ite22 | apply matrixEvent_keep | apply fabEvent_keep | apply dramBursts_keep
    | apply fabBeats_keep | apply fabError_keep)

theorem fabRun_keep_eq {s0 s t : State} {a1} {x0 x1} (e : @fabRun s a1 = (x0, x1, t)) (h : Keep s0 s) : Keep s0 t := by
  have k := fabRun_keep h a1
  rw [e] at k
  exact k

theorem sendMail_keep {s0 s : State} (h : Keep s0 s) (a1 a2) : Keep s0 (@sendMail s a1 a2) := by
  unfold sendMail
  with_reducible repeat' (first | assumption | apply Keep.ite | apply writeMail_keep | simp only [keep_mk] | apply Keep.core)

theorem storeBand_keep {s0 s : State} (h : Keep s0 s) (a1 a2) : Keep s0 (@storeBand s a1 a2) := by
  unfold storeBand
  with_reducible repeat' (first | assumption | apply useSlot_keep | apply setNat_keep)

theorem reacqStep_keep {s0 s : State} (h : Keep s0 s) (a1) : Keep s0 (@reacqStep s a1) := by
  unfold reacqStep
  with_reducible repeat' (first | assumption | simp only [keep_mk] | apply Keep.core | split)

theorem timePass_keep {s0 s : State} (h : Keep s0 s) (a1) : Keep s0 (@timePass s a1) := by
  unfold timePass
  with_reducible repeat' (first
    | assumption | apply Keep.ite | apply reportBuild_keep | apply reacqStep_keep | apply setRho_keep | simp only [keep_mk]
    | apply Keep.core)

theorem refPresent_keep {s0 s : State} (h : Keep s0 s) (a1) : Keep s0 (@refPresent s a1) := by
  unfold refPresent
  with_reducible repeat' (first | assumption | apply Keep.ite | apply setCand_keep | apply startQualify_keep)

theorem refPhase_keep {s0 s : State} (h : Keep s0 s) (a1 a2) : Keep s0 (@refPhase s a1 a2) := by
  unfold refPhase
  with_reducible repeat' (first
    | assumption | apply Keep.ite | apply refPresent_keep | apply setInt_keep | apply setCand_keep)

theorem syncDivider_keep {s0 s : State} (h : Keep s0 s) (a0 a1 a2 a4) : Keep s0 (@syncDivider a0 a1 a2 s a4) := by
  unfold syncDivider
  with_reducible repeat' (first
    | assumption | apply Keep.ite | apply alarm_keep | apply addHold_keep | apply emit_keep | simp only [keep_mk]
    | apply Keep.core)

theorem refMonitors_keep {s0 s : State} (h : Keep s0 s) (a1 a2) : Keep s0 (@refMonitors s a1 a2) := by
  unfold refMonitors
  with_reducible repeat' (first | assumption | apply setCand_keep | apply setInt_keep | apply alarmIf_keep)

theorem timeSteer_keep {s0 s : State} (h : Keep s0 s) (a1 a2 a3) : Keep s0 (@timeSteer s a1 a2 a3) := by
  unfold timeSteer
  with_reducible repeat' (first
    | assumption | apply Keep.ite | apply aimSlew_keep | apply setRho_keep | simp only [keep_mk] | apply Keep.core)

theorem trigSuspend_keep {s0 s : State} (h : Keep s0 s) : Keep s0 (@trigSuspend s) := by
  unfold trigSuspend
  with_reducible repeat' (first
    | assumption | apply Keep.ite | apply setTrig_keep | apply setNat_keep | apply Keep.foldl | simp only [keep_mk]
    | (intro _; intros; try dsimp -zeta only))

theorem fenceDrops_keep {s0 s : State} (h : Keep s0 s) (a1 a2) : Keep s0 (@fenceDrops s a1 a2) := by
  unfold fenceDrops
  with_reducible repeat' (first
    | assumption | apply alarm_keep | apply addHold_keep | apply Keep.iterate | (intro _; intros; try dsimp -zeta only))

theorem moveMail_keep {s0 s : State} (h : Keep s0 s) (a1 a2) : Keep s0 (@moveMail s a1 a2) := by
  unfold moveMail
  with_reducible repeat' (first | assumption | simp only [keep_mk] | apply Keep.core)

theorem takeInbox_keep {s0 s : State} (h : Keep s0 s) (a1 a2) : Keep s0 (@takeInbox s a1 a2) := by
  unfold takeInbox
  with_reducible repeat' (first | assumption | simp only [keep_mk] | apply Keep.core)

theorem bootBands_keep {s0 s : State} (h : Keep s0 s) : Keep s0 (@bootBands s) := by
  unfold bootBands
  with_reducible repeat' (first
    | assumption | apply draw_keep | apply storeBand_keep | apply setNat_keep | apply Keep.foldl | simp only [keep_mk]
    | (intro _; intros; try dsimp -zeta only))

theorem noLeafCheck_keep {s0 s : State} (h : Keep s0 s) : Keep s0 (@noLeafCheck s) := by
  unfold noLeafCheck
  with_reducible repeat' (first | assumption | apply alarmIf_keep | apply syncHotLeaf_keep)

theorem trigFire_keep {s0 s : State} (h : Keep s0 s) (a1 a2 a3 a4 a5) : Keep s0 (@trigFire s a1 a2 a3 a4 a5) := by
  unfold trigFire
  with_reducible repeat' (first
    | assumption | apply Keep.ite | apply setTrig_keep | apply setNat_keep | apply addHold_keep | apply setObj_keep
    | apply emit_keep)

theorem houseFamily_keep {s0 s : State} (h : Keep s0 s) : Keep s0 (@houseFamily s) := by
  unfold houseFamily
  with_reducible repeat' (first
    | assumption | apply Keep.ite | apply draw_keep | apply retune_keep | apply setNat_keep | apply Keep.foldl
    | simp only [keep_mk] | apply Keep.core | (intro _; intros; try dsimp -zeta only))

theorem pllLost_keep {s0 s : State} (h : Keep s0 s) (a1) : Keep s0 (@pllLost s a1).1 := by
  unfold pllLost
  with_reducible repeat' (first | assumption | apply alarm_keep | apply addHold_keep | simp only [keep_mk] | apply Keep.core)

theorem pllLost_keep_eq {s0 s t : State} {a1} {x1} (e : @pllLost s a1 = (t, x1)) (h : Keep s0 s) : Keep s0 t := by
  have k := pllLost_keep h a1
  rw [e] at k
  exact k

theorem refSample_keep {s0 s : State} (h : Keep s0 s) (a1) : Keep s0 (@refSample s a1) := by
  unfold refSample
  with_reducible repeat' (first
    | assumption | apply Keep.ite | apply setFlag_keep | apply setInt_keep | simp only [keep_mk] | apply Keep.core | split)

theorem refRank_keep {s0 s : State} (h : Keep s0 s) : Keep s0 (@refRank s) := by
  unfold refRank
  with_reducible repeat' (first
    | assumption | apply alarmIf_keep | apply setCand_keep | apply Keep.foldl | simp only [keep_mk]
    | (intro _; intros; try dsimp -zeta only))

theorem resetClockOuts_keep {s0 s : State} (h : Keep s0 s) : Keep s0 (@resetClockOuts s) := by
  unfold resetClockOuts
  with_reducible repeat' (first
    | assumption | apply Keep.ite | apply setClockOut_keep | apply Keep.foldl | (intro _; intros; try dsimp -zeta only))

theorem ptpLegLost_keep {s0 s : State} (h : Keep s0 s) (a1 a2) : Keep s0 (@ptpLegLost s a1 a2) := by
  unfold ptpLegLost
  with_reducible repeat' (first | assumption | apply ptpDecide_keep)

theorem execMboxSend_keep (s0 : State) (a0 a1) : KeepOut s0 (@execMboxSend a0 a1 s0) := by
  unfold execMboxSend
  with_reducible repeat' (first | apply KeepOut.next | exact Keep.refl _ | apply portWrite_keep)

theorem execSoftIrqSet_keep (s0 : State) (a0 a1) : KeepOut s0 (@execSoftIrqSet a0 a1 s0) := by
  unfold execSoftIrqSet
  with_reducible repeat' (first | apply KeepOut.next | exact Keep.refl _ | apply portWrite_keep)

theorem execMboxInMessage_keep (s0 : State) (a0 a1) : KeepOut s0 (@execMboxInMessage a0 a1 s0) := by
  unfold execMboxInMessage
  with_reducible repeat' (first | apply KeepOut.next | exact Keep.refl _ | apply Keep.ite | apply sendMail_keep)

theorem execMboxOutCollect_keep (s0 : State) (a0) : KeepOut s0 (@execMboxOutCollect a0 s0) := by
  unfold execMboxOutCollect
  with_reducible repeat' (first
    | apply KeepOut.next | exact Keep.refl _ | apply Keep.ite | apply setEngine_keep | simp only [keep_mk] | apply Keep.core)

theorem execMboxAlarm_keep (s0 : State) (a0) : KeepOut s0 (@execMboxAlarm a0 s0) := by
  unfold execMboxAlarm
  with_reducible repeat' (first
    | apply KeepOut.next | exact Keep.refl _ | apply alarm_keep | apply takeInbox_keep | simp only [keep_mk] | split)

theorem execWriteReply_keep (s0 : State) (a0) : KeepOut s0 (@execWriteReply a0 s0) := by
  unfold execWriteReply
  with_reducible repeat' (first
    | apply KeepOut.next | exact Keep.refl _ | apply Keep.ite | apply sendMail_keep | simp only [keep_mk] | apply Keep.core
    | split)

end Sys2Proof.Machine
end

