-- ==== Sys2Proof/Laws/KeepReserve.lean ====
section
/-! SUPPORT. `Keep` for every operation and command of Reserve, Cue, Startup, Check. -/

namespace Sys2Proof.Machine

set_option linter.unusedVariables false
set_option linter.unusedSimpArgs false

theorem setCueState_keep {s0 s : State} (h : Keep s0 s) (a1 a2) : Keep s0 (@setCueState s a1 a2) := by
  unfold setCueState
  with_reducible repeat' (first | assumption | apply setNat_keep)

theorem abandonAuto_keep {s0 s : State} (h : Keep s0 s) (a1) : Keep s0 (@abandonAuto s a1) := by
  unfold abandonAuto
  with_reducible repeat' (first
    | assumption | apply Keep.ite | apply abandonMove_keep | simp only [keep_mk] | apply Keep.core | split)

theorem retireEngine_keep {s0 s : State} (h : Keep s0 s) (a1 a2) : Keep s0 (@retireEngine s a1 a2) := by
  unfold retireEngine
  with_reducible repeat' (first | assumption | apply Keep.ite | apply askMove_keep | apply setRsvState_keep | split)

theorem startTest_keep {s0 s : State} (h : Keep s0 s) : Keep s0 (@startTest s) := by
  unfold startTest
  with_reducible repeat' (first
    | assumption | apply Keep.ite | apply setRsvState_keep | simp only [keep_mk] | apply Keep.core | split)

theorem addTests_keep {s0 s : State} (h : Keep s0 s) (a1) : Keep s0 (@addTests s a1) := by
  unfold addTests
  with_reducible repeat' (first | assumption | apply startTest_keep | simp only [keep_mk] | apply Keep.core)

theorem testLeaves_keep {s0 s : State} (h : Keep s0 s) : Keep s0 (@testLeaves s) := by
  unfold testLeaves
  with_reducible repeat' (first | assumption | apply addTests_keep)

theorem landRsvCmd_keep {s0 s : State} (h : Keep s0 s) (a1) : Keep s0 (@landRsvCmd s a1) := by
  unfold landRsvCmd
  with_reducible repeat' (first
    | assumption | apply Keep.ite | apply askMove_keep | apply retireEngine_keep | apply testLeaves_keep | apply addTests_keep
    | apply setNat_keep | simp only [keep_mk] | apply Keep.core)

theorem setCue_keep {s0 s : State} (h : Keep s0 s) (a1 a2) : Keep s0 (@setCue s a1 a2) := by
  unfold setCue
  with_reducible repeat' (first | assumption | apply Keep.ite | simp only [keep_mk] | apply Keep.core)

theorem cueChecks_keep {s0 s : State} (h : Keep s0 s) (a1 a2) : Keep s0 (@cueChecks s a1 a2) := by
  unfold cueChecks
  with_reducible repeat' (first | assumption | apply setCue_keep | apply setCueState_keep)

theorem cueSilence_keep {s0 s : State} (h : Keep s0 s) (a1) : Keep s0 (@cueSilence s a1) := by
  unfold cueSilence
  with_reducible repeat' (first | assumption | apply setCue_keep)

theorem landCueEn_keep {s0 s : State} (h : Keep s0 s) (a1 a2) : Keep s0 (@landCueEn s a1 a2) := by
  unfold landCueEn
  with_reducible repeat' (first
    | assumption | apply Keep.ite | apply cueChecks_keep | apply setCue_keep | apply setCueState_keep | apply cueSilence_keep)

theorem landCueVpk_keep {s0 s : State} (h : Keep s0 s) (a1 a2) : Keep s0 (@landCueVpk s a1 a2) := by
  unfold landCueVpk
  with_reducible repeat' (first | assumption | apply setCue_keep)

theorem startFwUpdate_keep {s0 s : State} (h : Keep s0 s) (a1) : Keep s0 (@startFwUpdate s a1) := by
  unfold startFwUpdate
  with_reducible repeat' (first | assumption | apply setNat_keep | simp only [keep_mk] | apply Keep.core)

theorem quietNet_keep {s0 s : State} (h : Keep s0 s) : Keep s0 (@quietNet s) := by
  unfold quietNet
  with_reducible repeat' (first | assumption | apply stopStreams_keep | simp only [keep_mk] | apply Keep.core)

theorem quietPtp_keep {s0 s : State} (h : Keep s0 s) : Keep s0 (@quietPtp s) := by
  unfold quietPtp
  with_reducible repeat' (first
    | assumption | apply Keep.ite | apply ptpDecide_keep | apply refLost_keep | apply Keep.foldl | simp only [keep_mk]
    | (intro _; intros; try dsimp -zeta only))

theorem landQuiet_keep {s0 s : State} (h : Keep s0 s) : Keep s0 (@landQuiet s) := by
  unfold landQuiet
  with_reducible repeat' (first
    | assumption | apply Keep.ite | apply quietNet_keep | apply reportGroups_keep | apply haltWork_keep | apply alarm_keep
    | apply quietPtp_keep | apply setFlag_keep | apply ptpDecide_keep | simp only [keep_mk] | apply Keep.core | split)

theorem refreshFaults_keep {s0 s : State} (h : Keep s0 s) : Keep s0 (@refreshFaults s) := by
  unfold refreshFaults
  with_reducible repeat' (first | assumption | apply setNat_keep | apply Keep.foldl | (intro _; intros; try dsimp -zeta only))

theorem execCueRetry_keep (s0 : State) (a0) : KeepOut s0 (@execCueRetry a0 s0) := by
  unfold execCueRetry
  with_reducible repeat' (first
    | apply KeepOut.next | exact Keep.refl _ | apply Keep.ite | apply cueChecks_keep | apply setNat_keep)

theorem withChanges_keep {s0 s : State} (h : Keep s0 s) (a1) : Keep s0 (@withChanges s a1) := by
  unfold withChanges
  with_reducible repeat' (first | assumption | apply setObj_keep | apply Keep.foldl | (intro _; intros; try dsimp -zeta only))

theorem commitBase_keep {s0 s : State} (h : Keep s0 s) : Keep s0 (@commitBase s) := by
  unfold commitBase
  with_reducible repeat' (first
    | assumption | apply withChanges_keep | apply Keep.foldl | (intro _; intros; try dsimp -zeta only))

theorem cueCommand_keep {s0 s : State} (h : Keep s0 s) (a1 a2) : Keep s0 (@cueCommand s a1 a2) := by
  unfold cueCommand
  with_reducible repeat' (first | assumption | apply Keep.ite | apply cueChecks_keep | apply setNat_keep | apply setCue_keep)

theorem dropOpen_keep {s0 s : State} (h : Keep s0 s) : Keep s0 (@dropOpen s) := by
  unfold dropOpen
  with_reducible repeat' (first | assumption | apply abandonAuto_keep | apply rejectOpen_keep)

theorem setSpares_keep {s0 s : State} (h : Keep s0 s) (a1 a2) : Keep s0 (@setSpares s a1 a2) := by
  unfold setSpares
  with_reducible repeat' (first | assumption | apply Keep.ite | apply setNat_keep)

theorem keptRepairs_keep {s0 s : State} (h : Keep s0 s) (a0) : Keep s0 (@keptRepairs a0 s) := by
  unfold keptRepairs
  with_reducible repeat' (first
    | assumption | apply Keep.ite | apply setNat_keep | apply setSpares_keep | apply Keep.foldl | simp only [keep_mk]
    | (intro _; intros; try dsimp -zeta only))

theorem resetBegins_keep {s0 s : State} (h : Keep s0 s) (cause) : Keep s0 (resetBegins s cause) := by
  have k := keptRepairs_keep (h.trans (Keep.reset s (keptSec s) (keptBoot s))) s
  unfold resetBegins
  refine emit_keep ?_ _
  refine Keep.ite ?_ ?_
  · exact setNat_keep k _ _ _
  · exact setNat_keep (setNat_keep (setNat_keep (setNat_keep (setNat_keep k _ _ _) _ _ _) _ _ _) _ _ _) _ _ _

theorem sysReset_keep {s0 s : State} (h : Keep s0 s) (a1) : Keep s0 (@sysReset s a1) := by
  unfold sysReset
  with_reducible repeat' (first | assumption | apply Keep.ite | apply resetBegins_keep)

theorem execLcAdvanceDone_keep (s0 : State) : KeepOut s0 (@execLcAdvanceDone s0) := by
  unfold execLcAdvanceDone
  with_reducible repeat' (first | apply KeepOut.next | exact Keep.refl _ | apply lcDone_keep | split)

theorem slackWarn_keep {s0 s : State} (h : Keep s0 s) (a1) : Keep s0 (@slackWarn s a1) := by
  unfold slackWarn
  with_reducible repeat' (first | assumption | apply Keep.ite | apply alarm_keep | simp only [keep_mk] | apply Keep.core)

theorem showSlack_keep {s0 s : State} (h : Keep s0 s) (a1) : Keep s0 (@showSlack s a1) := by
  unfold showSlack
  with_reducible repeat' (first | assumption | apply setInt_keep | split)

theorem noteSlack_keep {s0 s : State} (h : Keep s0 s) (a1 a2) : Keep s0 (@noteSlack s a1 a2) := by
  unfold noteSlack
  with_reducible repeat' (first | assumption | apply showSlack_keep | simp only [keep_mk] | apply Keep.core)

theorem readEngine_keep {s0 s : State} (h : Keep s0 s) (a1) : Keep s0 (@readEngine s a1) := by
  unfold readEngine
  with_reducible repeat' (first | assumption | apply Keep.ite | apply slackWarn_keep | apply noteSlack_keep)

theorem shadowBegins_keep {s0 s : State} (h : Keep s0 s) : Keep s0 (@shadowBegins s) := by
  unfold shadowBegins
  with_reducible repeat' (first | assumption | apply Keep.ite | apply setMigState_keep | apply setRsvState_keep | split)

theorem setStage_keep {s0 s : State} (h : Keep s0 s) (a1 a2) : Keep s0 (@setStage s a1 a2) := by
  unfold setStage
  with_reducible repeat' (first | assumption | apply setNat_keep | simp only [keep_mk] | apply Keep.core)

theorem cueFault_keep {s0 s : State} (h : Keep s0 s) (a1 a2) : Keep s0 (@cueFault s a1 a2) := by
  unfold cueFault
  with_reducible repeat' (first | assumption | apply addHold_keep)

theorem cueReturn_keep {s0 s : State} (h : Keep s0 s) (a1) : Keep s0 (@cueReturn s a1) := by
  unfold cueReturn
  with_reducible repeat' (first
    | assumption | apply Keep.ite | apply cueChecks_keep | apply setCueState_keep | apply setCue_keep)

theorem execCueSupplyReturn_keep (s0 : State) : KeepOut s0 (@execCueSupplyReturn s0) := by
  unfold execCueSupplyReturn
  with_reducible repeat' (first | apply KeepOut.next | exact Keep.refl _ | apply setCue_keep | apply cueReturn_keep)

theorem cueChannelTick_keep {s0 s : State} (h : Keep s0 s) (a1) : Keep s0 (@cueChannelTick s a1) := by
  unfold cueChannelTick
  with_reducible repeat' (first | assumption | apply Keep.ite | apply setCue_keep | apply emit_keep)

theorem execCueThermalReturn_keep (s0 : State) (a0) : KeepOut s0 (@execCueThermalReturn a0 s0) := by
  unfold execCueThermalReturn
  with_reducible repeat' (first | apply KeepOut.next | exact Keep.refl _ | apply cueReturn_keep | apply setCue_keep)

theorem askRetire_keep {s0 s : State} (h : Keep s0 s) (a1) : Keep s0 (@askRetire s a1) := by
  unfold askRetire
  with_reducible repeat' (first | assumption | apply Keep.ite | apply askMove_keep | split)

theorem judgeCe_keep {s0 s : State} (h : Keep s0 s) (a0 a2) : Keep s0 (@judgeCe a0 s a2) := by
  unfold judgeCe
  with_reducible repeat' (first | assumption | apply Keep.ite | apply askRetire_keep)

theorem setMove_keep {s0 s : State} (h : Keep s0 s) (a1) : Keep s0 (@setMove s a1) := by
  unfold setMove
  with_reducible repeat' (first | assumption | simp only [keep_mk] | apply Keep.core)

theorem shadowEnds_keep {s0 s : State} (h : Keep s0 s) : Keep s0 (@shadowEnds s) := by
  unfold shadowEnds
  with_reducible repeat' (first
    | assumption | apply Keep.ite | apply shadowDiffers_keep | apply setMove_keep | simp only [keep_mk] | split)

theorem showLaneSlack_keep {s0 s : State} (h : Keep s0 s) : Keep s0 (@showLaneSlack s) := by
  unfold showLaneSlack
  with_reducible repeat' (first | assumption | apply setInt_keep | simp only [keep_mk] | split)

theorem refreshSlacks_keep {s0 s : State} (h : Keep s0 s) : Keep s0 (@refreshSlacks s) := by
  unfold refreshSlacks
  with_reducible repeat' (first
    | assumption | apply showLaneSlack_keep | apply showSlack_keep | apply Keep.foldl
    | (intro _; intros; try dsimp -zeta only))

theorem rsvTick_keep {s0 s : State} (h : Keep s0 s) (a0) : Keep s0 (@rsvTick a0 s) := by
  unfold rsvTick
  with_reducible repeat' (first
    | assumption | apply judgeCe_keep | apply shadowEnds_keep | apply refreshSlacks_keep | apply refreshFaults_keep
    | apply nextMove_keep | apply addTests_keep | apply Keep.foldl | (intro _; intros; try dsimp -zeta only))

theorem execSealedCopyWrite_keep (s0 : State) : KeepOut s0 (@execSealedCopyWrite s0) := by
  unfold execSealedCopyWrite
  with_reducible repeat' (first | apply KeepOut.next | exact Keep.refl _ | apply Keep.ite | apply sealNow_keep)

theorem cueTick_keep {s0 s : State} (h : Keep s0 s) : Keep s0 (@cueTick s) := by
  unfold cueTick
  with_reducible repeat' (first
    | assumption | apply setNat_keep | apply cueChannelTick_keep | simp only [keep_mk] | apply Keep.core)

theorem deadSteps_keep {s0 s : State} (h : Keep s0 s) : Keep s0 (@deadSteps s) := by
  unfold deadSteps
  with_reducible repeat' (first
    | assumption | apply Keep.ite | apply alarm_keep | apply Keep.foldl | simp only [keep_mk] | apply Keep.core
    | (intro _; intros; try dsimp -zeta only))

theorem execRepairFuseWrite_keep (s0 : State) : KeepOut s0 (@execRepairFuseWrite s0) := by
  unfold execRepairFuseWrite
  with_reducible repeat' (first
    | apply KeepOut.next | exact Keep.refl _ | apply Keep.ite | apply alarm_keep | apply setNat_keep | simp only [keep_mk]
    | apply Keep.core | split)

theorem readLanes_keep {s0 s : State} (h : Keep s0 s) (a1) : Keep s0 (@readLanes s a1) := by
  unfold readLanes
  with_reducible repeat' (first | assumption | apply showLaneSlack_keep | simp only [keep_mk] | apply Keep.core)

theorem execCueOpenLoop_keep (s0 : State) (a0) : KeepOut s0 (@execCueOpenLoop a0 s0) := by
  unfold execCueOpenLoop
  with_reducible repeat' (first
    | apply KeepOut.next | exact Keep.refl _ | apply Keep.ite | apply alarm_keep | apply cueFault_keep
    | apply setCueState_keep)

theorem execCueRetryCountReset_keep (s0 : State) (a0) : KeepOut s0 (@execCueRetryCountReset a0 s0) := by
  unfold execCueRetryCountReset
  with_reducible repeat' (first | apply KeepOut.next | exact Keep.refl _ | apply Keep.ite | apply setNat_keep)

theorem execLeafTestTimer_keep (s0 : State) : KeepOut s0 (@execLeafTestTimer s0) := by
  unfold execLeafTestTimer
  with_reducible repeat' (first
    | apply KeepOut.next | exact Keep.refl _ | apply Keep.ite | apply testLeaves_keep | simp only [keep_mk] | apply Keep.core)

theorem judgeZ_keep {s0 s : State} (h : Keep s0 s) (a1 a2) : Keep s0 (@judgeZ s a1 a2) := by
  unfold judgeZ
  with_reducible repeat' (first | assumption | apply Keep.ite | apply setCue_keep | apply alarm_keep | apply cueFault_keep)

theorem execSillReport_keep (s0 : State) (a0 a1 a2 a3 a4 a5 a6) : KeepOut s0 (@execSillReport a0 a1 a2 a3 a4 a5 a6 s0) := by
  unfold execSillReport
  with_reducible repeat' (first
    | apply KeepOut.next | exact Keep.refl _ | apply Keep.ite | apply setNat_keep | apply setInt_keep | apply judgeZ_keep)

theorem flipMap_keep {s0 s : State} (h : Keep s0 s) (a1) : Keep s0 (@flipMap s a1) := by
  unfold flipMap
  with_reducible repeat' (first | assumption | apply setNat_keep | apply moveMail_keep | apply setEngine_keep | split)

theorem finishMove_keep {s0 s : State} (h : Keep s0 s) (a1 a2) : Keep s0 (@finishMove s a1 a2) := by
  unfold finishMove
  with_reducible repeat' (first
    | assumption | apply setRsvState_keep | apply setNat_keep | apply setMigState_keep | apply alarm_keep | apply addWrap_keep
    | apply nextMove_keep | simp only [keep_mk] | apply Keep.core)

theorem execColdMoveFlip_keep (s0 : State) : KeepOut s0 (@execColdMoveFlip s0) := by
  unfold execColdMoveFlip
  with_reducible repeat' (first
    | apply KeepOut.next | exact Keep.refl _ | apply Keep.ite | apply flipMap_keep | apply setEngine_keep
    | apply finishMove_keep | apply startPlace_keep | simp only [keep_mk] | split)

theorem execCueFadeEnd_keep (s0 : State) (a0) : KeepOut s0 (@execCueFadeEnd a0 s0) := by
  unfold execCueFadeEnd
  with_reducible repeat' (first
    | apply KeepOut.next | exact Keep.refl _ | apply Keep.ite | apply setCueState_keep | apply cueSilence_keep
    | apply cueChecks_keep | split)

theorem execMoveCutover_keep (s0 : State) : KeepOut s0 (@execMoveCutover s0) := by
  unfold execMoveCutover
  with_reducible repeat' (first
    | apply KeepOut.next | exact Keep.refl _ | apply Keep.ite | apply finishMove_keep | apply flipMap_keep | split)

theorem cueWait_keep {s0 s : State} (h : Keep s0 s) (a1 a2) : Keep s0 (@cueWait s a1 a2) := by
  unfold cueWait
  with_reducible repeat' (first | assumption | apply Keep.ite | apply alarm_keep | apply setCueState_keep | apply setCue_keep)

theorem cueLatched_keep {s0 s : State} (h : Keep s0 s) (a1 a2) : Keep s0 (@cueLatched s a1 a2) := by
  unfold cueLatched
  with_reducible repeat' (first
    | assumption | apply Keep.ite | apply alarm_keep | apply cueFault_keep | apply cueSilence_keep | apply cueWait_keep
    | apply setCueState_keep)

theorem execCueLatch_keep (s0 : State) (a0) : KeepOut s0 (@execCueLatch a0 s0) := by
  unfold execCueLatch
  with_reducible repeat' (first | apply KeepOut.next | exact Keep.refl _ | apply Keep.ite | apply cueLatched_keep)

theorem loadFirmware_keep {s0 s : State} (h : Keep s0 s) (a1) : Keep s0 (@loadFirmware s a1) := by
  unfold loadFirmware
  with_reducible repeat' (first | assumption | apply setMemBytes_keep)

theorem loadCabinet_keep {s0 s : State} (h : Keep s0 s) : Keep s0 (@loadCabinet s) := by
  unfold loadCabinet
  with_reducible repeat' (first
    | assumption | apply alarm_keep | apply setObj_keep | apply setNat_keep | apply Keep.foldl | simp only [keep_mk]
    | apply Keep.core | (intro _; intros; try dsimp -zeta only) | split)

theorem toReady_keep {s0 s : State} (h : Keep s0 s) (a1 a2 a3) : Keep s0 (@toReady s a1 a2 a3) := by
  unfold toReady
  with_reducible repeat' (first
    | assumption | apply writeFabCtl_keep | apply loadFirmware_keep | apply loadCabinet_keep | apply setStage_keep
    | apply setNat_keep | apply bootBands_keep | apply setFlag_keep | apply noLeafCheck_keep | apply deadSteps_keep
    | apply alarm_keep | apply alarmIf_keep | simp only [keep_mk] | apply Keep.core)

theorem bootFlash_keep {s0 s : State} (h : Keep s0 s) (a1 a2) : Keep s0 (@bootFlash s a1 a2) := by
  unfold bootFlash
  with_reducible repeat' (first
    | assumption | apply Keep.ite | apply toReady_keep | apply setStage_keep | apply writeFabCtl_keep | simp only [keep_mk]
    | split)

theorem bringPlls_keep {s0 s : State} (h : Keep s0 s) (a1 a2) : Keep s0 (@bringPlls s a1 a2) := by
  unfold bringPlls
  with_reducible repeat' (first | assumption | apply setNat_keep | apply syncHotLeaf_keep)

theorem execBootFwFlashWriteDone_keep (s0 : State) (a0) : KeepOut s0 (@execBootFwFlashWriteDone a0 s0) := by
  unfold execBootFwFlashWriteDone
  with_reducible repeat' (first
    | apply KeepOut.next | exact Keep.refl _ | apply Keep.ite | apply alarm_keep | apply setNat_keep | simp only [keep_mk]
    | apply Keep.core | split)

theorem judgeEngine_keep {s0 s : State} (h : Keep s0 s) (a1) : Keep s0 (@judgeEngine s a1) := by
  unfold judgeEngine
  with_reducible repeat' (first | assumption | apply Keep.ite | apply askRetire_keep)

theorem execAgingMonitorRead_keep (s0 : State) (a0 a1 a2) : KeepOut s0 (@execAgingMonitorRead a0 a1 a2 s0) := by
  unfold execAgingMonitorRead
  with_reducible repeat' (first
    | apply KeepOut.next | assumption | exact Keep.refl _ | apply readLanes_keep | apply readEngine_keep | apply setInt_keep
    | apply judgeEngine_keep | apply Keep.foldl | (intro _; intros; try dsimp -zeta only))

theorem bootDescriptor_keep {s0 s : State} (h : Keep s0 s) : Keep s0 (@bootDescriptor s) := by
  unfold bootDescriptor
  with_reducible repeat' (first
    | assumption | apply Keep.ite | apply toReady_keep | apply setStage_keep | simp only [keep_mk] | apply Keep.core)

theorem execLaneRetire_keep (s0 : State) (a0 a1) : KeepOut s0 (@execLaneRetire a0 a1 s0) := by
  unfold execLaneRetire
  with_reducible repeat' (first
    | apply KeepOut.next | exact Keep.refl _ | apply Keep.ite | apply benchEvent_keep | apply addHold_keep | apply setNat_keep
    | apply alarmIf_keep | apply alarm_keep | simp only [keep_mk] | apply Keep.core)

theorem execSePmuCntLo_keep (s0 : State) (a0 a1 a2) : KeepOut s0 (@execSePmuCntLo a0 a1 a2 s0) := by
  unfold execSePmuCntLo
  with_reducible repeat' (first | apply KeepOut.next | exact Keep.refl _ | apply portWrite_keep)

theorem fuseObjects_keep {s0 s : State} (h : Keep s0 s) : Keep s0 (@fuseObjects s) := by
  unfold fuseObjects
  with_reducible repeat' (first | assumption | apply setNat_keep | apply setObj_keep)

theorem bringUp_keep {s0 s : State} (h : Keep s0 s) (u) : Keep s0 (bringUp s u) := by
  unfold bringUp
  lift_lets
  intro sel b slots a0
  have k0 : Keep s0 a0 := fuseObjects_keep ((keep_mk ..).2 h.core)
  clear_value a0
  intro a1
  have k1 : Keep s0 a1 := setNat_keep (setNat_keep (setNat_keep k0 _ _ _) _ _ _) _ _ _
  clear_value a1
  intro a2
  have k2 : Keep s0 a2 := bringPlls_keep k1 _ _
  clear_value a2
  intro e
  have ke : Keep s0 e := setNat_keep (setNat_keep (setNat_keep k2 _ _ _) _ _ _) _ _ _
  clear_value e
  intro f a3
  have k3 : Keep s0 a3 := by
    dsimp only [a3]
    rw [keep_mk]
    exact ke.coreMem fun c => ((canonical_iff _).1 (k2.canon c)).1
  clear_value a3
  intro v a4
  have k4 : Keep s0 a4 := setNat_keep (setNat_keep k3 _ _ _) _ _ _
  clear_value a4
  intro a5
  have k5 : Keep s0 a5 := setNat_keep (setNat_keep k4 _ _ _) _ _ _
  clear_value a5
  repeat' (first
    | with_reducible apply Keep.ite
    | with_reducible apply setStage_keep
    | with_reducible apply bootFlash_keep
    | with_reducible assumption)

theorem execPoresetRelease_keep (s0 : State) (a0) : KeepOut s0 (@execPoresetRelease a0 s0) := by
  unfold execPoresetRelease
  with_reducible repeat' (first | apply KeepOut.next | exact Keep.refl _ | apply Keep.ite | apply bringUp_keep)

theorem execLeafTestDone_keep (s0 : State) (a0 a1 a2) : KeepOut s0 (@execLeafTestDone a0 a1 a2 s0) := by
  unfold execLeafTestDone
  with_reducible repeat' (first
    | apply KeepOut.next | exact Keep.refl _ | apply Keep.ite | apply noteSlack_keep | apply setRsvState_keep
    | apply alarm_keep | apply startTest_keep | simp only [keep_mk] | apply Keep.core)

theorem cueBoostFault_keep {s0 s : State} (h : Keep s0 s) (a1) : Keep s0 (@cueBoostFault s a1) := by
  unfold cueBoostFault
  with_reducible repeat' (first
    | assumption | apply Keep.ite | apply cueFault_keep | apply cueSilence_keep | apply cueWait_keep | apply setCueState_keep)

theorem execSysresetN_keep (s0 : State) : KeepOut s0 (@execSysresetN s0) := by
  unfold execSysresetN
  with_reducible repeat' (first | apply KeepOut.next | exact Keep.refl _ | apply sysReset_keep)

theorem execMovePrepared_keep (s0 : State) : KeepOut s0 (@execMovePrepared s0) := by
  unfold execMovePrepared
  with_reducible repeat' (first
    | apply KeepOut.next | exact Keep.refl _ | apply Keep.ite | apply setMove_keep | apply setEngine_keep
    | simp only [keep_mk] | split)

theorem execMoveCopy_keep (s0 : State) (a0) : KeepOut s0 (@execMoveCopy a0 s0) := by
  unfold execMoveCopy
  with_reducible repeat' (first
    | apply KeepOut.next | assumption | exact Keep.refl _ | apply Keep.ite | apply abandonMove_keep | apply fixWord_keep
    | apply countCorrected_keep | apply setMove_keep | apply setEngine_keep | apply setNat_keep | apply setMigState_keep
    | apply Keep.foldl | simp only [keep_mk] | (intro _; intros; try dsimp -zeta only) | split)

theorem execQuietMoveFlip_keep (s0 : State) : KeepOut s0 (@execQuietMoveFlip s0) := by
  unfold execQuietMoveFlip
  with_reducible repeat' (first
    | apply KeepOut.next | exact Keep.refl _ | apply Keep.ite | apply finishMove_keep | apply flipMap_keep
    | apply setEngine_keep | simp only [keep_mk] | split)

theorem execRowRepairSwitch_keep (s0 : State) (a0 a1 a2 a3) : KeepOut s0 (@execRowRepairSwitch a0 a1 a2 a3 s0) := by
  unfold execRowRepairSwitch
  with_reducible repeat' (first
    | apply KeepOut.next | exact Keep.refl _ | apply Keep.ite | apply askRetire_keep | apply setSpares_keep | apply alarm_keep
    | apply setNat_keep | apply alarmIf_keep | simp only [keep_mk] | apply Keep.core | split)

theorem execSePmuCntHi_keep (s0 : State) (a0 a1 a2) : KeepOut s0 (@execSePmuCntHi a0 a1 a2 s0) := by
  unfold execSePmuCntHi
  with_reducible repeat' (first | apply KeepOut.next | exact Keep.refl _ | apply portWrite_keep)

theorem execTamperAsserted_keep (s0 : State) (a0) : KeepOut s0 (@execTamperAsserted a0 s0) := by
  unfold execTamperAsserted
  with_reducible repeat' (first | apply KeepOut.next | exact Keep.refl _ | apply tamperLatch_keep)

theorem execDebugGrantExpiry_keep (s0 : State) : KeepOut s0 (@execDebugGrantExpiry s0) := by
  unfold execDebugGrantExpiry
  with_reducible repeat' (first | apply KeepOut.next | exact Keep.refl _ | apply Keep.ite | apply endGrant_keep)

theorem execCueChecksDone_keep (s0 : State) (a0 a1) : KeepOut s0 (@execCueChecksDone a0 a1 s0) := by
  unfold execCueChecksDone
  with_reducible repeat' (first
    | apply KeepOut.next | exact Keep.refl _ | apply Keep.ite | apply setNat_keep | apply setCue_keep | apply setCueState_keep
    | apply alarm_keep | apply cueFault_keep | apply cueLatched_keep)

theorem cueShield_keep {s0 s : State} (h : Keep s0 s) (a1) : Keep s0 (@cueShield s a1) := by
  unfold cueShield
  with_reducible repeat' (first
    | assumption | apply Keep.ite | apply setCue_keep | apply setCueState_keep | apply cueSilence_keep)

theorem execCueSupplyFault_keep (s0 : State) (a0) : KeepOut s0 (@execCueSupplyFault a0 s0) := by
  unfold execCueSupplyFault
  with_reducible repeat' (first
    | apply KeepOut.next | exact Keep.refl _ | apply Keep.ite | apply alarm_keep | apply cueBoostFault_keep
    | apply cueShield_keep | apply setCue_keep)

theorem execCueThermalFault_keep (s0 : State) (a0) : KeepOut s0 (@execCueThermalFault a0 s0) := by
  unfold execCueThermalFault
  with_reducible repeat' (first
    | apply KeepOut.next | exact Keep.refl _ | apply alarm_keep | apply cueFault_keep | apply cueShield_keep
    | apply setCue_keep)

theorem execPoresetAssert_keep (s0 : State) : KeepOut s0 (@execPoresetAssert s0) := by
  unfold execPoresetAssert
  with_reducible repeat' (first | apply KeepOut.next | exact Keep.refl _ | apply resetBegins_keep)

theorem execSupplyMonitorReset_keep (s0 : State) : KeepOut s0 (@execSupplyMonitorReset s0) := by
  unfold execSupplyMonitorReset
  with_reducible repeat' (first | apply KeepOut.next | exact Keep.refl _ | apply sysReset_keep)

theorem execWatchdogReset_keep (s0 : State) : KeepOut s0 (@execWatchdogReset s0) := by
  unfold execWatchdogReset
  with_reducible repeat' (first | apply KeepOut.next | exact Keep.refl _ | apply sysReset_keep)

theorem execLockstepReset_keep (s0 : State) : KeepOut s0 (@execLockstepReset s0) := by
  unfold execLockstepReset
  with_reducible repeat' (first | apply KeepOut.next | exact Keep.refl _ | apply sysReset_keep)

theorem execJtagReset_keep (s0 : State) : KeepOut s0 (@execJtagReset s0) := by
  unfold execJtagReset
  with_reducible repeat' (first | apply KeepOut.next | exact Keep.refl _ | apply Keep.ite | apply sysReset_keep)

theorem execHpBootDescriptor_keep (s0 : State) : KeepOut s0 (@execHpBootDescriptor s0) := by
  unfold execHpBootDescriptor
  with_reducible repeat' (first | apply KeepOut.next | exact Keep.refl _ | apply bootDescriptor_keep)

theorem execJtagDebugHalt_keep (s0 : State) (a0) : KeepOut s0 (@execJtagDebugHalt a0 s0) := by
  unfold execJtagDebugHalt
  with_reducible repeat' (first
    | apply KeepOut.next | exact Keep.refl _ | apply Keep.ite | apply haltEngine_keep | simp only [keep_mk] | apply Keep.core
    | split)

end Sys2Proof.Machine
end

