-- ==== Sys2Proof/Laws/KeepControl.lean ====
section
/-! SUPPORT. `Keep` for every operation and command of Land, Frames, Control. -/

namespace Sys2Proof.Machine

set_option linter.unusedVariables false
set_option linter.unusedSimpArgs false

theorem sendTo_keep {s0 s : State} (h : Keep s0 s) (a1 a2 a3 a4) : Keep s0 (@sendTo s a1 a2 a3 a4) := by
  unfold sendTo
  with_reducible repeat' (first | assumption | apply emit_keep | simp only [keep_mk] | apply Keep.core | split)

theorem refusal_keep {s0 s : State} (h : Keep s0 s) (a1 a2 a3) : Keep s0 (@refusal s a1 a2 a3).st := by
  unfold refusal
  with_reducible repeat' (first | assumption)

theorem carried_keep {s0 s : State} (h : Keep s0 s) (a1 a2) : Keep s0 (@carried s a1 a2).st := by
  unfold carried
  with_reducible repeat' (first | assumption)

theorem openSession_keep {s0 s : State} (h : Keep s0 s) (a1 a2) : Keep s0 (@openSession s a1 a2).st := by
  unfold openSession
  with_reducible repeat' (first
    | assumption | apply refusal_keep | apply alarm_keep | apply draw_keep | apply setSet_keep | apply setSess_keep
    | apply carried_keep | apply Keep.foldl | simp only [keep_mk] | apply Keep.core | (intro _; intros; try dsimp -zeta only)
    | split)

theorem doOpen_keep {s0 s : State} (h : Keep s0 s) (a1 a2) : Keep s0 (@doOpen s a1 a2).st := by
  unfold doOpen
  with_reducible repeat' (first | apply Keep.iteAns | assumption | apply refusal_keep | apply openSession_keep)

theorem afterWrites_keep {s0 s : State} (h : Keep s0 s) (a1) : Keep s0 (@afterWrites s a1) := by
  unfold afterWrites
  with_reducible repeat' (first
    | assumption | apply setNat_keep | apply setObj_keep | apply Keep.foldl | (intro _; intros; try dsimp -zeta only) | split)

theorem refusalAlarm_keep {s0 s : State} (h : Keep s0 s) (a1 a2) : Keep s0 (@refusalAlarm s a1 a2) := by
  unfold refusalAlarm
  with_reducible repeat' (first | assumption | apply Keep.ite | apply alarm_keep)

theorem acceptWrites_keep {s0 s : State} (h : Keep s0 s) (a1 a2 a3 a4) : Keep s0 (@acceptWrites s a1 a2 a3 a4).st := by
  unfold acceptWrites
  with_reducible repeat' (first
    | apply Keep.iteAns | assumption | apply refusal_keep | apply refusalAlarm_keep | apply carried_keep | simp only [keep_mk]
    | split)

theorem doWrite_keep {s0 s : State} (h : Keep s0 s) (a1 a2) : Keep s0 (@doWrite s a1 a2).st := by
  unfold doWrite
  with_reducible repeat' (first
    | apply Keep.iteAns | assumption | apply refusal_keep | apply acceptWrites_keep | simp only [keep_mk] | split)

theorem landRate_keep {s0 s : State} (h : Keep s0 s) (a0 a2 a3) : Keep s0 (@landRate a0 s a2 a3) := by
  unfold landRate
  with_reducible repeat' (first
    | assumption | apply rampStop_keep | apply setObj_keep | apply Keep.foldl | simp only [keep_mk] | apply Keep.core
    | (intro _; intros; try dsimp -zeta only) | split)

theorem applyPlan_keep {s0 s : State} (h : Keep s0 s) (a1) : Keep s0 (@applyPlan s a1) := by
  unfold applyPlan
  with_reducible repeat' (first
    | assumption | apply setNat_keep | apply Keep.forN | simp only [keep_mk] | apply Keep.core
    | (intro _; intros; try dsimp -zeta only))

theorem landPlan_keep {s0 s : State} (h : Keep s0 s) : Keep s0 (@landPlan s) := by
  unfold landPlan
  with_reducible repeat' (first
    | assumption | apply Keep.ite | apply applyPlan_keep | apply setFlag_keep | apply abandonAuto_keep)

theorem landEngCtl_keep {s0 s : State} (h : Keep s0 s) (a1 a2) : Keep s0 (@landEngCtl s a1 a2) := by
  unfold landEngCtl
  with_reducible repeat' (first | assumption | apply Keep.ite | apply engCtlDue_keep | simp only [keep_mk] | apply Keep.core)

theorem landTouched_keep {s0 s : State} (h : Keep s0 s) (a1 a2) : Keep s0 (@landTouched s a1 a2) := by
  unfold landTouched
  with_reducible repeat' (first | assumption | apply landParam_keep | simp only [keep_mk] | apply Keep.core)

theorem landCore_keep {s0 s : State} (h : Keep s0 s) (a0 a2) : Keep s0 (@landCore a0 s a2) := by
  unfold landCore
  with_reducible repeat' (first
    | assumption | apply Keep.ite | apply landRate_keep | apply landPlan_keep | apply applyPlan_keep | apply landDest_keep
    | apply landEngCtl_keep | apply loadImage_keep | apply landXp_keep | apply landGen_keep | apply keepFrames_keep
    | apply rewritePages_keep | apply landTouched_keep)

theorem landCred_keep {s0 s : State} (h : Keep s0 s) (a1 a2) : Keep s0 (@landCred s a1 a2) := by
  unfold landCred
  with_reducible repeat' (first
    | assumption | apply markSeal_keep | apply setObj_keep | simp only [keep_mk] | apply Keep.core)

theorem landIo_keep {s0 s : State} (h : Keep s0 s) (a0 a2) : Keep s0 (@landIo a0 s a2) := by
  unfold landIo
  with_reducible repeat' (first
    | assumption | apply Keep.ite | apply landCred_keep | apply markSeal_keep | apply logWrapCheck_keep | apply landTdmEn_keep
    | apply landRestart_keep | apply landMask_keep | apply landAesEn_keep | apply landAesAsrc_keep | apply landNpcmMode_keep
    | apply landRxEn_keep | apply landRxOffset_keep | apply landTxEn_keep | apply landSpeed_keep | apply landWatch_keep)

theorem landRestep_keep {s0 s : State} (h : Keep s0 s) (a1) : Keep s0 (@landRestep s a1) := by
  unfold landRestep
  with_reducible repeat' (first | assumption | simp only [keep_mk] | apply Keep.core)

theorem landDomain_keep {s0 s : State} (h : Keep s0 s) (a0 a2) : Keep s0 (@landDomain a0 s a2) := by
  unfold landDomain
  with_reducible repeat' (first | assumption | apply Keep.ite | apply ptpDecide_keep)

theorem landProfile_keep {s0 s : State} (h : Keep s0 s) (a1) : Keep s0 (@landProfile s a1) := by
  unfold landProfile
  with_reducible repeat' (first | assumption | apply landDomain_keep | apply setNat_keep)

theorem landPhaseStep_keep {s0 s : State} (h : Keep s0 s) (a1 a2) : Keep s0 (@landPhaseStep s a1 a2) := by
  unfold landPhaseStep
  with_reducible repeat' (first | assumption | apply setInt_keep | simp only [keep_mk] | apply Keep.core)

theorem landClocks_keep {s0 s : State} (h : Keep s0 s) (a0 a2) : Keep s0 (@landClocks a0 s a2) := by
  unfold landClocks
  with_reducible repeat' (first
    | assumption | apply Keep.ite | apply setNat_keep | apply landRestep_keep | apply ptpDecide_keep | apply landDomain_keep
    | apply landProfile_keep | apply landTrig_keep | apply landOscTol_keep | apply landPhaseStep_keep
    | apply landPllSelect_keep | apply landMedsynFamily_keep | apply landMedsynOffset_keep | apply landSyncMode_keep
    | apply setClockOut_keep | simp only [keep_mk] | apply Keep.core | split)

theorem landPairCmd_keep {s0 s : State} (h : Keep s0 s) (a1) : Keep s0 (@landPairCmd s a1) := by
  unfold landPairCmd
  with_reducible repeat' (first
    | assumption | apply Keep.ite | apply setNat_keep | apply toActive_keep | apply toSync_keep | apply toIsolated_keep
    | apply askDigest_keep)

theorem landLine_keep {s0 s : State} (h : Keep s0 s) (a1) : Keep s0 (@landLine s a1) := by
  unfold landLine
  with_reducible repeat' (first | assumption | apply Keep.ite | apply setNat_keep | simp only [keep_mk] | apply Keep.core)

theorem landPmuEng_keep {s0 s : State} (h : Keep s0 s) (a1 a2 a3) : Keep s0 (@landPmuEng s a1 a2 a3) := by
  unfold landPmuEng
  with_reducible repeat' (first | assumption | apply eachPmu_keep)

theorem landRest_keep {s0 s : State} (h : Keep s0 s) (a0 a2) : Keep s0 (@landRest a0 s a2) := by
  unfold landRest
  with_reducible repeat' (first
    | assumption | apply Keep.ite | apply landPairCmd_keep | apply abandonSwap_keep | apply landWatch_keep | apply setNat_keep
    | apply toIsolated_keep | apply landLine_keep | apply landRsvCmd_keep | apply landPmuEng_keep | apply dbgRespond_keep
    | apply setObj_keep | apply landSec_keep | apply landCueEn_keep | apply landCueVpk_keep | apply startFwUpdate_keep
    | apply setFlag_keep | simp only [keep_mk] | apply Keep.core)

theorem landEffect_keep {s0 s : State} (h : Keep s0 s) (a0 a2) : Keep s0 (@landEffect a0 s a2) := by
  unfold landEffect
  with_reducible repeat' (first
    | assumption | apply Keep.ite | apply landCore_keep | apply landIo_keep | apply landClocks_keep | apply landRest_keep)

theorem landAll_keep {s0 s : State} (h : Keep s0 s) (a1) : Keep s0 (@landAll s a1) := by
  unfold landAll
  with_reducible repeat' (first
    | assumption | apply setObj_keep | apply landEffect_keep | apply Keep.foldl | (intro _; intros; try dsimp -zeta only))

theorem landCommit_keep {s0 s : State} (h : Keep s0 s) : Keep s0 (@landCommit s) := by
  unfold landCommit
  with_reducible repeat' (first
    | assumption | apply bumpGen_keep | apply landAll_keep | apply endCommit_keep | simp only [keep_mk] | apply Keep.core
    | split)

theorem faultLost_keep {s0 s : State} (h : Keep s0 s) : Keep s0 (@faultLost s) := by
  unfold faultLost
  with_reducible repeat' (first
    | assumption | apply Keep.ite | apply xpFault_keep | apply selFault_keep | apply Keep.foldl | simp only [keep_mk]
    | apply Keep.core | (intro _; intros; try dsimp -zeta only))

theorem landWrite_keep {s0 s : State} (h : Keep s0 s) (a1) : Keep s0 (@landWrite s a1) := by
  unfold landWrite
  with_reducible repeat' (first
    | assumption | apply Keep.ite | apply landAll_keep | apply bumpGen_keep | simp only [keep_mk] | apply Keep.core | split)

theorem landWrites_keep {s0 s : State} (h : Keep s0 s) : Keep s0 (@landWrites s) := by
  unfold landWrites
  with_reducible repeat' (first
    | assumption | apply landWrite_keep | apply Keep.foldl | simp only [keep_mk] | apply Keep.core
    | (intro _; intros; try dsimp -zeta only))

theorem flipPages_keep {s0 s : State} (h : Keep s0 s) : Keep s0 (@flipPages s) := by
  unfold flipPages
  with_reducible repeat' (first
    | assumption | apply flipPage_keep | apply Keep.foldl | simp only [keep_mk] | apply Keep.core
    | (intro _; intros; try dsimp -zeta only))

theorem settle_keep {s0 s : State} (h : Keep s0 s) : Keep s0 (@settle s) := by
  unfold settle
  with_reducible repeat' (first
    | assumption | apply Keep.ite | apply landCommit_keep | apply faultLost_keep | apply landWrites_keep
    | apply landQuiet_keep | apply openBench_keep | apply flipPages_keep | apply classSteps_keep | apply synSettle_keep
    | apply trigSettle_keep)

theorem noteRead_keep {s0 s : State} (h : Keep s0 s) (a1 a2) : Keep s0 (@noteRead s a1 a2) := by
  unfold noteRead
  with_reducible repeat' (first | assumption | apply Keep.ite | apply setDest_keep)

theorem doRead_keep {s0 s : State} (h : Keep s0 s) (a1 a2) : Keep s0 (@doRead s a1 a2).st := by
  unfold doRead
  with_reducible repeat' (first
    | apply Keep.iteAns | assumption | apply refusal_keep | apply dbgChallenge_keep | apply carried_keep | apply noteRead_keep
    | apply Keep.foldl | simp only [keep_mk] | (intro _; intros; try dsimp -zeta only) | split)

theorem doStage_keep {s0 s : State} (h : Keep s0 s) (a1 a2) : Keep s0 (@doStage s a1 a2).st := by
  unfold doStage
  with_reducible repeat' (first
    | apply Keep.iteAns | assumption | apply refusal_keep | apply alarm_keep | apply setSet_keep | apply carried_keep
    | apply mirrorStage_keep | simp only [keep_mk] | split)

theorem doCommit_keep {s0 s : State} (h : Keep s0 s) (a1 a2) : Keep s0 (@doCommit s a1 a2).st := by
  unfold doCommit
  with_reducible repeat' (first
    | apply Keep.iteAns | assumption | apply Keep.ite | apply refusal_keep | apply alarm_keep | apply addHold_keep
    | apply setSet_keep | apply mirrorSetEnd_keep | apply mirrorCommit_keep | apply syncStage_keep | apply takeSlot_keep
    | apply carried_keep | simp only [keep_mk] | apply Keep.core)

theorem doAbort_keep {s0 s : State} (h : Keep s0 s) (a1 a2) : Keep s0 (@doAbort s a1 a2).st := by
  unfold doAbort
  with_reducible repeat' (first
    | apply Keep.iteAns | assumption | apply refusal_keep | apply carried_keep | apply mirrorSetEnd_keep | apply setSet_keep
    | apply rejectCommit_keep | split)

theorem doSubscribe_keep {s0 s : State} (h : Keep s0 s) (a1 a2) : Keep s0 (@doSubscribe s a1 a2).st := by
  unfold doSubscribe
  with_reducible repeat' (first
    | apply Keep.iteAns | assumption | apply refusal_keep | apply carried_keep | apply setSess_keep | simp only [keep_mk]
    | split)

theorem doUnsubscribe_keep {s0 s : State} (h : Keep s0 s) (a1 a2) : Keep s0 (@doUnsubscribe s a1 a2).st := by
  unfold doUnsubscribe
  with_reducible repeat' (first
    | apply Keep.iteAns | assumption | apply refusal_keep | apply carried_keep | apply setSess_keep | simp only [keep_mk]
    | split)

theorem doClose_keep {s0 s : State} (h : Keep s0 s) (a1 a2) : Keep s0 (@doClose s a1 a2).st := by
  unfold doClose
  with_reducible repeat' (first | apply Keep.iteAns | assumption | apply refusal_keep | apply carried_keep)

theorem imageRefused_keep {s0 s : State} (r sub) {a : OpAns} (ha : Keep s0 a.st) :
    Keep s0 (imageRefused s r sub a).st := by
  unfold imageRefused
  exact Keep.iteAns (setNat_keep ha _ _ _) ha

theorem doDomOpen_keep {s0 s : State} (h : Keep s0 s) (a1 a2) : Keep s0 (@doDomOpen s a1 a2).st := by
  unfold doDomOpen
  with_reducible repeat' (first
    | apply Keep.iteAns | assumption | apply Keep.ite | apply refusal_keep | apply imageRefused_keep | apply draw_keep
    | apply setMemBytes_keep | apply carried_keep | apply setSess_keep | simp only [keep_mk] | split)

theorem doDomSeg_keep {s0 s : State} (h : Keep s0 s) (a1 a2) : Keep s0 (@doDomSeg s a1 a2).st := by
  unfold doDomSeg
  with_reducible repeat' (first
    | apply Keep.iteAns | assumption | apply refusal_keep | apply carried_keep | apply setMemBytes_keep | simp only [keep_mk]
    | split)

theorem doDomClose_keep {s0 s : State} (h : Keep s0 s) (a1 a2) : Keep s0 (@doDomClose s a1 a2).st := by
  unfold doDomClose
  with_reducible repeat' (first
    | apply Keep.iteAns | assumption | apply refusal_keep | apply setSess_keep | apply carried_keep | apply setNat_keep
    | apply acceptWrites_keep | apply imageRefused_keep | simp only [keep_mk] | split)

theorem doOp_keep {s0 s : State} (h : Keep s0 s) (a1 a2 a3) : Keep s0 (@doOp s a1 a2 a3).st := by
  unfold doOp
  with_reducible repeat' (first
    | apply Keep.iteAns | assumption | apply doRead_keep | apply doWrite_keep | apply doStage_keep | apply doCommit_keep
    | apply doAbort_keep | apply doSubscribe_keep | apply doUnsubscribe_keep | apply doOpen_keep | apply doClose_keep
    | apply doDomOpen_keep | apply doDomSeg_keep | apply doDomClose_keep | apply refusal_keep)

theorem actWriteOnly_keep {s0 s : State} (h : Keep s0 s) (a1 a2 a3) : Keep s0 (@actWriteOnly s a1 a2 a3) := by
  unfold actWriteOnly
  with_reducible repeat' (first
    | assumption | apply Keep.ite | apply setNat_keep | apply setFlag_keep | apply landRampStart_keep | apply landSyncArm_keep
    | apply eachPmu_keep | apply cueCommand_keep)

theorem onAccept_keep {s0 s : State} (h : Keep s0 s) (a1 a2) : Keep s0 (@onAccept s a1 a2) := by
  unfold onAccept
  with_reducible repeat' (first
    | assumption | apply Keep.ite | apply dropOpen_keep | apply setNat_keep | simp only [keep_mk] | apply Keep.core)

theorem acceptOne_keep {s0 s : State} (h : Keep s0 s) (a1 a2) : Keep s0 (@acceptOne s a1 a2) := by
  unfold acceptOne
  with_reducible repeat' (first
    | assumption | apply Keep.ite | apply actWriteOnly_keep | apply onAccept_keep | apply directWrite_keep)

theorem hpTake_keep {s0 s : State} (h : Keep s0 s) : Keep s0 (@hpTake s) := by
  unfold hpTake
  with_reducible repeat' (first | assumption | apply Keep.ite | simp only [keep_mk] | apply Keep.core)

theorem refuse_keep {s0 s : State} (h : Keep s0 s) (a1 a2) : Keep s0 (@refuse s a1 a2) := by
  unfold refuse
  with_reducible repeat' (first | assumption | apply Keep.ite | apply addHold_keep | apply alarm_keep | apply sendTo_keep)

theorem countOk_keep {s0 s : State} (h : Keep s0 s) (a1) : Keep s0 (@countOk s a1) := by
  unfold countOk
  with_reducible repeat' (first | assumption | apply addHold_keep)

theorem beginServing_keep {s0 s : State} (h : Keep s0 s) (a1 a2 a3 a4) : Keep s0 (@beginServing s a1 a2 a3 a4) := by
  unfold beginServing
  with_reducible repeat' (first | assumption | simp only [keep_mk] | apply Keep.core)

theorem takeOpen_keep {s0 s : State} (h : Keep s0 s) (a1 a2) : Keep s0 (@takeOpen s a1 a2) := by
  unfold takeOpen
  with_reducible repeat' (first
    | assumption | apply Keep.ite | apply sendTo_keep | apply alarm_keep | apply countOk_keep | apply refuse_keep
    | apply beginServing_keep | simp only [keep_mk] | apply Keep.core)

theorem takeFrame_keep {s0 s : State} (h : Keep s0 s) (a1 a2) : Keep s0 (@takeFrame s a1 a2) := by
  unfold takeFrame
  with_reducible repeat' (first
    | assumption | apply Keep.ite | apply refuse_keep | apply sendTo_keep | apply beginServing_keep | apply countOk_keep
    | apply setSess_keep | simp only [keep_mk] | split)

theorem takeQueued_keep {s0 s : State} (h : Keep s0 s) (a1) : Keep s0 (@takeQueued s a1) := by
  unfold takeQueued
  with_reducible repeat' (first
    | assumption | apply Keep.ite | apply refuse_keep | apply takeOpen_keep | apply takeFrame_keep | split)

theorem takeFrames_keep (n) {s0 s : State} (h : Keep s0 s) : Keep s0 (takeFrames n s) := by
  induction n generalizing s with
  | zero => exact h
  | succ n ih =>
    simp only [takeFrames]
    split
    · exact h
    · split
      · exact h
      · exact ih (hpTake_keep (takeQueued_keep ((keep_mk ..).2 h.core) _))

theorem serveNext_keep {s0 s : State} (h : Keep s0 s) : Keep s0 (@serveNext s) := by
  unfold serveNext
  with_reducible repeat' (first | assumption | apply takeFrames_keep | apply hpTake_keep)

theorem afterReply_keep {s0 s : State} (h : Keep s0 s) (a1) : Keep s0 (@afterReply s a1) := by
  unfold afterReply
  with_reducible repeat' (first | assumption | apply Keep.ite | apply replySent_keep | apply sysReset_keep)

theorem sendReply_keep {s0 s : State} (h : Keep s0 s) (a1 a2) : Keep s0 (@sendReply s a1 a2) := by
  unfold sendReply
  with_reducible repeat' (first
    | assumption | apply Keep.ite | apply afterReply_keep | apply sendTo_keep | simp only [keep_mk] | apply Keep.core)

theorem completeFrame_keep {s0 s : State} (h : Keep s0 s) (a1) : Keep s0 (@completeFrame s a1) := by
  unfold completeFrame
  with_reducible repeat' (first
    | assumption | apply acceptOne_keep | apply serveNext_keep | apply sendReply_keep | apply mapSess_keep | apply Keep.foldl
    | simp only [keep_mk] | apply Keep.core | (intro _; intros; try dsimp -zeta only))

theorem carryOut_keep {s0 s : State} (h : Keep s0 s) (v code op rest) : Keep s0 (carryOut s v code op rest) := by
  have k := doOp_keep h v code op
  unfold carryOut
  dsimp only
  split
  · split
    · exact completeFrame_keep k _
    · exact (keep_mk ..).2 k.core
  · exact completeFrame_keep h _

theorem dropFrame_keep {s0 s : State} (h : Keep s0 s) (a1 a2) : Keep s0 (@dropFrame s a1 a2) := by
  unfold dropFrame
  with_reducible repeat' (first | assumption | apply alarm_keep | apply addHold_keep)

theorem paramEvent_keep {s0 s : State} (h : Keep s0 s) (a1) : Keep s0 (@paramEvent s a1) := by
  unfold paramEvent
  with_reducible repeat' (first
    | assumption | apply setObj_keep | apply landTouched_keep | apply Keep.foldl | (intro _; intros; try dsimp -zeta only))

theorem preparePages_keep {s0 s : State} (h : Keep s0 s) : Keep s0 (@preparePages s) := by
  unfold preparePages
  with_reducible repeat' (first
    | assumption | apply preparePage_keep | apply Keep.foldl | (intro _; intros; try dsimp -zeta only))

theorem cmdSubmit_keep {s0 s : State} (h : Keep s0 s) : Keep s0 (@cmdSubmit s) := by
  unfold cmdSubmit
  with_reducible repeat' (first
    | assumption | apply Keep.ite | apply dropFrame_keep | apply serveNext_keep | simp only [keep_mk] | apply Keep.core)

theorem execControlArpRequest_keep (s0 : State) (a0 a1) : KeepOut s0 (@execControlArpRequest a0 a1 s0) := by
  unfold execControlArpRequest
  with_reducible repeat' (first | apply KeepOut.next | exact Keep.refl _ | apply Keep.ite | apply emit_keep)

theorem rspPop_keep {s0 s : State} (h : Keep s0 s) : Keep s0 (@rspPop s) := by
  unfold rspPop
  with_reducible repeat' (first | assumption | apply serveNext_keep | simp only [keep_mk] | apply Keep.core)

theorem execHpRspPop_keep (s0 : State) : KeepOut s0 (@execHpRspPop s0) := by
  unfold execHpRspPop
  with_reducible repeat' (first | apply KeepOut.next | exact Keep.refl _ | apply Keep.ite | apply rspPop_keep)

theorem execCommandFrameReceived_keep (s0 : State) (a0 a1 a2 a3 a4 a5) :
    KeepOut s0 (@execCommandFrameReceived a0 a1 a2 a3 a4 a5 s0) := by
  unfold execCommandFrameReceived
  with_reducible repeat' (first
    | apply KeepOut.next | exact Keep.refl _ | apply Keep.ite | apply dropFrame_keep | apply serveNext_keep
    | simp only [keep_mk] | apply Keep.core)

theorem execHpCmdGo_keep (s0 : State) (a0) : KeepOut s0 (@execHpCmdGo a0 s0) := by
  unfold execHpCmdGo
  with_reducible repeat' (first
    | apply KeepOut.next | exact Keep.refl _ | apply Keep.ite | apply cmdSubmit_keep | simp only [keep_mk] | apply Keep.core)

theorem execControlIcmpEcho_keep (s0 : State) (a0 a1 a2) : KeepOut s0 (@execControlIcmpEcho a0 a1 a2 s0) := by
  unfold execControlIcmpEcho
  with_reducible repeat' (first | apply KeepOut.next | exact Keep.refl _ | apply Keep.ite | apply emit_keep)

end Sys2Proof.Machine
end

