-- ==== Sys2Proof/Laws/KeepRows.lean ====
section
/-! SUPPORT. `Keep` for every operation and command of HostRows, Ticks, PairOps. -/

namespace Sys2Proof.Machine

set_option linter.unusedVariables false
set_option linter.unusedSimpArgs false

theorem sendNotify_keep {s0 s : State} (h : Keep s0 s) (a1 a2) : Keep s0 (@sendNotify s a1 a2) := by
  unfold sendNotify
  with_reducible repeat' (first
    | assumption | apply Keep.ite | apply setSess_keep | apply addHold_keep | apply sendTo_keep | simp only [keep_mk] | split)

theorem inTick_keep {s0 s : State} (h : Keep s0 s) {f} (hf : ∀ u, Keep s0 u → Keep s0 (f u)) : Keep s0 (inTick s f) := by
  unfold inTick
  split
  · exact hf _ (settle_keep h)
  · exact h

theorem sumTo_keep {s0 s : State} (h : Keep s0 s) (a1 a2 a3) : Keep s0 (@sumTo s a1 a2 a3) := by
  unfold sumTo
  with_reducible repeat' (first | assumption | apply Keep.ite | apply walkOn_keep)

theorem execZcTimeoutStep_keep (s0 : State) (a0) : KeepOut s0 (@execZcTimeoutStep a0 s0) := by
  unfold execZcTimeoutStep
  with_reducible repeat' (first
    | apply KeepOut.next | assumption | exact Keep.refl _ | apply inTick_keep | apply sumTo_keep
    | (intro _; intros; try dsimp -zeta only))

theorem onPair_keep {s0 s : State} (h : Keep s0 s) (a1) : Keep s0 (@State.onPair s a1) := by
  unfold State.onPair
  with_reducible repeat' (first | assumption | simp only [keep_mk] | apply Keep.core)

theorem serve_keep {s0 s : State} (h : Keep s0 s) (a0) : Keep s0 (@serve a0 s) := by
  unfold serve
  with_reducible repeat' (first | assumption | apply Keep.ite | apply carryOut_keep | split)

theorem execRecheck_keep (s0 : State) : KeepOut s0 (@execRecheck s0) := by
  unfold execRecheck
  with_reducible repeat' (first | apply KeepOut.next | exact Keep.refl _ | apply serve_keep)

theorem execBootFwImage_keep (s0 : State) : KeepOut s0 (@execBootFwImage s0) := by
  unfold execBootFwImage
  with_reducible repeat' (first | apply KeepOut.next | exact Keep.refl _ | apply serve_keep)

theorem execSecDbgEnd_keep (s0 : State) : KeepOut s0 (@execSecDbgEnd s0) := by
  unfold execSecDbgEnd
  with_reducible repeat' (first | apply KeepOut.next | exact Keep.refl _ | apply serve_keep)

theorem linkFrame_keep {s0 s : State} (h : Keep s0 s) (a1 a2) : Keep s0 (@linkFrame s a1 a2).2 := by
  unfold linkFrame
  with_reducible repeat' (first | assumption | apply Keep.ite2 | apply onPair_keep)

theorem linkFrame_keep_eq {s0 s t : State} {a1 a2} {x0} (e : @linkFrame s a1 a2 = (x0, t)) (h : Keep s0 s) : Keep s0 t := by
  have k := linkFrame_keep h a1 a2
  rw [e] at k
  exact k

theorem mirroredWrite_keep {s0 s : State} (h : Keep s0 s) (a1 a2 a3 a4 a5) : Keep s0 (@mirroredWrite s a1 a2 a3 a4 a5) := by
  unfold mirroredWrite
  with_reducible repeat' (first | assumption | apply Keep.ite | apply landWrite_keep | simp only [keep_mk] | apply Keep.core)

theorem finalCheckOf_keep {s0 s : State} (h : Keep s0 s) (a1) : Keep s0 (@finalCheckOf s a1) := by
  unfold finalCheckOf
  with_reducible repeat' (first
    | assumption | apply Keep.ite | apply rejectCommit_keep | simp only [keep_mk] | apply Keep.core)

theorem finalCheck_keep {s0 s : State} (h : Keep s0 s) : Keep s0 (@finalCheck s) := by
  unfold finalCheck
  with_reducible repeat' (first | assumption | apply finalCheckOf_keep | split)

theorem mirroredCommit_keep {s0 s : State} (h : Keep s0 s) (a1 a2 a3) : Keep s0 (@mirroredCommit s a1 a2 a3) := by
  unfold mirroredCommit
  with_reducible repeat' (first
    | assumption | apply Keep.ite | apply syncStage_keep | apply takeSlot_keep | apply finalCheckOf_keep | apply bumpGen_keep
    | apply landAll_keep | apply endCommit_keep | apply finalCheck_keep | simp only [keep_mk] | apply Keep.core)

theorem mismatch_keep {s0 s : State} (h : Keep s0 s) : Keep s0 (@mismatch s) := by
  unfold mismatch
  with_reducible repeat' (first | assumption | apply Keep.ite | apply alarm_keep | apply toSync_keep)

theorem mirroredEnd_keep {s0 s : State} (h : Keep s0 s) (a1 a2 a3) : Keep s0 (@mirroredEnd s a1 a2 a3).2 := by
  unfold mirroredEnd
  with_reducible repeat' (first
    | assumption | apply Keep.ite | apply Keep.ite2 | apply onPair_keep | apply mismatch_keep | apply setGen_keep
    | apply rejectCommit_keep | simp only [keep_mk] | split)

theorem mirroredEnd_keep_eq {s0 s t : State} {a1 a2 a3} {x0}
    (e : @mirroredEnd s a1 a2 a3 = (x0, t)) (h : Keep s0 s) : Keep s0 t := by
  have k := mirroredEnd_keep h a1 a2 a3
  rw [e] at k
  exact k

theorem mirroredStep_keep {s0 s : State} (h : Keep s0 s) (a1 a2 a3) : Keep s0 (@mirroredStep s a1 a2 a3) := by
  unfold mirroredStep
  with_reducible repeat' (first | assumption | apply Keep.ite | apply xpFault_keep | apply setXp_keep)

theorem applyRecord_keep {s0 s : State} (h : Keep s0 s) (a1) : Keep s0 (@applyRecord s a1).2 := by
  unfold applyRecord
  with_reducible repeat' (first
    | assumption | apply mirroredWrite_keep | apply setSet_keep | apply onPair_keep | apply mirroredCommit_keep
    | apply mirroredEnd_keep | apply mirroredStep_keep | simp only [keep_mk] | split)

theorem applyRecord_keep_eq {s0 s t : State} {a1} {x0} (e : @applyRecord s a1 = (x0, t)) (h : Keep s0 s) : Keep s0 t := by
  have k := applyRecord_keep h a1
  rw [e] at k
  exact k

theorem applyRecords_keep (l) {s0 s : State} (h : Keep s0 s) : Keep s0 (applyRecords l s) := by
  induction l generalizing s with
  | nil => exact h
  | cons r t ih =>
    simp only [applyRecords]
    split
    · next e => exact ih (applyRecord_keep_eq e h)
    · next e => exact ih (onPair_keep (applyRecord_keep_eq e h) _)

theorem receiveRecord_keep {s0 s : State} (h : Keep s0 s) (a1 a2) : Keep s0 (@receiveRecord s a1 a2) := by
  unfold receiveRecord
  with_reducible repeat' (first
    | assumption | apply Keep.ite | apply linkFrame_keep | apply onPair_keep | apply applyRecords_keep)

theorem releaseReplies_keep {s0 s : State} (h : Keep s0 s) (a1) : Keep s0 (@releaseReplies s a1) := by
  unfold releaseReplies
  with_reducible repeat' (first
    | assumption | apply onPair_keep | apply serveNext_keep | apply afterReply_keep | apply sendTo_keep | apply Keep.foldl
    | (intro _; intros; try dsimp -zeta only))

theorem setLane_keep {s0 s : State} (h : Keep s0 s) (a1 a2) : Keep s0 (@setLane s a1 a2) := by
  unfold setLane
  with_reducible repeat' (first | assumption | apply setNat_keep)

theorem moveLane_keep {s0 s : State} (h : Keep s0 s) (a1) : Keep s0 (@moveLane s a1) := by
  unfold moveLane
  with_reducible repeat' (first | assumption | apply Keep.ite | apply alarm_keep | apply setLane_keep | apply alarmIf_keep)

theorem moveLanes_keep {s0 s : State} (h : Keep s0 s) : Keep s0 (@moveLanes s) := by
  unfold moveLanes
  with_reducible repeat' (first
    | assumption | apply moveLane_keep | apply onPair_keep | apply Keep.foldl | (intro _; intros; try dsimp -zeta only))

theorem weighEvidence_keep {s0 s : State} (h : Keep s0 s) : Keep s0 (@weighEvidence s) := by
  unfold weighEvidence
  with_reducible repeat' (first | assumption | apply Keep.ite | apply setNat_keep | apply alarm_keep | apply onPair_keep)

theorem retryHeld_keep {s0 s : State} (h : Keep s0 s) : Keep s0 (@retryHeld s) := by
  unfold retryHeld
  with_reducible repeat' (first | assumption | apply applyRecords_keep | apply onPair_keep)

theorem execRetire_keep (s0 : State) : KeepOut s0 (@execRetire s0) := by
  unfold execRetire
  with_reducible repeat' (first | apply KeepOut.next | exact Keep.refl _ | apply serve_keep)

theorem execEngCtlAct_keep (s0 : State) (a0) : KeepOut s0 (@execEngCtlAct a0 s0) := by
  unfold execEngCtlAct
  with_reducible repeat' (first
    | apply KeepOut.next | exact Keep.refl _ | apply Keep.ite | apply engCtlDue_keep | simp only [keep_mk] | apply Keep.core
    | split)

theorem execAbort_keep (s0 : State) : KeepOut s0 (@execAbort s0) := by
  unfold execAbort
  with_reducible repeat' (first | apply KeepOut.next | exact Keep.refl _ | apply serve_keep)

theorem execTimeRestep_keep (s0 : State) : KeepOut s0 (@execTimeRestep s0) := by
  unfold execTimeRestep
  with_reducible repeat' (first | apply KeepOut.next | exact Keep.refl _ | apply serve_keep)

theorem mirrorWaiting_keep {s0 s : State} (h : Keep s0 s) : Keep s0 (mirrorWaiting s) := by
  unfold mirrorWaiting
  refine Keep.foldlFst (p := (s, [])) h (fun q w k => ?_) _
  have k1 : Keep s0 { q.1 with writes := q.2 } := (keep_mk ..).2 k.core
  exact Keep.ite (mirrorWrite_keep k1 _ _ _ _ _) k1

theorem sendSnapshot_keep {s0 s : State} (h : Keep s0 s) : Keep s0 (@sendSnapshot s) := by
  unfold sendSnapshot
  with_reducible repeat' (first
    | assumption | apply sendBulk_keep | apply mirrorWaiting_keep | apply onPair_keep | apply Keep.foldl | simp only [keep_mk]
    | apply Keep.core | (intro _; intros; try dsimp -zeta only))

theorem serveJoin_keep {s0 s : State} (h : Keep s0 s) : Keep s0 (@serveJoin s) := by
  unfold serveJoin
  with_reducible repeat' (first
    | assumption | apply Keep.ite | apply sendSnapshot_keep | apply askDigest_keep | apply onPair_keep)

theorem noteSwap_keep {s0 s : State} (h : Keep s0 s) (a1) : Keep s0 (@noteSwap s a1) := by
  unfold noteSwap
  with_reducible repeat' (first | assumption | apply Keep.ite | apply setNat_keep | apply haltWork_keep | apply onPair_keep)

theorem afterBeat_keep {s0 s : State} (h : Keep s0 s) (a1) : Keep s0 (@afterBeat s a1) := by
  unfold afterBeat
  with_reducible repeat' (first
    | assumption | apply Keep.ite | apply onPair_keep | apply serveJoin_keep | apply abandonSwap_keep | apply alarm_keep
    | apply toSync_keep | apply noteSwap_keep)

theorem execNotificationDue_keep (s0 : State) (a0) : KeepOut s0 (@execNotificationDue a0 s0) := by
  unfold execNotificationDue
  with_reducible repeat' (first
    | apply KeepOut.next | assumption | exact Keep.refl _ | apply Keep.ite | apply setSess_keep | apply sendNotify_keep
    | apply Keep.foldl | simp only [keep_mk] | (intro _; intros; try dsimp -zeta only) | split)

theorem askWitness_keep {s0 s : State} (h : Keep s0 s) (a1) : Keep s0 (@askWitness s a1) := by
  unfold askWitness
  with_reducible repeat' (first | assumption | apply draw_keep | apply emit_keep | apply onPair_keep)

theorem execBenchScrubRead_keep (s0 : State) (a0 a1) : KeepOut s0 (@execBenchScrubRead a0 a1 s0) := by
  unfold execBenchScrubRead
  with_reducible repeat' (first
    | apply KeepOut.next | exact Keep.refl _ | apply benchEvent_keep | apply addHold_keep | apply xpFault_keep | split)

theorem execStage_keep (s0 : State) : KeepOut s0 (@execStage s0) := by
  unfold execStage
  with_reducible repeat' (first | apply KeepOut.next | exact Keep.refl _ | apply serve_keep)

theorem execMedsynOffset_keep (s0 : State) : KeepOut s0 (@execMedsynOffset s0) := by
  unfold execMedsynOffset
  with_reducible repeat' (first | apply KeepOut.next | exact Keep.refl _ | apply serve_keep)

theorem closePhase_keep {s0 s : State} (h : Keep s0 s) (k) {f} (hf : ∀ u, Keep s0 u → Keep s0 (f u)) :
    Keep s0 (closePhase s k f) := by
  unfold closePhase
  split
  · exact h
  · exact hf _ ((keep_mk ..).2 (settle_keep h).core)

theorem closeP0_keep {s0 s : State} (h : Keep s0 s) : Keep s0 (@closeP0 s) := by
  unfold closeP0
  with_reducible repeat' (first
    | assumption | apply Keep.ite | apply alarm_keep | apply addWrap_keep | simp only [keep_mk] | apply Keep.core)

theorem closeSection_keep {s0 s : State} (h : Keep s0 s) (a1) : Keep s0 (@closeSection s a1) := by
  unfold closeSection
  with_reducible repeat' (first
    | assumption | apply Keep.ite | apply haltEngine_keep | apply substitute_keep | apply Keep.foldl | simp only [keep_mk]
    | (intro _; intros; try dsimp -zeta only))

theorem phaseEnd_keep {s0 s : State} (h : Keep s0 s) (a1) : Keep s0 (@phaseEnd s a1) := by
  unfold phaseEnd
  with_reducible repeat' (first
    | assumption | apply Keep.ite | apply closeP0_keep | apply closeEgress_keep | apply closeSection_keep
    | apply preparePages_keep | apply finalCheck_keep | apply closeBench_keep | apply standbyStreams_keep | split)

theorem execP1Deadline_keep (s0 : State) : KeepOut s0 (@execP1Deadline s0) := by
  unfold execP1Deadline
  with_reducible repeat' (first
    | apply KeepOut.next | assumption | exact Keep.refl _ | apply closePhase_keep | apply phaseEnd_keep
    | (intro _; intros; try dsimp -zeta only))

theorem compareDigest_keep {s0 s : State} (h : Keep s0 s) (a1 a2 a3) : Keep s0 (@compareDigest s a1 a2 a3) := by
  unfold compareDigest
  with_reducible repeat' (first
    | assumption | apply Keep.ite | apply onPair_keep | apply setFlag_keep | apply setNat_keep | apply setObj_keep
    | apply setRole_keep | apply alarm_keep | apply mismatch_keep)

theorem execCtlLogAck_keep (s0 : State) : KeepOut s0 (@execCtlLogAck s0) := by
  unfold execCtlLogAck
  with_reducible repeat' (first | apply KeepOut.next | exact Keep.refl _ | apply serve_keep)

theorem compareCrcs_keep {s0 s : State} (h : Keep s0 s) : Keep s0 (@compareCrcs s) := by
  unfold compareCrcs
  with_reducible repeat' (first
    | assumption | apply Keep.ite | apply onPair_keep | apply alarm_keep | apply addHold_keep | apply abandonSwap_keep
    | apply Keep.foldl | simp only [keep_mk] | (intro _; intros; try dsimp -zeta only) | split)

theorem sendCrcs_keep {s0 s : State} (h : Keep s0 s) : Keep s0 (@sendCrcs s) := by
  unfold sendCrcs
  with_reducible repeat' (first
    | assumption | apply Keep.ite | apply sendFrame_keep | apply onPair_keep | simp only [keep_mk] | split)

theorem syncLag_keep {s0 s : State} (h : Keep s0 s) : Keep s0 (@syncLag s) := by
  unfold syncLag
  with_reducible repeat' (first | assumption | apply setNat_keep)

theorem execBusFrameWritten_keep (s0 : State) (a0 a1) : KeepOut s0 (@execBusFrameWritten a0 a1 s0) := by
  unfold execBusFrameWritten
  with_reducible repeat' (first
    | apply KeepOut.next | assumption | exact Keep.refl _ | apply Keep.ite | apply inTick_keep
    | refine walkOn_keep_eq (by assumption) ?_ | apply benchEvent_keep | apply writeBus_keep
    | (intro _; intros; try dsimp -zeta only) | split)

theorem execClkSyncArm_keep (s0 : State) : KeepOut s0 (@execClkSyncArm s0) := by
  unfold execClkSyncArm
  with_reducible repeat' (first | apply KeepOut.next | exact Keep.refl _ | apply serve_keep)

theorem gatherOpen_keep {s0 s : State} (h : Keep s0 s) (a1 a2) : Keep s0 (@gatherOpen s a1 a2) := by
  unfold gatherOpen
  with_reducible repeat' (first | assumption | apply Keep.ite | apply gatherWith_keep)

theorem execReaderWaitEnd_keep (s0 : State) (a0) : KeepOut s0 (@execReaderWaitEnd a0 s0) := by
  unfold execReaderWaitEnd
  with_reducible repeat' (first
    | apply KeepOut.next | assumption | exact Keep.refl _ | apply inTick_keep | apply gatherOpen_keep
    | (intro _; intros; try dsimp -zeta only))

theorem execCommitFreeze_keep (s0 : State) (a0) : KeepOut s0 (@execCommitFreeze a0 s0) := by
  unfold execCommitFreeze
  with_reducible repeat' (first
    | apply KeepOut.next | exact Keep.refl _ | apply Keep.ite | apply preparePages_keep | simp only [keep_mk]
    | apply Keep.core)

theorem execP0Deadline_keep (s0 : State) : KeepOut s0 (@execP0Deadline s0) := by
  unfold execP0Deadline
  with_reducible repeat' (first
    | apply KeepOut.next | assumption | exact Keep.refl _ | apply closePhase_keep | apply phaseEnd_keep
    | (intro _; intros; try dsimp -zeta only))

theorem execWrite_keep (s0 : State) : KeepOut s0 (@execWrite s0) := by
  unfold execWrite
  with_reducible repeat' (first | apply KeepOut.next | exact Keep.refl _ | apply serve_keep)

theorem execRestore_keep (s0 : State) : KeepOut s0 (@execRestore s0) := by
  unfold execRestore
  with_reducible repeat' (first | apply KeepOut.next | exact Keep.refl _ | apply serve_keep)

theorem execLatticeScrubRead_keep (s0 : State) (a0 a1 a2 a3) : KeepOut s0 (@execLatticeScrubRead a0 a1 a2 a3 s0) := by
  unfold execLatticeScrubRead
  with_reducible repeat' (first
    | apply KeepOut.next | exact Keep.refl _ | apply Keep.ite | apply addHold_keep | apply selFault_keep
    | apply slotFault_keep | simp only [keep_mk] | split)

theorem execP4Deadline_keep (s0 : State) : KeepOut s0 (@execP4Deadline s0) := by
  unfold execP4Deadline
  with_reducible repeat' (first
    | apply KeepOut.next | assumption | exact Keep.refl _ | apply closePhase_keep | apply phaseEnd_keep
    | (intro _; intros; try dsimp -zeta only))

theorem execLatticeGather_keep (s0 : State) (a0) : KeepOut s0 (@execLatticeGather a0 s0) := by
  unfold execLatticeGather
  with_reducible repeat' (first
    | apply KeepOut.next | assumption | exact Keep.refl _ | apply inTick_keep | apply gatherOpen_keep
    | (intro _; intros; try dsimp -zeta only))

theorem restLims_keep {s0 s : State} (h : Keep s0 s) : Keep s0 (@restLims s) := by
  unfold restLims
  with_reducible repeat' (first
    | assumption | apply setDest_keep | apply Keep.foldl | simp only [keep_mk] | (intro _; intros; try dsimp -zeta only))

theorem takeLim_keep {s0 s : State} (h : Keep s0 s) (a1) : Keep s0 (@takeLim s a1) := by
  unfold takeLim
  with_reducible repeat' (first | assumption | apply setDest_keep)

theorem lockPlace_keep {s0 s : State} (h : Keep s0 s) (a1 a2 a3) : Keep s0 (@lockPlace s a1 a2 a3) := by
  unfold lockPlace
  with_reducible repeat' (first
    | assumption | apply Keep.ite | apply restorePlace_keep | apply setEngine_keep | apply startPlace_keep)

theorem execP2Deadline_keep (s0 : State) : KeepOut s0 (@execP2Deadline s0) := by
  unfold execP2Deadline
  with_reducible repeat' (first
    | apply KeepOut.next | assumption | exact Keep.refl _ | apply closePhase_keep | apply phaseEnd_keep
    | (intro _; intros; try dsimp -zeta only))

theorem clearPair_keep {s0 s : State} (h : Keep s0 s) (a1) : Keep s0 (@clearPair s a1) := by
  unfold clearPair
  with_reducible repeat' (first
    | assumption | apply setObj_keep | apply setEngine_keep | apply landAll_keep | apply freeSlot_keep | apply setSet_keep
    | apply Keep.foldl | simp only [keep_mk] | apply Keep.core | (intro _; intros; try dsimp -zeta only))

theorem takeSnapshot_keep {s0 s : State} (h : Keep s0 s) : Keep s0 (@takeSnapshot s) := by
  unfold takeSnapshot
  with_reducible repeat' (first
    | assumption | apply clearPair_keep | apply landAll_keep | apply mirroredCommit_keep | apply onPair_keep
    | apply setSet_keep | apply setGen_keep | apply addWrap_keep | apply retryHeld_keep | apply Keep.foldl
    | (intro _; intros; try dsimp -zeta only) | split)

theorem receiveBulk_keep {s0 s : State} (h : Keep s0 s) (a1 a2) : Keep s0 (@receiveBulk s a1 a2) := by
  unfold receiveBulk
  with_reducible repeat' (first
    | assumption | apply Keep.ite | apply linkFrame_keep | apply onPair_keep | apply takeSnapshot_keep | apply retryHeld_keep
    | split)

theorem execMigrate_keep (s0 : State) : KeepOut s0 (@execMigrate s0) := by
  unfold execMigrate
  with_reducible repeat' (first | apply KeepOut.next | exact Keep.refl _ | apply serve_keep)

theorem witnessReply_keep {s0 s : State} (h : Keep s0 s) (a1 a2) : Keep s0 (@witnessReply s a1 a2).2 := by
  unfold witnessReply
  with_reducible repeat' (first | assumption | apply Keep.ite2 | apply alarm_keep | apply onPair_keep | split)

theorem witnessReply_keep_eq {s0 s t : State} {a1 a2} {x0}
    (e : @witnessReply s a1 a2 = (x0, t)) (h : Keep s0 s) : Keep s0 t := by
  have k := witnessReply_keep h a1 a2
  rw [e] at k
  exact k

theorem execSessionTimeout_keep (s0 : State) (a0) : KeepOut s0 (@execSessionTimeout a0 s0) := by
  unfold execSessionTimeout
  with_reducible repeat' (first
    | apply KeepOut.next | exact Keep.refl _ | apply Keep.ite | apply alarm_keep | apply closeSession_keep)

theorem execUnsubscribe_keep (s0 : State) : KeepOut s0 (@execUnsubscribe s0) := by
  unfold execUnsubscribe
  with_reducible repeat' (first | apply KeepOut.next | exact Keep.refl _ | apply serve_keep)

theorem execEngFlagsClr_keep (s0 : State) : KeepOut s0 (@execEngFlagsClr s0) := by
  unfold execEngFlagsClr
  with_reducible repeat' (first | apply KeepOut.next | exact Keep.refl _ | apply serve_keep)

theorem execTake_keep (s0 : State) : KeepOut s0 (@execTake s0) := by
  unfold execTake
  with_reducible repeat' (first | apply KeepOut.next | exact Keep.refl _ | apply serve_keep)

theorem execPhasePlan_keep (s0 : State) : KeepOut s0 (@execPhasePlan s0) := by
  unfold execPhasePlan
  with_reducible repeat' (first | apply KeepOut.next | exact Keep.refl _ | apply serve_keep)

theorem execRefPhaseForce_keep (s0 : State) : KeepOut s0 (@execRefPhaseForce s0) := by
  unfold execRefPhaseForce
  with_reducible repeat' (first | apply KeepOut.next | exact Keep.refl _ | apply serve_keep)

theorem execTimeSet_keep (s0 : State) : KeepOut s0 (@execTimeSet s0) := by
  unfold execTimeSet
  with_reducible repeat' (first | apply KeepOut.next | exact Keep.refl _ | apply serve_keep)

theorem execDomClose_keep (s0 : State) : KeepOut s0 (@execDomClose s0) := by
  unfold execDomClose
  with_reducible repeat' (first | apply KeepOut.next | exact Keep.refl _ | apply serve_keep)

theorem execCtlCredWrap_keep (s0 : State) : KeepOut s0 (@execCtlCredWrap s0) := by
  unfold execCtlCredWrap
  with_reducible repeat' (first | apply KeepOut.next | exact Keep.refl _ | apply serve_keep)

theorem execQuietLeave_keep (s0 : State) : KeepOut s0 (@execQuietLeave s0) := by
  unfold execQuietLeave
  with_reducible repeat' (first | apply KeepOut.next | exact Keep.refl _ | apply serve_keep)

theorem execSecDbgResponse_keep (s0 : State) (a0) : KeepOut s0 (@execSecDbgResponse a0 s0) := by
  unfold execSecDbgResponse
  with_reducible repeat' (first
    | apply KeepOut.next | exact Keep.refl _ | apply Keep.ite | apply serve_keep | apply dbgRespond_keep | split)

theorem execDomSeg_keep (s0 : State) : KeepOut s0 (@execDomSeg s0) := by
  unfold execDomSeg
  with_reducible repeat' (first | apply KeepOut.next | exact Keep.refl _ | apply serve_keep)

theorem execAudit_keep (s0 : State) : KeepOut s0 (@execAudit s0) := by
  unfold execAudit
  with_reducible repeat' (first | apply KeepOut.next | exact Keep.refl _ | apply serve_keep)

theorem execClear_keep (s0 : State) : KeepOut s0 (@execClear s0) := by
  unfold execClear
  with_reducible repeat' (first | apply KeepOut.next | exact Keep.refl _ | apply serve_keep)

theorem takeAck_keep {s0 s : State} (h : Keep s0 s) (a1) : Keep s0 (@takeAck s a1) := by
  unfold takeAck
  with_reducible repeat' (first
    | assumption | apply Keep.ite | apply emit_keep | apply onPair_keep | apply syncLag_keep | apply releaseReplies_keep
    | apply Keep.foldl | (intro _; intros; try dsimp -zeta only))

theorem execOpenOp_keep (s0 : State) : KeepOut s0 (@execOpenOp s0) := by
  unfold execOpenOp
  with_reducible repeat' (first | apply KeepOut.next | exact Keep.refl _ | apply serve_keep)

theorem execInputGatherDone_keep (s0 : State) (a0 a1) : KeepOut s0 (@execInputGatherDone a0 a1 s0) := by
  unfold execInputGatherDone
  with_reducible repeat' (first
    | apply KeepOut.next | apply KeepOut.ite | exact Keep.refl _ | apply settle_keep | apply gatherSlots_keep
    | apply fillInputs_keep | apply setEngine_keep | simp only [keep_mk] | split)

theorem execRun_keep (s0 : State) : KeepOut s0 (@execRun s0) := by
  unfold execRun
  with_reducible repeat' (first | apply KeepOut.next | exact Keep.refl _ | apply serve_keep)

theorem execStop_keep (s0 : State) : KeepOut s0 (@execStop s0) := by
  unfold execStop
  with_reducible repeat' (first | apply KeepOut.next | exact Keep.refl _ | apply serve_keep)

theorem execRestart_keep (s0 : State) : KeepOut s0 (@execRestart s0) := by
  unfold execRestart
  with_reducible repeat' (first | apply KeepOut.next | exact Keep.refl _ | apply serve_keep)

theorem execEngImage_keep (s0 : State) : KeepOut s0 (@execEngImage s0) := by
  unfold execEngImage
  with_reducible repeat' (first | apply KeepOut.next | exact Keep.refl _ | apply serve_keep)

theorem execPhaseD2Open_keep (s0 : State) : KeepOut s0 (@execPhaseD2Open s0) := by
  unfold execPhaseD2Open
  with_reducible repeat' (first
    | apply KeepOut.next | exact Keep.refl _ | apply Keep.ite | apply settle_keep | simp only [keep_mk] | apply Keep.core)

theorem execP3Deadline_keep (s0 : State) : KeepOut s0 (@execP3Deadline s0) := by
  unfold execP3Deadline
  with_reducible repeat' (first
    | apply KeepOut.next | assumption | exact Keep.refl _ | apply closePhase_keep | apply phaseEnd_keep
    | (intro _; intros; try dsimp -zeta only))

theorem execP5Deadline_keep (s0 : State) : KeepOut s0 (@execP5Deadline s0) := by
  unfold execP5Deadline
  with_reducible repeat' (first
    | apply KeepOut.next | assumption | exact Keep.refl _ | apply closePhase_keep | apply phaseEnd_keep
    | (intro _; intros; try dsimp -zeta only))

theorem execHouseRate_keep (s0 : State) : KeepOut s0 (@execHouseRate s0) := by
  unfold execHouseRate
  with_reducible repeat' (first | apply KeepOut.next | exact Keep.refl _ | apply serve_keep)

theorem execTicklen_keep (s0 : State) : KeepOut s0 (@execTicklen s0) := by
  unfold execTicklen
  with_reducible repeat' (first | apply KeepOut.next | exact Keep.refl _ | apply serve_keep)

theorem execDirectWriteLanding_keep (s0 : State) : KeepOut s0 (@execDirectWriteLanding s0) := by
  unfold execDirectWriteLanding
  with_reducible repeat' (first
    | apply KeepOut.next | exact Keep.refl _ | apply Keep.ite | apply landWrites_keep | apply landCommit_keep)

theorem execRampMoveEnd_keep (s0 : State) (a0) : KeepOut s0 (@execRampMoveEnd a0 s0) := by
  unfold execRampMoveEnd
  with_reducible repeat' (first
    | apply KeepOut.next | assumption | exact Keep.refl _ | apply inTick_keep | apply sumTo_keep
    | (intro _; intros; try dsimp -zeta only))

theorem execBusSatClr_keep (s0 : State) : KeepOut s0 (@execBusSatClr s0) := by
  unfold execBusSatClr
  with_reducible repeat' (first | apply KeepOut.next | exact Keep.refl _ | apply serve_keep)

theorem execEgressConvert_keep (s0 : State) (a0) : KeepOut s0 (@execEgressConvert a0 s0) := by
  unfold execEgressConvert
  with_reducible repeat' (first
    | apply KeepOut.next | assumption | exact Keep.refl _ | apply inTick_keep | apply convertDest_keep
    | (intro _; intros; try dsimp -zeta only))

theorem execLimGrClr_keep (s0 : State) : KeepOut s0 (@execLimGrClr s0) := by
  unfold execLimGrClr
  with_reducible repeat' (first | apply KeepOut.next | exact Keep.refl _ | apply serve_keep)

theorem execSoftTakeEnd_keep (s0 : State) (a0) : KeepOut s0 (@execSoftTakeEnd a0 s0) := by
  unfold execSoftTakeEnd
  with_reducible repeat' (first | apply KeepOut.next | exact Keep.refl _ | apply Keep.ite | apply setDest_keep | split)

theorem execCommit_keep (s0 : State) : KeepOut s0 (@execCommit s0) := by
  unfold execCommit
  with_reducible repeat' (first | apply KeepOut.next | exact Keep.refl _ | apply serve_keep)

theorem execCommitLanding_keep (s0 : State) : KeepOut s0 (@execCommitLanding s0) := by
  unfold execCommitLanding
  with_reducible repeat' (first | apply KeepOut.next | exact Keep.refl _ | apply Keep.ite | apply landCommit_keep)

theorem execUnownedSetExpiry_keep (s0 : State) : KeepOut s0 (@execUnownedSetExpiry s0) := by
  unfold execUnownedSetExpiry
  with_reducible repeat' (first
    | apply KeepOut.next | assumption | exact Keep.refl _ | apply Keep.ite | apply setSet_keep | apply mirrorSetEnd_keep
    | apply Keep.foldl | simp only [keep_mk] | apply Keep.core | (intro _; intros; try dsimp -zeta only) | split)

theorem execRead_keep (s0 : State) : KeepOut s0 (@execRead s0) := by
  unfold execRead
  with_reducible repeat' (first | apply KeepOut.next | exact Keep.refl _ | apply serve_keep)

theorem execKeepalive_keep (s0 : State) : KeepOut s0 (@execKeepalive s0) := by
  unfold execKeepalive
  with_reducible repeat' (first | apply KeepOut.next | exact Keep.refl _ | apply Keep.ite | apply completeFrame_keep | split)

theorem execSubscribe_keep (s0 : State) : KeepOut s0 (@execSubscribe s0) := by
  unfold execSubscribe
  with_reducible repeat' (first | apply KeepOut.next | exact Keep.refl _ | apply serve_keep)

theorem execCloseOp_keep (s0 : State) : KeepOut s0 (@execCloseOp s0) := by
  unfold execCloseOp
  with_reducible repeat' (first | apply KeepOut.next | exact Keep.refl _ | apply serve_keep)

theorem execDomOpen_keep (s0 : State) : KeepOut s0 (@execDomOpen s0) := by
  unfold execDomOpen
  with_reducible repeat' (first | apply KeepOut.next | exact Keep.refl _ | apply serve_keep)

theorem execCtlCredPriv_keep (s0 : State) : KeepOut s0 (@execCtlCredPriv s0) := by
  unfold execCtlCredPriv
  with_reducible repeat' (first | apply KeepOut.next | exact Keep.refl _ | apply serve_keep)

theorem execRefPhaseStep_keep (s0 : State) : KeepOut s0 (@execRefPhaseStep s0) := by
  unfold execRefPhaseStep
  with_reducible repeat' (first | apply KeepOut.next | exact Keep.refl _ | apply serve_keep)

theorem execSyspllSelect_keep (s0 : State) : KeepOut s0 (@execSyspllSelect s0) := by
  unfold execSyspllSelect
  with_reducible repeat' (first | apply KeepOut.next | exact Keep.refl _ | apply serve_keep)

theorem execRampStart_keep (s0 : State) : KeepOut s0 (@execRampStart s0) := by
  unfold execRampStart
  with_reducible repeat' (first | apply KeepOut.next | exact Keep.refl _ | apply serve_keep)

theorem noteReference_keep {s0 s : State} (h : Keep s0 s) (a1 a2) : Keep s0 (@noteReference s a1 a2) := by
  unfold noteReference
  with_reducible repeat' (first | assumption | apply setCand_keep | apply refPhase_keep)

theorem noteBeat_keep {s0 s : State} (h : Keep s0 s) (a1 a2) : Keep s0 (@noteBeat s a1 a2) := by
  unfold noteBeat
  with_reducible repeat' (first | assumption | apply setNat_keep | apply onPair_keep)

theorem execJoin_keep (s0 : State) : KeepOut s0 (@execJoin s0) := by
  unfold execJoin
  with_reducible repeat' (first | apply KeepOut.next | exact Keep.refl _ | apply serve_keep)

theorem execIsolate_keep (s0 : State) : KeepOut s0 (@execIsolate s0) := by
  unfold execIsolate
  with_reducible repeat' (first | apply KeepOut.next | exact Keep.refl _ | apply serve_keep)

theorem execSwap_keep (s0 : State) : KeepOut s0 (@execSwap s0) := by
  unfold execSwap
  with_reducible repeat' (first | apply KeepOut.next | exact Keep.refl _ | apply serve_keep)

theorem mustYield_keep {s0 s : State} (h : Keep s0 s) : Keep s0 (@mustYield s) := by
  unfold mustYield
  with_reducible repeat' (first | assumption | apply onPair_keep)

theorem sendLimiters_keep {s0 s : State} (h : Keep s0 s) (a1) : Keep s0 (@sendLimiters s a1) := by
  unfold sendLimiters
  with_reducible repeat' (first
    | assumption | apply sendBulk_keep | apply Keep.foldl | (intro _; intros; try dsimp -zeta only))

theorem sendRegion_keep {s0 s : State} (h : Keep s0 s) (a1 a2 a3 a4) : Keep s0 (@sendRegion s a1 a2 a3 a4) := by
  unfold sendRegion
  with_reducible repeat' (first
    | assumption | apply sendBulk_keep | apply Keep.foldl | (intro _; intros; try dsimp -zeta only))

theorem execTest_keep (s0 : State) : KeepOut s0 (@execTest s0) := by
  unfold execTest
  with_reducible repeat' (first | apply KeepOut.next | exact Keep.refl _ | apply serve_keep)

theorem execClearPll_keep (s0 : State) : KeepOut s0 (@execClearPll s0) := by
  unfold execClearPll
  with_reducible repeat' (first | apply KeepOut.next | exact Keep.refl _ | apply serve_keep)

theorem execPmuEngOvfClr_keep (s0 : State) : KeepOut s0 (@execPmuEngOvfClr s0) := by
  unfold execPmuEngOvfClr
  with_reducible repeat' (first | apply KeepOut.next | exact Keep.refl _ | apply serve_keep)

theorem execPmuOvfClr_keep (s0 : State) : KeepOut s0 (@execPmuOvfClr s0) := by
  unfold execPmuOvfClr
  with_reducible repeat' (first | apply KeepOut.next | exact Keep.refl _ | apply serve_keep)

theorem execSecLcAdvance_keep (s0 : State) : KeepOut s0 (@execSecLcAdvance s0) := by
  unfold execSecLcAdvance
  with_reducible repeat' (first | apply KeepOut.next | exact Keep.refl _ | apply serve_keep)

theorem execSecTamperClr_keep (s0 : State) : KeepOut s0 (@execSecTamperClr s0) := by
  unfold execSecTamperClr
  with_reducible repeat' (first | apply KeepOut.next | exact Keep.refl _ | apply serve_keep)

theorem execSecDbgChallenge_keep (s0 : State) (a0) : KeepOut s0 (@execSecDbgChallenge a0 s0) := by
  unfold execSecDbgChallenge
  with_reducible repeat' (first
    | apply KeepOut.next | exact Keep.refl _ | apply Keep.ite | apply serve_keep | apply dbgChallenge_keep)

theorem execSecImgPubkey_keep (s0 : State) : KeepOut s0 (@execSecImgPubkey s0) := by
  unfold execSecImgPubkey
  with_reducible repeat' (first | apply KeepOut.next | exact Keep.refl _ | apply serve_keep)

theorem execSecImgKeyHash_keep (s0 : State) : KeepOut s0 (@execSecImgKeyHash s0) := by
  unfold execSecImgKeyHash
  with_reducible repeat' (first | apply KeepOut.next | exact Keep.refl _ | apply serve_keep)

theorem execBootReset_keep (s0 : State) : KeepOut s0 (@execBootReset s0) := by
  unfold execBootReset
  with_reducible repeat' (first | apply KeepOut.next | exact Keep.refl _ | apply serve_keep)

theorem execBootResetAnyRole_keep (s0 : State) : KeepOut s0 (@execBootResetAnyRole s0) := by
  unfold execBootResetAnyRole
  with_reducible repeat' (first | apply KeepOut.next | exact Keep.refl _ | apply serve_keep)

theorem execQuietEnter_keep (s0 : State) : KeepOut s0 (@execQuietEnter s0) := by
  unfold execQuietEnter
  with_reducible repeat' (first | apply KeepOut.next | exact Keep.refl _ | apply serve_keep)

end Sys2Proof.Machine
end

