-- ==== Sys2Proof/Laws/KeepPair.lean ====
section
/-! SUPPORT. `Keep` for every operation and command of Fabric, HostPort, Net, Time, Boundary. -/

namespace Sys2Proof.Machine

set_option linter.unusedVariables false
set_option linter.unusedSimpArgs false

theorem gridValue_keep {s0 s : State} (h : Keep s0 s) (a1 a2) : Keep s0 (@gridValue s a1 a2) := by
  unfold gridValue
  with_reducible repeat' (first | assumption | apply bumpGen_keep | apply setNat_keep | split)

theorem answerQuery_keep {s0 s : State} (h : Keep s0 s) (a0 a1 a2 a4) : Keep s0 (@answerQuery a0 a1 a2 s a4) := by
  unfold answerQuery
  with_reducible repeat' (first | assumption | apply Keep.ite | apply sendCtl_keep)

theorem execIgmpQuery_keep (s0 : State) (a0 a1) : KeepOut s0 (@execIgmpQuery a0 a1 s0) := by
  unfold execIgmpQuery
  with_reducible repeat' (first
    | apply KeepOut.next | apply KeepOut.ite | assumption | exact Keep.refl _ | apply answerQuery_keep | apply Keep.foldl
    | (intro _; intros; try dsimp -zeta only))

theorem portCount_keep {s0 s : State} (h : Keep s0 s) (a1 a2) : Keep s0 (@portCount s a1 a2) := by
  unfold portCount
  with_reducible repeat' (first | assumption | apply addHold_keep)

theorem fwdSend_keep {s0 s : State} (h : Keep s0 s) (a0 a2) : Keep s0 (@fwdSend a0 s a2) := by
  unfold fwdSend
  with_reducible repeat' (first | assumption | apply Keep.ite | apply emit_keep | apply portCount_keep | apply netEvent_keep)

theorem setFwd_keep {s0 s : State} (h : Keep s0 s) (a1 a2) : Keep s0 (@setFwd s a1 a2) := by
  unfold setFwd
  with_reducible repeat' (first | assumption | simp only [keep_mk] | apply Keep.core)

theorem fwdTurn_keep {s0 s : State} (h : Keep s0 s) (a1) : Keep s0 (@fwdTurn s a1) := by
  unfold fwdTurn
  with_reducible repeat' (first
    | assumption | apply Keep.ite | apply fwdSend_keep | apply setFwd_keep | apply Keep.foldl
    | (intro _; intros; try dsimp -zeta only))

theorem execStreamPacketSent_keep (s0 : State) (a0) : KeepOut s0 (@execStreamPacketSent a0 s0) := by
  unfold execStreamPacketSent
  with_reducible repeat' (first
    | apply KeepOut.next | apply KeepOut.ite | exact Keep.refl _ | apply fwdTurn_keep | apply alarm_keep
    | apply portCount_keep | apply addHold_keep | apply netEvent_keep | apply emit_keep | simp only [keep_mk]
    | apply Keep.core | split)

theorem checkImage_keep {s0 s : State} (h : Keep s0 s) (a1) : Keep s0 (@checkImage s a1) := by
  unfold checkImage
  with_reducible repeat' (first
    | assumption | apply Keep.ite | apply setEngine_keep | apply alarm_keep | simp only [keep_mk] | split)

theorem dropLate_keep {s0 s : State} (h : Keep s0 s) (a1) : Keep s0 (@dropLate s a1) := by
  unfold dropLate
  with_reducible repeat' (first
    | assumption | apply rejectCommit_keep | apply Keep.foldl | (intro _; intros; try dsimp -zeta only))

theorem chainTurn_keep {s0 s : State} (h : Keep s0 s) : Keep s0 (@chainTurn s) := by
  unfold chainTurn
  with_reducible repeat' (first | assumption | apply fwdTurn_keep)

theorem pairTickBegin_keep {s0 s : State} (h : Keep s0 s) : Keep s0 (@pairTickBegin s) := by
  unfold pairTickBegin
  with_reducible repeat' (first
    | assumption | apply Keep.ite | apply releaseReplies_keep | apply moveLanes_keep | apply toSync_keep
    | apply weighEvidence_keep | apply retryHeld_keep | apply onPair_keep | apply emit_keep)

theorem ownQuality_keep {s0 s : State} (h : Keep s0 s) : Keep s0 (@ownQuality s) := by
  unfold ownQuality
  with_reducible repeat' (first | assumption | apply Keep.ite | apply refBoundary_keep | apply ptpQuality_keep)

theorem keepSnap_keep {s0 s : State} (h : Keep s0 s) : Keep s0 (@keepSnap s) := by
  unfold keepSnap
  with_reducible repeat' (first | assumption | simp only [keep_mk] | apply Keep.coreSnap)

theorem beginTick_keep {s0 s : State} (h : Keep s0 s) (a1 a2 a3 a4) : Keep s0 (@beginTick s a1 a2 a3 a4) := by
  unfold beginTick
  with_reducible repeat' (first
    | assumption | apply Keep.ite | apply dropLate_keep | apply netHandOver_keep | apply voidIn_keep | apply portsTick_keep
    | apply chainTurn_keep | apply mailTick_keep | apply shadowBegins_keep | apply pairTickBegin_keep | apply synBoundary_keep
    | apply ptpTurn_keep | apply ownQuality_keep | apply keepSnap_keep | simp only [keep_mk] | apply Keep.core | split)

theorem dpAccess_keep {s0 s : State} (h : Keep s0 s) (a1 a2 a3 a4 a5) : Keep s0 (@dpAccess s a1 a2 a3 a4 a5).2.2 := by
  unfold dpAccess
  with_reducible repeat' (first
    | assumption | apply Keep.ite22 | apply setMemBytes_keep | refine fabRun_keep_eq (by assumption) ?_ | simp only [keep_mk]
    | split)

theorem dpAccess_keep_eq {s0 s t : State} {a1 a2 a3 a4 a5} {x0 x1}
    (e : @dpAccess s a1 a2 a3 a4 a5 = (x0, x1, t)) (h : Keep s0 s) : Keep s0 t := by
  have k := dpAccess_keep h a1 a2 a3 a4 a5
  rw [e] at k
  exact k

theorem dpStep_keep {s0 s : State} (h : Keep s0 s) (a1) : Keep s0 (@dpStep s a1) := by
  unfold dpStep
  with_reducible repeat' (first | assumption | simp only [keep_mk] | apply Keep.core)

theorem dpFail_keep {s0 s : State} (h : Keep s0 s) (a1) : Keep s0 (@dpFail s a1) := by
  unfold dpFail
  with_reducible repeat' (first | assumption | simp only [keep_mk] | apply Keep.core)

theorem dpFetch_keep (n ecc k) {s0 s : State} (h : Keep s0 s) : Keep s0 (dpFetch n ecc k s) := by
  induction k generalizing s with
  | zero => exact (keep_mk ..).2 h.core
  | succ k ih =>
    simp only [dpFetch]
    split
    · next e => exact ih (dpStep_keep ((keep_mk ..).2 (dpAccess_keep_eq e h).core) _)
    · next e => exact dpFail_keep (dpAccess_keep_eq e h) _

theorem execFabricTransaction_keep (s0 : State) (a0) : KeepOut s0 (@execFabricTransaction a0 s0) := by
  unfold execFabricTransaction
  with_reducible repeat' (first
    | apply KeepOut.next | apply KeepOut.ite | exact Keep.refl _ | apply fabRun_keep | apply emit_keep)

theorem loseLanding_keep {s0 s : State} (h : Keep s0 s) (a1 a2 a3) : Keep s0 (@loseLanding s a1 a2 a3) := by
  unfold loseLanding
  with_reducible repeat' (first | assumption | apply Keep.ite | simp only [keep_mk] | apply Keep.core)

theorem cmdBuffer_keep {s0 s : State} (h : Keep s0 s) (a1 a2) : Keep s0 (@cmdBuffer s a1 a2) := by
  unfold cmdBuffer
  with_reducible repeat' (first | assumption | apply Keep.ite | simp only [keep_mk] | apply Keep.core)

theorem execLinkUpDeclared_keep (s0 : State) (a0) : KeepOut s0 (@execLinkUpDeclared a0 s0) := by
  unfold execLinkUpDeclared
  with_reducible repeat' (first
    | apply KeepOut.next | apply KeepOut.ite | exact Keep.refl _ | apply setNat_keep | apply ptpDecide_keep)

theorem refreshSlots_keep {s0 s : State} (h : Keep s0 s) : Keep s0 (@refreshSlots s) := by
  unfold refreshSlots
  with_reducible repeat' (first | assumption | apply setNat_keep)

theorem stageHit_keep {s0 s : State} (h : Keep s0 s) (a1) : Keep s0 (@stageHit s a1) := by
  unfold stageHit
  with_reducible repeat' (first
    | assumption | apply alarm_keep | apply rejectCommit_keep | apply mirrorSetEnd_keep | apply setSet_keep
    | apply loseLanding_keep | split)

theorem execBankScrubRead_keep (s0 : State) (a0 a1 a2) : KeepOut s0 (@execBankScrubRead a0 a1 a2 s0) := by
  unfold execBankScrubRead
  with_reducible repeat' (first
    | apply KeepOut.next | apply KeepOut.ite | exact Keep.refl _ | apply Keep.ite | apply fabEvent_keep | apply addHold_keep
    | apply draw_keep | apply alarm_keep | apply addWrap_keep | apply stageHit_keep | simp only [keep_mk] | split)

theorem landChecked_keep {s0 s : State} (h : Keep s0 s) (a1) : Keep s0 (@landChecked s a1) := by
  unfold landChecked
  with_reducible repeat' (first
    | assumption | apply Keep.ite | apply flipPages_keep | apply faultLost_keep | apply landCommit_keep | simp only [keep_mk]
    | apply Keep.core)

theorem closeRest_keep {s0 s : State} (h : Keep s0 s) : Keep s0 (@closeRest s) := by
  unfold closeRest
  with_reducible repeat' (first
    | assumption | apply Keep.ite | apply phaseEnd_keep | apply Keep.foldl | simp only [keep_mk] | apply Keep.core
    | (intro _; intros; try dsimp -zeta only))

theorem idleTick_keep {s0 s : State} (h : Keep s0 s) : Keep s0 (@idleTick s) := by
  unfold idleTick
  with_reducible repeat' (first
    | assumption | apply setXp_keep | apply setDest_keep | apply Keep.foldl | simp only [keep_mk]
    | (intro _; intros; try dsimp -zeta only))

theorem handRecords_keep {s0 s : State} (h : Keep s0 s) : Keep s0 (@handRecords s) := by
  unfold handRecords
  with_reducible repeat' (first | assumption | apply benchEvent_keep | simp only [keep_mk] | apply Keep.core)

theorem mirrorRegions_keep {s0 s : State} (h : Keep s0 s) : Keep s0 (@mirrorRegions s) := by
  unfold mirrorRegions
  with_reducible repeat' (first
    | assumption | apply Keep.ite | apply mirror_keep | apply Keep.foldl | simp only [keep_mk]
    | (intro _; intros; try dsimp -zeta only))

theorem mirrorSteps_keep {s0 s : State} (h : Keep s0 s) : Keep s0 (@mirrorSteps s) := by
  unfold mirrorSteps
  with_reducible repeat' (first
    | assumption | apply mirror_keep | apply Keep.foldl | simp only [keep_mk] | apply Keep.core
    | (intro _; intros; try dsimp -zeta only))

theorem countBeats_keep {s0 s : State} (h : Keep s0 s) : Keep s0 (@countBeats s) := by
  unfold countBeats
  with_reducible repeat' (first | assumption | apply Keep.ite | apply onPair_keep | apply addHold_keep | apply syncLag_keep)

theorem pairTickEnd_keep {s0 s : State} (h : Keep s0 s) : Keep s0 (@pairTickEnd s) := by
  unfold pairTickEnd
  with_reducible repeat' (first
    | assumption | apply Keep.ite | apply compareCrcs_keep | apply sendCrcs_keep | apply mirrorRegions_keep
    | apply mirrorSteps_keep | apply keepDigest_keep | apply onPair_keep | apply haltWork_keep | apply countBeats_keep | split)

theorem refreshPmu_keep {s0 s : State} (h : Keep s0 s) (a1) : Keep s0 (@refreshPmu s a1) := by
  unfold refreshPmu
  with_reducible repeat' (first
    | assumption | apply setNat_keep | apply setFlag_keep | apply Keep.forN | (intro _; intros; try dsimp -zeta only))

theorem refreshLine_keep {s0 s : State} (h : Keep s0 s) (a1) : Keep s0 (@refreshLine s a1) := by
  unfold refreshLine
  with_reducible repeat' (first | assumption | apply setNat_keep)

theorem refreshMap_keep {s0 s : State} (h : Keep s0 s) : Keep s0 (@refreshMap s) := by
  unfold refreshMap
  with_reducible repeat' (first | assumption | apply setNat_keep | apply Keep.foldl | (intro _; intros; try dsimp -zeta only))

theorem refreshTick_keep {s0 s : State} (h : Keep s0 s) (a1) : Keep s0 (@refreshTick s a1) := by
  unfold refreshTick
  with_reducible repeat' (first
    | assumption | apply refreshPmu_keep | apply refreshEngine_keep | apply refreshGrant_keep | apply refreshNet_keep
    | apply refreshLine_keep | apply setNat_keep | apply refreshMap_keep | apply refreshSlots_keep | apply setObj_keep
    | apply Keep.foldl | (intro _; intros; try dsimp -zeta only))

theorem endTick_keep {s0 s : State} (h : Keep s0 s) (a1 a2) : Keep s0 (@endTick s a1 a2) := by
  unfold endTick
  with_reducible repeat' (first
    | assumption | apply Keep.ite | apply settle_keep | apply closeRest_keep | apply alarmIf_keep | apply portsSend_keep
    | apply cueTick_keep | apply idleTick_keep | apply endLattice_keep | apply handRecords_keep | apply endBench_keep
    | apply pairTickEnd_keep | apply cycleEvents_keep | apply refreshTick_keep | apply rsvTick_keep | simp only [keep_mk]
    | apply Keep.core)

theorem stepTick_keep {s0 s : State} (h : Keep s0 s) : Keep s0 (@stepTick s) := by
  unfold stepTick
  with_reducible repeat' (first
    | assumption | apply alarm_keep | apply dropOpen_keep | apply voidOut_keep | simp only [keep_mk] | apply Keep.core)

theorem execKeyedRestepTaken_keep (s0 : State) : KeepOut s0 (@execKeyedRestepTaken s0) := by
  unfold execKeyedRestepTaken
  with_reducible repeat' (first
    | apply KeepOut.next | exact Keep.refl _ | apply Keep.ite | apply landChecked_keep | apply keepSnap_keep
    | apply endTick_keep | apply timePass_keep | apply portsSend_keep | apply timeJump_keep | apply setRho_keep
    | apply reportBuild_keep | apply setInt_keep | apply setNat_keep | apply alarm_keep | apply stepTick_keep
    | simp only [keep_mk] | apply Keep.core | split)

theorem setMemWord_keep {s0 s : State} (h : Keep s0 s) (a1 a2) : Keep s0 (@setMemWord s a1 a2) := by
  unfold setMemWord
  with_reducible repeat' (first | assumption | apply setMemBytes_keep)

theorem setRing_keep {s0 s : State} (h : Keep s0 s) (a1 a2) : Keep s0 (@setRing s a1 a2) := by
  unfold setRing
  with_reducible repeat' (first | assumption | simp only [keep_mk] | apply Keep.core)

theorem execTxDescriptorHandover_keep (s0 : State) (a0 a1 a2) : KeepOut s0 (@execTxDescriptorHandover a0 a1 a2 s0) := by
  unfold execTxDescriptorHandover
  with_reducible repeat' (first
    | apply KeepOut.next | apply KeepOut.ite | exact Keep.refl _ | apply setMemWord_keep | apply setRing_keep)

theorem timeFollow_keep {s0 s : State} (h : Keep s0 s) (a1 a2) : Keep s0 (@timeFollow s a1 a2) := by
  unfold timeFollow
  with_reducible repeat' (first
    | assumption | apply Keep.ite | apply setNat_keep | apply alarm_keep | simp only [keep_mk] | apply Keep.core | split)

theorem timeDrive_keep {s0 s : State} (h : Keep s0 s) (a1 a2 a3) : Keep s0 (@timeDrive s a1 a2 a3) := by
  unfold timeDrive
  with_reducible repeat' (first
    | assumption | apply Keep.ite | apply timeSteer_keep | apply setInt_keep | apply timeFollow_keep | apply alarmIf_keep
    | simp only [keep_mk] | apply Keep.core)

theorem execTimeMeasurement_keep (s0 : State) (a0 a1 a2 a3) : KeepOut s0 (@execTimeMeasurement a0 a1 a2 a3 s0) := by
  unfold execTimeMeasurement
  with_reducible repeat' (first
    | apply KeepOut.next | apply KeepOut.ite | exact Keep.refl _ | apply Keep.ite | apply refLost_keep | apply refPhase_keep
    | apply setCand_keep | apply timeDrive_keep | simp only [keep_mk] | split)

theorem fwdWait_keep {s0 s : State} (h : Keep s0 s) (a1 a2) : Keep s0 (@fwdWait s a1 a2) := by
  unfold fwdWait
  with_reducible repeat' (first | assumption | apply Keep.ite | apply alarm_keep | apply portCount_keep | apply setFwd_keep)

theorem dpTake_keep {s0 s : State} (h : Keep s0 s) (a1) : Keep s0 (@dpTake s a1).2 := by
  unfold dpTake
  with_reducible repeat' (first | assumption | apply Keep.ite2 | simp only [keep_mk] | apply Keep.core)

theorem dpTake_keep_eq {s0 s t : State} {a1} {x0} (e : @dpTake s a1 = (x0, t)) (h : Keep s0 s) : Keep s0 t := by
  have k := dpTake_keep h a1
  rw [e] at k
  exact k

theorem hpReads_keep (a n) {s0 s : State} (h : Keep s0 s) : Keep s0 (hpReads a n s).2 := by
  induction n generalizing s a with
  | zero => exact h
  | succ n ih =>
    simp only [hpReads]
    refine ih _ ?_
    split
    · exact dpTake_keep h 4
    · exact h
theorem hpReads_keep_eq {s0 s t : State} {a0 a1} {x0} (e : hpReads a0 a1 s = (x0, t)) (h : Keep s0 s) : Keep s0 t := by
  have k := hpReads_keep a0 a1 h
  rw [e] at k
  exact k

theorem execMboxWrite_keep (s0 : State) (a0) : KeepOut s0 (@execMboxWrite a0 s0) := by
  unfold execMboxWrite
  with_reducible repeat' (first
    | apply KeepOut.next | exact Keep.refl _ | apply Keep.ite | apply takeInbox_keep | apply acceptOne_keep
    | apply refusalAlarm_keep | simp only [keep_mk] | apply Keep.core | split)

theorem execRemap_keep (s0 : State) (a0) : KeepOut s0 (@execRemap a0 s0) := by
  unfold execRemap
  with_reducible repeat' (first | apply KeepOut.next | exact Keep.refl _ | apply writeFabCtl_keep)

theorem landIdle_keep {s0 s : State} (h : Keep s0 s) : Keep s0 (@landIdle s) := by
  unfold landIdle
  with_reducible repeat' (first
    | assumption | apply landQuiet_keep | apply classSteps_keep | apply flipPages_keep | apply synSettle_keep
    | apply trigSettle_keep | apply landWrites_keep)

theorem execTrigEdge_keep (s0 : State) (a0) : KeepOut s0 (@execTrigEdge a0 s0) := by
  unfold execTrigEdge
  with_reducible repeat' (first
    | apply KeepOut.next | exact Keep.refl _ | apply trigSettle_keep | apply trigFire_keep | simp only [keep_mk] | split)

theorem heldStep_keep {s0 s : State} (h : Keep s0 s) : Keep s0 (@heldStep s) := by
  unfold heldStep
  with_reducible repeat' (first | assumption | apply Keep.ite | apply takeFirst_keep | apply dropOpen_keep | split)

theorem execTrigPulseEnd_keep (s0 : State) (a0) : KeepOut s0 (@execTrigPulseEnd a0 s0) := by
  unfold execTrigPulseEnd
  with_reducible repeat' (first
    | apply KeepOut.next | exact Keep.refl _ | apply Keep.ite | apply setTrig_keep | apply emit_keep | apply trigRests_keep
    | simp only [keep_mk] | split)

theorem dpControl_keep {s0 s : State} (h : Keep s0 s) (a1 a2) : Keep s0 (@dpControl s a1 a2) := by
  unfold dpControl
  with_reducible repeat' (first | assumption | apply Keep.ite | apply dpFetch_keep | simp only [keep_mk] | apply Keep.core)

theorem execHpDpStart_keep (s0 : State) (a0 a1) : KeepOut s0 (@execHpDpStart a0 a1 s0) := by
  unfold execHpDpStart
  with_reducible repeat' (first | apply KeepOut.next | exact Keep.refl _ | apply dpControl_keep)

theorem dpDrain_keep (n ecc k) {s0 s : State} (h : Keep s0 s) : Keep s0 (dpDrain n ecc k s) := by
  induction k generalizing s with
  | zero => exact h
  | succ k ih =>
    simp only [dpDrain]
    split
    · exact h
    · split
      · next e => exact ih (dpStep_keep ((keep_mk ..).2 (dpAccess_keep_eq e h).core) _)
      · next e => exact dpFail_keep (dpAccess_keep_eq e h) _

theorem dpWrite_keep {s0 s : State} (h : Keep s0 s) (a1 a2) : Keep s0 (@dpWrite s a1 a2) := by
  unfold dpWrite
  with_reducible repeat' (first | assumption | apply Keep.ite | apply dpDrain_keep | simp only [keep_mk] | apply Keep.core)

theorem execHpDpdataWrite_keep (s0 : State) (a0 a1) : KeepOut s0 (@execHpDpdataWrite a0 a1 s0) := by
  unfold execHpDpdataWrite
  with_reducible repeat' (first | apply KeepOut.next | exact Keep.refl _ | apply dpWrite_keep)

theorem writeTime_keep {s0 s : State} (h : Keep s0 s) (a1 a2) : Keep s0 (@writeTime s a1 a2) := by
  unfold writeTime
  with_reducible repeat' (first | assumption | apply setMemWord_keep)

theorem releaseDesc_keep {s0 s : State} (h : Keep s0 s) (a1 a2 a3) : Keep s0 (@releaseDesc s a1 a2 a3) := by
  unfold releaseDesc
  with_reducible repeat' (first | assumption | apply Keep.ite | apply setMemWord_keep | simp only [keep_mk] | apply Keep.core)

theorem deliverRing_keep {s0 s : State} (h : Keep s0 s) (a1 a2 a3 a4 a5) : Keep s0 (@deliverRing s a1 a2 a3 a4 a5) := by
  unfold deliverRing
  with_reducible repeat' (first
    | assumption | apply Keep.ite | apply setMemBytes_keep | apply setMemWord_keep | apply writeTime_keep
    | apply releaseDesc_keep | apply netEvent_keep)

theorem clearTime_keep {s0 s : State} (h : Keep s0 s) (a1) : Keep s0 (@clearTime s a1) := by
  unfold clearTime
  with_reducible repeat' (first | assumption | apply setMemWord_keep)

theorem cmdControl_keep {s0 s : State} (h : Keep s0 s) (a1) : Keep s0 (@cmdControl s a1) := by
  unfold cmdControl
  with_reducible repeat' (first
    | assumption | apply Keep.ite | apply cmdSubmit_keep | apply bootDescriptor_keep | simp only [keep_mk] | apply Keep.core)

theorem stoppedBoundary_keep {s0 s : State} (h : Keep s0 s) : Keep s0 (@stoppedBoundary s) := by
  unfold stoppedBoundary
  with_reducible repeat' (first
    | assumption | apply synDivide_keep | apply synBoundary_keep | apply ptpTurn_keep | apply ownQuality_keep)

theorem rebaseWrites_keep {s0 s : State} (h : Keep s0 s) (a1 a2) : Keep s0 (@rebaseWrites s a1 a2) := by
  unfold rebaseWrites
  with_reducible repeat' (first | assumption | simp only [keep_mk] | apply Keep.core)

theorem applyGrid_keep {s0 s : State} (h : Keep s0 s) : Keep s0 (@applyGrid s) := by
  unfold applyGrid
  with_reducible repeat' (first
    | assumption | apply voidOut_keep | apply gridValue_keep | apply dropTakes_keep | apply completeMoves_keep
    | apply applyPlan_keep | apply resetClockOuts_keep | apply synDivide_keep | apply houseFamily_keep
    | apply trigSuspend_keep | apply netRestart_keep | apply setNat_keep | apply refreshNet_keep | simp only [keep_mk]
    | apply Keep.core)

theorem idleBoundary_keep {s0 s : State} (h : Keep s0 s) (a1) : Keep s0 (@idleBoundary s a1) := by
  unfold idleBoundary
  with_reducible repeat' (first
    | assumption | apply portsTick_keep | apply dropLate_keep | apply chainTurn_keep | apply pairTickBegin_keep
    | apply ptpTurn_keep | apply ownQuality_keep | apply landIdle_keep | apply synBoundary_keep | apply countBeats_keep
    | simp only [keep_mk] | apply Keep.core)

theorem fadeInFrom_keep {s0 s : State} (h : Keep s0 s) (a1) : Keep s0 (@fadeInFrom s a1) := by
  unfold fadeInFrom
  with_reducible repeat' (first | assumption | simp only [keep_mk] | apply Keep.core)

theorem crossBoundary_keep {s0 s : State} (h : Keep s0 s) (a1 a2) : Keep s0 (@crossBoundary s a1 a2) := by
  unfold crossBoundary
  with_reducible repeat' (first
    | assumption | apply Keep.ite | apply rebaseWrites_keep | apply stepTick_keep | apply keepSnap_keep | apply applyGrid_keep
    | apply serveNext_keep | apply idleBoundary_keep | apply fadeInFrom_keep | apply landChecked_keep | apply beginTick_keep
    | simp only [keep_mk] | apply Keep.core | split)

theorem execTickBoundary_keep (s0 : State) (a0) : KeepOut s0 (@execTickBoundary a0 s0) := by
  unfold execTickBoundary
  with_reducible repeat' (first
    | apply KeepOut.next | exact Keep.refl _ | apply Keep.ite | apply stoppedBoundary_keep | apply timePass_keep
    | apply endTick_keep | apply portsSend_keep | apply heldStep_keep | apply crossBoundary_keep)

theorem takePacket_keep {s0 s : State} (h : Keep s0 s) (a1 a2 a3 a4) : Keep s0 (@takePacket s a1 a2 a3 a4) := by
  unfold takePacket
  with_reducible repeat' (first
    | assumption | apply Keep.ite | apply setNat_keep | apply placePacket_keep | apply netEvent_keep | apply alarm_keep
    | apply rxStat_keep)

theorem execChainForward_keep (s0 : State) (a0 a1 a2 a3) : KeepOut s0 (@execChainForward a0 a1 a2 a3 s0) := by
  unfold execChainForward
  with_reducible repeat' (first
    | apply KeepOut.next | apply KeepOut.ite | exact Keep.refl _ | apply Keep.ite | apply portCount_keep | apply alarm_keep
    | apply fwdTurn_keep | apply fwdWait_keep | apply fwdSend_keep)

theorem execPtpAnnounceTimeout_keep (s0 : State) (a0 a1) : KeepOut s0 (@execPtpAnnounceTimeout a0 a1 s0) := by
  unfold execPtpAnnounceTimeout
  with_reducible repeat' (first
    | apply KeepOut.next | apply KeepOut.ite | exact Keep.refl _ | apply alarmIf_keep | apply ptpLegLost_keep)

theorem dropStream_keep {s0 s : State} (h : Keep s0 s) (a1) : Keep s0 (@dropStream s a1) := by
  unfold dropStream
  with_reducible repeat' (first | assumption | simp only [keep_mk] | apply Keep.core | split)

theorem execMasterReset_keep (s0 : State) (a0 a1) : KeepOut s0 (@execMasterReset a0 a1 s0) := by
  unfold execMasterReset
  with_reducible repeat' (first
    | apply KeepOut.next | exact Keep.refl _ | apply Keep.ite | apply fabEvent_keep | apply addHold_keep
    | apply dropStream_keep)

theorem execSequencerRestart_keep (s0 : State) (a0) : KeepOut s0 (@execSequencerRestart a0 s0) := by
  unfold execSequencerRestart
  with_reducible repeat' (first
    | apply KeepOut.next | assumption | exact Keep.refl _ | apply Keep.ite | apply timePass_keep | apply fadeInFrom_keep
    | apply rebaseWrites_keep | apply rejectOpen_keep | apply serveNext_keep | apply checkImage_keep | apply beginTick_keep
    | apply Keep.foldl | simp only [keep_mk] | apply Keep.core | (intro _; intros; try dsimp -zeta only))

theorem advanceRing_keep {s0 s : State} (h : Keep s0 s) (a1 a2) : Keep s0 (@advanceRing s a1 a2) := by
  unfold advanceRing
  with_reducible repeat' (first | assumption | apply setRing_keep)

theorem finishDesc_keep {s0 s : State} (h : Keep s0 s) (a1 a2 a3) : Keep s0 (@finishDesc s a1 a2 a3) := by
  unfold finishDesc
  with_reducible repeat' (first | assumption | apply releaseDesc_keep | apply setMemWord_keep | apply advanceRing_keep)

theorem sendDesc_keep {s0 s : State} (h : Keep s0 s) (a1 a2) : Keep s0 (@sendDesc s a1 a2) := by
  unfold sendDesc
  with_reducible repeat' (first
    | assumption | apply Keep.ite | apply emit_keep | apply portCount_keep | apply netEvent_keep | apply writeTime_keep
    | apply clearTime_keep)

theorem execRingFrameSent_keep (s0 : State) (a0 a1) : KeepOut s0 (execRingFrameSent a0 a1 s0) := by
  unfold execRingFrameSent
  refine KeepOut.ite (Keep.refl _) ?_
  lift_lets
  intro i r d p s
  have k : Keep s0 s := fwdTurn_keep (Keep.refl _) _
  clear_value s
  intro len
  with_reducible repeat' (first
    | assumption | apply KeepOut.ite | apply KeepOut.next | apply finishDesc_keep | apply clearTime_keep | apply portCount_keep
    | apply sendDesc_keep)

theorem hpWrite_keep {s0 s : State} (h : Keep s0 s) (a1 a2) : Keep s0 (@hpWrite s a1 a2) := by
  unfold hpWrite
  with_reducible repeat' (first
    | assumption | apply Keep.ite | apply cmdControl_keep | apply rspPop_keep | apply dpControl_keep | apply dpWrite_keep
    | apply cmdBuffer_keep | simp only [keep_mk] | apply Keep.core)

theorem hpWrites_keep (a n b) {s0 s : State} (h : Keep s0 s) : Keep s0 (hpWrites a n b s) := by
  induction n generalizing s a b with
  | zero => exact h
  | succ n ih => exact ih _ _ (hpWrite_keep h _ _)

theorem hostBus_keep {s0 s : State} (h : Keep s0 s) (a1 a2 a3 a4 a5) : Keep s0 (@hostBus s a1 a2 a3 a4 a5) := by
  unfold hostBus
  with_reducible repeat' (first
    | assumption | apply Keep.ite | apply dpTake_keep | apply hpReads_keep | apply emit_keep | apply dpWrite_keep
    | apply hpWrites_keep | simp only [keep_mk] | split)

theorem execRegisterWrite_keep (s0 : State) (a0 a1) : KeepOut s0 (@execRegisterWrite a0 a1 s0) := by
  unfold execRegisterWrite
  with_reducible repeat' (first
    | apply KeepOut.next | exact Keep.refl _ | apply Keep.ite | apply hpWrite_keep | apply hostBus_keep | apply portWrite_keep
    | apply writeFabCtl_keep | apply benchWrite_keep | apply selectorWrite_keep | split)

theorem execStreamPacketReceived_keep (s0 : State) (a0 a1) : KeepOut s0 (@execStreamPacketReceived a0 a1 s0) := by
  unfold execStreamPacketReceived
  with_reducible repeat' (first
    | apply KeepOut.next | apply KeepOut.ite | assumption | exact Keep.refl _ | apply Keep.ite | apply portCount_keep
    | apply takePacket_keep | apply Keep.foldl | simp only [keep_mk] | apply Keep.core
    | (intro _; intros; try dsimp -zeta only))

theorem ringTake_keep {s0 s : State} (h : Keep s0 s) (a1 a2 a3 a4 a5) : Keep s0 (@ringTake s a1 a2 a3 a4 a5) := by
  unfold ringTake
  with_reducible repeat' (first
    | assumption | apply Keep.ite | apply alarm_keep | apply portCount_keep | apply advanceRing_keep | apply deliverRing_keep
    | simp only [keep_mk] | split)

theorem execRingFrameReceived_keep (s0 : State) (a0 a1 a2 a3 a4) : KeepOut s0 (@execRingFrameReceived a0 a1 a2 a3 a4 s0) := by
  unfold execRingFrameReceived
  with_reducible repeat' (first
    | apply KeepOut.next | apply KeepOut.ite | exact Keep.refl _ | apply portCount_keep | apply ringTake_keep | split)

theorem execMediaArpRequest_keep (s0 : State) (a0 a1) : KeepOut s0 (@execMediaArpRequest a0 a1 s0) := by
  unfold execMediaArpRequest
  with_reducible repeat' (first | apply KeepOut.next | apply KeepOut.ite | exact Keep.refl _ | apply sendCtl_keep)

theorem execIgmpRepeat_keep (s0 : State) (a0 a1) : KeepOut s0 (@execIgmpRepeat a0 a1 s0) := by
  unfold execIgmpRepeat
  with_reducible repeat' (first
    | apply KeepOut.next | apply KeepOut.ite | exact Keep.refl _ | apply Keep.ite | apply reportGroups_keep | apply setRx_keep
    | simp only [keep_mk] | apply Keep.core)

theorem execLinkDownDeclared_keep (s0 : State) (a0) : KeepOut s0 (@execLinkDownDeclared a0 s0) := by
  unfold execLinkDownDeclared
  with_reducible repeat' (first | apply KeepOut.next | exact Keep.refl _ | apply downLink_keep)

theorem execLegDown_keep (s0 : State) (a0 a1) : KeepOut s0 (@execLegDown a0 a1 s0) := by
  unfold execLegDown
  with_reducible repeat' (first
    | apply KeepOut.next | apply KeepOut.ite | exact Keep.refl _ | apply alarm_keep | apply setNat_keep)

theorem execTimeFirstStep_keep (s0 : State) : KeepOut s0 (@execTimeFirstStep s0) := by
  unfold execTimeFirstStep
  with_reducible repeat' (first
    | apply KeepOut.next | apply KeepOut.ite | exact Keep.refl _ | apply takeFirst_keep | apply dropOpen_keep
    | simp only [keep_mk] | apply Keep.core | split)

theorem execPtpSyncReceived_keep (s0 : State) (a0 a1 a2 a3 a4 a5) : KeepOut s0 (@execPtpSyncReceived a0 a1 a2 a3 a4 a5 s0) := by
  unfold execPtpSyncReceived
  with_reducible repeat' (first
    | apply KeepOut.next | apply KeepOut.ite | exact Keep.refl _ | apply setNat_keep | apply setInt_keep | apply setPtp_keep
    | apply refPhase_keep)

theorem execPtpAnnounceReceived_keep (s0 : State) (a0 a1 a2) : KeepOut s0 (@execPtpAnnounceReceived a0 a1 a2 s0) := by
  unfold execPtpAnnounceReceived
  with_reducible repeat' (first
    | apply KeepOut.next | apply KeepOut.ite | exact Keep.refl _ | apply ptpDecide_keep | apply setObj_keep | split)

theorem execCaptEdgeStamp_keep (s0 : State) (a0 a1 a2) : KeepOut s0 (@execCaptEdgeStamp a0 a1 a2 s0) := by
  unfold execCaptEdgeStamp
  with_reducible repeat' (first
    | apply KeepOut.next | apply KeepOut.ite | exact Keep.refl _ | apply alarmIf_keep | apply addHold_keep | apply setNat_keep
    | apply setObj_keep | apply addWrap_keep | simp only [keep_mk] | apply Keep.core)

theorem execLock_keep (s0 : State) : KeepOut s0 (@execLock s0) := by
  unfold execLock
  with_reducible repeat' (first | apply KeepOut.next | exact Keep.refl _ | apply writeFabCtl_keep)

theorem streamLink_keep {s0 s : State} (h : Keep s0 s) (a1 a2 a3) : Keep s0 (@streamLink s a1 a2 a3) := by
  unfold streamLink
  with_reducible repeat' (first
    | assumption | apply Keep.ite | apply wordEcc_keep | apply fabError_keep | apply Keep.foldl | simp only [keep_mk]
    | (intro _; intros; try dsimp -zeta only))

theorem streamReads_keep {s0 s : State} (h : Keep s0 s) (a1 a2 a3) : Keep s0 (@streamReads s a1 a2 a3) := by
  unfold streamReads
  with_reducible repeat' (first
    | assumption | apply Keep.ite | apply fixWord_keep | apply countCorrected_keep | apply fabError_keep | apply Keep.foldl
    | (intro _; intros; try dsimp -zeta only))

theorem execDelayStream_keep (s0 : State) (a0 a1 a2) : KeepOut s0 (@execDelayStream a0 a1 a2 s0) := by
  unfold execDelayStream
  with_reducible repeat' (first
    | apply KeepOut.next | apply KeepOut.ite | assumption | exact Keep.refl _ | apply streamLine_keep | apply streamLink_keep
    | apply streamReads_keep | apply Keep.foldl | simp only [keep_mk] | apply Keep.core
    | (intro _; intros; try dsimp -zeta only))

end Sys2Proof.Machine
end

