-- ==== Sys2Proof/Laws/KeepSlots.lean ====
section
/-! SUPPORT. `Keep` for every operation and command of Clock, EngineAlu, EngineMac, EngineMove, Pair, Ports. -/

namespace Sys2Proof.Machine

set_option linter.unusedVariables false
set_option linter.unusedSimpArgs false

theorem aesStatus_keep {s0 s : State} (h : Keep s0 s) (a1 a2 a3) : Keep s0 (@aesStatus s a1 a2 a3) := by
  unfold aesStatus
  with_reducible repeat' (first
    | assumption | apply Keep.ite | apply addHold_keep | apply setNat_keep | apply setAes_keep | apply Keep.foldl
    | (intro _; intros; try dsimp -zeta only))

theorem macSum_keep {s0 s : State} (h : Keep s0 s) (a0 a1 a2 a3 a4 a5 a6 a7) : Keep s0 (@macSum a0 a1 a2 a3 a4 a5 a6 a7 s) := by
  unfold macSum
  with_reducible repeat' (first | assumption | apply issueSlot_keep)

theorem execDot2_keep (s0 : State) (a0 a1 a2 a3 a4 a5 a6) : KeepOut s0 (@execDot2 a0 a1 a2 a3 a4 a5 a6 s0) := by
  unfold execDot2
  with_reducible repeat' (first | apply KeepOut.next | exact Keep.refl _ | apply macSum_keep)

theorem reportSlip_keep {s0 s : State} (h : Keep s0 s) (a1 a2) : Keep s0 (@reportSlip s a1 a2) := by
  unfold reportSlip
  with_reducible repeat' (first | assumption | apply Keep.ite | apply alarm_keep | apply addHold_keep)

theorem slipAsrc_keep {s0 s : State} (h : Keep s0 s) (a1 a2) : Keep s0 (@slipAsrc s a1 a2) := by
  unfold slipAsrc
  with_reducible repeat' (first
    | assumption | apply Keep.ite | apply setDir_keep | apply reportSlip_keep | simp only [keep_mk] | split)

theorem slipElastic_keep {s0 s : State} (h : Keep s0 s) (a1 a2) : Keep s0 (@slipElastic s a1 a2) := by
  unfold slipElastic
  with_reducible repeat' (first | assumption | apply Keep.ite | apply setDir_keep | apply reportSlip_keep)

theorem slipBuffer_keep {s0 s : State} (h : Keep s0 s) (a1 a2) : Keep s0 (@slipBuffer s a1 a2) := by
  unfold slipBuffer
  with_reducible repeat' (first | assumption | apply slipAsrc_keep | apply slipElastic_keep | split)

theorem execAsrcUnderrun_keep (s0 : State) (a0) : KeepOut s0 (@execAsrcUnderrun a0 s0) := by
  unfold execAsrcUnderrun
  with_reducible repeat' (first | apply KeepOut.next | exact Keep.refl _ | apply slipBuffer_keep)

theorem centreAes_keep {s0 s : State} (h : Keep s0 s) (a1) : Keep s0 (@centreAes s a1) := by
  unfold centreAes
  with_reducible repeat' (first | assumption | apply Keep.ite | apply setDir_keep)

theorem execAesCsBlock_keep (s0 : State) (a0 a1 a2 a3) : KeepOut s0 (@execAesCsBlock a0 a1 a2 a3 s0) := by
  unfold execAesCsBlock
  with_reducible repeat' (first
    | apply KeepOut.next | apply KeepOut.ite | exact Keep.refl _ | apply Keep.ite | apply setAes_keep | apply centreAes_keep
    | apply aesStatus_keep | apply applyStatus_keep)

theorem execUnrusRetransmit_keep (s0 : State) : KeepOut s0 (@execUnrusRetransmit s0) := by
  unfold execUnrusRetransmit
  with_reducible repeat' (first
    | apply KeepOut.next | assumption | exact Keep.refl _ | apply Keep.ite | apply emit_keep | apply onPair_keep
    | apply Keep.foldl | (intro _; intros; try dsimp -zeta only))

theorem execSwapIntervalExpiry_keep (s0 : State) : KeepOut s0 (@execSwapIntervalExpiry s0) := by
  unfold execSwapIntervalExpiry
  with_reducible repeat' (first
    | apply KeepOut.next | exact Keep.refl _ | apply Keep.ite | apply alarm_keep | apply onPair_keep)

theorem execUnrusLaneFailure_keep (s0 : State) (a0) : KeepOut s0 (@execUnrusLaneFailure a0 s0) := by
  unfold execUnrusLaneFailure
  with_reducible repeat' (first | apply KeepOut.next | exact Keep.refl _ | apply Keep.ite | apply onPair_keep)

theorem execDpy2_keep (s0 : State) (a0 a1 a2 a3 a4 a5 a6) : KeepOut s0 (@execDpy2 a0 a1 a2 a3 a4 a5 a6 s0) := by
  unfold execDpy2
  with_reducible repeat' (first | apply KeepOut.next | exact Keep.refl _ | apply macSum_keep)

theorem stampFrame_keep {s0 s : State} (h : Keep s0 s) (a1 a2) : Keep s0 (@stampFrame s a1 a2) := by
  unfold stampFrame
  with_reducible repeat' (first | assumption | apply setDir_keep)

theorem steerNco_keep {s0 s : State} (h : Keep s0 s) (a1 a2) : Keep s0 (@steerNco s a1 a2) := by
  unfold steerNco
  with_reducible repeat' (first | assumption | apply Keep.ite | apply setNat_keep | apply setInt_keep | apply alarmIf_keep)

theorem sendBefore_keep {s0 s : State} (h : Keep s0 s) (a1 a2) : Keep s0 (@sendBefore s a1 a2) := by
  unfold sendBefore
  with_reducible repeat' (first
    | assumption | apply clockOut_keep | apply Keep.forN | (intro _; intros; try dsimp -zeta only))

theorem slipDir_keep {s0 s : State} (h : Keep s0 s) (a1 a2) : Keep s0 (@slipDir s a1 a2) := by
  unfold slipDir
  with_reducible repeat' (first
    | assumption | apply Keep.ite | apply sendBefore_keep | apply outOfService_keep | apply setDir_keep | apply alarm_keep
    | apply addHold_keep)

theorem reacquire_keep {s0 s : State} (h : Keep s0 s) (a1) : Keep s0 (@reacquire s a1) := by
  unfold reacquire
  with_reducible repeat' (first
    | assumption | apply setNat_keep | apply setDir_keep | apply Keep.foldl | (intro _; intros; try dsimp -zeta only))

theorem clockBack_keep {s0 s : State} (h : Keep s0 s) (a1) : Keep s0 (@clockBack s a1) := by
  unfold clockBack
  with_reducible repeat' (first | assumption | apply Keep.ite | apply setDir_keep | apply reacquire_keep)

theorem notePhase_keep {s0 s : State} (h : Keep s0 s) (a1 a2) : Keep s0 (@notePhase s a1 a2) := by
  unfold notePhase
  with_reducible repeat' (first | assumption | apply setInt_keep)

theorem goodFrame_keep {s0 s : State} (h : Keep s0 s) (a1 a2) : Keep s0 (@goodFrame s a1 a2) := by
  unfold goodFrame
  with_reducible repeat' (first
    | assumption | apply Keep.ite | apply clockBack_keep | apply notePhase_keep | apply setDir_keep)

theorem rxFrame_keep {s0 s : State} (h : Keep s0 s) (a1 a2) : Keep s0 (@rxFrame s a1 a2) := by
  unfold rxFrame
  with_reducible repeat' (first
    | assumption | apply Keep.ite | apply stampFrame_keep | apply steerNco_keep | apply badFrame_keep | apply slipDir_keep
    | apply goodFrame_keep)

theorem execPortFadeEnd_keep (s0 : State) (a0) : KeepOut s0 (@execPortFadeEnd a0 s0) := by
  unfold execPortFadeEnd
  with_reducible repeat' (first
    | apply KeepOut.next | apply KeepOut.ite | assumption | exact Keep.refl _ | apply Keep.ite | apply stopDir_keep
    | apply startDir_keep | apply setDir_keep | apply freeAsrc_keep | apply Keep.foldl
    | (intro _; intros; try dsimp -zeta only))

theorem execLsl_keep (s0 : State) (a0 a1 a2 a3) : KeepOut s0 (@execLsl a0 a1 a2 a3 s0) := by
  unfold execLsl
  with_reducible repeat' (first | apply KeepOut.next | exact Keep.refl _ | apply issueSlot_keep)

theorem execSub_keep (s0 : State) (a0 a1 a2 a3) : KeepOut s0 (@execSub a0 a1 a2 a3 s0) := by
  unfold execSub
  with_reducible repeat' (first | apply KeepOut.next | exact Keep.refl _ | apply issueSlot_keep)

theorem execXorOp_keep (s0 : State) (a0 a1 a2 a3) : KeepOut s0 (@execXorOp a0 a1 a2 a3 s0) := by
  unfold execXorOp
  with_reducible repeat' (first | apply KeepOut.next | exact Keep.refl _ | apply issueSlot_keep)

theorem aesPush_keep {s0 s : State} (h : Keep s0 s) (a1 a2 a3) : Keep s0 (@aesPush s a1 a2 a3) := by
  unfold aesPush
  with_reducible repeat' (first | assumption | apply setDir_keep | simp only [keep_mk] | split)

theorem aesLost_keep {s0 s : State} (h : Keep s0 s) (a1) : Keep s0 (@aesLost s a1) := by
  unfold aesLost
  with_reducible repeat' (first | assumption | apply Keep.ite | apply alarm_keep | apply refLost_keep)

theorem aesBad_keep {s0 s : State} (h : Keep s0 s) (a1 a2) : Keep s0 (@aesBad s a1 a2) := by
  unfold aesBad
  with_reducible repeat' (first
    | assumption | apply Keep.ite | apply addHold_keep | apply outOfService_keep | apply setAes_keep | apply aesPush_keep
    | apply setDir_keep | apply aesLost_keep)

theorem aesUser_keep {s0 s : State} (h : Keep s0 s) (a1 a2) : Keep s0 (@aesUser s a1 a2) := by
  unfold aesUser
  with_reducible repeat' (first
    | assumption | apply Keep.ite | apply setAes_keep | apply setNat_keep | apply Keep.foldl | simp only [keep_mk]
    | (intro _; intros; try dsimp -zeta only))

theorem markPa_keep {s0 s : State} (h : Keep s0 s) (a1) : Keep s0 (@markPa s a1) := by
  unfold markPa
  with_reducible repeat' (first | assumption | apply setDir_keep | simp only [keep_mk] | split)

theorem aesNpcmTest_keep {s0 s : State} (h : Keep s0 s) (a1 a2) : Keep s0 (@aesNpcmTest s a1 a2) := by
  unfold aesNpcmTest
  with_reducible repeat' (first | assumption | apply Keep.ite | apply setAes_keep | apply toNonPcm_keep | apply markPa_keep)

theorem execAesSubframeReceived_keep (s0 : State) (a0 a1) : KeepOut s0 (@execAesSubframeReceived a0 a1 s0) := by
  unfold execAesSubframeReceived
  with_reducible repeat' (first
    | apply KeepOut.next | apply KeepOut.ite | exact Keep.refl _ | apply Keep.ite | apply stampFrame_keep | apply aesBad_keep
    | apply setNat_keep | apply aesUser_keep | apply aesNpcmTest_keep | apply clockBack_keep | apply aesPush_keep
    | apply setDir_keep)

theorem execSubs_keep (s0 : State) (a0 a1 a2 a3) : KeepOut s0 (@execSubs a0 a1 a2 a3 s0) := by
  unfold execSubs
  with_reducible repeat' (first | apply KeepOut.next | exact Keep.refl _ | apply issueSlot_keep)

theorem execMirrorSetEnd_keep (s0 : State) (a0 a1 a2 a3 a4) : KeepOut s0 (@execMirrorSetEnd a0 a1 a2 a3 a4 s0) := by
  unfold execMirrorSetEnd
  with_reducible repeat' (first | apply KeepOut.next | exact Keep.refl _ | apply receiveRecord_keep)

theorem execNotOp_keep (s0 : State) (a0 a1 a2) : KeepOut s0 (@execNotOp a0 a1 a2 s0) := by
  unfold execNotOp
  with_reducible repeat' (first | apply KeepOut.next | exact Keep.refl _ | apply issueSlot_keep)

theorem txFrame_keep {s0 s : State} (h : Keep s0 s) (a1 a2) : Keep s0 (@txFrame s a1 a2) := by
  unfold txFrame
  with_reducible repeat' (first
    | assumption | apply Keep.ite | apply slipDir_keep | apply notePhase_keep | apply setDir_keep | apply clockOut_keep
    | apply steerNco_keep)

theorem macTwo_keep {s0 s : State} (h : Keep s0 s) (a0 a1 a2 a3 a4 a5 a6 a7 a8) :
    Keep s0 (@macTwo a0 a1 a2 a3 a4 a5 a6 a7 a8 s) := by
  unfold macTwo
  with_reducible repeat' (first | assumption | apply Keep.ite | apply macSum_keep | apply issueSlot_keep)

theorem execMsu2_keep (s0 : State) (a0 a1 a2 a3 a4 a5 a6 a7) : KeepOut s0 (@execMsu2 a0 a1 a2 a3 a4 a5 a6 a7 s0) := by
  unfold execMsu2
  with_reducible repeat' (first | apply KeepOut.next | exact Keep.refl _ | apply macTwo_keep)

theorem trackRatio_keep {s0 s : State} (h : Keep s0 s) (a1 a2) : Keep s0 (@trackRatio s a1 a2) := by
  unfold trackRatio
  with_reducible repeat' (first
    | assumption | apply Keep.ite | apply setNat_keep | apply syncDir_keep | apply Keep.foldl
    | (intro _; intros; try dsimp -zeta only))

theorem execRateWindow_keep (s0 : State) (a0 a1) : KeepOut s0 (@execRateWindow a0 a1 s0) := by
  unfold execRateWindow
  with_reducible repeat' (first
    | apply KeepOut.next | apply KeepOut.ite | exact Keep.refl _ | apply Keep.ite | apply trackRatio_keep | apply setNat_keep
    | apply reacquire_keep | apply setDir_keep | apply outOfService_keep | apply alarm_keep)

theorem execMirrorDigestComplete_keep (s0 : State) : KeepOut s0 (@execMirrorDigestComplete s0) := by
  unfold execMirrorDigestComplete
  with_reducible repeat' (first
    | apply KeepOut.next | exact Keep.refl _ | apply Keep.ite | apply onPair_keep | apply setNat_keep | apply setObj_keep
    | apply sendFrame_keep | apply compareDigest_keep | simp only [keep_mk] | split)

theorem execDirectionReturn_keep (s0 : State) (a0) : KeepOut s0 (@execDirectionReturn a0 s0) := by
  unfold execDirectionReturn
  with_reducible repeat' (first | apply KeepOut.next | apply KeepOut.ite | exact Keep.refl _ | apply setDir_keep)

theorem execWitnessTimeout_keep (s0 : State) (a0) : KeepOut s0 (@execWitnessTimeout a0 s0) := by
  unfold execWitnessTimeout
  with_reducible repeat' (first
    | apply KeepOut.next | exact Keep.refl _ | apply alarmIf_keep | apply onPair_keep | simp only [keep_mk] | split)

theorem macComplex_keep {s0 s : State} (h : Keep s0 s) (a0 a1 a2 a3 a4 a5) : Keep s0 (@macComplex a0 a1 a2 a3 a4 a5 s) := by
  unfold macComplex
  with_reducible repeat' (first | assumption | apply issueSlot_keep)

theorem execCmac_keep (s0 : State) (a0 a1 a2 a3) : KeepOut s0 (@execCmac a0 a1 a2 a3 s0) := by
  unfold execCmac
  with_reducible repeat' (first | apply KeepOut.next | exact Keep.refl _ | apply macComplex_keep)

theorem execAsrcOverrun_keep (s0 : State) (a0) : KeepOut s0 (@execAsrcOverrun a0 s0) := by
  unfold execAsrcOverrun
  with_reducible repeat' (first | apply KeepOut.next | exact Keep.refl _ | apply slipBuffer_keep)

theorem syncAct_keep {s0 s : State} (h : Keep s0 s) (a0 a1) : Keep s0 (@syncAct a0 a1 s) := by
  unfold syncAct
  with_reducible repeat' (first
    | assumption | apply syncDivider_keep | apply setObj_keep | apply Keep.foldl | (intro _; intros; try dsimp -zeta only))

theorem execNegOp_keep (s0 : State) (a0 a1 a2) : KeepOut s0 (@execNegOp a0 a1 a2 s0) := by
  unfold execNegOp
  with_reducible repeat' (first | apply KeepOut.next | exact Keep.refl _ | apply issueSlot_keep)

theorem execTdmFsTimeout_keep (s0 : State) (a0 a1) : KeepOut s0 (@execTdmFsTimeout a0 a1 s0) := by
  unfold execTdmFsTimeout
  with_reducible repeat' (first
    | apply KeepOut.next | apply KeepOut.ite | exact Keep.refl _ | apply Keep.ite | apply outOfService_keep
    | apply setDir_keep | apply alarm_keep)

theorem execAbsOp_keep (s0 : State) (a0 a1 a2) : KeepOut s0 (@execAbsOp a0 a1 a2 s0) := by
  unfold execAbsOp
  with_reducible repeat' (first | apply KeepOut.next | exact Keep.refl _ | apply issueSlot_keep)

theorem execWitnessClaim_keep (s0 : State) : KeepOut s0 (@execWitnessClaim s0) := by
  unfold execWitnessClaim
  with_reducible repeat' (first | apply KeepOut.next | exact Keep.refl _ | apply Keep.ite | apply askWitness_keep)

theorem execRampSegmentEnd_keep (s0 : State) (a0) : KeepOut s0 (@execRampSegmentEnd a0 s0) := by
  unfold execRampSegmentEnd
  with_reducible repeat' (first
    | apply KeepOut.next | apply KeepOut.ite | exact Keep.refl _ | apply fenceDrops_keep | apply setRampState_keep
    | apply setInt_keep | simp only [keep_mk] | apply Keep.core | split)

theorem joinLockstep_keep {s0 s : State} (h : Keep s0 s) (a1 a2) : Keep s0 (@joinLockstep s a1 a2) := by
  unfold joinLockstep
  with_reducible repeat' (first | assumption | apply onPair_keep)

theorem swapTake_keep {s0 s : State} (h : Keep s0 s) (a1 a2 a3 a4 a5) : Keep s0 (@swapTake s a1 a2 a3 a4 a5) := by
  unfold swapTake
  with_reducible repeat' (first
    | assumption | apply Keep.ite | apply restLims_keep | apply takeLim_keep | apply onPair_keep | apply lockPlace_keep
    | apply joinLockstep_keep | apply Keep.foldl | simp only [keep_mk] | (intro _; intros; try dsimp -zeta only) | split)

theorem execBulk_keep (s0 : State) (a0 a1) : KeepOut s0 (@execBulk a0 a1 s0) := by
  unfold execBulk
  with_reducible repeat' (first | apply KeepOut.next | exact Keep.refl _ | apply receiveBulk_keep)

theorem execMov_keep (s0 : State) (a0 a1 a2 a3) : KeepOut s0 (@execMov a0 a1 a2 a3 s0) := by
  unfold execMov
  with_reducible repeat' (first | apply KeepOut.next | exact Keep.refl _ | apply issueSlot_keep)

theorem execMirrorPlaceCrc_keep (s0 : State) (a0 a1 a2) : KeepOut s0 (@execMirrorPlaceCrc a0 a1 a2 s0) := by
  unfold execMirrorPlaceCrc
  with_reducible repeat' (first | apply KeepOut.next | exact Keep.refl _ | apply compareCrcs_keep | apply receiveRecord_keep)

theorem execCmp_keep (s0 : State) (a0 a1 a2) : KeepOut s0 (@execCmp a0 a1 a2 s0) := by
  unfold execCmp
  with_reducible repeat' (first | apply KeepOut.next | exact Keep.refl _ | apply issueSlot_keep)

theorem execKeep_keep (s0 : State) (a0) : KeepOut s0 (@execKeep a0 s0) := by
  unfold execKeep
  with_reducible repeat' (first | apply KeepOut.next | exact Keep.refl _ | apply witnessReply_keep)

theorem execSyspllHotLeafReady_keep (s0 : State) (a0) : KeepOut s0 (@execSyspllHotLeafReady a0 s0) := by
  unfold execSyspllHotLeafReady
  with_reducible repeat' (first
    | apply KeepOut.next | exact Keep.refl _ | apply Keep.ite | apply syncHotLeaf_keep | apply setNat_keep)

theorem execGrant_keep (s0 : State) (a0) : KeepOut s0 (@execGrant a0 s0) := by
  unfold execGrant
  with_reducible repeat' (first
    | apply KeepOut.next | exact Keep.refl _ | refine witnessReply_keep_eq (by assumption) ?_ | apply onPair_keep | split)

theorem execLdacc_keep (s0 : State) (a0 a1 a2) : KeepOut s0 (@execLdacc a0 a1 a2 s0) := by
  unfold execLdacc
  with_reducible repeat' (first | apply KeepOut.next | exact Keep.refl _ | apply issueSlot_keep)

theorem execTxFollowerClockReturn_keep (s0 : State) (a0) : KeepOut s0 (@execTxFollowerClockReturn a0 s0) := by
  unfold execTxFollowerClockReturn
  with_reducible repeat' (first
    | apply KeepOut.next | apply KeepOut.ite | exact Keep.refl _ | apply clockBack_keep | apply setDir_keep)

theorem execSyspllLossOfLock_keep (s0 : State) (a0) : KeepOut s0 (@execSyspllLossOfLock a0 s0) := by
  unfold execSyspllLossOfLock
  with_reducible repeat' (first
    | apply KeepOut.next | apply KeepOut.ite | exact Keep.refl _ | apply Keep.ite | apply pllLost_keep | apply setNat_keep
    | apply noLeafCheck_keep | apply pllSwitch_keep | apply alarm_keep | apply toIsolated_keep | apply stopForGood_keep)

theorem execMpy2_keep (s0 : State) (a0 a1 a2 a3 a4 a5 a6 a7) : KeepOut s0 (@execMpy2 a0 a1 a2 a3 a4 a5 a6 a7 s0) := by
  unfold execMpy2
  with_reducible repeat' (first | apply KeepOut.next | exact Keep.refl _ | apply macTwo_keep)

theorem execAdda_keep (s0 : State) (a0 a1 a2) : KeepOut s0 (@execAdda a0 a1 a2 s0) := by
  unfold execAdda
  with_reducible repeat' (first | apply KeepOut.next | exact Keep.refl _ | apply issueSlot_keep)

theorem execSwapOutHoldEnd_keep (s0 : State) : KeepOut s0 (@execSwapOutHoldEnd s0) := by
  unfold execSwapOutHoldEnd
  with_reducible repeat' (first | apply KeepOut.next | exact Keep.refl _ | apply Keep.ite | apply setDoor_keep | split)

theorem execMedsynLockDeclared_keep (s0 : State) (a0 a1 a2) : KeepOut s0 (@execMedsynLockDeclared a0 a1 a2 s0) := by
  unfold execMedsynLockDeclared
  with_reducible repeat' (first
    | apply KeepOut.next | apply KeepOut.ite | exact Keep.refl _ | apply fenceDrops_keep | apply setNat_keep
    | apply storeBand_keep)

theorem notePass_keep {s0 s : State} (h : Keep s0 s) (a1) : Keep s0 (@notePass s a1) := by
  unfold notePass
  with_reducible repeat' (first | assumption | apply setNat_keep | apply syncTx_keep | simp only [keep_mk] | apply Keep.core)

theorem giveDoor_keep {s0 s : State} (h : Keep s0 s) (a1) : Keep s0 (@giveDoor s a1) := by
  unfold giveDoor
  with_reducible repeat' (first
    | assumption | apply moveQuietly_keep | apply setRole_keep | apply rejectOpen_keep | apply notePass_keep
    | apply onPair_keep)

theorem execOrOp_keep (s0 : State) (a0 a1 a2 a3) : KeepOut s0 (@execOrOp a0 a1 a2 a3 s0) := by
  unfold execOrOp
  with_reducible repeat' (first | apply KeepOut.next | exact Keep.refl _ | apply issueSlot_keep)

theorem execAdds_keep (s0 : State) (a0 a1 a2 a3) : KeepOut s0 (@execAdds a0 a1 a2 a3 s0) := by
  unfold execAdds
  with_reducible repeat' (first | apply KeepOut.next | exact Keep.refl _ | apply issueSlot_keep)

theorem execMirrorWrite_keep (s0 : State) (a0 a1 a2 a3) : KeepOut s0 (@execMirrorWrite a0 a1 a2 a3 s0) := by
  unfold execMirrorWrite
  with_reducible repeat' (first | apply KeepOut.next | exact Keep.refl _ | apply receiveRecord_keep)

theorem execMac2_keep (s0 : State) (a0 a1 a2 a3 a4 a5 a6 a7) : KeepOut s0 (@execMac2 a0 a1 a2 a3 a4 a5 a6 a7 s0) := by
  unfold execMac2
  with_reducible repeat' (first | apply KeepOut.next | exact Keep.refl _ | apply macTwo_keep)

theorem execSta_keep (s0 : State) (a0 a1 a2 a3 a4) : KeepOut s0 (@execSta a0 a1 a2 a3 a4 s0) := by
  unfold execSta
  with_reducible repeat' (first | apply KeepOut.next | exact Keep.refl _ | apply issueSlot_keep)

theorem centreAsrc_keep {s0 s : State} (h : Keep s0 s) (a1) : Keep s0 (@centreAsrc s a1) := by
  unfold centreAsrc
  with_reducible repeat' (first | assumption | apply setDir_keep | simp only [keep_mk] | split)

theorem execAsrcLocked_keep (s0 : State) (a0 a1) : KeepOut s0 (@execAsrcLocked a0 a1 s0) := by
  unfold execAsrcLocked
  with_reducible repeat' (first
    | apply KeepOut.next | apply KeepOut.ite | exact Keep.refl _ | apply centreAsrc_keep | apply setNat_keep
    | apply syncDir_keep | split)

theorem execCmacj_keep (s0 : State) (a0 a1 a2 a3) : KeepOut s0 (@execCmacj a0 a1 a2 a3 s0) := by
  unfold execCmacj
  with_reducible repeat' (first | apply KeepOut.next | exact Keep.refl _ | apply macComplex_keep)

theorem execSyncHoldOffEnd_keep (s0 : State) : KeepOut s0 (@execSyncHoldOffEnd s0) := by
  unfold execSyncHoldOffEnd
  with_reducible repeat' (first | apply KeepOut.next | exact Keep.refl _ | apply Keep.ite | apply setNat_keep)

theorem execMovw_keep (s0 : State) (a0 a1 a2) : KeepOut s0 (@execMovw a0 a1 a2 s0) := by
  unfold execMovw
  with_reducible repeat' (first | apply KeepOut.next | exact Keep.refl _ | apply issueSlot_keep)

theorem execMirrorCommit_keep (s0 : State) (a0 a1 a2 a3 a4) : KeepOut s0 (@execMirrorCommit a0 a1 a2 a3 a4 s0) := by
  unfold execMirrorCommit
  with_reducible repeat' (first | apply KeepOut.next | exact Keep.refl _ | apply receiveRecord_keep)

theorem execClr_keep (s0 : State) (a0 a1) : KeepOut s0 (@execClr a0 a1 s0) := by
  unfold execClr
  with_reducible repeat' (first | apply KeepOut.next | exact Keep.refl _ | apply issueSlot_keep)

theorem execLd_keep (s0 : State) (a0 a1 a2 a3 a4 a5) : KeepOut s0 (@execLd a0 a1 a2 a3 a4 a5 s0) := by
  unfold execLd
  with_reducible repeat' (first | apply KeepOut.next | exact Keep.refl _ | apply issueSlot_keep)

theorem execAesPreambleTimeout_keep (s0 : State) (a0) : KeepOut s0 (@execAesPreambleTimeout a0 s0) := by
  unfold execAesPreambleTimeout
  with_reducible repeat' (first
    | apply KeepOut.next | apply KeepOut.ite | exact Keep.refl _ | apply outOfService_keep | apply setAes_keep
    | apply aesLost_keep)

theorem macOne_keep {s0 s : State} (h : Keep s0 s) (a0 a1 a2 a3 a4 a5) : Keep s0 (@macOne a0 a1 a2 a3 a4 a5 s) := by
  unfold macOne
  with_reducible repeat' (first | assumption | apply issueSlot_keep)

theorem execMpy_keep (s0 : State) (a0 a1 a2 a3 a4) : KeepOut s0 (@execMpy a0 a1 a2 a3 a4 s0) := by
  unfold execMpy
  with_reducible repeat' (first | apply KeepOut.next | exact Keep.refl _ | apply macOne_keep)

theorem execMac_keep (s0 : State) (a0 a1 a2 a3 a4) : KeepOut s0 (@execMac a0 a1 a2 a3 a4 s0) := by
  unfold execMac
  with_reducible repeat' (first | apply KeepOut.next | exact Keep.refl _ | apply macOne_keep)

theorem execMsu_keep (s0 : State) (a0 a1 a2 a3 a4) : KeepOut s0 (@execMsu a0 a1 a2 a3 a4 s0) := by
  unfold execMsu
  with_reducible repeat' (first | apply KeepOut.next | exact Keep.refl _ | apply macOne_keep)

theorem execDsu2_keep (s0 : State) (a0 a1 a2 a3 a4 a5 a6) : KeepOut s0 (@execDsu2 a0 a1 a2 a3 a4 a5 a6 s0) := by
  unfold execDsu2
  with_reducible repeat' (first | apply KeepOut.next | exact Keep.refl _ | apply macSum_keep)

theorem execCmpy_keep (s0 : State) (a0 a1 a2 a3) : KeepOut s0 (@execCmpy a0 a1 a2 a3 s0) := by
  unfold execCmpy
  with_reducible repeat' (first | apply KeepOut.next | exact Keep.refl _ | apply macComplex_keep)

theorem execCmpyj_keep (s0 : State) (a0 a1 a2 a3) : KeepOut s0 (@execCmpyj a0 a1 a2 a3 s0) := by
  unfold execCmpyj
  with_reducible repeat' (first | apply KeepOut.next | exact Keep.refl _ | apply macComplex_keep)

theorem execSt_keep (s0 : State) (a0 a1 a2 a3 a4) : KeepOut s0 (@execSt a0 a1 a2 a3 a4 s0) := by
  unfold execSt
  with_reducible repeat' (first | apply KeepOut.next | exact Keep.refl _ | apply issueSlot_keep)

theorem execLdi_keep (s0 : State) (a0 a1 a2 a3 a4) : KeepOut s0 (@execLdi a0 a1 a2 a3 a4 s0) := by
  unfold execLdi
  with_reducible repeat' (first | apply KeepOut.next | exact Keep.refl _ | apply issueSlot_keep)

theorem execLdl_keep (s0 : State) (a0 a1 a2) : KeepOut s0 (@execLdl a0 a1 a2 s0) := by
  unfold execLdl
  with_reducible repeat' (first | apply KeepOut.next | exact Keep.refl _ | apply issueSlot_keep)

theorem execStl_keep (s0 : State) (a0 a1 a2) : KeepOut s0 (@execStl a0 a1 a2 s0) := by
  unfold execStl
  with_reducible repeat' (first | apply KeepOut.next | exact Keep.refl _ | apply issueSlot_keep)

theorem execAdd_keep (s0 : State) (a0 a1 a2 a3) : KeepOut s0 (@execAdd a0 a1 a2 a3 s0) := by
  unfold execAdd
  with_reducible repeat' (first | apply KeepOut.next | exact Keep.refl _ | apply issueSlot_keep)

theorem execAndOp_keep (s0 : State) (a0 a1 a2 a3) : KeepOut s0 (@execAndOp a0 a1 a2 a3 s0) := by
  unfold execAndOp
  with_reducible repeat' (first | apply KeepOut.next | exact Keep.refl _ | apply issueSlot_keep)

theorem execAsr_keep (s0 : State) (a0 a1 a2 a3) : KeepOut s0 (@execAsr a0 a1 a2 a3 s0) := by
  unfold execAsr
  with_reducible repeat' (first | apply KeepOut.next | exact Keep.refl _ | apply issueSlot_keep)

theorem execLsr_keep (s0 : State) (a0 a1 a2 a3) : KeepOut s0 (@execLsr a0 a1 a2 a3 s0) := by
  unfold execLsr
  with_reducible repeat' (first | apply KeepOut.next | exact Keep.refl _ | apply issueSlot_keep)

theorem execMinOp_keep (s0 : State) (a0 a1 a2 a3) : KeepOut s0 (@execMinOp a0 a1 a2 a3 s0) := by
  unfold execMinOp
  with_reducible repeat' (first | apply KeepOut.next | exact Keep.refl _ | apply issueSlot_keep)

theorem execMaxOp_keep (s0 : State) (a0 a1 a2 a3) : KeepOut s0 (@execMaxOp a0 a1 a2 a3 s0) := by
  unfold execMaxOp
  with_reducible repeat' (first | apply KeepOut.next | exact Keep.refl _ | apply issueSlot_keep)

theorem execAsh_keep (s0 : State) (a0 a1 a2) : KeepOut s0 (@execAsh a0 a1 a2 s0) := by
  unfold execAsh
  with_reducible repeat' (first | apply KeepOut.next | exact Keep.refl _ | apply issueSlot_keep)

theorem execTdmFrameReceived_keep (s0 : State) (a0 a1) : KeepOut s0 (@execTdmFrameReceived a0 a1 s0) := by
  unfold execTdmFrameReceived
  with_reducible repeat' (first
    | apply KeepOut.next | exact Keep.refl _ | apply Keep.ite | apply txFrame_keep | apply rxFrame_keep)

theorem execAesNpcmReturn_keep (s0 : State) (a0) : KeepOut s0 (@execAesNpcmReturn a0 s0) := by
  unfold execAesNpcmReturn
  with_reducible repeat' (first | apply KeepOut.next | exact Keep.refl _ | apply syncDir_keep | apply setAes_keep)

theorem execMedsynLossOfLock_keep (s0 : State) (a0 a1) : KeepOut s0 (@execMedsynLossOfLock a0 a1 s0) := by
  unfold execMedsynLossOfLock
  with_reducible repeat' (first
    | apply KeepOut.next | apply KeepOut.ite | exact Keep.refl _ | apply alarm_keep | apply fenceDrops_keep
    | apply setNat_keep)

theorem execHopTimeout_keep (s0 : State) (a0 a1) : KeepOut s0 (@execHopTimeout a0 a1 s0) := by
  unfold execHopTimeout
  with_reducible repeat' (first
    | apply KeepOut.next | exact Keep.refl _ | apply Keep.ite | apply fenceDrops_keep | apply setNat_keep)

theorem execSyncEdge_keep (s0 : State) (a0 a1 a2 a3) : KeepOut s0 (@execSyncEdge a0 a1 a2 a3 s0) := by
  unfold execSyncEdge
  with_reducible repeat' (first
    | apply KeepOut.next | apply KeepOut.ite | exact Keep.refl _ | apply addHold_keep | apply syncAct_keep | apply setNat_keep)

theorem execHeartbeat_keep (s0 : State) (a0 a1 a2 a3) : KeepOut s0 (@execHeartbeat a0 a1 a2 a3 s0) := by
  unfold execHeartbeat
  with_reducible repeat' (first
    | apply KeepOut.next | exact Keep.refl _ | apply Keep.ite | apply alarm_keep | apply noteReference_keep
    | apply noteBeat_keep | apply afterBeat_keep | apply takeAck_keep)

theorem execHeartbeatLoss_keep (s0 : State) : KeepOut s0 (@execHeartbeatLoss s0) := by
  unfold execHeartbeatLoss
  with_reducible repeat' (first
    | apply KeepOut.next | exact Keep.refl _ | apply Keep.ite | apply refLost_keep | apply setNat_keep | apply onPair_keep
    | apply weighEvidence_keep | apply releaseReplies_keep | apply alarm_keep)

theorem execMirrorStage_keep (s0 : State) (a0 a1 a2 a3 a4) : KeepOut s0 (@execMirrorStage a0 a1 a2 a3 a4 s0) := by
  unfold execMirrorStage
  with_reducible repeat' (first | apply KeepOut.next | exact Keep.refl _ | apply receiveRecord_keep)

theorem execMirrorCommitEnd_keep (s0 : State) (a0 a1 a2 a3) : KeepOut s0 (@execMirrorCommitEnd a0 a1 a2 a3 s0) := by
  unfold execMirrorCommitEnd
  with_reducible repeat' (first | apply KeepOut.next | exact Keep.refl _ | apply receiveRecord_keep)

theorem execMirrorXpStep_keep (s0 : State) (a0 a1 a2 a3 a4 a5) : KeepOut s0 (@execMirrorXpStep a0 a1 a2 a3 a4 a5 s0) := by
  unfold execMirrorXpStep
  with_reducible repeat' (first | apply KeepOut.next | exact Keep.refl _ | apply receiveRecord_keep)

theorem execMirrorGr_keep (s0 : State) (a0 a1 a2 a3 a4) : KeepOut s0 (@execMirrorGr a0 a1 a2 a3 a4 s0) := by
  unfold execMirrorGr
  with_reducible repeat' (first | apply KeepOut.next | exact Keep.refl _ | apply receiveRecord_keep)

theorem execMirrorDomain_keep (s0 : State) (a0 a1 a2 a3 a4 a5 a6) : KeepOut s0 (@execMirrorDomain a0 a1 a2 a3 a4 a5 a6 s0) := by
  unfold execMirrorDomain
  with_reducible repeat' (first | apply KeepOut.next | exact Keep.refl _ | apply receiveRecord_keep)

theorem execDigest_keep (s0 : State) (a0 a1 a2) : KeepOut s0 (@execDigest a0 a1 a2 s0) := by
  unfold execDigest
  with_reducible repeat' (first
    | apply KeepOut.next | exact Keep.refl _ | apply Keep.ite | apply linkFrame_keep | apply keepDigest_keep
    | apply onPair_keep)

theorem execAuditTimer_keep (s0 : State) : KeepOut s0 (@execAuditTimer s0) := by
  unfold execAuditTimer
  with_reducible repeat' (first | apply KeepOut.next | exact Keep.refl _ | apply Keep.ite | apply askDigest_keep)

theorem execDoorTakeover_keep (s0 : State) : KeepOut s0 (@execDoorTakeover s0) := by
  unfold execDoorTakeover
  with_reducible repeat' (first | apply KeepOut.next | exact Keep.refl _ | apply Keep.ite | apply takeDoor_keep)

theorem execTakeoverEnginesRun_keep (s0 : State) : KeepOut s0 (@execTakeoverEnginesRun s0) := by
  unfold execTakeoverEnginesRun
  with_reducible repeat' (first | apply KeepOut.next | exact Keep.refl _ | apply Keep.ite | apply takeoverRun_keep | split)

theorem execWitnessHold_keep (s0 : State) : KeepOut s0 (@execWitnessHold s0) := by
  unfold execWitnessHold
  with_reducible repeat' (first | apply KeepOut.next | exact Keep.refl _ | apply Keep.ite | apply askWitness_keep)

theorem execDeny_keep (s0 : State) (a0) : KeepOut s0 (@execDeny a0 s0) := by
  unfold execDeny
  with_reducible repeat' (first | apply KeepOut.next | exact Keep.refl _ | apply witnessReply_keep)

theorem execYield_keep (s0 : State) (a0) : KeepOut s0 (@execYield a0 s0) := by
  unfold execYield
  with_reducible repeat' (first
    | apply KeepOut.next | exact Keep.refl _ | apply Keep.ite | refine witnessReply_keep_eq (by assumption) ?_
    | apply mustYield_keep | split)

theorem execForeignCopy_keep (s0 : State) (a0 a1 a2 a3 a4) : KeepOut s0 (@execForeignCopy a0 a1 a2 a3 a4 s0) := by
  unfold execForeignCopy
  with_reducible repeat' (first
    | apply KeepOut.next | exact Keep.refl _ | apply Keep.ite | apply onPair_keep | apply alarm_keep | apply mustYield_keep)

theorem execPairYield_keep (s0 : State) : KeepOut s0 (@execPairYield s0) := by
  unfold execPairYield
  with_reducible repeat' (first
    | apply KeepOut.next | exact Keep.refl _ | apply Keep.ite | apply giveWay_keep | apply onPair_keep)

theorem swapSend_keep {s0 s : State} (h : Keep s0 s) (a1 a2) : Keep s0 (@swapSend s a1 a2) := by
  unfold swapSend
  with_reducible repeat' (first
    | assumption | apply Keep.ite | apply sendLimiters_keep | apply joinLockstep_keep | apply sendRegion_keep
    | simp only [keep_mk] | split)

theorem execSwapSnapshot_keep (s0 : State) (a0 a1 a2 a3) : KeepOut s0 (@execSwapSnapshot a0 a1 a2 a3 s0) := by
  unfold execSwapSnapshot
  with_reducible repeat' (first
    | apply KeepOut.next | exact Keep.refl _ | apply Keep.ite | apply swapSend_keep | apply linkFrame_keep
    | apply swapTake_keep | simp only [keep_mk] | split)

theorem getDoor_keep {s0 s : State} (h : Keep s0 s) (a1) : Keep s0 (@getDoor s a1) := by
  unfold getDoor
  with_reducible repeat' (first
    | assumption | apply announceArp_keep | apply setRole_keep | apply notePass_keep | apply onPair_keep | apply setDoor_keep)

theorem execSwapTickPass_keep (s0 : State) : KeepOut s0 (@execSwapTickPass s0) := by
  unfold execSwapTickPass
  with_reducible repeat' (first
    | apply KeepOut.next | exact Keep.refl _ | apply Keep.ite | apply dropSwap_keep | apply alarm_keep | apply alarmIf_keep
    | apply giveDoor_keep | apply haltWork_keep | apply getDoor_keep | simp only [keep_mk] | split)

theorem execUnrusLaneRestore_keep (s0 : State) (a0) : KeepOut s0 (@execUnrusLaneRestore a0 s0) := by
  unfold execUnrusLaneRestore
  with_reducible repeat' (first | apply KeepOut.next | exact Keep.refl _ | apply Keep.ite | apply setLane_keep)

end Sys2Proof.Machine
end

