-- ==== Sys2Proof/Laws/KeepEvents.lean ====
section
/-! SUPPORT. `Keep` for every operation and command of Ref. -/

namespace Sys2Proof.Machine

set_option linter.unusedVariables false
set_option linter.unusedSimpArgs false

theorem execHoldOscActivityLoss_keep (s0 : State) : KeepOut s0 (@execHoldOscActivityLoss s0) := by
  unfold execHoldOscActivityLoss
  with_reducible repeat' (first
    | apply KeepOut.next | apply KeepOut.ite | exact Keep.refl _ | apply holdFollow_keep | apply alarm_keep
    | simp only [keep_mk] | apply Keep.core)

theorem execHoldOscReturn_keep (s0 : State) : KeepOut s0 (@execHoldOscReturn s0) := by
  unfold execHoldOscReturn
  with_reducible repeat' (first
    | apply KeepOut.next | exact Keep.refl _ | apply Keep.ite | apply holdFollow_keep | simp only [keep_mk] | apply Keep.core)

theorem execRefAbsent_keep (s0 : State) (a0) : KeepOut s0 (@execRefAbsent a0 s0) := by
  unfold execRefAbsent
  with_reducible repeat' (first | apply KeepOut.next | exact Keep.refl _ | apply Keep.ite | apply refLost_keep)

theorem execRefHoldSpecExpiry_keep (s0 : State) : KeepOut s0 (@execRefHoldSpecExpiry s0) := by
  unfold execRefHoldSpecExpiry
  with_reducible repeat' (first
    | apply KeepOut.next | apply KeepOut.ite | exact Keep.refl _ | apply ptpQuality_keep | apply alarm_keep
    | apply setNat_keep | simp only [keep_mk] | apply Keep.core)

theorem refAverage_keep {s0 s : State} (h : Keep s0 s) (a1 a2) : Keep s0 (@refAverage s a1 a2) := by
  unfold refAverage
  with_reducible repeat' (first
    | assumption | apply Keep.ite | apply refFails_keep | apply setInt_keep | apply setCand_keep | apply refPresent_keep
    | apply refMonitors_keep)

theorem execRefQualified_keep (s0 : State) (a0) : KeepOut s0 (@execRefQualified a0 s0) := by
  unfold execRefQualified
  with_reducible repeat' (first
    | apply KeepOut.next | apply KeepOut.ite | exact Keep.refl _ | apply setNat_keep | apply setRefState_keep)

theorem execRefSecondAverage_keep (s0 : State) (a0 a1) : KeepOut s0 (@execRefSecondAverage a0 a1 s0) := by
  unfold execRefSecondAverage
  with_reducible repeat' (first
    | apply KeepOut.next | assumption | exact Keep.refl _ | apply refAverage_keep | apply refSample_keep | apply refRank_keep
    | apply holdFollow_keep | apply Keep.foldl | simp only [keep_mk] | apply Keep.core
    | (intro _; intros; try dsimp -zeta only) | split)

end Sys2Proof.Machine
end

