-- ==== Sys2Proof/Laws/State.lean ====
section
/-! SUPPORT. What each elementary update of the state leaves as it was, field by field, and what a register reads after it
has been written. -/

namespace Sys2Proof.Machine

@[simp] theorem setObj_pending (s : State) (b c d) : (State.setObj s b c d).pending = s.pending := by unfold State.setObj; rfl
@[simp] theorem setObj_out (s : State) (b c d) : (State.setObj s b c d).out = s.out := by unfold State.setObj; rfl
@[simp] theorem setObj_fresh (s : State) (b c d) : (State.setObj s b c d).fresh = s.fresh := by unfold State.setObj; rfl
@[simp] theorem setObj_snap (s : State) (b c d) : (State.setObj s b c d).snap = s.snap := by unfold State.setObj; rfl
@[simp] theorem setObj_writes (s : State) (b c d) : (State.setObj s b c d).writes = s.writes := by unfold State.setObj; rfl
@[simp] theorem setObj_clk (s : State) (b c d) : (State.setObj s b c d).clk = s.clk := by unfold State.setObj; rfl
@[simp] theorem setObj_engines (s : State) (b c d) : (State.setObj s b c d).engines = s.engines := by unfold State.setObj; rfl
@[simp] theorem setObj_lat (s : State) (b c d) : (State.setObj s b c d).lat = s.lat := by unfold State.setObj; rfl
@[simp] theorem setObj_bench (s : State) (b c d) : (State.setObj s b c d).bench = s.bench := by unfold State.setObj; rfl
@[simp] theorem setObj_shut (s : State) (b c d) : (State.setObj s b c d).shut = s.shut := by unfold State.setObj; rfl
@[simp] theorem setObj_ctl (s : State) (b c d) : (State.setObj s b c d).ctl = s.ctl := by unfold State.setObj; rfl
@[simp] theorem setObj_hp (s : State) (b c d) : (State.setObj s b c d).hp = s.hp := by unfold State.setObj; rfl
@[simp] theorem setObj_rsv (s : State) (b c d) : (State.setObj s b c d).rsv = s.rsv := by unfold State.setObj; rfl
@[simp] theorem setObj_fab (s : State) (b c d) : (State.setObj s b c d).fab = s.fab := by unfold State.setObj; rfl
@[simp] theorem setObj_port (s : State) (b c d) : (State.setObj s b c d).port = s.port := by unfold State.setObj; rfl
@[simp] theorem setObj_net (s : State) (b c d) : (State.setObj s b c d).net = s.net := by unfold State.setObj; rfl
@[simp] theorem setObj_tim (s : State) (b c d) : (State.setObj s b c d).tim = s.tim := by unfold State.setObj; rfl
@[simp] theorem setObj_ref (s : State) (b c d) : (State.setObj s b c d).ref = s.ref := by unfold State.setObj; rfl
@[simp] theorem setObj_syn (s : State) (b c d) : (State.setObj s b c d).syn = s.syn := by unfold State.setObj; rfl
@[simp] theorem setObj_pair (s : State) (b c d) : (State.setObj s b c d).pair = s.pair := by unfold State.setObj; rfl
@[simp] theorem setObj_sec (s : State) (b c d) : (State.setObj s b c d).sec = s.sec := by unfold State.setObj; rfl
@[simp] theorem setObj_boot (s : State) (b c d) : (State.setObj s b c d).boot = s.boot := by unfold State.setObj; rfl
@[simp] theorem setObj_cue (s : State) (b c d) : (State.setObj s b c d).cue = s.cue := by unfold State.setObj; rfl

@[simp] theorem setInt_pending (s : State) (b c d) : (State.setInt s b c d).pending = s.pending := setObj_pending ..
@[simp] theorem setInt_out (s : State) (b c d) : (State.setInt s b c d).out = s.out := setObj_out ..
@[simp] theorem setInt_fresh (s : State) (b c d) : (State.setInt s b c d).fresh = s.fresh := setObj_fresh ..
@[simp] theorem setInt_snap (s : State) (b c d) : (State.setInt s b c d).snap = s.snap := setObj_snap ..
@[simp] theorem setInt_writes (s : State) (b c d) : (State.setInt s b c d).writes = s.writes := setObj_writes ..
@[simp] theorem setInt_clk (s : State) (b c d) : (State.setInt s b c d).clk = s.clk := setObj_clk ..
@[simp] theorem setInt_engines (s : State) (b c d) : (State.setInt s b c d).engines = s.engines := setObj_engines ..
@[simp] theorem setInt_lat (s : State) (b c d) : (State.setInt s b c d).lat = s.lat := setObj_lat ..
@[simp] theorem setInt_bench (s : State) (b c d) : (State.setInt s b c d).bench = s.bench := setObj_bench ..
@[simp] theorem setInt_shut (s : State) (b c d) : (State.setInt s b c d).shut = s.shut := setObj_shut ..
@[simp] theorem setInt_ctl (s : State) (b c d) : (State.setInt s b c d).ctl = s.ctl := setObj_ctl ..
@[simp] theorem setInt_hp (s : State) (b c d) : (State.setInt s b c d).hp = s.hp := setObj_hp ..
@[simp] theorem setInt_rsv (s : State) (b c d) : (State.setInt s b c d).rsv = s.rsv := setObj_rsv ..
@[simp] theorem setInt_fab (s : State) (b c d) : (State.setInt s b c d).fab = s.fab := setObj_fab ..
@[simp] theorem setInt_port (s : State) (b c d) : (State.setInt s b c d).port = s.port := setObj_port ..
@[simp] theorem setInt_net (s : State) (b c d) : (State.setInt s b c d).net = s.net := setObj_net ..
@[simp] theorem setInt_tim (s : State) (b c d) : (State.setInt s b c d).tim = s.tim := setObj_tim ..
@[simp] theorem setInt_ref (s : State) (b c d) : (State.setInt s b c d).ref = s.ref := setObj_ref ..
@[simp] theorem setInt_syn (s : State) (b c d) : (State.setInt s b c d).syn = s.syn := setObj_syn ..
@[simp] theorem setInt_pair (s : State) (b c d) : (State.setInt s b c d).pair = s.pair := setObj_pair ..
@[simp] theorem setInt_sec (s : State) (b c d) : (State.setInt s b c d).sec = s.sec := setObj_sec ..
@[simp] theorem setInt_boot (s : State) (b c d) : (State.setInt s b c d).boot = s.boot := setObj_boot ..
@[simp] theorem setInt_cue (s : State) (b c d) : (State.setInt s b c d).cue = s.cue := setObj_cue ..

@[simp] theorem setNat_pending (s : State) (b c d) : (State.setNat s b c d).pending = s.pending := setObj_pending ..
@[simp] theorem setNat_out (s : State) (b c d) : (State.setNat s b c d).out = s.out := setObj_out ..
@[simp] theorem setNat_fresh (s : State) (b c d) : (State.setNat s b c d).fresh = s.fresh := setObj_fresh ..
@[simp] theorem setNat_snap (s : State) (b c d) : (State.setNat s b c d).snap = s.snap := setObj_snap ..
@[simp] theorem setNat_writes (s : State) (b c d) : (State.setNat s b c d).writes = s.writes := setObj_writes ..
@[simp] theorem setNat_clk (s : State) (b c d) : (State.setNat s b c d).clk = s.clk := setObj_clk ..
@[simp] theorem setNat_engines (s : State) (b c d) : (State.setNat s b c d).engines = s.engines := setObj_engines ..
@[simp] theorem setNat_lat (s : State) (b c d) : (State.setNat s b c d).lat = s.lat := setObj_lat ..
@[simp] theorem setNat_bench (s : State) (b c d) : (State.setNat s b c d).bench = s.bench := setObj_bench ..
@[simp] theorem setNat_shut (s : State) (b c d) : (State.setNat s b c d).shut = s.shut := setObj_shut ..
@[simp] theorem setNat_ctl (s : State) (b c d) : (State.setNat s b c d).ctl = s.ctl := setObj_ctl ..
@[simp] theorem setNat_hp (s : State) (b c d) : (State.setNat s b c d).hp = s.hp := setObj_hp ..
@[simp] theorem setNat_rsv (s : State) (b c d) : (State.setNat s b c d).rsv = s.rsv := setObj_rsv ..
@[simp] theorem setNat_fab (s : State) (b c d) : (State.setNat s b c d).fab = s.fab := setObj_fab ..
@[simp] theorem setNat_port (s : State) (b c d) : (State.setNat s b c d).port = s.port := setObj_port ..
@[simp] theorem setNat_net (s : State) (b c d) : (State.setNat s b c d).net = s.net := setObj_net ..
@[simp] theorem setNat_tim (s : State) (b c d) : (State.setNat s b c d).tim = s.tim := setObj_tim ..
@[simp] theorem setNat_ref (s : State) (b c d) : (State.setNat s b c d).ref = s.ref := setObj_ref ..
@[simp] theorem setNat_syn (s : State) (b c d) : (State.setNat s b c d).syn = s.syn := setObj_syn ..
@[simp] theorem setNat_pair (s : State) (b c d) : (State.setNat s b c d).pair = s.pair := setObj_pair ..
@[simp] theorem setNat_sec (s : State) (b c d) : (State.setNat s b c d).sec = s.sec := setObj_sec ..
@[simp] theorem setNat_boot (s : State) (b c d) : (State.setNat s b c d).boot = s.boot := setObj_boot ..
@[simp] theorem setNat_cue (s : State) (b c d) : (State.setNat s b c d).cue = s.cue := setObj_cue ..

@[simp] theorem setFlag_pending (s : State) (b c d) : (State.setFlag s b c d).pending = s.pending := setObj_pending ..
@[simp] theorem setFlag_out (s : State) (b c d) : (State.setFlag s b c d).out = s.out := setObj_out ..
@[simp] theorem setFlag_fresh (s : State) (b c d) : (State.setFlag s b c d).fresh = s.fresh := setObj_fresh ..
@[simp] theorem setFlag_snap (s : State) (b c d) : (State.setFlag s b c d).snap = s.snap := setObj_snap ..
@[simp] theorem setFlag_writes (s : State) (b c d) : (State.setFlag s b c d).writes = s.writes := setObj_writes ..
@[simp] theorem setFlag_clk (s : State) (b c d) : (State.setFlag s b c d).clk = s.clk := setObj_clk ..
@[simp] theorem setFlag_engines (s : State) (b c d) : (State.setFlag s b c d).engines = s.engines := setObj_engines ..
@[simp] theorem setFlag_lat (s : State) (b c d) : (State.setFlag s b c d).lat = s.lat := setObj_lat ..
@[simp] theorem setFlag_bench (s : State) (b c d) : (State.setFlag s b c d).bench = s.bench := setObj_bench ..
@[simp] theorem setFlag_shut (s : State) (b c d) : (State.setFlag s b c d).shut = s.shut := setObj_shut ..
@[simp] theorem setFlag_ctl (s : State) (b c d) : (State.setFlag s b c d).ctl = s.ctl := setObj_ctl ..
@[simp] theorem setFlag_hp (s : State) (b c d) : (State.setFlag s b c d).hp = s.hp := setObj_hp ..
@[simp] theorem setFlag_rsv (s : State) (b c d) : (State.setFlag s b c d).rsv = s.rsv := setObj_rsv ..
@[simp] theorem setFlag_fab (s : State) (b c d) : (State.setFlag s b c d).fab = s.fab := setObj_fab ..
@[simp] theorem setFlag_port (s : State) (b c d) : (State.setFlag s b c d).port = s.port := setObj_port ..
@[simp] theorem setFlag_net (s : State) (b c d) : (State.setFlag s b c d).net = s.net := setObj_net ..
@[simp] theorem setFlag_tim (s : State) (b c d) : (State.setFlag s b c d).tim = s.tim := setObj_tim ..
@[simp] theorem setFlag_ref (s : State) (b c d) : (State.setFlag s b c d).ref = s.ref := setObj_ref ..
@[simp] theorem setFlag_syn (s : State) (b c d) : (State.setFlag s b c d).syn = s.syn := setObj_syn ..
@[simp] theorem setFlag_pair (s : State) (b c d) : (State.setFlag s b c d).pair = s.pair := setObj_pair ..
@[simp] theorem setFlag_sec (s : State) (b c d) : (State.setFlag s b c d).sec = s.sec := setObj_sec ..
@[simp] theorem setFlag_boot (s : State) (b c d) : (State.setFlag s b c d).boot = s.boot := setObj_boot ..
@[simp] theorem setFlag_cue (s : State) (b c d) : (State.setFlag s b c d).cue = s.cue := setObj_cue ..

@[simp] theorem addHold_pending (s : State) (b c d) : (State.addHold s b c d).pending = s.pending := setNat_pending ..
@[simp] theorem addHold_out (s : State) (b c d) : (State.addHold s b c d).out = s.out := setNat_out ..
@[simp] theorem addHold_fresh (s : State) (b c d) : (State.addHold s b c d).fresh = s.fresh := setNat_fresh ..
@[simp] theorem addHold_snap (s : State) (b c d) : (State.addHold s b c d).snap = s.snap := setNat_snap ..
@[simp] theorem addHold_writes (s : State) (b c d) : (State.addHold s b c d).writes = s.writes := setNat_writes ..
@[simp] theorem addHold_clk (s : State) (b c d) : (State.addHold s b c d).clk = s.clk := setNat_clk ..
@[simp] theorem addHold_engines (s : State) (b c d) : (State.addHold s b c d).engines = s.engines := setNat_engines ..
@[simp] theorem addHold_lat (s : State) (b c d) : (State.addHold s b c d).lat = s.lat := setNat_lat ..
@[simp] theorem addHold_bench (s : State) (b c d) : (State.addHold s b c d).bench = s.bench := setNat_bench ..
@[simp] theorem addHold_shut (s : State) (b c d) : (State.addHold s b c d).shut = s.shut := setNat_shut ..
@[simp] theorem addHold_ctl (s : State) (b c d) : (State.addHold s b c d).ctl = s.ctl := setNat_ctl ..
@[simp] theorem addHold_hp (s : State) (b c d) : (State.addHold s b c d).hp = s.hp := setNat_hp ..
@[simp] theorem addHold_rsv (s : State) (b c d) : (State.addHold s b c d).rsv = s.rsv := setNat_rsv ..
@[simp] theorem addHold_fab (s : State) (b c d) : (State.addHold s b c d).fab = s.fab := setNat_fab ..
@[simp] theorem addHold_port (s : State) (b c d) : (State.addHold s b c d).port = s.port := setNat_port ..
@[simp] theorem addHold_net (s : State) (b c d) : (State.addHold s b c d).net = s.net := setNat_net ..
@[simp] theorem addHold_tim (s : State) (b c d) : (State.addHold s b c d).tim = s.tim := setNat_tim ..
@[simp] theorem addHold_ref (s : State) (b c d) : (State.addHold s b c d).ref = s.ref := setNat_ref ..
@[simp] theorem addHold_syn (s : State) (b c d) : (State.addHold s b c d).syn = s.syn := setNat_syn ..
@[simp] theorem addHold_pair (s : State) (b c d) : (State.addHold s b c d).pair = s.pair := setNat_pair ..
@[simp] theorem addHold_sec (s : State) (b c d) : (State.addHold s b c d).sec = s.sec := setNat_sec ..
@[simp] theorem addHold_boot (s : State) (b c d) : (State.addHold s b c d).boot = s.boot := setNat_boot ..
@[simp] theorem addHold_cue (s : State) (b c d) : (State.addHold s b c d).cue = s.cue := setNat_cue ..

@[simp] theorem addWrap_pending (s : State) (b c d) : (State.addWrap s b c d).pending = s.pending := setNat_pending ..
@[simp] theorem addWrap_out (s : State) (b c d) : (State.addWrap s b c d).out = s.out := setNat_out ..
@[simp] theorem addWrap_fresh (s : State) (b c d) : (State.addWrap s b c d).fresh = s.fresh := setNat_fresh ..
@[simp] theorem addWrap_snap (s : State) (b c d) : (State.addWrap s b c d).snap = s.snap := setNat_snap ..
@[simp] theorem addWrap_writes (s : State) (b c d) : (State.addWrap s b c d).writes = s.writes := setNat_writes ..
@[simp] theorem addWrap_clk (s : State) (b c d) : (State.addWrap s b c d).clk = s.clk := setNat_clk ..
@[simp] theorem addWrap_engines (s : State) (b c d) : (State.addWrap s b c d).engines = s.engines := setNat_engines ..
@[simp] theorem addWrap_lat (s : State) (b c d) : (State.addWrap s b c d).lat = s.lat := setNat_lat ..
@[simp] theorem addWrap_bench (s : State) (b c d) : (State.addWrap s b c d).bench = s.bench := setNat_bench ..
@[simp] theorem addWrap_shut (s : State) (b c d) : (State.addWrap s b c d).shut = s.shut := setNat_shut ..
@[simp] theorem addWrap_ctl (s : State) (b c d) : (State.addWrap s b c d).ctl = s.ctl := setNat_ctl ..
@[simp] theorem addWrap_hp (s : State) (b c d) : (State.addWrap s b c d).hp = s.hp := setNat_hp ..
@[simp] theorem addWrap_rsv (s : State) (b c d) : (State.addWrap s b c d).rsv = s.rsv := setNat_rsv ..
@[simp] theorem addWrap_fab (s : State) (b c d) : (State.addWrap s b c d).fab = s.fab := setNat_fab ..
@[simp] theorem addWrap_port (s : State) (b c d) : (State.addWrap s b c d).port = s.port := setNat_port ..
@[simp] theorem addWrap_net (s : State) (b c d) : (State.addWrap s b c d).net = s.net := setNat_net ..
@[simp] theorem addWrap_tim (s : State) (b c d) : (State.addWrap s b c d).tim = s.tim := setNat_tim ..
@[simp] theorem addWrap_ref (s : State) (b c d) : (State.addWrap s b c d).ref = s.ref := setNat_ref ..
@[simp] theorem addWrap_syn (s : State) (b c d) : (State.addWrap s b c d).syn = s.syn := setNat_syn ..
@[simp] theorem addWrap_pair (s : State) (b c d) : (State.addWrap s b c d).pair = s.pair := setNat_pair ..
@[simp] theorem addWrap_sec (s : State) (b c d) : (State.addWrap s b c d).sec = s.sec := setNat_sec ..
@[simp] theorem addWrap_boot (s : State) (b c d) : (State.addWrap s b c d).boot = s.boot := setNat_boot ..
@[simp] theorem addWrap_cue (s : State) (b c d) : (State.addWrap s b c d).cue = s.cue := setNat_cue ..

@[simp] theorem emit_pending (s : State) (b) : (State.emit s b).pending = s.pending := by unfold State.emit; rfl
@[simp] theorem emit_fresh (s : State) (b) : (State.emit s b).fresh = s.fresh := by unfold State.emit; rfl
@[simp] theorem emit_dict (s : State) (b) : (State.emit s b).dict = s.dict := by unfold State.emit; rfl
@[simp] theorem emit_snap (s : State) (b) : (State.emit s b).snap = s.snap := by unfold State.emit; rfl
@[simp] theorem emit_writes (s : State) (b) : (State.emit s b).writes = s.writes := by unfold State.emit; rfl
@[simp] theorem emit_clk (s : State) (b) : (State.emit s b).clk = s.clk := by unfold State.emit; rfl
@[simp] theorem emit_engines (s : State) (b) : (State.emit s b).engines = s.engines := by unfold State.emit; rfl
@[simp] theorem emit_lat (s : State) (b) : (State.emit s b).lat = s.lat := by unfold State.emit; rfl
@[simp] theorem emit_bench (s : State) (b) : (State.emit s b).bench = s.bench := by unfold State.emit; rfl
@[simp] theorem emit_shut (s : State) (b) : (State.emit s b).shut = s.shut := by unfold State.emit; rfl
@[simp] theorem emit_ctl (s : State) (b) : (State.emit s b).ctl = s.ctl := by unfold State.emit; rfl
@[simp] theorem emit_hp (s : State) (b) : (State.emit s b).hp = s.hp := by unfold State.emit; rfl
@[simp] theorem emit_rsv (s : State) (b) : (State.emit s b).rsv = s.rsv := by unfold State.emit; rfl
@[simp] theorem emit_fab (s : State) (b) : (State.emit s b).fab = s.fab := by unfold State.emit; rfl
@[simp] theorem emit_port (s : State) (b) : (State.emit s b).port = s.port := by unfold State.emit; rfl
@[simp] theorem emit_net (s : State) (b) : (State.emit s b).net = s.net := by unfold State.emit; rfl
@[simp] theorem emit_tim (s : State) (b) : (State.emit s b).tim = s.tim := by unfold State.emit; rfl
@[simp] theorem emit_ref (s : State) (b) : (State.emit s b).ref = s.ref := by unfold State.emit; rfl
@[simp] theorem emit_syn (s : State) (b) : (State.emit s b).syn = s.syn := by unfold State.emit; rfl
@[simp] theorem emit_pair (s : State) (b) : (State.emit s b).pair = s.pair := by unfold State.emit; rfl
@[simp] theorem emit_sec (s : State) (b) : (State.emit s b).sec = s.sec := by unfold State.emit; rfl
@[simp] theorem emit_boot (s : State) (b) : (State.emit s b).boot = s.boot := by unfold State.emit; rfl
@[simp] theorem emit_cue (s : State) (b) : (State.emit s b).cue = s.cue := by unfold State.emit; rfl

@[simp] theorem setEngine_pending (s : State) (b c) : (State.setEngine s b c).pending = s.pending := by unfold State.setEngine; rfl
@[simp] theorem setEngine_out (s : State) (b c) : (State.setEngine s b c).out = s.out := by unfold State.setEngine; rfl
@[simp] theorem setEngine_fresh (s : State) (b c) : (State.setEngine s b c).fresh = s.fresh := by unfold State.setEngine; rfl
@[simp] theorem setEngine_dict (s : State) (b c) : (State.setEngine s b c).dict = s.dict := by unfold State.setEngine; rfl
@[simp] theorem setEngine_snap (s : State) (b c) : (State.setEngine s b c).snap = s.snap := by unfold State.setEngine; rfl
@[simp] theorem setEngine_writes (s : State) (b c) : (State.setEngine s b c).writes = s.writes := by unfold State.setEngine; rfl
@[simp] theorem setEngine_clk (s : State) (b c) : (State.setEngine s b c).clk = s.clk := by unfold State.setEngine; rfl
@[simp] theorem setEngine_lat (s : State) (b c) : (State.setEngine s b c).lat = s.lat := by unfold State.setEngine; rfl
@[simp] theorem setEngine_bench (s : State) (b c) : (State.setEngine s b c).bench = s.bench := by unfold State.setEngine; rfl
@[simp] theorem setEngine_shut (s : State) (b c) : (State.setEngine s b c).shut = s.shut := by unfold State.setEngine; rfl
@[simp] theorem setEngine_ctl (s : State) (b c) : (State.setEngine s b c).ctl = s.ctl := by unfold State.setEngine; rfl
@[simp] theorem setEngine_hp (s : State) (b c) : (State.setEngine s b c).hp = s.hp := by unfold State.setEngine; rfl
@[simp] theorem setEngine_rsv (s : State) (b c) : (State.setEngine s b c).rsv = s.rsv := by unfold State.setEngine; rfl
@[simp] theorem setEngine_fab (s : State) (b c) : (State.setEngine s b c).fab = s.fab := by unfold State.setEngine; rfl
@[simp] theorem setEngine_port (s : State) (b c) : (State.setEngine s b c).port = s.port := by unfold State.setEngine; rfl
@[simp] theorem setEngine_net (s : State) (b c) : (State.setEngine s b c).net = s.net := by unfold State.setEngine; rfl
@[simp] theorem setEngine_tim (s : State) (b c) : (State.setEngine s b c).tim = s.tim := by unfold State.setEngine; rfl
@[simp] theorem setEngine_ref (s : State) (b c) : (State.setEngine s b c).ref = s.ref := by unfold State.setEngine; rfl
@[simp] theorem setEngine_syn (s : State) (b c) : (State.setEngine s b c).syn = s.syn := by unfold State.setEngine; rfl
@[simp] theorem setEngine_pair (s : State) (b c) : (State.setEngine s b c).pair = s.pair := by unfold State.setEngine; rfl
@[simp] theorem setEngine_sec (s : State) (b c) : (State.setEngine s b c).sec = s.sec := by unfold State.setEngine; rfl
@[simp] theorem setEngine_boot (s : State) (b c) : (State.setEngine s b c).boot = s.boot := by unfold State.setEngine; rfl
@[simp] theorem setEngine_cue (s : State) (b c) : (State.setEngine s b c).cue = s.cue := by unfold State.setEngine; rfl

@[simp] theorem setSource_pending (s : State) (b c) : (State.setSource s b c).pending = s.pending := by unfold State.setSource; rfl
@[simp] theorem setSource_out (s : State) (b c) : (State.setSource s b c).out = s.out := by unfold State.setSource; rfl
@[simp] theorem setSource_fresh (s : State) (b c) : (State.setSource s b c).fresh = s.fresh := by unfold State.setSource; rfl
@[simp] theorem setSource_dict (s : State) (b c) : (State.setSource s b c).dict = s.dict := by unfold State.setSource; rfl
@[simp] theorem setSource_snap (s : State) (b c) : (State.setSource s b c).snap = s.snap := by unfold State.setSource; rfl
@[simp] theorem setSource_writes (s : State) (b c) : (State.setSource s b c).writes = s.writes := by unfold State.setSource; rfl
@[simp] theorem setSource_clk (s : State) (b c) : (State.setSource s b c).clk = s.clk := by unfold State.setSource; rfl
@[simp] theorem setSource_engines (s : State) (b c) : (State.setSource s b c).engines = s.engines := by unfold State.setSource; rfl
@[simp] theorem setSource_bench (s : State) (b c) : (State.setSource s b c).bench = s.bench := by unfold State.setSource; rfl
@[simp] theorem setSource_shut (s : State) (b c) : (State.setSource s b c).shut = s.shut := by unfold State.setSource; rfl
@[simp] theorem setSource_ctl (s : State) (b c) : (State.setSource s b c).ctl = s.ctl := by unfold State.setSource; rfl
@[simp] theorem setSource_hp (s : State) (b c) : (State.setSource s b c).hp = s.hp := by unfold State.setSource; rfl
@[simp] theorem setSource_rsv (s : State) (b c) : (State.setSource s b c).rsv = s.rsv := by unfold State.setSource; rfl
@[simp] theorem setSource_fab (s : State) (b c) : (State.setSource s b c).fab = s.fab := by unfold State.setSource; rfl
@[simp] theorem setSource_port (s : State) (b c) : (State.setSource s b c).port = s.port := by unfold State.setSource; rfl
@[simp] theorem setSource_net (s : State) (b c) : (State.setSource s b c).net = s.net := by unfold State.setSource; rfl
@[simp] theorem setSource_tim (s : State) (b c) : (State.setSource s b c).tim = s.tim := by unfold State.setSource; rfl
@[simp] theorem setSource_ref (s : State) (b c) : (State.setSource s b c).ref = s.ref := by unfold State.setSource; rfl
@[simp] theorem setSource_syn (s : State) (b c) : (State.setSource s b c).syn = s.syn := by unfold State.setSource; rfl
@[simp] theorem setSource_pair (s : State) (b c) : (State.setSource s b c).pair = s.pair := by unfold State.setSource; rfl
@[simp] theorem setSource_sec (s : State) (b c) : (State.setSource s b c).sec = s.sec := by unfold State.setSource; rfl
@[simp] theorem setSource_boot (s : State) (b c) : (State.setSource s b c).boot = s.boot := by unfold State.setSource; rfl
@[simp] theorem setSource_cue (s : State) (b c) : (State.setSource s b c).cue = s.cue := by unfold State.setSource; rfl

@[simp] theorem setDest_pending (s : State) (b c) : (State.setDest s b c).pending = s.pending := by unfold State.setDest; rw [setNat_pending]
@[simp] theorem setDest_out (s : State) (b c) : (State.setDest s b c).out = s.out := by unfold State.setDest; rw [setNat_out]
@[simp] theorem setDest_fresh (s : State) (b c) : (State.setDest s b c).fresh = s.fresh := by unfold State.setDest; rw [setNat_fresh]
@[simp] theorem setDest_snap (s : State) (b c) : (State.setDest s b c).snap = s.snap := by unfold State.setDest; rw [setNat_snap]
@[simp] theorem setDest_writes (s : State) (b c) : (State.setDest s b c).writes = s.writes := by unfold State.setDest; rw [setNat_writes]
@[simp] theorem setDest_clk (s : State) (b c) : (State.setDest s b c).clk = s.clk := by unfold State.setDest; rw [setNat_clk]
@[simp] theorem setDest_engines (s : State) (b c) : (State.setDest s b c).engines = s.engines := by unfold State.setDest; rw [setNat_engines]
@[simp] theorem setDest_bench (s : State) (b c) : (State.setDest s b c).bench = s.bench := by unfold State.setDest; rw [setNat_bench]
@[simp] theorem setDest_shut (s : State) (b c) : (State.setDest s b c).shut = s.shut := by unfold State.setDest; rw [setNat_shut]
@[simp] theorem setDest_ctl (s : State) (b c) : (State.setDest s b c).ctl = s.ctl := by unfold State.setDest; rw [setNat_ctl]
@[simp] theorem setDest_hp (s : State) (b c) : (State.setDest s b c).hp = s.hp := by unfold State.setDest; rw [setNat_hp]
@[simp] theorem setDest_rsv (s : State) (b c) : (State.setDest s b c).rsv = s.rsv := by unfold State.setDest; rw [setNat_rsv]
@[simp] theorem setDest_fab (s : State) (b c) : (State.setDest s b c).fab = s.fab := by unfold State.setDest; rw [setNat_fab]
@[simp] theorem setDest_port (s : State) (b c) : (State.setDest s b c).port = s.port := by unfold State.setDest; rw [setNat_port]
@[simp] theorem setDest_net (s : State) (b c) : (State.setDest s b c).net = s.net := by unfold State.setDest; rw [setNat_net]
@[simp] theorem setDest_tim (s : State) (b c) : (State.setDest s b c).tim = s.tim := by unfold State.setDest; rw [setNat_tim]
@[simp] theorem setDest_ref (s : State) (b c) : (State.setDest s b c).ref = s.ref := by unfold State.setDest; rw [setNat_ref]
@[simp] theorem setDest_syn (s : State) (b c) : (State.setDest s b c).syn = s.syn := by unfold State.setDest; rw [setNat_syn]
@[simp] theorem setDest_pair (s : State) (b c) : (State.setDest s b c).pair = s.pair := by unfold State.setDest; rw [setNat_pair]
@[simp] theorem setDest_sec (s : State) (b c) : (State.setDest s b c).sec = s.sec := by unfold State.setDest; rw [setNat_sec]
@[simp] theorem setDest_boot (s : State) (b c) : (State.setDest s b c).boot = s.boot := by unfold State.setDest; rw [setNat_boot]
@[simp] theorem setDest_cue (s : State) (b c) : (State.setDest s b c).cue = s.cue := by unfold State.setDest; rw [setNat_cue]

@[simp] theorem setXp_pending (s : State) (b c) : (setXp s b c).pending = s.pending := by unfold setXp; split <;> simp only [setNat_pending, setInt_pending]
@[simp] theorem setXp_out (s : State) (b c) : (setXp s b c).out = s.out := by unfold setXp; split <;> simp only [setNat_out, setInt_out]
@[simp] theorem setXp_fresh (s : State) (b c) : (setXp s b c).fresh = s.fresh := by unfold setXp; split <;> simp only [setNat_fresh, setInt_fresh]
@[simp] theorem setXp_snap (s : State) (b c) : (setXp s b c).snap = s.snap := by unfold setXp; split <;> simp only [setNat_snap, setInt_snap]
@[simp] theorem setXp_writes (s : State) (b c) : (setXp s b c).writes = s.writes := by unfold setXp; split <;> simp only [setNat_writes, setInt_writes]
@[simp] theorem setXp_clk (s : State) (b c) : (setXp s b c).clk = s.clk := by unfold setXp; split <;> simp only [setNat_clk, setInt_clk]
@[simp] theorem setXp_engines (s : State) (b c) : (setXp s b c).engines = s.engines := by unfold setXp; split <;> simp only [setNat_engines, setInt_engines]
@[simp] theorem setXp_lat (s : State) (b c) : (setXp s b c).lat = s.lat := by unfold setXp; split <;> simp only [setNat_lat, setInt_lat]
@[simp] theorem setXp_shut (s : State) (b c) : (setXp s b c).shut = s.shut := by unfold setXp; split <;> simp only [setNat_shut, setInt_shut]
@[simp] theorem setXp_ctl (s : State) (b c) : (setXp s b c).ctl = s.ctl := by unfold setXp; split <;> simp only [setNat_ctl, setInt_ctl]
@[simp] theorem setXp_hp (s : State) (b c) : (setXp s b c).hp = s.hp := by unfold setXp; split <;> simp only [setNat_hp, setInt_hp]
@[simp] theorem setXp_rsv (s : State) (b c) : (setXp s b c).rsv = s.rsv := by unfold setXp; split <;> simp only [setNat_rsv, setInt_rsv]
@[simp] theorem setXp_fab (s : State) (b c) : (setXp s b c).fab = s.fab := by unfold setXp; split <;> simp only [setNat_fab, setInt_fab]
@[simp] theorem setXp_port (s : State) (b c) : (setXp s b c).port = s.port := by unfold setXp; split <;> simp only [setNat_port, setInt_port]
@[simp] theorem setXp_net (s : State) (b c) : (setXp s b c).net = s.net := by unfold setXp; split <;> simp only [setNat_net, setInt_net]
@[simp] theorem setXp_tim (s : State) (b c) : (setXp s b c).tim = s.tim := by unfold setXp; split <;> simp only [setNat_tim, setInt_tim]
@[simp] theorem setXp_ref (s : State) (b c) : (setXp s b c).ref = s.ref := by unfold setXp; split <;> simp only [setNat_ref, setInt_ref]
@[simp] theorem setXp_syn (s : State) (b c) : (setXp s b c).syn = s.syn := by unfold setXp; split <;> simp only [setNat_syn, setInt_syn]
@[simp] theorem setXp_pair (s : State) (b c) : (setXp s b c).pair = s.pair := by unfold setXp; split <;> simp only [setNat_pair, setInt_pair]
@[simp] theorem setXp_sec (s : State) (b c) : (setXp s b c).sec = s.sec := by unfold setXp; split <;> simp only [setNat_sec, setInt_sec]
@[simp] theorem setXp_boot (s : State) (b c) : (setXp s b c).boot = s.boot := by unfold setXp; split <;> simp only [setNat_boot, setInt_boot]
@[simp] theorem setXp_cue (s : State) (b c) : (setXp s b c).cue = s.cue := by unfold setXp; split <;> simp only [setNat_cue, setInt_cue]

@[simp] theorem setAes_pending (s : State) (b c) : (setAes s b c).pending = s.pending := by unfold setAes; rfl
@[simp] theorem setAes_out (s : State) (b c) : (setAes s b c).out = s.out := by unfold setAes; rfl
@[simp] theorem setAes_fresh (s : State) (b c) : (setAes s b c).fresh = s.fresh := by unfold setAes; rfl
@[simp] theorem setAes_dict (s : State) (b c) : (setAes s b c).dict = s.dict := by unfold setAes; rfl
@[simp] theorem setAes_snap (s : State) (b c) : (setAes s b c).snap = s.snap := by unfold setAes; rfl
@[simp] theorem setAes_writes (s : State) (b c) : (setAes s b c).writes = s.writes := by unfold setAes; rfl
@[simp] theorem setAes_clk (s : State) (b c) : (setAes s b c).clk = s.clk := by unfold setAes; rfl
@[simp] theorem setAes_engines (s : State) (b c) : (setAes s b c).engines = s.engines := by unfold setAes; rfl
@[simp] theorem setAes_lat (s : State) (b c) : (setAes s b c).lat = s.lat := by unfold setAes; rfl
@[simp] theorem setAes_bench (s : State) (b c) : (setAes s b c).bench = s.bench := by unfold setAes; rfl
@[simp] theorem setAes_shut (s : State) (b c) : (setAes s b c).shut = s.shut := by unfold setAes; rfl
@[simp] theorem setAes_ctl (s : State) (b c) : (setAes s b c).ctl = s.ctl := by unfold setAes; rfl
@[simp] theorem setAes_hp (s : State) (b c) : (setAes s b c).hp = s.hp := by unfold setAes; rfl
@[simp] theorem setAes_rsv (s : State) (b c) : (setAes s b c).rsv = s.rsv := by unfold setAes; rfl
@[simp] theorem setAes_fab (s : State) (b c) : (setAes s b c).fab = s.fab := by unfold setAes; rfl
@[simp] theorem setAes_net (s : State) (b c) : (setAes s b c).net = s.net := by unfold setAes; rfl
@[simp] theorem setAes_tim (s : State) (b c) : (setAes s b c).tim = s.tim := by unfold setAes; rfl
@[simp] theorem setAes_ref (s : State) (b c) : (setAes s b c).ref = s.ref := by unfold setAes; rfl
@[simp] theorem setAes_syn (s : State) (b c) : (setAes s b c).syn = s.syn := by unfold setAes; rfl
@[simp] theorem setAes_pair (s : State) (b c) : (setAes s b c).pair = s.pair := by unfold setAes; rfl
@[simp] theorem setAes_sec (s : State) (b c) : (setAes s b c).sec = s.sec := by unfold setAes; rfl
@[simp] theorem setAes_boot (s : State) (b c) : (setAes s b c).boot = s.boot := by unfold setAes; rfl
@[simp] theorem setAes_cue (s : State) (b c) : (setAes s b c).cue = s.cue := by unfold setAes; rfl

@[simp] theorem setMemByte_pending (s : State) (b c) : (setMemByte s b c).pending = s.pending := by unfold setMemByte; rfl
@[simp] theorem setMemByte_out (s : State) (b c) : (setMemByte s b c).out = s.out := by unfold setMemByte; rfl
@[simp] theorem setMemByte_fresh (s : State) (b c) : (setMemByte s b c).fresh = s.fresh := by unfold setMemByte; rfl
@[simp] theorem setMemByte_dict (s : State) (b c) : (setMemByte s b c).dict = s.dict := by unfold setMemByte; rfl
@[simp] theorem setMemByte_snap (s : State) (b c) : (setMemByte s b c).snap = s.snap := by unfold setMemByte; rfl
@[simp] theorem setMemByte_writes (s : State) (b c) : (setMemByte s b c).writes = s.writes := by unfold setMemByte; rfl
@[simp] theorem setMemByte_clk (s : State) (b c) : (setMemByte s b c).clk = s.clk := by unfold setMemByte; rfl
@[simp] theorem setMemByte_engines (s : State) (b c) : (setMemByte s b c).engines = s.engines := by unfold setMemByte; rfl
@[simp] theorem setMemByte_lat (s : State) (b c) : (setMemByte s b c).lat = s.lat := by unfold setMemByte; rfl
@[simp] theorem setMemByte_bench (s : State) (b c) : (setMemByte s b c).bench = s.bench := by unfold setMemByte; rfl
@[simp] theorem setMemByte_shut (s : State) (b c) : (setMemByte s b c).shut = s.shut := by unfold setMemByte; rfl
@[simp] theorem setMemByte_ctl (s : State) (b c) : (setMemByte s b c).ctl = s.ctl := by unfold setMemByte; rfl
@[simp] theorem setMemByte_hp (s : State) (b c) : (setMemByte s b c).hp = s.hp := by unfold setMemByte; rfl
@[simp] theorem setMemByte_rsv (s : State) (b c) : (setMemByte s b c).rsv = s.rsv := by unfold setMemByte; rfl
@[simp] theorem setMemByte_port (s : State) (b c) : (setMemByte s b c).port = s.port := by unfold setMemByte; rfl
@[simp] theorem setMemByte_net (s : State) (b c) : (setMemByte s b c).net = s.net := by unfold setMemByte; rfl
@[simp] theorem setMemByte_tim (s : State) (b c) : (setMemByte s b c).tim = s.tim := by unfold setMemByte; rfl
@[simp] theorem setMemByte_ref (s : State) (b c) : (setMemByte s b c).ref = s.ref := by unfold setMemByte; rfl
@[simp] theorem setMemByte_syn (s : State) (b c) : (setMemByte s b c).syn = s.syn := by unfold setMemByte; rfl
@[simp] theorem setMemByte_pair (s : State) (b c) : (setMemByte s b c).pair = s.pair := by unfold setMemByte; rfl
@[simp] theorem setMemByte_sec (s : State) (b c) : (setMemByte s b c).sec = s.sec := by unfold setMemByte; rfl
@[simp] theorem setMemByte_boot (s : State) (b c) : (setMemByte s b c).boot = s.boot := by unfold setMemByte; rfl
@[simp] theorem setMemByte_cue (s : State) (b c) : (setMemByte s b c).cue = s.cue := by unfold setMemByte; rfl

@[simp] theorem onPair_pending (s : State) (b) : (State.onPair s b).pending = s.pending := by unfold State.onPair; rfl
@[simp] theorem onPair_out (s : State) (b) : (State.onPair s b).out = s.out := by unfold State.onPair; rfl
@[simp] theorem onPair_fresh (s : State) (b) : (State.onPair s b).fresh = s.fresh := by unfold State.onPair; rfl
@[simp] theorem onPair_dict (s : State) (b) : (State.onPair s b).dict = s.dict := by unfold State.onPair; rfl
@[simp] theorem onPair_snap (s : State) (b) : (State.onPair s b).snap = s.snap := by unfold State.onPair; rfl
@[simp] theorem onPair_writes (s : State) (b) : (State.onPair s b).writes = s.writes := by unfold State.onPair; rfl
@[simp] theorem onPair_clk (s : State) (b) : (State.onPair s b).clk = s.clk := by unfold State.onPair; rfl
@[simp] theorem onPair_engines (s : State) (b) : (State.onPair s b).engines = s.engines := by unfold State.onPair; rfl
@[simp] theorem onPair_lat (s : State) (b) : (State.onPair s b).lat = s.lat := by unfold State.onPair; rfl
@[simp] theorem onPair_bench (s : State) (b) : (State.onPair s b).bench = s.bench := by unfold State.onPair; rfl
@[simp] theorem onPair_shut (s : State) (b) : (State.onPair s b).shut = s.shut := by unfold State.onPair; rfl
@[simp] theorem onPair_ctl (s : State) (b) : (State.onPair s b).ctl = s.ctl := by unfold State.onPair; rfl
@[simp] theorem onPair_hp (s : State) (b) : (State.onPair s b).hp = s.hp := by unfold State.onPair; rfl
@[simp] theorem onPair_rsv (s : State) (b) : (State.onPair s b).rsv = s.rsv := by unfold State.onPair; rfl
@[simp] theorem onPair_fab (s : State) (b) : (State.onPair s b).fab = s.fab := by unfold State.onPair; rfl
@[simp] theorem onPair_port (s : State) (b) : (State.onPair s b).port = s.port := by unfold State.onPair; rfl
@[simp] theorem onPair_net (s : State) (b) : (State.onPair s b).net = s.net := by unfold State.onPair; rfl
@[simp] theorem onPair_tim (s : State) (b) : (State.onPair s b).tim = s.tim := by unfold State.onPair; rfl
@[simp] theorem onPair_ref (s : State) (b) : (State.onPair s b).ref = s.ref := by unfold State.onPair; rfl
@[simp] theorem onPair_syn (s : State) (b) : (State.onPair s b).syn = s.syn := by unfold State.onPair; rfl
@[simp] theorem onPair_sec (s : State) (b) : (State.onPair s b).sec = s.sec := by unfold State.onPair; rfl
@[simp] theorem onPair_boot (s : State) (b) : (State.onPair s b).boot = s.boot := by unfold State.onPair; rfl
@[simp] theorem onPair_cue (s : State) (b) : (State.onPair s b).cue = s.cue := by unfold State.onPair; rfl

@[simp] theorem setTrig_pending (s : State) (b c) : (setTrig s b c).pending = s.pending := by unfold setTrig; rfl
@[simp] theorem setTrig_out (s : State) (b c) : (setTrig s b c).out = s.out := by unfold setTrig; rfl
@[simp] theorem setTrig_fresh (s : State) (b c) : (setTrig s b c).fresh = s.fresh := by unfold setTrig; rfl
@[simp] theorem setTrig_dict (s : State) (b c) : (setTrig s b c).dict = s.dict := by unfold setTrig; rfl
@[simp] theorem setTrig_snap (s : State) (b c) : (setTrig s b c).snap = s.snap := by unfold setTrig; rfl
@[simp] theorem setTrig_writes (s : State) (b c) : (setTrig s b c).writes = s.writes := by unfold setTrig; rfl
@[simp] theorem setTrig_clk (s : State) (b c) : (setTrig s b c).clk = s.clk := by unfold setTrig; rfl
@[simp] theorem setTrig_engines (s : State) (b c) : (setTrig s b c).engines = s.engines := by unfold setTrig; rfl
@[simp] theorem setTrig_lat (s : State) (b c) : (setTrig s b c).lat = s.lat := by unfold setTrig; rfl
@[simp] theorem setTrig_bench (s : State) (b c) : (setTrig s b c).bench = s.bench := by unfold setTrig; rfl
@[simp] theorem setTrig_shut (s : State) (b c) : (setTrig s b c).shut = s.shut := by unfold setTrig; rfl
@[simp] theorem setTrig_ctl (s : State) (b c) : (setTrig s b c).ctl = s.ctl := by unfold setTrig; rfl
@[simp] theorem setTrig_hp (s : State) (b c) : (setTrig s b c).hp = s.hp := by unfold setTrig; rfl
@[simp] theorem setTrig_rsv (s : State) (b c) : (setTrig s b c).rsv = s.rsv := by unfold setTrig; rfl
@[simp] theorem setTrig_fab (s : State) (b c) : (setTrig s b c).fab = s.fab := by unfold setTrig; rfl
@[simp] theorem setTrig_port (s : State) (b c) : (setTrig s b c).port = s.port := by unfold setTrig; rfl
@[simp] theorem setTrig_net (s : State) (b c) : (setTrig s b c).net = s.net := by unfold setTrig; rfl
@[simp] theorem setTrig_ref (s : State) (b c) : (setTrig s b c).ref = s.ref := by unfold setTrig; rfl
@[simp] theorem setTrig_syn (s : State) (b c) : (setTrig s b c).syn = s.syn := by unfold setTrig; rfl
@[simp] theorem setTrig_pair (s : State) (b c) : (setTrig s b c).pair = s.pair := by unfold setTrig; rfl
@[simp] theorem setTrig_sec (s : State) (b c) : (setTrig s b c).sec = s.sec := by unfold setTrig; rfl
@[simp] theorem setTrig_boot (s : State) (b c) : (setTrig s b c).boot = s.boot := by unfold setTrig; rfl
@[simp] theorem setTrig_cue (s : State) (b c) : (setTrig s b c).cue = s.cue := by unfold setTrig; rfl

@[simp] theorem setPtp_pending (s : State) (b c) : (setPtp s b c).pending = s.pending := by unfold setPtp; rfl
@[simp] theorem setPtp_out (s : State) (b c) : (setPtp s b c).out = s.out := by unfold setPtp; rfl
@[simp] theorem setPtp_fresh (s : State) (b c) : (setPtp s b c).fresh = s.fresh := by unfold setPtp; rfl
@[simp] theorem setPtp_dict (s : State) (b c) : (setPtp s b c).dict = s.dict := by unfold setPtp; rfl
@[simp] theorem setPtp_snap (s : State) (b c) : (setPtp s b c).snap = s.snap := by unfold setPtp; rfl
@[simp] theorem setPtp_writes (s : State) (b c) : (setPtp s b c).writes = s.writes := by unfold setPtp; rfl
@[simp] theorem setPtp_clk (s : State) (b c) : (setPtp s b c).clk = s.clk := by unfold setPtp; rfl
@[simp] theorem setPtp_engines (s : State) (b c) : (setPtp s b c).engines = s.engines := by unfold setPtp; rfl
@[simp] theorem setPtp_lat (s : State) (b c) : (setPtp s b c).lat = s.lat := by unfold setPtp; rfl
@[simp] theorem setPtp_bench (s : State) (b c) : (setPtp s b c).bench = s.bench := by unfold setPtp; rfl
@[simp] theorem setPtp_shut (s : State) (b c) : (setPtp s b c).shut = s.shut := by unfold setPtp; rfl
@[simp] theorem setPtp_ctl (s : State) (b c) : (setPtp s b c).ctl = s.ctl := by unfold setPtp; rfl
@[simp] theorem setPtp_hp (s : State) (b c) : (setPtp s b c).hp = s.hp := by unfold setPtp; rfl
@[simp] theorem setPtp_rsv (s : State) (b c) : (setPtp s b c).rsv = s.rsv := by unfold setPtp; rfl
@[simp] theorem setPtp_fab (s : State) (b c) : (setPtp s b c).fab = s.fab := by unfold setPtp; rfl
@[simp] theorem setPtp_port (s : State) (b c) : (setPtp s b c).port = s.port := by unfold setPtp; rfl
@[simp] theorem setPtp_net (s : State) (b c) : (setPtp s b c).net = s.net := by unfold setPtp; rfl
@[simp] theorem setPtp_ref (s : State) (b c) : (setPtp s b c).ref = s.ref := by unfold setPtp; rfl
@[simp] theorem setPtp_syn (s : State) (b c) : (setPtp s b c).syn = s.syn := by unfold setPtp; rfl
@[simp] theorem setPtp_pair (s : State) (b c) : (setPtp s b c).pair = s.pair := by unfold setPtp; rfl
@[simp] theorem setPtp_sec (s : State) (b c) : (setPtp s b c).sec = s.sec := by unfold setPtp; rfl
@[simp] theorem setPtp_boot (s : State) (b c) : (setPtp s b c).boot = s.boot := by unfold setPtp; rfl
@[simp] theorem setPtp_cue (s : State) (b c) : (setPtp s b c).cue = s.cue := by unfold setPtp; rfl

@[simp] theorem setCue_pending (s : State) (b c) : (setCue s b c).pending = s.pending := by unfold setCue; split <;> rfl
@[simp] theorem setCue_out (s : State) (b c) : (setCue s b c).out = s.out := by unfold setCue; split <;> rfl
@[simp] theorem setCue_fresh (s : State) (b c) : (setCue s b c).fresh = s.fresh := by unfold setCue; split <;> rfl
@[simp] theorem setCue_dict (s : State) (b c) : (setCue s b c).dict = s.dict := by unfold setCue; split <;> rfl
@[simp] theorem setCue_snap (s : State) (b c) : (setCue s b c).snap = s.snap := by unfold setCue; split <;> rfl
@[simp] theorem setCue_writes (s : State) (b c) : (setCue s b c).writes = s.writes := by unfold setCue; split <;> rfl
@[simp] theorem setCue_clk (s : State) (b c) : (setCue s b c).clk = s.clk := by unfold setCue; split <;> rfl
@[simp] theorem setCue_engines (s : State) (b c) : (setCue s b c).engines = s.engines := by unfold setCue; split <;> rfl
@[simp] theorem setCue_lat (s : State) (b c) : (setCue s b c).lat = s.lat := by unfold setCue; split <;> rfl
@[simp] theorem setCue_bench (s : State) (b c) : (setCue s b c).bench = s.bench := by unfold setCue; split <;> rfl
@[simp] theorem setCue_shut (s : State) (b c) : (setCue s b c).shut = s.shut := by unfold setCue; split <;> rfl
@[simp] theorem setCue_ctl (s : State) (b c) : (setCue s b c).ctl = s.ctl := by unfold setCue; split <;> rfl
@[simp] theorem setCue_hp (s : State) (b c) : (setCue s b c).hp = s.hp := by unfold setCue; split <;> rfl
@[simp] theorem setCue_rsv (s : State) (b c) : (setCue s b c).rsv = s.rsv := by unfold setCue; split <;> rfl
@[simp] theorem setCue_fab (s : State) (b c) : (setCue s b c).fab = s.fab := by unfold setCue; split <;> rfl
@[simp] theorem setCue_port (s : State) (b c) : (setCue s b c).port = s.port := by unfold setCue; split <;> rfl
@[simp] theorem setCue_net (s : State) (b c) : (setCue s b c).net = s.net := by unfold setCue; split <;> rfl
@[simp] theorem setCue_tim (s : State) (b c) : (setCue s b c).tim = s.tim := by unfold setCue; split <;> rfl
@[simp] theorem setCue_ref (s : State) (b c) : (setCue s b c).ref = s.ref := by unfold setCue; split <;> rfl
@[simp] theorem setCue_syn (s : State) (b c) : (setCue s b c).syn = s.syn := by unfold setCue; split <;> rfl
@[simp] theorem setCue_pair (s : State) (b c) : (setCue s b c).pair = s.pair := by unfold setCue; split <;> rfl
@[simp] theorem setCue_sec (s : State) (b c) : (setCue s b c).sec = s.sec := by unfold setCue; split <;> rfl
@[simp] theorem setCue_boot (s : State) (b c) : (setCue s b c).boot = s.boot := by unfold setCue; split <;> rfl

/-- A register that has been written reads as written. -/
@[simp] theorem obj_setObj_self (s : State) (ix sub : Nat) (v : Val) : (s.setObj ix sub v).obj ix sub = v := by
  unfold State.obj dictGet State.setObj
  exact mapGet_mapSet_self _ _ _ _

/-- Every other register reads as before. -/
theorem obj_setObj_ne (s : State) {ix sub jx sub' : Nat} (h : objKey jx sub' ≠ objKey ix sub) (v : Val) :
    (s.setObj ix sub v).obj jx sub' = s.obj jx sub' := by
  unfold State.obj dictGet State.setObj
  exact mapGet_mapSet_ne _ h _ _

/-- Registers of different objects are different registers. -/
theorem objKey_ne_index {ix jx sub sub' : Nat} (h : ix ≠ jx) : objKey ix sub ≠ objKey jx sub' := by
  unfold objKey
  omega

/-- Registers of one object with different subindices are different registers. -/
theorem objKey_ne_sub {ix sub sub' : Nat} (h : sub ≠ sub') (hs : sub < 16777216) (hs' : sub' < 16777216) :
    objKey ix sub ≠ objKey ix sub' := by
  unfold objKey
  omega

@[simp] theorem int_setInt_self (s : State) (ix sub : Nat) (n : Int) : (s.setInt ix sub n).int ix sub = n := by
  unfold State.int State.setInt
  rw [obj_setObj_self]
  rfl

@[simp] theorem int_setNat_self (s : State) (ix sub n : Nat) : (s.setNat ix sub n).int ix sub = n := by
  unfold State.int State.setNat
  rw [obj_setObj_self]
  rfl

@[simp] theorem nat_setNat_self (s : State) (ix sub n : Nat) : (s.setNat ix sub n).nat ix sub = n := by
  unfold State.nat
  rw [int_setNat_self]
  rfl

@[simp] theorem flag_setFlag_self (s : State) (ix sub : Nat) (b : Bool) : (s.setFlag ix sub b).flag ix sub = b := by
  unfold State.flag State.int State.setFlag
  rw [obj_setObj_self]
  cases b <;> rfl

theorem int_setNat_ne (s : State) {ix sub jx sub' : Nat} (h : objKey jx sub' ≠ objKey ix sub) (n : Nat) :
    (s.setNat ix sub n).int jx sub' = s.int jx sub' := by
  unfold State.int State.setNat
  rw [obj_setObj_ne s h]

theorem nat_setNat_ne (s : State) {ix sub jx sub' : Nat} (h : objKey jx sub' ≠ objKey ix sub) (n : Nat) :
    (s.setNat ix sub n).nat jx sub' = s.nat jx sub' := by
  unfold State.nat
  rw [int_setNat_ne s h]

theorem nat_setObj_ne (s : State) {ix sub jx sub' : Nat} (h : objKey jx sub' ≠ objKey ix sub) (v : Val) :
    (s.setObj ix sub v).nat jx sub' = s.nat jx sub' := by
  unfold State.nat State.int
  rw [obj_setObj_ne s h]

/-- A change of another field leaves every register as it was. -/
theorem obj_of_dict {s t : State} (h : t.dict = s.dict) (ix sub : Nat) : t.obj ix sub = s.obj ix sub := by
  unfold State.obj
  rw [h]

theorem nat_of_dict {s t : State} (h : t.dict = s.dict) (ix sub : Nat) : t.nat ix sub = s.nat ix sub := by
  unfold State.nat State.int
  rw [obj_of_dict h]

/-- An engine that has been replaced. -/
@[simp] theorem engine_setEngine_self (s : State) (n : Fin 16) (e : Engine) : (s.setEngine n e).engine n = e := by
  simp [State.engine, State.setEngine]

/-- Every other engine is as before. -/
theorem engine_setEngine_ne (s : State) {n m : Fin 16} (h : m ≠ n) (e : Engine) : (s.setEngine n e).engine m = s.engine m := by
  have : n.val ≠ m.val := fun k => h (Fin.ext k.symm)
  simp [State.engine, State.setEngine, this]

@[simp] theorem setEngine_setEngine (s : State) (n : Fin 16) (e f : Engine) : (s.setEngine n e).setEngine n f = s.setEngine n f := by
  unfold State.setEngine
  simp [Vector.set_set]

@[simp] theorem setEngine_self (s : State) (n : Fin 16) : s.setEngine n (s.engine n) = s := by
  have : s.engines.set n.val s.engines[n.val] = s.engines := by
    ext i hi
    simp only [Vector.getElem_set]
    split
    · next h => subst h; rfl
    · rfl
  unfold State.setEngine State.engine
  rw [this]

/-- The registers of the event log (R204). -/
def isLogIx (ix : Nat) : Bool :=
  ix == Ix.ctlLogHead || ix == Ix.ctlLogCode || ix == Ix.ctlLogTick || ix == Ix.ctlLogDetail || ix == Ix.ctlLogRepeat

/-- The state without the event log and what its entries touch (R204, R205). -/
def State.stripLog (s : State) : State := { s with dict := [], hp := HpSt.reset, ctl := CtlSt.reset }

/-- From `s` to `t` only the event log has changed (R204, R205). -/
structure LogOnly (s t : State) : Prop where
  same : t.stripLog = s.stripLog
  obj : ∀ ix sub, isLogIx ix = false → t.obj ix sub = s.obj ix sub

theorem LogOnly.refl (s : State) : LogOnly s s := ⟨rfl, fun _ _ _ => rfl⟩

theorem LogOnly.trans {s t u : State} (h : LogOnly s t) (k : LogOnly t u) : LogOnly s u :=
  ⟨k.same.trans h.same, fun ix sub a => (k.obj ix sub a).trans (h.obj ix sub a)⟩

theorem LogOnly.setNat {s t : State} (h : LogOnly s t) {ix sub : Nat} (hx : isLogIx ix = true) (n : Nat) :
    LogOnly s (t.setNat ix sub n) := by
  refine h.trans ⟨?_, fun jx sub' a => ?_⟩
  · unfold State.stripLog State.setNat State.setObj
    rfl
  · have hne : jx ≠ ix := by
      intro e
      rw [e, hx] at a
      cases a
    exact obj_setObj_ne t (objKey_ne_index hne) _

theorem LogOnly.hpCtl {s t : State} (h : LogOnly s t) (hp : HpSt) (ctl : CtlSt) : LogOnly s { t with hp := hp, ctl := ctl } :=
  h.trans ⟨rfl, fun _ _ _ => rfl⟩

theorem logAdd_logOnly (s : State) (code detail : Nat) : LogOnly s (logAdd s code detail) := by
  unfold logAdd
  dsimp only
  split
  · exact (LogOnly.refl s).setNat rfl _
  · exact ((((((LogOnly.refl s).setNat rfl _).setNat rfl _).setNat rfl _).setNat rfl _).setNat rfl _).hpCtl _ _

theorem logWrapCheck_logOnly (s : State) : LogOnly s (logWrapCheck s) := by
  unfold logWrapCheck
  split
  · exact (LogOnly.refl s).hpCtl _ _
  · split
    · exact LogOnly.refl s
    · exact ((LogOnly.refl s).hpCtl s.hp _).trans (logAdd_logOnly _ _ _)

theorem logAlarm_logOnly (s : State) (code detail : Nat) : LogOnly s (logAlarm s code detail) :=
  (logAdd_logOnly s code detail).trans (logWrapCheck_logOnly _)

theorem LogOnly.ite {s t u : State} {c : Prop} [Decidable c] (ht : LogOnly s t) (hu : LogOnly s u) :
    LogOnly s (if c then t else u) := by
  split
  · exact ht
  · exact hu

/-- Raising an alarm changes the event log and nothing else (R204, R339). -/
theorem alarm_logOnly (s : State) (a : AlarmId) (detail : Nat) : LogOnly s (s.alarm a detail) := by
  unfold State.alarm
  exact ((logAlarm_logOnly s _ _).trans (logAlarm_logOnly _ _ _)).ite (logAlarm_logOnly s _ _)

theorem alarmIf_logOnly (s : State) (c : Bool) (a : AlarmId) (detail : Nat) : LogOnly s (s.alarmIf c a detail) := by
  unfold State.alarmIf
  split
  · exact alarm_logOnly s a detail
  · exact LogOnly.refl s

theorem LogOnly.nat {s t : State} (h : LogOnly s t) {ix sub : Nat} (hx : isLogIx ix = false) :
    t.nat ix sub = s.nat ix sub := by
  unfold State.nat State.int
  rw [h.obj ix sub hx]

theorem LogOnly.fresh {s t : State} (h : LogOnly s t) : t.fresh = s.fresh := by
  have k := congrArg State.fresh h.same
  exact k
theorem LogOnly.pending {s t : State} (h : LogOnly s t) : t.pending = s.pending := by
  have k := congrArg State.pending h.same
  exact k
theorem LogOnly.out {s t : State} (h : LogOnly s t) : t.out = s.out := by
  have k := congrArg State.out h.same
  exact k
theorem LogOnly.snap {s t : State} (h : LogOnly s t) : t.snap = s.snap := by
  have k := congrArg State.snap h.same
  exact k
theorem LogOnly.writes {s t : State} (h : LogOnly s t) : t.writes = s.writes := by
  have k := congrArg State.writes h.same
  exact k
theorem LogOnly.clk {s t : State} (h : LogOnly s t) : t.clk = s.clk := by
  have k := congrArg State.clk h.same
  exact k
theorem LogOnly.engines {s t : State} (h : LogOnly s t) : t.engines = s.engines := by
  have k := congrArg State.engines h.same
  exact k
theorem LogOnly.lat {s t : State} (h : LogOnly s t) : t.lat = s.lat := by
  have k := congrArg State.lat h.same
  exact k
theorem LogOnly.bench {s t : State} (h : LogOnly s t) : t.bench = s.bench := by
  have k := congrArg State.bench h.same
  exact k
theorem LogOnly.shut {s t : State} (h : LogOnly s t) : t.shut = s.shut := by
  have k := congrArg State.shut h.same
  exact k
theorem LogOnly.rsv {s t : State} (h : LogOnly s t) : t.rsv = s.rsv := by
  have k := congrArg State.rsv h.same
  exact k
theorem LogOnly.fab {s t : State} (h : LogOnly s t) : t.fab = s.fab := by
  have k := congrArg State.fab h.same
  exact k
theorem LogOnly.port {s t : State} (h : LogOnly s t) : t.port = s.port := by
  have k := congrArg State.port h.same
  exact k
theorem LogOnly.net {s t : State} (h : LogOnly s t) : t.net = s.net := by
  have k := congrArg State.net h.same
  exact k
theorem LogOnly.tim {s t : State} (h : LogOnly s t) : t.tim = s.tim := by
  have k := congrArg State.tim h.same
  exact k
theorem LogOnly.ref {s t : State} (h : LogOnly s t) : t.ref = s.ref := by
  have k := congrArg State.ref h.same
  exact k
theorem LogOnly.syn {s t : State} (h : LogOnly s t) : t.syn = s.syn := by
  have k := congrArg State.syn h.same
  exact k
theorem LogOnly.pair {s t : State} (h : LogOnly s t) : t.pair = s.pair := by
  have k := congrArg State.pair h.same
  exact k
theorem LogOnly.sec {s t : State} (h : LogOnly s t) : t.sec = s.sec := by
  have k := congrArg State.sec h.same
  exact k
theorem LogOnly.boot {s t : State} (h : LogOnly s t) : t.boot = s.boot := by
  have k := congrArg State.boot h.same
  exact k
theorem LogOnly.cue {s t : State} (h : LogOnly s t) : t.cue = s.cue := by
  have k := congrArg State.cue h.same
  exact k
end Sys2Proof.Machine
end

