-- ==== Sys2Proof/Laws/Slots.lean ====
section
/-! SUPPORT. What issuing a slot does: once for every slot that its operation accepts. -/

namespace Sys2Proof.Machine

theorem SlotFrame.refl (s : State) (n : Fin 16) : SlotFrame s s n :=
  ⟨fun _ _ => rfl, fun _ => rfl, fun _ _ _ => rfl, ⟨rfl, rfl, rfl, rfl, rfl, rfl, rfl, rfl, rfl, rfl, rfl, rfl, rfl, rfl, rfl, rfl⟩⟩

theorem SlotFrame.trans {s t u : State} {n : Fin 16} (h : SlotFrame s t n) (k : SlotFrame t u n) : SlotFrame s u n := by
  obtain ⟨he, hm, hr, h1, h2, h3, h4, h5, h6, h7, h8, h9, h10, h11, h12, h13, h14, h15, h16⟩ := h
  obtain ⟨ke, km, kr, k1, k2, k3, k4, k5, k6, k7, k8, k9, k10, k11, k12, k13, k14, k15, k16⟩ := k
  exact ⟨fun m q => (ke m q).trans (he m q), fun a => (km a).trans (hm a), fun ix sub a => (kr ix sub a).trans (hr ix sub a),
    k1.trans h1, k2.trans h2, k3.trans h3, k4.trans h4, k5.trans h5, k6.trans h6, k7.trans h7, k8.trans h8, k9.trans h9,
    k10.trans h10, k11.trans h11, k12.trans h12, k13.trans h13, k14.trans h14, k15.trans h15, k16.trans h16⟩

theorem slotIx_of_log {ix : Nat} (h : slotIx ix = false) : isLogIx ix = false := by
  simp only [slotIx, isLogIx, Bool.or_eq_false_iff] at *
  simp only [h, and_self]

theorem memByte_of_fab {s t : State} (h : t.fab.mem = s.fab.mem) (a : Nat) : memByte t a = memByte s a := by
  unfold memByte
  rw [h]

theorem engine_of_engines {s t : State} (h : t.engines = s.engines) (n : Fin 16) : t.engine n = s.engine n := by
  unfold State.engine
  rw [h]

theorem LogOnly.slot {s t : State} (h : LogOnly s t) (n : Fin 16) : SlotFrame s t n :=
  ⟨fun m _ => engine_of_engines h.engines m, memByte_of_fab (by rw [h.fab]), fun ix sub a => h.obj ix sub (slotIx_of_log a),
    h.snap, h.writes, h.clk, h.lat, h.bench, h.shut, h.port, h.net, h.tim, h.ref, h.syn, h.pair, h.sec, h.boot, h.cue, h.out⟩

/-- A write of one of the registers a slot may change. -/
theorem setNat_slot (s : State) {ix sub : Nat} (hx : slotIx ix = true) (v : Nat) (n : Fin 16) :
    SlotFrame s (s.setNat ix sub v) n := by
  refine ⟨fun m _ => engine_of_engines (setNat_engines ..) m, memByte_of_fab (by rw [setNat_fab]), fun jx sub' a => ?_, ?_⟩
  · have hne : jx ≠ ix := by
      intro e
      rw [e, hx] at a
      cases a
    exact obj_setObj_ne s (objKey_ne_index hne) _
  · simp

theorem setEngine_slot (s : State) (n : Fin 16) (e : Engine) : SlotFrame s (s.setEngine n e) n :=
  ⟨fun _ q => engine_setEngine_ne s q e, memByte_of_fab (by rw [setEngine_fab]), fun ix sub _ => obj_of_dict (setEngine_dict ..) ix sub,
    by simp⟩

/-- A slot's signals leave the engine as it was put back. -/
def SlotAt (s t : State) (n : Fin 16) : Prop := SlotFrame s t n ∧ t.engine n = s.engine n

theorem SlotAt.refl (s : State) (n : Fin 16) : SlotAt s s n := ⟨SlotFrame.refl s n, rfl⟩

theorem SlotAt.trans {s t u : State} {n : Fin 16} (h : SlotAt s t n) (k : SlotAt t u n) : SlotAt s u n :=
  ⟨h.1.trans k.1, k.2.trans h.2⟩

theorem LogOnly.slotAt {s t : State} (h : LogOnly s t) (n : Fin 16) : SlotAt s t n := ⟨h.slot n, engine_of_engines h.engines n⟩

theorem setNat_slotAt (s : State) {ix sub : Nat} (hx : slotIx ix = true) (v : Nat) (n : Fin 16) :
    SlotAt s (s.setNat ix sub v) n := ⟨setNat_slot s hx v n, engine_of_engines (setNat_engines ..) n⟩

theorem dlySectionDone_slotAt (s : State) (p : Fin 16) (second : Bool) (n : Fin 16) : SlotAt s (dlySectionDone s p second) n := by
  unfold dlySectionDone
  exact ⟨⟨fun _ _ => rfl, fun _ => rfl, fun _ _ _ => rfl,
    ⟨rfl, rfl, rfl, rfl, rfl, rfl, rfl, rfl, rfl, rfl, rfl, rfl, rfl, rfl, rfl, rfl⟩⟩, rfl⟩

theorem hostFlags_slotAt (s : State) (m : Fin 16) (fl : Nat) (n : Fin 16) : SlotAt s (hostFlags s m fl) n := by
  unfold hostFlags
  split
  · exact SlotAt.refl s n
  · next p _ =>
    exact (((setNat_slotAt s rfl _ n).trans ((alarmIf_logOnly _ _ _ _).slotAt n)).trans
      ((alarmIf_logOnly _ _ _ _).slotAt n)).trans ((alarmIf_logOnly _ _ _ _).slotAt n)

theorem addPlace_slotAt (s : State) (n : Fin 16) {ix : Nat} (k : Nat) (hold : Bool) (hx : slotIx ix = true) (m : Fin 16) :
    SlotAt s (addPlace s n ix k hold) m := by
  unfold addPlace
  split
  · exact SlotAt.refl s m
  · next p _ =>
    split
    · exact setNat_slotAt s hx _ m
    · exact setNat_slotAt s hx _ m

theorem countCorrected_slotAt (s : State) (n m : Fin 16) : SlotAt s (countCorrected s n) m := by
  unfold countCorrected
  lift_lets
  intro s1 s2 old
  have h1 : SlotAt s s1 m := addPlace_slotAt s n 1 true rfl m
  have h2 : SlotAt s1 s2 m := setNat_slotAt s1 rfl _ m
  clear_value s1 s2 old
  exact (h1.trans h2).trans ⟨⟨fun _ _ => rfl, fun _ => rfl, fun _ _ _ => rfl,
    ⟨rfl, rfl, rfl, rfl, rfl, rfl, rfl, rfl, rfl, rfl, rfl, rfl, rfl, rfl, rfl, rfl⟩⟩, rfl⟩

theorem countFixes_slotAt (n m : Fin 16) (k : Nat) (s : State) : SlotAt s (countFixes n k s) m := by
  induction k generalizing s with
  | zero => exact SlotAt.refl s m
  | succ k ih => exact (countCorrected_slotAt s n m).trans (ih _)

theorem applySig_slotAt (n : Fin 16) (s : State) (g : EngSig) (m : Fin 16) : SlotAt s (applySig n s g) m := by
  unfold applySig
  split
  · exact (alarmIf_logOnly _ _ _ _).slotAt m
  · exact (alarm_logOnly _ _ _).slotAt m
  · exact countFixes_slotAt _ m _ s
  · refine SlotAt.trans ?_ (hostFlags_slotAt _ _ _ m)
    split
    · exact dlySectionDone_slotAt s _ _ m
    · exact SlotAt.refl s m

theorem foldl_slotAt (n m : Fin 16) (l : List EngSig) (s : State) : SlotAt s (l.foldl (applySig n) s) m := by
  induction l generalizing s with
  | nil => exact SlotAt.refl s m
  | cons g l ih => exact (applySig_slotAt n s g m).trans (ih _)

/-- Putting an engine back changes that engine, and of the rest only what `SlotFrame` allows. -/
theorem commitEngine_frame (s : State) (n : Fin 16) (p : Engine × List EngSig) :
    SlotFrame s (commitEngine s n p) n ∧ (commitEngine s n p).engine n = p.1 := by
  have k := foldl_slotAt n n p.2 (s.setEngine n p.1)
  unfold commitEngine
  exact ⟨(setEngine_slot s n p.1).trans k.1, k.2.trans (engine_setEngine_self s n p.1)⟩

@[simp] theorem commitEngine_nil (s : State) (n : Fin 16) (e : Engine) : commitEngine s n (e, []) = s.setEngine n e := rfl

theorem SlotFrame.tickView {s t : State} {n : Fin 16} (h : SlotFrame s t n) (e : Engine) : tickView t e = tickView s e := by
  have hc : t.clk = s.clk := h.rest.2.2.1
  unfold Machine.tickView viewAt State.tick
  rw [hc]

/-- A bundle whose loads are good closes: its cycle ends. -/
theorem closeBundle_good {e : Engine} (h : e.cur.bad = false) : (closeBundle e).2.2 = false := by
  simp [closeBundle, h]

/-- A slot that its operation accepts: the engine afterwards, and what stays as it was. -/
theorem issueSlot_ok {s : State} {is : Issue} {act : TickView → Engine → SlotOut} {e : Engine} (hr : SlotReady s is)
    (ha : act (tickView s (slotFinds s is)) (slotFinds s is) = .ok e) (hb : is.last = true → e.cur.bad = false) :
    (issueSlot is act s).engine is.eng = slotLeaves is e ∧ SlotFrame s (issueSlot is act s) is.eng := by
  have k1 := commitEngine_frame s is.eng ((startBundle is (s.engine is.eng)).1, (startBundle is (s.engine is.eng)).2.1)
  have ha' : act (tickView (commitEngine s is.eng ((startBundle is (s.engine is.eng)).1, (startBundle is (s.engine is.eng)).2.1))
      (startBundle is (s.engine is.eng)).1) (startBundle is (s.engine is.eng)).1 = .ok e := by
    rw [k1.1.tickView]
    exact ha
  unfold issueSlot
  simp only [hr.issues, hr.fetched, Bool.not_true, Bool.false_eq_true, if_false, ha']
  cases hl : is.last with
  | false =>
    have k := commitEngine_frame (commitEngine s is.eng ((startBundle is (s.engine is.eng)).1, (startBundle is (s.engine is.eng)).2.1)) is.eng (e, [])
    simp only [Bool.not_false, if_true, slotLeaves, hl, Bool.false_eq_true, if_false]
    exact ⟨k.2, k1.1.trans k.1⟩
  | true =>
    have k := commitEngine_frame (commitEngine s is.eng ((startBundle is (s.engine is.eng)).1, (startBundle is (s.engine is.eng)).2.1)) is.eng
      ((closeBundle e).1, (closeBundle e).2.1)
    simp only [Bool.not_true, Bool.false_eq_true, if_false, slotLeaves, hl, if_true, closeBundle_good (hb hl)]
    exact ⟨k.2, k1.1.trans k.1⟩

end Sys2Proof.Machine
end

