-- ==== Sys2Proof/WellFormed.lean ====
section
/-! DEFINITION. What a command's operands have to satisfy beyond their types. The model gives every command a meaning
whatever its operands; a host that drives it sends well-formed ones. -/

namespace Sys2Proof

/-- A fabric transaction of R349: beats of 1, 2, 4, 8, 16 or 32 bytes, 1 to 16 of them, with the data of a write. -/
def FabTx.ok (t : FabTx) : Bool :=
  [1, 2, 4, 8, 16, 32].contains t.size && decide (1 ≤ t.beats) && decide (t.beats ≤ 16) &&
    (if t.write then t.data.length == t.size * t.beats else t.data.isEmpty)

/-- A destination identifier (R139, R141). -/
def destId (d : Nat) : Bool :=
  decide (d ≤ 0x240F) || (decide (0x2800 ≤ d) && decide (d ≤ 0x3FFF)) || d == 0x4000 || d == 0x4001

/-- A value on the link has one of the type codes of R184, and a subindex of 24 bits. -/
def WireVal.ok (v : WireVal) : Bool :=
  decide (1 ≤ v.ty.toNat) && decide (v.ty.toNat ≤ 0x0E) && decide (v.sub < 16777216)

/-- A descriptor ring of R252: 16 to 4,096 descriptors, 32-byte aligned. -/
def RingPlace.ok (r : RingPlace) : Bool :=
  decide (16 ≤ r.size) && decide (r.size ≤ 4096) && decide (r.base.toNat % 32 = 0)

/-- Whether a command is well formed. -/
def Instr.wellFormed : Instr → Bool
  | .mboxInMessage _ ws => decide (1 ≤ ws.length) && decide (ws.length ≤ 8)
  | .aesCsBlock _ a b _ => a.length == 24 && b.length == 24
  | .fabricTransaction t => t.ok
  | .commandFrameReceived _ _ _ _ _ b => decide (b.length ≤ 1500)
  | .hpDpdataWrite b _ => decide (b.length ≤ 8192)
  | .ringFrameReceived _ _ _ _ r => r.all RingPlace.ok
  | .txDescriptorHandover _ r _ => r.place.ok
  | .latticeGather g => destId g.dest.toNat
  | .egressConvert d => destId d.toNat
  | .mirrorWrite _ _ _ v => v.ok
  | .mirrorStage _ _ set slot cs => decide (set < 16) && decide (slot < 16) && cs.all WireVal.ok
  | .mirrorXpStep _ _ xp sample event _ => decide (xp < 786432) && decide (sample < 32) && decide (event < 3)
  | .mirrorGr _ _ place _ ws => decide (place < 16) && decide (ws.length ≤ 1024)
  | .mirrorPlaceCrc _ _ cs => cs.length == 16
  | .digest _ _ h => h.length == 32
  | .grant m => m.bytes.length == 48
  | .deny m => m.bytes.length == 48
  | .keep m => m.bytes.length == 48
  | .yield m => m.bytes.length == 48
  | _ => true

end Sys2Proof
end

