-- ==== Sys2Proof/Tests/Slice0.lean ====
section
/-! SUPPORT. Tests: values worked in the spec, and for every statement of Certificates/Slice0/Obligations.lean states and
operands that meet its hypotheses, clause by clause, with what the command then leaves. -/

namespace Sys2Proof.Tests

open Sys2Proof Sys2Proof.Machine

set_option Elab.async false

/-- A command answers a next state, of which `p` holds. -/
def got (c : Instr) (s : State) (p : State → Bool) : Bool :=
  match exec c s with
  | .next t => p t
  | _ => false

/-- The slot of engine 0 with others to follow in its bundle. -/
def slot0 : Issue := { eng := 0, nops := 0, fetch := .ok, last := false }
/-- A line whose last word is uncorrectable, and one whose last word is corrected. -/
def badLine : LineEcc := ⟨.ok, .ok, .ok, .bad⟩
def fixedLine : LineEcc := ⟨.ok, .ok, .ok, .corrected⟩
/-- A gather, a frame and a sum that meet no error. -/
def clean : LatReads := ⟨.ok, .ok, .ok⟩
def cleanFrame : FrameReads := ⟨false, []⟩
def cleanSum : SumReads := { fixed := [], bad := [], waited := 0 }
/-- The last slot of its bundle. -/
def slotEnd : Issue := { eng := 0, nops := 0, fetch := .ok, last := true }
/-- Engine 0 running, its bundle open. -/
def eng0 : Engine := { Engine.reset with run := .running, inBundle := true }
/-- The block with engine 0 as given. -/
def withEng (e : Engine) : State := State.reset.setEngine 0 e
/-- A register file with the first data registers given. -/
def dregs (a b c d : Word) : RegFile :=
  { RegFile.reset with d := (((RegFile.reset.d.set 0 a).set 1 b).set 2 c).set 3 d }

/-! ## Operands -/

theorem test_wf_message : Instr.wellFormed (.mboxInMessage 0 [1]) = true ∧ Instr.wellFormed (.mboxInMessage 0 []) = false ∧
    Instr.wellFormed (.mboxInMessage 0 (List.replicate 9 0)) = false := by decide
theorem test_wf_status : Instr.wellFormed (.aesCsBlock 0 (List.replicate 24 0) (List.replicate 24 0) true) = true ∧
    Instr.wellFormed (.aesCsBlock 0 (List.replicate 23 0) (List.replicate 24 0) true) = false := by decide
/-- A transaction of one beat. -/
def tx1 (size : Nat) (write : Bool) (data : List Byte) : FabTx :=
  { master := 1, write := write, addr := 0x0060000000, size := size, beats := 1, data := data, cycle := 0, waits := 0, stalls := 0, ownStalls := 0 }
theorem test_wf_transaction : Instr.wellFormed (.fabricTransaction (tx1 4 false [])) = true ∧
    Instr.wellFormed (.fabricTransaction (tx1 3 false [])) = false ∧
    Instr.wellFormed (.fabricTransaction (tx1 4 true [0])) = false ∧
    Instr.wellFormed (.fabricTransaction { tx1 4 false [] with beats := 17 }) = false := by decide
theorem test_wf_dest : Instr.wellFormed (.latticeGather ⟨0x240F, clean⟩) = true ∧ Instr.wellFormed (.latticeGather ⟨0x2410, clean⟩) = false ∧
    Instr.wellFormed (.egressConvert 0x4001) = true ∧ Instr.wellFormed (.egressConvert 0x4002) = false := by decide
/-- A value on the link. -/
def wire (ix ty sub : Nat) (b : List Byte) : WireVal :=
  { index := BitVec.ofNat 16 ix, ty := BitVec.ofNat 8 ty, sub := sub, keyed := false, value := b }
/-- A frame of the link's sequence, in order after reset. -/
def linkFrame1 : LinkRec := { seq := 1, good := true, first := true }
theorem test_wf_mirror : Instr.wellFormed (.mirrorWrite linkFrame1 1 1 (wire 0x0400 4 0 [])) = true ∧
    Instr.wellFormed (.mirrorWrite linkFrame1 1 1 (wire 0x0400 0 0 [])) = false ∧
    Instr.wellFormed (.mirrorWrite linkFrame1 1 1 (wire 0x0400 4 16777216 [])) = false ∧
    Instr.wellFormed (.mirrorStage linkFrame1 1 16 0 []) = false ∧ Instr.wellFormed (.mirrorXpStep linkFrame1 1 786432 0 0 0) = false ∧
    Instr.wellFormed (.mirrorGr linkFrame1 1 16 0 []) = false ∧ Instr.wellFormed (.mirrorPlaceCrc linkFrame1 1 [0]) = false ∧
    Instr.wellFormed (.digest linkFrame1 1 []) = false := by decide
theorem test_wf_witness : Instr.wellFormed (.grant ⟨List.replicate 48 0, 0, 0⟩) = true ∧ Instr.wellFormed (.grant ⟨[], 0, 0⟩) = false ∧
    Instr.wellFormed (.deny ⟨[], 0, 0⟩) = false ∧ Instr.wellFormed (.keep ⟨[], 0, 0⟩) = false ∧
    Instr.wellFormed (.yield ⟨[], 0, 0⟩) = false := by decide
theorem test_wf_frames : Instr.wellFormed (.hpDpdataWrite (List.replicate 8193 0) []) = false ∧
    Instr.wellFormed (.commandFrameReceived ⟨0, 0⟩ 0 0 false false (List.replicate 1501 0)) = false := by decide +kernel
theorem test_wf_rings : Instr.wellFormed (.txDescriptorHandover 0 ⟨⟨0x20000000, 16⟩, 0⟩ false) = true ∧
    Instr.wellFormed (.txDescriptorHandover 0 ⟨⟨0x20000000, 15⟩, 0⟩ false) = false ∧
    Instr.wellFormed (.txDescriptorHandover 0 ⟨⟨0x20000010, 16⟩, 0⟩ false) = false ∧
    Instr.wellFormed (.ringFrameReceived 0 [] true ⟨0, 0, 0⟩ (some ⟨0x20000000, 4097⟩)) = false := by decide
theorem test_decode_none : decodeTableWord 16 0 = none := by decide

/-! ## Engines -/

/-- R73, the worked stores. -/
theorem test_store_worked : window 0x0180000000000000 30 = (0x06000000, false) ∧
    window (-0x20000000) 30 = (0xFFFFFFFF, false) ∧ window 0x2FFFFFFFA0000000 30 = (0x7FFFFFFF, true) ∧
    window 0x2FFFFFFFA0000000 40 = (0x002FFFFF, false) ∧ window 0x7FFFFFFFFFFFFFFFFF 27 = (0x7FFFFFFF, true) ∧
    window (-(2 ^ 40)) 8 = (0x80000000, true) := by decide
/-- Engine 0 with the operands of the worked complex product. -/
def cplx : Engine := { eng0 with rf := dregs 0x40000000 0x20000000 0x40000000 0xC0000000 }
/-- R70, the worked complex product: the sums in flight, and what SHIFT 31 stores of them. -/
theorem test_cmpy_worked : got (.cmpy slot0 0 0 1) (withEng cplx) (fun t => (t.engine 0).flight ==
      [result cplx 2 0 (.macc 0 .load 0x1800000000000000), result cplx 2 1 (.macc 1 .load (-0x0800000000000000))]) = true ∧
    got (.cmpyj slot0 0 0 1) (withEng cplx) (fun t => (t.engine 0).flight ==
      [result cplx 2 0 (.macc 0 .load 0x0800000000000000), result cplx 2 1 (.macc 1 .load 0x1800000000000000)]) = true ∧
    (window 0x1800000000000000 31).1 = 0x30000000 ∧ (window (-0x0800000000000000) 31).1 = 0xF0000000 ∧
    (window 0x0800000000000000 31).1 = 0x10000000 := by decide
/-- Two products into one accumulator are one sum (R71). -/
theorem test_slot_ready : SlotReady (withEng cplx) slot0 ∧ SlotReady (withEng cplx) slotEnd :=
  ⟨⟨by decide, by decide, by decide⟩, ⟨by decide, by decide, by decide⟩⟩
theorem test_mac_forms : (slotFinds (withEng cplx) slot0).cur.complex = false ∧ (slotFinds (withEng cplx) slot0).cur.mac1 = false ∧
    got (.mpy slot0 .mac1 2 0 1) (withEng cplx) (fun t => (t.engine 0).cur.mac1) = true ∧
    got (.mac2 slot0 .mac1 2 2 0 1 2 3) (withEng cplx) (fun t => (t.engine 0).flight ==
      [result cplx 2 1 (.macc 2 .add (0x40000000 * 0x20000000 - 0x40000000 * 0x40000000))]) = true ∧
    got (.msu slot0 .mac0 3 1 3) (withEng cplx) (fun t => (t.engine 0).events == [(0x05, 1), (0x06, 1)]) = true := by decide
/-- A bundle that is not open yet opens, and its last slot ends its cycle: results land when they are due (R87). -/
theorem test_mac_lands : got (.mpy slotEnd .mac0 0 0 2) (withEng { cplx with inBundle := false }) (fun t =>
      (t.engine 0).cyc == 1 && (t.engine 0).pc == 1 && (t.engine 0).lastPc == 0 && (t.engine 0).flight.length == 1) = true := by
  decide
/-- R78, the worked circular addresses: steps 2, 5 and 6. -/
theorem test_circular_worked : nextCircular 0x102E 0x1000 48 4 = (0x1002, false) ∧ nextCircular 0x1001 0x1000 48 (-4) = (0x102D, false) ∧
    nextCircular 0x102D 0x1000 16 1 = (0x1000, true) := by decide
/-- R79, the worked bit-reversed addresses. -/
theorem test_reversed_worked : nextReversed 0x2000 0x2000 8 4 = (0x2004, false) ∧ nextReversed 0x2004 0x2000 8 4 = (0x2002, false) ∧
    nextReversed 0x2007 0x2000 8 4 = (0x2000, false) ∧ nextReversed 0x2003 0x2000 8 4 = (0x2007, false) := by decide
/-- R77 at the top of memory. -/
theorem test_linear_wraps : RegFile.reset.vmode.extractLsb' 2 2 = 0 ∧ RegFile.reset.vl[1] = 0 ∧
    nextAddr { RegFile.reset with va := RegFile.reset.va.set 1 0xFFFF } 1 1 = (0, false) ∧
    nextAddr RegFile.reset 1 (-1) = (0xFFFF, false) := by decide
/-- R64, R72: an addition that overflows; a saturated negation; a comparison. -/
theorem test_alu_flags :
    got (.add slot0 3 0 (.reg 1)) (withEng { eng0 with rf := dregs 0x7FFFFFFF 1 0 0 }) (fun t => (t.engine 0).flight ==
      aluResults eng0 (some 3) 0x80000000 (some (false, true)) false) = true ∧
    got (.negOp slot0 3 0) (withEng { eng0 with rf := dregs 0x80000000 0 0 0 }) (fun t => (t.engine 0).flight ==
      aluResults eng0 (some 3) 0x7FFFFFFF none true) = true ∧
    got (.cmp slot0 0 (.imm 1)) (withEng eng0) (fun t => (t.engine 0).flight ==
      aluResults eng0 none 0xFFFFFFFF (some (false, false)) false) = true ∧
    got (.asr slot0 3 0 (.imm 31)) (withEng { eng0 with rf := dregs 0x80000000 0 0 0 }) (fun t => (t.engine 0).flight ==
      aluResults eng0 (some 3) 0xFFFFFFFF none false) = true := by decide
/-- R68 at its ends: the accumulate that clamps and the one that just fits. -/
def accAt (v : Acc) (c : Int) : Engine :=
  { eng0 with rf := { RegFile.reset with acc := RegFile.reset.acc.set 1 v }, flight := [result eng0 0 0 (.macc 1 .add c)] }
theorem test_accumulate_clamps :
    ((landCycle (accAt 0x7FFFFFFFFFFFFFFFFF 1)).1.rf.getAcc 1 = 0x7FFFFFFFFFFFFFFFFF ∧
      (landCycle (accAt 0x7FFFFFFFFFFFFFFFFF 1)).1.rf.av = true) ∧
    ((landCycle (accAt 0x800000000000000000 (-1))).1.rf.getAcc 1 = 0x800000000000000000 ∧
      (landCycle (accAt 0x800000000000000000 (-1))).1.rf.av = true) ∧
    ((landCycle (accAt 0x7FFFFFFFFFFFFFFFFE 1)).1.rf.getAcc 1 = 0x7FFFFFFFFFFFFFFFFF ∧
      (landCycle (accAt 0x7FFFFFFFFFFFFFFFFE 1)).1.rf.av = false) := by decide
/-- Shifts of an accumulator at both ends of their range (R72). -/
theorem test_ash_ends : got (.ash slot0 1 40) (withEng { accAt 1 0 with flight := [] }) (fun t => (t.engine 0).flight ==
      [result eng0 0 3 (.acc 1 0x10000000000 false)]) = true ∧
    got (.ash slot0 1 0x58) (withEng { accAt 0x800000000000000000 0 with flight := [] }) (fun t => (t.engine 0).flight ==
      [result eng0 0 3 (.acc 1 (-0x80000000) false)]) = true ∧
    got (.ash slot0 1 1) (withEng { accAt 0x7FFFFFFFFFFFFFFFFF 0 with flight := [] }) (fun t => (t.engine 0).flight ==
      [result eng0 0 3 (.acc 1 0x7FFFFFFFFFFFFFFFFF true)]) = true := by decide
/-- A load of a quad ignores the low bits of its address (R54); a store; a corrected load. -/
def mem0 : Engine := { eng0 with x := [(4, 9), (7, 3)], rf := { RegFile.reset with va := RegFile.reset.va.set 2 6, a := RegFile.reset.a.set 2 6 } }
theorem test_moves : got (.ld slot0 .x .inc 2 (.q 1) fixedLine) (withEng mem0) (fun t => (t.engine 0).flight ==
      loadResults mem0 .x 4 [4, 5, 6, 7] ++ [result mem0 0 2 (.post 2 10)] && (t.engine 0).cur.fixed == [(1, 7)]) = true ∧
    got (.st slot0 .y .plain 2 (.w 0x00)) (withEng mem0) (fun t => (t.engine 0).flight == [result mem0 0 3 (.mem true 6 0)]) = true ∧
    got (.ldi slot0 .x 0x02 true 0xABCD) (withEng { eng0 with rf := dregs 0 0 0x1234 0 }) (fun t => (t.engine 0).flight ==
      [result eng0 0 2 (.reg 0x02 0xABCD1234)]) = true := by decide
/-- STL and LDL of SE_IRQ_EN (R104, R105). -/
theorem test_local_access : got (.stl slot0 0x00 8) (withEng { eng0 with rf := dregs 7 0 0 0 }) (fun t => (t.engine 0).flight ==
      [result eng0 0 2 (.loc 0x20 7)]) = true ∧
    got (.ldl slot0 0x01 8) (withEng { eng0 with loc := { eng0.loc with irqEn := 5 } }) (fun t => (t.engine 0).flight ==
      [result eng0 1 2 (.reg 0x01 5)]) = true := by decide

/-- Words of slots written out from the tables of R83 to R85: `A3 += D15 * D1`; `CMPYJ A2, D4, D6`; `LD.Q D4, [A2++]`;
`LDI.H D2, 0xABCD`; `LDL D1, 8`; `ADD D3, D0, D1`; `ASH A1, -40`; `BNE 0x1FFF`; `DO 3, 2`; `POST 2`. -/
def spelled : List (Word × Instr) :=
  [(0x16788000, .mac slot0 .mac0 3 15 1), (0x94230000, .cmpyj slot0 1 2 3), (0x18A08000, .ld slot0 .x .inc 2 (.q 1) .ok),
   (0x5050ABCD, .ldi slot0 .x 0x02 true 0xABCD), (0x60002008, .ldl slot0 0x01 8), (0x800C0400, .add slot0 3 0 (.reg 1)),
   (0xA2400058, .ash slot0 1 0x58), (0xB1101FFF, .bcc slot0 .ne 0x1FFF), (0xC2006002, .doImm slot0 3 2), (0xD2000002, .postImm slot0 2)]
theorem test_slots_decode : spelled.all (fun p => slotInstr (slotNumber p.2) p.1 .ok slot0 == some p.2 && slotBits p.2 == some p.1) = true := by
  decide +kernel
/-- `A3 += D15 * D1` with `BNE 0x1FFF` in one bundle, the words in the order of R82. -/
theorem test_bundle_decodes : bundleInstrs (0xB1101FFF#32 ++ 0#32 ++ 0#32 ++ 0x16788000#32) .ok .ok slotEnd =
      some [.mac slot0 .mac0 3 15 1, .bcc slotEnd .ne 0x1FFF] ∧
    bundleInstrs (0#32 ++ 0#32 ++ 0x16788000#32 ++ 0x94230000#32) .ok .ok slotEnd = none := by decide +kernel

/-! Flow, loops and ticks of an engine (R91 to R95, R100, R103). -/

/-- What the last slot of a bundle finds: a load of it that was corrected, and one that could not be (R57). -/
theorem test_load_ends : got (.ld slotEnd .x .plain 2 (.q 1) fixedLine) (withEng mem0) (fun t => (t.engine 0).fix == [(1, 7)] &&
      t.nat Ix.engEccCe 0 == 1) = true ∧
    lineBad 4 badLine = true ∧ lineBad 1 badLine = false ∧ lineFixed 4 fixedLine = [3] := by decide
theorem test_flow_forms : flowIllegal eng0 = false ∧
    got (.bcc slot0 .ne 0x1FFF) (withEng eng0) (fun t => (t.engine 0).flow == some (.branch (some 0x1FFF) false)) = true ∧
    got (.bcc slot0 .eq 0x1FFF) (withEng eng0) (fun t => (t.engine 0).flow == some (.branch none false)) = true ∧
    got (.call slot0 7) (withEng { eng0 with lastPc := 100, calls := List.replicate 7 0 }) (fun t =>
      (t.engine 0).calls == 104 :: List.replicate 7 0) = true ∧
    got (.ret slot0) (withEng { eng0 with calls := [104] }) (fun t => (t.engine 0).calls == [] &&
      (t.engine 0).flow == some (.branch (some 104) false)) = true := by decide
theorem test_loop_forms : atLe eng0 eng0.lastPc = false ∧
    got (.repImm slot0 5) (withEng { eng0 with branch := some ⟨2, none, false⟩ }) (fun t => (t.engine 0).flow == some (.rep 5)) = true ∧
    got (.repImm slot0 5) (withEng eng0) (fun t => (t.engine 0).flow == some (.rep 5)) = true ∧
    got (.doImm slot0 3 2) (withEng eng0) (fun t => (t.engine 0).flow == some (.doLoop 3 2)) = true ∧
    got (.doDx slot0 0 2) (withEng { eng0 with rf := { dregs 0x10003 0 0 0 with le := 9 }, loops := List.replicate 3 (0, 0, 0) })
      (fun t => (t.engine 0).flow == some (.doLoop 3 2)) = true ∧
    got (.endl slot0) (withEng { eng0 with loops := [(0, 0, 0)] }) (fun t => (t.engine 0).flow == some .endl) = true := by decide
/-- Engine 0 in its first section with output slots 0 and 2 valid. -/
def inSection : Engine := { eng0 with sec := 1, loc := { eng0.loc with outMap := [(0, 0x80000100), (2, 0x80000200)] } }
theorem test_tick_forms : slotsOf inSection.loc.outMap false = [0, 2] ∧
    got (.waitphase slot0 true) (withEng eng0) (fun t => (t.engine 0).flow == some (.wait true)) = true ∧
    got (.postImm slot0 2) (withEng inSection) (fun t => (t.engine 0).q1.map (fun p => p.1) == [2] &&
      (t.engine 0).posted == [2]) = true ∧
    got (.postImm slot0 2) (withEng { inSection with q1 := List.replicate 32 (0, 0) }) (fun t =>
      (t.engine 0).stalled == some 2 && (t.engine 0).q1.length == 32) = true ∧
    got (.doneOp slot0) (withEng { inSection with posted := [0] }) (fun t => (t.engine 0).q1.map (fun p => p.1) == [2] &&
      (t.engine 0).sec == 0) = true := by decide

/-! ## Engines: events, halts, messages -/

/-- The block started up, alone (PAIR_ROLE 0). -/
def ready : State :=
  { State.reset with boot := { BootSt.reset with stage := 7 }, bench := { BenchSt.reset with opened := true } }
/-- Engine 0 with 2 for SE_IRQ_EN's source: SOFT pending and enabled. -/
def irqEng : Engine :=
  { eng0 with inBundle := false, pc := 9, rf := { RegFile.reset with ie := true }, loc := { eng0.loc with irqEn := 4, softPend := true } }
theorem test_engine_events :
    got (.loopExit 0) (withEng { eng0 with exitDue := true, loops := [(3, 4, 5), (0, 0, 0)] }) (fun t =>
      (t.engine 0).loops == [(0, 0, 0)] && (t.engine 0).rf.lc == 3 && (t.engine 0).rf.ls == 4 && (t.engine 0).rf.le == 5) = true ∧
    got (.eccWriteback 0 1 7) (withEng { eng0 with fix := [(1, 7), (2, 7)] }) (fun t => (t.engine 0).fix == [(2, 7)]) = true ∧
    got (.subbankRetry 0 true) (withEng { eng0 with loc := { eng0.loc with pmu := { EngPmu.reset with en := 1, evt := EngPmu.reset.evt.set 0 0x12 } } })
      (fun t => (t.engine 0).loc.pmu.cnt[0] == 1) = true ∧
    got (.subbankRetry 0 true) (withEng { eng0 with port := [⟨3, true, false, 9, 7⟩, ⟨3, false, true, 9, 7⟩] })
      (fun t => (t.engine 0).port.map (fun w => w.due) == [4, 3]) = true := by decide
/-- An engine at a WAITPHASE with section 2 to come. -/
def waiter (b : Bool) : Engine :=
  { eng0 with run := .waiting, flow := some (.wait b), waitFor := if b then 2 else 1, pc := 20, gather1 := true, gather2 := true, image := some ⟨[], 0⟩,
              ran1 := b }
theorem test_wait_ends : waitReady (ready.setEngine 0 (waiter false)) (waiter false) 5000 = true ∧
    got (.waitphaseReturn 0 5000 0) (ready.setEngine 0 (waiter false)) (fun t => (t.engine 0).run == .running &&
      (t.engine 0).sec == 1 && (t.engine 0).pc == 21 && (t.engine 0).ran1) = true := by decide
theorem test_stall_ends :
    got (.postStallEnd 0 3) (withEng { inSection with inBundle := false, stalled := some 2, q1 := List.replicate 31 (0, 0) }) (fun t =>
      (t.engine 0).stalled == none && (t.engine 0).q1.length == 32 && (t.engine 0).posted == [2]) = true := by decide
theorem test_interrupt_taken : irqVector irqEng = some 12 ∧ boundaryOpen irqEng = true ∧
    got (.interruptTaken 0) (withEng irqEng) (fun t => (t.engine 0).pc == 12 && (t.engine 0).loc.ira == 9 && !(t.engine 0).rf.ie) = true := by
  decide
/-- Engine 0 about to open a bundle. -/
def opening : Engine := { eng0 with inBundle := false }
/-- A halt of engine 0 with these bits of SE_FAULT. -/
def halted (fault : BitVec 5) (t : State) : Bool :=
  (t.engine 0).run == .halted && (t.engine 0).loc.fault == fault && t.nat Ix.overrunCount 0 == 1
/-- The block with engine 0 as given, under reserve policy 0. -/
def alone (e : Engine) : State := (withEng e).setNat Ix.rsvPolicy 0 0
theorem test_halts : (alone eng0).rsv.move = none ∧ (alone eng0).nat Ix.rsvPolicy = 0 ∧ bundleLegal (BitVec.allOnes 128) = false ∧
    got (.illegalBundle slot0 (BitVec.allOnes 128)) (alone opening) (halted 4) = true ∧
    got (.bra { slot0 with fetch := badLine } 5) (alone opening) (halted 2) = true ∧
    got (.ld slotEnd .y .plain 0 (.q 0) badLine) (alone eng0) (halted 2) = true ∧
    got (.ld slot0 .y .plain 0 (.q 0) badLine) (alone eng0) (fun t => (t.engine 0).cur.bad && (t.engine 0).run == .running) = true ∧
    got (.call slot0 5) (alone { eng0 with calls := List.replicate 8 0 }) (halted 12) = true ∧
    got (.ret slot0) (alone eng0) (halted 12) = true := by decide
/-- A message collected from engine 0. -/
def mailEng (ws : List Word) (s : State) : State := { s with ctl := { s.ctl with inbox := [(0, ws)] } }
theorem test_messages :
    got (.mboxInMessage 0 (List.replicate 8 5)) State.reset (fun t => (t.engine 0).loc.inValid && (t.engine 0).loc.inMsg[7] == 5 &&
      (t.engine 0).loc.inLen == 8) = true ∧
    got (.writeReply 0) { State.reset with ctl := { CtlSt.reset with mail := [(0, [1, 2, 3])] } } (fun t =>
      (t.engine 0).loc.inMsg[2] == 3 && (t.engine 0).loc.inLen == 3 && t.ctl.mail == []) = true ∧
    got (.mboxAck 0 .engine) (withEng { eng0 with loc := { eng0.loc with inValid := true } }) (fun t => !(t.engine 0).loc.inValid) = true ∧
    windowGated State.reset 0 = false ∧ got (.softIrqSet 0 .fabric) State.reset (fun t => (t.engine 0).loc.softPend) = true ∧
    got (.mboxSend 0 .fabric) State.reset (fun t => (t.engine 0).loc.outFull) = true ∧
    got (.mboxSend 0 .fabric) (withEng { eng0 with loc := { eng0.loc with outFull := true, outDrops := 0xFFFE } }) (fun t =>
      (t.engine 0).loc.outDrop && (t.engine 0).loc.outDrops == 0xFFFF && t.nat Ix.ctlLogHead == 1) = true ∧
    got (.mboxOutCollect 0) (withEng { eng0 with loc := { eng0.loc with outFull := true, outLen := 2, outMsg := eng0.loc.outMsg.set 0 0x02000000 } })
      (fun t => t.ctl.inbox == [(0, [0x02000000, 0])] && !(t.engine 0).loc.outFull && t.ctl.collected == [0]) = true ∧
    got (.mboxOutCollect 0) (withEng { eng0 with loc := { eng0.loc with outFull := true, outLen := 8 } }) (fun t =>
      t.ctl.inbox == [] && !(t.engine 0).loc.outFull) = true ∧
    got (.mboxAlarm 0) (mailEng [0x02000000, 0x1FFF] State.reset) (fun t => t.nat Ix.ctlLogCode 0 == 0x02008FFF) = true := by decide
/-- The block with engine 0 holding an image of an ENGINEER. -/
def imaged : State := ready.setEngine 0 { eng0 with image := some ⟨[], 2⟩ }
/-- A WRITE message of 5 to ZC_TIMEOUT. -/
def writeMsg : List Word := [0x01070000, 0x0410, 0, 5]
theorem test_mailbox_write : hkRuns imaged = true ∧ (match mailCheck imaged 2 writeMsg with | .ok a => a.val == .int 5 | .error _ => false) = true ∧
    got (.mboxWrite 0) (mailEng writeMsg imaged) (fun t => t.writes.map (fun w => (w.ix, w.mbox)) == [(0x0410, some (0, 7))] &&
      t.ctl.inbox == []) = true := by decide

/-! ## The tick -/

/-- `ready` with its tick sequencer as given. -/
def ticking (f : TickSt → TickSt) : State := { ready with clk := f ready.clk }
theorem test_ready_settled : settle ready = ready := rfl
theorem test_boundaries : tickAt ready 0 + 1 = 1 ∧
    got (.tickBoundary [0x0000]) ready (fun t => t.clk.tick == 1 && t.clk.lastRun == 1 && t.port.held == [0x0000]) = true ∧
    got (.tickBoundary []) (ticking (fun c => { c with seq := .idle, lastRun := 1 })) (fun t => t.clk.tick == 1 && t.clk.seq == .idle &&
      t.clk.lastRun == 1 && t.lat.seq == Fade.silent) = true := by decide +kernel
/-- A keyed re-step to a value is due at the next boundary. -/
def stepping : State := ticking (fun c => { c with restep := some (1, some (7, 5)) })
/-- The same while no tick runs. -/
def steppingIdle : State := ticking (fun c => { c with seq := .idle, restep := some (1, some (7, 5)) })
theorem test_idle_steps : settle steppingIdle = steppingIdle ∧ got .keyedRestepTaken steppingIdle (fun t => t.clk.seq == .stepped &&
    t.tim.t == 7000000005 * nsUnit) = true := ⟨rfl, by decide +kernel⟩
theorem test_stepping_settled : settle stepping = stepping := rfl
theorem test_restep_taken : got .keyedRestepTaken stepping (fun t => t.clk.seq == .stepped && t.clk.restep == none && t.tim.t == 7000000005 * nsUnit) = true := by
  decide +kernel
/-- The sequencer stands, MEDSYN0 locked. -/
def standing : State := (ticking (fun c => { c with seq := .stopped })).setNat Ix.medsynState 0 3
theorem test_restarts : standing.nat Ix.medsynState 0 = 3 ∧ got (.sequencerRestart 0) standing (fun t => t.clk.seq == .running &&
    t.clk.tick == 1 && t.clk.fadeInAt == some 2) = true := by decide +kernel
/-- Engine 0 runs section 1, and has not finished it. -/
def overrunning : State := (ready.setNat Ix.rsvPolicy 0 0).setEngine 0 { eng0 with inBundle := false, ran1 := true, sec := 1 }
theorem test_overrunning_settled : settle overrunning = overrunning := rfl
theorem test_deadlines : ticksRun ready = true ∧ unitWorks ready = true ∧ unconverted ready 1 = [] ∧ unconverted ready 0 = [] ∧
    quietOuts ready = [] ∧ ready.bench.named = [] ∧ ready.bench.satNow = [] ∧ ready.shut.touched = [] ∧
    got .phaseD2Open ready (fun t => t.clk.late) = true ∧ got .p0Deadline ready (fun t => t.clk.closed == [0]) = true ∧
    got .p0Deadline { ready with port := { PortSt.reset with held := [2] } } (fun t => t.port.held == [] && t.nat Ix.overrunCount 0x12 == 1 &&
      t.nat Ix.ctlLogHead == 1) = true ∧ got .p1Deadline ready (fun t => t.clk.closed == [1]) = true ∧
    got .p5Deadline ready (fun t => t.clk.closed == [5]) = true ∧ got .p3Deadline ready (fun t => t.clk.closed == [3]) = true ∧
    got .p2Deadline overrunning (fun t => (t.engine 0).run == .halted && (t.engine 0).loc.fault == 1 && t.nat Ix.overrunCount 0 == 1 &&
      (t.engine 1).run == .idle) = true ∧
    got .p4Deadline overrunning (fun t => (t.engine 0).run == .running && t.clk.closed == [4]) = true := by decide +kernel
/-- An AES3 output destination that has not been converted in this tick. -/
def late2000 : State := ready.setDest 0x2000 { Dest.reset with sel := 0x7F01 }
theorem test_egress_late : unconverted late2000 0 ≠ [] ∧ got .p5Deadline late2000 (fun t => t.clk.lateEgress &&
    t.nat Ix.overrunCount 0x11 == 1) = true := by decide +kernel
/-- A gain change of crosspoint 5. -/
def gainWrite : DirectWrite := { ix := 0x0403, sub := 5, val := .int (-600), mbox := none, after := 0, gen := none, priv := 1 }
/-- A pending commit of it that has been checked, for the tick under way. -/
def gainCommit : Pending :=
  { id := 65, session := 1, tick := 0, changes := [⟨0x0403, 5, .int (-600), false⟩], frozen := true, checked := true, motion := 0, takes := 0,
    mirrored := false }
theorem test_landings :
    got (.commitFreeze 65) { ready with shut := { ShutSt.reset with pend := [{ gainCommit with tick := 1, frozen := false }] } } (fun t =>
      t.shut.pend.all (fun p => p.frozen)) = true ∧
    got .unownedSetExpiry { ready with shut := { ShutSt.reset with unowned := some 0, sets := [(0, ⟨0, []⟩), (1, ⟨4, []⟩)] } } (fun t =>
      t.shut.sets == [(1, ⟨4, []⟩)] && t.shut.unowned == none) = true ∧
    got .commitLanding { ticking (fun c => { c with commitDue := true }) with shut := { ShutSt.reset with pend := [gainCommit] } } (fun t =>
      t.int 0x0403 5 == -600 && t.shut.pend == [] && t.nat Ix.shutGen == 1 && t.nat Ix.shutHistory 1 == 65) = true ∧
    got .directWriteLanding { ticking (fun c => { c with writesDue := true }) with writes := [gainWrite] } (fun t =>
      t.int 0x0403 5 == -600 && t.writes == [] && t.nat Ix.shutGen == 1) = true := by decide +kernel
/-- The head of an image for 96 kHz, 8 samples a tick and the default plan. -/
def imageHead : List Byte := [0x59, 0x4E, 0x4B, 0x31, 1, 0, 1, 8] ++ planDefault.flatMap (bytesLE 4)
/-- A door-holder with an ENG_CTL command of place 0 due. -/
def commanded (cmd : Nat) (r : EngRun) : State :=
  let s := (ready.setNat Ix.pairRole 0 3).setEngine 0 { eng0 with inBundle := false, run := r, image := some ⟨imageHead, 2⟩ }
  { s with ctl := { s.ctl with engCtl := [(0, some (cmd, 0))] } }
theorem test_engine_control : imageFits ready imageHead = true ∧ (commanded 0 .running).isDoor = true ∧ engineOf (commanded 1 .idle) 0 = 0 ∧
    got (.engCtlAct 0) (commanded 0 .running) (fun t => (t.engine 0).run == .idle && t.ctl.engCtl == []) = true ∧
    got (.engCtlAct 0) (commanded 1 .idle) (fun t => (t.engine 0).run == .running && (t.engine 0).fadeIn == 256) = true ∧
    got (.engCtlAct 0) (commanded 2 .halted) (fun t => (t.engine 0).run == .running && (t.engine 0).pc == 0) = true := by decide +kernel
/-- Engine 0 with one input slot and one output slot. -/
def mapped : Engine :=
  { eng0 with image := some ⟨imageHead, 2⟩, x := [(256, 5)], q1 := [(2, State.reset.tag)],
              loc := { eng0.loc with inMap := [(0, 0x80000200)], outMap := [(2, 0x80000100)] } }
theorem test_transfers : feedPlace (ready.setEngine 0 mapped) 0 = some 0 ∧ placeOf (ready.setEngine 0 mapped) 0 = some 0 ∧
    (gatherSlots (ready.setEngine 0 mapped) 0 [0] []).2 = true ∧
    got (.inputGatherDone 0 ⟨false, []⟩) (ready.setEngine 0 mapped) (fun t => (t.engine 0).gather1) = true ∧
    got (.outputFrameCopied 0 false ⟨false, [0, 8]⟩) (ready.setEngine 0 mapped) (fun t => (t.engine 0).q1 == [] &&
      (t.engine 0).fix == [(1, 256)] && ((t.source 0x3002).hist.head?.map (fun f => f.words)) == some [5, 0, 0, 0, 0, 0, 0, 0]) = true := by decide +kernel

/-! ## Bench, Lattice and egress -/

/-- A crosspoint of bus 1 that sums silence and has `rem` samples of its move left. -/
def mover (mode rem : Nat) (st : XpState) : Xp := { Xp.reset with en := true, bus := 1, mode := mode, state := st, cur := 5, tgt := 9, rem := rem }
/-- `ready` with crosspoint 7 as given, bus 1 named. -/
def benched (x : Xp) : State :=
  { ready with bench := { ready.bench with xps := [(7, x)], named := [1] }, clk := { ready.clk with tick := 1 } }
/-- Crosspoint 7 has ended its move in the frame. -/
def moved (st : XpState) (t : State) : Bool :=
  (xpOf t 7).cur == 9 && (xpOf t 7).rem == 0 && (xpOf t 7).state == st && t.bench.summed == [7]
theorem test_bench_settled : settle (benched (mover 1 8 .moving)) = benched (mover 1 8 .moving) := rfl
theorem test_bench_moves : xpActive (benched (mover 1 8 .moving)) 7 (mover 1 8 .moving) = true ∧
    (benchWords (benched (mover 1 8 .moving)) 0x7F00).2 = some (List.replicate 8 0) ∧
    walkTo (fun k => k == 7) (benchWalk (benched (mover 1 8 .moving))) = [7] ∧
    got (.zcTimeoutStep ⟨7, cleanSum⟩) (benched (mover 1 8 .moving)) (moved .steady) = true ∧
    got (.zcTimeoutStep ⟨7, cleanSum⟩) (benched (mover 1 1 .releasing)) (fun t => (xpOf t 7).cur == 9 && (xpOf t 7).state == .releasing) = true ∧
    got (.rampMoveEnd ⟨7, cleanSum⟩) (benched (mover 2 8 .moving)) (moved .steady) = true ∧
    got (.rampMoveEnd ⟨7, cleanSum⟩) (benched (mover 2 9 .moving)) (fun t => t.bench.summed == []) = true := by decide +kernel
/-- Bus 1 with its crosspoint summed. -/
def summedBus : State :=
  let s := benched (mover 1 0 .steady)
  { s with bench := { s.bench with summed := [7], acc := [(32, 3 * 2 ^ 28 - 1), (39, 2 ^ 70)] } }
theorem test_summed_settled : settle summedBus = summedBus := rfl
theorem test_bus_written : walkOfBus summedBus 1 = [7] ∧ (summedBus.source 0x4001).fade.mode = .unity ∧
    got (.busFrameWritten 1 cleanSum) summedBus (fun t => (t.source 0x4001).hist.head?.map (fun f => f.words) ==
      some [2, 0, 0, 0, 0, 0, 0, 0x7FFFFFFF] && t.bench.written == [1]) = true ∧
    got (.benchScrubRead 7 .bad) (benched (mover 1 8 .moving)) (fun t => (xpOf t 7).fault && (xpOf t 7).state == .off &&
      t.nat Ix.benchEccUe == 1) = true ∧
    got (.benchScrubRead 7 .ok) ready (fun t => t.nat Ix.benchEccCe == 0) = true ∧
    got (.benchScrubRead 7 .corrected) ready (fun t => t.nat Ix.benchEccCe == 1) = true := by decide +kernel
/-- The frame of this tick's tag. -/
def frameNow (ws : List Word) : Frame := { tag := State.reset.tag, words := ws, low := [], npcm := false, bad := false }
/-- Tick 1 with source 0x0003 as given, and destination 0x4001 on it: a reader of its newest frame. -/
def routed (hist : List Frame) : State :=
  let s := ready.setDest 0x4001 { Dest.reset with sel := 0x0003 }
  { s with lat := { s.lat with srcs := [(3, { Source.empty with hist := hist })], door := Fade.unity }, clk := { s.clk with tick := 1, late := true } }
/-- Eight words. -/
def eight : List Word := [1, 2, 3, 4, 5, 6, 7, 8]
theorem test_routed_settled : settle (routed []) = routed [] := rfl
theorem test_gathers : lookFor (routed [{ frameNow eight with tag := 0 }]) (readerOf (routed []) 0x4001) 3 false = .frame eight false ∧
    phaseOpen (routed []) 0x4001 = true ∧ destUsable (routed []) 0x4001 = true ∧
    allUnity (((routed []).dest 0x4001).causes ++ sharedCauses (routed []) 0x4001) = true ∧
    got (.latticeGather ⟨0x4001, clean⟩) (routed [{ frameNow eight with tag := 0 }]) (fun t => (t.dest 0x4001).words == eight &&
      (t.dest 0x4001).gathered) = true ∧
    got (.readerWaitEnd ⟨0x4001, clean⟩) (routed [{ frameNow eight with tag := 0 }]) (fun t => (t.dest 0x4001).words == eight) = true := by
  decide +kernel
/-- The same after P0 has closed without the frame. -/
def missed : State := let s := routed []; { s with clk := { s.clk with closed := [0] } }
theorem test_misses : settle missed = missed ∧ lookFor missed (readerOf missed 0x4001) 3 false = .absent ∧
    got (.latticeGather ⟨0x4001, clean⟩) missed (fun t => (t.dest 0x4001).isAbsent && t.nat Ix.latAbsentCount 0x4001 == 1) = true ∧
    got (.readerWaitEnd ⟨0x4001, clean⟩) missed (fun t => (t.dest 0x4001).isAbsent) = true := ⟨rfl, by decide +kernel⟩
/-- Tick 7, source 0x4000 with the frames of tags 6 and 5. -/
def kept : State :=
  { ready with clk := { ready.clk with tick := 7 }, lat := { ready.lat with srcs :=
      [(0x4000, { Source.empty with hist := [{ frameNow eight with tag := 6 }, { frameNow eight with tag := 5 }] })] } }
theorem test_takes_and_scrubs :
    got (.softTakeEnd 5) (ready.setDest 5 { Dest.reset with take := some { old := 1, soft := true, offset := 0, k := 32, before := none } })
      (fun t => (t.dest 5).take == none) = true ∧
    got (.latticeScrubRead true 5 0 .bad) ready (fun t => (t.dest 5).hasFault && t.nat Ix.latEccUe == 1) = true ∧
    ingressBank 3 = some 2 ∧ got (.latticeScrubRead false 3 1 .bad) (routed [frameNow eight]) (fun t => t == routed [frameNow eight]) = true ∧
    ingressBank 0x4000 = none ∧ storedFrame kept 0x4000 5 = some { frameNow eight with tag := 5 } ∧
    got (.latticeScrubRead false 0x4000 1 .bad) kept (fun t =>
      (t.source 0x4000).hist.map (fun f => f.bad) == [false, true] && t.nat Ix.latEccUe == 1) = true ∧
    got (.latticeScrubRead false 0x4000 0 .corrected) ready (fun t => t.nat Ix.latEccCe == 1) = true := by decide +kernel
/-- A physical destination gathered and not converted. -/
def gatheredDest : State := let s := ready.setDest 5 { Dest.reset with words := eight, gathered := true }; s
theorem test_gathered_settled : settle gatheredDest = gatheredDest := rfl
theorem test_egress_handed : isPhysDest 5 = true ∧ outBits gatheredDest 5 = none ∧
    got (.egressConvert 5) gatheredDest (fun t => (t.dest 5).converted) = true := by
  decide +kernel
theorem test_limiter_passes : limQ 5 5 = 2 ^ 31 ∧ limQ 5 (-5) = 2 ^ 31 ∧ limQ 5 6 < 2 ^ 31 ∧
    Limiter.reset.g = 2 ^ 31 ∧ Limiter.reset.held.length = 4 ∧ Limiter.reset.hq = List.replicate 4 (2 ^ 31) := by decide +kernel

/-! ## Control -/

/-- An ADMIN session over UDP. -/
def sess1 : Session :=
  { via := .udp, peer := 5, port := 6, slot := 0, priv := 3, tagAll := false, key := [], counter := 0, lastFrame := [], lastReply := [],
    notifySeq := 0, subs := [], nextHandle := 1, transfer := none, closing := false }
/-- A frame of session 1 with these operations left. -/
def frame1 (keyed : Bool) (ops : List (Nat × Op)) : Serving :=
  { via := .udp, session := 1, peer := 5, port := 6, counter := 1, keyed := keyed, bytes := [], ops := ops, results := [], accepts := [],
    mirrored := false, closing := false, gen := 0, tick := 0, shot := { dict := [], snap := [], sets := [], shared := 0 } }
/-- The block with that frame in service. -/
def inFrame (keyed : Bool) (ops : List (Nat × Op)) (s : State) : State :=
  { s with boot := { s.boot with stage := 7 }, sec := { s.sec with hkHalted := false },
           ctl := { s.ctl with sessions := [(1, some sess1)], serving := some (frame1 keyed ops) } }
/-- An operation on one instance. -/
def op1 (ix sub : Nat) (data : List Byte) : Op :=
  { ty := (match objRow ix with
      | some r => r.ty.code
      | none => 0), index := ix, count := 1, sub := sub, set := 0, data := data }
/-- Every check of a write passes. -/
def passes (keyed : Bool) (s0 : State) (op : Op) : Bool :=
  let v := frame1 keyed [(Oc.write, op)]
  let s := inFrame keyed [(Oc.write, op)] s0
  match objRow op.index with
  | none => false
  | some r =>
    match r.ty.takeMany 1 op.data with
    | some [x] =>
      hkRuns s && decide (op.count = 1 ∧ r.subs.has op.sub = true ∧ op.ty = r.ty.code ∧ r.ty ≠ .domain) &&
        decide (r.acc.writable = true ∧ writePriv r.ix r.acc.keyed ≤ privOf s v ∧ (r.acc.keyed = true → v.keyed = true) ∧
          notActive s r.ix = false) && decide (valueCheck s (afterWrites s v) true r op.sub x = 0) &&
        decide (slotsCode s [(r.ix, op.sub, x.toNat)] = 0)
    | _ => false
/-- A result of up to 1,380 bytes alone in its reply fits it (R191). -/
theorem test_fits (t : State) (v : Serving) (code : Nat) (rest : List (Nat × Op)) (d : List Byte) (hv : v.results = [])
    (hd : d.length ≤ 1380) : fitsReply t v code rest d := by
  unfold fitsReply replyLen replyOf replyBytes
  cases hk : replyKey t v <;> cases rest <;>
    simp [hv, header, resultBytes, bytesLE, padTo, Config.cmac] <;> omega
theorem test_lastWrite_of {keyed : Bool} {s : State} {op : Op} (h : passes keyed s op = true) :
    ∃ r x, LastWrite (inFrame keyed [(Oc.write, op)] s) (frame1 keyed [(Oc.write, op)]) op r x := by
  unfold passes at h
  split at h
  · cases h
  · rename_i r hr
    split at h
    · rename_i x hx
      simp only [Bool.and_eq_true, decide_eq_true_eq] at h
      exact ⟨r, x, ⟨⟨h.1.1.1.1, rfl, rfl⟩, ⟨rfl, rfl⟩, hr, h.1.1.1.2, hx, h.1.1.2, h.1.2, h.2, test_fits _ _ _ _ _ rfl (by simp)⟩⟩
    · cases h
/-- The registers of `writeRows` that a write of `data` finds in order. -/
def rowPasses (s : State) (c : Instr) (ix sub : Nat) (data : List Byte) : Bool :=
  passes true s (op1 ix sub data) && writeRows.any (fun w => w.1 == c && w.2.1 == ix && (w.2.2 == none || w.2.2 == some (field data 0 1)))
theorem test_write_rows :
    rowPasses (commanded 0 .idle) .run Ix.engCtl 0 [1] = true ∧ rowPasses (commanded 0 .running) .stop Ix.engCtl 13 [0] = true ∧
    rowPasses (commanded 0 .halted) .restart Ix.engCtl 0 [2] = true ∧ rowPasses ready .houseRate Ix.houseRate 0 [5] = true ∧
    rowPasses ready .ticklen Ix.ticklen 0 [2] = true ∧ rowPasses ready .ctlLogAck Ix.ctlLogAck 0 [0, 0, 0, 0] = true ∧
    rowPasses ready .ctlCredPriv Ix.ctlCredPriv 15 [3] = true ∧ rowPasses ready .timeRestep Ix.timeRestep 0 [0] = true ∧
    rowPasses ready .timeSet Ix.timeSet 0 (bytesLE 6 0 ++ bytesLE 4 999999999) = true ∧
    rowPasses ready .refPhaseStep Ix.refPhaseStep 0 (bytesLE 4 2097152) = true ∧
    rowPasses ready .refPhaseForce Ix.refPhaseForce 0 (bytesLE 4 2097152) = true ∧
    rowPasses (ready.setNat Ix.syspllState 1 2) .syspllSelect Ix.syspllSelect 0 [1] = true ∧
    rowPasses ready .medsynOffset Ix.medsynOffset 3 (bytesLE 4 10000000) = true := by decide +kernel
theorem test_write_rows_high :
    rowPasses ready .take Ix.pairCmd 0 [1] = true ∧ rowPasses ready .isolate Ix.pairCmd 0 [3] = true ∧
    rowPasses (ready.setNat Ix.pairMode 0 1) .join Ix.pairCmd 0 [2] = true ∧
    rowPasses ready .migrate Ix.rsvCmd 0 (bytesLE 4 0xED01) = true ∧ rowPasses ready .retire Ix.rsvCmd 0 (bytesLE 4 0x0F02) = true ∧
    rowPasses ready .test Ix.rsvCmd 0 [3, 0, 0, 0] = true ∧
    rowPasses (ready.setNat Ix.rsvEngState 15 6) .restore Ix.rsvCmd 0 (bytesLE 4 0x0F04) = true ∧
    rowPasses (ready.setNat Ix.syspllState 1 4) .clearPll Ix.rsvCmd 0 (bytesLE 4 0x0105) = true ∧
    rowPasses ready .secLcAdvance Ix.secLcAdvance 0 (bytesLE 8 0) = true ∧ rowPasses ready .secTamperClr Ix.secTamperClr 0 [31] = true ∧
    rowPasses ready .secDbgEnd Ix.secDbgEnd 0 [1] = true ∧
    rowPasses ready .secImgKeyHash Ix.secImgKeyHash 0 (32 :: List.replicate 32 0) = true ∧
    rowPasses ready .quietLeave Ix.quietMode 0 [0] = true ∧ rowPasses ready .quietEnter Ix.quietMode 0 [1] = true := by decide +kernel
theorem test_unwrapped_key : passes true ready (op1 Ix.ctlCredWrap 15 (24 :: List.replicate 24 0)) = true ∧
    passes true ready (op1 Ix.phasePlan 0 (bytesLE 4 0)) = true ∧
    planCheck ready (listSet 0 0 (planOf ready)) = 0 ∧ firstBoundary ready 0x0410 = 1 ∧
    got .write (inFrame false [(Oc.write, op1 0x0410 0 [5])] ready) (fun t => t.writes.map (fun w => (w.ix, w.val, w.after)) ==
      [(0x0410, .int 5, 1)] && t.int 0x0410 0 == 10 && t.out.length == 1) = true := by decide +kernel
/-- Where the hash of a key is fused, the key itself passes (R418). -/
theorem test_pubkey_passes (s : State) (b : List Byte) (h : imgHashNow s = Config.sha256 b) : secCheck s Ix.secImgPubkey 0 (.bytes b) = 0 := by
  rw [secCheck, if_neg (by decide), if_neg (by decide), if_neg (by decide), if_pos rfl]
  simp [h, Val.toBytes, Config.sha256]
/-- A write-only register written alone in a frame. -/
def wo (c : Instr) (ix sub : Nat) (data : List Byte) (s : State) (p : State → Bool) : Bool :=
  passes false s (op1 ix sub data) && got c (inFrame false [(Oc.write, op1 ix sub data)] s) p
/-- Cue channel 1 enabled and in a state. -/
def cueIn (st : Nat) : State := (ready.setNat Ix.cueEn 1 1).setNat Ix.cueState 1 st
theorem test_write_only :
    wo .engFlagsClr Ix.engFlagsClr 15 [5] (ready.setNat Ix.engFlags 15 7) (fun t => t.nat Ix.engFlags 15 == 2) = true ∧
    wo .busSatClr Ix.busSatClr 1023 [1] (ready.setNat Ix.busSat 1023 1) (fun t => !t.flag Ix.busSat 1023) = true ∧
    wo .limGrClr Ix.limGrClr 0x4001 [1] (ready.setInt Ix.limGrMax 0x4001 (-64)) (fun t => t.int Ix.limGrMax 0x4001 == 0) = true ∧
    wo .rampStart Ix.rampStart 1 [1] (ready.setNat Ix.rampLen 1 1) (fun t => mapFind 1 t.syn.due == some none && t.syn.ramps == []) = true ∧
    wo .clkSyncArm Ix.clkSyncArm 0 [1] (ready.setNat Ix.clkSyncMode 0 1) (fun t => t.nat Ix.clkSyncState == 1) = true ∧
    wo .pmuEngOvfClr Ix.pmuEngOvfClr 0 [15] (ready.setEngine 0 { eng0 with loc := { eng0.loc with pmu := { EngPmu.reset with ovf := 15 } } })
      (fun t => (t.engine 0).loc.pmu.ovf == 0) = true ∧
    wo .pmuOvfClr Ix.pmuOvfClr 0 [0, 0, 1, 0] (ready.setNat Ix.pmuOvf 0 0x30000) (fun t => t.nat Ix.pmuOvf == 0x20000) = true ∧
    wo .clear Ix.cueCmd 1 [1] ((cueIn 5).setNat Ix.cueRetries 1 3) (fun t => t.nat Ix.cueRetries 1 == 0 && cueState t 1 == 1) = true ∧
    wo .recheck Ix.cueCmd 1 [2] (cueIn 3) (fun t => (cueOf t 1).next == .check && cueState t 1 == 3) = true := by decide +kernel
/-- A next operation. -/
def nextOp : Nat × Op := (Oc.read, op1 0x0410 0 [])
/-- An operation that is not about an object, of a set. -/
def op0 (ix count set : Nat) (data : List Byte) : Op := { ty := 0, index := ix, count := count, sub := 0, set := set, data := data }
/-- An operation followed by another, in the frame in service of a state. -/
def follow (c : Instr) (code : Nat) (op : Op) (s : State) (p : State → Bool) : Bool := got c (inFrame false [(code, op), nextOp] s) p
/-- The last result of the frame in service is this one, with no error. -/
def answers (t : State) (data : List Byte) : Bool :=
  match t.ctl.serving with
  | some v => v.results.map (fun r => (r.status, r.data)) == [(0, data)] && v.ops.length == 1
  | none => false
/-- A door-holder with set 15 open in session 1. -/
def staged : State :=
  let s := ready.setNat Ix.pairRole 0 3
  { s with shut := { ShutSt.reset with sets := [(15, ⟨1, [⟨0x0410, 0, .int 7, false⟩]⟩)] } }
theorem test_staging :
    follow .read Oc.read (op1 0x0410 0 []) ready (fun t => answers t [10]) = true ∧
    follow .stage Oc.stage { op1 0x0401 393215 (bytesLE 2 5) with set := 15 } ready (fun t => answers t [] &&
      (mapFind 15 t.shut.sets).map (fun y => y.changes.length) == some 1 && t.nat Ix.shutSetState 15 == 0x101) = true ∧
    (commitCheck (inFrame false [] staged) (frame1 false []) 15 0).1 = 0 ∧
    follow .commit Oc.commit (op0 0 0 15 (bytesLE 8 0)) staged (fun t => t.shut.pend.map (fun p => p.id) == [1] && t.shut.sets == []) = true ∧
    follow .abort Oc.abort (op0 0 0 15 []) staged (fun t => answers t [] && t.shut.sets == [] && t.nat Ix.shutSetState 15 == 0) = true := by
  decide +kernel
/-- The frame in service of a session that has one subscription and one transfer. -/
def sessioned (subs : List Subscription) (tr : Option Transfer) (ops : List (Nat × Op)) (s : State) : State :=
  let t := inFrame false ops s
  { t with ctl := { t.ctl with sessions := [(1, some { sess1 with subs := subs, transfer := tr })] } }
/-- An operation followed by another, of that session. -/
def then' (c : Instr) (code : Nat) (op : Op) (subs : List Subscription) (tr : Option Transfer) (s : State) (p : State → Bool) : Bool :=
  got c (sessioned subs tr [(code, op), nextOp] s) p
/-- A subscription of REF_ACTIVE. -/
def sub1 : Subscription := { handle := 1, ix := Ix.refActive, sub := 0, count := 1, period := 0, start := 0, sent := [.int 15], lastTick := 0 }
/-- A transfer of the largest value into an engine's image. -/
def upload (writing : Bool) : Transfer :=
  { ix := Ix.engImage, sub := 0, writing := writing, length := 16777216, window := transferArea }
/-- The only session after the command. -/
def sessAfter (t : State) (p : Session → Bool) : Bool :=
  match sessOf t 1 with
  | some x => p x
  | none => false
theorem test_session_operations :
    then' .subscribe Oc.subscribe (op1 Ix.refActive 0 [5, 0, 0, 0]) [] none ready (fun t => sessAfter t (fun x =>
      x.subs.map (fun u => (u.handle, u.period)) == [(1, 5)] && x.nextHandle == 2) && answers t [1, 0]) = true ∧
    then' .unsubscribe Oc.unsubscribe (op0 0 0 0 [1, 0, 0, 0]) [sub1] none ready (fun t => sessAfter t (fun x => x.subs == [])) = true ∧
    then' .closeOp Oc.close (op0 0 0 0 []) [] none ready (fun t => answers t [] && (t.ctl.serving.map (fun v => v.closing)) == some true) = true ∧
    then' .domSeg Oc.domSeg (op1 Ix.engImage 0 (bytesLE 4 16777212 ++ [1, 2, 3, 4])) [] (some (upload true)) ready (fun t =>
      memByte t (transferArea + 16777215) == 4 && memByte t (transferArea + 16777211) == 0) = true ∧
    then' .domClose Oc.domClose (op1 Ix.engImage 0 []) [] (some (upload false)) ready (fun t => sessAfter t (fun x =>
      x.transfer == none)) = true := by decide +kernel
theorem test_transfer_opens : writePriv Ix.engImage true ≤ 3 ∧ transferUsed ready = 0 ∧ imageOpen ready 0 = true ∧
    ((transferGaps ready).map (startsIn 16777216)).foldl (· + ·) 0 ≠ 0 ∧
    then' .domOpen Oc.domOpen (op1 Ix.engImage 0 (bytesLE 4 16777216)) [] none ready (fun t => t.fresh == 1) = true ∧
    dbgLocked ready = false ∧
    then' (.secDbgChallenge false) Oc.read (op1 Ix.secDbgChallenge 0 []) [] none ready (fun t => t.fresh == 1 && t.ctl.serving != none) = true := by
  decide +kernel
/-- An OPEN frame: no session yet. -/
def openFrame (op : Op) : Serving := { frame1 true [(Oc.openSess, op)] with session := 0 }
/-- All sessions but the last are open. -/
def crowded (v : Serving) : State := { ready with ctl := { CtlSt.reset with sessions := (upFrom 1 31).map (fun k => (k, some sess1)), serving := some v } }
theorem test_open_holds :
    let v := openFrame (op0 0 0 0 (List.replicate 12 0))
    InService (crowded v) v Oc.openSess (op0 0 0 0 (List.replicate 12 0)) [] ∧ freeSession (crowded v) = some 32 ∧
      ∀ (t : State) (d : List Byte), d.length = 12 →
        fitsReply t { v with session := 32 } Oc.openSess [] d :=
  ⟨⟨rfl, rfl, rfl⟩, by decide +kernel, fun _ _ h => test_fits _ _ _ _ _ rfl (by omega)⟩
/-- A transfer of `n` bytes into an object, complete. -/
def received (ix n : Nat) : Transfer := { upload true with ix := ix, length := n }
/-- The DOM_CLOSE of a value of `n` bytes 0 of an object, of which nothing else stands in the way. -/
def closes (ix n : Nat) : Prop :=
  let b : List Byte := List.replicate n 0
  let op := op1 ix 0 (Config.sha256 b)
  let v := frame1 true [(Oc.domClose, op)]
  let s := sessioned [] (some (received ix n)) [] ready
  (Config.sha256 b).length = 32 ∧ memBytes s transferArea n = b ∧ (match objRow ix with
    | some r => decide (r.ty = .domain ∧ r.acc = .rwk ∧ r.subs.has 0 = true ∧ writeGate s v r = 0 ∧
        valueCheck s (afterWrites s v) true r 0 (.bytes b) = 0 ∧ slotsCode s [(r.ix, 0, 0)] = 0 ∧ op.ty = r.ty.code)
    | none => false) = true
theorem test_image_closes : closes Ix.engImage 1 := ⟨by simp [Config.sha256], by decide +kernel, by decide +kernel⟩
theorem test_firmware_closes : closes Ix.bootFwImage 1 := ⟨by simp [Config.sha256], by decide +kernel, by decide +kernel⟩
theorem test_response_closes : closes Ix.secDbgResponse 1 := ⟨by simp [Config.sha256], by decide +kernel, by decide +kernel⟩
theorem test_order_closes : closes 0x0430 2 := ⟨by simp [Config.sha256], by decide +kernel, by decide +kernel⟩
/-- A frame of session 1 without operations (KEEPALIVE). -/
def keepaliveFrame : List Byte := [1, 0, 1, 0, 16, 0, 0, 0, 2, 0, 0, 0, 0, 0, 0, 0]
/-- Session 1 open, the control port at 10.0.0.1, and a frame in service where one is given. -/
def online (v : Option Serving) : State :=
  let s := ready.setNat Ix.ctlIpv4Addr 0 0x0A000001
  { s with ctl := { s.ctl with sessions := [(1, some { sess1 with subs := [{ sub1 with sent := [.int 3] }] })], serving := v } }
theorem test_frames_taken : frameOps keepaliveFrame = some [] ∧ (online none).nat Ix.ctlTagPolicy = 0 ∧
    controlHost (online none) 0x0A000001 = true ∧ controlHost (online none) 0x0A000002 = false ∧
    got (.commandFrameReceived ⟨5, 0x0A000001⟩ 6 41814 false false keepaliveFrame) (online none) (fun t => (t.ctl.serving.map (fun v => v.counter)) == some 2 &&
      t.nat Ix.ctlFramesOk 0 == 1 && t.out == []) = true ∧
    got .keepalive (online (some (frame1 false []))) (fun t => t.out.length == 1 && t.ctl.serving == none &&
      sessAfter t (fun x => x.lastReply.length == 32)) = true ∧
    got (.hpCmdGo 16) { ready with hp := { HpSt.reset with busy := true } } (fun t => t.hp.drop && t.nat Ix.ctlFramesDrop 1 == 1) = true ∧
    got (.hpCmdGo 1472) (online (some (frame1 false []))) (fun t => t.ctl.queue.map (fun q => q.bytes.length) == [1472] && !t.hp.busy) = true ∧
    got .hpRspPop { online (some (frame1 false [])) with hp := { HpSt.reset with rsp := [[1], [2]] } } (fun t => t.hp.rsp == [[2]]) = true ∧
    got (.controlArpRequest 0x0A000001 ⟨5, false⟩) (online none) (fun t => t.out == [.arpReply 5]) = true ∧
    got (.controlArpRequest 0x0A000001 ⟨5, true⟩) (online none) (fun t => t.out == []) = true ∧
    got (.controlIcmpEcho 0x0A000001 ⟨5, false, true⟩ [7]) (online none) (fun t => t.out == []) = true ∧
    got (.controlIcmpEcho 0x0A000001 ⟨5, false, false⟩ [7]) (online none) (fun t => t.out == [.icmpReply 5 [7]]) = true ∧
    got (.sessionTimeout 1) (online none) (fun t => sessOf t 1 == none) = true := by decide +kernel
theorem test_notified : subDue (online none) { sub1 with sent := [.int 3] } = true ∧ (subRecords (online none) (notifyRoom sess1) { sub1 with sent := [.int 3] }).length = 1 ∧
    got (.notificationDue 1) (online none) (fun t => t.out.length == 1 && sessAfter t (fun x => x.notifySeq == 1)) = true := by decide +kernel
/-- 8 GiB of DRAM in service, and a window of 16 bytes for the host port, which stands at its last 8. -/
def withDram : State :=
  let s := ready.setNat Ix.fabDramSize 0 8192
  { s with fab := { s.fab with dramReady := true, mem := [(transferArea + 15, 9)] }
           hp := { s.hp with dpAddr := 0x1020000008, inc := 3 }
           ctl := { s.ctl with sessions := [(1, some { sess1 with via := .hostPort, transfer := some { upload true with length := 16 } })] } }
/-- A transaction of the first engine of 8 bytes at the same address. -/
def tx8 (write : Bool) (data : List Byte) : FabTx := { tx1 8 write data with addr := 0x1020000008 }
theorem test_direct_accesses : incSize 3 = 8 ∧ dramBytes withDram ≤ 2 ^ 38 ∧ inWindow withDram 0x1020000008 8 = true ∧
    got (.hpDpStart (BitVec.ofNat 32 (0x80000008 + 3 + 65536 * 8)) [(5, .ok)]) withDram (fun t => t.hp.rbuf == [0, 0, 0, 0, 0, 0, 0, 9] && t.hp.ready &&
      t.hp.dpAddr == 0x1020000010) = true ∧
    got (.hpDpdataWrite [1, 2, 3, 4, 5, 6, 7, 8] []) withDram (fun t => memByte t 0x102000000F == 8 && t.hp.wbuf == [] && !t.hp.err) = true ∧
    got (.fabricTransaction (tx8 true [1, 2, 3, 4, 5, 6, 7, 0])) withDram (fun t => memByte t 0x1020000008 == 1 &&
      memByte t 0x102000000F == 0 && t.out == [.fabric 1 0 0 []]) = true ∧
    got (.fabricTransaction (tx8 false [])) withDram (fun t => t.out == [.fabric 1 0 0 [0, 0, 0, 0, 0, 0, 0, 9]]) = true := by decide +kernel
theorem test_direct_registers :
    got (.masterReset 1 3) ready (fun t => t.nat Ix.fabResetBursts == 3) = true ∧ got (.remap true) ready (fun t => t.fab.remap) = true ∧
    got .lock ready (fun t => t.fab.lock) = true ∧ got (.registerWrite .fabCtl 0x101) ready (fun t => t.fab.remap && t.fab.lock) = true ∧
    got (.registerWrite (.record 786431 3) 0xFFFF0000) ready (fun t => (xpOf t 786431).rlen == 65535) = true ∧ windowGated ready 15 = false ∧
    got (.registerWrite (.engine 15 5) 0x1F) (ready.setEngine 15 { eng0 with loc := { eng0.loc with fault := 31 } }) (fun t =>
      (t.engine 15).loc.fault == 0) = true := by decide +kernel

/-! ## Ports and the media network -/

/-- A direction in a run state with two channels, one at unity. -/
def runs (run : PortRun) (clk : Nat) : Dir :=
  { Dir.reset with run := run, fmt := 2082, clk := clk, mask := 3, chans := [(0, { Chan.fresh with svc := Fade.unity, held := 7 }), (7, Chan.fresh)] }
/-- The block with direction or AES3 input `k` as given. -/
def withDir (k : Nat) (d : Dir) : State := { ready with port := { PortSt.reset with dirs := [(k, d)] } }
/-- A frame of eight slots of 32 bits. -/
def tdm (timely : Bool) : TdmFrame := { raw := List.replicate 8 0x12345600, bclks := 256, timely := timely, fast := false, phase := 0, stamp := 77, nco := 0 }
/-- A channel of a direction. -/
def chanOf (t : State) (k slot : Nat) : Chan := (mapFind slot (dirOf t k).chans).getD Chan.fresh
theorem test_tdm_frames : fmtSlots 2082 * fmtWidth 2082 = 256 ∧ clkMode 64 = 0 ∧ clkFollower 64 = true ∧
    got (.tdmFrameReceived 31 (tdm true)) (withDir 62 (runs .running 0)) (fun t => (dirOf t 62).frames == 1 && (dirOf t 62).stamp == 77 &&
      (chanOf t 62 0).held == 0x01234560 && (chanOf t 62 0).fifo.map (fun o => (o.w, o.low, o.npcm)) == [(0x01234560, false, false)]) = true ∧
    got (.tdmFrameReceived 31 (tdm false)) (withDir 62 (runs .running 0)) (fun t => (dirOf t 62).bad == 1 && (chanOf t 62 0).held == 7 && (chanOf t 62 0).concealed &&
      t.nat Ix.tdmErrors 124 == 1) = true ∧
    got (.tdmFsTimeout 31 false) (withDir 62 (runs .running 64)) (fun t => (dirOf t 62).run == .lost &&
      (chanOf t 62 0).svc.mode == .fadingOut) = true := by decide +kernel
theorem test_tdm_rates : rateOutside (withDir 0 (runs .running 64)) 0 (runs .running 64) 96000000 = false ∧
    rateOutside (withDir 0 (runs .running 64)) 0 (runs .running 64) 96019201 = true ∧
    got (.rateWindow (.tdm 0 false) 96000000) (withDir 0 (runs .running 64)) (fun t => t.nat Ix.tdmRate 0 == 96000000 && (dirOf t 0).inside == 1) = true ∧
    got (.rateWindow (.tdm 0 false) 96019201) (withDir 0 { runs .running 64 with out := 1 }) (fun t => (dirOf t 0).run == .mismatch) = true ∧
    got (.directionReturn (.tdm 0 false)) (withDir 0 { runs .starting 0 with ticks := 1 }) (fun t => (dirOf t 0).run == .running) = true ∧
    got (.portFadeEnd (.tdm 0 false)) (withDir 0 { runs .running 0 with stopping := true, chans := [(0, { Chan.fresh with en := Fade.silent })] })
      (fun t => (dirOf t 0).run == .off) = true ∧
    got (.txFollowerClockReturn 0) (withDir 1 (runs .lost 64)) (fun t => (dirOf t 1).run == .running && (chanOf t 1 7).svc.mode == .fadingIn) = true := by
  decide +kernel
/-- Converter 79 acquires, for slot 7 of the receive direction of port 0. -/
def acquiring : State := ((withDir 0 (runs .starting 512)).setNat Ix.asrcState 79 1).setNat Ix.asrcMap 79 0x2007
/-- Port 3 sends on a FOLLOW clock, and `n` samples wait in the buffer of each channel. -/
def buffered (n : Nat) : State :=
  let d := runs .running 256
  withDir 7 { d with chans := d.chans.map (fun c => (c.1, { c.2 with fifo := List.replicate n Sample.zero, next := ready.ticklen })) }
theorem test_converters : asrcPlace acquiring 79 = some (0, 7) ∧
    acquiring.nat Ix.asrcState 79 = 1 ∧ (mapFind 7 (dirOf acquiring 0).chans).isSome = true ∧
    got (.asrcLocked 79 0x01000000) (ready.setNat Ix.asrcState 79 1) (fun t => t.nat Ix.asrcState 79 == 2) = true ∧
    clkMode 256 = 1 ∧ halfFill (buffered 0) 7 = 8 ∧
    got (.asrcUnderrun (.follow 3 true)) (buffered 0) (fun t => (dirOf t 7).run == .recovering && (chanOf t 7 0).fifo.length == 8 &&
      (chanOf t 7 0).held == 7 && t.nat Ix.tdmErrors 13 == 1) = true ∧
    got (.asrcOverrun (.follow 3 true)) (buffered 16) (fun t => (dirOf t 7).run == .recovering && t.nat Ix.tdmErrors 14 == 1) = true ∧
    got (.asrcOverrun (.follow 3 true)) (buffered 15) (fun t => (dirOf t 7).run == .running) = true := by
  decide +kernel
/-- Subframe A with the most negative sample. -/
def subframe : AesSub := { second := false, start := false, data := 0x800000, validity := true, user := false, biphase := false, parity := false, stamp := 5 }
theorem test_aes_inputs :
    got (.aesSubframeReceived 7 subframe) (withDir 71 (runs .running 0)) (fun t => (chanOf t 71 0).held == convertIn 24 (-8388608) &&
      (t.nat Ix.aesiState 7).testBit 6) = true ∧
    got (.aesPreambleTimeout 7) (withDir 71 (runs .running 0)) (fun t => (dirOf t 71).run == .lost) = true ∧
    got (.aesNpcmReturn 7) { ready with port := { PortSt.reset with aes := [(7, { AesIn.reset with quietA := 8192, quietB := 8192, npcmA := true })] } }
      (fun t => !(aesOf t 7).npcmA) = true := by decide +kernel
/-- A block with its CRCC. -/
def goodBlock : List Byte := List.replicate 23 0 ++ [Config.crcc (List.replicate 23 0)]
theorem test_block_holds : goodBlock.length = 24 ∧ goodBlock.getLast? = some (Config.crcc (goodBlock.take 23)) ∧
    (listGet 0 0 goodBlock).getLsbD 1 = false := ⟨rfl, rfl, rfl⟩
/-- Ports 0 to 3 up, this unit the door-holder of a pair. -/
def linked : State := [0, 1, 2, 3].foldl (fun t p => (t.setNat Ix.netLink p 2).setNat Ix.netPortAddr p (0x0A000002 + p)) (ready.setNat Ix.pairRole 0 3)
/-- Receive stream 511 runs on port 0. -/
def streaming : State :=
  let s := ((((linked.setNat Ix.nrxPair 511 2).setNat Ix.nrxDst 511 0xEF000001).setNat Ix.nrxUdp 511 5004).setNat Ix.nrxState 511 0x12)
  { s with net := { s.net with rx := [(511, { NetRx.off with run := .running, joined := [(0, 0xEF000001, 0)], offset := 48, base := 8, chans := 8, fmt := s.nat Ix.nrxFmt 511 })],
                               ready := [(2, [{ phase := 0, stream := 511, leg := 1, first := 12, payload := [1] }])] }, clk := { s.clk with tick := 5 } }
/-- A packet of it. -/
def packet : NetPacket :=
  { mac := 0x01005E000001, tagged := false, src := 1, dst := 0xEF000001, dport := 5004, ipOk := true, fragment := false, udpOk := true, version := 2,
    ptype := nfType (streaming.nat Ix.nrxFmt 511), ssrc := 0, ts := 36,
    payload := List.replicate (payloadBytes streaming.cls (streaming.nat Ix.nrxFmt 511)) 0, sample := 4, stamp := 9 }
theorem test_streams : isWatched streaming 0 1 0xEF000001 5004 = false ∧ legMatches streaming 0 packet 511 0 = true ∧
    legMatches streaming 0 packet 511 1 = false ∧ packetHits streaming 0 packet = [(511, 0)] ∧
    eventWaits streaming 2 = false ∧ packetOk streaming 511 packet = true ∧ perPacket streaming.cls (rxOf streaming 511).fmt = 12 ∧
    nearestSample (5 * 8 + 4) 36 = some 36 ∧ 36 + 12 + 48 ≤ (5 - 3) * 8 + ringSamples streaming.cls ∧
    got (.streamPacketReceived 0 packet) streaming (fun t => (mapFind (36 + 48) (rxOf t 511).got != none) &&
      (mapFind (36 + 11 + 48) (rxOf t 511).got != none) && t.nat Ix.nrxStats (8 * 511) == 12 && t.nat Ix.netPortCounts 0 == 1) = true ∧
    sendsPacket streaming 511 12 = true ∧
    got (.streamPacketSent ⟨2, 0⟩) streaming (fun t => t.out == [streamOutput streaming 2 ⟨0, 511, 1, 12, [1]⟩] && t.nat Ix.ntxPackets 1023 == 1) = true ∧
    got (.legDown 511 0) streaming (fun t => t.nat Ix.nrxState 511 == 2) = true := by decide +kernel
/-- An ARP frame of the least length. -/
def arpFrame : List Byte := List.replicate 12 0 ++ [0x08, 0x06] ++ List.replicate 46 3
/-- A ring of 16 descriptors at the start of Bank B. -/
def ring0 : RingPlace := ⟨0x20000000, 16⟩
/-- A descriptor at the start of Bank B whose buffer ends Bank B: given to the hardware for reception. -/
def ringed (w0 : Nat) : State := setMemWord (setMemWord linked 0x20000000 w0) 0x20000004 0x207FFFC4
theorem test_rings : etherType arpFrame = 0x0806 ∧ ringClass (ringed 0) 3 arpFrame = some 1 ∧ inBankB 0x207FFFC4 60 = true ∧
    inBankB 0x207FFFC5 60 = false ∧ descBuffer (ringed 0) 0x20000000 = 0x207FFFC4 ∧
    got (.ringFrameReceived 3 arpFrame true ⟨0, 0, 0⟩ (some ring0)) (ringed (0x80000000 + 60 * 65536)) (fun t =>
      memByte t 0x207FFFFF == 3 && !(bankWord t 0x20000000).testBit 31 && bankWord t 0x20000000 % 2048 == 60 &&
      mapGet (fun _ => Ring.none) 7 t.net.rings == ⟨0x20000000, 16, 1, false⟩) = true ∧ ringOk ring0 = true ∧ streamFrame (ringed 0) 3 arpFrame = false ∧
    got (.txDescriptorHandover 15 ⟨ring0, 15⟩ true) linked (fun t => (bankWord t 0x200001E0).testBit 31 &&
      mapGet (fun _ => Ring.none) 47 t.net.rings == ⟨0x20000000, 16, 0, true⟩) = true ∧
    (let s := ringed (0x80000000 + 2 * 2048 + 60)
     got (.ringFrameSent 15 ⟨⟨0, 0, 0⟩, false⟩) { s with net := { s.net with rings := [(47, ⟨0x20000000, 16, 0, false⟩)] } } (fun t =>
      (mapGet (fun _ => Ring.none) 47 t.net.rings).next == 1 &&
      t.out == [.netFrame 2 (List.replicate 60 0)] && !(bankWord t 0x20000000).testBit 31)) = true := by decide +kernel
/-- Ports 2 and 3 of a chain, the MAC address of port 2 being 5. -/
def chained : State :=
  let s := linked.setNat Ix.netPair1Mode 0 1
  { s with dict := (objKey Ix.netPortMac 2, .int 5) :: s.dict }
theorem test_forwards : chainForwards chained 2 ([1] ++ arpFrame) = true ∧
    fwdOf chained 3 = [] ∧ frameRefused ([1] ++ arpFrame) = false ∧ mustWait chained 3 (eventFrame ([1] ++ arpFrame)) = false ∧
    got (.chainForward 2 ([1] ++ arpFrame) 5 false) chained (fun t => t.out == [.netFrame 3 ([1] ++ arpFrame)] &&
      t.nat Ix.netPortCounts 21 == 1) = true ∧
    got (.chainForward 2 ([1] ++ arpFrame) 5 true) chained (fun t => t.out == [] && (fwdOf t 3).map (fun k => k.residence) == [5]) = true := by
  decide +kernel
/-- A queue of port 3 that is full. -/
theorem test_forward_full :
    262144 < (fwdOf (setFwd chained 3 [{ bytes := List.replicate 262144 0, residence := 0 }]) 3).foldl (fun n x => n + x.bytes.length) 0 + ([1] ++ arpFrame).length := by
  have h (k : FwdFrame) : (fwdOf (setFwd chained 3 [k]) 3).foldl (fun n x => n + x.bytes.length) 0 = k.bytes.length := Nat.zero_add _
  rw [h, List.length_replicate]
  exact Nat.lt_add_of_pos_right (by decide)
/-- Stream 3 is watched on port 0. -/
def watching : State :=
  let s := (((linked.setNat Ix.pairMode 0 1).setNat Ix.pairWatch 0 3).setNat Ix.ntxPair 3 2).setNat Ix.ntxDst 3 0xEF000003
  { s with net := { s.net with watchDue := [3] } }
theorem test_links : got (.mediaArpRequest 3 0x0A000005) linked (fun t => t.out == [.mediaArp 3 0x0A000005 false]) = true ∧
    got (.igmpQuery 0 ⟨0, []⟩) streaming (fun t => t.out == [.igmpState 0 0xEF000001 [] true]) = true ∧
    got (.igmpQuery 0 ⟨0xEF000001, [7]⟩) streaming (fun t => t.out == [.igmpState 0 0xEF000001 [7] false]) = true ∧
    got (.igmpRepeat 511 false) { streaming with net := { streaming.net with rx := streaming.net.rx.map (fun x => (x.1, { x.2 with repeatDue := [(0, 0xEF000001, 0)] })) } }
      (fun t => (rxOf t 511).repeatDue == [] && t.out == [.igmp 0 0xEF000001 0 true]) = true ∧
    (watchedStreams watching).contains 3 = true ∧ got (.igmpRepeat 3 true) watching (fun t => t.net.watchDue == [] && t.out != []) = true ∧
    got (.linkDownDeclared 2) streaming (fun t => t.nat Ix.netLink 2 == 0 && mapGet (fun _ => []) 2 t.net.ready == []) = true ∧
    got (.linkUpDeclared 2) (ready.setNat Ix.netPortSpeed 2 1) (fun t => t.nat Ix.netLink 2 == 1) = true ∧
    got (.linkUpDeclared 2) (ready.setNat Ix.netPortSpeed 2 2) (fun t => t.nat Ix.netLink 2 == 2) = true := by decide +kernel

/-! ## Time, references and clocks -/

/-- Candidate 0 active, its filtered offset `x` waiting; REF_ACTIVE 0. -/
def steered (x : Int) (state within beyond : Nat) : State :=
  let s := (ready.setNat Ix.refActive 0 0).setNat Ix.timeState 0 state
  { s with ref := { s.ref with cands := [(0, { Cand.reset with present := true, fresh := some x })] }
           tim := { s.tim with within := within, beyond := beyond } }
/-- TIME_LOCK_LIMIT at reset. -/
def lockLimit : Nat := ready.nat Ix.timeLockLimit
theorem test_measured : got (.timeMeasurement 2 5 0 none) ready (fun t => (candOf t 2).present && (candOf t 2).phases == [(0, 5)] && t.int Ix.refPhase 2 == 5) = true ∧
    carriesTime 4 = false ∧ activeRef ready = none ∧
    got (.timeMeasurement 4 5 0 (some 9999980)) ready (fun t => (candOf t 4).present) = true ∧
    got (.timeMeasurement 4 5 0 (some 9999979)) { ready with ref := { ready.ref with cands := [(4, { Cand.reset with present := true })] } }
      (fun t => !(candOf t 4).present && refState t 4 == 0) = true ∧
    activeRef (steered 3 1 14 0) = some 0 ∧ (steered 3 1 14 0).ref.reacq = false ∧
    got (.timeMeasurement 0 9 100 none) (steered lockLimit 1 14 0) (fun t => t.nat Ix.timeState == 1 && t.tim.within == 15 &&
      t.tim.est == 100 && t.int Ix.timeOffset 0 == lockLimit) = true ∧
    got (.timeMeasurement 0 9 100 none) (steered lockLimit 1 15 0) (fun t => t.nat Ix.timeState == 2) = true ∧
    got (.timeMeasurement 0 9 100 none) (steered (lockLimit + 1) 2 0 15) (fun t => t.nat Ix.timeState == 1) = true ∧
    commitBetween { ready with shut := { ShutSt.reset with pend := [{ gainCommit with checked := false }] } } = false ∧
    got .timeFirstStep { ready with tim := { TimeSt.reset with firstDue := some 1000 } } (fun t => t.tim.stepped && t.nat Ix.timeState == 1 &&
      t.engines == ready.engines && t.out == []) = true ∧
    got .timeFirstStep { ready with tim := { TimeSt.reset with firstDue := some 1000 }, shut := { ShutSt.reset with pend := [{ gainCommit with checked := false }] } }
      (fun t => t.shut.pend == []) = true := by
  decide +kernel
/-- A slew of 5 under way, with room for more. -/
def slewing : State := { ready with tim := { ready.tim with slew := 5 } }
theorem test_time_passes : slewing.tim.aim = none ∧ slewing.tim.slew.natAbs ≤ slewMax slewing ∧
    (slewing.tim.est.natAbs : Int) + slewing.tim.slew.natAbs ≤ rhoMax ∧ (timePass slewing 1000).clk.sysCounter = 1000 ∧
    slopeOver slewing 1000000 ≠ 0 := by decide +kernel
/-- Instance 0 follows on leg 0, its ports up; MAC address 5. -/
def ptpRuns (gm : Nat) : State :=
  let s := linked.setNat Ix.ptpRole 0 1
  let d : PtpData := { priority1 := 0, clockClass := 6, accuracy := 0x21, variance := 0, priority2 := 0, gm := 9, steps := 0, sender := 9 }
  { s with dict := (objKey Ix.netPortMac 0, .int 5) :: s.dict
           tim := { s.tim with ptp := [(0, { PtpInst.reset with legA := some d, legB := some { d with gm := gm }, slave := 0 })] } }
/-- An Announce of domain 127. -/
def announce : Announce :=
  { domain := 127, priority1 := 0, clockClass := 6, accuracy := 0x21, variance := 0, priority2 := 0, gm := 9, steps := 0, sender := 9, tlv := some [1] }
theorem test_ptp_messages : ptpLegState (ptpRuns 9) 0 (ptpOf (ptpRuns 9) 0) 0 0 = 9 ∧ ptpLegState (ptpRuns 9) 0 (ptpOf (ptpRuns 9) 0) 0 1 = 7 ∧
    announce.domain.toNat = (ptpRuns 9).nat Ix.ptpDomain 0 ∧ announce.sender.toNat ≠ ptpIdentity (ptpRuns 9) 0 ∧
    got (.ptpSyncReceived 0 0 127 7 3 2) (ptpRuns 9) (fun t => t.int Ix.ptpOffset 0 == 7 && t.nat Ix.ptpPathDelay 0 == 3 && (candOf t 0).fresh == some 7) = true ∧
    got (.ptpSyncReceived 0 1 127 (-7) 3 2) (ptpRuns 9) (fun t => t.int Ix.ptpOffset 1 == -7 && (ptpOf t 0).diff == 2) = true ∧
    got (.ptpAnnounceReceived 0 1 announce) (ptpRuns 8) (fun t => (ptpOf t 0).legB == some (announceData announce) && t.obj Ix.ptpSmRx 0 == .bytes [1]) = true ∧
    got (.ptpAnnounceTimeout 0 0) (ptpRuns 9) (fun t => (ptpOf t 0).legA == none && (ptpOf t 0).slave == 1) = true := by decide +kernel
/-- Trigger 7 with a one-shot in this tick. -/
def armed : State :=
  let s := ready.setNat Ix.trigState 7 1
  { s with tim := { s.tim with trigs := [(7, { Trig.reset with cur := { TrigSet.reset with mode := 1, time := 83332 } })] } }
/-- Capture input 3 records rising edges; the last one was stamped at 1,000 ns. -/
def capturing : State := let s := ready.setNat Ix.captEn 3 1; { s with tim := { s.tim with capts := [(3, { stamp := some 4000, drop := none })] } }
theorem test_triggers : (trigNext armed 7).isSome = true ∧ (trigNext { armed with tim := { armed.tim with t := 83334 * nsUnit } } 7).isSome = false ∧
    (trigNext { armed with tim := { armed.tim with t := 83334 * nsUnit }, clk := { armed.clk with seq := .stopped } } 7).isSome = true ∧ armed.tim.touched = [] ∧
    got (.trigEdge 7) armed (fun t => t.nat Ix.trigCount 7 == 1 && t.nat Ix.trigState 7 == 2 && t.out == [.trigger 7 true true 333328 true]) = true ∧
    got (.trigPulseEnd 7) { ready with tim := { TimeSt.reset with trigs := [(7, { Trig.reset with pulse := some 9, driven := true })] } } (fun t =>
      t.out == [.trigger 7 false false 9 true]) = true ∧
    got (.captEdgeStamp 3 true 8000) capturing (fun t => t.nat Ix.captSeq 3 == 1 && t.nat Ix.captDrops 3 == 0) = true ∧
    got (.captEdgeStamp 3 true 7999) capturing (fun t => t.nat Ix.captSeq 3 == 0 && t.nat Ix.captDrops 3 == 1) = true := by decide +kernel
theorem test_candidates :
    got (.refSecondAverage [some 5, none, some (coarseWin 2), some (coarseWin 3 + 1)] 7) ready (fun t => t.ref.osc == 7 &&
      (candOf t 2).present && (candOf t 2).avgs == [(coarseWin 2 : Int)] && !(candOf t 3).present) = true ∧
    got (.refAbsent 0) ((steered 3 1 0 0).setNat Ix.refState 0 3) (fun t => !(candOf t 0).present && t.nat Ix.refState 0 == 16) = true ∧
    (let s0 := { ready.setNat Ix.refState 2 1 with clk := { ready.clk with sysCounter := 2000000000 } }
     let s := { s0 with ref := { s0.ref with cands := [(2, { Cand.reset with present := true, avgs := [1] })] } }
     refReason (s.setNat Ix.refQl 2 (levelOf s 2)) 2 = none ∧ got (.refQualified 2) s (fun t => refState t 2 == 2) = true) ∧
    got .refHoldSpecExpiry (ready.setNat Ix.refActive 0 15) (fun t => t.ref.specOver && t.nat Ix.refOwnQl == 11) = true ∧
    got .holdOscActivityLoss (ready.setNat Ix.refHoldOsc 0 1) (fun t => t.ref.oscLost) = true ∧
    got .holdOscReturn { ready with ref := { RefSt.reset with oscLost := true } } (fun t => !t.ref.oscLost) = true := by decide +kernel
/-- Both system PLLs in a state. -/
def plls (a b : Nat) : State := (ready.setNat Ix.syspllState 0 a).setNat Ix.syspllState 1 b
theorem test_system_plls :
    got (.syspllLossOfLock 1) (plls 3 2) (fun t => pllState t 1 == 1 && t.nat Ix.syspllLosses 1 == 1) = true ∧
    got (.syspllLossOfLock 0) (plls 3 2) (fun t => pllState t 0 == 1 && pllState t 1 == 3 && t.nat Ix.syspllActive == 1) = true ∧
    got (.syspllLossOfLock 0) { plls 3 2 with syn := { SynSt.reset with losses := [(0, [0, 0])] } } (fun t => pllState t 0 == 4) = true ∧
    got (.syspllLossOfLock 0) (plls 3 1) (fun t => t.syn.dead && t.out.contains .silence) = true ∧
    got (.syspllHotLeafReady 1) (plls 3 1) (fun t => pllState t 1 == 2 && (t.nat Ix.rsvLeaves).testBit 5) = true := by decide +kernel
/-- Media synthesizer 3 in a state. -/
def syn3 (st : Nat) : State := ready.setNat Ix.medsynState 3 st
theorem test_synthesizers : slotOrder (syn3 1) 3 = [0, 1, 2, 3, 4, 5, 6, 7] ∧
    got (.medsynLockDeclared 3 5 1) (syn3 2) (fun t => t.nat Ix.medsynState 3 == 3 && t.nat Ix.medsynFenceDrops 3 == 1) = true ∧
    got (.medsynLockDeclared 3 5 0) (syn3 4) (fun t => t.nat Ix.medsynState 3 == 3) = true ∧
    got (.medsynLockDeclared 3 5 0) (syn3 1) (fun t => t.nat Ix.medsynState 3 == 3 && t.nat Ix.medsynBandmem 24 % 8192 / 4096 == t.nat Ix.medsynFamily 3 % 2 &&
      slotOrder t 3 == [1, 2, 3, 4, 5, 6, 7, 0]) = true ∧
    got (.medsynLossOfLock 3 2) (syn3 3) (fun t => t.nat Ix.medsynState 3 == 4 && t.nat Ix.medsynFenceDrops 3 == 2) = true ∧
    got (.hopTimeout 3 0) (syn3 2) (fun t => t.nat Ix.medsynState 3 == 1) = true := by decide +kernel
/-- A profile of MEDSYN3 whose segment ends at once. -/
def ramped (segs : List (Int × Nat × Nat)) : State := { ready with syn := { SynSt.reset with ramps := [(1, { segs := segs, index := 14, start := 7, since := 0 })] } }
theorem test_ramps_and_sync : segEnd { segs := [], index := 0, start := 7, since := 0 } (7, 1, 0) < boundaryAt ready 1 ∧
    got (.rampSegmentEnd ⟨1, 2⟩) (ramped [(7, 1, 0)]) (fun t => mapFind 1 t.syn.ramps == none && t.nat Ix.medsynFenceDrops 3 == 2 && t.int Ix.medsynOffsetNow 3 == 7) = true ∧
    got (.rampSegmentEnd ⟨1, 0⟩) (ramped [(7, 1, 0), (8, 1, 0)]) (fun t => t.nat Ix.rampState 1 == 1 + 16 * 15) = true ∧
    got (.syncEdge false 400 200 0) ((ready.setNat Ix.clkSyncMode 0 2).setNat Ix.clkSyncState 0 1) (fun t => t.nat Ix.clkSyncState == 2) = true ∧
    got (.syncEdge false 400 200 0) (ready.setNat Ix.clkSyncMode 0 2) (fun t => t.nat Ix.clkSyncIgnored == 1) = true ∧
    got .syncHoldOffEnd ((ready.setNat Ix.clkSyncMode 0 2).setNat Ix.clkSyncState 0 2) (fun t => t.nat Ix.clkSyncState == 1) = true := by decide +kernel

/-! ## Redundant pairs -/

/-- A unit of a pair in a role (1 STANDBY-SYNC, 2 STANDBY, 3 ACTIVE), with what it keeps of the pair. -/
def inPair (role : Nat) (p : PairSt) : State :=
  let s := (ready.setNat Ix.pairMode 0 1).setNat Ix.pairRole 0 role
  { s with pair := p, clk := { s.clk with tick := 100 } }
/-- A HEARTBEAT of the other seat. -/
def beat (role : Byte) : Beat :=
  { tick := 99, sec := 0, ns := 0, role := role, quality := 0x25, gen := 7, pairId := 0, rate := 3, len := 8, lanes := 7, planCrc := 0, ack := 0,
    uniqueId := 5, swapTick := 0 }
theorem test_heartbeats : (beat 0x13).role.toNat / 16 % 2 ≠ (inPair 2 PairSt.reset).nat Ix.seat ∧
    got (.heartbeat (beat 0x13) true 0 7) (inPair 2 { PairSt.reset with missed := 3 }) (fun t => t.nat Ix.pairPeerRole == 0x13 && t.pair.missed == 0 &&
      t.pair.peerTick == 99 && (candOf t 5).quality == 0x25) = true ∧
    got (.heartbeat (beat 0x03) true 0 7) (inPair 2 PairSt.reset) (fun t => t.nat Ix.ctlLogHead == 1 && t.pair.missed == 0) = true ∧
    nextQueued (hpTake (inPair 2 PairSt.reset)) = none ∧
    got .heartbeatLoss (inPair 2 { PairSt.reset with missed := 4 }) (fun t => t.pair.lost && (t.nat Ix.pairEvidence).testBit 0) = true ∧
    got .heartbeatLoss (inPair 3 { PairSt.reset with missed := 4, replies := [⟨true, 5, 6, [1], 9, ⟨none, [], false⟩⟩] }) (fun t =>
      t.pair.replies == [] && t.out.contains (.ctlFrame .udp 5 6 [1])) = true ∧
    got .unrusRetransmit (inPair 3 { PairSt.reset with unacked := [⟨1, 2, 98, [7], none, true⟩, ⟨1, 3, 98, [8], none, false⟩], ackTick := 98 }) (fun t =>
      t.out == [.unrus 2 1 1 98 [7]] && t.pair.ackTick == 100) = true ∧
    got (.unrusLaneFailure 2) (inPair 3 PairSt.reset) (fun t => t.pair.laneSeen == 4 && t.out == []) = true ∧
    (lanesFailed (moveLanes (inPair 3 { PairSt.reset with laneDue := 4 }))).testBit 2 = true ∧
    got (.unrusLaneRestore 2) ((inPair 3 PairSt.reset).setNat Ix.pairLink 0 (8 * 4)) (fun t => !(lanesFailed t).testBit 2) = true := by decide +kernel
/-- A value of ZC_TIMEOUT on the link. -/
def zcValue : WireVal := wireOf 0x0410 0 (.int 9)
/-- A change of the set 15 in the mirror. -/
def mirroredSet : State := let s := inPair 2 PairSt.reset; { s with shut := { ShutSt.reset with sets := [(15, ⟨0, [⟨0x0410, 0, .int 9, false⟩]⟩)] } }
theorem test_mirror_records : valOf zcValue = some (.int 9) ∧ isPairObj 0x0410 = true ∧
    got (.mirrorWrite linkFrame1 5 101 zcValue) (inPair 2 PairSt.reset) (fun t => t.writes.map (fun w => (w.val, w.after, w.gen)) == [(.int 9, 101, some 5)]) = true ∧
    got (.mirrorStage linkFrame1 100 15 3 [zcValue]) (inPair 2 PairSt.reset) (fun t => (mapFind 15 t.shut.sets).map (fun y => y.changes.length) == some 1) = true ∧
    got (.mirrorSetEnd linkFrame1 100 15 1 0) mirroredSet (fun t => t.shut.sets == []) = true ∧
    got (.mirrorCommit linkFrame1 100 9 15 102) mirroredSet (fun t => t.shut.pend.map (fun p => (p.id, p.tick, p.mirrored)) == [(9, 102, true)]) = true ∧
    got (.mirrorCommitEnd linkFrame1 100 9 { code := 0, gen := 3 }) (inPair 2 { PairSt.reset with results := [(9, 0, 0)] }) (fun t => t.pair.results == [] && t.pair.seqIn == 1 &&
      t.nat Ix.shutGen == 3) = true ∧
    got (.mirrorCommitEnd linkFrame1 100 9 { code := 14, gen := 3 }) (inPair 2 { PairSt.reset with results := [(9, 14, 0)] }) (fun t => t.pair.results == [] &&
      t.nat Ix.shutGen == 0) = true ∧
    got (.mirrorXpStep linkFrame1 100 7 3 0 9) { inPair 2 PairSt.reset with bench := (benched (mover 1 8 .moving)).bench } (fun t => (xpOf t 7).cur == 9) = true ∧
    got (.mirrorGr linkFrame1 100 15 0 [5]) (inPair 2 PairSt.reset) (fun t => t.pair.gr == [(15, (0, [5]))]) = true := by decide +kernel
/-- A standby of a planned swap. -/
def swapping (giver : Bool) (tw ts : Nat) (p : PairSt) : PairSt := { p with swap := some { tw := tw, ts := ts, giver := giver, lockstep := [], got := [] } }
theorem test_mirror_more :
    got (.mirrorPlaceCrc linkFrame1 100 [1]) (inPair 2 PairSt.reset) (fun t => t.pair.theirCrcs == some (100, [1])) = true ∧
    got (.mirrorPlaceCrc linkFrame1 100 (List.replicate 16 1)) (inPair 2 (swapping false 90 120 { PairSt.reset with crcs := [(15, 2)], crcTick := 100 })) (fun t =>
      t.nat Ix.pairWarmDiff 15 == 1) = true ∧
    got (.mirrorDomain linkFrame1 5 101 0x0213 0 1 []) (inPair 2 PairSt.reset) (fun t => t.pair.held.length == 1) = true ∧
    got (.bulk linkFrame1 (.domain 0x0213 0 [1])) (inPair 2 PairSt.reset) (fun t => t.pair.parts.length == 1) = true ∧
    got (.bulk linkFrame1 (.start 5)) (inPair 1 { PairSt.reset with tries := 3 }) (fun t => t.pair.parts == [.start 5]) = true := by decide +kernel
theorem test_mirror_domain : bulkValue (inPair 2 { PairSt.reset with parts := [.domain 0x0213 0 [1]] }) 0x0213 0 1 (Config.sha256 [1]) = some [1] := by
  simp [bulkValue, inPair]
theorem test_digests :
    got (.digest linkFrame1 5 (List.replicate 32 1)) (inPair 2 PairSt.reset) (fun t => t.pair.theirs == some (5, List.replicate 32 1)) = true ∧
    got .mirrorDigestComplete (inPair 3 { PairSt.reset with asked := some 5, past := [(5, [1])] }) (fun t => t.obj Ix.pairDigest 0 == .bytes [1] &&
      t.pair.digestAt == some 100 && t.out == [.unrus 5 0 1 100 [5, 0, 0, 0, 1]]) = true ∧
    got .mirrorDigestComplete (inPair 1 { PairSt.reset with theirs := some (5, [1]), past := [(5, [1])] }) (fun t => t.nat Ix.pairRole == 2) = true ∧
    got .mirrorDigestComplete (inPair 2 { PairSt.reset with theirs := some (5, [2]), past := [(5, [1])] }) (fun t => t.nat Ix.pairRole == 1) = true ∧
    got .auditTimer (((inPair 3 PairSt.reset).setNat Ix.pairPeerRole 0 2).setNat Ix.pairAuditPeriod 0 60) (fun t => t.pair.asked == some 0) = true := by decide +kernel
/-- A standby that has lost the heartbeat; stream 3 is watched. -/
def alarmed (p : PairSt) : State := (inPair 2 { p with lost := true }).setNat Ix.pairWatch 0 3
theorem test_takeovers : streamsAbsent (alarmed PairSt.reset) = true ∧ granted (inPair 2 { PairSt.reset with grant := some 100 }) = true ∧
    granted (inPair 2 { PairSt.reset with grant := some 99 }) = false ∧
    got .doorTakeover (alarmed PairSt.reset) (fun t => t.nat Ix.pairRole == 3 && t.pair.tookAt == some 100) = true ∧
    got .doorTakeover (inPair 2 { PairSt.reset with lost := true }) (fun t => t.nat Ix.pairRole == 2) = true ∧
    got .takeoverEnginesRun (inPair 3 { PairSt.reset with tookAt := some 99, runDue := true }) (fun t => !t.pair.runDue && t.out.contains (.roleAct true)) = true ∧
    got (.witnessTimeout 7) ((inPair 2 { PairSt.reset with asks := [⟨7, 0, 0, true, 0⟩] }).setNat Ix.pairWitnessTimeout 0 100) (fun t => t.pair.noAnswer && t.pair.asks == []) = true ∧
    got .pairYield (inPair 3 { PairSt.reset with due := .giveWay, causeTick := 99 }) (fun t => t.nat Ix.pairRole == 1 && t.out.contains (.roleAct false)) = true := by
  decide +kernel
/-- A unit that has lost its partner and knows a witness. -/
def asking (role : Nat) (p : PairSt) : State :=
  (((inPair role { p with lost := true }).setNat Ix.pairWitnessAddr 0 0x0A000009).setNat Ix.pairWitnessPort 0 9000).setNat Ix.ctlIpv4Addr 0 0x0A000001
/-- A reply of the witness to request 7, of a type, before its tag. -/
def replyHead (ty : Byte) : List Byte := [1, ty, 0, 0, 0, 0, 0, 0, 7, 0, 0, 0, 0, 0, 0, 0] ++ List.replicate 16 0
theorem test_witness_asks : canAsk (asking 2 PairSt.reset) = true ∧ canAsk (asking 3 PairSt.reset) = true ∧
    field (replyHead 0x81) 0 1 = 1 ∧ field (replyHead 0x81) 1 1 = 0x81 ∧ field (replyHead 0x81) 2 1 = ready.nat Ix.seat ∧
    field (replyHead 0x81) 4 4 = ready.nat Ix.pairId ∧ field (replyHead 0x81) 8 8 = 7 ∧
    ((asking 3 { PairSt.reset with asks := [⟨7, 0, 0, false, 100⟩] }).pair.asks.find? (fun x => x.nonce == 7)).isSome = true := by decide +kernel
/-- A tag of its own length makes a reply of 48 bytes; another tag of that length differs. -/
theorem test_witness_tags (key head : List Byte) (hr : head.length = 32) :
    let b := head ++ Config.cmac key head
    let c := head ++ (Config.cmac key head).map (fun x => x + 1)
    b.length = 48 ∧ Config.cmac key (b.take 32) = b.drop 32 ∧ c.length = 48 ∧ Config.cmac key (c.take 32) ≠ c.drop 32 := by
  have hl : (Config.cmac key head).length = 16 := by simp [Config.cmac]
  refine ⟨by simp [hl, hr], by rw [List.take_left' hr, List.drop_left' hr], by simp [hl, hr], ?_⟩
  rw [List.take_left' hr, List.drop_left' hr]
  intro h
  have h0 := congrArg (fun l => listGet 0 0 l) h
  revert hl h0
  cases Config.cmac key head with
  | nil => intro hl; cases hl
  | cons x xs =>
    intro _ h0
    simp [listGet] at h0
/-- Unit 0 of a pair that watches stream 3, its MAC addresses being 1 to 4. -/
def watcher (role : Nat) : State :=
  let s := [0, 1, 2, 3].foldl (fun t p => t.setNat Ix.netLink p 2)
    ((((inPair role PairSt.reset).setNat Ix.pairWatch 0 3).setNat Ix.ntxPair 3 2).setNat Ix.ntxDst 3 0xEF000003)
  let t := (s.setNat Ix.netSvcAddr 0 0x0A000055).setNat Ix.ntxUdp 3 5004
  { t with dict := [0, 1, 2, 3].map (fun p => (objKey Ix.netPortMac p, Val.int (p + 1))) ++ t.dict }
theorem test_foreign_copies : isWatched (watcher 2) 0 0x0A000055 0xEF000003 5004 = true ∧
    got (.foreignCopy 0 9 0xEF000003 5004 false) (watcher 2) (fun t => t.pair.watched == some 100 && t.pair.due == .none) = true ∧
    got (.foreignCopy 0 9 0xEF000003 5004 false) (watcher 3) (fun t => t.pair.due == .giveWay) = true := by decide +kernel
/-- An hour after reset. -/
def hourOn (s : State) : State := { s with clk := { s.clk with sysCounter := 3600000000000 } }
/-- A frame of a warm snapshot, of tick 90. -/
def snap (seq : Nat) (l : List LimState) : SnapFrame := { frame := { seq := seq, good := true, first := true }, tick := 90, states := l }
theorem test_swaps :
    (limStates ((inPair 3 (swapping true 100 120 PairSt.reset)).setDest 5 { Dest.reset with sel := 3 })).length ≤ 256 ∧ (regionOf (inPair 3 PairSt.reset) 15).2.length ≤ 2000 ∧
    got (.swapSnapshot (snap 1 []) none 0 []) ((inPair 3 (swapping true 100 120 PairSt.reset)).setDest 5 { Dest.reset with sel := 3 })
      (fun t => t.out == [.bulk 0 1 100 (.limiters [⟨5, 0x80000000, List.replicate 4 0⟩])]) = true ∧
    got (.swapSnapshot (snap 1 []) (some 15) 0 []) (inPair 3 (swapping true 85 120 PairSt.reset)) (fun t => t.out == [.bulk 0 1 100 (.region 15 0 [] true false)] &&
      t.pair.swap.map (fun w => w.lockstep) == some [15]) = true ∧
    got (.swapSnapshot (snap 1 [⟨5, 7, [1, 2, 3, 4]⟩]) none 0 []) (inPair 2 (swapping false 101 101 PairSt.reset)) (fun t => (t.dest 5).lim.g == 7 &&
      t.pair.swap.map (fun w => w.tw) == some 90) = true ∧
    got (.swapSnapshot (snap 1 []) (some 0) 0 []) ((inPair 2 (swapping false 100 101 PairSt.reset)).setEngine 0 { Engine.reset with image := some ⟨imageHead, 2⟩ })
      (fun t => (t.engine 0).run == .running) = true ∧
    got .swapTickPass (inPair 1 (swapping false 80 100 PairSt.reset)) (fun t => t.nat Ix.pairRole == 1 && t.pair.swap == none) = true ∧
    got .swapTickPass (inPair 3 (swapping true 80 100 { PairSt.reset with beatTick := some 100, peerTick := 99 })) (fun t => t.nat Ix.pairRole == 2 &&
      t.net.pass == some (100, true)) = true ∧
    got .swapTickPass (inPair 2 (swapping false 80 100 { PairSt.reset with beatTick := some 100, peerTick := 99 })) (fun t => t.nat Ix.pairRole == 3) = true ∧
    got .swapTickPass (inPair 3 (swapping true 80 100 PairSt.reset)) (fun t => t.nat Ix.pairRole == 3 && t.pair.swap == none) = true ∧
    got .swapOutHoldEnd (inPair 2 { PairSt.reset with outHold := some 100 }) (fun t => t.lat.door == fadeOut (inPair 2 PairSt.reset).lat.door) = true ∧
    got .swapIntervalExpiry (hourOn ((inPair 3 PairSt.reset).setNat Ix.pairSwapInterval 0 1)) (fun t => t.nat Ix.ctlLogHead == 1 && t.pair.swapDue) = true := by decide +kernel

/-! ## Reserve, security, cue stage, start-up -/

/-- A line of place 0 that wraps in this tick. -/
def lined : State :=
  let s := ((ready.setNat Ix.fabDlyLen 0 64).setNat Ix.fabDlyIn 0 0x80000000).setEngine 0 { eng0 with x := [(0, 5), (7, 6)] }
  { s with fab := { s.fab with dly := [(0, { w := 60, n := 60 })], dlyDue := [0, 1] } }
theorem test_scrubs :
    got (.bankScrubRead 4 .corrected .unused) ready (fun t => t.nat Ix.fabBankEccCe 4 == 1 && t.nat Ix.stageEccCe == 1) = true ∧
    [{ gainCommit with checked := false }].any (fun p => p.id == 65 && !p.checked) = true ∧
    (stageHit { ready with shut := { ShutSt.reset with pend := [{ gainCommit with checked := false }] } } (.pending 65)).shut.pend = [] ∧
    (stageHit staged (.openSet 15)).shut.sets = [] ∧
    (stageHit { ready with shut := { ShutSt.reset with pend := [gainCommit] } } (.landingXp 5)).shut.corrupt = [(true, 5)] ∧
    (stageHit ready (.landingDest 5)).shut.corrupt = [] ∧
    (let s := benched (mover 1 8 .moving)
     (xpOf (faultLost { s with shut := { s.shut with corrupt := [(true, 7)] } }) 7).fault) = true ∧
    ((faultLost { ready with shut := { ShutSt.reset with corrupt := [(false, 5)] } }).dest 5).fault.mode = .fadingOut := by decide +kernel
theorem test_delay_lines : linesOf lined 0 false = [0] ∧ linesOf lined 0 true = [] ∧ lined.ticklen ≤ dlyLen lined 0 ∧
    got (.delayStream 0 false { late := [0] }) lined (fun t => mapFind 0 t.fab.dly == some { w := 4, n := 64 } && t.fab.dlyDue == [1] &&
      memBytes t (dlyAddr lined 0 60) 4 == [5, 0, 0, 0] && memBytes t (dlyAddr lined 0 3) 4 == [6, 0, 0, 0] && t.fab.dlyLate == [0]) = true ∧
    got (.delayStream 0 true { late := [] }) lined (fun t => t.fab.dlyDue == [0]) = true := by decide +kernel
/-- A move of place 0 from engine 0 to engine 15. -/
def move (kind : MoveKind) (step : MoveStep) (posts : List (Bool × Nat × Nat × Word)) : Move :=
  { kind := kind, req := { place := 0, leaf := none, force := false, retire := false, auto := false }, source := 0, leaf := 15, step := step,
    tx := 3, held := 0, repeated := false, posts := posts, pmu := EngPmu.reset }
/-- The block in that move, at tick 5, the section of engine 0 done. -/
def moving (m : Move) : State :=
  let s := (ready.setEngine 0 { eng0 with ran1 := true, inBundle := false, image := some ⟨imageHead, 2⟩ }).setEngine 15 { Engine.reset with image := some ⟨imageHead, 2⟩ }
  { s with rsv := { s.rsv with move := some m }, clk := { s.clk with tick := 5 } }
/-- A step of the move. -/
def stepOf (t : State) : Option MoveStep := t.rsv.move.map (fun m => m.step)
theorem test_move_steps : copyFits (moving (move .warm .prepared [])) = true ∧ lastDone ((moving (move .warm .prepared [])).engine 0) = true ∧
    placeOf (moving (move .warm .copied [])) 15 ≠ some 0 ∧
    got .movePrepared (moving (move .warm .preparing [])) (fun t => stepOf t == some .prepared && (t.engine 15).run == .leaf) = true ∧
    got (.moveCopy { bad := false, ends := 30 }) (moving (move .warm .prepared [])) (fun t => stepOf t == some .copied && t.rsv.move.map (fun m => m.held) == some 30 && (t.engine 15).ran1 && t.nat Ix.rsvMigTick == 8) = true ∧
    got .moveCutover (moving (move .warm .copied [])) (fun t => t.nat Ix.latEngMap 0 == 15 && t.rsv.move == none && (t.engine 0).run == .leaf) = true ∧
    (let s := (moving { move .warm .copied [(true, 0, 0, 1)] with tx := 4 }).setNat Ix.rsvShadowCheck 0 1
     s.rsv.move.map (fun m => m.posts.find? (fun x => x.1 == !false && x.2.1 == 0 && x.2.2.1 == 0)) = some (some (true, 0, 0, 1)) ∧ crc32 (wordBytes [5]) ≠ 1 ∧
      stepOf (notePost s false 0 0 [5]) = some .prepared ∧ (notePost s false 0 0 [5]).nat Ix.rsvMigDiffs = 1) ∧
    got .coldMoveFlip (moving (move .cold .prepared [])) (fun t => (t.engine 15).run == .running && t.nat Ix.latEngMap 0 == 15) = true ∧
    got .quietMoveFlip (moving (move .quiet .prepared [])) (fun t => (t.engine 15).run == .idle && t.nat Ix.latEngMap 0 == 15) = true := by decide +kernel
theorem test_reserve_watch :
    leastSlack (recentSlacks ready [(0, 40), (0, 41), (0, 39)]) = some 39 ∧ (ready.setNat Ix.rsvPolicy 0 0).nat Ix.rsvPolicy ≠ 1 ∧
    ready.rsv.lanesOut.contains 67 = false ∧ ready.rsv.lanesDue.contains 67 = false ∧
    (List.finRange 16).filter (fun e => rsvState ready e == 1) = [14, 15] ∧
    got .leafTestTimer (hourOn (ready.setNat Ix.rsvLeafTestPeriod 0 1)) (fun t => t.rsv.testing == [14] && t.rsv.tests == [15] && rsvState t 14 == 2) = true ∧
    { RsvSt.reset with testing := [15] }.testing.contains 15 = true ∧
    got (.laneRetire 67 true) ready (fun t => t.rsv.lanesOut == [67] && t.nat Ix.rsvLaneResidue == 1) = true ∧
    windowGated ready 15 = false ∧ got (.sePmuCntLo 0 3 5) ready (fun t => (t.engine 0).loc.pmu.cnt[3] == 5) = true ∧
    got (.sePmuCntHi 0 3 0x12345) ready (fun t => (t.engine 0).loc.pmu.staged[3] == 0x2345) = true := by decide +kernel
/-- Memory 0 with one spare row, and fuses for 511 repairs used. -/
def spared : State :=
  { ready with dict := (objKey Ix.rsvRows 0, .int 256) :: (objKey Ix.rsvRepairFuses 0, .int 511) :: ready.dict, rsv := { RsvSt.reset with repairs := 1, unfused := [(0, 0)] } }
theorem test_repairs : Subs.memory.has 0 = true ∧ 0 < spared.nat Ix.rsvRows 0 / 256 ∧ spared.nat Ix.rsvRows 0 % 256 < 255 ∧
    spared.nat Ix.rsvRepairFuses < 512 ∧ spared.rsv.unfused = [(0, 0)] ∧
    got .repairFuseWrite { ready with dict := (objKey Ix.rsvRepairFuses 0, .int 512) :: ready.dict, rsv := { RsvSt.reset with unfused := [(0, 7)] } }
      (fun t => t.rsv.unkept == [7] && t.rsv.unfused == []) = true := by
  decide +kernel
/-- A tamper cause is enabled; the Cabinet holds a byte. -/
def guarded : State := let s := ready.setNat Ix.secTamperEn 0 16; { s with fab := { s.fab with mem := [(0x0060000000, 7), (0x0060040000, 8)] } }
theorem test_wipes :
    got .lcAdvanceDone { guarded with sec := { SecSt.reset with advance := some 2 } } (fun t => t.nat Ix.secLifecycle == 2 && t.ctl.keys == [] &&
      memByte t 0x0060000000 == 0 && memByte t 0x0060040000 == 8 && t.sec.copies.length == 1) = true ∧
    got (.tamperAsserted 16) guarded (fun t => t.nat Ix.secTamperState == 16 && t.nat Ix.secWipes == 1 && t.sec.epoch == 1) = true ∧
    got (.tamperAsserted 15) guarded (fun t => t.nat Ix.secTamperRaw == 15 && t.nat Ix.secWipes == 0) = true ∧
    got .sealedCopyWrite { guarded with sec := { SecSt.reset with sealDue := true, copies := [⟨4, 0, 0, [], [], []⟩, ⟨3, 0, 0, [], [], []⟩] } } (fun t =>
      t.sec.copies.map (fun c => c.seq) == [5, 4]) = true ∧
    got .lcAdvanceDone { guarded with sec := { SecSt.reset with advance := some 3 } } (fun t => t.nat Ix.secTamperEn == 0) = true := by decide +kernel
theorem test_debug : dbgOpen ready 0 = true ∧ dbgOpen { ready with sec := { SecSt.reset with life := 2 } } 0 = false ∧
    got .debugGrantExpiry { ready with sec := { SecSt.reset with grant := some (1, 5), hkHalted := true } } (fun t => t.sec.grant == none && !t.sec.hkHalted) = true ∧
    got (.jtagDebugHalt .controller) ready (fun t => t.sec.hkHalted) = true ∧
    got (.jtagDebugHalt (.engine 0)) (alone { eng0 with inBundle := false }) (fun t => (t.engine 0).run == .halted && (t.engine 0).loc.fault == 1) = true := by
  decide +kernel
/-- Cue channel 1 as given. -/
def cued (st : Nat) (c : CueCh) : State := let s := cueIn st; { s with cue := { s.cue with ch1 := c } }
theorem test_cue_checks :
    got (.cueChecksDone 1 0) (cued 1 CueCh.reset) (fun t => cueState t 1 == 2 && (cueOf t 1).startDue) = true ∧
    got (.cueChecksDone 1 5) (cued 1 CueCh.reset) (fun t => cueState t 1 == 3 && t.nat Ix.cueFaults 5 == 1) = true ∧
    got (.cueChecksDone 1 4) ((cued 1 { CueCh.reset with counts := true }).setNat Ix.cueRetries 1 2) (fun t => cueState t 1 == 5 &&
      t.nat Ix.cueRetries 1 == 3) = true ∧
    got (.cueChecksDone 1 1) (cued 1 CueCh.reset) (fun t => cueState t 1 == 4) = true ∧
    got (.cueLatch 1) ((cued 2 CueCh.reset).setNat Ix.cueRetries 1 3) (fun t => cueState t 1 == 5) = true ∧
    got (.cueRetry 1) (hourOn ((cued 4 CueCh.reset).setNat Ix.cueRetries 1 2)) (fun t => cueState t 1 == 1 && t.nat Ix.cueRetries 1 == 3) = true ∧
    got (.cueRetryCountReset 1) (hourOn <| (cued 3 CueCh.reset).setNat Ix.cueRetries 1 2) (fun t => t.nat Ix.cueRetries 1 == 0) = true ∧
    got (.cueOpenLoop 1) (cued 2 CueCh.reset) (fun t => cueState t 1 == 3) = true := by decide +kernel
/-- CUE_Z_LIMITS of channel 1: 4 to 32 Ω. -/
def limited (c : CueCh) : State := (cued 2 c).setNat Ix.cueZLimits 1 (400 + 65536 * 3200)
theorem test_cue_protections :
    got (.sillReport 1 3200 5 380000 250 1400 1300) (limited CueCh.reset) (fun t => t.nat Ix.cueZ 1 == 3200 + 65536 * 5 && (cueOf t 1).zIn == 1) = true ∧
    got (.sillReport 1 3201 5 380000 250 1400 1300) (limited { CueCh.reset with zOut := 2 }) (fun t => (cueOf t 1).zWarned && t.nat Ix.cueFaults 7 == 1) = true ∧
    got (.cueSupplyFault false) (cued 2 CueCh.reset) (fun t => (cueOf t 1).supply && (cueOf t 1).next == .shield) = true ∧
    got (.cueSupplyFault false) (cued 1 CueCh.reset) (fun t => cueState t 1 == 6) = true ∧
    got (.cueSupplyFault true) (cued 2 CueCh.reset) (fun t => cueState t 1 == 4) = true ∧
    got .cueSupplyReturn (cued 6 { CueCh.reset with supply := true }) (fun t => cueState t 1 == 1) = true ∧
    got .cueSupplyReturn (cued 6 { CueCh.reset with supply := true, hot := true }) (fun t => cueState t 1 == 6) = true ∧
    got (.cueThermalFault 1) (cued 2 CueCh.reset) (fun t => (cueOf t 1).hot && t.nat Ix.cueFaults 6 == 1) = true ∧
    got (.cueThermalReturn 1) (cued 6 { CueCh.reset with hot := true }) (fun t => cueState t 1 == 1) = true ∧
    got (.cueFadeEnd 1) (cued 2 { CueCh.reset with next := .off }) (fun t => cueState t 1 == 0) = true ∧
    got (.cueFadeEnd 1) (cued 2 { CueCh.reset with next := .shield }) (fun t => cueState t 1 == 6) = true ∧
    got (.cueFadeEnd 1) (cued 2 { CueCh.reset with next := .check }) (fun t => cueState t 1 == 1) = true := by decide +kernel
theorem test_resets :
    got .poresetAssert ready (fun t => t.boot.held && t.boot.stage == 0 && t.out == [.resetLevels]) = true ∧ ready.boot.held = false ∧
    dbgOpen ready 0 = true ∧ passes true ready (op1 Ix.bootReset 0 [1]) = true ∧ passes true ready (op1 Ix.bootReset 0 [2]) = true := by decide +kernel
/-- A bring-up without faults. -/
def up (straps : BitVec 3) (flash : Bool) : BringUp :=
  { straps := straps, pllA := true, pllB := false, ddr0 := true, ddr1 := true, sizesOk := true, size := 8192, speed := 3200, flash := flash, prog0 := none,
    prog1 := none, badMemory := false, time := 5 }
/-- Stage 4 with this content in HP_CMDBUF. -/
def waitsForHost (buf : List Byte) : State :=
  { State.reset with boot := { BootSt.reset with stage := 4 }, hp := { HpSt.reset with cmdLen := 16, cmdBuf := (upFrom 0 16).zip buf } }
theorem test_bring_up :
    got (.poresetRelease (up 2 true)) State.reset (fun t => t.boot.stage == 4 && t.nat Ix.seat == 0) = true ∧
    got (.poresetRelease (up 4 false)) State.reset (fun t => t.boot.stage == 0xFE && t.boot.code == 5 && t.nat Ix.seat == 1) = true ∧
    got (.poresetRelease (up 7 false)) State.reset (fun t => t.boot.stage == 4 && t.boot.code == 5) = true ∧
    got (.poresetRelease { up 0 true with pllA := false }) State.reset (fun t => t.boot.stage == 0xFE && t.boot.code == 1) = true ∧
    got (.poresetRelease (up 0 true)) { State.reset with sec := { SecSt.reset with life := 4 } } (fun t => t.boot.stage == 0xFD) = true ∧
    got .hpBootDescriptor (waitsForHost []) (fun t => t.hp.drop) = true ∧
    got .hpBootDescriptor (waitsForHost ([0x44, 0x52, 0x48, 0x42, 1, 0, 0, 1] ++ List.replicate 8 0)) (fun t => t.boot.stage == 4) = true ∧
    got (.bootFwFlashWriteDone true) { (ready.setNat Ix.bootSource 0 0) with boot := { BootSt.reset with writing := some [1] } } (fun t =>
      t.boot.slot1.image == [1] && t.nat Ix.bootFwStatus == 2) = true ∧
    got (.bootFwFlashWriteDone false) { (ready.setNat Ix.bootSource 0 0) with boot := { BootSt.reset with writing := some [1] } } (fun t =>
      t.nat Ix.bootFwStatus == 4) = true := by decide +kernel
/-- A firmware image without code whose key is the fused one and whose signature holds: it verifies (R452). -/
def fwImage : List Byte := [0x44, 0x52, 0x44, 0x46] ++ List.replicate 188 0
theorem test_firmware_verifies (h : Config.sha256 (List.replicate 64 0) = Config.fwKeyHash)
    (g : Config.ecdsaOk (List.replicate 64 0) (fwImage.take 128) (List.replicate 64 0) = true) : fwVerifies ready fwImage = true := by
  have hk : imgBytes fwImage 0x10 64 = List.replicate 64 0 := by decide
  have hs : imgBytes fwImage 128 64 = List.replicate 64 0 := by decide
  have ha : imgNat fwImage 0x08 4 = 0 ∧ imgNat fwImage 0x0C 4 = 0 := by decide
  have hr : (imgBytes fwImage 0 4 == [0x44, 0x52, 0x44, 0x46]) = true ∧ fwImage.length = 192 ∧
      (imgBytes fwImage 0x50 0x30).all (fun x => x == 0) = true ∧ (ready.sec.life != 4) = true := by decide +kernel
  simp only [fwVerifies, hk, h, ha, hs, hr, g, beq_self_eq_true, Bool.and_true, Nat.add_zero]
  rfl
theorem test_bad_firmware : fwVerifies ready [] = false := by decide
/-- Conditions that the states above meet. -/
theorem test_conditions : copyHolds (ready.setEngine 0 (waiter false)) 0 false 5000 = false ∧ standing.syn.relock = false ∧ standing.clk.restep = none ∧
    (benched (mover 1 8 .moving)).clk.closed.contains 3 = false ∧ fwdOf streaming 2 = [] ∧ fwdOf (ringed 0) 2 = [] ∧ mustWait (ringed 0) 2 false = false ∧
    (dirOf (buffered 0) 7).chans.all (fun c => outMeets (buffered 0) (2 * halfFill (buffered 0) 7) (stillToCome (buffered 0) c.2) false c.2) = true ∧
    (dirOf (buffered 16) 7).chans.all (fun c => outMeets (buffered 16) (2 * halfFill (buffered 16) 7) (stillToCome (buffered 16) c.2) true c.2) = true ∧
    isRx 0 = true ∧ isRx 7 = false ∧ ready.sec.life ≠ 4 ∧ ready.pair.tookAt = none ∧ lateLine { late := [0] } 0 = true ∧ lateLine { late := [] } 0 = false ∧
    (inPair 3 PairSt.reset).pair.swapDue = false ∧ guarded.sec.life ≠ 4 := by decide +kernel
theorem test_tamper_enables : (objRow Ix.secTamperEn).isSome = true ∧
    (let s := { ready.setNat Ix.secTamperEn 0 16 with sec := { SecSt.reset with life := 2 } }
     (objRow Ix.secTamperEn).map (fun r => valueCheck s s true r 0 (.int 15)) = some Rc.state ∧
     (objRow Ix.secTamperEn).map (fun r => valueCheck s s true r 0 (.int 31)) = some 0) := by decide +kernel
/-- The log after an entry of BUS_SAT's alarm. -/
def logged : State := ready.alarm Al.ingressLate 5
theorem test_log_entries : logged.nat Ix.ctlLogHead = 1 ∧ alarmAsserted logged = true ∧
    ({ logged with clk := { logged.clk with tick := 12 } }.alarm Al.ingressLate 5).nat Ix.ctlLogRepeat 0 = 1 ∧
    ({ logged with clk := { logged.clk with tick := 13 } }.alarm Al.ingressLate 5).nat Ix.ctlLogHead = 2 ∧
    (logged.alarm Al.ingressLate 6).nat Ix.ctlLogHead = 2 := by decide +kernel
theorem test_steps : (match step { ready with pending := [.lock, .lock] } with | .next t => t.fab.lock && t.pending == [.lock] | _ => false) = true ∧
    step ready = .next ready ∧ State.reset.canonical = true := ⟨by decide +kernel, rfl, by decide +kernel⟩

end Sys2Proof.Tests
end

section
/-! The canonical form of the stores as an invariant of `step`: every command keeps it (`Keep`, proved command by command
under Laws), and the queue from which `step` takes the command is no part of it. -/

namespace Sys2Proof.Machine

/-- Every command leaves the block in order: `exec` hands it to the operation of its name, and each of these keeps the queue,
the outputs, the free values and the canonical form. -/
theorem exec_keep (c : Instr) (s : State) : KeepOut s (exec c s) := by
  cases c with
  | mpy => exact execMpy_keep ..
  | mac => exact execMac_keep ..
  | msu => exact execMsu_keep ..
  | mpy2 => exact execMpy2_keep ..
  | mac2 => exact execMac2_keep ..
  | msu2 => exact execMsu2_keep ..
  | dpy2 => exact execDpy2_keep ..
  | dot2 => exact execDot2_keep ..
  | dsu2 => exact execDsu2_keep ..
  | cmpy => exact execCmpy_keep ..
  | cmac => exact execCmac_keep ..
  | cmpyj => exact execCmpyj_keep ..
  | cmacj => exact execCmacj_keep ..
  | ld => exact execLd_keep ..
  | st => exact execSt_keep ..
  | sta => exact execSta_keep ..
  | mov => exact execMov_keep ..
  | ldi => exact execLdi_keep ..
  | ldl => exact execLdl_keep ..
  | stl => exact execStl_keep ..
  | add => exact execAdd_keep ..
  | sub => exact execSub_keep ..
  | adds => exact execAdds_keep ..
  | subs => exact execSubs_keep ..
  | andOp => exact execAndOp_keep ..
  | orOp => exact execOrOp_keep ..
  | xorOp => exact execXorOp_keep ..
  | notOp => exact execNotOp_keep ..
  | asr => exact execAsr_keep ..
  | lsr => exact execLsr_keep ..
  | lsl => exact execLsl_keep ..
  | minOp => exact execMinOp_keep ..
  | maxOp => exact execMaxOp_keep ..
  | absOp => exact execAbsOp_keep ..
  | negOp => exact execNegOp_keep ..
  | cmp => exact execCmp_keep ..
  | clr => exact execClr_keep ..
  | adda => exact execAdda_keep ..
  | ash => exact execAsh_keep ..
  | ldacc => exact execLdacc_keep ..
  | movw => exact execMovw_keep ..
  | bra => exact execBra_keep ..
  | bcc => exact execBcc_keep ..
  | call => exact execCall_keep ..
  | ret => exact execRet_keep ..
  | rti => exact execRti_keep ..
  | braDx => exact execBraDx_keep ..
  | repImm => exact execRepImm_keep ..
  | repDx => exact execRepDx_keep ..
  | doImm => exact execDoImm_keep ..
  | doDx => exact execDoDx_keep ..
  | endl => exact execEndl_keep ..
  | loopExit => exact execLoopExit_keep ..
  | waitphase => exact execWaitphase_keep ..
  | waitphaseReturn => exact execWaitphaseReturn_keep ..
  | doneOp => exact execDoneOp_keep ..
  | postImm => exact execPostImm_keep ..
  | postDx => exact execPostDx_keep ..
  | postStallEnd => exact execPostStallEnd_keep ..
  | illegalBundle => exact execIllegalBundle_keep ..
  | eccWriteback => exact execEccWriteback_keep ..
  | subbankRetry => exact execSubbankRetry_keep ..
  | interruptTaken => exact execInterruptTaken_keep ..
  | inputGatherDone => exact execInputGatherDone_keep ..
  | outputFrameCopied => exact execOutputFrameCopied_keep ..
  | engFlagsClr => exact execEngFlagsClr_keep ..
  | mboxInMessage => exact execMboxInMessage_keep ..
  | mboxAck => exact execMboxAck_keep ..
  | mboxSend => exact execMboxSend_keep ..
  | mboxOutCollect => exact execMboxOutCollect_keep ..
  | mboxWrite => exact execMboxWrite_keep ..
  | mboxAlarm => exact execMboxAlarm_keep ..
  | writeReply => exact execWriteReply_keep ..
  | softIrqSet => exact execSoftIrqSet_keep ..
  | run => exact execRun_keep ..
  | stop => exact execStop_keep ..
  | restart => exact execRestart_keep ..
  | engCtlAct => exact execEngCtlAct_keep ..
  | engImage => exact execEngImage_keep ..
  | tickBoundary => exact execTickBoundary_keep ..
  | p0Deadline => exact execP0Deadline_keep ..
  | p1Deadline => exact execP1Deadline_keep ..
  | phaseD2Open => exact execPhaseD2Open_keep ..
  | p2Deadline => exact execP2Deadline_keep ..
  | p3Deadline => exact execP3Deadline_keep ..
  | p4Deadline => exact execP4Deadline_keep ..
  | p5Deadline => exact execP5Deadline_keep ..
  | readerWaitEnd => exact execReaderWaitEnd_keep ..
  | houseRate => exact execHouseRate_keep ..
  | ticklen => exact execTicklen_keep ..
  | sequencerRestart => exact execSequencerRestart_keep ..
  | phasePlan => exact execPhasePlan_keep ..
  | keyedRestepTaken => exact execKeyedRestepTaken_keep ..
  | directWriteLanding => exact execDirectWriteLanding_keep ..
  | zcTimeoutStep => exact execZcTimeoutStep_keep ..
  | rampMoveEnd => exact execRampMoveEnd_keep ..
  | busFrameWritten => exact execBusFrameWritten_keep ..
  | busSatClr => exact execBusSatClr_keep ..
  | benchScrubRead => exact execBenchScrubRead_keep ..
  | egressConvert => exact execEgressConvert_keep ..
  | limGrClr => exact execLimGrClr_keep ..
  | latticeGather => exact execLatticeGather_keep ..
  | softTakeEnd => exact execSoftTakeEnd_keep ..
  | latticeScrubRead => exact execLatticeScrubRead_keep ..
  | stage => exact execStage_keep ..
  | commit => exact execCommit_keep ..
  | abort => exact execAbort_keep ..
  | commitFreeze => exact execCommitFreeze_keep ..
  | commitLanding => exact execCommitLanding_keep ..
  | unownedSetExpiry => exact execUnownedSetExpiry_keep ..
  | commandFrameReceived => exact execCommandFrameReceived_keep ..
  | read => exact execRead_keep ..
  | write => exact execWrite_keep ..
  | keepalive => exact execKeepalive_keep ..
  | subscribe => exact execSubscribe_keep ..
  | unsubscribe => exact execUnsubscribe_keep ..
  | openOp => exact execOpenOp_keep ..
  | closeOp => exact execCloseOp_keep ..
  | domOpen => exact execDomOpen_keep ..
  | domSeg => exact execDomSeg_keep ..
  | domClose => exact execDomClose_keep ..
  | sessionTimeout => exact execSessionTimeout_keep ..
  | notificationDue => exact execNotificationDue_keep ..
  | hpCmdGo => exact execHpCmdGo_keep ..
  | hpRspPop => exact execHpRspPop_keep ..
  | hpDpStart => exact execHpDpStart_keep ..
  | hpDpdataWrite => exact execHpDpdataWrite_keep ..
  | registerWrite => exact execRegisterWrite_keep ..
  | ctlLogAck => exact execCtlLogAck_keep ..
  | ctlCredWrap => exact execCtlCredWrap_keep ..
  | ctlCredPriv => exact execCtlCredPriv_keep ..
  | controlArpRequest => exact execControlArpRequest_keep ..
  | controlIcmpEcho => exact execControlIcmpEcho_keep ..
  | tdmFrameReceived => exact execTdmFrameReceived_keep ..
  | tdmFsTimeout => exact execTdmFsTimeout_keep ..
  | rateWindow => exact execRateWindow_keep ..
  | directionReturn => exact execDirectionReturn_keep ..
  | portFadeEnd => exact execPortFadeEnd_keep ..
  | asrcLocked => exact execAsrcLocked_keep ..
  | asrcUnderrun => exact execAsrcUnderrun_keep ..
  | asrcOverrun => exact execAsrcOverrun_keep ..
  | aesSubframeReceived => exact execAesSubframeReceived_keep ..
  | aesCsBlock => exact execAesCsBlock_keep ..
  | aesPreambleTimeout => exact execAesPreambleTimeout_keep ..
  | aesNpcmReturn => exact execAesNpcmReturn_keep ..
  | streamPacketReceived => exact execStreamPacketReceived_keep ..
  | streamPacketSent => exact execStreamPacketSent_keep ..
  | ringFrameReceived => exact execRingFrameReceived_keep ..
  | txDescriptorHandover => exact execTxDescriptorHandover_keep ..
  | ringFrameSent => exact execRingFrameSent_keep ..
  | mediaArpRequest => exact execMediaArpRequest_keep ..
  | igmpRepeat => exact execIgmpRepeat_keep ..
  | igmpQuery => exact execIgmpQuery_keep ..
  | chainForward => exact execChainForward_keep ..
  | linkDownDeclared => exact execLinkDownDeclared_keep ..
  | linkUpDeclared => exact execLinkUpDeclared_keep ..
  | legDown => exact execLegDown_keep ..
  | timeMeasurement => exact execTimeMeasurement_keep ..
  | timeFirstStep => exact execTimeFirstStep_keep ..
  | timeRestep => exact execTimeRestep_keep ..
  | timeSet => exact execTimeSet_keep ..
  | ptpSyncReceived => exact execPtpSyncReceived_keep ..
  | ptpAnnounceReceived => exact execPtpAnnounceReceived_keep ..
  | ptpAnnounceTimeout => exact execPtpAnnounceTimeout_keep ..
  | trigEdge => exact execTrigEdge_keep ..
  | trigPulseEnd => exact execTrigPulseEnd_keep ..
  | captEdgeStamp => exact execCaptEdgeStamp_keep ..
  | refSecondAverage => exact execRefSecondAverage_keep ..
  | refAbsent => exact execRefAbsent_keep ..
  | refQualified => exact execRefQualified_keep ..
  | refHoldSpecExpiry => exact execRefHoldSpecExpiry_keep ..
  | holdOscActivityLoss => exact execHoldOscActivityLoss_keep ..
  | refPhaseStep => exact execRefPhaseStep_keep ..
  | refPhaseForce => exact execRefPhaseForce_keep ..
  | syspllLossOfLock => exact execSyspllLossOfLock_keep ..
  | syspllHotLeafReady => exact execSyspllHotLeafReady_keep ..
  | syspllSelect => exact execSyspllSelect_keep ..
  | medsynLockDeclared => exact execMedsynLockDeclared_keep ..
  | medsynLossOfLock => exact execMedsynLossOfLock_keep ..
  | hopTimeout => exact execHopTimeout_keep ..
  | rampStart => exact execRampStart_keep ..
  | rampSegmentEnd => exact execRampSegmentEnd_keep ..
  | medsynOffset => exact execMedsynOffset_keep ..
  | clkSyncArm => exact execClkSyncArm_keep ..
  | syncEdge => exact execSyncEdge_keep ..
  | heartbeat => exact execHeartbeat_keep ..
  | heartbeatLoss => exact execHeartbeatLoss_keep ..
  | unrusRetransmit => exact execUnrusRetransmit_keep ..
  | unrusLaneFailure => exact execUnrusLaneFailure_keep ..
  | mirrorWrite => exact execMirrorWrite_keep ..
  | mirrorStage => exact execMirrorStage_keep ..
  | mirrorSetEnd => exact execMirrorSetEnd_keep ..
  | mirrorCommit => exact execMirrorCommit_keep ..
  | mirrorCommitEnd => exact execMirrorCommitEnd_keep ..
  | mirrorXpStep => exact execMirrorXpStep_keep ..
  | mirrorGr => exact execMirrorGr_keep ..
  | mirrorPlaceCrc => exact execMirrorPlaceCrc_keep ..
  | mirrorDomain => exact execMirrorDomain_keep ..
  | bulk => exact execBulk_keep ..
  | digest => exact execDigest_keep ..
  | auditTimer => exact execAuditTimer_keep ..
  | take => exact execTake_keep ..
  | join => exact execJoin_keep ..
  | isolate => exact execIsolate_keep ..
  | swap => exact execSwap_keep ..
  | audit => exact execAudit_keep ..
  | doorTakeover => exact execDoorTakeover_keep ..
  | takeoverEnginesRun => exact execTakeoverEnginesRun_keep ..
  | witnessClaim => exact execWitnessClaim_keep ..
  | witnessHold => exact execWitnessHold_keep ..
  | grant => exact execGrant_keep ..
  | deny => exact execDeny_keep ..
  | keep => exact execKeep_keep ..
  | yield => exact execYield_keep ..
  | witnessTimeout => exact execWitnessTimeout_keep ..
  | foreignCopy => exact execForeignCopy_keep ..
  | pairYield => exact execPairYield_keep ..
  | swapSnapshot => exact execSwapSnapshot_keep ..
  | swapTickPass => exact execSwapTickPass_keep ..
  | swapOutHoldEnd => exact execSwapOutHoldEnd_keep ..
  | swapIntervalExpiry => exact execSwapIntervalExpiry_keep ..
  | fabricTransaction => exact execFabricTransaction_keep ..
  | masterReset => exact execMasterReset_keep ..
  | remap => exact execRemap_keep ..
  | lock => exact execLock_keep ..
  | bankScrubRead => exact execBankScrubRead_keep ..
  | delayStream => exact execDelayStream_keep ..
  | agingMonitorRead => exact execAgingMonitorRead_keep ..
  | movePrepared => exact execMovePrepared_keep ..
  | moveCopy => exact execMoveCopy_keep ..
  | moveCutover => exact execMoveCutover_keep ..
  | coldMoveFlip => exact execColdMoveFlip_keep ..
  | quietMoveFlip => exact execQuietMoveFlip_keep ..
  | migrate => exact execMigrate_keep ..
  | retire => exact execRetire_keep ..
  | test => exact execTest_keep ..
  | restore => exact execRestore_keep ..
  | clearPll => exact execClearPll_keep ..
  | leafTestTimer => exact execLeafTestTimer_keep ..
  | leafTestDone => exact execLeafTestDone_keep ..
  | laneRetire => exact execLaneRetire_keep ..
  | rowRepairSwitch => exact execRowRepairSwitch_keep ..
  | repairFuseWrite => exact execRepairFuseWrite_keep ..
  | unrusLaneRestore => exact execUnrusLaneRestore_keep ..
  | sePmuCntLo => exact execSePmuCntLo_keep ..
  | sePmuCntHi => exact execSePmuCntHi_keep ..
  | pmuEngOvfClr => exact execPmuEngOvfClr_keep ..
  | pmuOvfClr => exact execPmuOvfClr_keep ..
  | secLcAdvance => exact execSecLcAdvance_keep ..
  | lcAdvanceDone => exact execLcAdvanceDone_keep ..
  | tamperAsserted => exact execTamperAsserted_keep ..
  | secTamperClr => exact execSecTamperClr_keep ..
  | secDbgChallenge => exact execSecDbgChallenge_keep ..
  | secDbgResponse => exact execSecDbgResponse_keep ..
  | debugGrantExpiry => exact execDebugGrantExpiry_keep ..
  | secDbgEnd => exact execSecDbgEnd_keep ..
  | secImgPubkey => exact execSecImgPubkey_keep ..
  | secImgKeyHash => exact execSecImgKeyHash_keep ..
  | sealedCopyWrite => exact execSealedCopyWrite_keep ..
  | cueChecksDone => exact execCueChecksDone_keep ..
  | cueLatch => exact execCueLatch_keep ..
  | cueRetry => exact execCueRetry_keep ..
  | cueRetryCountReset => exact execCueRetryCountReset_keep ..
  | cueOpenLoop => exact execCueOpenLoop_keep ..
  | sillReport => exact execSillReport_keep ..
  | cueSupplyFault => exact execCueSupplyFault_keep ..
  | cueSupplyReturn => exact execCueSupplyReturn_keep ..
  | cueThermalFault => exact execCueThermalFault_keep ..
  | cueThermalReturn => exact execCueThermalReturn_keep ..
  | cueFadeEnd => exact execCueFadeEnd_keep ..
  | clear => exact execClear_keep ..
  | recheck => exact execRecheck_keep ..
  | poresetAssert => exact execPoresetAssert_keep ..
  | poresetRelease => exact execPoresetRelease_keep ..
  | sysresetN => exact execSysresetN_keep ..
  | supplyMonitorReset => exact execSupplyMonitorReset_keep ..
  | watchdogReset => exact execWatchdogReset_keep ..
  | lockstepReset => exact execLockstepReset_keep ..
  | jtagReset => exact execJtagReset_keep ..
  | bootReset => exact execBootReset_keep ..
  | bootResetAnyRole => exact execBootResetAnyRole_keep ..
  | hpBootDescriptor => exact execHpBootDescriptor_keep ..
  | bootFwImage => exact execBootFwImage_keep ..
  | quietEnter => exact execQuietEnter_keep ..
  | quietLeave => exact execQuietLeave_keep ..
  | txFollowerClockReturn => exact execTxFollowerClockReturn_keep ..
  | holdOscReturn => exact execHoldOscReturn_keep ..
  | syncHoldOffEnd => exact execSyncHoldOffEnd_keep ..
  | mirrorDigestComplete => exact execMirrorDigestComplete_keep ..
  | bootFwFlashWriteDone => exact execBootFwFlashWriteDone_keep ..
  | jtagDebugHalt => exact execJtagDebugHalt_keep ..

/-- The waiting commands are no part of the stores. -/
theorem canonical_setPending (s : State) (q : List Instr) : State.canonical { s with pending := q } = s.canonical := rfl

/-- A command that answers a next state keeps the canonical form. -/
theorem exec_canonical {c : Instr} {s t : State} (hs : s.canonical = true) (h : exec c s = .next t) : t.canonical = true := by
  have k := exec_keep c s
  rw [h] at k
  exact k.canon hs

/-- In an empty store every key reads as its default. -/
@[simp] theorem mapGet_nil {α : Type} (d : Nat → α) (k : Nat) : mapGet d k [] = d k := rfl

/-- After reset nothing is listed, so every object reads as its default (R11). -/
theorem obj_reset (ix sub : Nat) : State.reset.obj ix sub = objDefault (objKey ix sub) := by
  have hd : State.reset.dict = [] := rfl
  unfold State.obj dictGet
  rw [hd, mapGet_nil]

/-- After reset every engine is the empty, IDLE one. -/
theorem engine_reset (e : Fin 16) : State.reset.engine e = Engine.reset := by
  simp [State.engine, State.reset]

/-- After reset no byte of the fabric memory is written. -/
theorem memByte_reset (a : Nat) : memByte State.reset a = 0 := rfl

end Sys2Proof.Machine

open Sys2Proof.Machine

/-- Settles O60: `step` is the front command with the rest of the queue, and every command keeps the canonical form. -/
theorem everyStepKeepsTheCanonicalForm : Obligations.EveryStepKeepsTheCanonicalForm := by
  unfold Obligations.EveryStepKeepsTheCanonicalForm
  intro s t hs h
  unfold step at h
  split at h
  case h_1 =>
    cases h
    exact hs
  case h_2 c rest _ =>
    have hq : State.canonical { s with pending := rest } = true := (canonical_setPending s rest).trans hs
    exact exec_canonical hq h

/-- Settles O59: nothing is listed in the stores, and the engines are the reset engine. -/
theorem resetStateIsCanonical : Obligations.ResetStateIsCanonical := by
  unfold Obligations.ResetStateIsCanonical
  refine ⟨rfl, rfl, rfl, fun ix sub _ => obj_reset ix sub, fun e => ?_, memByte_reset⟩
  rw [engine_reset]
  exact ⟨rfl, rfl⟩
end

section
/-! What an access to DRAM over the fabric leaves: counting changes block counters and the event log alone, a read answers the
bytes of DRAM, a write replaces them (R351, R353, R394). -/

namespace Sys2Proof.Machine

/-- The registers that counting a fabric event may change: the event log, PMU_FAB_COUNT and PMU_OVF (R204, R394, R404). -/
def countIx (ix : Nat) : Bool := isLogIx ix || ix == Ix.pmuFabCount || ix == Ix.pmuOvf

/-- From `s` to `t` events and bytes of the fabric have been counted: memory, engines, outputs, the data port and every register
outside `countIx` are as they were. -/
structure Counted (s t : State) : Prop where
  mem : t.fab.mem = s.fab.mem
  ready : t.fab.dramReady = s.fab.dramReady
  engines : t.engines = s.engines
  out : t.out = s.out
  hp : { t.hp with irqEvt := false } = { s.hp with irqEvt := false }
  obj : ∀ ix sub, countIx ix = false → t.obj ix sub = s.obj ix sub

theorem Counted.refl (s : State) : Counted s s := ⟨rfl, rfl, rfl, rfl, rfl, fun _ _ _ => rfl⟩

theorem Counted.trans {s t u : State} (h : Counted s t) (k : Counted t u) : Counted s u :=
  ⟨k.mem.trans h.mem, k.ready.trans h.ready, k.engines.trans h.engines, k.out.trans h.out, k.hp.trans h.hp,
    fun ix sub a => (k.obj ix sub a).trans (h.obj ix sub a)⟩

theorem Counted.ite {s t u : State} {c : Prop} [Decidable c] (ht : Counted s t) (hu : Counted s u) :
    Counted s (if c then t else u) := by
  split
  · exact ht
  · exact hu

theorem Counted.setNat (s : State) {ix : Nat} (hx : countIx ix = true) (sub n : Nat) : Counted s (s.setNat ix sub n) := by
  refine ⟨by simp, by simp, by simp, by simp, by simp, fun jx sub' a => ?_⟩
  have hne : jx ≠ ix := by
    intro e
    rw [e, hx] at a
    cases a
  exact obj_setObj_ne s (objKey_ne_index hne) _

theorem Counted.nat {s t : State} (h : Counted s t) {ix : Nat} (hx : countIx ix = false) (sub : Nat) :
    t.nat ix sub = s.nat ix sub := by
  unfold State.nat State.int
  rw [h.obj ix sub hx]

theorem Counted.memByte {s t : State} (h : Counted s t) (a : Nat) : memByte t a = memByte s a := memByte_of_fab h.mem a

theorem Counted.dramBytes {s t : State} (h : Counted s t) : dramBytes t = dramBytes s := by
  unfold Machine.dramBytes
  rw [h.nat rfl]

theorem Counted.dramByte {s t : State} (h : Counted s t) (a : Nat) : dramByte t a = dramByte s a := by
  unfold Machine.dramByte
  rw [h.memByte]
  simp only [engine_of_engines h.engines]

/-! ### The event log raises IRQ_N and leaves the data port alone (R201, R204). -/

theorem logAdd_port (s : State) (code detail : Nat) :
    { (logAdd s code detail).hp with irqEvt := false } = { s.hp with irqEvt := false } := by
  unfold logAdd
  dsimp only
  split <;> simp

theorem logWrapCheck_port (s : State) : { (logWrapCheck s).hp with irqEvt := false } = { s.hp with irqEvt := false } := by
  unfold logWrapCheck
  split
  · rfl
  · split
    · rfl
    · exact logAdd_port _ _ _

theorem logAlarm_port (s : State) (code detail : Nat) :
    { (logAlarm s code detail).hp with irqEvt := false } = { s.hp with irqEvt := false } :=
  (logWrapCheck_port _).trans (logAdd_port s code detail)

theorem port_ite {s t u : State} {c : Prop} [Decidable c] (ht : { t.hp with irqEvt := false } = { s.hp with irqEvt := false })
    (hu : { u.hp with irqEvt := false } = { s.hp with irqEvt := false }) :
    { (if c then t else u).hp with irqEvt := false } = { s.hp with irqEvt := false } := by
  split
  · exact ht
  · exact hu

theorem alarm_port (s : State) (a : AlarmId) (detail : Nat) :
    { (s.alarm a detail).hp with irqEvt := false } = { s.hp with irqEvt := false } := by
  unfold State.alarm
  exact port_ite ((logAlarm_port _ _ _).trans (logAlarm_port s _ _)) (logAlarm_port s _ _)

theorem countIx_of_log {ix : Nat} (h : countIx ix = false) : isLogIx ix = false := by
  simp only [countIx, Bool.or_eq_false_iff] at h
  exact h.1.1

theorem alarm_counted (s : State) (a : AlarmId) (detail : Nat) : Counted s (s.alarm a detail) := by
  have k := alarm_logOnly s a detail
  exact ⟨by rw [k.fab], by rw [k.fab], k.engines, k.out, alarm_port s a detail, fun ix sub h => k.obj ix sub (countIx_of_log h)⟩

theorem alarmIf_counted (s : State) (c : Bool) (a : AlarmId) (detail : Nat) : Counted s (s.alarmIf c a detail) := by
  unfold State.alarmIf
  exact (alarm_counted s a detail).ite (Counted.refl s)

/-! ### Counting events and bytes -/

theorem addBlock_counted {ix : Nat} (hx : countIx ix = true) (k bit src n : Nat) (s : State) :
    Counted s (addBlock ix k bit src n s) := by
  have h1 := Counted.setNat s hx k ((s.nat ix k + n) % 2 ^ 48)
  unfold addBlock
  exact h1.ite ((h1.trans (Counted.setNat _ rfl _ _)).trans (alarmIf_counted _ _ _ _))

theorem foldl_counted {α : Type} {f : State → α → State} (hf : ∀ t a, Counted t (f t a)) (l : List α) (s : State) :
    Counted s (l.foldl f s) := by
  induction l generalizing s with
  | nil => exact Counted.refl s
  | cons a l ih => exact (hf s a).trans (ih _)

theorem fabEvent_counted (ev master target n : Nat) (s : State) : Counted s (fabEvent ev master target n s) :=
  foldl_counted (fun t _ => (addBlock_counted rfl _ _ _ _ t).ite (Counted.refl t)) _ s

theorem matrixEvent_counted (owner : Bool) (ev m code n : Nat) (s : State) : Counted s (matrixEvent owner ev m code n s) := by
  unfold matrixEvent
  exact (Counted.refl s).ite (fabEvent_counted ev m code n s)

theorem dramBursts_counted (master : Nat) (write : Bool) (bursts : List Nat) (s : State) :
    Counted s (dramBursts master write bursts s) :=
  foldl_counted (fun t _ => (fabEvent_counted _ _ _ _ t).trans (fabEvent_counted _ _ _ _ _)) _ s

theorem countOn_counted (s : State) (a n : Nat) : Counted s (countOn s a n) := by
  unfold countOn
  split
  · exact ⟨rfl, rfl, rfl, rfl, rfl, fun _ _ _ => rfl⟩
  · exact ⟨rfl, rfl, rfl, rfl, rfl, fun _ _ _ => rfl⟩

theorem countMoved_counted (s : State) (a n : Nat) : Counted s (countMoved s a n) := by
  unfold countMoved
  exact (countOn_counted s _ _).ite ((countOn_counted s _ _).trans (countOn_counted _ _ _))

/-! ### Bytes of the fabric memory -/

theorem memByte_setMemByte (s : State) (a : Nat) (b : Byte) (k : Nat) :
    memByte (setMemByte s a b) k = if k = a then b else memByte s k :=
  mapGet_mapSet _ a k b s.fab.mem

/-- Bytes that have been written read as written, and every other byte as before. -/
theorem memByte_setMemBytes (data : List Byte) (s : State) (a k : Nat) :
    memByte (setMemBytes s a data) k = if a ≤ k ∧ k < a + data.length then listGet 0 (k - a) data else memByte s k := by
  induction data generalizing s a with
  | nil =>
    rw [if_neg (by simp only [List.length_nil]; omega)]
    rfl
  | cons b l ih =>
    simp only [setMemBytes, ih, memByte_setMemByte, List.length_cons]
    by_cases hk : k = a
    · subst hk
      rw [if_neg (by omega), if_pos rfl, if_pos (by omega), Nat.sub_self]
      rfl
    · by_cases hin : a + 1 ≤ k ∧ k < a + 1 + l.length
      · rw [if_pos hin, if_pos (by omega), show k - a = k - (a + 1) + 1 by omega]
        rfl
      · rw [if_neg hin, if_neg hk, if_neg (by omega)]

/-- Writing bytes changes the memory alone. -/
theorem setMemBytes_eq (data : List Byte) (s : State) (a : Nat) :
    setMemBytes s a data = { s with fab := { s.fab with mem := (setMemBytes s a data).fab.mem } } := by
  induction data generalizing s a with
  | nil => rfl
  | cons b l ih =>
    simp only [setMemBytes]
    rw [ih]
    rfl

@[simp] theorem setMemBytes_engines (data : List Byte) (s : State) (a : Nat) : (setMemBytes s a data).engines = s.engines := by
  rw [setMemBytes_eq]
@[simp] theorem setMemBytes_out (data : List Byte) (s : State) (a : Nat) : (setMemBytes s a data).out = s.out := by
  rw [setMemBytes_eq]
@[simp] theorem setMemBytes_hp (data : List Byte) (s : State) (a : Nat) : (setMemBytes s a data).hp = s.hp := by
  rw [setMemBytes_eq]

/-! ### One beat at DRAM -/

/-- An address of installed DRAM decodes to DRAM (R353, R371). -/
theorem decodeAddr_dram {s : State} {a : Nat} (lo : 0x1000000000 ≤ a) (hi : a < 0x1000000000 + dramBytes s)
    (hr : s.fab.dramReady = true) : decodeAddr s a = some (.dram, a) := by
  unfold decodeAddr
  iterate 12 rw [if_neg (by omega)]
  rw [if_pos ⟨lo, hi, hr⟩]

/-- Words without errors neither count nor fail (R363). -/
theorem fabEcc_ok {errs : List (Nat × Ecc)} (he : ∀ e ∈ errs, e.2 = .ok) (s : State) (master : Nat) (t : Target) (a size : Nat)
    (write : Bool) : fabEcc s master t a size write errs = (s, false) := by
  unfold fabEcc
  generalize hl : errs.filter _ = l
  have hok : ∀ e ∈ l, e.2 = .ok := fun e m => he e (List.mem_filter.1 (hl ▸ m)).1
  clear hl
  induction l with
  | nil => rfl
  | cons e l ih =>
    have h1 : e.2 = .ok := hok e (List.mem_cons_self ..)
    have h2 : wordEcc s master t e.1 write .ok = (s, false) := by cases t <;> rfl
    rw [List.foldl_cons, h1, h2]
    exact ih (fun x m => hok x (List.mem_cons_of_mem _ m))

/-- A transaction of the data port of one beat, at installed DRAM in service, whose words have no errors. -/
structure DramBeat (s : State) (tx : FabTx) : Prop where
  master : tx.master = 0x01
  beats : tx.beats = 1
  size : 1 ≤ tx.size ∧ tx.size ≤ 32
  page : tx.addr.toNat % 4096 + tx.size ≤ 4096
  low : 0x1000000000 ≤ tx.addr.toNat
  high : tx.addr.toNat < 0x1000000000 + dramBytes s
  ready : s.fab.dramReady = true
  clean : ∀ e ∈ tx.errs, e.2 = .ok

theorem DramBeat.decode {s : State} {tx : FabTx} (h : DramBeat s tx) : decodeAddr s tx.addr.toNat = some (.dram, tx.addr.toNat) :=
  decodeAddr_dram h.low h.high h.ready

theorem DramBeat.counted {s t : State} {tx : FabTx} (h : DramBeat s tx) (k : Counted s t) : DramBeat t tx :=
  { h with high := by rw [k.dramBytes]; exact h.high, ready := k.ready.trans h.ready }

theorem DramBeat.form {s : State} {tx : FabTx} (h : DramBeat s tx) : txForm tx = true := by
  obtain ⟨lo, hi⟩ := h.size
  have hp := h.page
  simp only [txForm, h.beats, Nat.mul_one, Bool.and_eq_true, decide_eq_true_eq]
  omega

/-- The data port reads and writes DRAM (R347). -/
theorem pathOf_port_dram : pathOf 1 .dram = (true, true) := rfl

/-- A beat that reads DRAM answers its bytes. -/
theorem fabBeat_dram_read {s : State} {tx : FabTx} (h : DramBeat s tx) (data : List Byte) :
    fabBeat s tx.cycle 1 false tx.addr.toNat tx.size data tx.errs =
      (0, (upFrom tx.addr.toNat tx.size).map (dramByte s), countMoved s tx.addr.toNat tx.size) := by
  have hb : dramByte (countMoved s tx.addr.toNat tx.size) = dramByte s := funext (countMoved_counted s _ _).dramByte
  unfold fabBeat
  simp [h.decode, pathOf_port_dram, fabEcc_ok h.clean, hb]

/-- A beat that writes DRAM replaces its bytes. -/
theorem fabBeat_dram_write {s : State} {tx : FabTx} (h : DramBeat s tx) (data : List Byte) :
    fabBeat s tx.cycle 1 true tx.addr.toNat tx.size data tx.errs =
      (0, [], setMemBytes (countMoved s tx.addr.toNat tx.size) tx.addr.toNat data) := by
  unfold fabBeat
  simp [h.decode, pathOf_port_dram, fabEcc_ok h.clean]

/-- The state in which the one beat of a transaction of the data port at DRAM is carried out: its events and bursts have been
counted (R394). -/
def beatCounts (s : State) (tx : FabTx) : State :=
  let a := tx.addr.toNat
  let event (ev n : Nat) (t : State) : State := fabEvent ev 1 (targetCode .dram a) n t
  dramBursts 1 tx.write (upFrom (a / 64) (ceilDiv (a % 64 + tx.size) 64))
    (event (if tx.write then 0x05 else 0x04) 1 (event 0x03 1 (event 0x02 1 (event 0x08 tx.ownStalls (event 0x07 tx.stalls
      (event 0x0D tx.fulls (event 0x06 tx.waits s)))))))

theorem beatCounts_counted (s : State) (tx : FabTx) : Counted s (beatCounts s tx) := by
  have event (ev n : Nat) {t : State} (h : Counted s t) : Counted s (fabEvent ev 1 (targetCode .dram tx.addr.toNat) n t) :=
    h.trans (fabEvent_counted _ _ _ _ t)
  exact (event _ _ (event _ _ (event _ _ (event _ _ (event _ _ (event _ _ (event _ _ (Counted.refl s)))))))).trans
    (dramBursts_counted _ _ _ _)

/-- A transaction of one beat at DRAM is that beat, where the beat does not fail (R349, R351). -/
theorem fabRun_eq_fabBeat {s u : State} {tx : FabTx} (h : DramBeat s tx) {b : List Byte}
    (hb : fabBeat (beatCounts s tx) tx.cycle 1 tx.write tx.addr.toNat tx.size (tx.data.take tx.size) tx.errs = (0, b, u)) :
    fabRun s tx = (0, b, u) := by
  have hm : tx.master.toNat = 1 := by rw [h.master]; rfl
  have hbeats : fabBeats tx 0 1 (beatCounts s tx) = (0, b, u) := by
    unfold fabBeats
    simp [hm, hb, fabBeats]
  simp only [beatCounts] at hbeats
  unfold fabRun
  simp [h.decode, hm, h.form, h.beats, sizeOk, isOwner, matrixEvent, hbeats]

/-- What a read of the data port over the fabric answers and leaves. -/
theorem fabRun_dram_read {s : State} {tx : FabTx} (h : DramBeat s tx) (hw : tx.write = false) :
    ∃ t, Counted s t ∧ fabRun s tx = (0, (upFrom tx.addr.toNat tx.size).map (dramByte s), t) := by
  have hc := beatCounts_counted s tx
  have hd : dramByte (beatCounts s tx) = dramByte s := funext hc.dramByte
  refine ⟨_, hc.trans (countMoved_counted _ tx.addr.toNat tx.size), fabRun_eq_fabBeat h ?_⟩
  rw [hw, fabBeat_dram_read (h.counted hc), hd]

/-- What a write of the data port over the fabric leaves. -/
theorem fabRun_dram_write {s : State} {tx : FabTx} (h : DramBeat s tx) (hw : tx.write = true) :
    ∃ t, Counted s t ∧ fabRun s tx = (0, [], setMemBytes t tx.addr.toNat (tx.data.take tx.size)) := by
  have hc := beatCounts_counted s tx
  refine ⟨_, hc.trans (countMoved_counted _ tx.addr.toNat tx.size), fabRun_eq_fabBeat h ?_⟩
  rw [hw, fabBeat_dram_write (h.counted hc)]

/-! ### The data port (R203) -/

theorem Counted.port {s t : State} (h : Counted s t) : t.hp = { s.hp with irqEvt := t.hp.irqEvt } :=
  congrArg (fun p : HpSt => { p with irqEvt := t.hp.irqEvt }) h.hp

/-- The values of INC that are not reserved give accesses of 1, 2, 4, 8 or 32 bytes (R201). -/
theorem incSize_cases (inc : BitVec 3) : 0 < incSize inc →
    incSize inc = 1 ∨ incSize inc = 2 ∨ incSize inc = 4 ∨ incSize inc = 8 ∨ incSize inc = 32 := by
  revert inc
  decide

theorem incSize_le (inc : BitVec 3) : incSize inc ≤ 32 := by
  revert inc
  decide

/-- An aligned access of the data port lies in one page of 4 KiB (R349). -/
theorem aligned_in_page {inc : BitVec 3} {a : Nat} (hs : 0 < incSize inc) (ha : a % incSize inc = 0) :
    a % 4096 + incSize inc ≤ 4096 := by
  rcases incSize_cases inc hs with h | h | h | h | h
  all_goals
    rw [h] at ha ⊢
    omega

/-- The data port may make an access outside raw mode at `a` of the size INC gives, and it meets installed DRAM (R203). -/
structure PortReach (s : State) (inc : BitVec 3) (a : BitVec 40) : Prop where
  up : s.answers = true
  window : inWindow s a.toNat (incSize inc) = true
  aligned : a.toNat % incSize inc = 0
  size : 0 < incSize inc
  low : 0x1000000000 ≤ a.toNat
  high : a.toNat + incSize inc ≤ 0x1000000000 + dramBytes s
  installed : dramBytes s ≤ 2 ^ 38
  ready : s.fab.dramReady = true

/-- The transaction of an access of the data port (R203). -/
def portTx (s : State) (write : Bool) (a n : Nat) (data : List Byte) (errs : List (Nat × Ecc)) : FabTx :=
  { master := 0x01, write := write, addr := BitVec.ofNat 40 a, size := n, beats := 1, data := data, errs := errs
    cycle := Config.dpCycle s.tick a, waits := 0, stalls := 0, ownStalls := 0 }

theorem answers_not_booting {s : State} (h : s.answers = true) : hpBooting s = false := by
  simp only [State.answers, Bool.and_eq_true, beq_iff_eq] at h
  simp [hpBooting, h.1]

section
variable {s : State} {inc : BitVec 3} {a : BitVec 40} {errs : List (Nat × Ecc)}

theorem PortReach.dramBeat (h : PortReach s inc a) (he : ∀ e ∈ errs, e.2 = .ok) (write : Bool) (data : List Byte) :
    DramBeat s (portTx s write a.toNat (incSize inc) data errs) := by
  have hs := incSize_le inc
  have hp := aligned_in_page h.size h.aligned
  have hh := h.high
  have hz := h.size
  refine ⟨rfl, rfl, ⟨hz, hs⟩, ?_, ?_, ?_, h.ready, he⟩
  all_goals simp only [portTx, BitVec.ofNat_toNat, BitVec.setWidth_eq]
  · exact hp
  · exact h.low
  · omega

theorem dpAccess_eq (h : PortReach s inc a) (hm : s.hp.mode = false) {write : Bool} {data b : List Byte} {t : State}
    (hrun : fabRun s (portTx s write a.toNat (incSize inc) data errs) = (0, b, t)) :
    dpAccess s write a.toNat (incSize inc) data errs = (0, b, t) := by
  unfold dpAccess
  rw [if_neg (by rw [h.aligned]; decide), if_neg (by rw [answers_not_booting h.up]; decide),
    if_neg (by rw [hm, h.window]; decide), if_neg (by rw [hm]; simp)]
  simp only [portTx] at hrun
  simp only [hrun]

theorem dpAccess_read (h : PortReach s inc a) (hm : s.hp.mode = false) (he : ∀ e ∈ errs, e.2 = .ok) : ∃ t, Counted s t ∧
    dpAccess s false a.toNat (incSize inc) [] errs = (0, (upFrom a.toNat (incSize inc)).map (dramByte s), t) := by
  obtain ⟨t, hc, hr⟩ := fabRun_dram_read (h.dramBeat he false []) rfl
  simp only [portTx, BitVec.ofNat_toNat, BitVec.setWidth_eq] at hr
  exact ⟨t, hc, dpAccess_eq h hm (by simpa only [portTx, BitVec.ofNat_toNat, BitVec.setWidth_eq] using hr)⟩

theorem dpAccess_write (h : PortReach s inc a) (hm : s.hp.mode = false) (he : ∀ e ∈ errs, e.2 = .ok) {data : List Byte} (hd : data.length = incSize inc) :
    ∃ t, Counted s t ∧ dpAccess s true a.toNat (incSize inc) data errs = (0, [], setMemBytes t a.toNat data) := by
  obtain ⟨t, hc, hr⟩ := fabRun_dram_write (h.dramBeat he true data) rfl
  refine ⟨t, hc, dpAccess_eq h hm ?_⟩
  simpa only [portTx, BitVec.ofNat_toNat, BitVec.setWidth_eq, ← hd, List.take_length] using hr

theorem length_upFrom (a n : Nat) : (upFrom a n).length = n := by
  induction n generalizing a with
  | zero => rfl
  | succ n ih => simp [upFrom, ih]

/-- HP_DPADDR after an access. -/
theorem PortReach.next (h : PortReach s inc a) : (a + BitVec.ofNat 40 (incSize inc)).toNat = a.toNat + incSize inc := by
  have h1 := h.high
  have h2 := h.installed
  rw [BitVec.toNat_add, BitVec.toNat_ofNat]
  omega

/-- A fetch of one access. -/
theorem dpFetch_one (h : PortReach s inc a) (hm : s.hp.mode = false) (he : ∀ e ∈ errs, e.2 = .ok) (ha : s.hp.dpAddr = a) : ∃ t, Counted s t ∧
    dpFetch (incSize inc) errs 1 s = { t with hp := { t.hp with
      dpAddr := a + BitVec.ofNat 40 (incSize inc), ready := true
      rbuf := (s.hp.rbuf ++ (upFrom a.toNat (incSize inc)).map (dramByte s)).take s.hp.dpLen.toNat } } := by
  obtain ⟨t, hc, hr⟩ := dpAccess_read h hm he
  have hp := hc.port
  refine ⟨t, hc, ?_⟩
  have e1 : t.hp.dpAddr = a := by rw [hp]; exact ha
  have e2 : t.hp.rbuf = s.hp.rbuf := by rw [hp]
  have e3 : t.hp.dpLen = s.hp.dpLen := by rw [hp]
  simp only [dpFetch, ha, hr, dpStep, e1, e2, e3]

/-- Bytes of one access drain, and none wait. -/
theorem dpDrain_one (h : PortReach s inc a) (hm : s.hp.mode = false) (he : ∀ e ∈ errs, e.2 = .ok) (ha : s.hp.dpAddr = a)
    (hd : s.hp.wbuf.length = incSize inc) (k : Nat) : ∃ t, Counted s t ∧
    dpDrain (incSize inc) errs (k + 2) s = { setMemBytes t a.toNat s.hp.wbuf with hp := { t.hp with
      dpAddr := a + BitVec.ofNat 40 (incSize inc), wbuf := [] } } := by
  obtain ⟨t, hc, hr⟩ := dpAccess_write h hm he hd
  have hp := hc.port
  refine ⟨t, hc, ?_⟩
  have e1 : t.hp.dpAddr = a := by rw [hp]; exact ha
  have e2 : t.hp.wbuf = s.hp.wbuf := by rw [hp]
  have htake : s.hp.wbuf.take (incSize inc) = s.hp.wbuf := by rw [← hd, List.take_length]
  have hdrop : s.hp.wbuf.drop (incSize inc) = [] := by rw [← hd, List.drop_length]
  have hz := h.size
  simp only [dpDrain, ha, hd, Nat.lt_irrefl, if_false, htake, hr, dpStep, setMemBytes_hp, e1, e2, hdrop, List.length_nil, hz, if_true]

end

end Sys2Proof.Machine
end

section
/-! The commands of direct accesses: the data port, the fabric and its reset, FAB_CTL, and registers written directly (R10, R120,
R201, R203, R349, R352, R354). -/

namespace Sys2Proof.Machine

/-- HP_DPCTL that starts a fetch of one access of the size INC gives (R201). -/
def startWord (inc : BitVec 3) (n : Nat) : Word := BitVec.ofNat 32 (0x80000008 + inc.toNat + 65536 * n)

/-- The fields of such a word: LEN, INC, DIR, MODE and START. -/
theorem startWord_fields (inc : BitVec 3) : 0 < incSize inc →
    (startWord inc (incSize inc)).toNat / 65536 % 8192 = incSize inc ∧
    BitVec.ofNat 3 (startWord inc (incSize inc)).toNat = inc ∧ (startWord inc (incSize inc)).getLsbD 3 = true ∧
    (startWord inc (incSize inc)).getLsbD 4 = false ∧ (startWord inc (incSize inc)).getLsbD 31 = true ∧
    incSize inc ≤ 4096 ∧ ceilDiv (incSize inc) (incSize inc) = 1 ∧ (BitVec.ofNat 13 (incSize inc)).toNat = incSize inc := by
  revert inc
  decide

theorem dpServed_of_answers {s : State} (h : s.answers = true) : dpServed s = true := by simp [dpServed, h]

section
variable {s : State} {inc : BitVec 3} {a : BitVec 40} {errs : List (Nat × Ecc)}

/-- HP_DP_START of one access fetches its bytes (R203). -/
theorem hpDpStart_reads (h : PortReach s inc a) (he : ∀ e ∈ errs, e.2 = .ok) (ha : s.hp.dpAddr = a) :
    ∃ t, exec (.hpDpStart (startWord inc (incSize inc)) errs) s = .next t ∧
      t.hp.rbuf = (upFrom a.toNat (incSize inc)).map (dramByte s) ∧ t.hp.ready = true ∧
      t.hp.dpAddr.toNat = a.toNat + incSize inc ∧ (∀ k, memByte t k = memByte s k) ∧ t.hp.dir = true ∧ t.hp.mode = false ∧
      t.hp.dpLen.toNat = incSize inc ∧ t.engines = s.engines := by
  obtain ⟨hlen, hinc, hdir, hmode, hgo, hmax, hone, h13⟩ := startWord_fields inc h.size
  let p : HpSt := { s.hp with
    inc := inc, dir := true, mode := false, dpLen := BitVec.ofNat 13 (incSize inc), ready := false, rbuf := [] }
  have hreach : PortReach { s with hp := p } inc a := { h with }
  have hstart : dpControl s (startWord inc (incSize inc)) errs = dpFetch (incSize inc) errs 1 { s with hp := p } := by
    unfold dpControl
    simp only [dpServed_of_answers h.up, hlen, hinc, hdir, hmode, hgo, hone, p]
    rw [if_neg (by decide), if_pos ⟨trivial, trivial, h.size, hmax, h.size⟩]
  obtain ⟨t, hc, hf⟩ := dpFetch_one hreach rfl he ha
  have hp := hc.port
  refine ⟨_, congrArg Host.Outcome.next (hstart.trans hf), ?_, rfl, h.next, hc.memByte, ?_, ?_, ?_, hc.engines⟩
  · change (([] : List Byte) ++ (upFrom a.toNat (incSize inc)).map (dramByte s)).take (BitVec.ofNat 13 (incSize inc)).toNat = _
    rw [h13, List.nil_append, List.take_of_length_le (Nat.le_of_eq (by rw [List.length_map, length_upFrom]))]
  · change t.hp.dir = true
    rw [hp]
  · change t.hp.mode = false
    rw [hp]
  · change t.hp.dpLen.toNat = _
    rw [hp]
    exact h13

/-- HP_DPDATA_WRITE of one access writes its bytes (R203). -/
theorem hpDpdataWrite_writes (h : PortReach s inc a) (hm : s.hp.mode = false) (he : ∀ e ∈ errs, e.2 = .ok) (ha : s.hp.dpAddr = a) {data : List Byte}
    (hd : data.length = incSize inc) (hinc : s.hp.inc = inc) (hdir : s.hp.dir = false) (hw : s.hp.wbuf = []) :
    ∃ t, exec (.hpDpdataWrite data errs) s = .next t ∧
      (∀ k, memByte t k = if a.toNat ≤ k ∧ k < a.toNat + incSize inc then listGet 0 (k - a.toNat) data else memByte s k) ∧
      t.hp.wbuf = [] ∧ t.hp.dpAddr.toNat = a.toNat + incSize inc ∧ t.hp.err = s.hp.err ∧ t.engines = s.engines := by
  let p : HpSt := { s.hp with wbuf := data }
  have hreach : PortReach { s with hp := p } inc a := { h with }
  have hsmall : data.length ≤ 8192 := by
    have hmax := (startWord_fields inc h.size).2.2.2.2.2.1
    omega
  have hdrain : dpWrite s data errs = dpDrain (incSize inc) errs 8192 { s with hp := p } := by
    have hz : incSize inc ≠ 0 := Nat.ne_of_gt h.size
    have hroom : decide (8192 < data.length) = false := decide_eq_false (Nat.not_lt.mpr hsmall)
    unfold dpWrite
    simp only [dpServed_of_answers h.up, hdir, hw, hinc, hz, List.length_nil, Nat.sub_zero, List.nil_append,
      List.take_of_length_le hsmall, hroom, Bool.or_false, Bool.not_true, Bool.false_eq_true, if_false, p]
  obtain ⟨t, hc, hf⟩ := dpDrain_one hreach hm he ha hd 8190
  have hp := hc.port
  refine ⟨_, congrArg Host.Outcome.next (hdrain.trans hf), fun k => ?_, rfl, h.next, ?_, ?_⟩
  · change memByte (setMemBytes t a.toNat data) k = _
    rw [memByte_setMemBytes, hd, hc.memByte]
    rfl
  · change t.hp.err = s.hp.err
    rw [hp]
  · change (setMemBytes t a.toNat data).engines = s.engines
    rw [setMemBytes_engines]
    exact hc.engines

end

/-! ### Transactions -/

/-- A master's transaction is answered with what the fabric made of it (R349). -/
theorem fabricTransaction_port {s t : State} {tx : FabTx} (h : DramBeat s tx) {b : List Byte} (hr : fabRun s tx = (0, b, t)) :
    exec (.fabricTransaction tx) s = .next (t.emit (.fabric 1 tx.id.val 0 b)) := by
  have hlow := h.low
  have hs : masterSilent s tx = false := by
    simp only [masterSilent, h.master]
    simp [show ¬ tx.addr.toNat < 0x1000000000 by omega]
  change execFabricTransaction tx s = _
  unfold execFabricTransaction
  simp only [hs, hr, h.master]
  rfl

theorem fabricTransaction_reads {s : State} {tx : FabTx} (h : DramBeat s tx) (hw : tx.write = false) :
    ∃ t, exec (.fabricTransaction tx) s = .next t ∧ (∀ k, memByte t k = memByte s k) ∧
      t.out = s.out ++ [.fabric 1 tx.id.val 0 ((upFrom tx.addr.toNat tx.size).map (dramByte s))] ∧ t.engines = s.engines := by
  obtain ⟨t, hc, hr⟩ := fabRun_dram_read h hw
  refine ⟨_, fabricTransaction_port h hr, hc.memByte, ?_, hc.engines⟩
  rw [State.emit, hc.out]

theorem fabricTransaction_writes {s : State} {tx : FabTx} (h : DramBeat s tx) (hw : tx.write = true)
    (hd : tx.data.length = tx.size) :
    ∃ t, exec (.fabricTransaction tx) s = .next t ∧
      (∀ k, memByte t k = if tx.addr.toNat ≤ k ∧ k < tx.addr.toNat + tx.size then listGet 0 (k - tx.addr.toNat) tx.data
        else memByte s k) ∧
      t.out = s.out ++ [.fabric 1 tx.id.val 0 []] ∧ t.engines = s.engines := by
  obtain ⟨t, hc, hr⟩ := fabRun_dram_write h hw
  rw [← hd, List.take_length] at hr
  refine ⟨_, fabricTransaction_port h hr, fun k => ?_, ?_, ?_⟩
  · change memByte (setMemBytes t tx.addr.toNat tx.data) k = _
    rw [memByte_setMemBytes, hd, hc.memByte]
  · rw [State.emit, setMemBytes_out, hc.out]
  · change (setMemBytes t tx.addr.toNat tx.data).engines = s.engines
    rw [setMemBytes_engines]
    exact hc.engines

/-! ### MASTER_RESET -/

theorem dropStream_eq (s : State) (n : Fin 16) : ∃ due, dropStream s n = { s with fab := { s.fab with dlyDue := due } } := by
  unfold dropStream
  split
  · exact ⟨_, rfl⟩
  · exact ⟨s.fab.dlyDue, rfl⟩

/-- A master's reset counts the bursts it completes, and withdraws sections of a streamer at most (R352). -/
theorem masterReset_counts (s : State) (m : Byte) (granted : Nat) : ∃ t, exec (.masterReset m granted) s = .next t ∧
    (∀ k, memByte t k = memByte s k) ∧
    t.nat Ix.fabResetBursts = min (s.nat Ix.fabResetBursts + granted) 0xFFFFFFFF ∧ t.engines = s.engines := by
  let s1 := fabEvent 0x10 m.toNat 0xFF granted (s.addHold Ix.fabResetBursts 0 granted)
  have hc : Counted (s.addHold Ix.fabResetBursts 0 granted) s1 := fabEvent_counted _ _ _ _ _
  have hmem (k : Nat) : memByte s1 k = memByte s k := memByte_of_fab (by rw [hc.mem, addHold_fab]) k
  have hn : s1.nat Ix.fabResetBursts = min (s.nat Ix.fabResetBursts + granted) 0xFFFFFFFF := by
    rw [hc.nat rfl]
    exact nat_setNat_self ..
  have heng : s1.engines = s.engines := by rw [hc.engines, addHold_engines]
  by_cases hm : 0x10 ≤ m.toNat ∧ m.toNat < 0x20
  · obtain ⟨due, hd⟩ := dropStream_eq s1 (Fin.ofNat 16 m.toNat)
    refine ⟨dropStream s1 (Fin.ofNat 16 m.toNat), congrArg Host.Outcome.next (if_pos hm), ?_⟩
    rw [hd]
    exact ⟨hmem, hn, heng⟩
  · exact ⟨s1, congrArg Host.Outcome.next (if_neg hm), hmem, hn, heng⟩

/-! ### Registers written directly -/

theorem remap_writes (s : State) (v : Bool) : exec (.remap v) s =
    .next { s with fab := { s.fab with remap := if s.fab.lock then s.fab.remap else v } } := by
  change Host.Outcome.next (writeFabCtl s (if v then 1 else 0)) = _
  unfold writeFabCtl
  cases v <;> simp [Nat.testBit]

theorem lock_writes (s : State) : exec .lock s = .next { s with fab := { s.fab with lock := true } } := by
  change Host.Outcome.next (writeFabCtl s (256 + (if s.fab.remap then 1 else 0))) = _
  unfold writeFabCtl
  cases hr : s.fab.remap <;> simp [Nat.testBit, hr]

theorem fabCtl_writes (s : State) (w : Word) : exec (.registerWrite .fabCtl w) s = .next { s with fab := { s.fab with
    remap := if s.fab.lock then s.fab.remap else w.getLsbD 0, lock := s.fab.lock || w.getLsbD 8 } } := rfl

@[simp] theorem bumpGen_bench (s : State) (g : Option Nat) : (bumpGen s g).bench = s.bench := by
  unfold bumpGen setGen
  split <;> simp

/-- A record that has been replaced reads as replaced, and every other one as before. -/
theorem xpOf_setXp (s : State) (i j : Nat) (x : Xp) : xpOf (setXp s i x) j = if j = i then x else xpOf s j := by
  unfold setXp
  split
  case isTrue h =>
    split
    case isTrue e => rw [h, e]
    case isFalse => rfl
  case isFalse => exact mapGet_mapSet _ i j x s.bench.xps

/-- Word 3 of a crosspoint record holds RLEN, its one field of type RW (R120). -/
theorem record_rlen_writes (s : State) (xp : Fin 786432) (w : Word) :
    ∃ t, exec (.registerWrite (.record xp 3) w) s = .next t ∧ xpOf t xp.val = { xpOf s xp.val with rlen := w.toNat / 65536 } ∧
      ∀ j, j ≠ xp.val → xpOf t j = xpOf s j := by
  let x : Xp := { xpOf s xp.val with rlen := w.toNat / 65536 }
  have hx (j : Nat) : xpOf (bumpGen (setXp s xp.val x) none) j = if j = xp.val then x else xpOf s j := by
    rw [← xpOf_setXp]
    unfold xpOf
    rw [bumpGen_bench]
  exact ⟨bumpGen (setXp s xp.val x) none, rfl, (hx _).trans (if_pos rfl), fun j hj => (hx j).trans (if_neg hj)⟩

/-- A write of SE_FAULT over the fabric clears the bits it sets (R105). -/
theorem seFault_clears {s : State} {n : Fin 16} (w : Word) (h : windowGated s n = false) :
    exec (.registerWrite (.engine n 5) w) s = .next (s.setEngine n
      { s.engine n with loc := { (s.engine n).loc with fault := (s.engine n).loc.fault &&& ~~~(w.setWidth 5) } }) := by
  change Host.Outcome.next (portWrite s n .fabric 20 w) = _
  unfold portWrite
  simp only [h]
  rfl

end Sys2Proof.Machine
end

section
/-! What the direct accesses rest on. A read of the system region of DRAM answers the stored copies of loaded images where
`Config.bankPlace`, a constant without a body, places them (R364), and the plain memory elsewhere. -/

namespace Sys2Proof.Machine

/-- No byte of the system region of DRAM holds a byte of a stored image. -/
def SystemRegionPlain : Prop := ∀ a, 0x1000000000 ≤ a → a < 0x1020000000 → Config.bankPlace a = none

theorem dramByte_of_plain (h : SystemRegionPlain) (s : State) {a : Nat} (lo : 0x1000000000 ≤ a) : dramByte s a = memByte s a := by
  unfold dramByte
  split
  case isTrue hi => rw [h a lo hi]
  case isFalse => rfl

theorem le_of_mem_upFrom {a n k : Nat} (h : k ∈ upFrom a n) : a ≤ k := by
  induction n generalizing a with
  | zero => cases h
  | succ n ih =>
    rcases List.mem_cons.1 h with e | m
    · omega
    · exact Nat.le_of_succ_le (ih m)

theorem dramBytes_of_plain (h : SystemRegionPlain) (s : State) {a : Nat} (lo : 0x1000000000 ≤ a) (n : Nat) :
    (upFrom a n).map (dramByte s) = memBytes s a n :=
  List.map_congr_left fun _ m => dramByte_of_plain h s (Nat.le_trans lo (le_of_mem_upFrom m))

/-- 8 GiB of DRAM in service and an image of `n` bytes of value 1 in engine 0; nothing is written in DRAM. -/
def imageLoaded (n : Nat) : State :=
  let s := (State.reset.setNat Ix.fabDramSize 0 8192).setEngine 0 { Engine.reset with image := some { raw := List.replicate n 1, priv := 0 } }
  { s with fab := { s.fab with dramReady := true } }

theorem imageLoaded_dramBytes (n : Nat) : dramBytes (imageLoaded n) = 2 ^ 33 := by
  have h : (imageLoaded n).nat Ix.fabDramSize = 8192 := nat_setNat_self State.reset Ix.fabDramSize 0 8192
  calc dramBytes (imageLoaded n) = 8192 * 1048576 := congrArg (· * 1048576) h
    _ = 2 ^ 33 := by decide

theorem imageLoaded_memByte (n a : Nat) : memByte (imageLoaded n) a = 0 := rfl

/-- A placed byte of the image reads as the image has it, though memory holds 0 there. -/
theorem imageLoaded_dramByte {a j : Nat} (hi : a < 0x1020000000) (hj : Config.bankPlace a = some j) :
    dramByte (imageLoaded (j + 1)) a = 1 := by
  have he : (imageLoaded (j + 1)).engine 0 =
      { Engine.reset with image := some { raw := List.replicate (j + 1) 1, priv := 0 } } := engine_setEngine_self _ 0 _
  unfold dramByte
  rw [if_pos hi, hj]
  simp only [List.finRange_succ, List.flatMap_cons, he, Option.map_some, Option.getD_some, listGet]
  rw [List.getElem?_append_left (by simp), List.getElem?_replicate_of_lt (Nat.lt_succ_self j), Option.getD_some]

end Sys2Proof.Machine

open Sys2Proof Sys2Proof.Machine

/-- Where the system region is plain memory, the accesses of O29 reach their targets. -/
theorem directAccesses_of_plain (hp : SystemRegionPlain) : Obligations.DirectAccessesReachTheirTarget := by
  unfold Obligations.DirectAccessesReachTheirTarget
  intro s a size inc hinc hsize hal hlow hhigh hinst hready
  subst hinc
  have hbytes := dramBytes_of_plain hp s hlow (incSize inc)
  refine ⟨fun errs he hup ha hwin => ?_, fun tx hta hts htb htm hte htp => ?_, masterReset_counts s, remap_writes s, lock_writes s,
    fabCtl_writes s, record_rlen_writes s, fun n w => seFault_clears w⟩
  · have hreach : PortReach s inc a := ⟨hup, hwin, hal, hsize, hlow, hhigh, hinst, hready⟩
    have hread := hpDpStart_reads hreach he ha
    rw [hbytes] at hread
    exact ⟨hread, fun data hd hi hm hdir hw => hpDpdataWrite_writes hreach hm he ha hd hi hdir hw⟩
  · subst hta
    have hmax : incSize inc ≤ 32 := incSize_le inc
    have hbeat : DramBeat s tx :=
      ⟨htm, htb, by omega, by rw [hts]; exact htp, hlow, by omega, hready, hte⟩
    rw [← hts] at hbytes ⊢
    refine ⟨fun hw hd => fabricTransaction_writes hbeat hw hd, fun hw => ?_⟩
    have hread := fabricTransaction_reads hbeat hw
    rwa [hbytes] at hread

/-- Where an access of the data port's master reads what memory holds, no byte of the system region is a stored image's: a
transaction that reads one byte of `imageLoaded` would answer the image's byte. -/
theorem plain_of_directAccesses (h : Obligations.DirectAccessesReachTheirTarget) : SystemRegionPlain := by
  unfold Obligations.DirectAccessesReachTheirTarget at h
  intro a lo hi
  cases hj : Config.bankPlace a with
  | none => rfl
  | some j =>
    have ha : (BitVec.ofNat 40 a).toNat = a := by
      rw [BitVec.toNat_ofNat]
      omega
    let s := imageLoaded (j + 1)
    let tx : FabTx := { master := 0x01, write := false, addr := BitVec.ofNat 40 a, size := 1, beats := 1, data := [], cycle := 0
                        waits := 0, stalls := 0, ownStalls := 0 }
    have hd : dramBytes s = 2 ^ 33 := imageLoaded_dramBytes _
    have hbeat : DramBeat s tx :=
      ⟨rfl, rfl, ⟨Nat.le_refl 1, (by decide : (1 : Nat) ≤ 32)⟩, by simp only [tx, ha]; omega,
        by simp only [tx, ha]; exact lo, by simp only [tx, ha]; omega, rfl, fun _ m => by cases m⟩
    obtain ⟨-, htx, -⟩ := h s (BitVec.ofNat 40 a) 1 0 (by decide) (by decide) (Nat.mod_one _) (by omega) (by omega)
      (by rw [hd]; decide) rfl
    obtain ⟨t, ht, -, hout, -⟩ := (htx tx rfl rfl rfl rfl (fun _ m => by cases m) (by omega)).2 rfl
    obtain ⟨u, hu, -, hout', -⟩ := fabricTransaction_reads hbeat rfl
    have htu : t = u := Host.Outcome.next.inj (ht.symm.trans hu)
    rw [htu, hout'] at hout
    have hbyte : dramByte s a = memByte s a := by
      simpa [tx, ha, upFrom, memBytes] using hout
    rw [imageLoaded_dramByte hi hj, imageLoaded_memByte] at hbyte
    exact absurd hbyte (by decide)

/-- O29 says of the model no more than that the system region is plain memory. `Config.bankPlace` has no body, so neither O29 nor
its negation follows; a bound `0x1020000000 ≤ a` on its addresses would make it hold by `directAccesses_of_plain`'s argument. -/
theorem directAccesses_iff_plain : Obligations.DirectAccessesReachTheirTarget ↔ SystemRegionPlain :=
  ⟨plain_of_directAccesses, directAccesses_of_plain⟩
end

section
/-! A boundary that a reset follows. Where the unit is no longer paired, the boundary sends the replies it has held back
(R331), and with the reply of a frame that wrote BOOT_RESET the block resets: no tick has begun. -/

namespace Sys2Proof.Machine

/-- A reply held back, whose frame wrote BOOT_RESET (R331, R446). -/
def resetReply : HeldReply := { udp := true, peer := 0, port := 0, bytes := [], seq := 0, next := { close := none, slots := [], reset := true } }

/-- The block started up and in a running tick, out of the pair, with that reply still held. -/
def resetHeld : State := { State.reset with
  boot := { BootSt.reset with stage := 7 }, bench := { BenchSt.reset with opened := true }
  pair := { PairSt.reset with replies := [resetReply] } }

/-- The number of the tick that a command leaves under way. -/
def tickAfter : Host.Outcome State Fault Refusal → Option Nat
  | .next t => some t.clk.tick
  | _ => none

theorem resetHeld_settled : settle resetHeld = resetHeld := rfl

/-- The boundary sends the reply, and the reset after it leaves tick 0. -/
theorem tickBoundary_resetHeld : tickAfter (exec (.tickBoundary []) resetHeld) = some 0 := by decide +kernel

end Sys2Proof.Machine

open Sys2Proof Sys2Proof.Machine

/-- Refutes O13: the boundary of `resetHeld` should begin tick 1, and the block resets to tick 0. -/
theorem not_boundariesBeginTicks : ¬ Obligations.BoundariesBeginTicks := by
  unfold Obligations.BoundariesBeginTicks
  intro h
  obtain ⟨running, -⟩ := h resetHeld [] rfl rfl
  obtain ⟨t, ht, htick, -⟩ := running rfl rfl resetHeld_settled (Nat.succ_pos _)
  have hreset := tickBoundary_resetHeld
  rw [ht] at hreset
  have hzero : t.clk.tick = 0 := Option.some.inj hreset
  rw [hzero] at htick
  exact Nat.succ_ne_zero _ htick.symm
end

section
/-! What a halt leaves (R45, R57, R86): under reserve policy 0, with no move in progress, the engine stops issuing with the bits of
its fault, its overrun counts, and the rest of the block is as it was. -/

namespace Sys2Proof.Machine

/-- What neither the halt of engine `n` nor what its cycle reported before it changes. -/
structure HaltFrame (s t : State) (n : Fin 16) : Prop where
  others : ∀ m, m ≠ n → t.engine m = s.engine m
  mem : ∀ a, memByte t a = memByte s a
  clk : t.clk = s.clk
  move : t.rsv.move = s.rsv.move
  policy : t.nat Ix.rsvPolicy = s.nat Ix.rsvPolicy

/-- From `s` to `t` engine `n` runs on with its registers and faults. -/
structure Calm (s t : State) (n : Fin 16) : Prop extends HaltFrame s t n where
  rf : (t.engine n).rf = (s.engine n).rf
  fault : (t.engine n).loc.fault = (s.engine n).loc.fault
  counts : ∀ m : Fin 16, t.nat Ix.overrunCount m.val = s.nat Ix.overrunCount m.val

/-- From `s` to `t` engine `n` has halted with the bits `fault` (R45). -/
structure Halted (s t : State) (n : Fin 16) (fault : BitVec 5) : Prop extends HaltFrame s t n where
  run : (t.engine n).run = .halted
  flight : (t.engine n).flight = []
  rf : (t.engine n).rf = (s.engine n).rf
  fault : (t.engine n).loc.fault = (s.engine n).loc.fault ||| fault
  count : t.nat Ix.overrunCount n.val = (s.nat Ix.overrunCount n.val + 1) % 4294967296
  counts : ∀ m : Fin 16, m ≠ n → t.nat Ix.overrunCount m.val = s.nat Ix.overrunCount m.val

section
variable {s t u : State} {n : Fin 16} {fault : BitVec 5}

theorem HaltFrame.refl (s : State) (n : Fin 16) : HaltFrame s s n := ⟨fun _ _ => rfl, fun _ => rfl, rfl, rfl, rfl⟩

theorem HaltFrame.trans (h : HaltFrame s t n) (k : HaltFrame t u n) : HaltFrame s u n :=
  ⟨fun m q => (k.others m q).trans (h.others m q), fun a => (k.mem a).trans (h.mem a), k.clk.trans h.clk, k.move.trans h.move,
    k.policy.trans h.policy⟩

theorem LogOnly.haltFrame (h : LogOnly s t) (n : Fin 16) : HaltFrame s t n :=
  ⟨fun m _ => engine_of_engines h.engines m, memByte_of_fab (by rw [h.fab]), h.clk, by rw [h.rsv], h.nat rfl⟩

theorem HaltFrame.setNat (s : State) {ix : Nat} (hx : ix ≠ Ix.rsvPolicy) (sub v : Nat) (n : Fin 16) :
    HaltFrame s (s.setNat ix sub v) n :=
  ⟨fun m _ => engine_of_engines (setNat_engines ..) m, memByte_of_fab (by rw [setNat_fab]), setNat_clk .., by rw [setNat_rsv],
    nat_setNat_ne s (objKey_ne_index hx.symm) v⟩

theorem HaltFrame.setEngine (s : State) (n : Fin 16) (e : Engine) : HaltFrame s (s.setEngine n e) n :=
  ⟨fun _ q => engine_setEngine_ne s q e, memByte_of_fab (by rw [setEngine_fab]), setEngine_clk .., by rw [setEngine_rsv],
    nat_of_dict (setEngine_dict ..) _ _⟩

theorem LogOnly.calm (h : LogOnly s t) (n : Fin 16) : Calm s t n :=
  { h.haltFrame n with
    rf := by rw [engine_of_engines h.engines]
    fault := by rw [engine_of_engines h.engines]
    counts := fun _ => h.nat rfl }

theorem Calm.refl (s : State) (n : Fin 16) : Calm s s n := (LogOnly.refl s).calm n

/-- A halt after a calm stretch is a halt. -/
theorem Calm.halted (h : Calm s t n) (k : Halted t u n fault) : Halted s u n fault :=
  { h.toHaltFrame.trans k.toHaltFrame with
    run := k.run
    flight := k.flight
    rf := k.rf.trans h.rf
    fault := by rw [k.fault, h.fault]
    count := by rw [k.count, h.counts]
    counts := fun m q => (k.counts m q).trans (h.counts m) }

/-- A halt, by what it leaves of its engine, of OVERRUN_COUNT and of the rest. -/
theorem Halted.parts (h : Halted s t n fault) :
    (t.engine n).run = .halted ∧ (t.engine n).flight = [] ∧ (t.engine n).loc.fault = (s.engine n).loc.fault ||| fault ∧
      (t.engine n).rf = (s.engine n).rf ∧
      t.nat Ix.overrunCount n.val = (s.nat Ix.overrunCount n.val + 1) % 4294967296 ∧
      (∀ m, m ≠ n → t.engine m = s.engine m) ∧ ∀ a, memByte t a = memByte s a :=
  ⟨h.run, h.flight, h.fault, h.rf, h.count, h.others, h.mem⟩

/-- The alarms after a halt leave it a halt. -/
theorem Halted.log (h : Halted s t n fault) (k : LogOnly t u) : Halted s u n fault :=
  { h.toHaltFrame.trans (k.haltFrame n) with
    run := by rw [engine_of_engines k.engines, h.run]
    flight := by rw [engine_of_engines k.engines, h.flight]
    rf := by rw [engine_of_engines k.engines, h.rf]
    fault := by rw [engine_of_engines k.engines, h.fault]
    count := (k.nat rfl).trans h.count
    counts := fun m q => (k.nat rfl).trans (h.counts m q) }

end

/-! ### The halt itself -/

/-- Writes of the other port reach X and Y memory, not the register file (R55). -/
theorem landPort_rf (ws : List PortWrite) (e : Engine) : (landPort ws e).rf = e.rf := by
  unfold landPort
  induction ws generalizing e with
  | nil => rfl
  | cons w ws ih =>
    rw [List.foldl_cons, ih]
    split <;> rfl

theorem stopIssue_rf (e : Engine) : (stopIssue e).rf = e.rf := landPort_rf e.port e

/-- Where no move is in progress and the policy is 0, the reserve manager counts the halt (R376). -/
theorem onHalt_alone {s : State} (e : Fin 16) (hm : s.rsv.move = none) (hp : s.nat Ix.rsvPolicy = 0) :
    ∃ hs v, onHalt s e = { s with rsv := { s.rsv with halts := hs } }.setNat Ix.rsvEngFaults e.val v := by
  let old := (mapGet (fun _ => []) e.val s.rsv.halts).filter (fun t => decide (s.clk.sysCounter ≤ t + day))
  let hs := mapSet (fun _ => []) e.val (old ++ [s.clk.sysCounter]) s.rsv.halts
  refine ⟨hs, min (old.length + 1) 255, ?_⟩
  have hmove : ({ s with rsv := { s.rsv with halts := hs } }.setNat Ix.rsvEngFaults e.val (min (old.length + 1) 255)).rsv.move = none := by
    rw [setNat_rsv]
    exact hm
  have hpolicy : ({ s with rsv := { s.rsv with halts := hs } }.setNat Ix.rsvEngFaults e.val (min (old.length + 1) 255)).nat
      Ix.rsvPolicy = 0 := by
    rw [nat_setNat_ne _ (objKey_ne_index (by decide))]
    exact hp
  unfold onHalt
  simp only [hs, old] at hmove hpolicy ⊢
  simp only [hmove, hpolicy, if_true]

theorem onHalt_calm {s : State} (e : Fin 16) (hm : s.rsv.move = none) (hp : s.nat Ix.rsvPolicy = 0) :
    Calm s (onHalt s e) e ∧ (onHalt s e).engines = s.engines := by
  obtain ⟨hs, v, h⟩ := onHalt_alone e hm hp
  let s1 : State := { s with rsv := { s.rsv with halts := hs } }
  have k : HaltFrame s1 (s1.setNat Ix.rsvEngFaults e.val v) e := HaltFrame.setNat s1 (by decide) _ _ e
  have he : (s1.setNat Ix.rsvEngFaults e.val v).engines = s.engines := setNat_engines ..
  rw [h]
  exact ⟨{ k with rf := by rw [engine_of_engines he], fault := by rw [engine_of_engines he],
                  counts := fun m => nat_setNat_ne s1 (objKey_ne_index (by decide)) v }, he⟩

/-- A halt under policy 0 with no move in progress (R45). -/
theorem haltEngine_halted {s : State} (n : Fin 16) (fault : BitVec 5) (hm : s.rsv.move = none) (hp : s.nat Ix.rsvPolicy = 0) :
    Halted s (haltEngine s n fault) n fault := by
  let g := s.engine n
  let g' : Engine := { stopIssue g with
    run := .halted, lastPc := if g.run == .waiting then g.pc else g.lastPc, loc := { g.loc with fault := g.loc.fault ||| fault } }
  let s1 := s.setEngine n g'
  let s2 := s1.addWrap Ix.overrunCount n.val 1
  let s3 := s2.alarm (Al.tickOverrun.src n.val)
  have h2 : HaltFrame s s2 n := (HaltFrame.setEngine s n g').trans (HaltFrame.setNat s1 (by decide) _ _ n)
  have hlog : LogOnly s2 s3 := alarm_logOnly s2 _ _
  have h3 : HaltFrame s s3 n := h2.trans (hlog.haltFrame n)
  obtain ⟨hcalm, heng⟩ := onHalt_calm n (h3.move.trans hm) (h3.policy.trans hp)
  have hg : (haltEngine s n fault).engine n = g' := by
    calc (haltEngine s n fault).engine n = s3.engine n := engine_of_engines heng n
      _ = s2.engine n := engine_of_engines hlog.engines n
      _ = s1.engine n := engine_of_engines (setNat_engines ..) n
      _ = g' := engine_setEngine_self s n g'
  have hcount (m : Nat) : s1.nat Ix.overrunCount m = s.nat Ix.overrunCount m := nat_of_dict (setEngine_dict ..) _ _
  have hs3 (m : Fin 16) : (haltEngine s n fault).nat Ix.overrunCount m.val = s2.nat Ix.overrunCount m.val :=
    (hcalm.counts m).trans (hlog.nat rfl)
  exact { h3.trans hcalm.toHaltFrame with
    run := by rw [hg]
    flight := by rw [hg]; rfl
    rf := by rw [hg]; exact stopIssue_rf g
    fault := by rw [hg]
    count := by rw [hs3, ← hcount]; exact nat_setNat_self ..
    counts := fun m q => by
      rw [hs3, ← hcount]
      exact nat_setNat_ne s1 (objKey_ne_sub (fun e => q (Fin.ext e)) (by omega) (by omega)) _ }

end Sys2Proof.Machine
end

section
/-! The halts that issuing sets off (R57, R86, R92, R95): what the cycle reports before the halt leaves the engine's registers and
faults, so that each halt is that of `haltEngine` on the state before the command. -/

namespace Sys2Proof.Machine

/-! ### What an engine's cycle reports -/

/-- Reporting keeps the move in progress. -/
theorem countFixes_move (n : Fin 16) (k : Nat) (s : State) : (countFixes n k s).rsv.move = s.rsv.move := by
  induction k generalizing s with
  | zero => rfl
  | succ k ih =>
    have h : (countCorrected s n).rsv.move = s.rsv.move := by
      unfold countCorrected addPlace
      split
      · simp
      · simp
    exact (ih _).trans h

theorem hostFlags_move (s : State) (n : Fin 16) (fl : Nat) : (hostFlags s n fl).rsv.move = s.rsv.move := by
  unfold hostFlags
  split
  · rfl
  · rw [(alarmIf_logOnly _ _ _ _).rsv, (alarmIf_logOnly _ _ _ _).rsv, (alarmIf_logOnly _ _ _ _).rsv, setNat_rsv]

theorem applySig_move (n : Fin 16) (s : State) (g : EngSig) : (applySig n s g).rsv.move = s.rsv.move := by
  unfold applySig
  split
  case h_1 => rw [(alarmIf_logOnly _ _ _ _).rsv]
  case h_2 => rw [(alarm_logOnly _ _ _).rsv]
  case h_3 k => exact countFixes_move n k s
  case h_4 =>
    rw [hostFlags_move]
    split <;> rfl

theorem commitEngine_move (s : State) (n : Fin 16) (p : Engine × List EngSig) : (commitEngine s n p).rsv.move = s.rsv.move := by
  have h (l : List EngSig) (t : State) : (l.foldl (applySig n) t).rsv.move = t.rsv.move := by
    induction l generalizing t with
    | nil => rfl
    | cons g l ih => exact (ih _).trans (applySig_move n t g)
  exact (h p.2 _).trans (by rw [setEngine_rsv])

/-- Putting an engine back with its registers and faults as they were. -/
theorem commitEngine_calm {s : State} {n : Fin 16} {p : Engine × List EngSig} (hr : p.1.rf = (s.engine n).rf)
    (hf : p.1.loc.fault = (s.engine n).loc.fault) : Calm s (commitEngine s n p) n := by
  obtain ⟨k, he⟩ := commitEngine_frame s n p
  have hclk : (commitEngine s n p).clk = s.clk := k.rest.2.2.1
  have hnat {ix : Nat} (hx : slotIx ix = false) (sub : Nat) : (commitEngine s n p).nat ix sub = s.nat ix sub := by
    unfold State.nat State.int
    rw [k.regs ix sub hx]
  exact ⟨⟨k.engines, k.mem, hclk, commitEngine_move s n p, hnat rfl 0⟩, by rw [he, hr], by rw [he, hf], fun m => hnat rfl m.val⟩

/-- Counts of a place other than its overruns. -/
theorem addPlace_calm (s : State) (n : Fin 16) {ix : Nat} (k : Nat) (hold : Bool) (m : Fin 16) (hp : ix ≠ Ix.rsvPolicy)
    (ho : ix ≠ Ix.overrunCount) : Calm s (addPlace s n ix k hold) m := by
  have h (sub v : Nat) : Calm s (s.setNat ix sub v) m :=
    { HaltFrame.setNat s hp sub v m with
      rf := by rw [engine_of_engines (setNat_engines ..)]
      fault := by rw [engine_of_engines (setNat_engines ..)]
      counts := fun _ => nat_setNat_ne s (objKey_ne_index ho.symm) v }
  unfold addPlace
  split
  · exact Calm.refl s m
  · split
    · exact h _ _
    · exact h _ _

/-! ### The two kinds of halt -/

section
variable {s t : State} {n : Fin 16}

theorem Calm.haltEcc (h : Calm s t n) (hm : s.rsv.move = none) (hp : s.nat Ix.rsvPolicy = 0) : Halted s (haltEcc t n) n 2 := by
  let u := addPlace t n Ix.engEccUe 1 false
  have hu : Calm t u n := addPlace_calm t n 1 false n (by decide) (by decide)
  have hhalt := haltEngine_halted n 2 (hu.move.trans (h.move.trans hm)) (hu.policy.trans (h.policy.trans hp))
  exact (h.halted (hu.halted hhalt)).log (alarm_logOnly _ _ _)

theorem Calm.haltIllegal (h : Calm s t n) (hm : s.rsv.move = none) (hp : s.nat Ix.rsvPolicy = 0) (stack : Bool) :
    Halted s (haltIllegal t n stack) n (if stack then 12 else 4) :=
  ((h.halted (haltEngine_halted n _ (h.move.trans hm) (h.policy.trans hp))).log (alarm_logOnly _ _ _)).log
    (alarmIf_logOnly _ _ _ _)

end

/-! ### The bundle a slot finds -/

theorem startBundle_open {is : Issue} {e : Engine} (h : e.inBundle = true) : startBundle is e = (e, [], false) := by
  unfold startBundle
  rw [if_pos h]

theorem startBundle_fetch {is : Issue} {e : Engine} (h : e.inBundle = false) (hn : is.nops = 0) :
    startBundle is e = fetchBundle is.fetch e := by
  unfold startBundle
  simp [h, hn, issueNops]

theorem fixWords_rf (ws : List (Nat × Nat)) (e : Engine) : (fixWords ws e).rf = e.rf := by
  unfold fixWords
  split <;> rfl

theorem fixWords_loc (ws : List (Nat × Nat)) (e : Engine) : (fixWords ws e).loc = e.loc := by
  unfold fixWords
  split <;> rfl

/-- Opening a bundle where no loop is to be left keeps the registers. -/
theorem openBundle_kept {e : Engine} (h : e.exitDue = false) : (openBundle e).rf = e.rf ∧ (openBundle e).loc = e.loc := by
  unfold openBundle loopExit
  simp only [h, Bool.false_eq_true, if_false]
  split
  · exact ⟨rfl, rfl⟩
  · exact ⟨rfl, rfl⟩

/-- The fetch of a bundle, good or bad, is calm. -/
theorem fetched_calm {s : State} {is : Issue} (h : (s.engine is.eng).inBundle = false) (hn : is.nops = 0)
    (hx : (s.engine is.eng).exitDue = false) :
    ∃ e1 sg, startBundle is (s.engine is.eng) = (e1, sg, lineBad 4 is.fetch) ∧ Calm s (commitEngine s is.eng (e1, sg)) is.eng := by
  obtain ⟨hrf, hloc⟩ := openBundle_kept hx
  refine ⟨_, _, startBundle_fetch h hn, commitEngine_calm ?_ ?_⟩
  · exact (fixWords_rf _ _).trans hrf
  · rw [fixWords_loc, hloc]

theorem loadRegs_kept (side : Side) (addr : Nat) (cs : List (BitVec 7)) (e : Engine) :
    (loadRegs side addr cs e).rf = e.rf ∧ (loadRegs side addr cs e).loc = e.loc := by
  induction cs generalizing addr e with
  | nil => exact ⟨rfl, rfl⟩
  | cons c cs ih => exact ih (addr + 1) _

theorem launchAddress_kept (slot : Nat) (n : Fin 8) (post : Option Half) (cv : Bool) (e : Engine) :
    (launchAddress slot n post cv e).rf = e.rf ∧ (launchAddress slot n post cv e).loc = e.loc := by
  cases post <;> cases cv <;> exact ⟨rfl, rfl⟩

/-- A load with an uncorrectable word marks its bundle. -/
theorem loadSlot_bad (side : Side) (form : AForm) (an : Fin 8) {reg : MoveReg} {ecc : LineEcc} (e : Engine)
    (h : lineBad (moveWords reg) ecc = true) :
    ∃ e2, loadSlot side form an reg ecc e = .ok e2 ∧ e2.cur.bad = true ∧ e2.rf = e.rf ∧ e2.loc = e.loc := by
  let a := address e.rf form an (moveWords reg)
  let addr := alignAddr a.1 (moveWords reg)
  let e0 := loadRegs side addr (moveCodes reg) (touch side addr e)
  obtain ⟨hr0, hl0⟩ := loadRegs_kept side addr (moveCodes reg) (touch side addr e)
  obtain ⟨hr1, hl1⟩ := launchAddress_kept (sideSlot side) an a.2.1 a.2.2 e0
  refine ⟨_, rfl, ?_, hr1.trans hr0, hl1.trans hl0⟩
  change (_ || lineBad (moveWords reg) ecc) = true
  rw [h, Bool.or_true]

/-- A bundle with an uncorrectable load closes without its cycle. -/
theorem closeBundle_bad {e : Engine} (h : e.cur.bad = true) :
    closeBundle e = (fixWords e.cur.fixed e, fixedSig e.cur.fixed.length, true) := by
  unfold closeBundle
  simp only [h, if_true]

/-! ### The commands -/

section
variable {s : State} {is : Issue}

/-- A slot whose bundle cannot be fetched. -/
theorem issueSlot_unfetched (act : TickView → Engine → SlotOut) (hc : canIssue (s.engine is.eng) = true)
    (hm : s.rsv.move = none) (hp : s.nat Ix.rsvPolicy = 0) (hn : is.nops = 0) (hx : (s.engine is.eng).exitDue = false)
    (hb : (s.engine is.eng).inBundle = false) (hf : lineBad 4 is.fetch = true) : Halted s (issueSlot is act s) is.eng 2 := by
  obtain ⟨e1, sg, hstart, hcalm⟩ := fetched_calm hb hn hx
  unfold issueSlot
  simp only [hc, hstart, hf, Bool.not_true, Bool.false_eq_true, if_false, if_true]
  exact hcalm.haltEcc hm hp

/-- A slot of an open bundle that meets a stack fault. -/
theorem issueSlot_stack {act : TickView → Engine → SlotOut} (hc : canIssue (s.engine is.eng) = true)
    (hm : s.rsv.move = none) (hp : s.nat Ix.rsvPolicy = 0) (hb : (s.engine is.eng).inBundle = true)
    (ha : ∀ tv, act tv (s.engine is.eng) = .illegal true) : Halted s (issueSlot is act s) is.eng 12 := by
  have hhalt := (Calm.refl s is.eng).haltIllegal hm hp true
  unfold issueSlot
  simp only [hc, startBundle_open hb, ha, commitEngine_nil, setEngine_self, Bool.not_true, Bool.false_eq_true, if_false]
  exact hhalt

/-- The last slot of an open bundle where it is a load with an uncorrectable word. -/
theorem issueSlot_badLoad (side : Side) (form : AForm) (an : Fin 8) {reg : MoveReg} {ecc : LineEcc}
    (hc : canIssue (s.engine is.eng) = true) (hm : s.rsv.move = none) (hp : s.nat Ix.rsvPolicy = 0)
    (hb : (s.engine is.eng).inBundle = true) (hl : is.last = true) (hf : lineBad (moveWords reg) ecc = true) :
    Halted s (issueSlot is (fun _ e => loadSlot side form an reg ecc e) s) is.eng 2 := by
  obtain ⟨e2, hload, hbad, hrf, hloc⟩ := loadSlot_bad side form an (s.engine is.eng) hf
  have hcalm : Calm s (commitEngine s is.eng (fixWords e2.cur.fixed e2, fixedSig e2.cur.fixed.length)) is.eng :=
    commitEngine_calm ((fixWords_rf _ _).trans hrf) (by rw [fixWords_loc, hloc])
  unfold issueSlot
  simp only [hc, startBundle_open hb, hload, closeBundle_bad hbad, hl, commitEngine_nil, setEngine_self, Bool.not_true,
    Bool.false_eq_true, if_false, if_true]
  exact hcalm.haltEcc hm hp

theorem illegalBundle_halts {bundle : BitVec 128} (hc : canIssue (s.engine is.eng) = true) (hm : s.rsv.move = none)
    (hp : s.nat Ix.rsvPolicy = 0) (hn : is.nops = 0) (hx : (s.engine is.eng).exitDue = false)
    (hb : (s.engine is.eng).inBundle = false) (hf : lineBad 4 is.fetch = false) (hl : bundleLegal bundle = false) :
    ∃ t, exec (.illegalBundle is bundle) s = .next t ∧ Halted s t is.eng 4 := by
  obtain ⟨e1, sg, hstart, hcalm⟩ := fetched_calm hb hn hx
  refine ⟨haltIllegal (commitEngine s is.eng (e1, sg)) is.eng false, ?_, hcalm.haltIllegal hm hp false⟩
  change execIllegalBundle is bundle s = _
  unfold execIllegalBundle
  simp only [hc, hb, hl, hstart, hf, Bool.not_true, Bool.or_self, Bool.false_eq_true, if_false]

end

end Sys2Proof.Machine

open Sys2Proof Sys2Proof.Machine

/-- Settles O11: each cause of a halt, found by the fetch, the slot or the end of its bundle, is a halt of `haltEngine`. -/
theorem badBundlesHaltTheEngine : Obligations.BadBundlesHaltTheEngine := by
  unfold Obligations.BadBundlesHaltTheEngine
  intro s is bundle side form an reg ecc target
  dsimp only
  intro hc hm hp hn hx
  refine ⟨fun hb hf hl => ?_, fun hb hf => ?_, fun hb hl hf => ?_, fun hb h8 => ?_, fun hb h0 => ?_⟩
  · obtain ⟨t, ht, hhalt⟩ := illegalBundle_halts hc hm hp hn hx hb hf hl
    exact ⟨t, ht, hhalt.parts⟩
  · exact ⟨_, rfl, (issueSlot_unfetched _ hc hm hp hn hx hb hf).parts⟩
  · exact ⟨_, rfl, (issueSlot_badLoad side form an hc hm hp hb hl hf).parts⟩
  · exact ⟨_, rfl, (issueSlot_stack hc hm hp hb fun _ => if_pos h8).parts⟩
  · refine ⟨_, rfl, (issueSlot_stack hc hm hp hb fun _ => ?_).parts⟩
    unfold retSlot
    rw [h0]
end

section
/-! Handing over egress frames leaves the tick and its overruns alone: it changes the outputs, the ports and the streams, and
counts clips and drops (R44, R131). -/

namespace Sys2Proof.Machine

/-- From `s` to `t` the tick stands where it stood, and no overrun has been counted. -/
structure OnTime (s t : State) : Prop where
  clk : t.clk = s.clk
  overruns : ∀ sub, t.nat Ix.overrunCount sub = s.nat Ix.overrunCount sub

section
variable {s t u : State}

theorem OnTime.refl (s : State) : OnTime s s := ⟨rfl, fun _ => rfl⟩

theorem OnTime.trans (h : OnTime s t) (k : OnTime t u) : OnTime s u :=
  ⟨k.clk.trans h.clk, fun sub => (k.overruns sub).trans (h.overruns sub)⟩

theorem OnTime.ite {c : Prop} [Decidable c] (ht : OnTime s t) (hu : OnTime s u) : OnTime s (if c then t else u) := by
  split
  · exact ht
  · exact hu

theorem OnTime.foldl {α : Type} {f : State → α → State} (hf : ∀ t a, OnTime t (f t a)) (l : List α) (s : State) :
    OnTime s (l.foldl f s) := by
  induction l generalizing s with
  | nil => exact OnTime.refl s
  | cons a l ih => exact (hf s a).trans (ih _)

theorem OnTime.of_dict (hc : t.clk = s.clk) (hd : t.dict = s.dict) : OnTime s t := ⟨hc, fun sub => nat_of_dict hd _ sub⟩

theorem LogOnly.onTime (h : LogOnly s t) : OnTime s t := ⟨h.clk, fun _ => h.nat rfl⟩

end

theorem OnTime.setNat (s : State) {ix : Nat} (hx : ix ≠ Ix.overrunCount) (sub v : Nat) : OnTime s (s.setNat ix sub v) :=
  ⟨setNat_clk .., fun _ => nat_setNat_ne s (objKey_ne_index hx.symm) v⟩

theorem setDest_onTime (s : State) (d : Nat) (r : Dest) : OnTime s (s.setDest d r) := by
  let s1 : State := { s with lat := { s.lat with dests := mapSet (fun _ => Dest.reset) d r s.lat.dests } }
  have h1 : OnTime s s1 := OnTime.of_dict rfl rfl
  exact h1.trans (OnTime.setNat s1 (ix := Ix.latDestState) (by decide) d _)

theorem setDir_onTime (s : State) (k : Nat) (d : Dir) : OnTime s (setDir s k d) := by
  let s1 : State := { s with port := { s.port with dirs := mapSet (fun _ => Dir.reset) k d s.port.dirs } }
  have h1 : OnTime s s1 := OnTime.of_dict rfl rfl
  have h2 : OnTime s1 (syncDir s1 k) := by
    unfold syncDir
    exact ((OnTime.setNat s1 (ix := Ix.tdmState) (by decide) _ _).trans (OnTime.setNat _ (ix := Ix.tdmDelay) (by decide) _ _)).ite
      ((OnTime.setNat s1 (ix := Ix.aesiState) (by decide) _ _).trans (OnTime.setNat _ (ix := Ix.aesiDelay) (by decide) _ _))
  exact h1.trans h2

theorem addBlock_onTime {ix : Nat} (hx : ix ≠ Ix.overrunCount) (k bit src n : Nat) (s : State) :
    OnTime s (addBlock ix k bit src n s) := by
  have h1 := OnTime.setNat s hx k ((s.nat ix k + n) % 2 ^ 48)
  unfold addBlock
  exact h1.ite ((h1.trans (OnTime.setNat _ (ix := Ix.pmuOvf) (by decide) _ _)).trans (alarmIf_logOnly _ _ _ _).onTime)

theorem benchEvent_onTime (ev n : Nat) (s : State) : OnTime s (benchEvent ev n s) :=
  OnTime.foldl (fun t _ => (addBlock_onTime (by decide) _ _ _ _ t).ite (OnTime.refl t)) _ s

theorem asrcWords_onTime (n c : Nat) (s : State) : OnTime s (asrcWords n c s).2 := by
  induction n generalizing s with
  | zero => exact OnTime.refl s
  | succ n ih =>
    have drawn : OnTime s { s with fresh := s.fresh + 1 } := OnTime.of_dict rfl rfl
    exact drawn.trans (ih _)

theorem txWords_onTime (s : State) (k slot : Nat) (d : Dir) (a : Nat) (ws : List Word) : OnTime s (txWords s k slot d a ws).2 := by
  unfold txWords
  split
  · split
    · exact OnTime.refl s
    · dsimp only
      split
      · exact OnTime.refl s
      · exact asrcWords_onTime _ _ s
  · exact OnTime.refl s

theorem setBlock_onTime (s : State) (id : Nat) (b : Block) : OnTime s (setBlock s id b) := OnTime.of_dict rfl rfl

theorem enterSlot_onTime (s : State) (d : Nat) (ws : List Word) : OnTime s (enterSlot s d ws) := by
  unfold enterSlot
  dsimp only
  split
  · exact OnTime.refl s
  · exact ((txWords_onTime s _ _ _ _ _).trans (setDir_onTime _ _ _)).trans (setBlock_onTime _ _ _)

theorem enterPacket_onTime (s : State) (k first : Nat) (payload : List Byte) : OnTime s (enterPacket s k first payload) := by
  unfold enterPacket
  refine (OnTime.refl s).ite (OnTime.foldl (fun t l => ?_) _ s)
  dsimp only
  split
  · exact OnTime.of_dict rfl rfl
  · exact (OnTime.setNat t (ix := Ix.netPortCounts) (by decide) _ _).trans (alarm_logOnly _ _ _).onTime

theorem setTx_onTime (s : State) (k : Nat) (x : NetTx) : OnTime s (setTx s k x) := OnTime.of_dict rfl rfl

theorem txSamples_onTime (s : State) (d ts : Nat) (vs : List Int) : OnTime s (txSamples s d ts vs) := by
  unfold txSamples
  split
  · exact OnTime.refl s
  · refine (setTx_onTime s _ _).trans (OnTime.foldl (fun t first => ?_) _ _)
    split
    · exact OnTime.refl t
    · exact (setTx_onTime t _ _).trans (enterPacket_onTime _ _ _ _)

theorem noteClips_onTime (s : State) (d n : Nat) : OnTime s (noteClips s d n) := by
  have h : OnTime s (benchEvent 0x07 n (s.addHold Ix.egressClipCount d n)) :=
    (OnTime.setNat s (by decide) _ _).trans (benchEvent_onTime _ _ _)
  unfold noteClips
  exact (OnTime.refl s).ite (h.ite ((h.trans (setDest_onTime _ _ _)).trans (alarm_logOnly _ _ _).onTime))

theorem countClips_onTime (s : State) (d b : Nat) (ws : List Word) : OnTime s (countClips s d b ws) := by
  unfold countClips
  exact (OnTime.refl s).ite (noteClips_onTime s d _)

theorem aesBits_onTime (s : State) (d : Nat) : OnTime s (aesBits s d) := OnTime.of_dict rfl rfl

theorem sendEgress_onTime (s : State) (d : Nat) (ws : List Word) : OnTime s (sendEgress s d ws) := by
  have emit (o : Output) : OnTime s (s.emit o) := OnTime.of_dict rfl rfl
  unfold sendEgress
  split
  · exact (OnTime.refl s).ite (emit _)
  · next b _ =>
    let s1 := countClips (s.emit (.egress d s.tag (ws.map fun w => (convertOut b w).1))) d b ws
    have h1 : OnTime s s1 := (emit _).trans (countClips_onTime _ d b ws)
    have h2 (id : Nat) (k : Block) : OnTime s (if 0x2400 ≤ d ∧ d < 0x2410 then setBlock (aesBits s1 d) id k else s1) :=
      ((h1.trans (aesBits_onTime s1 d)).trans (setBlock_onTime _ id k)).ite h1
    exact ((h2 _ _).trans (txSamples_onTime _ _ _ _)).ite (h2 _ _)

/-- A destination's frame is handed over in time (R39, R131). -/
theorem handEgress_onTime (s : State) (d : Nat) (ws : List Word) : OnTime s (handEgress s d ws) := by
  have h1 : OnTime s (setEgress s d ws) := setDest_onTime s d _
  unfold handEgress
  refine OnTime.ite ?_ (h1.trans (sendEgress_onTime _ d ws))
  split
  · exact h1
  · exact (h1.trans (enterSlot_onTime _ d ws)).trans (countClips_onTime _ d _ ws)

theorem substEgress_onTime (s : State) (d : Nat) : OnTime s (substEgress s d) :=
  (setDest_onTime s d _).trans (handEgress_onTime _ d _)

/-! ### The end of an egress phase (R44, R50) -/

/-- An egress phase whose destinations have all been converted ends as it stands. -/
theorem closeEgress_inTime {s : State} {cls : Nat} (h : unconverted s cls = []) (hq : cls = 0 → quietOuts s = []) :
    closeEgress s cls = s := by
  unfold closeEgress
  by_cases hc : cls = 0
  · subst hc
    simp only [h, hq, if_true, List.isEmpty_nil, List.foldl_nil]
  · simp only [h, hc, if_true, if_false, List.isEmpty_nil, List.foldl_nil]

/-- One with a destination left raises the lateness of the tick, and counts it once (R44). -/
theorem closeEgress_late {s : State} {cls : Nat} (h : unconverted s cls ≠ []) :
    (closeEgress s cls).clk = { s.clk with lateEgress := true } ∧
      (closeEgress s cls).nat Ix.overrunCount 0x11 = (if s.clk.lateEgress then s.nat Ix.overrunCount 0x11
        else (s.nat Ix.overrunCount 0x11 + 1) % 4294967296) := by
  let s0 := if cls = 0 then (quietOuts s).foldl (fun t d => handEgress t d (List.replicate s.ticklen 0)) s else s
  let s1 := (unconverted s cls).foldl substEgress s0
  have h0 : OnTime s s0 := (OnTime.foldl (fun t d => handEgress_onTime t d _) _ s).ite (OnTime.refl s)
  obtain ⟨hclk, hcount⟩ := h0.trans (OnTime.foldl substEgress_onTime (unconverted s cls) s0)
  let s2 := if s1.clk.lateEgress then s1 else { s1 with clk := { s1.clk with lateEgress := true } }.addWrap Ix.overrunCount 0x11 1
  have hs : closeEgress s cls = s2.alarm Al.egressLate := by
    unfold closeEgress
    rw [if_neg (by simpa using h)]
  have hlog : LogOnly s2 (closeEgress s cls) := hs ▸ alarm_logOnly s2 _ _
  rw [hlog.clk, hlog.nat rfl]
  by_cases hl : s.clk.lateEgress = true
  · have e2 : s2 = s1 := if_pos (by rw [hclk]; exact hl)
    rw [e2, if_pos hl]
    refine ⟨?_, hcount _⟩
    rw [hclk, ← hl]
  · have e2 : s2 = { s1 with clk := { s1.clk with lateEgress := true } }.addWrap Ix.overrunCount 0x11 1 :=
      if_neg (by rw [hclk]; exact hl)
    rw [e2, if_neg hl, addWrap_clk, ← hcount]
    exact ⟨by rw [← hclk], nat_setNat_self ..⟩

end Sys2Proof.Machine
end

section
/-! The deadlines of the phases (R43 to R45, R118, R172): each closes its phase once, after the landings of the tick. -/

namespace Sys2Proof.Machine

/-- The tick with phase `k` closed, and nothing else done. -/
def shutPhase (s : State) (k : Nat) : State := { s with clk := { s.clk with closed := s.clk.closed ++ [k] } }

section
variable {s : State}

/-- A deadline in a tick whose landings are made does what the end of its phase does. -/
theorem closePhase_open (hr : ticksRun s = true) (hs : settle s = s) {k : Nat} (ho : s.clk.closed.contains k = false)
    (f : State → State) : closePhase s k f = f (shutPhase s k) := by
  unfold closePhase
  simp only [hr, ho, hs, Bool.not_true, Bool.or_self, Bool.false_eq_true, if_false]
  rfl

theorem phaseD2Open_opens (hr : ticksRun s = true) (hs : settle s = s) :
    exec .phaseD2Open s = .next { s with clk := { s.clk with late := true } } := by
  change execPhaseD2Open s = _
  unfold execPhaseD2Open
  rw [if_pos hr, hs]

/-! ### P0: the ingress (R43) -/

theorem closeP0_handedOver (h : s.port.held = []) : closeP0 s = s := by
  unfold closeP0
  rw [h]
  rfl

theorem closeP0_late (h : s.port.held ≠ []) :
    closeP0 s = ({ s with port := { s.port with held := [] } }.addWrap Ix.overrunCount 0x12 1).alarm Al.ingressLate := by
  unfold closeP0
  rw [if_neg (by simpa using h)]

/-! ### P1 and P5: the egress (R44) -/

/-- The deadline of an egress phase, by whether a destination of its class is left. -/
theorem egressDeadline {c : Instr} {k cls : Nat} (hc : exec c s = .next (closeEgress (shutPhase s k) cls)) :
    (unconverted s cls = [] → (cls = 0 → quietOuts s = []) → exec c s = .next (shutPhase s k)) ∧
    (unconverted s cls ≠ [] →
      ∃ t, exec c s = .next t ∧ t.clk.closed = s.clk.closed ++ [k] ∧ t.clk.lateEgress = true ∧
        t.nat Ix.overrunCount 0x11 = (if s.clk.lateEgress then s.nat Ix.overrunCount 0x11
          else (s.nat Ix.overrunCount 0x11 + 1) % 4294967296)) := by
  refine ⟨fun h hq => hc.trans (congrArg Host.Outcome.next (closeEgress_inTime h hq)), fun h => ⟨_, hc, ?_⟩⟩
  obtain ⟨hclk, hcount⟩ := closeEgress_late (s := shutPhase s k) h
  exact ⟨by rw [hclk]; rfl, by rw [hclk], hcount⟩

/-! ### P2 and P4: the sections (R45) -/

/-- An engine that has not signalled DONE of a section it runs. -/
def overruns (e : Engine) (second : Bool) : Bool := runsSection e second && !sectionDone e second

/-- The deadline of a section halts an engine that overruns it. -/
def haltLate (second : Bool) (s : State) (e : Fin 16) : State :=
  if overruns (s.engine e) second then haltEngine s e 1 else s

/-- What the engine of a place has not written of a section is substituted (R45, R110, R142). -/
def substPlace (second : Bool) (s : State) (p : Fin 16) : State :=
  let g := s.engine (engineOf s p)
  if g.image.isNone || (g.run == .idle && !g.subst) then s
  else (slotsOf g.loc.outMap second).foldl (fun u k => substitute u (0x3000 + 256 * p.val + k)) s

theorem closeSection_eq (s : State) (second : Bool) :
    closeSection s second = (List.finRange 16).foldl (substPlace second) ((List.finRange 16).foldl (haltLate second) s) := rfl

/-- The same engines, tick and registers. -/
def SameEngines (s t : State) : Prop := t.engines = s.engines ∧ t.clk = s.clk ∧ t.dict = s.dict

theorem SameEngines.refl (s : State) : SameEngines s s := ⟨rfl, rfl, rfl⟩

theorem SameEngines.trans {s t u : State} (h : SameEngines s t) (k : SameEngines t u) : SameEngines s u := by
  obtain ⟨he, hc, hd⟩ := h
  obtain ⟨ke, kc, kd⟩ := k
  exact ⟨ke.trans he, kc.trans hc, kd.trans hd⟩

theorem setSource_sameEngines (s : State) (i : Nat) (r : Source) : SameEngines s (s.setSource i r) := SameEngines.refl s

theorem putFrame_sameEngines (s : State) (i : Nat) (f : Frame) : SameEngines s (putFrame s i f) := by
  unfold putFrame
  dsimp only
  split
  · exact SameEngines.refl s
  · exact setSource_sameEngines s i _

/-- A substitute is a frame of the store, and a fade of its source. -/
theorem substitute_sameEngines (s : State) (i : Nat) : SameEngines s (substitute s i) := by
  unfold substitute
  dsimp only
  split
  · exact SameEngines.refl s
  · exact (setSource_sameEngines s i _).trans (putFrame_sameEngines _ i _)

theorem foldl_sameEngines {α : Type} {f : State → α → State} (hf : ∀ t a, SameEngines t (f t a)) (l : List α) (s : State) :
    SameEngines s (l.foldl f s) := by
  induction l generalizing s with
  | nil => exact SameEngines.refl s
  | cons a l ih => exact (hf s a).trans (ih _)

theorem substPlace_sameEngines (second : Bool) (s : State) (p : Fin 16) : SameEngines s (substPlace second s p) := by
  unfold substPlace
  dsimp only
  split
  · exact SameEngines.refl s
  · exact foldl_sameEngines (fun t k => substitute_sameEngines t _) _ s

/-- From `s` to `t` engine `e` has overrun its section (R45). -/
def Overran (s t : State) (e : Fin 16) : Prop :=
  (t.engine e).run = .halted ∧ (t.engine e).loc.fault = (s.engine e).loc.fault ||| 1 ∧
    t.nat Ix.overrunCount e.val = (s.nat Ix.overrunCount e.val + 1) % 4294967296

/-- From `s` to `t` the deadline of a section has come to the engines of `l`. -/
structure Judged (second : Bool) (l : List (Fin 16)) (s t : State) : Prop where
  clk : t.clk = s.clk
  late : ∀ e ∈ l, overruns (s.engine e) second = true → Overran s t e
  good : ∀ e, e ∉ l ∨ overruns (s.engine e) second = false →
    t.engine e = s.engine e ∧ t.nat Ix.overrunCount e.val = s.nat Ix.overrunCount e.val

/-- The deadline comes to one engine. -/
theorem haltLate_judged (second : Bool) (e : Fin 16) (hm : s.rsv.move = none) (hp : s.nat Ix.rsvPolicy = 0) :
    Judged second [e] s (haltLate second s e) ∧ (haltLate second s e).rsv.move = none ∧
      (haltLate second s e).nat Ix.rsvPolicy = 0 := by
  unfold haltLate
  by_cases ho : overruns (s.engine e) second = true
  · have h := haltEngine_halted e 1 hm hp
    rw [if_pos ho]
    refine ⟨⟨h.clk, fun m hmem _ => ?_, fun m hgood => ?_⟩, h.move.trans hm, h.policy.trans hp⟩
    · obtain rfl := List.mem_singleton.1 hmem
      exact ⟨h.run, h.fault, h.count⟩
    · have hne : m ≠ e := by
        rintro rfl
        simp [ho] at hgood
      exact ⟨h.others m hne, h.counts m hne⟩
  · rw [if_neg ho]
    refine ⟨⟨rfl, fun m hmem hlate => ?_, fun m _ => ⟨rfl, rfl⟩⟩, hm, hp⟩
    obtain rfl := List.mem_singleton.1 hmem
    exact absurd hlate ho

/-- The deadline comes to engines one after the other: the halt of one changes nothing of another. -/
theorem foldl_haltLate_judged (second : Bool) {l : List (Fin 16)} (hl : l.Nodup) (hm : s.rsv.move = none)
    (hp : s.nat Ix.rsvPolicy = 0) : Judged second l s (l.foldl (haltLate second) s) := by
  induction l generalizing s with
  | nil => exact { clk := rfl, late := (fun _ h => nomatch h), good := fun _ _ => ⟨rfl, rfl⟩ }
  | cons e l ih =>
    obtain ⟨hnot, hrest⟩ := List.nodup_cons.1 hl
    obtain ⟨one, hm1, hp1⟩ := haltLate_judged second e hm hp
    have rest := ih hrest hm1 hp1
    have other {m : Fin 16} (hne : m ≠ e) : (haltLate second s e).engine m = s.engine m ∧
        (haltLate second s e).nat Ix.overrunCount m.val = s.nat Ix.overrunCount m.val :=
      one.good m (Or.inl (by simpa using hne))
    refine { clk := rest.clk.trans one.clk, late := (fun m hmem hlate => ?_), good := fun m hgood => ?_ }
    · rcases List.mem_cons.1 hmem with rfl | htail
      · obtain ⟨hrun, hfault, hcount⟩ := one.late m (List.mem_singleton_self m) hlate
        obtain ⟨heng, hnat⟩ := rest.good m (Or.inl hnot)
        exact ⟨by rw [List.foldl_cons, heng, hrun], by rw [List.foldl_cons, heng, hfault],
          by rw [List.foldl_cons, hnat, hcount]⟩
      · obtain ⟨heng, hnat⟩ := other (fun h => hnot (h ▸ htail))
        have hover := rest.late m htail (by rw [heng]; exact hlate)
        rwa [Overran, heng, hnat] at hover
    · have hhead : m ∉ [e] ∨ overruns (s.engine m) second = false :=
        hgood.imp_left fun h hin => h (List.mem_cons.2 (Or.inl (List.mem_singleton.1 hin)))
      obtain ⟨heng, hnat⟩ := one.good m hhead
      have htail : m ∉ l ∨ overruns ((haltLate second s e).engine m) second = false := by
        rw [heng]
        exact hgood.imp_left fun h hin => h (List.mem_cons_of_mem e hin)
      obtain ⟨keng, knat⟩ := rest.good m htail
      exact ⟨keng.trans heng, knat.trans hnat⟩

/-- The deadline of a section halts the engines that have overrun it, and no other. -/
theorem closeSection_halts (second : Bool) (hm : s.rsv.move = none) (hp : s.nat Ix.rsvPolicy = 0) :
    (closeSection s second).clk = s.clk ∧ ∀ e,
      if overruns (s.engine e) second then Overran s (closeSection s second) e
      else (closeSection s second).engine e = s.engine e := by
  have judged := foldl_haltLate_judged second (List.nodup_finRange 16) hm hp
  obtain ⟨heng, hclk, hdict⟩ : SameEngines ((List.finRange 16).foldl (haltLate second) s) (closeSection s second) :=
    foldl_sameEngines (substPlace_sameEngines second) _ _
  refine ⟨hclk.trans judged.clk, fun e => ?_⟩
  rw [Overran, engine_of_engines heng, nat_of_dict hdict]
  split
  case isTrue h => exact judged.late e (List.mem_finRange e) h
  case isFalse h => exact (judged.good e (Or.inr (eq_false_of_ne_true h))).1

/-- The deadline of a section. -/
theorem sectionDeadline {c : Instr} {k : Nat} {second : Bool} (hc : exec c s = .next (closeSection (shutPhase s k) second))
    (hm : s.rsv.move = none) (hp : s.nat Ix.rsvPolicy = 0) :
    ∃ t, exec c s = .next t ∧ t.clk.closed = s.clk.closed ++ [k] ∧
      ∀ e, if overruns (s.engine e) second then Overran s t e else t.engine e = s.engine e := by
  obtain ⟨hclk, hsec⟩ := closeSection_halts (s := shutPhase s k) second hm hp
  exact ⟨_, hc, by rw [hclk]; rfl, hsec⟩

/-! ### P3: the Bench (R118, R172) -/

/-- Where every named bus has been written and no flag stands, the end of P3 leaves the Bench as it is. -/
theorem closeBench_inTime (hw : s.bench.named.all (fun b => s.bench.written.contains b) = true) (hs : s.bench.satNow = [])
    (ho : s.bench.ovfNow = []) : closeBench s = s := by
  have hlate : s.bench.named.filter (fun b => !s.bench.written.contains b) = [] := by
    rw [List.filter_eq_nil_iff]
    intro b hb
    rw [List.all_eq_true.1 hw b hb]
    decide
  have hbench : ({ s.bench with satNow := [], ovfNow := [] } : BenchSt) = s.bench :=
    calc ({ s.bench with satNow := [], ovfNow := [] } : BenchSt)
        = { s.bench with satNow := s.bench.satNow, ovfNow := s.bench.ovfNow } := by rw [hs, ho]
      _ = s.bench := rfl
  unfold closeBench
  simp only [hlate, hs, ho, List.foldl_nil, List.isEmpty_nil, if_true, hbench]

/-- No commit is to be checked in this tick. -/
theorem finalCheck_none (h : ∀ p ∈ s.shut.pend, p.tick ≠ s.clk.tick + 1) : finalCheck s = s := by
  have hfind : s.shut.pend.find? (fun p => !p.checked && p.tick == s.tick + 1) = none := by
    rw [List.find?_eq_none]
    intro p hp
    simp [h p hp, State.tick]
  unfold finalCheck
  rw [hfind]

/-- No page is to be prepared for the next boundary. -/
theorem preparePages_none (h : ∀ p ∈ s.shut.pend, p.tick ≠ s.clk.tick + 1) (ht : s.shut.touched = [])
    (hw : ∀ w ∈ s.writes, isParam w.ix = false) : preparePages s = s := by
  have hfind : s.shut.pend.find? (fun p => p.frozen && p.tick == s.tick + 1) = none := by
    rw [List.find?_eq_none]
    intro p hp
    simp [h p hp, State.tick]
  have hnone : s.writes.filter (fun w => isParam w.ix) = [] := by
    rw [List.filter_eq_nil_iff]
    intro w m
    simp [hw w m]
  unfold preparePages
  simp only [hfind, hnone, landingNow, List.foldl_nil, ht]

end

end Sys2Proof.Machine

open Sys2Proof Sys2Proof.Machine

/-- Settles O14: a deadline does what the end of its phase does, on the tick with that phase closed. -/
theorem deadlinesCloseTheirPhase : Obligations.DeadlinesCloseTheirPhase := by
  unfold Obligations.DeadlinesCloseTheirPhase
  intro s hr hs
  have close {k : Nat} {t : State} (ho : s.clk.closed.contains k = false) (ht : phaseEnd (shutPhase s k) k = t) :
      Host.Outcome.next (closePhase s k (phaseEnd · k)) = (.next t : Host.Outcome State Fault Refusal) :=
    congrArg Host.Outcome.next ((closePhase_open hr hs ho _).trans ht)
  refine ⟨phaseD2Open_opens hr hs, fun ho hh => close ho (closeP0_handedOver hh), fun ho hh => close ho (closeP0_late hh),
    fun hw ho => egressDeadline (close ho (if_pos hw)), fun hw ho => egressDeadline (close ho (if_pos hw)),
    fun hw hm hp ho => sectionDeadline (close ho (if_pos hw)) hm hp,
    fun hw hm hp ho => sectionDeadline (close ho (if_pos hw)) hm hp, fun ho hw hn hsat hovf hpend ht hpar => close ho ?_⟩
  calc phaseEnd (shutPhase s 3) 3 = preparePages (finalCheck (closeBench (shutPhase s 3))) :=
        congrArg (fun t => preparePages (finalCheck t)) (if_pos hw)
    _ = preparePages (finalCheck (shutPhase s 3)) := by rw [closeBench_inTime (s := shutPhase s 3) hn hsat hovf]
    _ = preparePages (shutPhase s 3) := by rw [finalCheck_none (s := shutPhase s 3) hpend]
    _ = shutPhase s 3 := preparePages_none (s := shutPhase s 3) hpend ht hpar
end

section
/-! What the reads of a gather leave (R143, R159): a corrected word counts, in the block's counters and in the counters of fabric
events, and every reader finds what it found before. -/

namespace Sys2Proof.Machine

/-- The registers that a corrected read of the Lattice may change: its own count, that of a bank, and those of `countIx`. -/
def latReadIx (ix : Nat) : Bool := countIx ix || ix == Ix.latEccCe || ix == Ix.fabBankEccCe

/-- From `s` to `t` reads of the Lattice have been counted: the tick, the frames and every register outside `latReadIx` are as they
were. -/
structure ReadsCounted (s t : State) : Prop where
  clk : t.clk = s.clk
  lat : t.lat = s.lat
  bench : t.bench = s.bench
  engines : t.engines = s.engines
  obj : ∀ ix sub, latReadIx ix = false → t.obj ix sub = s.obj ix sub

section
variable {s t u : State}

theorem ReadsCounted.refl (s : State) : ReadsCounted s s := ⟨rfl, rfl, rfl, rfl, fun _ _ _ => rfl⟩

theorem ReadsCounted.trans (h : ReadsCounted s t) (k : ReadsCounted t u) : ReadsCounted s u :=
  ⟨k.clk.trans h.clk, k.lat.trans h.lat, k.bench.trans h.bench, k.engines.trans h.engines,
    fun ix sub a => (k.obj ix sub a).trans (h.obj ix sub a)⟩

theorem ReadsCounted.ite {c : Prop} [Decidable c] (ht : ReadsCounted s t) (hu : ReadsCounted s u) :
    ReadsCounted s (if c then t else u) := by
  split
  · exact ht
  · exact hu

theorem ReadsCounted.setNat (s : State) {ix : Nat} (hx : latReadIx ix = true) (sub v : Nat) :
    ReadsCounted s (s.setNat ix sub v) := by
  refine ⟨setNat_clk .., setNat_lat .., setNat_bench .., setNat_engines .., fun jx sub' a => ?_⟩
  have hne : jx ≠ ix := by
    rintro rfl
    rw [hx] at a
    cases a
  exact obj_setObj_ne s (objKey_ne_index hne) _

theorem isLogIx_of_latReadIx {ix : Nat} (h : latReadIx ix = false) : isLogIx ix = false := by
  simp only [latReadIx, Bool.or_eq_false_iff] at h
  exact countIx_of_log h.1.1

theorem LogOnly.readsCounted (h : LogOnly s t) : ReadsCounted s t :=
  ⟨h.clk, h.lat, h.bench, h.engines, fun ix sub a => h.obj ix sub (isLogIx_of_latReadIx a)⟩

theorem fabEvent_readsCounted (ev master target n : Nat) (s : State) : ReadsCounted s (fabEvent ev master target n s) := by
  have block (t : State) (k : Nat) : ReadsCounted t (addBlock Ix.pmuFabCount k k 0x10 n t) := by
    have h1 := ReadsCounted.setNat t (ix := Ix.pmuFabCount) rfl k ((t.nat Ix.pmuFabCount k + n) % 2 ^ 48)
    unfold addBlock
    exact h1.ite ((h1.trans (ReadsCounted.setNat _ (ix := Ix.pmuOvf) rfl _ _)).trans (alarmIf_logOnly _ _ _ _).readsCounted)
  have all (l : List Nat) (t : State) : ReadsCounted t
      (l.foldl (fun t k => if fabSelects (s.nat Ix.pmuFabSel k) ev master target then addBlock Ix.pmuFabCount k k 0x10 n t else t) t) := by
    induction l generalizing t with
    | nil => exact ReadsCounted.refl t
    | cons k l ih => exact ((block t k).ite (ReadsCounted.refl t)).trans (ih _)
  exact all _ s

/-- A read without an uncorrectable error is counted at most. -/
theorem readCheck_readsCounted (s : State) (rd : Reader) (i : Nat) {ecc : Ecc} (h : ecc ≠ .bad) :
    ReadsCounted s (readCheck s rd i ecc) := by
  unfold readCheck
  split
  · split
    · exact (ReadsCounted.setNat s (ix := Ix.fabBankEccCe) rfl _ _).trans (fabEvent_readsCounted _ _ _ _ _)
    · exact ReadsCounted.setNat s (ix := Ix.latEccCe) rfl _ _
  · exact absurd rfl h
  · exact ReadsCounted.refl s

/-! ### Every reader finds what it found before -/

theorem ReadsCounted.nat (h : ReadsCounted s t) {ix : Nat} (hx : latReadIx ix = false) (sub : Nat) :
    t.nat ix sub = s.nat ix sub := by
  unfold State.nat State.int
  rw [h.obj ix sub hx]

theorem ReadsCounted.int (h : ReadsCounted s t) {ix : Nat} (hx : latReadIx ix = false) (sub : Nat) :
    t.int ix sub = s.int ix sub := by
  unfold State.int
  rw [h.obj ix sub hx]

theorem ReadsCounted.ticklen (h : ReadsCounted s t) : t.ticklen = s.ticklen := h.nat rfl 0

theorem ReadsCounted.cls (h : ReadsCounted s t) : t.cls = s.cls := congrArg rateClass (h.nat rfl 0)

theorem ReadsCounted.fs (h : ReadsCounted s t) : t.fs = s.fs := congrArg rateHz (h.nat rfl 0)

theorem ReadsCounted.tick (h : ReadsCounted s t) : t.tick = s.tick := congrArg TickSt.tick h.clk

theorem ReadsCounted.tag (h : ReadsCounted s t) : t.tag = s.tag := congrArg tagOf h.tick

theorem ReadsCounted.source (h : ReadsCounted s t) (i : Nat) : t.source i = s.source i := by
  unfold State.source
  rw [h.lat]

theorem ReadsCounted.dest (h : ReadsCounted s t) (d : Nat) : t.dest d = s.dest d := by
  unfold State.dest
  rw [h.lat]

theorem ReadsCounted.placeEngine (h : ReadsCounted s t) (p : Fin 16) : t.engine (engineOf t p) = s.engine (engineOf s p) := by
  unfold engineOf
  rw [h.nat rfl, engine_of_engines h.engines]

theorem ReadsCounted.outMapOf (h : ReadsCounted s t) (i : Nat) : outMapOf t i = outMapOf s i := by
  unfold Machine.outMapOf
  rw [h.placeEngine]

theorem ReadsCounted.inMapOf (h : ReadsCounted s t) (d : Nat) : inMapOf t d = inMapOf s d := by
  unfold Machine.inMapOf
  rw [h.placeEngine]

theorem ReadsCounted.destUsable (h : ReadsCounted s t) (d : Nat) : destUsable t d = destUsable s d := by
  unfold Machine.destUsable
  rw [h.cls, h.inMapOf]

theorem ReadsCounted.srcUsable (h : ReadsCounted s t) (i : Nat) : srcUsable t i = srcUsable s i := by
  unfold Machine.srcUsable
  rw [h.cls, h.outMapOf]

theorem ReadsCounted.readerOf (h : ReadsCounted s t) (d : Nat) : readerOf t d = readerOf s d := by
  unfold Machine.readerOf
  rw [h.inMapOf, h.dest]

theorem ReadsCounted.sharedCauses (h : ReadsCounted s t) (d : Nat) : sharedCauses t d = sharedCauses s d := by
  unfold Machine.sharedCauses
  rw [h.lat]

theorem ReadsCounted.genFrame (h : ReadsCounted s t) (i tag : Nat) : genFrame t i tag = genFrame s i tag := by
  have level (g j : Nat) : genLevelAt t g tag j = genLevelAt s g tag j := by
    unfold genLevelAt
    rw [h.lat, h.tag, h.ticklen, h.int rfl]
  have word (g j : Nat) : genWord t g tag j = genWord s g tag j := by
    unfold genWord
    rw [level, h.ticklen, h.fs, h.nat rfl]
  unfold Machine.genFrame
  simp only [h.ticklen, word]

theorem ReadsCounted.readFrame (h : ReadsCounted s t) (i tag : Nat) (clear : Bool) :
    readFrame t i tag clear = readFrame s i tag clear := by
  have stored : storedFrame t i tag = storedFrame s i tag := by
    unfold storedFrame
    rw [h.source]
  have unnamed : busUnnamed t (i - 0x4000) tag = busUnnamed s (i - 0x4000) tag := by
    unfold busUnnamed
    rw [h.cls, h.bench, h.tag]
  unfold Machine.readFrame
  rw [stored, h.lat, h.genFrame, unnamed, h.ticklen]

theorem ReadsCounted.lookFor (h : ReadsCounted s t) (rd : Reader) (i : Nat) (clear : Bool) :
    lookFor t rd i clear = lookFor s rd i clear := by
  have lag : expectedLag t rd i = expectedLag s rd i := by
    unfold expectedLag
    rw [h.outMapOf]
  have phase : producerPhase t i = producerPhase s i := by
    unfold producerPhase
    rw [h.outMapOf]
  unfold Machine.lookFor
  simp only [lag, phase, h.tick, h.readFrame, h.clk, h.srcUsable]

/-- The reads of a gather of one source, without an uncorrectable error. -/
theorem readsOf_readsCounted {d : Nat} {q : LatReads} (ht : (s.dest d).take = none) (hs : q.sel ≠ .bad) (hf : q.frame ≠ .bad) :
    ReadsCounted s (readsOf s d q) := by
  have sel {v : State} (hv : ReadsCounted s v) : ReadsCounted s
      (match (v.dest d).take with
        | some t => readCheck (readCheck v (readerOf v d) (v.dest d).sel q.frame)
            (readerOf (readCheck v (readerOf v d) (v.dest d).sel q.frame) d) t.old q.old
        | none => readCheck v (readerOf v d) (v.dest d).sel q.frame) := by
    rw [hv.dest, ht]
    exact hv.trans (readCheck_readsCounted v _ _ hf)
  unfold readsOf
  cases hq : q.sel with
  | ok => exact sel (ReadsCounted.refl s)
  | corrected => exact sel (ReadsCounted.setNat s (ix := Ix.latEccCe) rfl _ _)
  | bad => exact absurd hq hs

end

end Sys2Proof.Machine
end

section
/-! The gather of a destination without a take (R146): the words of its source at unity, or its absence counted. -/

namespace Sys2Proof.Machine

/-! ### Records of the Lattice -/

@[simp] theorem dest_setDest_self (s : State) (d : Nat) (r : Dest) : (s.setDest d r).dest d = r := by
  unfold State.setDest State.dest
  rw [setNat_lat]
  exact mapGet_mapSet_self ..

theorem dest_setDest_ne (s : State) {d m : Nat} (h : m ≠ d) (r : Dest) : (s.setDest d r).dest m = s.dest m := by
  unfold State.setDest State.dest
  rw [setNat_lat]
  exact mapGet_mapSet_ne _ h _ _

theorem source_setDest (s : State) (d : Nat) (r : Dest) (i : Nat) : (s.setDest d r).source i = s.source i := by
  unfold State.setDest State.source
  rw [setNat_lat]

theorem nat_setDest (s : State) (d : Nat) (r : Dest) {ix : Nat} (hx : ix ≠ Ix.latDestState) (sub : Nat) :
    (s.setDest d r).nat ix sub = s.nat ix sub :=
  nat_setNat_ne { s with lat := { s.lat with dests := mapSet (fun _ => Dest.reset) d r s.lat.dests } } (objKey_ne_index hx) _

@[simp] theorem source_setSource_self (s : State) (i : Nat) (r : Source) : (s.setSource i r).source i = r :=
  mapGet_mapSet_self ..

theorem source_setSource_ne (s : State) {i m : Nat} (h : m ≠ i) (r : Source) : (s.setSource i r).source m = s.source m :=
  mapGet_mapSet_ne _ h _ _

/-- Counting the words of a gather changes the counts of the two passes alone (R145). -/
theorem countGather_lat (s : State) (rd : Reader) :
    ∃ a b, countGather s rd = { s with lat := { s.lat with gathers1 := a, gathers2 := b } } := by
  cases rd <;> exact ⟨_, _, rfl⟩

/-! ### Fades at unity pass every sample (R26, R30) -/

theorem fadeStepAll_unity {fs : List Fade} (h : allUnity fs = true) :
    (fadeStepAll fs).1.all (fun g => g == 134217728) = true ∧ allUnity (fadeStepAll fs).2 = true := by
  induction fs with
  | nil => exact ⟨rfl, rfl⟩
  | cons f fs ih =>
    simp only [allUnity, List.all_cons, Bool.and_eq_true, beq_iff_eq] at h
    obtain ⟨hf, hfs⟩ := h
    obtain ⟨hg, hrest⟩ := ih hfs
    unfold allUnity at hrest
    simp [fadeStepAll, fadeStep, hf, allUnity, hrest]
    simpa using hg

theorem fadeFrame_unity (transp : Bool) {fs : List Fade} (h : allUnity fs = true) (ws : List Word) :
    (fadeFrame transp fs ws).1 = ws := by
  induction ws generalizing fs with
  | nil => rfl
  | cons w ws ih =>
    obtain ⟨hg, hfs⟩ := fadeStepAll_unity h
    simp [fadeFrame, hg, ih hfs]

theorem fadeIn_unity {f : Fade} (h : f.mode = .unity) : fadeIn f = f := by
  unfold fadeIn
  rw [h]

/-- A present frame asks nothing of causes at unity. -/
theorem askCauses_unity {r : Dest} {fs : List Fade} (h : allUnity (r.causes ++ fs) = true) : askCauses r false false = r := by
  simp only [allUnity, Dest.causes, List.cons_append, List.nil_append, List.all_cons, Bool.and_eq_true, beq_iff_eq] at h
  obtain ⟨ha, hn, -⟩ := h
  unfold askCauses
  simp [fadeIn_unity ha, fadeIn_unity hn]

/-! ### The gather -/

section
variable {s : State} {d : Nat}

theorem bring_frame {r : Dest} {rd : Reader} {w : List Word} {npcm : Bool} (ht : r.take = none) (hf : r.hasFault = false)
    (hl : lookFor s rd r.sel r.transp = .frame w npcm) : bring s r rd = .words w npcm none := by
  unfold bring
  simp only [hf, ht, hl, Bool.false_eq_true, if_false]

theorem bring_absent {r : Dest} {rd : Reader} (ht : r.take = none) (hf : r.hasFault = false)
    (hl : lookFor s rd r.sel r.transp = .absent) : bring s r rd = .absent [] none := by
  unfold bring
  simp only [hf, ht, hl, Bool.false_eq_true, if_false]

/-- At unity a destination takes the words of its source (R146). -/
theorem gatherDest_unity {w : List Word} (hg : (s.dest d).gathered = false) (hu : destUsable s d = true)
    (ht : (s.dest d).take = none) (hf : (s.dest d).hasFault = false)
    (hl : lookFor s (readerOf s d) (s.dest d).sel (s.dest d).transp = .frame w false)
    (hfs : allUnity ((s.dest d).causes ++ sharedCauses s d) = true) :
    ∃ r, gatherDest s d = countGather (s.setDest d r) (readerOf s d) ∧
      r.words = w ∧ r.last = w ∧ r.gathered = true ∧ r.isAbsent = false ∧ r.isNpcm = false := by
  have hb : bring s (s.dest d) (readerOf s d) = .words w false none := bring_frame ht hf hl
  have hr : ({ s.dest d with take := none } : Dest) = s.dest d := by
    rw [← ht]
  have hopen : ((s.dest d).gathered || !destUsable s d) = false := by
    rw [hg, hu]
    rfl
  unfold gatherDest
  simp only [hopen, hb, hr, askCauses_unity hfs, Bool.false_eq_true, if_false]
  exact ⟨_, rfl, fadeFrame_unity _ hfs w, rfl, rfl, rfl, rfl⟩

/-- A destination whose source is absent counts it (R146). -/
theorem gatherDest_absent (hg : (s.dest d).gathered = false) (hu : destUsable s d = true) (ht : (s.dest d).take = none)
    (hf : (s.dest d).hasFault = false) (hl : lookFor s (readerOf s d) (s.dest d).sel (s.dest d).transp = .absent) :
    ∃ r c, LogOnly (countGather ((s.setDest d r).addHold Ix.latAbsentCount d 1) c) (gatherDest s d) ∧
      r.isAbsent = true ∧ r.gathered = true := by
  have hb : bring s (s.dest d) (readerOf s d) = .absent [] none := bring_absent ht hf hl
  unfold gatherDest
  simp only [hg, hu, hb, Bool.not_true, Bool.or_self, Bool.false_eq_true, if_false]
  exact ⟨_, _, alarmIf_logOnly _ _ _ _, rfl, rfl⟩

end

/-- Both commands that gather a destination do so once its phase has opened and its frame is to be had (R43, R146). -/
theorem gathers {s : State} {d : Half} (q : LatReads) (hw : unitWorks s = true) (hs : settle s = s)
    (hp : phaseOpen s d.toNat = true) (hg : (s.dest d.toNat).gathered = false) (hu : destUsable s d.toNat = true) :
    exec (.latticeGather ⟨d, q⟩) s = .next (gatherDest (readsOf s d.toNat q) d.toNat) ∧
      exec (.readerWaitEnd ⟨d, q⟩) s = .next (gatherDest (readsOf s d.toNat q) d.toNat) := by
  have h : inTick s (gatherOpen · d.toNat q) = gatherDest (readsOf s d.toNat q) d.toNat := by
    unfold inTick gatherOpen gatherWith
    simp only [hw, hs, hp, hg, hu, if_true, Bool.not_true, Bool.or_self, Bool.false_eq_true, if_false]
  exact ⟨congrArg Host.Outcome.next h, congrArg Host.Outcome.next h⟩

section
variable {s : State} {n : Nat} {q : LatReads}

/-- A gather at unity whose reads meet no uncorrectable error: the words of the source, and nothing else of the Lattice. -/
theorem gather_unity (hg : (s.dest n).gathered = false) (hu : destUsable s n = true) (ht : (s.dest n).take = none)
    (hf : (s.dest n).hasFault = false) (hsel : q.sel ≠ .bad) (hframe : q.frame ≠ .bad) {w : List Word}
    (hl : lookFor s (readerOf s n) (s.dest n).sel (s.dest n).transp = .frame w false)
    (hfs : allUnity ((s.dest n).causes ++ sharedCauses s n) = true) :
    let t := gatherDest (readsOf s n q) n
    (t.dest n).words = w ∧ (t.dest n).last = w ∧ (t.dest n).gathered = true ∧ (t.dest n).isAbsent = false ∧
      (t.dest n).isNpcm = false ∧ (∀ m, m ≠ n → t.dest m = s.dest m) ∧ (∀ i, t.source i = s.source i) ∧
      t.engines = s.engines := by
  have k := readsOf_readsCounted (d := n) ht hsel hframe
  obtain ⟨r, he, hwords, hlast, hgath, habs, hnpcm⟩ := gatherDest_unity (s := readsOf s n q) (d := n) (w := w)
    (by rw [k.dest, hg]) (by rw [k.destUsable, hu]) (by rw [k.dest, ht]) (by rw [k.dest, hf])
    (by rw [k.dest, k.readerOf, k.lookFor, hl]) (by rw [k.dest, k.sharedCauses, hfs])
  obtain ⟨a, b, hc⟩ := countGather_lat ((readsOf s n q).setDest n r) (readerOf (readsOf s n q) n)
  have hself : (gatherDest (readsOf s n q) n).dest n = r := by
    rw [he, hc]
    exact dest_setDest_self _ n r
  dsimp only
  rw [hself]
  refine ⟨hwords, hlast, hgath, habs, hnpcm, fun m hm => ?_, fun i => ?_, ?_⟩
  · rw [he, hc, ← k.dest]
    exact dest_setDest_ne _ hm r
  · rw [he, hc, ← k.source]
    exact source_setDest _ n r i
  · rw [he, hc, ← k.engines]
    exact setDest_engines (readsOf s n q) n r

/-- A gather of an absent source whose reads meet no uncorrectable error: the absence counts. -/
theorem gather_absent (hg : (s.dest n).gathered = false) (hu : destUsable s n = true) (ht : (s.dest n).take = none)
    (hf : (s.dest n).hasFault = false) (hsel : q.sel ≠ .bad) (hframe : q.frame ≠ .bad)
    (hl : lookFor s (readerOf s n) (s.dest n).sel (s.dest n).transp = .absent) :
    let t := gatherDest (readsOf s n q) n
    (t.dest n).isAbsent = true ∧ (t.dest n).gathered = true ∧
      t.nat Ix.latAbsentCount n = min (s.nat Ix.latAbsentCount n + 1) 0xFFFFFFFF ∧
      (∀ m, m ≠ n → t.dest m = s.dest m) ∧ t.engines = s.engines := by
  have k := readsOf_readsCounted (d := n) ht hsel hframe
  obtain ⟨r, c, hlog, habs, hgath⟩ := gatherDest_absent (s := readsOf s n q) (d := n)
    (by rw [k.dest, hg]) (by rw [k.destUsable, hu]) (by rw [k.dest, ht]) (by rw [k.dest, hf])
    (by rw [k.dest, k.readerOf, k.lookFor, hl])
  obtain ⟨a, b, hc⟩ := countGather_lat (((readsOf s n q).setDest n r).addHold Ix.latAbsentCount n 1) c
  rw [hc] at hlog
  have hdest (m : Nat) : (gatherDest (readsOf s n q) n).dest m = ((readsOf s n q).setDest n r).dest m := by
    unfold State.dest
    rw [hlog.lat, addHold_lat]
  have hcount : ((readsOf s n q).setDest n r).nat Ix.latAbsentCount n = s.nat Ix.latAbsentCount n :=
    (nat_setDest _ n r (by decide) n).trans (k.nat rfl n)
  dsimp only
  rw [hdest n, dest_setDest_self]
  refine ⟨habs, hgath, ?_, fun m hm => ?_, ?_⟩
  · rw [hlog.nat rfl, ← hcount]
    exact nat_setNat_self ..
  · rw [hdest m, dest_setDest_ne _ hm, k.dest]
  · rw [hlog.engines, addHold_engines, setDest_engines, k.engines]

end

end Sys2Proof.Machine
end

section
/-! The end of a SOFT take (R153) and the scrub of the Lattice's memories (R143, R159). -/

namespace Sys2Proof.Machine

section
variable {s : State} {n : Nat}

theorem softTakeEnd_ends {d : Half} {k : Take} (ht : (s.dest d.toNat).take = some k) (hs : k.soft = true) (hk : 32 ≤ k.k) :
    exec (.softTakeEnd d) s = .next (s.setDest d.toNat { s.dest d.toNat with take := none }) := by
  have hend : endTake (s.dest d.toNat) = { s.dest d.toNat with take := none } := by
    unfold endTake
    simp only [ht, hs, decide_eq_false (Nat.not_lt.mpr hk), Bool.and_false, Bool.false_eq_true, if_false]
  change execSoftTakeEnd d s = _
  unfold execSoftTakeEnd
  simp only [ht, hs, if_true, hend]

/-- A scrub of the selector table, or of a frame the Lattice holds, is not passed over (R159). -/
theorem scrub_looks {sel : Bool} {d : Half} (h : sel = true ∨ ingressBank d.toNat = none) :
    (!sel && (ingressBank d.toNat).isSome) = false := by
  rcases h with rfl | h
  · rfl
  · rw [h]
    exact Bool.and_false _

/-- A corrected word counts. -/
theorem scrub_corrected {sel : Bool} {d : Half} (h : sel = true ∨ ingressBank d.toNat = none) (age : Fin 3) :
    exec (.latticeScrubRead sel d age .corrected) s = .next (s.addHold Ix.latEccCe 0 1) := by
  change execLatticeScrubRead sel d age .corrected s = _
  unfold execLatticeScrubRead
  simp only [scrub_looks h, Bool.false_eq_true, if_false]

/-- An uncorrectable selector faults its destination. -/
theorem scrub_badSelector (d : Half) (age : Fin 3) :
    exec (.latticeScrubRead true d age .bad) s = .next (selFault s d.toNat) := by
  change execLatticeScrubRead true d age .bad s = _
  unfold execLatticeScrubRead
  simp only [Bool.not_true, Bool.false_and, Bool.false_eq_true, if_false, if_true]

/-- An uncorrectable word of a frame faults the frame its buffer holds. -/
theorem scrub_badFrame {d : Half} {age : Fin 3} {ws : List Word} {tag : Nat} (h : ingressBank d.toNat = none)
    (hf : slotFrame s d.toNat ((s.tick + 2 - age.val) % 3) = (ws, tag)) (hne : ws ≠ []) :
    exec (.latticeScrubRead false d age .bad) s = .next (frameFault s d.toNat tag) := by
  have hws : ws.isEmpty = false := List.isEmpty_eq_false_iff.2 hne
  change execLatticeScrubRead false d age .bad s = _
  unfold execLatticeScrubRead
  simp only [scrub_looks (Or.inr h), hf, hws, slotFault, Bool.false_eq_true, if_false]

/-- An ingress frame lies in a bank, which the scrub of the Lattice passes over (R143). -/
theorem scrub_ingress {d : Half} (h : ingressBank d.toNat ≠ none) (age : Fin 3) (ecc : Ecc) :
    exec (.latticeScrubRead false d age ecc) s = .next s := by
  have hif : (!false && (ingressBank d.toNat).isSome) = true := Option.isSome_iff_ne_none.2 h
  change execLatticeScrubRead false d age ecc s = _
  unfold execLatticeScrubRead
  rw [if_pos hif]

theorem selFault_marks (s : State) (n : Nat) :
    ((selFault s n).dest n).hasFault = true ∧ ((selFault s n).dest n).fault = fadeOut (s.dest n).fault ∧
      (selFault s n).nat Ix.latEccUe = (s.nat Ix.latEccUe + 1) % 4294967296 ∧
      ∀ m, m ≠ n → (selFault s n).dest m = s.dest m := by
  let s1 := s.setDest n { s.dest n with hasFault := true, fault := fadeOut (s.dest n).fault }
  have hlog : LogOnly (s1.addWrap Ix.latEccUe 0 1) (selFault s n) := alarm_logOnly _ _ _
  have hdest (m : Nat) : (selFault s n).dest m = s1.dest m := by
    unfold State.dest
    rw [hlog.lat, addWrap_lat]
  rw [hdest n, dest_setDest_self, hlog.nat rfl, ← nat_setDest s n { s.dest n with hasFault := true, fault := fadeOut (s.dest n).fault }
    (ix := Ix.latEccUe) (by decide) 0]
  exact ⟨rfl, rfl, nat_setNat_self .., fun m hm => (hdest m).trans (dest_setDest_ne s hm _)⟩

/-- Of the last three ticks, which a frame's buffers hold, the one `age` ticks before the newest has its buffer number alone. -/
theorem find_heldTick {age tick : Nat} (ha : age < 3) (hle : age + 1 ≤ tick) :
    (((upFrom 1 3).filter (fun a => decide (a ≤ tick))).map (fun a => tick - a)).find?
      (fun t => t % 3 == (tick + 2 - age) % 3) = some (tick - 1 - age) := by
  have held (a : Nat) (h1 : 1 ≤ a) (h3 : a ≤ 3) :
      decide (decide (a ≤ tick) = true ∧ ((tick - a) % 3 == (tick + 2 - age) % 3) = true) = decide (a = age + 1) := by
    rw [decide_eq_decide, decide_eq_true_iff, beq_iff_eq]
    omega
  have hfind : (upFrom 1 3).find? (fun a => decide (a = age + 1)) = some (age + 1) := by
    obtain rfl | rfl | rfl : age = 0 ∨ age = 1 ∨ age = 2 := by omega
    all_goals rfl
  rw [List.find?_map, List.find?_filter]
  simp only [upFrom, List.find?, Function.comp, held 1 (by decide) (by decide), held (1 + 1) (by decide) (by decide),
    held (1 + 1 + 1) (by decide) (by decide)] at hfind ⊢
  rw [hfind]
  exact congrArg some (by omega : tick - (age + 1) = tick - 1 - age)

/-- The frame produced `age` ticks before the newest is the one in its buffer (R143). -/
theorem slotFrame_stored {age tick : Nat} (ht : s.tick = tick) (ha : age < 3) (hle : age + 1 ≤ tick) {f : Frame}
    (hf : storedFrame s n (tick - 1 - age) = some f) : slotFrame s n ((tick + 2 - age) % 3) = (f.words, tick - 1 - age) := by
  unfold slotFrame
  simp only [ht, find_heldTick ha hle, hf]

theorem frameFault_marks {tag : Nat} {f : Frame} (hf : storedFrame s n tag = some f) :
    ((frameFault s n tag).source n).hist = (s.source n).hist.map (fun h => if h.tag = f.tag then { h with bad := true } else h) ∧
      (frameFault s n tag).nat Ix.latEccUe = (s.nat Ix.latEccUe + 1) % 4294967296 ∧
      ∀ m, m ≠ n → (frameFault s n tag).source m = s.source m := by
  have htag : f.tag = tag := by
    have := List.find?_some hf
    simpa using this
  let s1 := s.setSource n { s.source n with
    hist := (s.source n).hist.map (fun (f : Frame) => if f.tag == tag then { f with bad := true } else f) }
  have hlog : LogOnly (s1.addWrap Ix.latEccUe 0 1) (frameFault s n tag) := by
    unfold frameFault
    rw [hf]
    exact alarm_logOnly _ _ _
  have hsource (m : Nat) : (frameFault s n tag).source m = s1.source m := by
    unfold State.source
    rw [hlog.lat, addWrap_lat]
  rw [hsource n, source_setSource_self, hlog.nat rfl, htag]
  refine ⟨?_, nat_setNat_self .., fun m hm => (hsource m).trans (source_setSource_ne s hm _)⟩
  simp only [beq_iff_eq]

end

end Sys2Proof.Machine

open Sys2Proof Sys2Proof.Machine

/-- Settles O19: the gathers by what the reader finds, the scrubs by what their check finds. -/
theorem latticeCommandsGatherTheirDestination : Obligations.LatticeCommandsGatherTheirDestination := by
  unfold Obligations.LatticeCommandsGatherTheirDestination
  intro s d q r n
  refine ⟨fun hw hs hp hg hu ht hf hsel hframe => ?_, fun k ht hsoft hk => softTakeEnd_ends ht hsoft hk,
    fun sel age h => scrub_corrected h age, fun age => ⟨selFault s n, scrub_badSelector d age, selFault_marks s n⟩,
    fun age ecc h => scrub_ingress h age ecc, fun age f hi hage hf hne => ?_⟩
  · obtain ⟨hgather, hwait⟩ := gathers q hw hs hp hg hu
    refine ⟨fun w hl hfs => ?_, fun hl => ?_⟩
    · have taken := gather_unity (q := q) hg hu ht hf hsel hframe hl hfs
      exact ⟨⟨_, hgather, taken⟩, _, hwait, taken⟩
    · have counted := gather_absent (q := q) hg hu ht hf hsel hframe hl
      exact ⟨⟨_, hgather, counted⟩, _, hwait, counted⟩
  · have hslot := slotFrame_stored (n := n) rfl age.isLt hage hf
    exact ⟨frameFault s n (s.clk.tick - 1 - age.val), scrub_badFrame hi hslot hne, frameFault_marks hf⟩
end

section
/-! What the slots of a bundle put on its way: a slot that its operation accepts leaves the engine that found it, with further
results in flight and further events (`flying`). -/

namespace Sys2Proof.Machine

/-- A slot that its operation accepts does what the operation answers. -/
theorem SlotReady.does {i : Instr} {is : Issue} {s : State} {act : TickView → Engine → SlotOut} {e : Engine} (hr : SlotReady s is)
    (hx : exec i s = .next (issueSlot is act s)) (ha : act (tickView s (slotFinds s is)) (slotFinds s is) = .ok e)
    (hb : is.last = true → e.cur.bad = false) : SlotDoes i is s e :=
  ⟨_, hx, issueSlot_ok hr ha hb⟩

/-- The same of an operation that only puts results in flight and counts events. -/
theorem SlotReady.flies {i : Instr} {is : Issue} {s : State} {act : TickView → Engine → SlotOut} {e : Engine} {ls : List Landing}
    {evs : List (Nat × Nat)} (hr : SlotReady s is) (hx : exec i s = .next (issueSlot is act s))
    (ha : act (tickView s (slotFinds s is)) (slotFinds s is) = .ok (flying e ls evs))
    (hb : e.cur.bad = (slotFinds s is).cur.bad) : SlotDoes i is s (flying e ls evs) :=
  hr.does hx ha fun hl => hb.trans (hr.loaded hl)

/-! ### Results and events one after another -/

theorem launch_eq_flying (slot d : Nat) (eff : Eff) (e : Engine) : launch slot d eff e = flying e [result e d slot eff] [] := by
  simp [launch, flying, result]

theorem noteEvent_eq_flying (ev n : Nat) (e : Engine) : noteEvent ev n e = flying e [] [(ev, n)] := by
  simp [noteEvent, flying]

@[simp] theorem flying_flying (e : Engine) (ls ms : List Landing) (evs fvs : List (Nat × Nat)) :
    flying (flying e ls evs) ms fvs = flying e (ls ++ ms) (evs ++ fvs) := by
  simp [flying]

@[simp] theorem flying_nil (e : Engine) : flying e [] [] = e := by simp [flying]

@[simp] theorem result_flying (e : Engine) (ls : List Landing) (evs : List (Nat × Nat)) (d slot : Nat) (eff : Eff) :
    result (flying e ls evs) d slot eff = result e d slot eff := rfl

@[simp] theorem flying_rf (e : Engine) (ls : List Landing) (evs : List (Nat × Nat)) : (flying e ls evs).rf = e.rf := rfl

@[simp] theorem memWord_flying (e : Engine) (ls : List Landing) (evs : List (Nat × Nat)) (side : Side) (addr : Nat) :
    memWord (flying e ls evs) side addr = memWord e side addr := by cases side <;> rfl

/-! ### The MAC slots (R67 to R71, R86) -/

/-- The engine once a form of a MAC slot has been commanded (R86). -/
def inLane (lane : Lane) (e : Engine) : Engine :=
  if lane = .mac1 then { e with cur := { e.cur with mac1 := true } } else e

theorem inLane_bad (lane : Lane) (e : Engine) : (inLane lane e).cur.bad = e.cur.bad := by cases lane <;> rfl

theorem macSlot_ok {lane : Lane} {e : Engine} (h : lane = .mac1 → e.cur.complex = false) (act : Engine → Engine) :
    macSlot lane act e = .ok (act (inLane lane e)) := by
  cases lane with
  | mac0 => rfl
  | mac1 => simp [macSlot, inLane, h rfl]

section
variable {i : Instr} {is : Issue} {lane : Lane} {s : State}

theorem macOne_does {op : MacOp} {a : Fin 4} {x y : Fin 16} (hr : SlotReady s is)
    (hc : lane = .mac1 → (slotFinds s is).cur.complex = false) (hx : exec i s = .next (macOne is lane op a x y s)) :
    let e := inLane lane (slotFinds s is)
    SlotDoes i is s (flying e [result e 2 (laneSlot lane) (.macc a op (product e.rf x y))] [(0x05, 1), (0x06, 1)]) := by
  refine hr.flies hx ?_ (inLane_bad ..)
  simp [macSlot_ok hc, launchMac, launch_eq_flying, noteEvent_eq_flying]

theorem macSum_does {op : MacOp} {a : Fin 4} {x y u v : Fin 16} (hr : SlotReady s is)
    (hc : lane = .mac1 → (slotFinds s is).cur.complex = false) (hx : exec i s = .next (macSum is lane op a x y u v s)) :
    let e := inLane lane (slotFinds s is)
    SlotDoes i is s (flying e [result e 2 (laneSlot lane) (.macc a op (product e.rf x y + product e.rf u v))]
      [(0x05, 2), (0x06, 1)]) := by
  refine hr.flies hx ?_ (inLane_bad ..)
  simp [macSlot_ok hc, launchMac, launch_eq_flying, noteEvent_eq_flying]

/-- Two accumulators take a product each; one named twice takes their sum (R69, R71). -/
theorem macTwo_does {op : MacOp} {a b : Fin 4} {x y u v : Fin 16} (hr : SlotReady s is)
    (hc : lane = .mac1 → (slotFinds s is).cur.complex = false) (hx : exec i s = .next (macTwo is lane op a b x y u v s)) :
    let e := inLane lane (slotFinds s is)
    SlotDoes i is s (if a = b then
        flying e [result e 2 (laneSlot lane) (.macc a op (product e.rf x y + product e.rf u v))] [(0x05, 2), (0x06, 1)]
      else flying e [result e 2 (laneSlot lane) (.macc a op (product e.rf x y)),
        result e 2 (laneSlot lane) (.macc b op (product e.rf u v))] [(0x05, 2), (0x06, 1)]) := by
  unfold macTwo at hx
  split
  next hab => exact macSum_does hr hc (by rw [hx, if_pos hab])
  next hab =>
    rw [if_neg hab] at hx
    refine hr.flies hx ?_ (inLane_bad ..)
    simp [macSlot_ok hc, launchMac, launch_eq_flying, noteEvent_eq_flying]

/-- A complex form, by the real and the imaginary sum it gives (R70). -/
theorem macComplex_does {op : MacOp} {conj : Bool} {p : Fin 2} {x y : Fin 8} (hr : SlotReady s is)
    (hc : (slotFinds s is).cur.mac1 = false) (hx : exec i s = .next (macComplex is op conj p x y s)) :
    let e := { slotFinds s is with cur := { (slotFinds s is).cur with complex := true } }
    let pr (a b : Fin 16) : Int := product e.rf a b
    let re := if conj then pr (evenReg x) (evenReg y) + pr (oddReg x) (oddReg y)
      else pr (evenReg x) (evenReg y) - pr (oddReg x) (oddReg y)
    let im := if conj then pr (oddReg x) (evenReg y) - pr (evenReg x) (oddReg y)
      else pr (evenReg x) (oddReg y) + pr (oddReg x) (evenReg y)
    SlotDoes i is s (flying e [result e 2 0 (.macc (Fin.ofNat 4 (2 * p.val)) op re),
      result e 2 1 (.macc (Fin.ofNat 4 (2 * p.val + 1)) op im)] [(0x05, 4), (0x06, 1)]) := by
  refine hr.flies hx ?_ rfl
  simp [hc, launchMac, launch_eq_flying, noteEvent_eq_flying]

end

end Sys2Proof.Machine

open Sys2Proof Sys2Proof.Machine

/-- Settles O1, form by form of `macOne`, `macTwo` and `macSum`. -/
theorem macFormsLaunchTheirProducts : Obligations.MacFormsLaunchTheirProducts := by
  unfold Obligations.MacFormsLaunchTheirProducts
  intro s is lane a b x y u v hr hc e p one two sum
  exact ⟨macOne_does hr hc rfl, macOne_does hr hc rfl, macOne_does hr hc rfl, macTwo_does hr hc rfl, macTwo_does hr hc rfl,
    macTwo_does hr hc rfl, macSum_does hr hc rfl, macSum_does hr hc rfl, macSum_does hr hc rfl⟩

/-- Settles O2, form by form of `macComplex`. -/
theorem complexFormsLaunchTheirSums : Obligations.ComplexFormsLaunchTheirSums := by
  unfold Obligations.ComplexFormsLaunchTheirSums
  intro s is p x y hr hc e d re im does
  exact ⟨macComplex_does (conj := false) hr hc rfl, macComplex_does (conj := false) hr hc rfl,
    macComplex_does (conj := true) hr hc rfl, macComplex_does (conj := true) hr hc rfl⟩
end

section
/-! The Y/ALU slot (R64, R72, R73) and what the landing of an accumulate leaves (R68, R88). -/

namespace Sys2Proof.Machine

/-! ### The operations -/

section
variable {i : Instr} {is : Issue} {s : State}

/-- A result with its flags: `aluOut` puts `aluResults` in flight. -/
theorem aluOut_eq (z : Option (Fin 16)) (r : Word) (cv : Option (Bool × Bool)) (sv : Bool) (e : Engine) :
    aluOut z r cv sv e = .ok (flying e (aluResults e z r cv sv) []) := by
  cases z <;> cases sv <;> simp [aluOut, aluResults, launch_eq_flying, flagN, flagZ]

theorem aluOut_does {z : Option (Fin 16)} {r : Word} {cv : Option (Bool × Bool)} {sv : Bool} {act : TickView → Engine → SlotOut}
    (hr : SlotReady s is) (hx : exec i s = .next (issueSlot is act s))
    (ha : act (tickView s (slotFinds s is)) (slotFinds s is) = aluOut z r cv sv (slotFinds s is)) :
    SlotDoes i is s (flying (slotFinds s is) (aluResults (slotFinds s is) z r cv sv) []) :=
  hr.flies hx (ha.trans (aluOut_eq ..)) rfl

theorem accOut_does {a : Fin 4} {r : Int} {act : TickView → Engine → SlotOut} (hr : SlotReady s is)
    (hx : exec i s = .next (issueSlot is act s))
    (ha : act (tickView s (slotFinds s is)) (slotFinds s is) = accOut a r (slotFinds s is)) :
    SlotDoes i is s (flying (slotFinds s is) [result (slotFinds s is) 0 3 (.acc a (clampAcc r).1 (clampAcc r).2)] []) :=
  hr.flies hx (ha.trans (congrArg SlotOut.ok (launch_eq_flying ..))) rfl

/-- ASH within its range (R72, R86). -/
theorem ash_does {a : Fin 4} {n : BitVec 7} (hr : SlotReady s is) (hlo : -40 ≤ n.toInt) (hhi : n.toInt ≤ 40) :
    let r := ashValue ((slotFinds s is).rf.getAcc a).toInt n.toInt
    SlotDoes (.ash is a n) is s
      (flying (slotFinds s is) [result (slotFinds s is) 0 3 (.acc a (clampAcc r).1 (clampAcc r).2)] []) :=
  accOut_does hr rfl (if_neg (by omega))

/-- MOVW: the window of R73, and SV where it saturates. -/
theorem movw_does {z : Fin 16} {a : Fin 4} (hr : SlotReady s is) :
    let e := slotFinds s is
    let w := window (e.rf.getAcc a).toInt e.rf.shift.toNat
    SlotDoes (.movw is z a) is s
      (flying e (result e 0 3 (.reg (dCode z) w.1) :: if w.2 then [result e 0 3 (.sticky false true false)] else []) []) := by
  refine hr.flies (act := fun _ e => _) rfl ?_ rfl
  dsimp only
  split <;> simp [launch_eq_flying]

end

/-! ### The landing of an accumulate -/

theorem toInt_ofInt_acc {r : Int} (hlo : -(2 ^ 71) ≤ r) (hhi : r ≤ 2 ^ 71 - 1) : (BitVec.ofInt 72 r).toInt = r := by
  rw [BitVec.toInt_ofInt]
  exact Int.bmod_eq_of_le (by omega) (by omega)

theorem clampAcc_above {r : Int} (h : 2 ^ 71 - 1 < r) : clampAcc r = (2 ^ 71 - 1, true) := if_pos h

theorem clampAcc_below {r : Int} (h : r < -(2 ^ 71)) : clampAcc r = (-(2 ^ 71), true) := by
  unfold clampAcc accMax accMin
  rw [if_neg (by omega), if_pos h]

theorem clampAcc_within {r : Int} (hlo : -(2 ^ 71) ≤ r) (hhi : r ≤ 2 ^ 71 - 1) : clampAcc r = (r, false) := by
  unfold clampAcc accMax accMin
  rw [if_neg (by omega), if_neg (by omega)]

theorem countEvents_rf (evs : List (Nat × Nat)) (e : Engine) : (countEvents evs e).1.rf = e.rf := rfl

theorem flushPort_rf (e : Engine) : (flushPort e).rf = e.rf := landPort_rf _ e

/-- The register file after a cycle in which one accumulate lands. -/
theorem landCycle_add_rf {e : Engine} {l : Landing} {a : Fin 4} {c : Int} (hf : e.flight = [l]) (hd : l.due ≤ e.cyc)
    (hl : l.eff = .macc a .add c) :
    let r := clampAcc ((e.rf.getAcc a).toInt + c)
    ((landCycle e).1.rf.getAcc a) = BitVec.ofInt 72 r.1 ∧ (landCycle e).1.rf.av = (e.rf.av || r.2) := by
  have hdue : standing (sortLandings (e.flight.filter (fun l => decide (l.due ≤ e.cyc)))) = [l] := by
    rw [hf, List.filter_cons, if_pos (decide_eq_true hd), List.filter_nil]
    simp [sortLandings, insertLanding, standing, hl, landCode]
  simp [landCycle, hdue, applyLanding, hl, stickies, landSticky, maccSum, orSticky, countEvents_rf, flushPort_rf, retryPort,
    RegFile.getAcc]

end Sys2Proof.Machine

open Sys2Proof Sys2Proof.Machine

/-- Settles O5, operation by operation, each by the result that `aluOut` is given. -/
theorem aluOperationsGiveResultsAndFlags : Obligations.AluOperationsGiveResultsAndFlags := by
  unfold Obligations.AluOperationsGiveResultsAndFlags
  intro s is z x src sh hr e a b n wraps plain sat sub
  exact ⟨aluOut_does hr rfl rfl, aluOut_does hr rfl rfl, aluOut_does hr rfl rfl, aluOut_does hr rfl rfl, aluOut_does hr rfl rfl,
    aluOut_does hr rfl rfl, aluOut_does hr rfl rfl, aluOut_does hr rfl rfl, aluOut_does hr rfl rfl, aluOut_does hr rfl rfl,
    aluOut_does hr rfl rfl, aluOut_does hr rfl rfl, aluOut_does hr rfl rfl, aluOut_does hr rfl rfl, aluOut_does hr rfl rfl,
    aluOut_does hr rfl rfl⟩

/-- Settles O6: each operation hands its exact result to `accOut`, and a landing clamps its exact sum. -/
theorem accumulatorOperationsClampTheirResults : Obligations.AccumulatorOperationsClampTheirResults := by
  unfold Obligations.AccumulatorOperationsClampTheirResults
  refine ⟨fun s is a b x z n hr => ⟨accOut_does hr rfl rfl, accOut_does hr rfl rfl, accOut_does hr rfl rfl,
    fun hlo hhi => ash_does hr hlo hhi, movw_does hr⟩, fun e l a c hf hd hl => ?_⟩
  obtain ⟨hacc, hav⟩ := landCycle_add_rf hf hd hl
  dsimp only
  rw [hacc, hav]
  refine ⟨fun h => ?_, fun h => ?_, fun hlo hhi => ?_⟩
  · rw [clampAcc_above h]
    exact ⟨toInt_ofInt_acc (by decide) (by decide), Bool.or_true _⟩
  · rw [clampAcc_below h]
    exact ⟨toInt_ofInt_acc (by decide) (by decide), Bool.or_true _⟩
  · rw [clampAcc_within hlo hhi]
    exact ⟨toInt_ofInt_acc hlo hhi, Bool.or_false _⟩
end

section
/-! Loads and stores, moves and immediates (R54, R61, R73, R76, R84), and linear addressing (R77). -/

namespace Sys2Proof.Machine

/-! ### What the parts of a move put in flight -/

theorem launchAddress_eq (side : Side) (n : Fin 8) (post : Option Half) (cv : Bool) (e : Engine) :
    launchAddress (sideSlot side) n post cv e = flying e (addressResults e side n post cv) [] := by
  cases post <;> cases cv <;> simp [launchAddress, addressResults, launch_eq_flying]

theorem loadResults_flying (side : Side) (addr : Nat) (cs : List (BitVec 7)) (e : Engine) (ls : List Landing)
    (evs : List (Nat × Nat)) : loadResults (flying e ls evs) side addr cs = loadResults e side addr cs := by
  induction cs generalizing addr with
  | nil => rfl
  | cons c t ih => simp [loadResults, ih]

theorem loadRegs_eq (side : Side) (addr : Nat) (cs : List (BitVec 7)) (e : Engine) :
    loadRegs side addr cs e = flying e (loadResults e side addr cs) [] := by
  induction cs generalizing addr e with
  | nil => simp [loadRegs, loadResults]
  | cons c t ih => simp [loadRegs, loadResults, launchReg, launch_eq_flying, ih, loadResults_flying]

theorem storeResults_flying (side : Side) (addr : Nat) (ws : List Word) (e : Engine) (ls : List Landing)
    (evs : List (Nat × Nat)) : storeResults (flying e ls evs) side addr ws = storeResults e side addr ws := by
  induction ws generalizing addr with
  | nil => rfl
  | cons w t ih => simp [storeResults, ih]

theorem storeWords_eq (side : Side) (addr : Nat) (ws : List Word) (e : Engine) :
    storeWords side addr ws e = flying e (storeResults e side addr ws) [] := by
  induction ws generalizing addr e with
  | nil => simp [storeWords, storeResults]
  | cons w t ih => simp [storeWords, storeResults, launch_eq_flying, ih, storeResults_flying]

@[simp] theorem addressResults_flying (e : Engine) (ls : List Landing) (evs : List (Nat × Nat)) (side : Side) (n : Fin 8)
    (post : Option Half) (cv : Bool) : addressResults (flying e ls evs) side n post cv = addressResults e side n post cv := rfl

/-! Noting the sub-bank of an access changes nothing a result depends on. -/

@[simp] theorem result_touch (e : Engine) (at' : Nat) (side : Side) (d slot : Nat) (eff : Eff) :
    result (touch side at' e) d slot eff = result e d slot eff := rfl

@[simp] theorem addressResults_touch (e : Engine) (at' : Nat) (side : Side) (n : Fin 8) (post : Option Half) (cv : Bool) :
    addressResults (touch side at' e) side n post cv = addressResults e side n post cv := rfl

@[simp] theorem loadResults_touch (e : Engine) (at' : Nat) (side : Side) (addr : Nat) (cs : List (BitVec 7)) :
    loadResults (touch side at' e) side addr cs = loadResults e side addr cs := by
  induction cs generalizing addr with
  | nil => rfl
  | cons c t ih =>
    rw [loadResults, loadResults, ih]
    cases side <;> rfl

@[simp] theorem storeResults_touch (e : Engine) (at' : Nat) (side : Side) (addr : Nat) (ws : List Word) :
    storeResults (touch side at' e) side addr ws = storeResults e side addr ws := by
  induction ws generalizing addr with
  | nil => rfl
  | cons w t ih =>
    rw [storeResults, storeResults, ih]
    rfl

theorem moveEvent_eq (side : Side) : moveEvent side = if side = .x then 0x07 else 0x08 := by cases side <;> rfl

/-! ### The moves -/

section
variable {is : Issue} {side : Side} {form : AForm} {n : Fin 8} {s : State}

/-- A load whose words are good, or that is not the last slot of its bundle. -/
theorem ld_does {reg : MoveReg} {ecc : LineEcc} {ea : Half} {post : Option Half} {cv : Bool} (hr : SlotReady s is)
    (ha : address (slotFinds s is).rf form n (moveWords reg) = (ea, post, cv))
    (hb : is.last = false ∨ lineBad (moveWords reg) ecc = false) :
    let e := slotFinds s is
    let addr := alignAddr ea (moveWords reg)
    let f : Engine := flying (touch side addr e) (loadResults e side addr (moveCodes reg) ++ addressResults e side n post cv)
      [(moveEvent side, 1)]
    let fixed : List (Nat × Nat) := (lineFixed (moveWords reg) ecc).map (fun i => ((if side = .x then 1 else 2 : Nat), addr + i))
    SlotDoes (.ld is side form n reg ecc) is s
      { f with cur := { e.cur with fixed := e.cur.fixed ++ fixed, bad := e.cur.bad || lineBad (moveWords reg) ecc } } := by
  refine hr.does (act := fun _ e => loadSlot side form n reg ecc e) rfl ?_ fun hl => ?_
  · have hfly : launchAddress (sideSlot side) n post cv (loadRegs side (alignAddr ea (moveWords reg)) (moveCodes reg)
          (touch side (alignAddr ea (moveWords reg)) (slotFinds s is))) =
        flying (touch side (alignAddr ea (moveWords reg)) (slotFinds s is))
          (loadResults (slotFinds s is) side (alignAddr ea (moveWords reg)) (moveCodes reg) ++
            addressResults (slotFinds s is) side n post cv) [] := by
      simp [loadRegs_eq, launchAddress_eq]
    simp only [loadSlot, ha, hfly]
    cases side <;> simp [noteEvent, flying, touch]
  · obtain h | h := hb
    · rw [hl] at h
      cases h
    · simp [hr.loaded hl, h]

theorem st_does {reg : MoveReg} {ea : Half} {post : Option Half} {cv : Bool} (hr : SlotReady s is)
    (ha : address (slotFinds s is).rf form n (moveWords reg) = (ea, post, cv)) :
    let e := slotFinds s is
    let addr := alignAddr ea (moveWords reg)
    SlotDoes (.st is side form n reg) is s
      (flying (touch side addr e) (storeResults e side addr ((moveCodes reg).map (readCode e.rf e.loops.length)) ++
        addressResults e side n post cv) [(moveEvent side, 1)]) := by
  refine hr.flies (act := fun _ e => storeSlot side form n reg e) rfl ?_ rfl
  simp [storeSlot, ha, storeWords_eq, launchAddress_eq, noteEvent_eq_flying]

/-- A store of the window of an accumulator, with SV where it saturates (R73). -/
theorem sta_does {a : Fin 4} {ea : Half} {post : Option Half} {cv : Bool} (hr : SlotReady s is)
    (ha : address (slotFinds s is).rf form n 1 = (ea, post, cv)) :
    let e := slotFinds s is
    let w := window (e.rf.getAcc a).toInt e.rf.shift.toNat
    SlotDoes (.sta is side form n a) is s
      (flying (touch side ea.toNat e) (storeResults e side ea.toNat [w.1] ++ addressResults e side n post cv ++
        if w.2 then [result e 0 (sideSlot side) (.sticky false true false)] else []) [(moveEvent side, 1)]) := by
  refine hr.flies (act := fun _ e => storeAcc side form n a e) rfl ?_ rfl
  simp only [storeAcc, ha]
  split <;> simp [storeWords_eq, launchAddress_eq, noteEvent_eq_flying, launch_eq_flying]

theorem mov_does {src dst : BitVec 7} (hr : SlotReady s is) :
    let e := slotFinds s is
    SlotDoes (.mov is side src dst) is s
      (flying e [result e 0 (sideSlot side) (.reg dst (readCode e.rf e.loops.length src))] []) :=
  hr.flies rfl (congrArg SlotOut.ok (launch_eq_flying ..)) rfl

/-- LDI: the high half of SR is read-only (R64, R84). -/
theorem ldi_does {dst : BitVec 7} {high : Bool} {imm : Half} (hr : SlotReady s is) :
    let e := slotFinds s is
    SlotDoes (.ldi is side dst high imm) is s
      (if high = true ∧ dst = 0x3C then e
        else flying e [result e 0 (sideSlot side) (.reg dst (immWord (readCode e.rf e.loops.length dst) high imm))] []) := by
  refine hr.does (act := fun _ e => immSlot side dst high imm e) rfl ?_ fun hl => ?_
  · simp only [immSlot, launchReg, launch_eq_flying, Bool.and_eq_true, beq_iff_eq]
    split <;> rfl
  · split <;> exact hr.loaded hl

end

/-! ### Linear addressing -/

/-- The bits of AMODE of an address register as `modeOf` reads them. -/
theorem modeOf_eq (amode : Half) (n : Fin 8) : modeOf amode n = (amode.extractLsb' (2 * n.val) 2).toNat := by
  rw [modeOf, BitVec.extractLsb'_toNat, Nat.shiftRight_eq_div_pow]

theorem toNat_nextLinear (a : Half) (d : Int) : ((nextLinear a d).toNat : Int) = ((a.toNat : Int) + d) % 65536 := by
  rw [nextLinear, BitVec.toNat_ofInt]
  omega

end Sys2Proof.Machine

open Sys2Proof Sys2Proof.Machine

/-- Settles O3, move by move, once the address form has given its address. -/
theorem movesLaunchTheirResults : Obligations.MovesLaunchTheirResults := by
  unfold Obligations.MovesLaunchTheirResults
  intro s is side form n reg ecc a src dst high imm hr
  dsimp only
  rcases ha : address (slotFinds s is).rf form n (moveWords reg) with ⟨ea, post, cv⟩
  rcases ha1 : address (slotFinds s is).rf form n 1 with ⟨ea1, post1, cv1⟩
  dsimp only
  rw [← moveEvent_eq]
  exact ⟨ld_does hr ha, st_does hr ha, sta_does hr ha1, mov_does hr, ldi_does hr⟩

/-- Settles O54: with both mode bits and the length 0 the next address is the linear one. -/
theorem linearModeAddsModuloMemory : Obligations.LinearModeAddsModuloMemory := by
  unfold Obligations.LinearModeAddsModuloMemory
  intro r n d hm hl
  have hnext : nextAddr r n d = (nextLinear r.va[n.val] d, false) := by
    simp [nextAddr, modeOf_eq, hm, hl]
  rw [hnext]
  exact ⟨toNat_nextLinear .., rfl⟩
end

section
/-! ENG_CTL on a door-holder (R59, R102, R110): what starts and stops a place. -/

namespace Sys2Proof.Machine

/-- Writes of the other port leave P memory as it was. -/
theorem landPort_p (ws : List PortWrite) (e : Engine) : (landPort ws e).p = e.p := by
  unfold landPort
  induction ws generalizing e with
  | nil => rfl
  | cons w ws ih =>
    rw [List.foldl_cons, ih]
    split <;> rfl

section
variable {s : State} {p : Fin 16} {cmd t0 : Nat}

/-- The command of a place that has come due is taken from those that wait. -/
def takeEngCtl (s : State) (p : Fin 16) : State := { s with ctl := { s.ctl with engCtl := mapErase p.val s.ctl.engCtl } }

theorem exec_engCtlAct (hc : mapGet (fun _ => none) p.val s.ctl.engCtl = some (cmd, t0)) (ht : t0 ≤ s.clk.tick)
    (hd : s.isDoor = true) : exec (.engCtlAct p) s = .next (engCtlAct (takeEngCtl s p) p cmd) := by
  have hd' : (takeEngCtl s p).isDoor = true := hd
  change execEngCtlAct p s = _
  unfold execEngCtlAct
  simp only [hc]
  rw [if_pos ht]
  unfold engCtlDue
  exact congrArg Host.Outcome.next (if_pos hd')

/-- An engine stopped by ENG_CTL: its outputs are substituted (R110). -/
def stopped (e : Engine) : Engine := { stopEngine e with subst := true }

theorem engCtlAct_stop (h : (s.engine (engineOf s p)).run = .running ∨ (s.engine (engineOf s p)).run = .waiting) :
    engCtlAct s p 0 = s.setEngine (engineOf s p) (stopped (s.engine (engineOf s p))) := by
  unfold engCtlAct
  rcases h with h | h <;> simp only [h, if_true] <;> rfl

theorem engCtlAct_run {im : Image} (hi : (s.engine (engineOf s p)).image = some im) (hf : imageFits s im.raw = true)
    (h : (s.engine (engineOf s p)).run = .idle) : engCtlAct s p 1 = startPlace s p false := by
  unfold engCtlAct
  simp [hi, hf, h]

theorem engCtlAct_restart {im : Image} (hi : (s.engine (engineOf s p)).image = some im) (hf : imageFits s im.raw = true)
    (h : (s.engine (engineOf s p)).run ≠ .leaf) : engCtlAct s p 2 = startPlace s p true := by
  unfold engCtlAct
  simp only [hi, hf, Bool.not_true, Bool.false_eq_true, if_false]
  cases hr : (s.engine (engineOf s p)).run <;> simp_all

/-- Starting a place changes the engine that holds it and no other. -/
theorem startPlace_engine_self (clear : Bool) :
    (startPlace s p clear).engine (engineOf s p) = startEngine clear (s.engine (engineOf s p)) := engine_setEngine_self ..

theorem startPlace_engine_ne (clear : Bool) {m : Fin 16} (h : m ≠ engineOf s p) :
    (startPlace s p clear).engine m = s.engine m := engine_setEngine_ne s h _

theorem startPlace_ctl (clear : Bool) : (startPlace s p clear).ctl = s.ctl := rfl

end

end Sys2Proof.Machine
open Sys2Proof Sys2Proof.Machine

/-- Settles O16: STOP by `stopEngine`, RUN and RESTART by `startEngine`, on the engine that holds the place. -/
theorem engineControlStartsAndStops : Obligations.EngineControlStartsAndStops := by
  unfold Obligations.EngineControlStartsAndStops
  intro s p cmd t0 hc ht hd n e starts
  have hx := exec_engCtlAct hc ht hd
  have started (clear : Bool) (h : engCtlAct (takeEngCtl s p) p cmd = startPlace (takeEngCtl s p) p clear) : starts clear := by
    rw [h] at hx
    refine ⟨_, hx, ?_⟩
    have hself : (startPlace (takeEngCtl s p) p clear).engine n = startEngine clear e := startPlace_engine_self clear
    rw [hself]
    exact ⟨rfl, rfl, rfl, rfl, rfl, rfl, rfl, rfl, rfl, landPort_p .., rfl, fun m hm => startPlace_engine_ne clear hm, congrArg CtlSt.engCtl (startPlace_ctl clear)⟩
  refine ⟨fun h0 hrun => ?_, fun im hi hf => ⟨fun h1 hrun => started false ?_, fun h2 hrun => started true ?_⟩⟩
  · have hstop : engCtlAct (takeEngCtl s p) p 0 = (takeEngCtl s p).setEngine n (stopped e) := engCtlAct_stop hrun
    rw [h0, hstop] at hx
    refine ⟨_, hx, ?_⟩
    rw [engine_setEngine_self]
    exact ⟨rfl, rfl, rfl, rfl, rfl, rfl, rfl, landPort_rf .., fun m hm => engine_setEngine_ne _ hm _, rfl, rfl⟩
  · rw [h1]
    exact engCtlAct_run hi hf hrun
  · rw [h2]
    exact engCtlAct_restart hi hf hrun
end

section
/-! The tick DMA of a section (R57, R102, R103, R144): the gather of its inputs, and the copy of a queued output frame. -/

namespace Sys2Proof.Machine

/-! ### A gather leaves the engines as they were -/

theorem frameFault_engines (s : State) (i tag : Nat) : (frameFault s i tag).engines = s.engines := by
  unfold frameFault
  rw [(alarm_logOnly _ _ _).engines, addWrap_engines]
  split <;> rfl

theorem selFault_engines (s : State) (d : Nat) : (selFault s d).engines = s.engines := by
  unfold selFault
  rw [(alarm_logOnly _ _ _).engines, addWrap_engines, setDest_engines]

theorem readCheck_engines (s : State) (rd : Reader) (i : Nat) (ecc : Ecc) : (readCheck s rd i ecc).engines = s.engines := by
  cases ecc with
  | ok => exact (readCheck_readsCounted s rd i (by decide)).engines
  | corrected => exact (readCheck_readsCounted s rd i (by decide)).engines
  | bad =>
    unfold readCheck
    split
    · next h _ => cases h
    · next =>
      dsimp only
      rw [frameFault_engines]
      split
      · exact addWrap_engines ..
      · rfl
    · rfl

theorem readsOf_engines (s : State) (d : Nat) (q : LatReads) : (readsOf s d q).engines = s.engines := by
  have hsel : (match q.sel with
      | .ok => s
      | .corrected => s.addHold Ix.latEccCe 0 1
      | .bad => selFault s d).engines = s.engines := by
    split
    · rfl
    · exact addHold_engines ..
    · exact selFault_engines s d
  unfold readsOf
  dsimp only
  split
  · rw [readCheck_engines, readCheck_engines]
    exact hsel
  · rw [readCheck_engines]
    exact hsel

theorem countGather_engines (s : State) (rd : Reader) : (countGather s rd).engines = s.engines := by cases rd <;> rfl

theorem gatherDest_engines (s : State) (d : Nat) : (gatherDest s d).engines = s.engines := by
  unfold gatherDest
  dsimp only
  split
  · rfl
  · split
    · rfl
    · rw [countGather_engines, setDest_engines]
    · rw [(alarmIf_logOnly _ _ _ _).engines, countGather_engines, addHold_engines, setDest_engines]

theorem gatherWith_engines (s : State) (d : Nat) (q : LatReads) : (gatherWith s d q).engines = s.engines := by
  unfold gatherWith
  split
  · rfl
  · rw [gatherDest_engines, readsOf_engines]

theorem gatherSlots_engines (s : State) (p : Fin 16) (ks : List Nat) (reads : List (Nat × LatReads)) :
    (gatherSlots s p ks reads).1.engines = s.engines := by
  unfold gatherSlots
  dsimp only
  induction ks generalizing s with
  | nil => rfl
  | cons k ks ih => exact (ih _).trans (gatherWith_engines ..)

/-- Filling the inputs of engine `n` changes no other engine. -/
theorem fillInputs_engine_ne (s : State) (p n : Fin 16) (ks : List Nat) {m : Fin 16} (h : m ≠ n) :
    (fillInputs s p n ks).engine m = s.engine m := by
  unfold fillInputs
  induction ks generalizing s with
  | nil => rfl
  | cons k ks ih => exact (ih _).trans (engine_setEngine_ne s h _)

/-- The state once the inputs of a section are in X memory, the gather reported as complete (R102). -/
def sectionReady (s : State) (p n : Fin 16) (second : Bool) (reads : List (Nat × LatReads)) : State :=
  let ks := slotsOf (s.engine n).loc.inMap second
  let t := fillInputs (gatherSlots s p ks reads).1 p n ks
  t.setEngine n (if second then { t.engine n with gather2 := true } else { t.engine n with gather1 := true })

theorem inputGatherDone_ready {s : State} {n p : Fin 16} {second : Bool} {reads : List (Nat × LatReads)} (hw : unitWorks s = true)
    (hs : settle s = s) (hp : feedPlace s n = some p) (hi : (s.engine n).image ≠ none)
    (hl : second = true → s.clk.late = true)
    (hg : (gatherSlots s p (slotsOf (s.engine n).loc.inMap second) reads).2 = true) :
    exec (.inputGatherDone n ⟨second, reads⟩) s = .next (sectionReady s p n second reads) := by
  have hopen : ((s.engine n).image.isNone || (second && !s.clk.late)) = false := by
    rw [Option.isNone_eq_false_iff.mpr (Option.isSome_iff_ne_none.mpr hi)]
    cases second with
    | false => rfl
    | true => rw [hl rfl]; rfl
  change execInputGatherDone n ⟨second, reads⟩ s = _
  unfold execInputGatherDone sectionReady
  simp only [hw, hs, hp, hopen, hg, Bool.not_true, Bool.false_eq_true, if_false]

/-! ### An output frame -/

theorem countFixes_fab (n : Fin 16) (k : Nat) (s : State) : (countFixes n k s).fab = s.fab := by
  induction k generalizing s with
  | zero => rfl
  | succ k ih =>
    have h : (countCorrected s n).fab = s.fab := by
      unfold countCorrected addPlace
      split <;> simp
    exact (ih _).trans h

theorem SlotFrame.placeOf {s t : State} {n : Fin 16} (h : SlotFrame s t n) (m : Fin 16) : placeOf t m = placeOf s m := by
  have hmap (p : Fin 16) : t.nat Ix.latEngMap p.val = s.nat Ix.latEngMap p.val := by
    unfold State.nat State.int
    rw [h.regs Ix.latEngMap p.val rfl]
  unfold Machine.placeOf
  simp only [hmap]

/-- A frame of a tick that the store does not hold yet is stored, with its tag (R102, R144). -/
theorem storeOutput_stores {s : State} {p : Fin 16} {k tag : Nat} (ws : List Word) (low : List Bool)
    (h : ((s.source (0x3000 + 256 * p.val + k)).hist.head?.map (fun f => f.tag)) ≠ some tag) :
    ∃ r0 r, storeOutput s p k tag ws low =
        (s.setSource (0x3000 + 256 * p.val + k) r0).setSource (0x3000 + 256 * p.val + k) r ∧
      r.hist = { tag := tag, words := ws, low := low, npcm := false, bad := false } ::
        (s.source (0x3000 + 256 * p.val + k)).hist.filter (fun f => f.tag % 3 != tag % 3) := by
  unfold storeOutput putFrame
  simp only [h, if_false, source_setSource_self]
  exact ⟨_, _, rfl, rfl⟩

/-- A frame of the engine that holds a place, with the tag of the tick and no move in progress, goes to the store. -/
theorem deliverPost_stores {s : State} {n p : Fin 16} {k tag : Nat} {ws : List Word} {low : List Bool} (hm : s.rsv.move = none)
    (hp : placeOf s n = some p) (hi : (s.engine n).image ≠ none) (ht : tag = s.tag) :
    deliverPost s n k tag ws low = storeOutput s p k tag ws low := by
  have himg : (s.engine n).image.isNone = false := Option.isNone_eq_false_iff.mpr (Option.isSome_iff_ne_none.mpr hi)
  unfold deliverPost
  simp [hm, hp, himg, ht]

/-- The words that the copy of slot `k` corrected, by memory and address (R57). -/
def copyFixed (s : State) (e : Engine) (k : Nat) (reads : FrameReads) : List (Nat × Nat) :=
  (reads.fixed.eraseDups.filter (fun j => decide (j < s.ticklen))).map
    (fun j => (1, ((mapGet (fun _ => 0) k e.loc.outMap).toNat % 65536 + j) % 65536))

/-- The engine once the frame at the head of a queue has been copied (R57, R103). -/
def dequeued (e : Engine) (second : Bool) (rest fixed : List (Nat × Nat)) : Engine :=
  { e with q1 := if second then e.q1 else rest, q2 := if second then rest else e.q2, fix := e.fix ++ fixed }

/-- The block once the copy of a frame has left the queue, and the words it corrected have been counted. -/
def frameCopied (s : State) (n : Fin 16) (second : Bool) (rest fixed : List (Nat × Nat)) : State :=
  countFixes n fixed.length (s.setEngine n (dequeued (s.engine n) second rest fixed))

section
variable {s : State} {n p : Fin 16} {second : Bool} {reads : FrameReads} {k tag : Nat} {rest fixed : List (Nat × Nat)}

theorem outputFrameCopied_good (hq : (if second then (s.engine n).q2 else (s.engine n).q1) = (k, tag) :: rest)
    (hb : reads.bad = false) :
    let e := s.engine n
    exec (.outputFrameCopied n second reads) s =
      .next (deliverPost (frameCopied s n second rest (copyFixed s e k reads)) n k tag
        (startFade e.fadeIn (xWords e ((mapGet (fun _ => 0) k e.loc.outMap).toNat % 65536) s.ticklen))
        (startLow e.fadeIn s.ticklen)) := by
  change execOutputFrameCopied n second reads s = _
  unfold execOutputFrameCopied
  simp only [hq, hb, Bool.false_eq_true, if_false]
  cases second <;> rfl

theorem frameCopied_slotAt : SlotAt (s.setEngine n (dequeued (s.engine n) second rest fixed)) (frameCopied s n second rest fixed) n :=
  countFixes_slotAt ..

theorem frameCopied_frame : SlotFrame s (frameCopied s n second rest fixed) n :=
  (setEngine_slot s n _).trans frameCopied_slotAt.1

theorem frameCopied_engine : (frameCopied s n second rest fixed).engine n = dequeued (s.engine n) second rest fixed :=
  frameCopied_slotAt.2.trans (engine_setEngine_self ..)

theorem frameCopied_source (j : Nat) : (frameCopied s n second rest fixed).source j = s.source j := by
  obtain ⟨-, -, -, hlat, -⟩ := (frameCopied_frame (s := s) (n := n) (second := second) (rest := rest) (fixed := fixed)).rest
  unfold State.source
  rw [hlat]

theorem frameCopied_tag : (frameCopied s n second rest fixed).tag = s.tag := by
  obtain ⟨-, -, hclk, -⟩ := (frameCopied_frame (s := s) (n := n) (second := second) (rest := rest) (fixed := fixed)).rest
  unfold State.tag
  rw [hclk]

theorem frameCopied_fab : (frameCopied s n second rest fixed).fab = s.fab := (countFixes_fab ..).trans (setEngine_fab ..)

/-- The copy of a good frame: it leaves the queue, and the store takes it. -/
theorem outputFrameCopied_stores (hq : (if second then (s.engine n).q2 else (s.engine n).q1) = (k, s.tag) :: rest)
    (hm : s.rsv.move = none) (hp : placeOf s n = some p) (hi : (s.engine n).image ≠ none) (hf : (s.engine n).fadeIn = 0)
    (hb : reads.bad = false) :
    let e := s.engine n
    exec (.outputFrameCopied n second reads) s =
      .next (storeOutput (frameCopied s n second rest (copyFixed s e k reads)) p k s.tag
        (xWords e ((mapGet (fun _ => 0) k e.loc.outMap).toNat % 65536) s.ticklen) []) := by
  intro e
  let t := frameCopied s n second rest (copyFixed s e k reads)
  have hmove : t.rsv.move = none := (countFixes_move n _ _).trans (by rw [setEngine_rsv, hm])
  have hplace : placeOf t n = some p := (frameCopied_frame.placeOf n).trans hp
  have himage : (t.engine n).image ≠ none := by
    rw [frameCopied_engine]
    exact hi
  rw [outputFrameCopied_good hq hb, hf]
  exact congrArg Host.Outcome.next (deliverPost_stores hmove hplace himage frameCopied_tag.symm)

end

end Sys2Proof.Machine

open Sys2Proof Sys2Proof.Machine

/-- Settles O17: `sectionReady` for the inputs; for an output, what `storeOutput` does to the block once the copy has counted
the words it corrected. -/
theorem tickTransfersMoveFrames : Obligations.TickTransfersMoveFrames := by
  unfold Obligations.TickTransfersMoveFrames
  intro s n second e
  refine ⟨fun reads p hw hs hp hi hl hg => ⟨_, inputGatherDone_ready hw hs hp hi hl hg, ?_, fun h0 => ?_, fun m hm => ?_⟩,
    fun reads k rest p hq hm hp _ hi hf hb => ?_⟩
  · unfold sectionReady
    rw [engine_setEngine_self]
    cases second <;> rfl
  · unfold sectionReady
    rw [engine_setEngine_self, h0]
    rfl
  · have hgather := engine_of_engines (gatherSlots_engines s p (slotsOf e.loc.inMap second) reads) m
    exact ((engine_setEngine_ne _ hm _).trans (fillInputs_engine_ne _ p n _ hm)).trans hgather
  · intro i a fixed frame hnew
    have hx : exec (.outputFrameCopied n second reads) s =
        .next (storeOutput (frameCopied s n second rest fixed) p k s.tag frame.words []) :=
      outputFrameCopied_stores hq hm hp hi hf hb
    obtain ⟨r0, r, hstore, hhist⟩ := storeOutput_stores (s := frameCopied s n second rest fixed) frame.words []
      (by rw [frameCopied_source]; exact hnew)
    rw [hstore] at hx
    refine ⟨_, hx, frameCopied_engine, ?_, fun j hj => ?_, frameCopied_fab, fun h0 => ?_⟩
    · rw [source_setSource_self, hhist, frameCopied_source]
    · rw [source_setSource_ne _ hj, source_setSource_ne _ hj, frameCopied_source]
    · have hnil : fixed = [] := by simp [fixed, h0]
      rw [hnil]
      rfl
end

section
/-! The reply to a frame (R189 to R196): sending it, and taking the frames that wait behind it, changes the controller, what has
left the block, and the counts and sessions it reports; nothing else. -/

namespace Sys2Proof.Machine

/-- The registers that answering a frame may change: those of the event log, the counts of frames and the reports of sessions
(R204, R206). -/
def replyIx (ix : Nat) : Bool :=
  isLogIx ix || ix == Ix.ctlFramesOk || ix == Ix.ctlFramesRej || ix == Ix.ctlSessState || ix == Ix.ctlSessCounter ||
    ix == Ix.ctlSessPeer

/-- The state without what answering a frame may change. -/
def State.stripReply (s : State) : State :=
  { s with dict := [], hp := HpSt.reset, ctl := CtlSt.reset, out := [], pair := { s.pair with replies := [] } }

/-- From `s` to `t` frames have been answered, and nothing else has happened. -/
structure Replied (s t : State) : Prop where
  same : t.stripReply = s.stripReply
  obj : ∀ ix sub, replyIx ix = false → t.obj ix sub = s.obj ix sub

section
variable {s t u : State}

theorem Replied.refl (s : State) : Replied s s := ⟨rfl, fun _ _ _ => rfl⟩

theorem Replied.trans (h : Replied s t) (k : Replied t u) : Replied s u :=
  ⟨k.same.trans h.same, fun ix sub a => (k.obj ix sub a).trans (h.obj ix sub a)⟩

theorem Replied.ite {c : Prop} [Decidable c] (ht : Replied s t) (hu : Replied s u) : Replied s (if c then t else u) := by
  split
  · exact ht
  · exact hu

theorem Replied.setNat (s : State) {ix : Nat} (hx : replyIx ix = true) (sub n : Nat) : Replied s (s.setNat ix sub n) := by
  refine ⟨?_, fun jx sub' a => obj_setObj_ne s (objKey_ne_index ?_) _⟩
  · unfold State.stripReply State.setNat State.setObj
    rfl
  · rintro rfl
    rw [hx] at a
    cases a

theorem isLogIx_of_replyIx {ix : Nat} (h : replyIx ix = false) : isLogIx ix = false := by
  simp only [replyIx, Bool.or_eq_false_iff] at h
  simp only [h]

theorem LogOnly.replied (h : LogOnly s t) : Replied s t := by
  have k := congrArg State.stripReply h.same
  exact ⟨k, fun ix sub a => h.obj ix sub (isLogIx_of_replyIx a)⟩

/-! ### What stays -/

theorem Replied.writes (h : Replied s t) : t.writes = s.writes := by
  have k := congrArg State.writes h.same
  exact k
theorem Replied.engines (h : Replied s t) : t.engines = s.engines := by
  have k := congrArg State.engines h.same
  exact k
theorem Replied.syn (h : Replied s t) : t.syn = s.syn := by
  have k := congrArg State.syn h.same
  exact k
theorem Replied.cue (h : Replied s t) : t.cue = s.cue := by
  have k := congrArg State.cue h.same
  exact k

theorem Replied.nat (h : Replied s t) {ix : Nat} (hx : replyIx ix = false) (sub : Nat) : t.nat ix sub = s.nat ix sub := by
  unfold State.nat State.int
  rw [h.obj ix sub hx]

theorem Replied.flag (h : Replied s t) {ix : Nat} (hx : replyIx ix = false) (sub : Nat) : t.flag ix sub = s.flag ix sub := by
  unfold State.flag State.int
  rw [h.obj ix sub hx]

end

/-! ### Each part of an answer -/

theorem setSess_replied (s : State) (k : Nat) (x : Option Session) : Replied s (setSess s k x) := by
  let s1 : State := { s with ctl := { s.ctl with sessions := mapSet (fun _ => none) k x s.ctl.sessions } }
  have h1 : Replied s s1 := ⟨rfl, fun _ _ _ => rfl⟩
  have reports (a b c : Nat) : Replied s1 (((s1.setNat Ix.ctlSessState k a).setNat Ix.ctlSessCounter k b).setNat Ix.ctlSessPeer k c) :=
    ((Replied.setNat s1 (ix := Ix.ctlSessState) rfl k a).trans (Replied.setNat _ (ix := Ix.ctlSessCounter) rfl k b)).trans
      (Replied.setNat _ (ix := Ix.ctlSessPeer) rfl k c)
  unfold setSess
  cases x with
  | none => exact h1.trans (reports 0 0 0)
  | some y => exact h1.trans (reports _ _ _)

theorem mapSess_replied (s : State) (k : Nat) (f : Session → Session) : Replied s (mapSess s k f) := by
  unfold mapSess
  split
  · exact setSess_replied ..
  · exact Replied.refl s

theorem sendTo_replied (s : State) (via : Via) (peer port : Nat) (b : List Byte) : Replied s (sendTo s via peer port b) := by
  cases via <;> exact ⟨rfl, fun _ _ _ => rfl⟩

theorem refuse_replied (s : State) (q : Queued) (status : Nat) : Replied s (refuse s q status) := by
  have h1 : Replied s (s.addHold Ix.ctlFramesRej status 1) := Replied.setNat s (ix := Ix.ctlFramesRej) rfl _ _
  unfold refuse
  exact (h1.trans ((alarm_logOnly _ _ _).replied.ite ((alarm_logOnly _ _ _).replied.ite (Replied.refl _)))).trans
    (sendTo_replied ..)

theorem beginServing_replied (s : State) (q : Queued) (session : Nat) (keyed : Bool) (ops : List (Nat × Op)) :
    Replied s (beginServing s q session keyed ops) := ⟨rfl, fun _ _ _ => rfl⟩

theorem countOk_replied (s : State) (via : Via) : Replied s (countOk s via) :=
  Replied.setNat s (ix := Ix.ctlFramesOk) rfl _ _

theorem takeOpen_replied (s : State) (q : Queued) (ops : List (Nat × Op)) : Replied s (takeOpen s q ops) := by
  unfold takeOpen
  refine Replied.ite ?_ (.ite (refuse_replied ..) (.ite (refuse_replied ..) (.ite (refuse_replied ..) ?_)))
  · exact ((countOk_replied s _).trans (alarm_logOnly _ _ _).replied).trans (sendTo_replied ..)
  · have hctr (c : CtlSt) : Replied s { s with ctl := c } := ⟨rfl, fun _ _ _ => rfl⟩
    exact ((hctr _).trans (countOk_replied ..)).trans (beginServing_replied ..)

theorem takeFrame_replied (s : State) (q : Queued) (ops : List (Nat × Op)) : Replied s (takeFrame s q ops) := by
  unfold takeFrame
  dsimp only
  split
  · exact refuse_replied ..
  · refine Replied.ite (refuse_replied ..) (.ite (refuse_replied ..) (.ite (refuse_replied ..) (.ite ?_ ?_)))
    · exact .ite (.ite (Replied.refl s) (sendTo_replied ..)) (refuse_replied ..)
    · exact ((setSess_replied s _ _).trans (countOk_replied ..)).trans (beginServing_replied ..)

theorem takeQueued_replied (s : State) (q : Queued) : Replied s (takeQueued s q) := by
  unfold takeQueued
  refine Replied.ite (refuse_replied ..) ?_
  split
  · exact refuse_replied ..
  · exact .ite (takeOpen_replied ..) (takeFrame_replied ..)

theorem hpTake_replied (s : State) : Replied s (hpTake s) := by
  unfold hpTake
  exact .ite ⟨rfl, fun _ _ _ => rfl⟩ (Replied.refl s)

/-- The controller goes on to the frames that wait (R189). -/
theorem takeFrames_replied (n : Nat) (s : State) : Replied s (takeFrames n s) := by
  induction n generalizing s with
  | zero => exact Replied.refl s
  | succ n ih =>
    unfold takeFrames
    refine Replied.ite (Replied.refl s) ?_
    split
    · exact Replied.refl s
    · next q _ =>
      have hq : Replied s { s with ctl := { s.ctl with queue := s.ctl.queue.drop 1 } } := ⟨rfl, fun _ _ _ => rfl⟩
      exact ((hq.trans (takeQueued_replied _ q)).trans (hpTake_replied _)).trans (ih _)

theorem serveNext_replied (s : State) : Replied s (serveNext s) := (hpTake_replied s).trans (takeFrames_replied ..)

/-- A reply that nothing follows is sent, or held back (R331). -/
theorem sendReply_replied (s : State) (v : Serving) (b : List Byte) (h : nextOf s v = .none) : Replied s (sendReply s v b) := by
  unfold sendReply
  rw [h]
  exact .ite ⟨rfl, fun _ _ _ => rfl⟩ (sendTo_replied ..)

/-! ### A frame of one WRITE to a write-only register -/

/-- The frame in service has been taken from the controller. -/
def released (s : State) : State := { s with ctl := { s.ctl with serving := none } }

/-- A write-only register whose write brings nothing with its reply: no key is unwrapped, no session closes, no reset follows
(R189, R196, R206, R446). -/
def actsAlone (ix : Nat) : Bool :=
  writeOnly ix && !wraps ix && ix != Ix.phasePlan && ix != Ix.ctlCredPriv && ix != Ix.bootReset && ix != Ix.ctlCredWrap

theorem objRow_ix {ix : Nat} {r : ObjRow} (h : objRow ix = some r) : r.ix = ix := by
  have found (l : List ObjRow) (h : findRow ix l = some r) : r.ix = ix := by
    induction l with
    | nil => cases h
    | cons q l ih =>
      unfold findRow at h
      split at h
      · next hq =>
        cases h
        exact hq
      · exact ih h
  exact found _ h

section
variable {s : State} {v : Serving} {op : Op} {r : ObjRow} {x : Val}

/-- The frame in service once its write has been accepted, its result added (R189). -/
def acceptedServing (s : State) (v : Serving) (op : Op) (r : ObjRow) (x : Val) : Serving :=
  { v with
    accepts := [{ ix := r.ix, sub := op.sub, val := x, priv := privOf s v }]
    mirrored := v.mirrored || isPairObj r.ix
    results := v.results ++ [{ op := Oc.write, status := 0, data := [] }]
    ops := [] }

theorem LastWrite.badSub_none (h : LastWrite s v op r x) : badSub r op = none := by
  obtain ⟨hcount, hsub, -⟩ := h.form
  simp [badSub, hcount, upFrom, hsub]

theorem LastWrite.writeGate_zero (h : LastWrite s v op r x) : writeGate s v r = 0 := by
  obtain ⟨hw, hpriv, hkeyed, hactive⟩ := h.gate
  have hkey : (r.acc.keyed && !v.keyed) = false := by
    cases hk : r.acc.keyed with
    | false => rfl
    | true => rw [hkeyed hk]; rfl
  simp [writeGate, firstCode, hw, hkey, hactive, Nat.not_lt.mpr hpriv]

/-- The one value of the write is accepted (R189). -/
theorem LastWrite.acceptWrites_one (h : LastWrite s v op r x) (hp : r.ix ≠ Ix.phasePlan) (hw : wraps r.ix = false) :
    acceptWrites s v r [(op.sub, x)] none =
      carried s { v with accepts := [{ ix := r.ix, sub := op.sub, val := x, priv := privOf s v }]
                         mirrored := v.mirrored || isPairObj r.ix } [] := by
  simp [acceptWrites, hp, checkWrites, h.check, acceptVal, hw, h.slots, h.alone.1]

theorem LastWrite.doWrite_eq (h : LastWrite s v op r x) (hp : r.ix ≠ Ix.phasePlan) (hw : wraps r.ix = false) :
    doWrite s v op = carried s { v with accepts := [{ ix := r.ix, sub := op.sub, val := x, priv := privOf s v }]
                                        mirrored := v.mirrored || isPairObj r.ix } [] := by
  obtain ⟨hcount, -, hty, hdom⟩ := h.form
  simp [doWrite, h.row, firstCode, hcount, hty, hdom, h.badSub_none, h.value, h.writeGate_zero, opSubs, upFrom,
    h.acceptWrites_one hp hw]

/-- The write is the last operation of its frame, and its result fits the reply: the frame is complete. -/
theorem LastWrite.carryOut_eq (h : LastWrite s v op r x) (hp : r.ix ≠ Ix.phasePlan) (hw : wraps r.ix = false) :
    carryOut s v Oc.write op [] = completeFrame s (acceptedServing s v op r x) := by
  have hdo : doOp s v Oc.write op = doWrite s v op := rfl
  have hfits : resultFits s { v with accepts := [{ ix := r.ix, sub := op.sub, val := x, priv := privOf s v }]
                                     mirrored := v.mirrored || isPairObj r.ix } { op := Oc.write, status := 0, data := [] } [] = true :=
    decide_eq_true h.fits
  unfold carryOut
  rw [hdo, h.doWrite_eq hp hw]
  simp only [carried, hfits]
  rfl

/-- Nothing follows the reply to a frame that writes one register of `actsAlone`. -/
theorem nextOf_accepted (t : State) (ha : actsAlone r.ix = true) (hc : v.closing = false) :
    nextOf t (acceptedServing s v op r x) = .none := by
  simp only [actsAlone, Bool.and_eq_true, Bool.not_eq_true', bne_iff_ne] at ha
  obtain ⟨⟨⟨-, hpriv⟩, hreset⟩, hwrap⟩ := ha
  simp [nextOf, acceptedServing, hc, hpriv, hreset, hwrap, AfterReply.none]

/-- The register acts when its frame is complete (R186), and the frame is answered. -/
theorem completeFrame_acts (ha : actsAlone r.ix = true) (hc : v.closing = false) :
    Replied (actWriteOnly (released s) r.ix op.sub x.toNat) (completeFrame s (acceptedServing s v op r x)) := by
  have hone : acceptOne (released s) { ix := r.ix, sub := op.sub, val := x, priv := privOf s v } none =
      actWriteOnly (released s) r.ix op.sub x.toNat := by
    simp only [actsAlone, Bool.and_eq_true] at ha
    exact if_pos ha.1.1.1.1.1
  rw [← hone]
  exact ((mapSess_replied _ _ _).trans (sendReply_replied _ _ _ (nextOf_accepted _ ha hc))).trans (serveNext_replied _)

/-- The command of the register carries the write out: the register acts, and the frame is answered. -/
theorem LastWrite.acts {c : Instr} {ix : Nat} (h : LastWrite s v op r x) (hx : exec c s = .next (serve c s)) (hix : r.ix = ix)
    (ha : actsAlone ix = true) (hrow : writeRow ix (field op.data 0 1) = c) :
    ∃ t, exec c s = .next t ∧ Replied (actWriteOnly (released s) ix op.sub x.toNat) t := by
  subst hix
  obtain ⟨⟨hruns, hserving, hops⟩, ⟨-, hclosing⟩⟩ := And.intro h.served h.alone
  have hrule : rowOf Oc.write op = c := by
    rw [← hrow, objRow_ix h.row]
    rfl
  have hserve : serve c s = carryOut s v Oc.write op [] := by
    unfold serve
    simp only [hserving, hops, hruns, hrule, beq_self_eq_true, Bool.and_self, if_true]
  have hplain := ha
  simp only [actsAlone, Bool.and_eq_true, Bool.not_eq_true', bne_iff_ne] at hplain
  obtain ⟨⟨⟨⟨⟨-, hwraps⟩, hplan⟩, -⟩, -⟩, -⟩ := hplain
  rw [hx, hserve, h.carryOut_eq hplan hwraps]
  exact ⟨_, rfl, completeFrame_acts ha hclosing⟩

end

end Sys2Proof.Machine
end

section
/-! What each write-only register does when it is written (R75, R121, R139, R313, R316, R405, R437). -/

namespace Sys2Proof.Machine

section
variable {s : State}

theorem actWriteOnly_engFlagsClr (sub n : Nat) : actWriteOnly s Ix.engFlagsClr sub n =
    s.setNat Ix.engFlags sub (s.nat Ix.engFlags sub - (s.nat Ix.engFlags sub &&& n)) := rfl

theorem actWriteOnly_busSatClr (sub : Nat) : actWriteOnly s Ix.busSatClr sub 1 =
    (s.setFlag Ix.busSat sub false).setFlag Ix.busOvf sub false := rfl

theorem actWriteOnly_limGrClr (sub : Nat) : actWriteOnly s Ix.limGrClr sub 1 = s.setNat Ix.limGrMax sub 0 := rfl

/-- RAMP_START reads 0 again, and its profile is due, its start tick still to be read (R313). -/
theorem actWriteOnly_rampStart (sub : Nat) : actWriteOnly s Ix.rampStart sub 1 =
    { (s.setNat Ix.rampStart sub 1).setNat Ix.rampStart sub 0 with
      syn := { s.syn with due := mapPut sub none s.syn.due } } := by
  change landRampStart (s.setNat Ix.rampStart sub 1) sub = _
  unfold landRampStart
  rw [nat_setNat_self, if_neg (by decide)]
  rfl

/-- CLK_SYNC_ARM reads 0 again, and SYNC is armed in ONE-SHOT mode (R316). -/
theorem actWriteOnly_clkSyncArm (sub : Nat) (hm : s.nat Ix.clkSyncMode % 4 = 1) : actWriteOnly s Ix.clkSyncArm sub 1 =
    ((s.setNat Ix.clkSyncArm 0 1).setNat Ix.clkSyncArm 0 0).setNat Ix.clkSyncState 0 1 := by
  change landSyncArm (s.setNat Ix.clkSyncArm 0 1) = _
  unfold landSyncArm
  have hmode : (s.setNat Ix.clkSyncArm 0 1).nat Ix.clkSyncMode = s.nat Ix.clkSyncMode := nat_setNat_ne s (objKey_ne_index (by decide)) _
  exact if_pos ⟨nat_setNat_self .., by rw [hmode, hm]⟩

theorem actWriteOnly_pmuOvfClr (sub n : Nat) : actWriteOnly s Ix.pmuOvfClr sub n =
    s.setNat Ix.pmuOvf 0 (s.nat Ix.pmuOvf - (s.nat Ix.pmuOvf &&& n)) := rfl

theorem flag_setFlag_ne (s : State) {ix sub jx sub' : Nat} (h : objKey jx sub' ≠ objKey ix sub) (b : Bool) :
    (s.setFlag ix sub b).flag jx sub' = s.flag jx sub' := by
  unfold State.flag State.int State.setFlag
  rw [obj_setObj_ne s h]

/-! ### The counters of a place -/

/-- PMU_ENG_OVF_CLR on the counters of a place (R405). -/
def clearOvf (n : Nat) (pm : EngPmu) : EngPmu := { pm with ovf := pm.ovf &&& ~~~(BitVec.ofNat 4 n) }

theorem clearOvf_clearOvf (n : Nat) (pm : EngPmu) : clearOvf n (clearOvf n pm) = clearOvf n pm := by
  simp [clearOvf, BitVec.and_assoc]

theorem actWriteOnly_pmuEngOvfClr (sub n : Nat) : actWriteOnly s Ix.pmuEngOvfClr sub n =
    eachPmu s (Fin.ofNat 16 sub) (clearOvf n) := rfl

/-- A change that made twice is made once reaches the counters of the engine that holds the place, whether or not a move keeps
them on a second engine too (R395). -/
theorem eachPmu_place {p : Fin 16} {f : EngPmu → EngPmu} (hf : ∀ pm, f (f pm) = f pm) :
    ((eachPmu s p f).engine (engineOf s p)).loc.pmu = f (s.engine (engineOf s p)).loc.pmu := by
  have both (leaf : Fin 16) : (([engineOf s p, leaf].foldl (fun t n =>
      t.setEngine n { t.engine n with loc := { (t.engine n).loc with pmu := f (t.engine n).loc.pmu } }) s).engine
        (engineOf s p)).loc.pmu = f (s.engine (engineOf s p)).loc.pmu := by
    by_cases h : engineOf s p = leaf
    · subst h
      simp [hf]
    · simp [engine_setEngine_ne _ h]
  unfold eachPmu countersOf
  split
  · split
    · exact both _
    · simp
  · simp

theorem eachPmu_writes (s : State) (p : Fin 16) (f : EngPmu → EngPmu) : (eachPmu s p f).writes = s.writes := by
  unfold eachPmu
  induction countersOf s p generalizing s with
  | nil => rfl
  | cons n l ih => exact ih _

/-! ### The cue stage -/

@[simp] theorem cueOf_setCue_self (s : State) (n : Fin 2) (c : CueCh) : cueOf (setCue s n c) n = c := by
  unfold cueOf setCue
  split <;> rfl

theorem cueOf_of_cue {s t : State} (h : t.cue = s.cue) (ch : Fin 2) : cueOf t ch = cueOf s ch := by
  simp only [cueOf, h]

theorem actWriteOnly_cueCmd (ch : Fin 2) (n : Nat) : actWriteOnly s Ix.cueCmd ch.val n = cueCommand s ch n :=
  congrArg (fun c => cueCommand s c n) (Fin.ext (Nat.mod_eq_of_lt ch.isLt))

/-- CLEAR on a channel that is locked out (R437). -/
theorem cueCommand_clear {ch : Fin 2} (he : s.flag Ix.cueEn ch.val = true) (hl : cueState s ch = CueS.locked) :
    cueCommand s ch 1 = cueChecks (s.setNat Ix.cueRetries ch.val 0) ch false := by
  unfold cueCommand
  simp [he, hl]

theorem cueChecks_engines (s : State) (ch : Fin 2) (b : Bool) : (cueChecks s ch b).engines = s.engines := by
  simp [cueChecks, setCueState]

theorem cueChecks_writes (s : State) (ch : Fin 2) (b : Bool) : (cueChecks s ch b).writes = s.writes := by
  simp [cueChecks, setCueState]

theorem cueState_cueChecks (s : State) (ch : Fin 2) (b : Bool) : cueState (cueChecks s ch b) ch =
    if (cueOf s ch).supply ∨ (cueOf s ch).hot then CueS.shielded else CueS.checking := by
  simp [cueChecks, setCueState, cueState]

theorem nat_cueChecks_ne (s : State) (ch : Fin 2) (b : Bool) {ix sub : Nat} (h : objKey ix sub ≠ objKey Ix.cueState ch.val) :
    (cueChecks s ch b).nat ix sub = s.nat ix sub := by
  unfold cueChecks setCueState
  rw [nat_setNat_ne _ h]
  exact nat_of_dict (setCue_dict ..) ..

/-- RECHECK on a channel that plays (R437). -/
theorem cueCommand_recheck {ch : Fin 2} (he : s.flag Ix.cueEn ch.val = true) (hp : cuePlays s ch = true) :
    cueCommand s ch 2 = setCue s ch { cueOf s ch with
      fade := fadeOut (cueOf s ch).fade, startDue := false
      next := if (cueOf s ch).next = .shield then .shield else .check, counts := false } := by
  have hl : cueState s ch ≠ CueS.locked := by
    intro h
    rw [cuePlays, h] at hp
    exact absurd hp (by decide)
  unfold cueCommand
  simp only [he, hl, hp, Bool.not_true, Bool.false_eq_true, if_false, if_true]

end

end Sys2Proof.Machine

open Sys2Proof Sys2Proof.Machine

/-- Settles O23, register by register: what it does at its write (`actWriteOnly`) stands when its frame has been answered. -/
theorem writeOnlyRegistersActAtOnce : Obligations.WriteOnlyRegistersActAtOnce := by
  unfold Obligations.WriteOnlyRegistersActAtOnce
  intro s v op r x h sub n cleared pm
  refine ⟨fun hix => ?_, fun hix h1 => ?_, fun hix h1 => ?_, fun hix h1 => ?_, fun hix h1 hm => ?_, fun hix => ?_, fun hix => ?_,
    fun ch hix hch he => ⟨fun hf h1 hl => ?_, fun hf h2 hp => ?_⟩⟩
  · obtain ⟨t, hx, k⟩ := h.acts (c := .engFlagsClr) rfl hix (by decide) rfl
    rw [actWriteOnly_engFlagsClr] at k
    exact ⟨t, hx, (k.nat rfl _).trans (nat_setNat_self ..), k.engines.trans (setNat_engines ..), k.writes.trans (setNat_writes ..)⟩
  · obtain ⟨t, hx, k⟩ := h.acts (c := .busSatClr) rfl hix (by decide) rfl
    rw [show x.toNat = 1 from h1, actWriteOnly_busSatClr] at k
    refine ⟨t, hx, (k.flag rfl _).trans ?_, (k.flag rfl _).trans (flag_setFlag_self ..), ?_, ?_⟩
    · exact (flag_setFlag_ne _ (objKey_ne_index (by decide)) _).trans (flag_setFlag_self ..)
    · exact k.engines.trans ((setFlag_engines ..).trans (setFlag_engines ..))
    · exact k.writes.trans ((setFlag_writes ..).trans (setFlag_writes ..))
  · obtain ⟨t, hx, k⟩ := h.acts (c := .limGrClr) rfl hix (by decide) rfl
    rw [show x.toNat = 1 from h1, actWriteOnly_limGrClr] at k
    exact ⟨t, hx, (k.nat rfl _).trans (nat_setNat_self ..), k.engines.trans (setNat_engines ..), k.writes.trans (setNat_writes ..)⟩
  · obtain ⟨t, hx, k⟩ := h.acts (c := .rampStart) rfl hix (by decide) rfl
    rw [show x.toNat = 1 from h1, actWriteOnly_rampStart] at k
    refine ⟨t, hx, (k.nat rfl _).trans (nat_setNat_self ..), ?_, ?_, k.engines, k.writes⟩
    · rw [k.syn]
      exact mapFind_mapPut_self ..
    · rw [k.syn]
      rfl
  · obtain ⟨t, hx, k⟩ := h.acts (c := .clkSyncArm) rfl hix (by decide) rfl
    rw [show x.toNat = 1 from h1, actWriteOnly_clkSyncArm (s := released s) _ hm] at k
    exact ⟨t, hx, (k.nat rfl _).trans (nat_setNat_self ..), k.engines, k.writes⟩
  · obtain ⟨t, hx, k⟩ := h.acts (c := .pmuEngOvfClr) rfl hix (by decide) rfl
    rw [actWriteOnly_pmuEngOvfClr] at k
    have hpm : pm t = clearOvf n (pm s) :=
      (congrArg (fun e : Engine => e.loc.pmu) (engine_of_engines k.engines _)).trans (eachPmu_place (s := released s) (clearOvf_clearOvf n))
    refine ⟨t, hx, ?_⟩
    rw [hpm]
    exact ⟨rfl, rfl, rfl, k.writes.trans (eachPmu_writes ..)⟩
  · obtain ⟨t, hx, k⟩ := h.acts (c := .pmuOvfClr) rfl hix (by decide) rfl
    rw [actWriteOnly_pmuOvfClr] at k
    exact ⟨t, hx, (k.nat rfl _).trans (nat_setNat_self ..), k.engines.trans (setNat_engines ..), k.writes.trans (setNat_writes ..)⟩
  · obtain ⟨t, hx, k⟩ := h.acts (c := .clear) rfl hix (by decide) (by rw [hf]; rfl)
    subst sub n
    rw [← hch] at he k ⊢
    rw [h1, actWriteOnly_cueCmd, cueCommand_clear (s := released s) he hl] at k
    refine ⟨t, hx, ?_, ?_, ?_, ?_⟩
    · exact (k.nat rfl _).trans ((nat_cueChecks_ne _ _ _ (objKey_ne_index (by decide))).trans (nat_setNat_self ..))
    · exact k.engines.trans ((cueChecks_engines ..).trans (setNat_engines ..))
    · exact k.writes.trans ((cueChecks_writes ..).trans (setNat_writes ..))
    · exact (k.nat rfl _).trans (cueState_cueChecks ..)
  · obtain ⟨t, hx, k⟩ := h.acts (c := .recheck) rfl hix (by decide) (by rw [hf]; rfl)
    subst sub n
    rw [← hch] at he k
    rw [h2, actWriteOnly_cueCmd, cueCommand_recheck (s := released s) he hp] at k
    have hcue := (cueOf_of_cue k.cue ch).trans (cueOf_setCue_self ..)
    refine ⟨t, hx, ?_⟩
    rw [hcue]
    exact ⟨rfl, rfl, k.engines.trans (setCue_engines ..), k.writes.trans (setCue_writes ..), rfl,
      (k.nat rfl _).trans (nat_of_dict (setCue_dict ..) ..)⟩
end

section
/-! Engine-local accesses, and the flow, loop and tick operations of the X slot (R84, R88, R91 to R95, R97, R100, R103, R104): each
answers the engine that found it with what the operation sets. -/

namespace Sys2Proof.Machine

section
variable {is : Issue} {s : State}

/-! ### Local accesses (R84, R104) -/

/-- LDL: the word that is read lands as that of a load does; what the read latches is latched at the end of the cycle (R88, R105). -/
theorem ldl_does {c : BitVec 7} {off : BitVec 13} (hr : SlotReady s is) :
    let e := slotFinds s is
    let r := localRead (tickView s e) .engine (4 * off.toNat) e
    SlotDoes (.ldl is c off) is s
      (flying e (result e 1 2 (.reg c r.1) :: (match latchOf (4 * off.toNat) r.2 with
        | some v => [result e 0 2 (.latch (4 * off.toNat) v)]
        | none => [])) []) := by
  refine hr.flies (act := localSlot c (4 * off.toNat)) rfl ?_ rfl
  unfold localSlot
  generalize localRead (tickView s (slotFinds s is)) .engine (4 * off.toNat) (slotFinds s is) = r
  obtain ⟨w, after⟩ := r
  dsimp only
  generalize latchOf (4 * off.toNat) after = latched
  cases latched with
  | none => simp [launchReg, launch_eq_flying]
  | some v => simp [launchReg, launch_eq_flying]

/-- STL: the register is written at the end of the issue cycle (R88). -/
theorem stl_does {c : BitVec 7} {off : BitVec 13} (hr : SlotReady s is) :
    let e := slotFinds s is
    SlotDoes (.stl is c off) is s
      (flying e [result e 0 2 (.loc (4 * off.toNat) (readCode e.rf e.loops.length c))] []) :=
  hr.flies rfl (congrArg SlotOut.ok (launch_eq_flying ..)) rfl

/-! ### Branches, calls and returns (R91, R92, R97) -/

/-- The engine whose bundle branches, past its delay slots: a taken branch counts (R91, R394). -/
def branching (t : Option (BitVec 13)) (rti : Bool) (e : Engine) : Engine :=
  { flying e [] [(0x09, 1)] with flow := some (.branch t rti) }

theorem branchSlot_taken {t : Option (BitVec 13)} {rti : Bool} {e : Engine} (h : flowIllegal e = false)
    (ht : (t.isSome || rti) = true) : branchSlot t rti e = .ok (branching t rti e) := by
  simp [branchSlot, h, ht, branching, noteEvent_eq_flying, flying]

theorem branchSlot_not_taken {e : Engine} (h : flowIllegal e = false) :
    branchSlot none false e = .ok { e with flow := some (.branch none false) } := by
  simp [branchSlot, h]

theorem branch_does {i : Instr} {act : TickView → Engine → SlotOut} {t : Option (BitVec 13)} {rti : Bool} (hr : SlotReady s is)
    (hl : flowIllegal (slotFinds s is) = false) (ht : (t.isSome || rti) = true) (hx : exec i s = .next (issueSlot is act s))
    (ha : act (tickView s (slotFinds s is)) (slotFinds s is) = branchSlot t rti (slotFinds s is)) :
    SlotDoes i is s (branching t rti (slotFinds s is)) :=
  hr.does hx (ha.trans (branchSlot_taken hl ht)) hr.loaded

/-- Bcc: not taken, its delay slots still issue (R91). -/
theorem bcc_does {cond : Cond} {target : BitVec 13} (hr : SlotReady s is) (hl : flowIllegal (slotFinds s is) = false) :
    let e := slotFinds s is
    SlotDoes (.bcc is cond target) is s
      (if condHolds e.rf cond then branching (some target) false e else { e with flow := some (.branch none false) }) := by
  intro e
  have hx : exec (.bcc is cond target) s = .next (issueSlot is (fun _ e =>
      branchSlot (if condHolds e.rf cond then some target else none) false e) s) := rfl
  split
  next hc =>
    exact branch_does hr hl rfl hx (by rw [if_pos hc])
  next hc =>
    exact hr.does hx (by rw [if_neg hc, branchSlot_not_taken hl]) hr.loaded

theorem call_does {target : BitVec 13} (hr : SlotReady s is) (hl : flowIllegal (slotFinds s is) = false)
    (hc : (slotFinds s is).calls.length < 8) :
    let e := slotFinds s is
    SlotDoes (.call is target) is s { branching (some target) false e with calls := (e.lastPc + 4) :: e.calls } := by
  refine hr.does (act := fun _ e => callSlot target e) rfl ?_ hr.loaded
  rw [callSlot, if_neg (Nat.ne_of_lt hc), branchSlot_taken hl rfl]
  rfl

theorem ret_does {t : BitVec 13} {rest : List (BitVec 13)} (hr : SlotReady s is) (hl : flowIllegal (slotFinds s is) = false)
    (hc : (slotFinds s is).calls = t :: rest) :
    SlotDoes (.ret is) is s { branching (some t) false (slotFinds s is) with calls := rest } := by
  refine hr.does (act := fun _ e => retSlot e) rfl ?_ hr.loaded
  rw [retSlot, hc]
  dsimp only
  rw [branchSlot_taken hl rfl]

/-! ### Loops and repeats (R93 to R95) -/

/-- The bundle being issued is one that a REP may end: not at LE, and where it is a delay slot, not the last one (R93). -/
theorem repSlot_ok {n : Nat} {e : Engine} (hrep : e.rep = 0) (hle : atLe e e.lastPc = false)
    (hb : ∀ b, e.branch = some b → 1 < b.left) : repSlot n e = .ok { e with flow := some (.rep n) } := by
  unfold repSlot
  cases hbr : e.branch with
  | none => simp [hrep, hle]
  | some b => simp [hrep, hle, hb b hbr]

theorem loopIllegal_false {e : Engine} (hb : e.branch = none) (hrep : e.rep = 0) : loopIllegal e = false := by
  simp [loopIllegal, hb, hrep]

theorem doSlot_ok {n : Nat} {fin : BitVec 13} {e : Engine} (hb : e.branch = none) (hrep : e.rep = 0)
    (hle : atLe e e.lastPc = false) (hlen : e.loops.length < 4) (hfin : (e.lastPc + 1).toNat + 1 ≤ fin.toNat)
    (hin : e.loops ≠ [] → fin.toNat < e.rf.le.toNat) : doSlot n fin e = .ok { e with flow := some (.doLoop n fin) } := by
  have hpast : ¬ fin.toNat < (nextPc e 1).toNat + 1 := Nat.not_lt.mpr hfin
  have hout : (!e.loops.isEmpty && decide (e.rf.le.toNat ≤ fin.toNat)) = false := by
    cases hl : e.loops with
    | nil => rfl
    | cons l ls =>
      have := hin (by simp [hl])
      simpa using this
  rw [doSlot, if_neg (Nat.ne_of_lt hlen), loopIllegal_false hb hrep, hle, hout, decide_eq_false hpast]
  rfl

/-- An operation that only says what follows its bundle. -/
theorem flow_does {i : Instr} {act : TickView → Engine → SlotOut} {f : FlowOp} (hr : SlotReady s is)
    (hx : exec i s = .next (issueSlot is act s))
    (ha : act (tickView s (slotFinds s is)) (slotFinds s is) = .ok { slotFinds s is with flow := some f }) :
    SlotDoes i is s { slotFinds s is with flow := some f } :=
  hr.does hx ha hr.loaded

theorem endl_does (hr : SlotReady s is) (hrep : (slotFinds s is).rep = 0) (hb : (slotFinds s is).branch = none)
    (hl : (slotFinds s is).loops ≠ []) : SlotDoes (.endl is) is s { slotFinds s is with flow := some .endl } := by
  refine flow_does hr rfl ?_
  simp [hl, loopIllegal_false hb hrep]

/-! ### Sections (R100, R103) -/

/-- WAITPHASE outside a section. -/
theorem waitSlot_ok {second : Bool} {e : Engine} (hb : e.branch = none) (hrep : e.rep = 0) (hs : e.sec = 0) :
    waitSlot second e = .ok { e with flow := some (.wait second) } := by
  simp [waitSlot, hs, loopIllegal_false hb hrep]

theorem queueSlots_bad (tv : TickView) (ks : List Nat) (e : Engine) : (queueSlots tv ks e).cur.bad = e.cur.bad := by
  unfold queueSlots
  dsimp only
  split <;> rfl

/-- DONE in a section. -/
theorem done_does (hr : SlotReady s is) (hb : (slotFinds s is).branch = none) (hrep : (slotFinds s is).rep = 0)
    (hs : (slotFinds s is).sec ≠ 0) :
    let e := slotFinds s is
    let ks : List Nat := (slotsOf e.loc.outMap (e.sec == 2)).filter (fun k => !e.posted.contains k)
    SlotDoes (.doneOp is) is s
      { noteEvent 0x13 1 (queueSlots (tickView s e) ks e) with flow := some (.done (e.sec == 2)), sec := 0 } := by
  refine hr.does (act := doneSlot) rfl ?_ fun hl => (queueSlots_bad ..).trans (hr.loaded hl)
  simp [doneSlot, hs, loopIllegal_false hb hrep]

/-- The queue of the open section's channel (R103). -/
def openQueue (e : Engine) : List (Nat × Nat) := if e.sec = 1 then e.q1 else e.q2

/-- The engine after a legal POST of slot `k`: a slot posted before is ignored, a full queue stalls it (R103). -/
def posted (tv : TickView) (k : Nat) (e : Engine) : Engine :=
  if e.posted.contains k then noteEvent 0x0F 1 e
  else if (openQueue e).length < 32 then queueSlots tv [k] e
  else { noteEvent 0x0F 1 e with stalled := some k }

theorem posted_bad (tv : TickView) (k : Nat) (e : Engine) : (posted tv k e).cur.bad = e.cur.bad := by
  unfold posted
  split
  · rfl
  · split
    · exact queueSlots_bad ..
    · rfl

theorem postSlot_ok {tv : TickView} {k : Nat} {e : Engine} (hb : e.branch = none) (hrep : e.rep = 0) (hs : e.sec ≠ 0)
    (hk : (slotsOf e.loc.outMap (e.sec == 2)).contains k = true) : postSlot k tv e = .ok (posted tv k e) := by
  rw [postSlot, loopIllegal_false hb hrep, hk, decide_eq_false hs]
  simp only [posted, apply_ite SlotOut.ok]
  rfl

theorem post_does {i : Instr} {act : TickView → Engine → SlotOut} {k : Nat} (hr : SlotReady s is)
    (hx : exec i s = .next (issueSlot is act s))
    (ha : act (tickView s (slotFinds s is)) (slotFinds s is) = postSlot k (tickView s (slotFinds s is)) (slotFinds s is))
    (hb : (slotFinds s is).branch = none) (hrep : (slotFinds s is).rep = 0) (hs : (slotFinds s is).sec ≠ 0)
    (hk : (slotsOf (slotFinds s is).loc.outMap ((slotFinds s is).sec == 2)).contains k = true) :
    SlotDoes i is s (posted (tickView s (slotFinds s is)) k (slotFinds s is)) :=
  hr.does hx (ha.trans (postSlot_ok hb hrep hs hk)) fun hl => (posted_bad ..).trans (hr.loaded hl)

end

end Sys2Proof.Machine

open Sys2Proof Sys2Proof.Machine

/-- Settles O4. -/
theorem localAccessesReachTheRegisters : Obligations.LocalAccessesReachTheRegisters := by
  unfold Obligations.LocalAccessesReachTheRegisters
  intro s is c off hr e r
  exact ⟨ldl_does hr, stl_does hr⟩

/-- Settles O7, operation by operation: each legal one sets its branch (`branchSlot`), CALL and RET their stack. -/
theorem flowOperationsSetTheirTarget : Obligations.FlowOperationsSetTheirTarget := by
  unfold Obligations.FlowOperationsSetTheirTarget
  intro s is cond target x hr e take hl
  exact ⟨branch_does hr hl rfl rfl rfl, bcc_does hr hl, branch_does hr hl rfl rfl rfl, fun hc => call_does hr hl hc,
    fun t rest hc => ret_does hr hl hc, branch_does hr hl rfl rfl rfl⟩

/-- Settles O8, operation by operation: each legal one sets its flow. -/
theorem loopOperationsSetTheirLoop : Obligations.LoopOperationsSetTheirLoop := by
  unfold Obligations.LoopOperationsSetTheirLoop
  intro s is k k11 fin x hr e dx flow hrep
  refine ⟨fun hle hb => ⟨?_, ?_⟩, fun hb hle hlen hfin hin => ⟨?_, ?_⟩, fun hb hl => endl_does hr hrep hb hl⟩
  · exact flow_does hr rfl (repSlot_ok hrep hle hb)
  · exact flow_does hr rfl (repSlot_ok hrep hle hb)
  · exact flow_does hr rfl (doSlot_ok hb hrep hle hlen hfin hin)
  · exact flow_does hr rfl (doSlot_ok hb hrep hle hlen hfin hin)

/-- Settles O9, operation by operation, in its section or outside one. -/
theorem tickOperationsOpenAndCloseSections : Obligations.TickOperationsOpenAndCloseSections := by
  unfold Obligations.TickOperationsOpenAndCloseSections
  intro s is second j x hr e tv ks q posts hb hrep
  exact ⟨fun hs => flow_does hr rfl (waitSlot_ok hb hrep hs), fun hs => done_does hr hb hrep hs,
    fun hs hk => post_does hr rfl rfl hb hrep hs hk, fun hs hk => post_does hr rfl rfl hb hrep hs hk⟩
end

section
/-! The engine's cycle beside its slots (R55, R57, R88): what landing the results of a cycle leaves of the engine. -/

namespace Sys2Proof.Machine

/-- The engine without what a cycle that issues nothing may change: registers, memories, the results and writes on their way, and
its clocks. -/
def Engine.control (e : Engine) : Engine :=
  { e with rf := RegFile.reset, loc := EngLocal.reset, x := [], y := [], flight := [], port := [], busy := [], events := [],
           cyc := 0, tcyc := 0 }

/-- From `e` to `f` results have landed and events have been counted, and nothing else has happened. -/
def Lands (e f : Engine) : Prop := f.control = e.control

section
variable {e f g : Engine}

theorem Lands.refl (e : Engine) : Lands e e := rfl
theorem Lands.trans (h : Lands e f) (k : Lands f g) : Lands e g := Eq.trans k h

theorem Lands.run (h : Lands e f) : f.run = e.run := by
  have k := congrArg Engine.run h
  exact k
theorem Lands.pc (h : Lands e f) : f.pc = e.pc := by
  have k := congrArg Engine.pc h
  exact k
theorem Lands.lastPc (h : Lands e f) : f.lastPc = e.lastPc := by
  have k := congrArg Engine.lastPc h
  exact k
theorem Lands.rtiDue (h : Lands e f) : f.rtiDue = e.rtiDue := by
  have k := congrArg Engine.rtiDue h
  exact k
theorem Lands.loops (h : Lands e f) : f.loops = e.loops := by
  have k := congrArg Engine.loops h
  exact k
theorem Lands.waitFor (h : Lands e f) : f.waitFor = e.waitFor := by
  have k := congrArg Engine.waitFor h
  exact k
theorem Lands.sec (h : Lands e f) : f.sec = e.sec := by
  have k := congrArg Engine.sec h
  exact k
theorem Lands.ran1 (h : Lands e f) : f.ran1 = e.ran1 := by
  have k := congrArg Engine.ran1 h
  exact k
theorem Lands.ran2 (h : Lands e f) : f.ran2 = e.ran2 := by
  have k := congrArg Engine.ran2 h
  exact k
theorem Lands.posted (h : Lands e f) : f.posted = e.posted := by
  have k := congrArg Engine.posted h
  exact k
theorem Lands.q1 (h : Lands e f) : f.q1 = e.q1 := by
  have k := congrArg Engine.q1 h
  exact k
theorem Lands.q2 (h : Lands e f) : f.q2 = e.q2 := by
  have k := congrArg Engine.q2 h
  exact k
theorem Lands.stalled (h : Lands e f) : f.stalled = e.stalled := by
  have k := congrArg Engine.stalled h
  exact k

end

/-! ### The parts of a cycle -/

theorem landPort_lands (ws : List PortWrite) (e : Engine) : Lands e (landPort ws e) := by
  unfold landPort
  induction ws generalizing e with
  | nil => exact Lands.refl e
  | cons w ws ih =>
    rw [List.foldl_cons]
    refine Lands.trans ?_ (ih _)
    split <;> rfl

theorem flushPort_lands (e : Engine) : Lands e (flushPort e) := landPort_lands _ e

theorem mboxSend_lands (e : Engine) : Lands e (mboxSend e).1 := by
  unfold mboxSend
  split <;> rfl

theorem Lands.ite_fst {c : Prop} [Decidable c] {e : Engine} {p q : Engine × List EngSig} (hp : Lands e p.1) (hq : Lands e q.1) :
    Lands e (if c then p else q).1 := by
  split
  · exact hp
  · exact hq

/-- A write of an engine-local register changes engine-local registers only (R105). -/
theorem localWrite_lands (port : LocalPort) (off : Nat) (w : Word) (e : Engine) : Lands e (localWrite port off w e).1 := by
  have send (l : EngLocal) : Lands e (mboxSend { e with loc := l }).1 := (show Lands e { e with loc := l } from rfl).trans (mboxSend_lands _)
  unfold localWrite
  lift_lets
  intro l put mapOk
  have stays : Lands e ((e, []) : Engine × List EngSig).1 := Lands.refl e
  have puts (l' : EngLocal) : Lands e (put l').1 := rfl
  clear_value put mapOk
  refine .ite_fst (.ite_fst (puts _) stays) (.ite_fst (puts _) (.ite_fst (puts _) (.ite_fst (puts _) (.ite_fst (puts _)
    (.ite_fst (puts _) (.ite_fst (puts _) (.ite_fst (puts _) (.ite_fst (puts _) (.ite_fst (.ite_fst (send _) (puts _))
    (.ite_fst ?_ (.ite_fst (.ite_fst (puts _) stays) (.ite_fst (.ite_fst (puts _) stays) stays))))))))))))
  cases port with
  | engine => exact .ite_fst (puts _) stays
  | fabric => exact puts _

theorem countEvents_lands (evs : List (Nat × Nat)) (e : Engine) : Lands e (countEvents evs e).1 := rfl

theorem viewLater_lands (l : Landing) (code : BitVec 7) (w : Word) (e : Engine) : Lands e (viewLater l code w e) := by
  unfold viewLater
  split <;> rfl

theorem applyLanding_lands (r0 : RegFile) (l : Landing) (p : Engine × List EngSig) : Lands p.1 (applyLanding r0 l p).1 := by
  unfold applyLanding
  dsimp only
  split
  case h_1 => exact (show Lands p.1 _ from rfl).trans (viewLater_lands ..)
  case h_4 => split <;> rfl
  case h_6 => split <;> rfl
  case h_7 => exact localWrite_lands ..
  all_goals rfl

theorem orSticky_lands (l : List (Bool × Bool × Bool)) (e : Engine) : Lands e (l.foldl (fun e s => orSticky s e) e) := by
  induction l generalizing e with
  | nil => exact Lands.refl e
  | cons s l ih => exact (show Lands e (orSticky s e) from rfl).trans (ih _)

theorem applyLandings_lands (r0 : RegFile) (l : List Landing) (p : Engine × List EngSig) :
    Lands p.1 (l.foldl (fun p l => applyLanding r0 l p) p).1 := by
  induction l generalizing p with
  | nil => exact Lands.refl _
  | cons l ls ih => exact (applyLanding_lands r0 l p).trans (ih _)

/-! ### Cycles -/

theorem landCycle_lands (e : Engine) : Lands e (landCycle e).1 := by
  have start : Lands e { e with flight := e.flight.filter (fun l => !decide (l.due ≤ e.cyc)) } := rfl
  have landed := start.trans (applyLandings_lands e.rf (standing (sortLandings (e.flight.filter (fun l => decide (l.due ≤ e.cyc))))) (_, []))
  have retried : ∀ f : Engine, Lands f (retryPort f).1 := fun _ => rfl
  exact (((landed.trans (retried _)).trans (flushPort_lands _)).trans (orSticky_lands _ _)).trans rfl

theorem idleCycles_succ (n : Nat) (p : Engine × List EngSig) :
    idleCycles (n + 1) p = idleCycles n ((landCycle p.1).1, p.2 ++ (landCycle p.1).2) := rfl

theorem idleCycles_lands (n : Nat) (p : Engine × List EngSig) : Lands p.1 (idleCycles n p).1 := by
  induction n generalizing p with
  | zero => exact Lands.refl _
  | succ n ih => exact (landCycle_lands p.1).trans (ih _)

/-! ### Cycles with nothing in flight -/

/-- From `e` to `f` cycles have passed in which nothing was in flight. -/
structure Rests (e f : Engine) : Prop where
  lands : Lands e f
  flight : f.flight = []
  rf : f.rf = e.rf
  ira : f.loc.ira = e.loc.ira
  isr : f.loc.isr = e.loc.isr

theorem Rests.trans {e f g : Engine} (h : Rests e f) (k : Rests f g) : Rests e g :=
  ⟨h.lands.trans k.lands, k.flight, k.rf.trans h.rf, k.ira.trans h.ira, k.isr.trans h.isr⟩

theorem landPort_kept (ws : List PortWrite) (e : Engine) : (landPort ws e).loc = e.loc ∧ (landPort ws e).flight = e.flight := by
  unfold landPort
  induction ws generalizing e with
  | nil => exact ⟨rfl, rfl⟩
  | cons w ws ih =>
    rw [List.foldl_cons, (ih _).1, (ih _).2]
    split <;> exact ⟨rfl, rfl⟩

theorem flushPort_loc (e : Engine) : (flushPort e).loc = e.loc := (landPort_kept _ e).1
theorem flushPort_flight (e : Engine) : (flushPort e).flight = e.flight := (landPort_kept _ e).2

/-- Counting changes the counters alone (R394). -/
theorem countEvents_kept (evs : List (Nat × Nat)) (e : Engine) : (countEvents evs e).1.flight = e.flight ∧
    (countEvents evs e).1.loc.ira = e.loc.ira ∧ (countEvents evs e).1.loc.isr = e.loc.isr := ⟨rfl, rfl, rfl⟩

theorem landCycle_rests {e : Engine} (h : e.flight = []) : Rests e (landCycle e).1 := by
  have hdue : standing (sortLandings (e.flight.filter (fun l => decide (l.due ≤ e.cyc)))) = [] := by rw [h]; rfl
  have hrest : e.flight.filter (fun l => !decide (l.due ≤ e.cyc)) = [] := by rw [h]; rfl
  refine ⟨landCycle_lands e, ?_, ?_, ?_, ?_⟩
  · simpa [landCycle, hdue, stickies, countEvents_kept, flushPort_flight, retryPort] using hrest
  · simp [landCycle, hdue, stickies, countEvents_rf, flushPort_rf, retryPort]
  · simp [landCycle, hdue, stickies, countEvents_kept, flushPort_loc, retryPort]
  · simp [landCycle, hdue, stickies, countEvents_kept, flushPort_loc, retryPort]

theorem idleCycles_rests (n : Nat) (e : Engine) (sg : List EngSig) (h : e.flight = []) : Rests e (idleCycles n (e, sg)).1 := by
  induction n generalizing e sg with
  | zero => exact ⟨Lands.refl _, h, rfl, rfl, rfl⟩
  | succ n ih =>
    have k := landCycle_rests h
    rw [idleCycles_succ]
    exact k.trans (ih _ _ k.flight)

/-! ### Counters (R394) -/

theorem countOne_settings (pc : BitVec 13) (evs : List (Nat × Nat)) (j : Fin 4) (pm : EngPmu) :
    (countOne pc evs j pm).1.en = pm.en ∧ (countOne pc evs j pm).1.evt = pm.evt := by
  unfold countOne
  split
  · exact ⟨rfl, rfl⟩
  · dsimp only
    split <;> exact ⟨rfl, rfl⟩

theorem countOne_cnt_ne (pc : BitVec 13) (evs : List (Nat × Nat)) {j k : Fin 4} (h : j ≠ k) (pm : EngPmu) :
    (countOne pc evs j pm).1.cnt[k.val] = pm.cnt[k.val] := by
  have hne : j.val ≠ k.val := fun q => h (Fin.ext q)
  unfold countOne
  split
  · rfl
  · dsimp only
    split <;> exact Vector.getElem_set_ne j.isLt k.isLt hne

/-- What counting gives a counter: the events that it selects, where it is enabled. -/
def counted (evs : List (Nat × Nat)) (k : Fin 4) (pm : EngPmu) : BitVec 48 :=
  if pm.en.getLsbD k.val then BitVec.ofNat 48 ((pm.cnt[k.val]).toNat + eventSum pm k evs) else pm.cnt[k.val]

theorem countOne_cnt_self (pc : BitVec 13) (evs : List (Nat × Nat)) (k : Fin 4) (pm : EngPmu) :
    (countOne pc evs k pm).1.cnt[k.val] = counted evs k pm := by
  unfold countOne counted
  cases pm.en.getLsbD k.val with
  | false => rfl
  | true =>
    simp only [Bool.not_true, Bool.false_eq_true, if_false, if_true]
    split <;> exact Vector.getElem_set_self _

theorem counted_congr {evs : List (Nat × Nat)} {k : Fin 4} {p q : EngPmu} (hen : p.en = q.en) (hevt : p.evt = q.evt)
    (hcnt : p.cnt[k.val] = q.cnt[k.val]) : counted evs k p = counted evs k q := by
  simp only [counted, eventSum, hen, hevt, hcnt]

/-- The counters one after the other. -/
def countAll (pc : BitVec 13) (evs : List (Nat × Nat)) (l : List (Fin 4)) (pm : EngPmu) : EngPmu :=
  l.foldl (fun pm j => (countOne pc evs j pm).1) pm

theorem countAll_cnt (pc : BitVec 13) (evs : List (Nat × Nat)) (k : Fin 4) (l : List (Fin 4)) (hl : l.Nodup) (pm : EngPmu) :
    (countAll pc evs l pm).cnt[k.val] = if k ∈ l then counted evs k pm else pm.cnt[k.val] := by
  induction l generalizing pm with
  | nil => rfl
  | cons j l ih =>
    obtain ⟨hj, hl'⟩ := List.nodup_cons.1 hl
    obtain ⟨hen, hevt⟩ := countOne_settings pc evs j pm
    rw [countAll, List.foldl_cons, ← countAll, ih hl']
    by_cases h : k = j
    · subst h
      rw [if_neg hj, if_pos List.mem_cons_self, countOne_cnt_self]
    · have hcnt := countOne_cnt_ne pc evs (fun q => h q.symm) pm
      simp only [List.mem_cons, h, false_or]
      rw [counted_congr hen hevt hcnt, hcnt]

theorem countEvents_cnt (evs : List (Nat × Nat)) (e : Engine) (k : Fin 4) :
    (countEvents evs e).1.loc.pmu.cnt[k.val] = counted evs k e.loc.pmu := by
  have h := countAll_cnt e.lastPc evs k [3, 2, 1, 0] (by decide) e.loc.pmu
  have hmem : ∀ j : Fin 4, j ∈ [3, 2, 1, 0] := by decide
  rw [if_pos (hmem k)] at h
  exact h

theorem eventSum_single (pm : EngPmu) (k : Fin 4) {ev : Nat} (hev : ev ≠ 0) :
    eventSum pm k [(ev, 1)] = if (pm.evt[k.val]).toNat = ev then 1 else 0 := by
  unfold eventSum
  dsimp only
  by_cases h : (pm.evt[k.val]).toNat = ev
  · simp [h, hev]
  · simp [h, Ne.symm h]

/-- One event of one kind. -/
theorem counted_single (pm : EngPmu) (k : Fin 4) {ev : Nat} (hev : ev ≠ 0) : counted [(ev, 1)] k pm =
    if pm.en.getLsbD k.val ∧ (pm.evt[k.val]).toNat = ev then pm.cnt[k.val] + 1 else pm.cnt[k.val] := by
  unfold counted
  rw [eventSum_single pm k hev]
  by_cases hen : pm.en.getLsbD k.val = true
  · by_cases h : (pm.evt[k.val]).toNat = ev
    · rw [if_pos hen, if_pos h, if_pos ⟨hen, h⟩]
      exact BitVec.eq_of_toNat_eq (by simp)
    · simp [hen, h]
  · rw [if_neg hen, if_neg fun q => hen q.1]

end Sys2Proof.Machine
end

section
/-! What happens to an engine beside its slots (R55, R57, R94, R97, R100, R103). -/

namespace Sys2Proof.Machine

/-! ### The end of a wait (R100) -/

/-- The bundle of a WAITPHASE, in no delay slot, REP or loop, is followed by the next one. -/
theorem afterBundle_wait {e : Engine} {second : Bool} (hf : e.flow = some (.wait second)) (hb : e.branch = none) (hr : e.rep = 0)
    (hl : e.loops = []) : afterBundle e = { e with rep := 0, pc := e.lastPc + 1 } := by
  simp [afterBundle, hf, hb, hr, hl, advance]

/-- The bundle of a WAITPHASE once it has issued, before its cycle. -/
def waited (e : Engine) : Engine :=
  { e with rep := 0, pc := e.lastPc + 1, flow := none, inBundle := false, seq := e.seq + 1, noInt := false }

theorem finishBundle_wait {e : Engine} {second : Bool} (hf : e.flow = some (.wait second)) (hb : e.branch = none) (hr : e.rep = 0)
    (hl : e.loops = []) (ht : e.rtiDue = false) : Lands (waited e) (finishBundle e).1 := by
  have hcycle := landCycle_lands { waited e with events := e.events ++ [(0x02, 1)] }
  have hfin : (finishBundle e).1 = rtiRestore (landCycle { waited e with events := e.events ++ [(0x02, 1)] }).1 := by
    unfold finishBundle
    rw [afterBundle_wait hf hb hr hl, hf]
    rfl
  have hrti : (landCycle { waited e with events := e.events ++ [(0x02, 1)] }).1.rtiDue = false := hcycle.rtiDue.trans ht
  rw [hfin, rtiRestore, hrti]
  exact hcycle

/-- The section that a wait was for is open, and the bundle after the WAITPHASE comes next. -/
structure Opened (e f : Engine) (second : Bool) : Prop where
  run : f.run = .running
  sec : f.sec = e.waitFor
  waitFor : f.waitFor = 0
  posted : f.posted = []
  lastPc : f.lastPc = e.pc
  pc : f.pc = e.pc + 1
  ran : (if second then f.ran2 else f.ran1) = true

theorem openSection_opened {e : Engine} {second : Bool} (cycle stall : Nat) (hf : e.flow = some (.wait second))
    (hw : e.waitFor = if second then 2 else 1) (hb : e.branch = none) (hr : e.rep = 0) (hl : e.loops = [])
    (ht : e.rtiDue = false) : Opened e (openSection e cycle stall).1 second := by
  let e1 : Engine := { e with
    run := .running, waitFor := 0, sec := if e.waitFor == 2 then 2 else 1, posted := [], ran1 := e.ran1 || !(e.waitFor == 2)
    ran2 := e.ran2 || e.waitFor == 2, tcyc := cycle, lastPc := e.pc }
  have k : Lands (waited e1) (openSection e cycle stall).1 :=
    finishBundle_wait (e := (countEvents [(0x01, stall), (0x03, stall)] e1).1) hf hb hr hl ht
  refine ⟨k.run, k.sec.trans ?_, k.waitFor, k.posted, k.lastPc, k.pc, ?_⟩
  · change (if e.waitFor == 2 then 2 else 1) = e.waitFor
    rw [hw]
    cases second <;> rfl
  · rw [k.ran1, k.ran2]
    change (if second then (e.ran2 || e.waitFor == 2) else (e.ran1 || !(e.waitFor == 2))) = true
    rw [hw]
    cases second <;> simp

/-- Opening a section changes the delay lines and the event log alone (R369). -/
theorem dlyOpen_kept (s : State) (p : Fin 16) (second : Bool) :
    (dlyOpen s p second).engines = s.engines ∧ (dlyOpen s p second).fab.mem = s.fab.mem := by
  have late (l : List Nat) (t : State) : LogOnly t (l.foldl (fun s l => s.alarm (Al.fabDelayLate.src (0x10 + p.val)) (l % 256)) t) := by
    induction l generalizing t with
    | nil => exact LogOnly.refl t
    | cons l ls ih => exact (alarm_logOnly _ _ _).trans (ih _)
  unfold dlyOpen
  lift_lets
  intro k due lines s1
  have h : LogOnly s s1 := late lines s
  have hmem : s1.fab.mem = s.fab.mem := congrArg FabSt.mem h.fab
  exact ⟨h.engines, hmem⟩

theorem waitphaseReturn_opens {s : State} {n : Fin 16} {cycle stall : Nat} {second : Bool} (hready : waitReady s (s.engine n) cycle = true)
    (hcopy : copyHolds s n second cycle = false) (hf : (s.engine n).flow = some (.wait second))
    (hw : (s.engine n).waitFor = if second then 2 else 1) (hb : (s.engine n).branch = none) (hr : (s.engine n).rep = 0)
    (hl : (s.engine n).loops = []) (ht : (s.engine n).rtiDue = false) :
    ∃ t, exec (.waitphaseReturn n cycle stall) s = .next t ∧ Opened (s.engine n) (t.engine n) second ∧
      (∀ m, m ≠ n → t.engine m = s.engine m) ∧ ∀ a, memByte t a = memByte s a := by
  have hsecond : ((s.engine n).waitFor == 2) = second := by
    rw [hw]
    cases second <;> rfl
  let s1 := commitEngine s n (openSection (s.engine n) cycle stall)
  let t : State := match placeOf s n with
    | some p => dlyOpen s1 p second
    | none => s1
  have hx : exec (.waitphaseReturn n cycle stall) s = .next t := by
    change execWaitphaseReturn n cycle stall s = _
    unfold execWaitphaseReturn
    simp only [hready, hsecond, hcopy, Bool.not_true, Bool.or_self, Bool.false_eq_true, if_false]
    rfl
  obtain ⟨hframe, hengine⟩ := commitEngine_frame s n (openSection (s.engine n) cycle stall)
  have hopen : t.engines = s1.engines ∧ t.fab.mem = s1.fab.mem := by
    cases hp : placeOf s n with
    | some p => simpa only [t, hp] using dlyOpen_kept s1 p second
    | none => simp only [t, hp, and_self]
  refine ⟨t, hx, ?_, fun m hm => ?_, fun a => ?_⟩
  · rw [engine_of_engines hopen.1, hengine]
    exact openSection_opened cycle stall hf hw hb hr hl ht
  · rw [engine_of_engines hopen.1]
    exact hframe.engines m hm
  · rw [memByte_of_fab hopen.2]
    exact hframe.mem a

/-! ### The end of a stalled POST (R103) -/

/-- Queueing one slot on the channel of the open section. -/
theorem queueSlots_one (tv : TickView) (k : Nat) (e : Engine) (hs : e.sec = 1 ∨ e.sec = 2) :
    (queueSlots tv [k] e).posted = e.posted ++ [k] ∧ (queueSlots tv [k] e).stalled = e.stalled ∧
    (queueSlots tv [k] e).q1 = (if e.sec = 1 then e.q1 ++ [(k, tagOf tv.tick)] else e.q1) ∧
    (queueSlots tv [k] e).q2 = (if e.sec = 1 then e.q2 else e.q2 ++ [(k, tagOf tv.tick)]) := by
  obtain h | h := hs
  · simp [queueSlots, h, noteEvent]
  · simp [queueSlots, h, noteEvent]

theorem postStallEnd_queues {s : State} {n : Fin 16} {k : Nat} (stall : Nat) (hk : (s.engine n).stalled = some k)
    (hrun : (s.engine n).run = .running) (hs : (s.engine n).sec = 1 ∨ (s.engine n).sec = 2)
    (hq : (if (s.engine n).sec = 1 then (s.engine n).q1 else (s.engine n).q2).length < 32) :
    let e := s.engine n
    ∃ t, exec (.postStallEnd n stall) s = .next t ∧ SlotFrame s t n ∧ (t.engine n).stalled = none ∧
      (t.engine n).posted = e.posted ++ [k] ∧ (t.engine n).q1 = (if e.sec = 1 then e.q1 ++ [(k, s.tag)] else e.q1) ∧
      (t.engine n).q2 = (if e.sec = 1 then e.q2 else e.q2 ++ [(k, s.tag)]) := by
  intro e
  let p := idleCycles stall ({ e with stalled := none }, [])
  let c := countEvents [(0x04, stall)] p.1
  let f : Engine := { queueSlots (tickView s c.1) [k] c.1 with events := [] }
  have hx : exec (.postStallEnd n stall) s = .next (commitEngine s n (f, p.2 ++ c.2)) := by
    change execPostStallEnd n stall s = _
    have hfree : ((s.engine n).run == .running &&
        decide ((if (s.engine n).sec = 1 then (s.engine n).q1 else (s.engine n).q2).length < 32)) = true := by simp only [hrun, hq]; rfl
    unfold execPostStallEnd
    simp only [hk, hfree, if_true]
    rfl
  have hcycles : Lands { e with stalled := none } c.1 := (idleCycles_lands stall ({ e with stalled := none }, [])).trans rfl
  obtain ⟨hframe, hengine⟩ := commitEngine_frame s n (f, p.2 ++ c.2)
  obtain ⟨hposted, hstalled, hq1, hq2⟩ := queueSlots_one (tickView s c.1) k c.1 (by rw [hcycles.sec]; exact hs)
  rw [hcycles.sec, hcycles.q1] at hq1
  rw [hcycles.sec, hcycles.q2] at hq2
  refine ⟨_, hx, hframe, ?_, ?_, ?_, ?_⟩
  · rw [hengine]
    exact hstalled.trans hcycles.stalled
  · rw [hengine]
    exact hposted.trans (congrArg (· ++ [k]) hcycles.posted)
  · rw [hengine]
    exact hq1
  · rw [hengine]
    exact hq2

/-! ### Interrupts (R97, R98) -/

/-- The engine at the boundary where it takes an interrupt: a wait is left, or a loop whose count ran out. -/
def preempted (e : Engine) : Engine :=
  if e.run == .waiting then
    { e with run := .running, waitFor := 0, flow := none, events := [], flight := e.flight.filter (fun l => l.seq != e.seq) }
  else loopExit e

/-- The engine that has taken an interrupt, before the four cycles that follow. -/
def vectored (v : BitVec 13) (e : Engine) : Engine :=
  { preempted e with
    loc := { (preempted e).loc with ira := (preempted e).pc, isr := srWord (preempted e).rf (preempted e).loops.length }
    rf := { (preempted e).rf with ie := false }, pc := v }

theorem takeInterrupt_eq (v : BitVec 13) (e : Engine) :
    takeInterrupt v e = idleCycles 4 (noteEvent 0x0A 1 (vectored v e), []) := rfl

theorem loopExit_kept (e : Engine) : (loopExit e).run = e.run ∧ (loopExit e).pc = e.pc ∧ (loopExit e).flight = e.flight ∧
    (loopExit e).rf.d = e.rf.d ∧ (loopExit e).rf.acc = e.rf.acc := by
  unfold loopExit popLoop
  split
  · split <;> exact ⟨rfl, rfl, rfl, rfl, rfl⟩
  · exact ⟨rfl, rfl, rfl, rfl, rfl⟩

theorem loopExit_none {e : Engine} (h : e.exitDue = false) : loopExit e = e := by
  simp [loopExit, h]

theorem preempted_kept {e : Engine} (h : e.run = .running ∨ e.run = .waiting) (hf : e.flight = []) : (preempted e).run = .running ∧
    (preempted e).pc = e.pc ∧ (preempted e).flight = [] ∧ (preempted e).rf.d = e.rf.d ∧ (preempted e).rf.acc = e.rf.acc := by
  unfold preempted
  obtain h | h := h
  · obtain ⟨hrun, hpc, hflight, hd, hacc⟩ := loopExit_kept e
    rw [h]
    exact ⟨hrun.trans h, hpc, hflight.trans hf, hd, hacc⟩
  · rw [h, hf]
    exact ⟨rfl, rfl, rfl, rfl, rfl⟩

theorem preempted_loops {e : Engine} (h : e.exitDue = false) : (preempted e).rf = e.rf ∧ (preempted e).loops = e.loops := by
  unfold preempted
  rw [loopExit_none h]
  split <;> exact ⟨rfl, rfl⟩

/-- From `e` to `f` an interrupt has been taken: its vector comes next, SE_IRA and SE_ISR hold what it returns to. -/
structure Interrupted (v : BitVec 13) (e f : Engine) : Prop where
  run : f.run = .running
  pc : f.pc = v
  ira : f.loc.ira = e.pc
  ie : f.rf.ie = false
  d : f.rf.d = e.rf.d
  acc : f.rf.acc = e.rf.acc
  saved : e.exitDue = false → f.loc.isr = srWord e.rf e.loops.length ∧ f.loops = e.loops

theorem takeInterrupt_interrupted (v : BitVec 13) {e : Engine} (h : e.run = .running ∨ e.run = .waiting) (hf : e.flight = []) :
    Interrupted v e (takeInterrupt v e).1 := by
  obtain ⟨hrun, hpc, hflight, hd, hacc⟩ := preempted_kept h hf
  have k : Rests (noteEvent 0x0A 1 (vectored v e)) (takeInterrupt v e).1 := by
    rw [takeInterrupt_eq]
    exact idleCycles_rests 4 _ _ hflight
  refine ⟨k.lands.run.trans hrun, k.lands.pc, k.ira.trans hpc, ?_, ?_, ?_, fun hx => ?_⟩
  · rw [k.rf]
    rfl
  · rw [k.rf]
    exact hd
  · rw [k.rf]
    exact hacc
  · obtain ⟨hrf, hloops⟩ := preempted_loops hx
    exact ⟨k.isr.trans (congr (congrArg srWord hrf) (congrArg List.length hloops)), k.lands.loops.trans hloops⟩

theorem boundaryOpen_run {e : Engine} (h : boundaryOpen e = true) : e.run = .running ∨ e.run = .waiting := by
  simp only [boundaryOpen, Bool.and_eq_true, Bool.or_eq_true, beq_iff_eq] at h
  obtain ⟨⟨⟨⟨⟨⟨hrun, -⟩, -⟩, -⟩, -⟩, -⟩, -⟩ := h
  exact hrun

theorem interruptTaken_interrupts {s : State} {n : Fin 16} {v : BitVec 13} (hv : irqVector (s.engine n) = some v)
    (hie : (s.engine n).rf.ie = true) (hb : boundaryOpen (s.engine n) = true) (hf : (s.engine n).flight = []) :
    ∃ t, exec (.interruptTaken n) s = .next t ∧ SlotFrame s t n ∧ Interrupted v (s.engine n) (t.engine n) := by
  have hrun := boundaryOpen_run hb
  have hx : exec (.interruptTaken n) s = .next (if (s.engine n).run == .waiting then
      commitEngine { s with fresh := s.fresh + 1 } n (takeInterrupt v (waitCycle s (s.engine n)))
      else commitEngine s n (takeInterrupt v (s.engine n))) := by
    change execInterruptTaken n s = _
    unfold execInterruptTaken
    simp only [hv, hie, hb, Bool.not_true, Bool.or_self, Bool.false_eq_true, if_false]
    split <;> rfl
  refine ⟨_, hx, ?_⟩
  split
  next hw =>
    obtain ⟨hframe, hengine⟩ := commitEngine_frame { s with fresh := s.fresh + 1 } n (takeInterrupt v (waitCycle s (s.engine n)))
    have hdraw : SlotFrame s { s with fresh := s.fresh + 1 } n :=
      ⟨fun _ _ => rfl, fun _ => rfl, fun _ _ _ => rfl,
        ⟨rfl, rfl, rfl, rfl, rfl, rfl, rfl, rfl, rfl, rfl, rfl, rfl, rfl, rfl, rfl, rfl⟩⟩
    obtain ⟨k1, k2, k3, k4, k5, k6, k7⟩ := takeInterrupt_interrupted v (e := waitCycle s (s.engine n)) hrun hf
    rw [hengine]
    exact ⟨hdraw.trans hframe, k1, k2, k3, k4, k5, k6, k7⟩
  next hw =>
    obtain ⟨hframe, hengine⟩ := commitEngine_frame s n (takeInterrupt v (s.engine n))
    rw [hengine]
    exact ⟨hframe, takeInterrupt_interrupted v hrun hf⟩

/-! ### Loops left, and retries of the other port (R55, R94) -/

theorem loopExit_pops {e : Engine} {lc : Half} {ls le : BitVec 13} {rest : List (Half × BitVec 13 × BitVec 13)} (h : e.exitDue = true)
    (hl : e.loops = (lc, ls, le) :: rest) :
    loopExit e = { e with exitDue := false, loops := rest, rf := { e.rf with lc := lc, ls := ls, le := le } } := by
  simp [loopExit, h, popLoop, hl]

theorem delayPort_port (fabric : Bool) (e : Engine) : (delayPort fabric e).port =
    e.port.map (fun w => if w.fabric = fabric then { w with due := w.due + 1 } else w) := by
  simp only [delayPort, beq_iff_eq]

end Sys2Proof.Machine

open Sys2Proof Sys2Proof.Machine

/-- Settles O10, event by event: those that end a wait or a stall or take an interrupt by what their cycles leave of the
engine (`Lands`, `Rests`), a retry by what counting gives a counter. -/
theorem engineEventsMoveTheirEngine : Obligations.EngineEventsMoveTheirEngine := by
  unfold Obligations.EngineEventsMoveTheirEngine
  intro s n e
  refine ⟨fun lc ls le rest hx hl => ?_, fun mem word => rfl, fun fabric k => ?_, fun cycle stall b hready hcopy hf hw hb hr hl ht => ?_,
    fun stall k hk hrun hs hq => postStallEnd_queues stall hk hrun hs hq, fun v hv hie hb hf => ?_⟩
  · exact congrArg (fun f => Host.Outcome.next (s.setEngine n f)) (loopExit_pops hx hl)
  · obtain ⟨hframe, hengine⟩ := commitEngine_frame s n (countEvents [(if fabric then 0x12 else 0x11, 1)] (delayPort fabric e))
    refine ⟨_, rfl, hframe, ?_⟩
    rw [hengine]
    refine ⟨rfl, rfl, rfl, rfl, rfl, delayPort_port fabric e, ?_⟩
    rw [countEvents_cnt, counted_single _ _ (by cases fabric <;> decide)]
    rfl
  · obtain ⟨t, hx, ho, hothers, hmem⟩ := waitphaseReturn_opens (stall := stall) hready hcopy hf hw hb hr hl ht
    exact ⟨t, hx, ho.run, ho.sec, ho.waitFor, ho.posted, ho.lastPc, ho.pc, ho.ran, hothers, hmem⟩
  · obtain ⟨t, hx, hframe, k⟩ := interruptTaken_interrupts hv hie hb hf
    exact ⟨t, hx, hframe, k.run, k.pc, k.ira, k.ie, k.d, k.acc, k.saved⟩
end

section
/-! The mailboxes and the SOFT interrupt (R105, R106), apart from a place that is being moved. -/

namespace Sys2Proof.Machine

/-! ### Messages in (R105, R106) -/

theorem shadowOf_none {s : State} (h : s.rsv.move = none) (n : Fin 16) : shadowOf s n = none := by
  simp [shadowOf, h]

/-- A message stands in the engine's SE_MBOX_IN, the one that the controller writes to it in this tick. -/
def withMail (s : State) (n : Fin 16) (ws : List Word) : State :=
  { s.setEngine n (takeMail ws (s.engine n)) with ctl := { s.ctl with mailed := s.ctl.mailed ++ [n.val] } }

theorem withMail_engine_self (s : State) (n : Fin 16) (ws : List Word) : (withMail s n ws).engine n = takeMail ws (s.engine n) :=
  engine_setEngine_self s n _

theorem withMail_engine_ne (s : State) {n m : Fin 16} (h : m ≠ n) (ws : List Word) : (withMail s n ws).engine m = s.engine m :=
  engine_setEngine_ne s h _

/-- A message of a place that is not being moved is written at once. -/
theorem sendMail_eq {s : State} (h : s.rsv.move = none) (n : Fin 16) (ws : List Word) : sendMail s n ws = withMail s n ws := by
  have hset : shadowOf (s.setEngine n (takeMail ws (s.engine n))) n = none := shadowOf_none (by rw [setEngine_rsv, h]) n
  rw [sendMail, shadowOf_none h, if_neg (by decide), writeMail, hset]
  rfl

theorem forN_setMsg_length (ws : List Word) (old : Vector Word 8) (m i : Nat) (hi : i < 8) (hm : m ≤ 8) :
    (forN (fun j v => if j < ws.length then setMsg v j (listGet 0 j ws) else v) m old)[i] =
      if i < m ∧ i < ws.length then listGet 0 i ws else old[i] := by
  induction m with
  | zero => simp [forN]
  | succ m ih =>
    have hmod : m % 8 = m := Nat.mod_eq_of_lt (by omega)
    rw [forN]
    by_cases hlen : m < ws.length
    · rw [if_pos hlen, setMsg, Vector.getElem_set, ih (by omega)]
      change (if m % 8 = i then _ else _) = _
      rw [hmod]
      by_cases h : m = i
      · subst h
        rw [if_pos rfl, if_pos ⟨by omega, hlen⟩]
      · rw [if_neg h]
        congr 1
        simp only [eq_iff_iff]
        omega
    · rw [if_neg hlen, ih (by omega)]
      congr 1
      simp only [eq_iff_iff]
      omega

/-- A word of the message that is written. -/
theorem takeMail_word (ws : List Word) (e : Engine) (i : Fin 8) (hi : i.val < ws.length) :
    (takeMail ws e).loc.inMsg[i.val] = listGet 0 i.val ws :=
  (forN_setMsg_length ws e.loc.inMsg 8 i.val i.isLt (Nat.le_refl 8)).trans (if_pos ⟨i.isLt, hi⟩)

theorem takeMail_len {ws : List Word} (e : Engine) (h : ws.length ≤ 8) : (takeMail ws e).loc.inLen.toNat = ws.length := by
  change (BitVec.ofNat 4 (min ws.length 8)).toNat = ws.length
  rw [Nat.min_eq_left h, BitVec.toNat_ofNat, Nat.mod_eq_of_lt (by omega)]

theorem canMail_of {s : State} {n : Fin 16} (hv : (s.engine n).loc.inValid = false) (hm : s.ctl.mailed.contains n.val = false) :
    canMail s n = true := by
  simp only [canMail, hv, hm]
  rfl

theorem mboxInMessage_eq {s : State} {n : Fin 16} {ws : List Word} (hmove : s.rsv.move = none)
    (hv : (s.engine n).loc.inValid = false) (hm : s.ctl.mailed.contains n.val = false) (hq : ∀ m ∈ s.ctl.mail, m.1 ≠ n.val)
    (h1 : 1 ≤ ws.length) (h8 : ws.length ≤ 8) : exec (.mboxInMessage n ws) s = .next (withMail s n ws) := by
  have hnone : s.ctl.mail.any (fun m => m.1 == n.val) = false := by simpa using hq
  have hne : ws.isEmpty = false := by
    cases ws with
    | nil => exact absurd h1 (by decide)
    | cons w ws => rfl
  rw [← sendMail_eq hmove]
  change execMboxInMessage n ws s = _
  simp only [execMboxInMessage, canMail_of hv hm, hnone, hne, h8, decide_true, Bool.not_false, Bool.and_self, if_true]

/-- A reply of three words carries its generation (R106). -/
theorem writeReply_eq {s : State} {n : Fin 16} {m : Nat × List Word} (hmove : s.rsv.move = none)
    (hfind : s.ctl.mail.find? (fun m => m.1 == n.val) = some m) (hv : (s.engine n).loc.inValid = false)
    (hm : s.ctl.mailed.contains n.val = false) (hlen : m.2.length = 3) : exec (.writeReply n) s =
      .next (withMail { s with ctl := { s.ctl with mail := s.ctl.mail.erase m } } n m.2) := by
  have hsend := sendMail_eq (s := { s with ctl := { s.ctl with mail := s.ctl.mail.erase m } }) hmove n m.2
  change execWriteReply n s = _
  simp only [execWriteReply, hfind, canMail_of hv hm, hlen, if_true, Nat.lt_irrefl, if_false, List.append_nil, hsend]

/-! ### Registers of the mailbox, written by either port (R105, R106) -/

/-- The write is taken: the program issues, or the window answers (R105). -/
def portOpen (s : State) (n : Fin 16) : LocalPort → Prop
  | .engine => canIssue (s.engine n) = true
  | .fabric => windowGated s n = false

theorem portWrite_eq {s : State} {n : Fin 16} {port : LocalPort} (h : portOpen s n port) (off : Nat) (w : Word) :
    portWrite s n port off w = commitEngine s n (localWrite port off w (s.engine n)) := by
  cases port with
  | engine => exact if_pos h
  | fabric =>
    have hg : windowGated s n = false := h
    simp [portWrite, hg]

theorem localWrite_ack (port : LocalPort) (e : Engine) :
    localWrite port 0x060 1 e = ({ e with loc := { e.loc with inValid := false } }, []) := by
  simp [localWrite]

theorem localWrite_soft (port : LocalPort) (e : Engine) :
    localWrite port 0x028 4 e = ({ e with loc := { e.loc with softPend := true } }, []) := by
  simp [localWrite]

/-- A word of SE_MBOX_OUT_CTL with SEND set, and a length. -/
theorem sendWord_fields : ∀ len : BitVec 4, (1 + 256 * len.setWidth 32 : Word).extractLsb' 8 4 = len ∧
    (1 + 256 * len.setWidth 32 : Word).getLsbD 2 = false ∧ (1 + 256 * len.setWidth 32 : Word).getLsbD 0 = true := by decide

/-- SE_MBOX_OUT_CTL written with SEND set and LEN as it stands. -/
theorem localWrite_send (port : LocalPort) (e : Engine) :
    localWrite port 0x0A0 (1 + 256 * e.loc.outLen.setWidth 32) e = mboxSend e := by
  obtain ⟨hlen, hdrop, hsend⟩ := sendWord_fields e.loc.outLen
  have hw (w : Word) (h : w.getLsbD 0 = true) : localWrite port 0x0A0 w e = mboxSend { e with
      loc := { e.loc with outLen := w.extractLsb' 8 4, outDrop := e.loc.outDrop && !w.getLsbD 2 } } := by
    simp [localWrite, show w[0] = true from h]
  rw [hw _ hsend, hlen, hdrop, Bool.not_false, Bool.and_true]

theorem mboxSend_empty {e : Engine} (h : e.loc.outFull = false) :
    mboxSend e = ({ e with loc := { e.loc with outFull := true } }, []) := by
  simp [mboxSend, h]

/-- A message that finds the last one uncollected is dropped and counted (R106). -/
theorem mboxSend_full {e : Engine} (h : e.loc.outFull = true) (hd : e.loc.outDrops ≠ 0xFFFF) :
    mboxSend e = ({ e with loc := { e.loc with outDrop := true, outDrops := e.loc.outDrops + 1 } }, [.mboxDrop]) := by
  simpa [mboxSend, h] using hd

section
variable {s : State} {n : Fin 16} {port : LocalPort}

theorem mboxAck_eq (h : portOpen s n port) : exec (.mboxAck n port) s =
    .next (s.setEngine n { s.engine n with loc := { (s.engine n).loc with inValid := false } }) := by
  change Host.Outcome.next (portWrite s n port 0x060 1) = _
  rw [portWrite_eq h, localWrite_ack, commitEngine_nil]

theorem softIrqSet_eq (h : portOpen s n port) : exec (.softIrqSet n port) s =
    .next (s.setEngine n { s.engine n with loc := { (s.engine n).loc with softPend := true } }) := by
  change Host.Outcome.next (portWrite s n port 0x028 4) = _
  rw [portWrite_eq h, localWrite_soft, commitEngine_nil]

theorem mboxSend_eq (h : portOpen s n port) : exec (.mboxSend n port) s = .next (commitEngine s n (mboxSend (s.engine n))) := by
  change Host.Outcome.next (portWrite s n port 0x0A0 (1 + 256 * (s.engine n).loc.outLen.setWidth 32)) = _
  rw [portWrite_eq h, localWrite_send]

/-! ### Messages out (R106) -/

theorem isShadow_false (h : s.rsv.move = none) (n : Fin 16) : isShadow s n = false := by
  simp [isShadow, h]

/-- A message with an operation code joins the inbox; any other is dropped. -/
theorem mboxOutCollect_eq (hmove : s.rsv.move = none) (hc : s.ctl.collected.contains n.val = false)
    (hf : (s.engine n).loc.outFull = true) :
    let ws : List Word := (s.engine n).loc.outMsg.toList.take (s.engine n).loc.outLen.toNat
    exec (.mboxOutCollect n) s = .next ({ s with ctl := { s.ctl with
        collected := s.ctl.collected ++ [n.val]
        inbox := s.ctl.inbox ++ if ws ≠ [] ∧ (msgOp ws = 1 ∨ msgOp ws = 2) then [(n.val, ws)] else [] } }.setEngine n
          { s.engine n with loc := { (s.engine n).loc with outFull := false } }) := by
  intro ws
  have hdrop : (isShadow s n || ws.isEmpty || !(msgOp ws == 1 || msgOp ws == 2)) = !decide (ws ≠ [] ∧ (msgOp ws = 1 ∨ msgOp ws = 2)) := by
    rw [isShadow_false hmove, Bool.eq_iff_iff]
    simp
  change execMboxOutCollect n s = _
  unfold execMboxOutCollect
  simp only [hc, hf, if_true, Bool.false_eq_true, if_false]
  by_cases h : ws ≠ [] ∧ (msgOp ws = 1 ∨ msgOp ws = 2)
  · rw [hdrop, decide_eq_true h, if_pos h]
    rfl
  · rw [hdrop, decide_eq_false h, if_neg h, List.append_nil]
    rfl

theorem mboxAlarm_eq {ws : List Word} (h : inboxOf s n 2 = some ws) : exec (.mboxAlarm n) s =
    .next ((takeInbox s n ws).alarm ⟨0x02, n.val, 0x8000 + (listGet 0 1 ws).toNat % 4096⟩) := by
  change execMboxAlarm n s = _
  simp only [execMboxAlarm, h]

end

/-! ### WRITE messages (R106, R163) -/

/-- From `s` to `t` the direct writes that wait, the messages collected and the move in progress are as they were. -/
structure KeepsInbox (s t : State) : Prop where
  writes : t.writes = s.writes
  inbox : t.ctl.inbox = s.ctl.inbox
  move : t.rsv.move = s.rsv.move

section
variable {s t u : State}

theorem KeepsInbox.refl (s : State) : KeepsInbox s s := ⟨rfl, rfl, rfl⟩

theorem KeepsInbox.trans (h : KeepsInbox s t) (k : KeepsInbox t u) : KeepsInbox s u :=
  ⟨k.writes.trans h.writes, k.inbox.trans h.inbox, k.move.trans h.move⟩

theorem KeepsInbox.ite {c : Prop} [Decidable c] (ht : KeepsInbox s t) (hu : KeepsInbox s u) : KeepsInbox s (if c then t else u) := by
  split
  · exact ht
  · exact hu

theorem KeepsInbox.foldl {α : Type} {f : State → α → State} (h : ∀ t a, KeepsInbox t (f t a)) (l : List α) (s : State) :
    KeepsInbox s (l.foldl f s) := by
  induction l generalizing s with
  | nil => exact KeepsInbox.refl s
  | cons a l ih => exact (h s a).trans (ih _)

theorem withPair_keepsInbox (s : State) (p : PairSt) : KeepsInbox s { s with pair := p } := ⟨rfl, rfl, rfl⟩

theorem setNat_keepsInbox (s : State) (ix sub n : Nat) : KeepsInbox s (s.setNat ix sub n) :=
  ⟨setNat_writes .., by rw [setNat_ctl], by rw [setNat_rsv]⟩

theorem setEngine_keepsInbox (s : State) (n : Fin 16) (e : Engine) : KeepsInbox s (s.setEngine n e) :=
  ⟨setEngine_writes .., by rw [setEngine_ctl], by rw [setEngine_rsv]⟩

theorem logAdd_inbox (s : State) (code detail : Nat) : (logAdd s code detail).ctl.inbox = s.ctl.inbox := by
  unfold logAdd
  dsimp only
  split <;> simp

theorem logAlarm_inbox (s : State) (code detail : Nat) : (logAlarm s code detail).ctl.inbox = s.ctl.inbox := by
  have h := logAdd_inbox s code detail
  unfold logAlarm
  generalize logAdd s code detail = u at h ⊢
  unfold logWrapCheck
  split
  · exact h
  · split
    · exact h
    · exact (logAdd_inbox _ _ _).trans h

theorem logAlarm_keepsInbox (s : State) (code detail : Nat) : KeepsInbox s (logAlarm s code detail) :=
  have k := logAlarm_logOnly s code detail
  ⟨k.writes, logAlarm_inbox .., by rw [k.rsv]⟩

theorem alarm_keepsInbox (s : State) (a : AlarmId) (detail : Nat) : KeepsInbox s (s.alarm a detail) := by
  unfold State.alarm
  exact KeepsInbox.ite ((logAlarm_keepsInbox s _ _).trans (logAlarm_keepsInbox ..)) (logAlarm_keepsInbox s _ _)

theorem alarmIf_keepsInbox (s : State) (c : Bool) (a : AlarmId) (detail : Nat) : KeepsInbox s (s.alarmIf c a detail) :=
  KeepsInbox.ite (alarm_keepsInbox ..) (KeepsInbox.refl s)

theorem sendUnit_keepsInbox (s : State) (ty : Nat) (payload : List Byte) (bulk : Option BulkPart) :
    KeepsInbox s (sendUnit s ty payload bulk) := by
  unfold sendUnit
  dsimp only
  split <;> exact ⟨rfl, rfl, rfl⟩

theorem mirror_keepsInbox (s : State) (kind gen tick : Nat) (body : List Byte) : KeepsInbox s (mirror s kind gen tick body) :=
  KeepsInbox.ite (sendUnit_keepsInbox ..) (KeepsInbox.refl s)

theorem mirrorWrite_keepsInbox (s : State) (gen tick ix sub : Nat) (v : Val) : KeepsInbox s (mirrorWrite s gen tick ix sub v) := by
  unfold mirrorWrite
  refine KeepsInbox.ite ?_ (mirror_keepsInbox ..)
  exact (KeepsInbox.ite (KeepsInbox.foldl (fun _ _ => sendUnit_keepsInbox ..) _ _) (KeepsInbox.refl s)).trans (mirror_keepsInbox ..)

theorem unpreparePage_keepsInbox (s : State) (p : Fin 16) (changed : List Nat) : KeepsInbox s (unpreparePage s p changed) :=
  KeepsInbox.foldl (fun _ _ => setEngine_keepsInbox ..) _ _

theorem freeSlot_keepsInbox (s : State) (id : Nat) : KeepsInbox s (freeSlot s id) := by
  unfold freeSlot
  split
  · exact (setNat_keepsInbox ..).trans (setNat_keepsInbox ..)
  · exact KeepsInbox.refl s

theorem endCommit_keepsInbox (s : State) (p : Pending) (code gen : Nat) : KeepsInbox s (endCommit s p code gen) := by
  have freed := (show KeepsInbox s { s with shut := { s.shut with pend := s.shut.pend.filter (fun q => q.id != p.id) } }
    from ⟨rfl, rfl, rfl⟩).trans (freeSlot_keepsInbox _ p.id)
  have listed := ((freed.trans (setNat_keepsInbox _ Ix.shutHistory (p.id % 64) (p.id + 4294967296 * code))).trans
    (setNat_keepsInbox _ Ix.shutHistGen (p.id % 64) gen)).trans (setNat_keepsInbox _ Ix.shutHistTick (p.id % 64) s.tick)
  unfold endCommit
  exact (listed.trans (KeepsInbox.ite (withPair_keepsInbox _ _) (KeepsInbox.refl _))).trans ((setNat_keepsInbox ..).trans (mirror_keepsInbox ..))

theorem rejectCommit_keepsInbox (s : State) (p : Pending) (code : Nat) : KeepsInbox s (rejectCommit s p code) := by
  unfold rejectCommit
  exact (((KeepsInbox.ite (KeepsInbox.foldl (fun _ _ => unpreparePage_keepsInbox ..) _ _) (KeepsInbox.refl s)).trans
    (endCommit_keepsInbox ..)).trans (setNat_keepsInbox ..)).trans (alarmIf_keepsInbox ..)

/-- Pending commits that would be jumped over are rejected; no move is in progress to be abandoned (R181, R384). -/
theorem dropOpen_keepsInbox (h : s.rsv.move = none) : KeepsInbox s (dropOpen s) := by
  have k : KeepsInbox s (rejectOpen s 14) := KeepsInbox.foldl (fun _ _ => rejectCommit_keepsInbox ..) _ _
  have hmove : (rejectOpen s 14).rsv.move = none := k.move.trans h
  unfold dropOpen abandonAuto
  rw [hmove]
  exact k

theorem onAccept_keepsInbox (h : s.rsv.move = none) (ix v : Nat) : KeepsInbox s (onAccept s ix v) := by
  unfold onAccept
  refine KeepsInbox.ite (dropOpen_keepsInbox h) (KeepsInbox.ite ?_ (KeepsInbox.refl s))
  exact (withPair_keepsInbox s _).trans (setNat_keepsInbox ..)

/-- The direct write that an accepted value waits as (R163). -/
def waitingWrite (s : State) (a : Accept) (mbox : Option (Nat × Nat)) : DirectWrite :=
  { ix := a.ix, sub := a.sub, val := a.val, mbox := mbox, after := firstBoundary s a.ix, gen := none, priv := a.priv }

/-- An accepted direct write waits behind those accepted before it (R163). -/
theorem acceptOne_waits (h : s.rsv.move = none) {a : Accept} (hw : writeOnly a.ix = false) (mbox : Option (Nat × Nat)) :
    (acceptOne s a mbox).writes = s.writes ++ [waitingWrite s a mbox] ∧ (acceptOne s a mbox).ctl.inbox = s.ctl.inbox := by
  have hd (w : DirectWrite) : (directWrite s w).writes = s.writes ++ [w] ∧ (directWrite s w).ctl.inbox = s.ctl.inbox ∧
      (directWrite s w).rsv.move = s.rsv.move := by
    have k : KeepsInbox s (if isPairObj w.ix then mirrorWrite s (comingGen s w.after) w.after w.ix w.sub w.val else s) :=
      KeepsInbox.ite (mirrorWrite_keepsInbox ..) (KeepsInbox.refl s)
    exact ⟨congrArg (· ++ [w]) k.writes, k.inbox, k.move⟩
  obtain ⟨hwrites, hinbox, hmove⟩ := hd (waitingWrite s a mbox)
  have k := onAccept_keepsInbox (hmove.trans h) a.ix a.val.toNat
  unfold acceptOne
  rw [hw]
  exact ⟨k.writes.trans hwrites, k.inbox.trans hinbox⟩

/-- A WRITE message that every check passes (R106). -/
theorem mboxWrite_eq {n : Fin 16} {ws : List Word} {a : Accept} (hin : inboxOf s n 1 = some ws) (hr : hkRuns s = true)
    (hc : mailCheck (takeInbox s n ws) (mailPriv (s.engine n)) ws = .ok a) : exec (.mboxWrite n) s =
      .next (acceptOne (takeInbox s n ws) a (some (n.val, (listGet 0 0 ws).toNat / 65536 % 256))) := by
  change execMboxWrite n s = _
  simp only [execMboxWrite, hin, hr, hc, Bool.not_true, Bool.false_eq_true, if_false]

end

end Sys2Proof.Machine

open Sys2Proof Sys2Proof.Machine

/-- Settles O12, command by command: messages in by `sendMail`, the registers of the mailbox by `portWrite`, WRITE messages by
`acceptOne`. -/
theorem mailboxCommandsMoveTheirMessages : Obligations.MailboxCommandsMoveTheirMessages := by
  unfold Obligations.MailboxCommandsMoveTheirMessages
  intro s n port hmove e loc may
  have hmay (h : may) : portOpen s n port := by
    cases port with
    | engine => exact h
    | fabric => exact h
  refine ⟨fun ws hv hm hq h1 h8 => ?_, fun m hfind hv hm hlen => ?_, fun h => mboxAck_eq (hmay h), fun h => softIrqSet_eq (hmay h),
    fun h hf => ?_, fun h hf hd => ?_, fun hc hf => mboxOutCollect_eq hmove hc hf, fun ws h => mboxAlarm_eq h,
    fun ws a hin hr hw hc => ?_⟩
  · refine ⟨_, mboxInMessage_eq hmove hv hm hq h1 h8, ?_, ?_, rfl, fun i hi => ?_, rfl, rfl, rfl, fun m hne => withMail_engine_ne s hne ws⟩
    · rw [withMail_engine_self]
      rfl
    · rw [withMail_engine_self, takeMail_len _ h8]
    · rw [withMail_engine_self, takeMail_word ws _ i hi]
  · refine ⟨_, writeReply_eq hmove hfind hv hm hlen, ?_, ?_, fun i hi => ?_, rfl, rfl, fun k hne => withMail_engine_ne _ hne m.2⟩
    · rw [withMail_engine_self]
      rfl
    · rw [withMail_engine_self]
      exact BitVec.eq_of_toNat_eq ((takeMail_len _ (by omega)).trans hlen)
    · rw [withMail_engine_self, takeMail_word m.2 _ i (by omega)]
  · rw [mboxSend_eq (hmay h), mboxSend_empty hf, commitEngine_nil]
  · rw [mboxSend_eq (hmay h), mboxSend_full hf hd]
    rfl
  · obtain ⟨hwrites, hinbox⟩ := acceptOne_waits (s := takeInbox s n ws) hmove hw (some (n.val, (listGet 0 0 ws).toNat / 65536 % 256))
    exact ⟨_, mboxWrite_eq hin hr hc, hwrites, hinbox⟩
end

section
/-! A refusal that does not fit its reply (R190, R191). The result of an operation carried out takes 8 bytes and that of a refusal
12; where a reply has room for the first only, a DOM_CLOSE that refuses a firmware image is answered TOO_LARGE, and nothing of
what it does stays. -/

namespace Sys2Proof.Machine

/-! ### The length of a reply (R190) -/

theorem padTo_length (m : Nat) (b : List Byte) : (padTo m b).length = b.length + (m - b.length % m) % m := by
  simp [padTo]

theorem resultBytes_length (r : OpResult) : (resultBytes r).length = 8 + (padTo 4 r.data).length := by
  simp [resultBytes, bytesLE]
  omega

theorem replyBytes_length (session counter status gen tick : Nat) (rs : List OpResult) (key : Option (List Byte)) :
    (replyBytes session counter status gen tick rs key).length =
      32 + (rs.map resultBytes).flatten.length + if key.isSome then 16 else 0 := by
  cases key <;> simp [replyBytes, header, bytesLE, Config.cmac] <;> omega

/-! ### A frame that is answered without a write -/

theorem released_replied (s : State) : Replied s (released s) := ⟨rfl, fun _ _ _ => rfl⟩

/-- A frame that has accepted no write and closes no session is answered, and that is all. -/
theorem completeFrame_replied {v : Serving} (ha : v.accepts = []) (hc : v.closing = false) (s : State) :
    Replied s (completeFrame s v) := by
  have hnext (t : State) : nextOf t v = .none := by simp [nextOf, ha, hc, AfterReply.none]
  unfold completeFrame
  rw [ha]
  exact (((released_replied s).trans (mapSess_replied _ _ _)).trans (sendReply_replied _ _ _ (hnext _))).trans (serveNext_replied _)

/-- An operation whose result does not fit leaves the state as it was before it (R191). -/
theorem carryOut_unfitting {s : State} {v : Serving} {code : Nat} {op : Op} {rest : List (Nat × Op)} (ha : v.accepts = [])
    (hc : v.closing = false)
    (hf : resultFits (doOp s v code op).st (doOp s v code op).sv
      { op := code, status := (doOp s v code op).status, data := (doOp s v code op).data } rest = false) :
    Replied s (carryOut s v code op rest) := by
  have hcut : carryOut s v code op rest = completeFrame s { v with ops := [], results := v.results ++ [cutResult s v code] } :=
    if_neg (by simp [hf])
  rw [hcut]
  exact completeFrame_replied (v := { v with ops := [], results := v.results ++ [cutResult s v code] }) ha hc s

/-! ### The state of the refutation -/

/-- BOOT_FW_IMAGE, as the table has it. -/
def fwImageRow : ObjRow :=
  { ix := Ix.bootFwImage, name := "BOOT_FW_IMAGE", ty := .domain, acc := .rwk, subs := .one, rng := .any, dflt := .bytes [] }

/-- A transfer of one byte into BOOT_FW_IMAGE, complete: the byte 0 that its window holds. -/
def fwTransfer : Transfer := { ix := Ix.bootFwImage, sub := 0, writing := true, length := 1, window := transferArea }

def fwSession : Session :=
  { via := .udp, peer := 5, port := 6, slot := 0, priv := 3, tagAll := false, key := [], counter := 0, lastFrame := [], lastReply := [],
    notifySeq := 0, subs := [], nextHandle := 1, transfer := some fwTransfer, closing := false }

/-- The DOM_CLOSE of the transfer, with the hash of its value. -/
def fwClose : Op := { ty := fwImageRow.ty.code, index := Ix.bootFwImage, count := 1, sub := 0, set := 0, data := Config.sha256 [0] }

/-- The result of an operation before it, of 1,408 bytes: with its 8, the header's 16, the body's 16 and the tag's 16 it leaves 8 of
the 1,472 bytes of a reply. -/
def longResult : OpResult := { op := Oc.read, status := 0, data := List.replicate 1408 0 }

def fullFrame : Serving :=
  { via := .udp, session := 1, peer := 5, port := 6, counter := 1, keyed := true, bytes := [], ops := [(Oc.domClose, fwClose)],
    results := [longResult], accepts := [], mirrored := false, closing := false, gen := 0, tick := 0,
    shot := { dict := [], snap := [], sets := [], shared := 0 } }

/-- The block started up, with that frame in service. -/
def fullReply : State := { State.reset with
  boot := { BootSt.reset with stage := 7 }
  ctl := { CtlSt.reset with sessions := [(1, some fwSession)], serving := some fullFrame } }

theorem longResult_length : (resultBytes longResult).length = 1416 := by
  rw [resultBytes_length, padTo_length, show longResult.data.length = 1408 from List.length_replicate]

theorem fullFrame_replyLen (t : State) (r : OpResult) : replyLen t fullFrame r =
    1448 + (resultBytes r).length + if (replyKey t fullFrame).isSome then 16 else 0 := by
  unfold replyLen replyOf
  rw [replyBytes_length, show fullFrame.results = [longResult] from rfl]
  simp [longResult_length]
  omega

/-- A result without data fits. -/
theorem fullFrame_fits (t : State) : fitsReply t fullFrame Oc.domClose [] [] := by
  unfold fitsReply
  rw [fullFrame_replyLen]
  split <;> decide

theorem fwClose_data_length : fwClose.data.length = 32 := by simp [fwClose, Config.sha256]

theorem fullReply_window : memBytes fullReply fwTransfer.window fwTransfer.length = [0] := rfl

/-- The byte is no firmware image: it has no MAGIC (R448). -/
theorem fullReply_unverified : fwVerifies fullReply [0] = false := by decide

theorem fullReply_transfer : domTransfer fullReply fullFrame fwClose = .ok (fwImageRow, fwSession, fwTransfer) := rfl

theorem fullReply_gate : writeGate fullReply fullFrame fwImageRow = 0 := by decide

/-- The DOM_CLOSE refuses the image: its status becomes 3 (R456). -/
theorem doDomClose_fullReply : doDomClose fullReply fullFrame fwClose =
    refusal (fullReply.setNat Ix.bootFwStatus 0 3) fullFrame Rc.range 0 := by
  have hwriting : fwTransfer.writing = true := rfl
  have hfree : fullReply.boot.writing = none := rfl
  have hnone : fullReply.writes = [] := rfl
  unfold doDomClose
  rw [fullReply_transfer]
  simp only [hwriting, fwClose_data_length, fullReply_gate, windowBytes, fullReply_window, fullReply_unverified]
  simp [fwClose, fwImageRow, hfree, hnone]

/-- Its 4 bytes of data do not fit. -/
theorem refusal_unfitting (t : State) (ht : (replyKey t fullFrame).isSome = true) :
    resultFits t fullFrame { op := Oc.domClose, status := Rc.range, data := bytesLE 4 0 } [] = false := by
  unfold resultFits
  rw [fullFrame_replyLen, ht, resultBytes_length]
  exact decide_eq_false (by decide)

theorem bootFwImage_fullReply : ∃ t, exec .bootFwImage fullReply = .next t ∧ Replied fullReply t := by
  have hserve : serve .bootFwImage fullReply = carryOut fullReply fullFrame Oc.domClose fwClose [] := by
    have hrow : rowOf Oc.domClose fwClose = .bootFwImage := by
      simp only [rowOf, closeRow, fwClose_data_length]
      rfl
    have hruns : hkRuns fullReply = true := rfl
    exact if_pos (by rw [hrow, hruns]; rfl)
  have hdo : doOp fullReply fullFrame Oc.domClose fwClose = refusal (fullReply.setNat Ix.bootFwStatus 0 3) fullFrame Rc.range 0 :=
    doDomClose_fullReply
  refine ⟨_, congrArg Host.Outcome.next hserve, carryOut_unfitting rfl rfl ?_⟩
  rw [hdo]
  exact refusal_unfitting _ rfl

end Sys2Proof.Machine

open Sys2Proof Sys2Proof.Machine

/-- Refutes O27: in `fullReply` the refusal of a firmware image does not fit the reply, and BOOT_FW_STATUS stays 0. -/
theorem not_domainValuesWaitForTheirLanding : ¬ Obligations.DomainValuesWaitForTheirLanding := by
  unfold Obligations.DomainValuesWaitForTheirLanding
  intro h
  have hcheck : valueCheck fullReply (afterWrites fullReply fullFrame) true fwImageRow 0 (.bytes [0]) = 0 := by decide +kernel
  have hslots : slotsCode fullReply [(fwImageRow.ix, 0, 0)] = 0 := by decide +kernel
  obtain ⟨-, hfirmware, -⟩ := h fullReply fullFrame fwClose fwImageRow fwSession fwTransfer ⟨rfl, rfl, rfl⟩ rfl rfl rfl rfl rfl rfl rfl rfl
    rfl rfl fwClose_data_length rfl rfl fullReply_gate rfl hcheck hslots rfl fullFrame_fits
  have hrefused := hfirmware rfl rfl (fun w hw => by cases hw)
  rw [fullReply_window, fullReply_unverified, if_neg (by decide)] at hrefused
  obtain ⟨t, ht, -, hstatus, -⟩ := hrefused
  obtain ⟨u, hu, hreplied⟩ := bootFwImage_fullReply
  rw [hu] at ht
  cases ht
  have hzero : t.nat Ix.bootFwStatus = 0 := (hreplied.nat (ix := Ix.bootFwStatus) rfl 0).trans rfl
  rw [hzero] at hstatus
  cases hstatus
end

section
/-! The limiter at rest (R132): what enters below the ceiling leaves unchanged, four samples later. -/

namespace Sys2Proof.Machine

theorem limRelease_unity (kr : Nat) : limRelease (2 ^ 31) kr = 2 ^ 31 := by
  simp [limRelease]

/-- Five samples within the ceiling leave g at unity (R132). -/
theorem limGain_unity (kr : Nat) : limGain (2 ^ 31) kr (List.replicate 5 (2 ^ 31)) = 2 ^ 31 := by
  unfold limGain
  rw [limRelease_unity]
  rfl

theorem limApply_unity (x : Word) : limApply x (2 ^ 31) = x := by
  unfold limApply
  rw [show ((2 ^ 31 : Nat) : Int) = 2 ^ 31 from rfl, Int.mul_tdiv_cancel _ (by decide), BitVec.ofInt_toInt]

/-- At rest, a limiter does with a sample within its ceiling what it does in bypass. -/
theorem limSample_resting {c kr : Nat} {x : Word} {l : Limiter} (hg : l.g = 2 ^ 31) (hq : l.hq = List.replicate 4 (2 ^ 31))
    (hx : limQ c x = 2 ^ 31) : limSample c kr x l = limBypass x l := by
  have hqs : limQ c x :: l.hq.reverse = List.replicate 5 (2 ^ 31) := by rw [hx, hq]; rfl
  have hnext : l.hq.drop 1 ++ [limQ c x] = l.hq := by rw [hx, hq]; rfl
  have hgain : limGain l.g kr (limQ c x :: l.hq.reverse) = l.g := by rw [hqs, hg, limGain_unity]
  have happly : limApply (listGet 0 0 l.held) l.g = listGet 0 0 l.held := by rw [hg, limApply_unity]
  unfold limSample limBypass
  simp only [hgain, hnext, happly]

theorem limFrame_resting {c kr : Nat} {xs : List Word} {l : Limiter} (hg : l.g = 2 ^ 31) (hq : l.hq = List.replicate 4 (2 ^ 31))
    (hxs : ∀ x ∈ xs, limQ c x = 2 ^ 31) : limFrame (limSample c kr) xs l = limFrame limBypass xs l := by
  induction xs generalizing l with
  | nil => rfl
  | cons x xs ih =>
    obtain ⟨hx, hrest⟩ := List.forall_mem_cons.mp hxs
    have hstep : limFrame (limSample c kr) xs (limBypass x l).2 = limFrame limBypass xs (limBypass x l).2 := ih hg hq hrest
    simp only [limFrame, limSample_resting hg hq hx, hstep]

/-- The samples held pass through a bypassed limiter first, then those that come in (R134). -/
theorem limFrame_bypass {xs : List Word} {l : Limiter} (h : l.held ≠ []) : limFrame limBypass xs l =
    ((l.held ++ xs).take xs.length, { l with held := (l.held ++ xs).drop xs.length }) := by
  induction xs generalizing l with
  | nil => simp [limFrame]
  | cons x xs ih =>
    obtain ⟨y, ys, hys⟩ := List.exists_cons_of_ne_nil h
    have hstep : limBypass x l = (y, { l with held := ys ++ [x] }) := by simp [limBypass, hys, listGet]
    have hrest := ih (l := { l with held := ys ++ [x] }) (by simp)
    simp [limFrame, hstep, hrest, hys]

end Sys2Proof.Machine
end

section
/-! The egress stage of a destination without an output format (R131): its limiter, its reports, and the words that leave. -/

namespace Sys2Proof.Machine

/-- The registers that report a destination and its limiter (R139, R147). -/
def destReportIx (ix : Nat) : Bool :=
  ix == Ix.latDestState || ix == Ix.limGr || ix == Ix.limGrMax

/-- From `s` to `t` nothing has changed of what an output format or an output depends on, but records of destinations and their
reports. -/
structure DestsReported (s t : State) : Prop where
  clk : t.clk = s.clk
  port : t.port = s.port
  net : t.net = s.net
  out : t.out = s.out
  obj : ∀ ix sub, destReportIx ix = false → t.obj ix sub = s.obj ix sub

section
variable {s t u : State}

theorem DestsReported.trans (h : DestsReported s t) (k : DestsReported t u) : DestsReported s u :=
  ⟨k.clk.trans h.clk, k.port.trans h.port, k.net.trans h.net, k.out.trans h.out,
    fun ix sub a => (k.obj ix sub a).trans (h.obj ix sub a)⟩

theorem DestsReported.setObj (s : State) {ix : Nat} (hx : destReportIx ix = true) (sub : Nat) (v : Val) :
    DestsReported s (s.setObj ix sub v) := by
  refine ⟨setObj_clk .., setObj_port .., setObj_net .., setObj_out .., fun jx sub' a => obj_setObj_ne s (objKey_ne_index ?_) v⟩
  rintro rfl
  rw [hx] at a
  cases a

theorem setDest_destsReported (s : State) (d : Nat) (r : Dest) : DestsReported s (s.setDest d r) :=
  have hrecord : DestsReported s { s with lat := { s.lat with dests := mapSet (fun _ => Dest.reset) d r s.lat.dests } } :=
    ⟨rfl, rfl, rfl, rfl, fun _ _ _ => rfl⟩
  hrecord.trans (.setObj _ rfl _ _)

theorem reportGr_destsReported (s : State) (d g : Nat) : DestsReported s (reportGr s d g) :=
  (DestsReported.setObj s rfl _ _).trans (.setObj _ rfl _ _)

theorem DestsReported.tag (h : DestsReported s t) : t.tag = s.tag := by
  unfold State.tag
  rw [h.clk]

theorem DestsReported.nat (h : DestsReported s t) {ix : Nat} (hx : destReportIx ix = false) (sub : Nat) :
    t.nat ix sub = s.nat ix sub := by
  unfold State.nat State.int
  rw [h.obj ix sub hx]

theorem DestsReported.flag (h : DestsReported s t) {ix : Nat} (hx : destReportIx ix = false) (sub : Nat) :
    t.flag ix sub = s.flag ix sub := by
  unfold State.flag State.int
  rw [h.obj ix sub hx]

theorem DestsReported.outBits (h : DestsReported s t) (d : Nat) : outBits t d = outBits s d := by
  have hstream : txStreamOf t d = txStreamOf s d := by
    unfold txStreamOf
    simp only [h.net, h.nat (ix := Ix.ntxBase) rfl, h.nat (ix := Ix.ntxFmt) rfl]
  have htdm : tdmOutBits t d = tdmOutBits s d := by
    unfold tdmOutBits dirOf
    rw [h.port]
  unfold Machine.outBits
  simp only [hstream, htdm, h.nat (ix := Ix.ntxFmt) rfl, h.nat (ix := Ix.cueState) rfl, h.flag (ix := Ix.aesoEn) rfl]

end

/-! ### The registers of a limiter (R139) -/

theorem int_setInt_ne (s : State) {ix sub jx sub' : Nat} (h : objKey jx sub' ≠ objKey ix sub) (n : Int) :
    (s.setInt ix sub n).int jx sub' = s.int jx sub' := by
  unfold State.int State.setInt
  rw [obj_setObj_ne s h]

theorem int_setDest (s : State) (d : Nat) (r : Dest) {ix : Nat} (hx : ix ≠ Ix.latDestState) (sub : Nat) :
    (s.setDest d r).int ix sub = s.int ix sub :=
  int_setNat_ne { s with lat := { s.lat with dests := mapSet (fun _ => Dest.reset) d r s.lat.dests } } (objKey_ne_index hx) _

theorem reportGr_limGr (s : State) (d g : Nat) : (reportGr s d g).int Ix.limGr d = grOf g := by
  unfold reportGr
  rw [int_setInt_ne _ (objKey_ne_index (by decide)), int_setInt_self]

theorem reportGr_limGrMax (s : State) (d g : Nat) :
    (reportGr s d g).int Ix.limGrMax d = min (grOf g) (s.int Ix.limGrMax d) := int_setInt_self ..

@[simp] theorem dest_reportGr (s : State) (d g m : Nat) : (reportGr s d g).dest m = s.dest m := by
  unfold reportGr State.dest
  rw [setInt_lat, setInt_lat]

/-! ### The record of a destination handed over -/

@[simp] theorem dest_setEgress_self (s : State) (d : Nat) (ws : List Word) :
    (setEgress s d ws).dest d = { s.dest d with egress := ws, converted := true } := dest_setDest_self ..

theorem dest_setEgress_ne (s : State) {d m : Nat} (h : m ≠ d) (ws : List Word) : (setEgress s d ws).dest m = s.dest m :=
  dest_setDest_ne s h _

/-! ### What leaves the block -/

section
variable {s : State} {d : Nat}

theorem fadeRoute_unity (transp : Bool) {f : Fade} (h : f.mode = .unity) (ws : List Word) : (fadeRoute transp f ws).1 = ws :=
  fadeFrame_unity transp (by simp [allUnity, h]) ws

/-- The words a destination without an output format hands over, as mix words; an AES3 output that is off sends none (R131). -/
def mixOutput (s : State) (d : Nat) (ws : List Word) : List Output :=
  if 0x2400 ≤ d ∧ d < 0x2410 then [] else [.egress d s.tag (ws.map (fun w => w.toInt))]

theorem sendEgress_noFormat (h : outBits s d = none) (ws : List Word) :
    sendEgress s d ws = { s with out := s.out ++ mixOutput s d ws } := by
  unfold sendEgress mixOutput
  rw [h]
  dsimp only
  split
  · rw [List.append_nil]
  · rfl

theorem handEgress_noFormat (ht : d < 0x2000 ∨ 0x2400 ≤ d) (h : outBits s d = none) (ws : List Word) :
    handEgress s d ws = { setEgress s d ws with out := s.out ++ mixOutput s d ws } := by
  have k : DestsReported s (setEgress s d ws) := setDest_destsReported ..
  unfold handEgress
  rw [if_neg (by omega), sendEgress_noFormat ((k.outBits d).trans h), k.out]
  unfold mixOutput
  rw [k.tag]

/-- With the substitution fade at unity, the words that have passed the limiter are handed over (R44, R131). -/
theorem convertDest_unity (hp : isPhysDest d = true) (hg : (s.dest d).gathered = true) (hc : (s.dest d).converted = false)
    (hf : (s.dest d).egFade.mode = .unity) {ws : List Word} {l : Limiter} (hl : limRun s d (s.dest d) = (ws, l)) :
    ∃ r : Dest, r.lim = l ∧ convertDest s d = handEgress (reportGr (s.setDest d r) d l.g) d ws := by
  have hopen : (!isPhysDest d || !(s.dest d).gathered || (s.dest d).converted) = false := by
    rw [hp, hg, hc]
    rfl
  have hfade : ((s.dest d).egFade.mode == .unity) = true := by rw [hf]; rfl
  unfold convertDest
  simp only [hopen, hl, hfade, fadeRoute_unity _ hf, Bool.false_eq_true, if_false, if_true]
  exact ⟨_, rfl, rfl⟩

/-- A destination that is handed over as mix words: what leaves, its record, and its reports. -/
theorem handEgress_reported (ht : d < 0x2000 ∨ 0x2400 ≤ d) (hb : outBits s d = none) (r : Dest) (ws : List Word) :
    let t := handEgress (reportGr (s.setDest d r) d r.lim.g) d ws
    t.out = s.out ++ mixOutput s d ws ∧ t.dest d = { r with egress := ws, converted := true } ∧
      (∀ m, m ≠ d → t.dest m = s.dest m) ∧ t.int Ix.limGr d = grOf r.lim.g ∧
      t.int Ix.limGrMax d = min (grOf r.lim.g) (s.int Ix.limGrMax d) := by
  intro t
  let u := reportGr (s.setDest d r) d r.lim.g
  have k : DestsReported s u := (setDest_destsReported s d r).trans (reportGr_destsReported ..)
  have hdest (m : Nat) : u.dest m = (s.setDest d r).dest m := dest_reportGr ..
  have hint {ix : Nat} (hx : ix ≠ Ix.latDestState) : (setEgress u d ws).int ix d = u.int ix d := int_setDest u d _ hx d
  have hmix : mixOutput u d ws = mixOutput s d ws := by
    unfold mixOutput
    rw [k.tag]
  have hsent : t = { setEgress u d ws with out := s.out ++ mixOutput s d ws } := by
    rw [← hmix, ← k.out]
    exact handEgress_noFormat ht ((k.outBits d).trans hb) ws
  rw [hsent]
  refine ⟨rfl, (dest_setEgress_self u d ws).trans ?_, fun m hm => (dest_setEgress_ne u hm ws).trans ?_,
    (hint (by decide)).trans (reportGr_limGr ..), (hint (by decide)).trans ?_⟩
  · rw [hdest, dest_setDest_self]
  · rw [hdest, dest_setDest_ne _ hm]
  · rw [reportGr_limGrMax, int_setDest _ _ _ (by decide)]

end

end Sys2Proof.Machine

open Sys2Proof Sys2Proof.Machine

/-- Settles O20: at unity the words that have passed the limiter are handed over, and without a format they leave as they are. -/
theorem egressConvertHandsOver : Obligations.EgressConvertHandsOver := by
  unfold Obligations.EgressConvertHandsOver
  intro s d r
  rcases hl : limRun s d.toNat r with ⟨ws, l⟩
  intro hw hs hp hg hc hf ht hb
  obtain ⟨r1, rfl, hconvert⟩ := convertDest_unity hp hg hc hf hl
  have hx : exec (.egressConvert d) s = .next (handEgress (reportGr (s.setDest d.toNat r1) d.toNat r1.lim.g) d.toNat ws) := by
    rw [← hconvert]
    change Host.Outcome.next (inTick s (convertDest · d.toNat)) = _
    unfold inTick
    rw [if_pos hw, hs]
  obtain ⟨hout, hdest, hothers, hgr, hmax⟩ := handEgress_reported ht hb r1 ws
  refine ⟨_, hx, ?_, by rw [hdest], by rw [hdest], by rw [hdest], hgr, hmax, hothers⟩
  rw [hout]
  unfold mixOutput
  split
  · exact List.append_nil _
  · rfl

/-- Settles O21: at rest the limiter acts as in bypass, where samples pass in their order. -/
theorem limiterPassesSamplesBelowTheCeiling : Obligations.LimiterPassesSamplesBelowTheCeiling := by
  unfold Obligations.LimiterPassesSamplesBelowTheCeiling
  intro c kr xs l hg hlen hq hxs _ r
  have hheld : l.held ≠ [] := List.ne_nil_of_length_pos (by omega)
  have hr : r = ((l.held ++ xs).take xs.length, { l with held := (l.held ++ xs).drop xs.length }) :=
    (limFrame_resting hg hq hxs).trans (limFrame_bypass hheld)
  rw [hr]
  exact ⟨rfl, hg, rfl⟩
end

section
/-! What a step does with the queue, and that no command ends in a fault or a refusal (R189, R191). -/

namespace Sys2Proof.Machine

/-- What a command answers is a next state. -/
def Answers (o : Host.Outcome State Fault Refusal) : Prop := ∃ t, o = .next t

theorem Answers.next (t : State) : Answers (.next t) := ⟨t, rfl⟩

theorem Answers.ite {c : Prop} [Decidable c] {o p : Host.Outcome State Fault Refusal} (ho : Answers o) (hp : Answers p) :
    Answers (if c then o else p) := by
  split
  · exact ho
  · exact hp

/-- Every command answers a next state: what the spec refuses is answered by a status, an alarm or no effect. The commands named
here branch before they answer; each of the others is `.next` of one state. -/
theorem exec_next (c : Instr) (s : State) : Answers (exec c s) := by
  cases c
  case waitphaseReturn | postStallEnd | illegalBundle | interruptTaken | inputGatherDone | outputFrameCopied | tdmFsTimeout |
      rateWindow | directionReturn | portFadeEnd | asrcLocked | aesSubframeReceived | aesCsBlock | aesPreambleTimeout |
      streamPacketReceived | streamPacketSent | ringFrameReceived | txDescriptorHandover | ringFrameSent | mediaArpRequest |
      igmpRepeat | igmpQuery | chainForward | linkUpDeclared | legDown | timeMeasurement | timeFirstStep | ptpSyncReceived |
      ptpAnnounceReceived | ptpAnnounceTimeout | trigEdge | trigPulseEnd | captEdgeStamp | refQualified | refHoldSpecExpiry |
      holdOscActivityLoss | syspllLossOfLock | medsynLockDeclared | medsynLossOfLock | rampSegmentEnd | syncEdge |
      fabricTransaction | bankScrubRead | delayStream | txFollowerClockReturn =>
    dsimp only [exec, execWaitphaseReturn, execPostStallEnd, execIllegalBundle, execInterruptTaken, execInputGatherDone,
        execOutputFrameCopied, execTdmFsTimeout, execRateWindow, execDirectionReturn, execPortFadeEnd, execAsrcLocked,
        execAesSubframeReceived, execAesCsBlock, execAesPreambleTimeout, execStreamPacketReceived, execStreamPacketSent,
        execRingFrameReceived, execTxDescriptorHandover, execRingFrameSent, execMediaArpRequest, execIgmpRepeat, execIgmpQuery,
        execChainForward, execLinkUpDeclared, execLegDown, execTimeMeasurement, execTimeFirstStep, execPtpSyncReceived,
        execPtpAnnounceReceived, execPtpAnnounceTimeout, execTrigEdge, execTrigPulseEnd, execCaptEdgeStamp, execRefQualified,
        execRefHoldSpecExpiry, execHoldOscActivityLoss, execSyspllLossOfLock, execMedsynLockDeclared, execMedsynLossOfLock,
        execRampSegmentEnd, execSyncEdge, execFabricTransaction, execBankScrubRead, execDelayStream, execTxFollowerClockReturn]
    with_reducible repeat' (first | exact Answers.next _ | apply Answers.ite | split)
  all_goals exact Answers.next _

end Sys2Proof.Machine

open Sys2Proof Sys2Proof.Machine

/-- Settles O57, by the two cases of the queue. -/
theorem stepRunsTheFrontCommand : Obligations.StepRunsTheFrontCommand := by
  unfold Obligations.StepRunsTheFrontCommand
  refine ⟨fun c s rest hq => ?_, fun s hq => ?_⟩
  · unfold step
    rw [hq]
  · unfold step
    rw [hq]

/-- Settles O58: a command answers a next state, and what `exec_keep` says of it is that the queue, the outputs and the free values
are in order. -/
theorem everyCommandCompletes : Obligations.EveryCommandCompletes := by
  unfold Obligations.EveryCommandCompletes
  intro c s
  obtain ⟨t, ht⟩ := exec_next c s
  have hkeep : Keep s t := by
    have h := exec_keep c s
    rw [ht] at h
    exact h
  obtain ⟨more, hmore⟩ := hkeep.out
  exact ⟨t, more, ht, hkeep.pending, hmore.symm, hkeep.fresh⟩
end

section
/-! The event log (R204, R205): what an alarm adds to it where no entry is lost and no takeover is recent. -/

namespace Sys2Proof.Machine

section
variable {s : State} {code detail : Nat}

theorem isLogIx_outside {ix : Nat} (h : ix < Ix.ctlLogCode ∨ Ix.ctlLogHead < ix) : isLogIx ix = false := by
  have hne (jx : Nat) (hj : Ix.ctlLogCode ≤ jx ∧ jx ≤ Ix.ctlLogHead) : (ix == jx) = false := beq_eq_false_iff_ne.2 (by omega)
  unfold isLogIx
  rw [hne _ (by decide), hne _ (by decide), hne _ (by decide), hne _ (by decide), hne _ (by decide)]
  rfl

/-- The newest entry of the log is of this code and detail, and at most 12 ticks old (R204). -/
theorem logRepeats_iff : logRepeats s code detail = true ↔
    0 < s.nat Ix.ctlLogHead ∧ s.nat Ix.ctlLogCode ((s.nat Ix.ctlLogHead + 1023) % 1024) = code ∧
      s.nat Ix.ctlLogDetail ((s.nat Ix.ctlLogHead + 1023) % 1024) = detail ∧
      s.nat Ix.ctlLogTick ((s.nat Ix.ctlLogHead + 1023) % 1024) ≤ s.clk.tick ∧
      s.clk.tick ≤ s.nat Ix.ctlLogTick ((s.nat Ix.ctlLogHead + 1023) % 1024) + 12 := by
  unfold logRepeats
  simp only [Bool.and_eq_true, decide_eq_true_eq, beq_iff_eq, Nat.sub_le_iff_le_add', and_assoc]

/-- A repeat counts in the newest entry, and nothing else changes. -/
theorem logAdd_repeat (h : logRepeats s code detail = true) : logAdd s code detail =
    s.setNat Ix.ctlLogRepeat ((s.nat Ix.ctlLogHead + 1023) % 1024)
      (min (s.nat Ix.ctlLogRepeat ((s.nat Ix.ctlLogHead + 1023) % 1024) + 1) 0xFFFF) := if_pos h

/-- The registers of a new entry. -/
theorem logAdd_new (h : logRepeats s code detail = false) (hh : s.nat Ix.ctlLogHead < 0xFFFFFFFF) :
    let t := logAdd s code detail
    let e := s.nat Ix.ctlLogHead % 1024
    t.nat Ix.ctlLogHead = s.nat Ix.ctlLogHead + 1 ∧ t.nat Ix.ctlLogCode e = code ∧ t.nat Ix.ctlLogDetail e = detail ∧
      t.nat Ix.ctlLogRepeat e = 0 ∧ t.nat Ix.ctlLogTick e = s.clk.tick := by
  intro t e
  let u := (((s.setNat Ix.ctlLogCode e code).setNat Ix.ctlLogDetail e detail).setNat Ix.ctlLogRepeat e 0).setNat Ix.ctlLogTick e s.tick
  have ht : t = { u.setNat Ix.ctlLogHead 0 ((s.nat Ix.ctlLogHead + 1) % 4294967296) with hp := { u.hp with irqEvt := true } } := by
    have hn : ¬ logRepeats s code detail = true := by simp [h]
    exact if_neg hn
  have hread (ix sub : Nat) : t.nat ix sub = (u.setNat Ix.ctlLogHead 0 ((s.nat Ix.ctlLogHead + 1) % 4294967296)).nat ix sub := by
    rw [ht]
    rfl
  have hne {ix jx : Nat} (hx : ix ≠ jx) (sub sub' : Nat) (w : State) (n : Nat) :
      (w.setNat jx sub n).nat ix sub' = w.nat ix sub' := nat_setNat_ne w (objKey_ne_index hx) n
  refine ⟨?_, ?_, ?_, ?_, ?_⟩
  · rw [hread, nat_setNat_self, Nat.mod_eq_of_lt (by omega)]
  · rw [hread, hne (by decide), hne (by decide), hne (by decide), hne (by decide), nat_setNat_self]
  · rw [hread, hne (by decide), hne (by decide), hne (by decide), nat_setNat_self]
  · rw [hread, hne (by decide), hne (by decide), nat_setNat_self]
  · rw [hread, hne (by decide), nat_setNat_self]

/-- Where at most 1,024 entries are open, no entry is lost (R205). -/
theorem logWrapCheck_kept (h : logOpen s ≤ 1024) : logWrapCheck s = { s with ctl := { s.ctl with logLost := false } } := if_pos h

theorem logOpen_eq (ha : s.nat Ix.ctlLogAck ≤ s.nat Ix.ctlLogHead) (hh : s.nat Ix.ctlLogHead < 4294967296) :
    logOpen s = s.nat Ix.ctlLogHead - s.nat Ix.ctlLogAck := by
  unfold logOpen
  omega

/-- An alarm that no takeover precedes by 64 ticks or less is one entry or one repeat (R204, R339). -/
theorem alarm_notRecent (a : AlarmId) (h : ∀ td, s.pair.tookAt = some td → s.clk.tick < td ∨ td + 64 < s.clk.tick) :
    s.alarm a detail = logAlarm s a.code detail := by
  unfold State.alarm
  refine if_neg ?_
  rintro ⟨-, -, hrecent⟩
  split at hrecent
  · next td htook =>
    have hfar := h td htook
    simp only [State.tick, Bool.and_eq_true, decide_eq_true_eq] at hrecent
    omega
  · cases hrecent

end

/-- The class of an alarm is the top byte of its code (R204). -/
theorem code_class {a : AlarmId} (hs : a.source < 256) (hn : a.num < 65536) : a.code / 16777216 = a.cls := by
  unfold AlarmId.code
  omega

/-- The newest entry asserts ALARM_N where it is open and its class is in the mask (R205). -/
theorem alarmAsserted_newest {t : State} {head : Nat} (hh : t.nat Ix.ctlLogHead = head + 1) (ho : 1 ≤ logOpen t)
    (hm : (t.nat Ix.ctlAlarmMask).testBit (t.nat Ix.ctlLogCode (head % 1024) / 16777216) = true) : alarmAsserted t = true := by
  have hplace : (head + 1 + 1024 * 1024 - 1 - 0) % 1024 = head % 1024 := by omega
  have hsome : ∃ n, min (logOpen t) 1024 = n + 1 := ⟨min (logOpen t) 1024 - 1, by omega⟩
  obtain ⟨n, hn⟩ := hsome
  unfold alarmAsserted
  rw [hn, hh]
  simp only [upFrom, List.any_cons, hplace, hm, Bool.true_or]

end Sys2Proof.Machine

open Sys2Proof Sys2Proof.Machine

/-- Settles O56: with no recent takeover an alarm is one `logAdd`, and with room in the log `logWrapCheck` adds nothing to it. -/
theorem alarmsEnterTheEventLog : Obligations.AlarmsEnterTheEventLog := by
  unfold Obligations.AlarmsEnterTheEventLog
  intro s a detail head last same t htook hack hroom hhead
  let u := logAdd s a.code detail
  have hlog : LogOnly s t := alarm_logOnly s a detail
  have hu : LogOnly s u := logAdd_logOnly s a.code detail
  have hackU : u.nat Ix.ctlLogAck = s.nat Ix.ctlLogAck := hu.nat rfl
  have hone : logOpen u ≤ 1024 → ∀ ix sub, t.nat ix sub = u.nat ix sub := by
    intro ho ix sub
    have ht : t = { u with ctl := { u.ctl with logLost := false } } := (alarm_notRecent a htook).trans (logWrapCheck_kept ho)
    rw [ht]
    rfl
  refine ⟨fun hsame => ?_, fun hnew => ?_, hlog.engines, hlog.lat, hlog.bench, hlog.fab, hlog.pair, hlog.writes, hlog.out, hlog.pending,
    fun ix sub hix => hlog.obj ix sub (isLogIx_outside hix)⟩
  · have hrep : u = s.setNat Ix.ctlLogRepeat last (min (s.nat Ix.ctlLogRepeat last + 1) 0xFFFF) :=
      logAdd_repeat (logRepeats_iff.2 hsame)
    have hother {ix : Nat} (hx : ix ≠ Ix.ctlLogRepeat) (sub : Nat) : u.nat ix sub = s.nat ix sub := by
      rw [hrep, nat_setNat_ne s (objKey_ne_index hx)]
    have hheadU : u.nat Ix.ctlLogHead = head := hother (by decide) 0
    have ho : logOpen u ≤ 1024 := by
      rw [logOpen_eq (by omega) (by omega), hheadU, hackU]
      omega
    refine ⟨(hone ho _ _).trans hheadU, ?_, (hone ho _ _).trans (hother (by decide) last)⟩
    rw [hone ho, hrep, nat_setNat_self]
  · have hno : logRepeats s a.code detail = false := Bool.eq_false_iff.2 (fun k => hnew (logRepeats_iff.1 k))
    obtain ⟨hmoved, hcode, hdetail, hrepeat, htick⟩ := logAdd_new hno hhead
    have hheadU : u.nat Ix.ctlLogHead = head + 1 := hmoved
    have hopen : logOpen u = head + 1 - s.nat Ix.ctlLogAck := by
      rw [logOpen_eq (by omega) (by omega), hheadU, hackU]
    have hread := hone (by omega)
    refine ⟨(hread _ _).trans hheadU, (hread _ _).trans hcode, (hread _ _).trans hdetail, (hread _ _).trans hrepeat,
      (hread _ _).trans htick, fun hs hn hmask => ?_⟩
    have hopenT : logOpen t = logOpen u := by
      unfold logOpen
      rw [hread, hread]
    refine alarmAsserted_newest ((hread _ _).trans hheadU) (by omega) ?_
    have hmaskT : t.nat Ix.ctlAlarmMask = s.nat Ix.ctlAlarmMask := hlog.nat rfl
    rw [hmaskT, hread, hcode, code_class hs hn, hmask]
end

section
/-! What the sessions are while frames are taken and answered (R189 to R196): the same sessions stay open, and of each only what its
frames and replies leave is new. -/

namespace Sys2Proof.Machine

/-- A session without what its frames and replies leave: the port they come from, their counter, and the last of both. -/
def Session.terms (x : Session) : Session := { x with port := 0, counter := 0, lastFrame := [], lastReply := [] }

/-- From `s` to `t` the same sessions are open, on the same terms. -/
structure KeepsTerms (s t : State) : Prop where
  same : ∀ k, (sessOf t k).map Session.terms = (sessOf s k).map Session.terms

section
variable {s t u : State}

theorem KeepsTerms.refl (s : State) : KeepsTerms s s := ⟨fun _ => rfl⟩

theorem KeepsTerms.trans (h : KeepsTerms s t) (k : KeepsTerms t u) : KeepsTerms s u :=
  ⟨fun j => (k.same j).trans (h.same j)⟩

theorem KeepsTerms.ite {c : Prop} [Decidable c] (ht : KeepsTerms s t) (hu : KeepsTerms s u) :
    KeepsTerms s (if c then t else u) := by
  split
  · exact ht
  · exact hu

theorem sessOf_of_sessions (h : t.ctl.sessions = s.ctl.sessions) (k : Nat) : sessOf t k = sessOf s k := by
  unfold sessOf
  rw [h]

theorem KeepsTerms.of_sessions (h : t.ctl.sessions = s.ctl.sessions) : KeepsTerms s t :=
  ⟨fun k => congrArg (Option.map Session.terms) (sessOf_of_sessions h k)⟩

/-- A session that is open stays open, on the same terms. -/
theorem KeepsTerms.stays_open {k : Nat} {x : Session} (h : KeepsTerms s t) (hx : sessOf s k = some x) :
    ∃ y, sessOf t k = some y ∧ y.terms = x.terms := by
  have hk := h.same k
  rw [hx] at hk
  exact Option.map_eq_some_iff.1 hk

/-! ### A session replaced -/

theorem setSess_sessions (s : State) (k : Nat) (x : Option Session) :
    (setSess s k x).ctl.sessions = mapSet (fun _ => none) k x s.ctl.sessions := by
  cases x <;> simp [setSess]

@[simp] theorem sessOf_setSess_self (s : State) (k : Nat) (x : Option Session) : sessOf (setSess s k x) k = x := by
  unfold sessOf
  rw [setSess_sessions, mapGet_mapSet_self]

theorem sessOf_setSess_ne (s : State) {k j : Nat} (h : j ≠ k) (x : Option Session) : sessOf (setSess s k x) j = sessOf s j := by
  unfold sessOf
  rw [setSess_sessions, mapGet_mapSet_ne _ h]

theorem setSess_keepsTerms {k : Nat} {x y : Session} (hx : sessOf s k = some x) (hy : y.terms = x.terms) :
    KeepsTerms s (setSess s k (some y)) := by
  refine ⟨fun j => ?_⟩
  by_cases hj : j = k
  · subst hj
    rw [sessOf_setSess_self, hx]
    exact congrArg some hy
  · rw [sessOf_setSess_ne s hj]

end

/-! ### Taking a frame -/

theorem logAdd_ctl (s : State) (code detail : Nat) : (logAdd s code detail).ctl = s.ctl := by
  unfold logAdd
  dsimp only
  split <;> simp

/-- Of the controller, the check for lost entries changes only whether one has been lost (R205). -/
theorem logWrapCheck_sessions (s : State) : (logWrapCheck s).ctl.sessions = s.ctl.sessions := by
  unfold logWrapCheck
  split
  · rfl
  · split
    · rfl
    · rw [logAdd_ctl]

theorem logAlarm_sessions (s : State) (code detail : Nat) : (logAlarm s code detail).ctl.sessions = s.ctl.sessions :=
  (logWrapCheck_sessions _).trans (congrArg CtlSt.sessions (logAdd_ctl ..))

theorem alarm_keepsTerms (s : State) (a : AlarmId) (detail : Nat) : KeepsTerms s (s.alarm a detail) :=
  have one : KeepsTerms s (logAlarm s a.code detail) := .of_sessions (logAlarm_sessions ..)
  .ite (one.trans (.of_sessions (logAlarm_sessions ..))) one

theorem sendTo_keepsTerms (s : State) (via : Via) (peer port : Nat) (b : List Byte) : KeepsTerms s (sendTo s via peer port b) := by
  cases via <;> exact .of_sessions rfl

theorem setNat_keepsTerms (s : State) (ix sub n : Nat) : KeepsTerms s (s.setNat ix sub n) := .of_sessions (by rw [setNat_ctl])

theorem refuse_keepsTerms (s : State) (q : Queued) (status : Nat) : KeepsTerms s (refuse s q status) := by
  have hcount : KeepsTerms s (s.addHold Ix.ctlFramesRej status 1) := setNat_keepsTerms ..
  unfold refuse
  exact (hcount.trans (.ite (alarm_keepsTerms ..) (.ite (alarm_keepsTerms ..) (.refl _)))).trans (sendTo_keepsTerms ..)

theorem countOk_keepsTerms (s : State) (via : Via) : KeepsTerms s (countOk s via) := setNat_keepsTerms ..

theorem beginServing_keepsTerms (s : State) (q : Queued) (session : Nat) (keyed : Bool) (ops : List (Nat × Op)) :
    KeepsTerms s (beginServing s q session keyed ops) := .of_sessions rfl

theorem takeOpen_keepsTerms (s : State) (q : Queued) (ops : List (Nat × Op)) : KeepsTerms s (takeOpen s q ops) := by
  unfold takeOpen
  refine .ite ?_ (.ite (refuse_keepsTerms ..) (.ite (refuse_keepsTerms ..) (.ite (refuse_keepsTerms ..) ?_)))
  · exact ((countOk_keepsTerms ..).trans (alarm_keepsTerms ..)).trans (sendTo_keepsTerms ..)
  · have hctr (m : Map (Option Nat)) : KeepsTerms s { s with ctl := { s.ctl with openCtr := m } } := .of_sessions rfl
    exact ((hctr _).trans (countOk_keepsTerms ..)).trans (beginServing_keepsTerms ..)

theorem takeFrame_keepsTerms (s : State) (q : Queued) (ops : List (Nat × Op)) : KeepsTerms s (takeFrame s q ops) := by
  unfold takeFrame
  dsimp only
  split
  · exact refuse_keepsTerms ..
  · next x hx =>
    refine .ite (refuse_keepsTerms ..) (.ite (refuse_keepsTerms ..) (.ite (refuse_keepsTerms ..) (.ite ?_ ?_)))
    · exact .ite (.ite (.refl s) (sendTo_keepsTerms ..)) (refuse_keepsTerms ..)
    · let y : Session := { x with counter := frCounter q.bytes, port := q.port, lastFrame := q.bytes, lastReply := [] }
      exact ((setSess_keepsTerms (y := y) hx rfl).trans (countOk_keepsTerms ..)).trans (beginServing_keepsTerms ..)

theorem takeQueued_keepsTerms (s : State) (q : Queued) : KeepsTerms s (takeQueued s q) := by
  unfold takeQueued
  refine .ite (refuse_keepsTerms ..) ?_
  split
  · exact refuse_keepsTerms ..
  · exact .ite (takeOpen_keepsTerms ..) (takeFrame_keepsTerms ..)

theorem hpTake_keepsTerms (s : State) : KeepsTerms s (hpTake s) := .ite (.of_sessions rfl) (.refl s)

/-- The frames that wait are taken into service one after the other (R189). -/
theorem takeFrames_keepsTerms (n : Nat) (s : State) : KeepsTerms s (takeFrames n s) := by
  induction n generalizing s with
  | zero => exact .refl s
  | succ n ih =>
    unfold takeFrames
    refine .ite (.refl s) ?_
    split
    · exact .refl s
    · next q _ =>
      have hq : KeepsTerms s { s with ctl := { s.ctl with queue := s.ctl.queue.drop 1 } } := .of_sessions rfl
      exact ((hq.trans (takeQueued_keepsTerms _ q)).trans (hpTake_keepsTerms _)).trans (ih _)

theorem serveNext_keepsTerms (s : State) : KeepsTerms s (serveNext s) := (hpTake_keepsTerms s).trans (takeFrames_keepsTerms ..)

/-! ### Answering a frame -/

theorem mapSess_keepsTerms {f : Session → Session} (hf : ∀ x, (f x).terms = x.terms) (s : State) (k : Nat) :
    KeepsTerms s (mapSess s k f) := by
  unfold mapSess
  split
  · next x hx => exact setSess_keepsTerms hx (hf x)
  · exact .refl s

theorem sendReply_keepsTerms {s : State} {v : Serving} (h : nextOf s v = .none) (b : List Byte) :
    KeepsTerms s (sendReply s v b) := by
  unfold sendReply
  rw [h]
  exact .ite (.of_sessions rfl) (sendTo_keepsTerms ..)

/-- A frame that has accepted no write and closes no session is answered. -/
theorem completeFrame_keepsTerms {v : Serving} (ha : v.accepts = []) (hc : v.closing = false) (s : State) :
    KeepsTerms s (completeFrame s v) := by
  have hnext (t : State) : nextOf t v = .none := by simp [nextOf, ha, hc, AfterReply.none]
  have hreleased : KeepsTerms s (released s) := .of_sessions rfl
  have hreply := mapSess_keepsTerms (f := fun x => { x with lastReply := replyOf s v v.results }) (fun _ => rfl)
  unfold completeFrame
  rw [ha]
  exact ((hreleased.trans (hreply _ _)).trans (sendReply_keepsTerms (hnext _) _)).trans (serveNext_keepsTerms _)

end Sys2Proof.Machine
end

section
/-! OPEN (R192): the session it sets up, on the lowest free number. -/

namespace Sys2Proof.Machine

/-- The command of the operation at the head of the frame in service carries it out. -/
theorem InService.serve_eq {s : State} {v : Serving} {code : Nat} {op : Op} {rest : List (Nat × Op)} {row : Instr}
    (h : InService s v code op rest) (hrow : rowOf code op = row) : serve row s = carryOut s v code op rest := by
  unfold serve
  simp only [h.serving, h.ops, h.runs, hrow, beq_self_eq_true, Bool.and_self, if_true]

theorem setSet_sessions (s : State) (n : Nat) (x : Option StageSet) : (setSet s n x).ctl.sessions = s.ctl.sessions := by
  cases x <;> simp [setSet, syncStage]

theorem mem_upFrom {a n k : Nat} : k ∈ upFrom a n ↔ a ≤ k ∧ k < a + n := by
  induction n generalizing a with
  | zero => simp [upFrom]
  | succ n ih =>
    simp only [upFrom, List.mem_cons, ih]
    omega

theorem freeSession_range {s : State} {k : Nat} (h : freeSession s = some k) : 1 ≤ k ∧ k ≤ 32 := by
  have hk := mem_upFrom.1 (List.mem_of_find?_eq_some h)
  omega

section
variable {s : State} {v : Serving} {op : Op} {k : Nat}

/-- The nonce that the block draws for a session (R192). -/
def openNonce (s : State) : List Byte := bytesLE 8 (unsignedOf 64 (Config.free s.fresh))

/-- The session that an OPEN frame sets up on number `k` (R192). -/
def opened (s : State) (v : Serving) (op : Op) (k : Nat) : Session :=
  let slot := field op.data 0 1
  { via := v.via, peer := v.peer, port := v.port, slot := slot, priv := s.nat Ix.ctlCredPriv slot
    tagAll := field op.data 1 1 % 2 == 1
    key := Config.cmac (credKey s slot) ([0x44, 0x52, 0x44, 0x53] ++ bytesLE 1 k ++ bytesLE 1 slot ++ [0, 0] ++ op.data.drop 4 ++
      openNonce s)
    counter := v.counter, lastFrame := [], lastReply := [], notifySeq := 1, subs := [], nextHandle := 1, transfer := none
    closing := false }

/-- The data of the result of an OPEN (R192). -/
def openData (s : State) (op : Op) (k : Nat) : List Byte :=
  bytesLE 1 k ++ bytesLE 1 (s.nat Ix.ctlCredPriv (field op.data 0 1)) ++ [0, 0] ++ openNonce s

/-- OPEN is carried out: the frame in service is now one of the new session. -/
theorem openSession_opens (hk : freeSession s = some k) :
    ∃ t, openSession s v op = carried t { v with session := k } (openData s op k) ∧ sessOf t k = some (opened s v op k) := by
  unfold openSession
  rw [hk]
  refine ⟨_, rfl, ?_⟩
  refine (sessOf_of_sessions (s := setSess { s with fresh := s.fresh + 1 } k (some (opened s v op k))) ?_ k).trans
    (sessOf_setSess_self ..)
  refine List.foldlRecOn (motive := fun t : State => t.ctl.sessions = _) _ _ rfl (fun t ht i _ => ?_)
  split
  · rw [setSet_sessions, ht]
  · exact ht

theorem openData_length : (openData s op k).length = 12 := by
  simp [openData, openNonce, bytesLE]

/-- The frame in service once its OPEN has been carried out. -/
def openedFrame (s : State) (v : Serving) (op : Op) (k : Nat) : Serving :=
  { v with session := k, ops := [], results := v.results ++ [{ op := Oc.openSess, status := 0, data := openData s op k }] }

/-- An OPEN alone in its frame is carried out, and the frame is answered. -/
theorem openOp_opens (h : InService s v Oc.openSess op []) (h0 : v.session = 0) (ha : v.accepts = []) (hc : v.closing = false)
    (hk : freeSession s = some k)
    (hfits : ∀ t : State, ∀ d : List Byte, d.length = 12 → fitsReply t { v with session := k } Oc.openSess [] d) :
    ∃ t y, exec .openOp s = .next t ∧ sessOf t k = some y ∧ y.terms = (opened s v op k).terms := by
  obtain ⟨u, hopen, hu⟩ := openSession_opens (v := v) (op := op) hk
  have hdo : doOp s v Oc.openSess op = carried u { v with session := k } (openData s op k) := by
    have hnew : doOpen s v op = openSession s v op := if_neg (fun h => h h0)
    exact hnew.trans hopen
  have hroom : resultFits u { v with session := k } { op := Oc.openSess, status := 0, data := openData s op k } [] = true :=
    decide_eq_true (hfits u _ openData_length)
  have hcarry : carryOut s v Oc.openSess op [] = completeFrame u (openedFrame s v op k) := by
    unfold carryOut
    rw [hdo]
    exact if_pos hroom
  have hx : exec .openOp s = .next (carryOut s v Oc.openSess op []) := congrArg Host.Outcome.next (h.serve_eq rfl)
  obtain ⟨y, hy, hterms⟩ := (completeFrame_keepsTerms (v := openedFrame s v op k) ha hc u).stays_open hu
  rw [← hcarry] at hy
  exact ⟨_, y, hx, hy, hterms⟩

end

end Sys2Proof.Machine

open Sys2Proof Sys2Proof.Machine

/-- Settles O26: OPEN sets up the session `opened`, and answering the frame keeps its terms. -/
theorem openGivesTheLowestFreeSession : Obligations.OpenGivesTheLowestFreeSession := by
  unfold Obligations.OpenGivesTheLowestFreeSession
  intro s v op k h h0 ha hc hk slot nd hfits
  obtain ⟨t, y, hx, hy, hterms⟩ := openOp_opens h h0 ha hc hk hfits
  obtain ⟨hlow, hhigh⟩ := freeSession_range hk
  have term {α : Type} (f : Session → α) : f y.terms = f (opened s v op k).terms := congrArg f hterms
  exact ⟨t, y, hx, hy, term Session.via, term Session.peer, term Session.slot, term Session.priv, term Session.subs,
    term Session.transfer, term Session.key, hlow, hhigh⟩
end

section
/-! The snapshot of a frame (R164, R189): a frame that is taken into service has been counted, and stands in its session, before the
snapshot that it is served from is made. -/

namespace Sys2Proof.Machine

/-- A frame of session 1 without operations, with counter 1 (R190). -/
def emptyFrame : List Byte := header 0 1 0 16 1

/-- A session of the host at address 5, with every privilege. -/
def hostSession : Session :=
  { via := .udp, peer := 5, port := 6, slot := 0, priv := 3, tagAll := false, key := [], counter := 0, lastFrame := [], lastReply := [],
    notifySeq := 0, subs := [], nextHandle := 1, transfer := none, closing := false }

/-- The block started up, its control port at address 9, with that session open. -/
def listening : State := { State.reset with
  boot := { BootSt.reset with stage := 7 }
  dict := [(objKey Ix.ctlIpv4Addr 0, .int 9)]
  ctl := { CtlSt.reset with sessions := [(1, some hostSession)] } }

/-- CTL_FRAMES_OK of UDP in a dictionary (R206). -/
def framesOkIn (m : Map Val) : Nat := (dictGet Ix.ctlFramesOk 0 m).toNat

/-- The dictionary that the frame in service is served from, after a command. -/
def servedFrom : Host.Outcome State Fault Refusal → Option (Map Val)
  | .next t => t.ctl.serving.map (fun v => v.shot.dict)
  | _ => none

/-- The frame's own count is in its snapshot. -/
theorem emptyFrame_counted :
    (servedFrom (exec (.commandFrameReceived ⟨5, 9⟩ 6 41814 false false emptyFrame) listening)).map framesOkIn = some 1 := by
  decide +kernel

end Sys2Proof.Machine

open Sys2Proof Sys2Proof.Machine

/-- Refutes O28: `listening` has counted no frame, and the snapshot that `emptyFrame` is served from has counted one. -/
theorem not_framesAreTakenAndAnswered : ¬ Obligations.FramesAreTakenAndAnswered := by
  unfold Obligations.FramesAreTakenAndAnswered
  intro h
  obtain ⟨htaken, -⟩ := h listening rfl
  obtain ⟨t, v, y, ht, hserving, -, -, -, -, -, hdict, -⟩ := htaken 5 9 6 emptyFrame [] hostSession (by decide) (by decide) rfl rfl rfl
    (by decide) (by decide) (by decide) (by decide) rfl rfl rfl rfl (by decide) (by decide)
  have hcount := emptyFrame_counted
  have hshot : servedFrom (.next t) = some listening.dict := by
    rw [← hdict]
    exact congrArg (Option.map (fun v => v.shot.dict)) hserving
  rw [ht, hshot] at hcount
  exact absurd hcount (by decide)
end

section
/-! The window of a transfer (R197). The free stretches of the transfer area are those between the windows of the open transfers;
where one of these lies below the area, so does the stretch that follows it, and the stretches of the area itself may all be too
short. -/

namespace Sys2Proof.Machine

/-! ### An operation that others follow -/

/-- An operation carried out, with others to follow: its result joins those of the frame (R191). -/
theorem carryOut_followed {s u : State} {v w : Serving} {code : Nat} {op : Op} {nx : Nat × Op} {more : List (Nat × Op)}
    {data : List Byte} (hdo : doOp s v code op = carried u w data) (hfits : fitsReply u w code (nx :: more) data) :
    carryOut s v code op (nx :: more) = answered u w code (nx :: more) data := by
  have hroom : resultFits u w { op := code, status := 0, data := data } (nx :: more) = true :=
    Bool.or_eq_true_iff.2 (.inl (decide_eq_true hfits))
  unfold carryOut
  rw [hdo]
  exact if_pos hroom

/-- A first result of 12 bytes leaves room for others. -/
theorem fitsReply_first {v : Serving} (hv : v.results = []) (t : State) (code : Nat) (rest : List (Nat × Op)) {d : List Byte}
    (hd : d.length = 12) : fitsReply t v code rest d := by
  have hresult : (resultBytes { op := code, status := 0, data := d }).length = 20 := by
    rw [resultBytes_length, padTo_length, hd]
  unfold fitsReply replyLen replyOf
  rw [replyBytes_length, hv]
  simp only [List.nil_append, List.map_cons, List.map_nil, List.flatten_cons, List.flatten_nil, List.append_nil, hresult]
  split <;> split <;> omega

/-! ### Where a window starts -/

theorem startsIn_fits {size : Nat} {g : Nat × Nat} (h : size ≤ g.2) : startsIn size g = g.2 - size + 1 := if_pos h

theorem startsIn_short {size : Nat} {g : Nat × Nat} (h : g.2 < size) : startsIn size g = 0 := if_neg (by omega)

/-- A start in the first stretch. -/
theorem startAt_cons {size n : Nat} {g : Nat × Nat} {l : List (Nat × Nat)} (h : n < startsIn size g) :
    startAt size n (g :: l) = g.1 + n := if_pos h

/-- A first stretch that is too short is passed over. -/
theorem startAt_cons_skip {size n : Nat} {g : Nat × Nat} {l : List (Nat × Nat)} (h : startsIn size g = 0) :
    startAt size n (g :: l) = startAt size n l := by
  rw [startAt, h, if_neg (Nat.not_lt_zero n), Nat.sub_zero]

/-! ### The state of the refutation -/

/-- A session with a transfer into the window of `n` bytes at `a`. -/
def withWindow (a n : Nat) : Session :=
  { hostSession with transfer := some { ix := Ix.engImage, sub := 0, writing := true, length := n, window := a } }

/-- DOM_OPEN of BOOT_FW_IMAGE, for 16 MiB. -/
def firmwareOpen : Op :=
  { ty := fwImageRow.ty.code, index := Ix.bootFwImage, count := 1, sub := 0, set := 0, data := bytesLE 4 16777216 }

/-- A frame of session 1 that opens the transfer, and closes the session. -/
def openingFrame : Serving :=
  { via := .udp, session := 1, peer := 5, port := 6, counter := 1, keyed := false, bytes := [], results := [], accepts := []
    ops := [(Oc.domOpen, firmwareOpen), (Oc.close, firmwareOpen)], mirrored := false, closing := false, gen := 0, tick := 0
    shot := { dict := [], snap := [], sets := [], shared := 0 } }

/-- The block started up, with that frame in service. Session 2 has a window of one byte at address 0, below the transfer area;
session 3 has one of 48 MiB less a byte that leaves 2 bytes before it in the area, and 16 MiB less a byte after it. -/
def areaTaken : State := { State.reset with
  boot := { BootSt.reset with stage := 7 }
  ctl := { CtlSt.reset with
    sessions := [(1, some hostSession), (2, some (withWindow 0 1)), (3, some (withWindow (transferArea + 2) 50331647))]
    serving := some openingFrame } }

/-- The one stretch that takes 16 MiB lies between address 0 and the window in the area. -/
theorem areaTaken_gaps : transferGaps areaTaken = [(transferArea, 0), (1, transferArea + 1), (transferArea + 50331649, 16777215)] := by
  decide

theorem areaTaken_windows {j : Nat} {y : Session} {u : Transfer} (hy : sessOf areaTaken j = some y) (hu : y.transfer = some u) :
    u.window + u.length ≤ transferArea + 67108864 := by
  simp only [sessOf, areaTaken, mapGet, mapFind] at hy
  split at hy
  · cases hy
    cases hu
  · split at hy
    · cases hy
      cases hu
      decide
    · split at hy
      · cases hy
        cases hu
        decide
      · cases hy

/-- The places at which a window of 16 MiB can start. -/
def areaStarts : Nat := transferArea + 1 - 16777216 + 1

/-- The window that the block gives the transfer, by the free value it draws. -/
def firmwareWindow : Nat :=
  startAt 16777216 (unsignedOf 64 (Config.free 0) % areaStarts) (transferGaps areaTaken)

/-- Whatever the free value, the window starts below the transfer area. -/
theorem firmwareWindow_below : firmwareWindow < transferArea := by
  have hlt : unsignedOf 64 (Config.free 0) % areaStarts < areaStarts := Nat.mod_lt _ (Nat.succ_pos _)
  have hshort : startsIn 16777216 (transferArea, 0) = 0 := startsIn_short (by decide)
  have hlong : startsIn 16777216 (1, transferArea + 1) = areaStarts := startsIn_fits (by unfold transferArea; omega)
  unfold firmwareWindow
  rw [areaTaken_gaps, startAt_cons_skip (by omega), startAt_cons (by omega)]
  unfold areaStarts transferArea at *
  omega

/-- The transfer that the DOM_OPEN opens. -/
def firmwareTransfer : Transfer :=
  { ix := Ix.bootFwImage, sub := 0, writing := true, length := 16777216, window := firmwareWindow }

theorem domOpen_areaTaken : doOp areaTaken openingFrame Oc.domOpen firmwareOpen =
    carried (setSess { areaTaken with fresh := 1 } 1 (some { hostSession with transfer := some firmwareTransfer })) openingFrame
      (bytesLE 4 16777216 ++ bytesLE 8 firmwareWindow) := rfl

end Sys2Proof.Machine

open Sys2Proof Sys2Proof.Machine

/-- Refutes O25: in `areaTaken` the window that DOM_OPEN gives the transfer starts below the transfer area. -/
theorem not_sessionOperationsCarryOut : ¬ Obligations.SessionOperationsCarryOut := by
  unfold Obligations.SessionOperationsCarryOut
  intro h
  have hfits (t : State) (d : List Byte) (hd : d.length = 12) :
      fitsReply t openingFrame Oc.domOpen [(Oc.close, firmwareOpen)] d := fitsReply_first rfl t _ _ hd
  have hserved : InService areaTaken openingFrame Oc.domOpen firmwareOpen [(Oc.close, firmwareOpen)] := ⟨rfl, rfl, rfl⟩
  obtain ⟨-, -, -, hopen, -⟩ := h areaTaken openingFrame firmwareOpen (Oc.close, firmwareOpen) [] fwImageRow hostSession rfl
  obtain ⟨t, tr, ht, ⟨hsess, -⟩, -, -, -, -, habove, -⟩ := hopen hserved rfl rfl rfl rfl rfl rfl (by decide) (by decide) rfl (by decide)
    rfl (by decide) (fun himage => absurd himage (by decide)) (fun j y u => areaTaken_windows) (by decide) (hfits areaTaken)
  have hcarry := carryOut_followed (more := []) domOpen_areaTaken (hfits _ _ rfl)
  have hexec : exec .domOpen areaTaken =
      .next (carryOut areaTaken openingFrame Oc.domOpen firmwareOpen [(Oc.close, firmwareOpen)]) :=
    congrArg Host.Outcome.next (hserved.serve_eq rfl)
  rw [hexec, hcarry] at ht
  cases ht
  have hgiven : some { hostSession with transfer := some firmwareTransfer } = some { hostSession with transfer := some tr } :=
    (sessOf_setSess_self ..).symm.trans hsess
  cases hgiven
  exact absurd firmwareWindow_below (Nat.not_lt.2 habove)
end

section
/-! The directions of the serial audio ports (R207 to R219): what replacing one leaves as it was, what the port fades of a channel
leave of it, and what each TDM event does to its direction. -/

namespace Sys2Proof.Machine

/-! ### Replacing a direction -/

/-- The registers that report on a direction (R233, R234). -/
def reportIx (ix : Nat) : Bool := ix == Ix.tdmState || ix == Ix.tdmDelay || ix == Ix.aesiState || ix == Ix.aesiDelay

/-- From `s` to `t` no direction but `k` has changed, nor the engines, the Lattice and the memory. -/
structure OnlyDir (k : Nat) (s t : State) : Prop where
  dirs : ∀ j, j ≠ k → dirOf t j = dirOf s j
  engines : t.engines = s.engines
  lat : t.lat = s.lat
  fab : t.fab = s.fab

section
variable {s t u : State} {k : Nat}

theorem dirOf_of_port (h : t.port = s.port) (j : Nat) : dirOf t j = dirOf s j := by
  unfold dirOf
  rw [h]

theorem OnlyDir.refl (k : Nat) (s : State) : OnlyDir k s s := ⟨fun _ _ => rfl, rfl, rfl, rfl⟩

theorem OnlyDir.trans (h : OnlyDir k s t) (g : OnlyDir k t u) : OnlyDir k s u :=
  ⟨fun j hj => (g.dirs j hj).trans (h.dirs j hj), g.engines.trans h.engines, g.lat.trans h.lat, g.fab.trans h.fab⟩

theorem OnlyDir.setNat (h : OnlyDir k s t) (ix sub n : Nat) : OnlyDir k s (t.setNat ix sub n) :=
  h.trans ⟨fun j _ => dirOf_of_port (setNat_port ..) j, setNat_engines .., setNat_lat .., setNat_fab ..⟩

theorem OnlyDir.addHold (h : OnlyDir k s t) (ix sub n : Nat) : OnlyDir k s (t.addHold ix sub n) := h.setNat _ _ _

theorem OnlyDir.log (h : OnlyDir k s t) (g : LogOnly t u) : OnlyDir k s u :=
  h.trans ⟨fun j _ => dirOf_of_port g.port j, g.engines, g.lat, g.fab⟩

theorem syncDir_frame (s : State) (k : Nat) : (syncDir s k).port = s.port ∧ (syncDir s k).engines = s.engines ∧
    (syncDir s k).lat = s.lat ∧ (syncDir s k).fab = s.fab := by
  unfold syncDir
  split <;> simp

@[simp] theorem dirOf_setDir_self (s : State) (k : Nat) (d : Dir) : dirOf (setDir s k d) k = d := by
  obtain ⟨hport, -⟩ := syncDir_frame { s with port := { s.port with dirs := mapSet (fun _ => Dir.reset) k d s.port.dirs } } k
  exact (dirOf_of_port hport k).trans (mapGet_mapSet_self _ _ _ _)

theorem OnlyDir.setDir (h : OnlyDir k s t) (d : Dir) : OnlyDir k s (setDir t k d) := by
  obtain ⟨hport, heng, hlat, hfab⟩ :=
    syncDir_frame { t with port := { t.port with dirs := mapSet (fun _ => Dir.reset) k d t.port.dirs } } k
  exact h.trans ⟨fun j hj => (dirOf_of_port hport j).trans (mapGet_mapSet_ne _ hj _ _), heng, hlat, hfab⟩

/-- The frame of a statement on a direction. -/
theorem OnlyDir.others (h : OnlyDir k s t) : (∀ j, j ≠ k → dirOf t j = dirOf s j) ∧ t.engines = s.engines ∧ t.lat = s.lat ∧
    ∀ a, memByte t a = memByte s a :=
  ⟨h.dirs, h.engines, h.lat, memByte_of_fab (congrArg FabSt.mem h.fab)⟩

/-- Registers that do not report on a direction read as before. -/
theorem nat_setDir {ix : Nat} (h : reportIx ix = false) (s : State) (k : Nat) (d : Dir) (sub : Nat) :
    (setDir s k d).nat ix sub = s.nat ix sub := by
  simp only [reportIx, Bool.or_eq_false_iff, beq_eq_false_iff_ne] at h
  obtain ⟨⟨⟨hst, hdl⟩, hast⟩, hadl⟩ := h
  unfold setDir syncDir
  dsimp only
  split
  · rw [nat_setNat_ne _ (objKey_ne_index hdl), nat_setNat_ne _ (objKey_ne_index hst)]
    rfl
  · rw [nat_setNat_ne _ (objKey_ne_index hadl), nat_setNat_ne _ (objKey_ne_index hast)]
    rfl

/-- TDM_STATE holds the run code of a receive direction in bits 2 to 0 (R233). -/
theorem tdmState_setDir_rx (s : State) (p : Fin 32) (d : Dir) :
    (setDir s (2 * p.val) d).nat Ix.tdmState p.val % 8 = portRunCode true d.run % 8 := by
  have htdm : isTdm (2 * p.val) = true := decide_eq_true (by omega)
  have hdir := mapGet_mapSet_self (fun _ => Dir.reset) (2 * p.val) d s.port.dirs
  have hport : 2 * p.val / 2 = p.val := by omega
  unfold setDir syncDir dirOf
  dsimp only
  rw [if_pos htdm, nat_setNat_ne _ (objKey_ne_index (by decide)), hport, nat_setNat_self, hdir, if_pos (by omega)]
  omega

end

/-! ### Channels -/

/-- Changing every entry of a store, its key at hand. -/
theorem mapFind_map {α β : Type} (f : Nat → α → β) (k : Nat) (m : Map α) :
    mapFind k (m.map (fun c => (c.1, f c.1 c.2))) = (mapFind k m).map (f k) := by
  induction m with
  | nil => rfl
  | cons x l ih =>
    obtain ⟨j, v⟩ := x
    by_cases hj : j = k
    · subst hj
      simp [mapFind]
    · simp [mapFind, hj, ih]

theorem mapFind_map_some {α β : Type} (f : Nat → α → β) {k : Nat} {m : Map α} {v : α} (h : mapFind k m = some v) :
    mapFind k (m.map (fun c => (c.1, f c.1 c.2))) = some (f k v) := by
  rw [mapFind_map, h]
  rfl

/-- A channel of a direction whose channels are all changed alike. -/
theorem mapFind_mapChans (f : Chan → Chan) {d : Dir} {slot : Nat} {c : Chan} (h : mapFind slot d.chans = some c) :
    mapFind slot (mapChans f d).chans = some (f c) := mapFind_map_some (fun _ => f) h

/-- A channel comes in under the fade-in (R217). -/
def comesIn (c : Chan) : Chan := { c with svc := fadeIn c.svc, hold := false }

/-- A channel conceals a bad frame with its held sample (R217). -/
def conceals (time : Nat) (c : Chan) : Chan := { pushHeld 1 time c with concealed := true }

section
variable (c : Chan) (npcm : Bool) (time : Nat) (w : Word)

/-- At unity a word passes as it is. -/
theorem chanFade_unity {c : Chan} (h : allUnity [c.en, c.mask, c.svc] = true) :
    (chanFade c npcm time w).1 = { w := w, low := false, mute := false, npcm := npcm, time := time } := by
  simp only [allUnity, List.all_cons, List.all_nil, Bool.and_true, Bool.and_eq_true, beq_iff_eq] at h
  obtain ⟨hen, hmask, hsvc⟩ := h
  simp [chanFade, fadeStepAll, fadeStep, hen, hmask, hsvc]

/-- A channel that repeats its held sample once. -/
theorem pushHeld_one : pushHeld 1 time c = { (chanFade c c.heldNpcm time c.held).2 with
    fifo := c.fifo ++ [(chanFade c c.heldNpcm time c.held).1] } := rfl

theorem chanPush_held : (chanPush c npcm time w).held = if c.hold then c.held else w := by
  unfold chanPush
  split
  · rfl
  · rfl

theorem chanPush_unity {c : Chan} (hhold : c.hold = false) (h : allUnity [c.en, c.mask, c.svc] = true) :
    (chanPush c npcm time w).fifo = c.fifo ++ [{ w := w, low := false, mute := false, npcm := npcm, time := time }] := by
  unfold chanPush
  rw [if_neg (by simp [hhold]), ← chanFade_unity npcm time w h]
  rfl

end

/-! ### Directions -/

section
variable {s : State} {k : Nat}

theorem clockBack_heard (h : (dirOf s k).run ≠ .lost) : clockBack s k = s := by
  unfold clockBack
  exact if_pos (by simpa using h)

/-- Only a FOLLOW direction steers the port's NCO (R220). -/
theorem steerNco_eq (h : clkMode (dirOf s k).clk ≠ 1) (nco : Int) : steerNco s k nco = s := by
  have hsteers : steers s k = false := by simp [steers, h]
  unfold steerNco
  simp [hsteers]

/-- A direction that goes out of service: only its phase assignment depends on more than the cause (R210). -/
theorem outOfService_dir (s : State) (k : Nat) (run : PortRun) (hold : Bool) :
    ∃ a, dirOf (outOfService s k run hold) k = { mapChans (fun c => { c with svc := fadeOut c.svc, hold := c.hold || hold }) (dirOf s k) with
      run := run, ticks := 0, counts := false, good := false, assigned := a } :=
  ⟨_, dirOf_setDir_self ..⟩

theorem outOfService_chan (run : PortRun) {slot : Nat} {c : Chan} (h : mapFind slot (dirOf s k).chans = some c) :
    mapFind slot (dirOf (outOfService s k run true) k).chans = some { c with svc := fadeOut c.svc, hold := true } := by
  have hfade := mapFind_map_some (fun _ (c : Chan) => { c with svc := fadeOut c.svc, hold := c.hold || true }) h
  rw [Bool.or_true] at hfade
  rw [outOfService, dirOf_setDir_self]
  exact hfade

theorem outOfService_onlyDir (s : State) (k : Nat) (run : PortRun) (hold : Bool) : OnlyDir k s (outOfService s k run hold) :=
  (OnlyDir.refl k s).setDir _

theorem stampFrame_dir (s : State) (k stamp : Nat) : dirOf (stampFrame s k stamp) k = { dirOf s k with stamp := stamp } :=
  dirOf_setDir_self ..

theorem stampFrame_onlyDir (s : State) (k stamp : Nat) : OnlyDir k s (stampFrame s k stamp) := (OnlyDir.refl k s).setDir _

theorem goodFrame_eq (hrun : (dirOf s k).run ≠ .lost) (hhouse : houseFollower (dirOf s k) = false) (f : TdmFrame) :
    goodFrame s k f = setDir s k { frameIn (f.raw.map (slotWord (dirOf s k).fmt)) (dirOf s k) with bad := 0 } := by
  unfold goodFrame
  simp [clockBack_heard hrun, hhouse]

theorem badFrame_first (htdm : isTdm k = true) (hbad : (dirOf s k).bad = 0) :
    badFrame s k = setDir (s.addHold Ix.tdmErrors (4 * (k / 2)) 1) k { frameHeld (dirOf s k) with bad := 1 } := by
  have hdir : dirOf (s.addHold Ix.tdmErrors (4 * (k / 2)) 1) k = dirOf s k := dirOf_of_port (addHold_port ..) k
  unfold badFrame
  simp [htdm, hbad, hdir]

/-- A direction that is not FOREIGN goes through no converter (R222). -/
theorem usesAsrc_tdm {d : Dir} (htdm : isTdm k = true) (hmode : clkMode d.clk ≠ 2) : usesAsrc s k d = false := by
  unfold usesAsrc
  rw [if_pos htdm]
  exact beq_eq_false_iff_ne.2 hmode

theorem trackRatio_tdm (htdm : isTdm k = true) (hmode : clkMode (dirOf s k).clk ≠ 2) (rate : Nat) : trackRatio s k rate = s := by
  have hnone : usesAsrc s k (dirOf s k) = false := usesAsrc_tdm htdm hmode
  unfold trackRatio
  simp [hnone]

/-- TDM_RATE has no part in the range of a rate (R218). -/
theorem rateOutside_tdmRate (htdm : isTdm k = true) (n rate : Nat) (d : Dir) :
    rateOutside (s.setNat Ix.tdmRate k n) k d rate = rateOutside s k d rate := by
  unfold rateOutside usesAsrc State.fs
  rw [if_pos htdm, if_pos htdm, nat_setNat_ne s (objKey_ne_index (by decide))]

theorem freeAsrc_onlyDir (s : State) (k user : Nat) : OnlyDir k s (freeAsrc s user) := by
  unfold freeAsrc
  split
  · exact OnlyDir.refl k s
  · next c _ =>
    have hfreed := (((OnlyDir.refl k s).setNat Ix.asrcMap c 0xFFFF).setNat Ix.asrcState c 0).setNat Ix.asrcRatio c 0
    dsimp only
    split
    · exact hfreed.setNat ..
    · exact hfreed

theorem freeAsrcs_onlyDir (k : Nat) (l : Map Chan) (s : State) : OnlyDir k s (l.foldl (fun t c => freeAsrc t (asrcUser k c.1)) s) := by
  induction l generalizing s with
  | nil => exact OnlyDir.refl k s
  | cons c l ih => exact (freeAsrc_onlyDir s k _).trans (ih _)

/-- A receive direction that has stopped (R207, R233). -/
theorem stopDir_rx (s : State) (p : Fin 32) : OnlyDir (2 * p.val) s (stopDir s (2 * p.val)) ∧
    dirOf (stopDir s (2 * p.val)) (2 * p.val) = Dir.reset ∧ (stopDir s (2 * p.val)).nat Ix.tdmState p.val % 8 = 0 := by
  let k := 2 * p.val
  let s1 := (dirOf s k).chans.foldl (fun t c => freeAsrc t (asrcUser k c.1)) s
  have htdm : isTdm k = true := decide_eq_true (by omega)
  have hrx : isRx k = true := by simp [isRx, k]
  have hstop : stopDir s k = (setDir s1 k Dir.reset).setNat Ix.tdmFill k 0 := by
    unfold stopDir
    simp [htdm, hrx, s1]
  rw [hstop]
  refine ⟨((freeAsrcs_onlyDir k _ s).setDir _).setNat _ _ _, ?_, ?_⟩
  · rw [dirOf_of_port (setNat_port ..), dirOf_setDir_self]
  · rw [nat_setNat_ne _ (objKey_ne_index (by decide)), tdmState_setDir_rx]
    rfl

end

/-! ### The events of a TDM direction -/

section
variable {s : State} {k : Nat}

theorem isTdm_rx (p : Fin 32) : isTdm (2 * p.val) = true := decide_eq_true (by omega)

theorem isTdm_tx (p : Fin 32) : isTdm (2 * p.val + 1) = true := decide_eq_true (by omega)

/-- A good frame of a HOUSE master that runs: every channel takes its word (R210). -/
theorem rxFrame_good {f : TdmFrame} (hrun : (dirOf s k).run = .running) (hmode : clkMode (dirOf s k).clk = 0)
    (hmaster : clkFollower (dirOf s k).clk = false) (hgood : frameBad (dirOf s k) f = false) :
    rxFrame s k f = setDir (stampFrame s k f.stamp) k
      { frameIn (f.raw.map (slotWord (dirOf s k).fmt)) { dirOf s k with stamp := f.stamp } with bad := 0 } := by
  have hhouse : houseFollower (dirOf s k) = false := by simp [houseFollower, hmaster]
  have hslips : slips (dirOf s k) f = false := by simp [slips, hhouse]
  have htaken := goodFrame_eq (s := stampFrame s k f.stamp) (k := k) (by simp [stampFrame_dir, hrun])
    (by rw [stampFrame_dir]; exact hhouse) f
  rw [stampFrame_dir] at htaken
  unfold rxFrame
  simp only [hgood, hslips, htaken, Bool.false_eq_true, if_false]
  refine steerNco_eq ?_ f.nco
  rw [dirOf_setDir_self]
  simp [frameIn, hmode]

/-- The first bad frame of a HOUSE direction repeats the held samples (R217). -/
theorem rxFrame_bad {f : TdmFrame} (htdm : isTdm k = true) (hmode : clkMode (dirOf s k).clk = 0) (hfirst : (dirOf s k).bad = 0)
    (hbad : frameBad (dirOf s k) f = true) :
    rxFrame s k f = setDir ((stampFrame s k f.stamp).addHold Ix.tdmErrors (4 * (k / 2)) 1) k
      { frameHeld { dirOf s k with stamp := f.stamp } with bad := 1 } := by
  have hheld := badFrame_first (s := stampFrame s k f.stamp) htdm (by rw [stampFrame_dir]; exact hfirst)
  rw [stampFrame_dir] at hheld
  unfold rxFrame
  simp only [hbad, hheld, if_true]
  refine steerNco_eq ?_ f.nco
  rw [dirOf_setDir_self]
  simp [frameHeld, mapChans, hmode]

end

section
variable {s : State} {p : Fin 32} {k : Nat} {d : Dir} (hk : k = 2 * p.val) (hd : d = dirOf s k)
include hk hd

theorem exec_rxFrame {f : TdmFrame} (hrun : d.run = .running) (hrx : f.tx = false) :
    exec (.tdmFrameReceived p f) s = .next (rxFrame s k f) := by
  subst hk hd
  exact congrArg Host.Outcome.next (by simp [hrx, hrun])

/-- A good frame: every channel takes its slot's word (R210). -/
theorem tdmFrame_good {f : TdmFrame} (hrun : d.run = .running) (hmode : clkMode d.clk = 0) (hmaster : clkFollower d.clk = false)
    (hrx : f.tx = false) (htimely : f.timely = true) (hbclks : f.bclks = fmtSlots d.fmt * fmtWidth d.fmt) :
    ∃ t, exec (.tdmFrameReceived p f) s = .next t ∧ OnlyDir k s t ∧ (dirOf t k).run = .running ∧ (dirOf t k).bad = 0 ∧
      (dirOf t k).frames = d.frames + 1 ∧ (dirOf t k).stamp = f.stamp ∧
      ∀ slot c, mapFind slot d.chans = some c → mapFind slot (dirOf t k).chans =
        some (chanPush c false f.stamp (listGet c.held slot (f.raw.map (slotWord d.fmt)))) := by
  have hgood : frameBad d f = false := by simp [frameBad, hbclks, htimely, hmaster]
  have hexec := exec_rxFrame hk hd hrun hrx
  subst hd
  rw [rxFrame_good hrun hmode hmaster hgood] at hexec
  refine ⟨_, hexec, (stampFrame_onlyDir s k f.stamp).setDir _, ?_⟩
  rw [dirOf_setDir_self]
  exact ⟨hrun, rfl, rfl, rfl, fun slot c hc =>
    mapFind_map_some (fun slot c => chanPush c false f.stamp (listGet c.held slot (f.raw.map (slotWord (dirOf s k).fmt)))) hc⟩

/-- A first bad frame: counted, and every channel repeats its held sample (R217). -/
theorem tdmFrame_bad {f : TdmFrame} (hrun : d.run = .running) (hmode : clkMode d.clk = 0) (hfirst : d.bad = 0) (hrx : f.tx = false)
    (hlate : f.timely = false) :
    ∃ t, exec (.tdmFrameReceived p f) s = .next t ∧ OnlyDir k s t ∧ (dirOf t k).run = .running ∧ (dirOf t k).bad = 1 ∧
      (dirOf t k).good = false ∧ t.nat Ix.tdmErrors (4 * p.val) = min (s.nat Ix.tdmErrors (4 * p.val) + 1) 0xFFFFFFFF ∧
      ∀ slot c, mapFind slot d.chans = some c →
        mapFind slot (dirOf t k).chans = some (conceals f.stamp c) := by
  have hbad : frameBad d f = true := by simp [frameBad, hlate]
  have htdm : isTdm k = true := hk ▸ isTdm_rx p
  have hport : k / 2 = p.val := by omega
  have hexec := exec_rxFrame hk hd hrun hrx
  subst hd
  rw [rxFrame_bad htdm hmode hfirst hbad, hport] at hexec
  refine ⟨_, hexec, ((stampFrame_onlyDir s k f.stamp).addHold _ _ _).setDir _, ?_⟩
  rw [dirOf_setDir_self, nat_setDir rfl, State.addHold, nat_setNat_self, stampFrame, nat_setDir rfl]
  exact ⟨hrun, rfl, rfl, rfl, fun slot c hc => mapFind_mapChans (conceals f.stamp) hc⟩

/-- A follower that hears no frame sync is lost, and its channels fade on their held samples (R217). -/
theorem tdmFsTimeout_lost (hrun : d.run = .running) (hclk : clkFollower d.clk = true) :
    ∃ t, exec (.tdmFsTimeout p false) s = .next t ∧ OnlyDir k s t ∧ (dirOf t k).run = .lost ∧ (dirOf t k).ticks = 0 ∧
      ∀ slot c, mapFind slot d.chans = some c →
        mapFind slot (dirOf t k).chans = some { c with svc := fadeOut c.svc, hold := true } := by
  have hkey : dirKey (.tdm p false) = k := hk.symm
  subst hd
  have hexec : exec (.tdmFsTimeout p false) s = .next ((outOfService s k .lost true).alarm (Al.tdmClockLoss.src p.val) 0) := by
    have hrow : exec (.tdmFsTimeout p false) s = execTdmFsTimeout p false s := rfl
    rw [hrow, execTdmFsTimeout, hkey]
    simp [hrun, hclk]
  have hlog := alarm_logOnly (outOfService s k .lost true) (Al.tdmClockLoss.src p.val) 0
  obtain ⟨a, hdir⟩ := outOfService_dir s k .lost true
  refine ⟨_, hexec, (outOfService_onlyDir s k .lost true).log hlog, ?_⟩
  rw [dirOf_of_port hlog.port]
  exact ⟨congrArg Dir.run hdir, congrArg Dir.ticks hdir, fun slot c hc => outOfService_chan .lost hc⟩

/-- A follower's rate window, by its rate and, outside the range, by the windows before it (R218). -/
theorem rateWindow_eq (rate : BitVec 32) (hrun : d.run = .running) (hclk : clkFollower d.clk = true) (hmode : clkMode d.clk ≠ 2) :
    let u := s.setNat Ix.tdmRate k rate.toNat
    let w := setDir u k { d with out := d.out + 1, inside := 0 }
    exec (.rateWindow (.tdm p false) rate) s = .next (
      if rateOutside s k d rate.toNat = true then
        if 1 ≤ d.out then (outOfService w k .mismatch false).alarm (Al.rateMismatch.src p.val) 0 else w
      else setDir u k { d with inside := d.inside + 1, out := 0 }) := by
  intro u w
  have htdm : isTdm k = true := hk ▸ isTdm_rx p
  have hport : k / 2 = p.val := by omega
  have hrx : k % 2 = 0 := by omega
  have hrow : exec (.rateWindow (.tdm p false) rate) s = execRateWindow (.tdm p false) rate s := rfl
  have hkey : dirKey (.tdm p false) = k := hk.symm
  have hdir : dirOf u k = d := (dirOf_of_port (setNat_port ..) k).trans hd.symm
  have htrack : trackRatio u k rate.toNat = u := trackRatio_tdm htdm (by rw [hdir]; exact hmode) _
  have hrange : rateOutside u k d rate.toNat = rateOutside s k d rate.toNat := rateOutside_tdmRate htdm _ _ d
  rw [hrow, execRateWindow, hkey, ← hd]
  cases hout : rateOutside s k d rate.toNat with
  | false => simp [u, hrun, htdm, hclk, usesAsrc_tdm htdm hmode, htrack, hdir, hrange, hout]
  | true =>
    by_cases hfirst : 1 ≤ d.out <;>
      simp [u, w, hrun, htdm, hclk, usesAsrc_tdm htdm hmode, htrack, hdir, hrange, hout, hfirst, hport, hrx]

/-- A direction that meets the return rule comes in under the fade-in (R217). -/
theorem directionReturn_running (hrun : d.run = .starting ∨ d.run = .recovering) (hticks : 1 ≤ d.ticks) (hrestart : d.restart = false)
    (hstop : d.stopping = false) (hmode : clkMode d.clk ≠ 2) :
    exec (.directionReturn (.tdm p false)) s =
      .next (setDir s k { mapChans comesIn d with run := .running }) := by
  have htdm : isTdm k = true := hk ▸ isTdm_rx p
  have hrow : exec (.directionReturn (.tdm p false)) s = execDirectionReturn (.tdm p false) s := rfl
  have hkey : dirKey (.tdm p false) = k := hk.symm
  have hcan : canReturn s k d = true := by
    rcases hrun with h | h <;> simp [canReturn, h, hticks, htdm]
  have hlocked (slot : Nat) : chanLocked s k d slot = true := by simp [chanLocked, usesAsrc_tdm htdm hmode]
  have hruns : (d.run == .running || d.chans.isEmpty || d.chans.any (fun _ => true)) = true := by
    cases d.chans with
    | nil => simp
    | cons c l => simp
  rw [hrow, execDirectionReturn, hkey, ← hd]
  simp only [hcan, hrestart, hstop, hruns, hlocked, mapChans, comesIn, Bool.not_true, Bool.or_self, Bool.false_eq_true, if_false, if_true]

/-- A disabled direction whose fade-out has ended stops (R207). -/
theorem portFadeEnd_stops (hrun : d.run ≠ .off) (hstop : d.stopping = true)
    (hsilent : d.chans.all (fun c => c.2.en.mode == .silent) = true) (hoff : dirEnabled s k = false) :
    exec (.portFadeEnd (.tdm p false)) s = .next (stopDir s k) := by
  have hrow : exec (.portFadeEnd (.tdm p false)) s = execPortFadeEnd (.tdm p false) s := rfl
  have hkey : dirKey (.tdm p false) = k := hk.symm
  rw [hrow, execPortFadeEnd, hkey, ← hd]
  simp only [beq_iff_eq, hrun, hstop, hsilent, hoff, Bool.and_true, if_true, if_false, Bool.false_eq_true]

end

/-- A transmit follower that hears its clock again sends at once, under the fade-in (R219). -/
theorem txFollowerClockReturn_running {s : State} {p : Fin 32} {k : Nat} {d : Dir} (hk : k = 2 * p.val + 1) (hd : d = dirOf s k)
    (hrun : d.run = .lost) (hclk : clkFollower d.clk = true) (hmode : clkMode d.clk ≠ 2) :
    exec (.txFollowerClockReturn p) s = .next (setDir s k
      { mapChans comesIn d with run := .running, bad := 0 }) := by
  have htdm : isTdm k = true := hk ▸ isTdm_tx p
  have hrow : exec (.txFollowerClockReturn p) s = execTxFollowerClockReturn p s := rfl
  rw [hrow, execTxFollowerClockReturn, ← hk, ← hd]
  simp [hrun, hclk, usesAsrc_tdm htdm hmode, mapChans, comesIn]

end Sys2Proof.Machine

open Sys2Proof Sys2Proof.Machine

/-- Settles O30, event by event: each replaces its direction (`setDir`, `outOfService`, `stopDir`), and what it counts and logs touches
no direction. -/
theorem tdmEventsMoveTheirDirection : Obligations.TdmEventsMoveTheirDirection := by
  unfold Obligations.TdmEventsMoveTheirDirection
  intro s p k d others
  have hk : k = 2 * p.val := rfl
  have hd : d = dirOf s k := rfl
  have hsame : OnlyDir k s s := OnlyDir.refl k s
  refine ⟨fun f hrun hmode hmaster hrx htimely hbclks => ?_, fun f hrun hmode hfirst hrx hlate => ?_, fun hrun hclk => ?_,
    fun rate hrun hclk hmode => ⟨fun hin => ?_, fun hout hfirst => ?_⟩, fun hrun hticks hrestart hstop hmode => ?_,
    fun hrun hstop hsilent hoff => ?_, fun hrun hclk hmode => ?_⟩
  · obtain ⟨t, ht, honly, hrun', hbad, hframes, hstamp, hchans⟩ := tdmFrame_good hk hd hrun hmode hmaster hrx htimely hbclks
    refine ⟨t, ht, honly.others, hrun', hbad, hframes, hstamp, fun slot c hc => ⟨_, hchans slot c hc, chanPush_held .., ?_⟩⟩
    exact fun hhold hunity => ⟨_, chanPush_unity _ _ _ hhold hunity, rfl, rfl, rfl, rfl⟩
  · obtain ⟨t, ht, honly, hrun', hbad, hgood, hcount, hchans⟩ := tdmFrame_bad hk hd hrun hmode hfirst hrx hlate
    refine ⟨t, ht, honly.others, hrun', hbad, hgood, hcount, fun slot c hc => ⟨_, hchans slot c hc, rfl, rfl, ?_⟩⟩
    rw [conceals, pushHeld_one, List.length_append, List.length_singleton]
  · obtain ⟨t, ht, honly, hlost⟩ := tdmFsTimeout_lost hk hd hrun hclk
    exact ⟨t, ht, honly.others, hlost⟩
  · have hexec := rateWindow_eq hk hd rate hrun hclk (by omega)
    dsimp only at hexec
    rw [hin, if_neg Bool.false_ne_true] at hexec
    refine ⟨_, hexec, ((hsame.setNat ..).setDir _).others, ?_, dirOf_setDir_self ..⟩
    rw [nat_setDir rfl, nat_setNat_self]
  · have hexec := rateWindow_eq hk hd rate hrun hclk (by omega)
    dsimp only at hexec
    rw [if_pos hout, if_pos hfirst] at hexec
    let w := setDir (s.setNat Ix.tdmRate k rate.toNat) k { d with out := d.out + 1, inside := 0 }
    have hlog := alarm_logOnly (outOfService w k .mismatch false) (Al.rateMismatch.src p.val) 0
    obtain ⟨a, hdir⟩ := outOfService_dir w k .mismatch false
    have honly := (((hsame.setNat Ix.tdmRate k rate.toNat).setDir _).trans (outOfService_onlyDir w k .mismatch false)).log hlog
    refine ⟨_, hexec, honly.others, ?_, ?_⟩
    · rw [hlog.nat rfl, outOfService, nat_setDir rfl, nat_setDir rfl, nat_setNat_self]
    · rw [dirOf_of_port hlog.port, hdir, dirOf_setDir_self]
      exact ⟨rfl, rfl⟩
  · refine ⟨_, directionReturn_running hk hd hrun hticks hrestart hstop hmode, (hsame.setDir _).others, ?_⟩
    rw [dirOf_setDir_self]
    exact ⟨rfl, fun slot c hc => mapFind_mapChans comesIn hc⟩
  · obtain ⟨honly, hdir, hstate⟩ := stopDir_rx s p
    exact ⟨_, portFadeEnd_stops hk hd hrun hstop hsilent hoff, honly.others, hdir, hstate⟩
  · refine ⟨_, txFollowerClockReturn_running rfl rfl hrun hclk hmode, ((OnlyDir.refl (k + 1) s).setDir _).others, ?_⟩
    rw [dirOf_setDir_self]
    exact ⟨rfl, fun slot c hc => mapFind_mapChans comesIn hc⟩
end

section
/-! The converters of the ports (R184, R222). A subindex has 24 bits, so a number above them names a register that a smaller one names
too; a condition on "every other" converter state has to keep to the subindices there are. -/

namespace Sys2Proof.Machine

/-- Numbers that agree in their low 24 bits name the same register (R184). -/
theorem nat_sub_wraps (s : State) (ix sub : Nat) : s.nat ix (sub + 16777216) = s.nat ix sub := by
  have hkey : objKey ix (sub + 16777216) = objKey ix sub := by
    unfold objKey
    rw [Nat.add_mod_right]
  unfold State.nat State.int State.obj dictGet
  rw [hkey]

/-- The block after reset, converter 0 acquiring for no user. -/
def idleAcquiring : State := State.reset.setNat Ix.asrcState 0 1

/-- That block once converter 0 has learned the ratio 0. -/
def idleLocked : State := (idleAcquiring.setNat Ix.asrcState 0 2).setNat Ix.asrcRatio 0 0

/-- A converter that serves no channel locks, and no channel is touched (R222). -/
theorem asrcLocked_unused {s : State} {ch : Fin 80} {ratio : BitVec 32} (hstate : s.nat Ix.asrcState ch.val = 1)
    (hplace : asrcPlace ((s.setNat Ix.asrcState ch.val 2).setNat Ix.asrcRatio ch.val ratio.toNat) ch.val = none) :
    exec (.asrcLocked ch ratio) s = .next ((s.setNat Ix.asrcState ch.val 2).setNat Ix.asrcRatio ch.val ratio.toNat) := by
  have hexec : exec (.asrcLocked ch ratio) s = execAsrcLocked ch ratio s := rfl
  rw [hexec, execAsrcLocked, if_pos hstate]
  simp only [centreAsrc, hplace]

theorem asrcLocked_idleAcquiring : exec (.asrcLocked 0 0) idleAcquiring = .next idleLocked :=
  asrcLocked_unused (nat_setNat_self ..) (by decide)

theorem asrcState_idleLocked : idleLocked.nat Ix.asrcState 0 = 2 := by
  unfold idleLocked
  rw [nat_setNat_ne _ (objKey_ne_index (by decide)), nat_setNat_self]

end Sys2Proof.Machine

open Sys2Proof Sys2Proof.Machine

/-- Refutes O31: when converter 0 of `idleAcquiring` locks, the state register numbered 2^24 changes, for it is that of converter 0. -/
theorem not_convertersAndAesInputsFollowTheirEvents : ¬ Obligations.ConvertersAndAesInputsFollowTheirEvents := by
  unfold Obligations.ConvertersAndAesInputsFollowTheirEvents
  intro h
  obtain ⟨hports, -⟩ := h
  obtain ⟨hlocked, -⟩ := hports idleAcquiring
  obtain ⟨t, ht, -, -, hothers, -⟩ := hlocked 0 0 (nat_setNat_self ..)
  rw [asrcLocked_idleAcquiring] at ht
  cases ht
  have hsame : idleLocked.nat Ix.asrcState 0 = idleAcquiring.nat Ix.asrcState 0 := calc
    idleLocked.nat Ix.asrcState 0 = idleLocked.nat Ix.asrcState (0 + 16777216) := (nat_sub_wraps ..).symm
    _ = idleAcquiring.nat Ix.asrcState (0 + 16777216) := hothers _ (by decide)
    _ = idleAcquiring.nat Ix.asrcState 0 := nat_sub_wraps ..
  rw [asrcState_idleLocked, idleAcquiring, nat_setNat_self] at hsame
  cases hsame
end


section
/-! A receive stream that the store of the streams lists twice: a packet finds the entry that runs, and its samples go to the entry that
reads of the stream find, which is disabled. NRX_STATE reports no leg of a disabled stream (R260). -/

namespace Sys2Proof.Machine

/-- The block after reset with port 0 up, leg 0 of receive stream 0 on it, and stream 0 listed disabled and running. -/
def listedTwice : State :=
  let s := (State.reset.setNat Ix.netLink 0 1).setNat Ix.nrxPair 0 2
  { s with net := { s.net with rx := [(0, NetRx.off), (0, { NetRx.off with run := .running })] } }

/-- A packet of that stream, whose samples have no channels. -/
def emptyPacket : NetPacket :=
  { mac := 0, tagged := false, src := 0, dst := 0, dport := 5004, ipOk := true, fragment := false, udpOk := true, version := 2, ptype := 0
    ssrc := 0, ts := 0, payload := [], sample := 0, stamp := 0 }

/-- Whether NRX_STATE of stream 0 reports leg 0 up. -/
def legZeroUp : Host.Outcome State Fault Refusal → Bool
  | .next t => (t.nat Ix.nrxState 0).testBit 4
  | _ => false

theorem packetHits_listedTwice : packetHits listedTwice 0 emptyPacket = [(0, 0)] := by decide +kernel

theorem emptyPacket_fits : packetOk listedTwice 0 emptyPacket = true ∧ perPacket listedTwice.cls (rxOf listedTwice 0).fmt = 12 := by
  decide +kernel

/-- The samples of the packet are house samples 0 to 11. -/
theorem emptyPacket_samples : ∀ i, i < 12 → nearestSample (listedTwice.clk.tick * listedTwice.ticklen + emptyPacket.sample)
    ((emptyPacket.ts.toNat + i) % 4294967296) = some (0 + i) := by decide +kernel

theorem legZeroUp_listedTwice : legZeroUp (exec (.streamPacketReceived 0 emptyPacket) listedTwice) = false := by decide +kernel

end Sys2Proof.Machine

open Sys2Proof Sys2Proof.Machine

/-- Refutes O32: the packet's leg should be reported up, and the disabled entry of `listedTwice` reports none. -/
theorem not_streamPacketsArriveAndLeave : ¬ Obligations.StreamPacketsArriveAndLeave := by
  unfold Obligations.StreamPacketsArriveAndLeave
  intro h
  obtain ⟨hpacket, -⟩ := h listedTwice 0 rfl
  obtain ⟨hfits, hn⟩ := emptyPacket_fits
  obtain ⟨t, ht, -, hleg, -⟩ := hpacket emptyPacket 0 0 0 (by decide +kernel) rfl (Nat.zero_le _) (by decide +kernel)
    packetHits_listedTwice (by decide) hfits (by rw [hn]; exact emptyPacket_samples) (fun _ _ => Nat.zero_le _)
    (by decide +kernel) (fun _ _ => rfl)
  have hdown := legZeroUp_listedTwice
  rw [ht] at hdown
  exact Bool.false_ne_true (hdown.symm.trans hleg)
end


section
/-! What the media ports' counting and sending leave (R259, R394): outputs are added, counters and the event log change, and the rest of
the block is as it was. -/

namespace Sys2Proof.Machine

/-! ### The frame of counting and sending -/

/-- The registers that counting a network event may change: the event log, PMU_NET_COUNT and PMU_OVF (R204, R394, R404). -/
def netEventIx (ix : Nat) : Bool := isLogIx ix || ix == Ix.pmuNetCount || ix == Ix.pmuOvf

/-- Those, and NET_PORT_COUNTS (R259). -/
def trafficIx (ix : Nat) : Bool := netEventIx ix || ix == Ix.netPortCounts

/-- From `s` to `t` the outputs `l` have left the block, and of the rest only registers of the objects `P`, and what an entry of the event
log touches, have changed. -/
structure Emits (P : Nat → Bool) (l : List Output) (s t : State) : Prop where
  out : t.out = s.out ++ l
  rest : { t.stripLog with out := [] } = { s.stripLog with out := [] }
  obj : ∀ ix sub, P ix = false → t.obj ix sub = s.obj ix sub

section
variable {P : Nat → Bool} {l m : List Output} {s t u : State}

theorem Emits.refl (P : Nat → Bool) (s : State) : Emits P [] s s := ⟨(List.append_nil _).symm, rfl, fun _ _ _ => rfl⟩

theorem Emits.trans (h : Emits P l s t) (k : Emits P m t u) : Emits P (l ++ m) s u :=
  ⟨by rw [k.out, h.out, List.append_assoc], k.rest.trans h.rest, fun ix sub hx => (k.obj ix sub hx).trans (h.obj ix sub hx)⟩

/-- What sends nothing, after something or before. -/
theorem Emits.quiet (h : Emits P l s t) (k : Emits P [] t u) : Emits P l s u := by
  have hk := h.trans k
  rwa [List.append_nil] at hk

theorem Emits.ite {c : Prop} [Decidable c] (ht : Emits P l s t) (hu : Emits P l s u) : Emits P l s (if c then t else u) := by
  split
  · exact ht
  · exact hu

/-- What is sent, and what is left, by one condition. -/
theorem Emits.cond {c : Prop} [Decidable c] (ht : Emits P l s t) (hu : Emits P m s u) :
    Emits P (if c then l else m) s (if c then t else u) := by
  split
  · exact ht
  · exact hu

/-- More registers may have changed. -/
theorem Emits.widen {Q : Nat → Bool} (h : Emits P l s t) (hPQ : ∀ ix, Q ix = false → P ix = false) : Emits Q l s t :=
  ⟨h.out, h.rest, fun ix sub hx => h.obj ix sub (hPQ ix hx)⟩

theorem Emits.emit (h : Emits P l s t) (o : Output) : Emits P (l ++ [o]) s (t.emit o) :=
  h.trans ⟨rfl, rfl, fun _ _ _ => rfl⟩

theorem Emits.setNat (h : Emits P l s t) {ix : Nat} (hx : P ix = true) (sub n : Nat) : Emits P l s (t.setNat ix sub n) := by
  refine h.quiet ⟨by rw [setNat_out, List.append_nil], ?_, fun jx sub' hj => obj_setObj_ne t (objKey_ne_index ?_) _⟩
  · unfold State.stripLog State.setNat State.setObj
    rfl
  · rintro rfl
    exact Bool.false_ne_true (hj.symm.trans hx)

theorem Emits.foldl {α : Type} {f : State → α → State} (hf : ∀ t a, Emits P [] t (f t a)) (as : List α) (s : State) :
    Emits P [] s (as.foldl f s) := by
  induction as generalizing s with
  | nil => exact Emits.refl P s
  | cons a as ih => exact (hf s a).trans (ih _)

/-- A fold of steps of which each sends its own outputs. -/
theorem Emits.foldl_flatMap {α : Type} {f : State → α → State} {g : α → List Output} {good : State → Prop}
    (hf : ∀ t a, good t → Emits P (g a) t (f t a)) (hgood : ∀ {t u k}, good t → Emits P k t u → good u) (as : List α) {s : State}
    (hs : good s) : Emits P (as.flatMap g) s (as.foldl f s) := by
  induction as generalizing s with
  | nil => exact Emits.refl P s
  | cons a as ih => exact (hf s a hs).trans (ih (hgood hs (hf s a hs)))

theorem LogOnly.emits (h : LogOnly s t) (hP : ∀ ix, P ix = false → isLogIx ix = false) : Emits P [] s t :=
  ⟨by rw [h.out, List.append_nil], by rw [h.same], fun ix sub hx => h.obj ix sub (hP ix hx)⟩

theorem Emits.nat (h : Emits P l s t) {ix : Nat} (hx : P ix = false) (sub : Nat) : t.nat ix sub = s.nat ix sub := by
  unfold State.nat State.int
  rw [h.obj ix sub hx]

theorem Emits.engines (h : Emits P l s t) : t.engines = s.engines := by
  have k := congrArg State.engines h.rest
  exact k
theorem Emits.lat (h : Emits P l s t) : t.lat = s.lat := by
  have k := congrArg State.lat h.rest
  exact k
theorem Emits.fab (h : Emits P l s t) : t.fab = s.fab := by
  have k := congrArg State.fab h.rest
  exact k
theorem Emits.net (h : Emits P l s t) : t.net = s.net := by
  have k := congrArg State.net h.rest
  exact k
theorem Emits.pair (h : Emits P l s t) : t.pair = s.pair := by
  have k := congrArg State.pair h.rest
  exact k

theorem Emits.memByte (h : Emits P l s t) (a : Nat) : memByte t a = memByte s a := memByte_of_fab (congrArg FabSt.mem h.fab) a

end

/-! ### Events, port counts and frames of the port's own traffic -/

theorem isLogIx_of_netEventIx {ix : Nat} (h : netEventIx ix = false) : isLogIx ix = false := by
  simp only [netEventIx, Bool.or_eq_false_iff] at h
  exact h.1.1

theorem netEventIx_of_trafficIx {ix : Nat} (h : trafficIx ix = false) : netEventIx ix = false := by
  simp only [trafficIx, Bool.or_eq_false_iff] at h
  exact h.1

theorem addNetBlock_emits (k bit src n : Nat) (s : State) : Emits netEventIx [] s (addBlock Ix.pmuNetCount k bit src n s) := by
  unfold addBlock
  have h := (Emits.refl netEventIx s).setNat (ix := Ix.pmuNetCount) rfl k ((s.nat Ix.pmuNetCount k + n) % 2 ^ 48)
  exact h.ite ((h.setNat rfl _ _).quiet ((alarmIf_logOnly _ _ _ _).emits fun _ => isLogIx_of_netEventIx))

theorem netEvent_emits (ev port n : Nat) (s : State) : Emits netEventIx [] s (netEvent ev port n s) := by
  unfold netEvent
  exact Emits.foldl (fun t _ => (addNetBlock_emits _ _ _ _ t).ite (Emits.refl _ t)) _ s

theorem netEvent_traffic (ev port n : Nat) (s : State) : Emits trafficIx [] s (netEvent ev port n s) :=
  (netEvent_emits ev port n s).widen fun _ => netEventIx_of_trafficIx

theorem portCount_traffic (s : State) (p k : Nat) : Emits trafficIx [] s (portCount s p k) := (Emits.refl _ s).setNat rfl _ _

/-- Counters of ports, and the counters of one port, are different registers. -/
theorem nat_portCount_ne (s : State) {p k sub : Nat} (hne : sub ≠ 8 * p + k) (h : sub < 16777216) (hp : 8 * p + k < 16777216) :
    (portCount s p k).nat Ix.netPortCounts sub = s.nat Ix.netPortCounts sub :=
  nat_setNat_ne s (objKey_ne_sub hne h hp) _

theorem nat_portCount_self (s : State) (p k : Nat) : (portCount s p k).nat Ix.netPortCounts (8 * p + k) =
    min (s.nat Ix.netPortCounts (8 * p + k) + 1) 0xFFFFFFFF := nat_setNat_self ..

/-- A port sends its own traffic: its link is up and it has an address (R236, R257). -/
def portSends (s : State) (p : Nat) : Bool := linkUp s p && s.nat Ix.netPortAddr p != 0

theorem Emits.linkUp {l : List Output} {s t : State} (h : Emits trafficIx l s t) (p : Nat) : linkUp t p = linkUp s p := by
  unfold Machine.linkUp
  rw [h.nat rfl]

theorem Emits.portSends {l : List Output} {s t : State} (h : Emits trafficIx l s t) (p : Nat) : portSends t p = portSends s p := by
  unfold Machine.portSends
  rw [h.linkUp, h.nat rfl]

theorem sendCtl_eq {s : State} {p : Nat} (h : portSends s p = true) (o : Output) :
    sendCtl s p o = netEvent 0x09 p 1 ((portCount s p 1).emit o) := by
  simp only [portSends, Bool.and_eq_true, bne_iff_ne] at h
  obtain ⟨hlink, haddr⟩ := h
  unfold sendCtl
  rw [if_neg haddr, hlink]
  rfl

/-- A frame leaves a port that sends, and no other. -/
theorem sendCtl_emits (s : State) (p : Nat) (o : Output) :
    Emits trafficIx (if portSends s p then [o] else []) s (sendCtl s p o) := by
  by_cases h : portSends s p = true
  · rw [sendCtl_eq h, if_pos h]
    exact ((portCount_traffic s p 1).emit o).quiet (netEvent_traffic ..)
  · rw [if_neg h]
    unfold sendCtl
    split
    case isTrue => exact Emits.refl _ s
    case isFalse haddr =>
      have hdown : linkUp s p = false := by simpa [portSends, haddr] using h
      rw [hdown]
      exact (Emits.refl _ s).setNat rfl _ _

end Sys2Proof.Machine
end


section
/-! ARP, IGMP and links of the media ports (R236, R250, R257): what leaves a port that sends its own traffic, and what a link that goes down
or comes up leaves of the network. -/

namespace Sys2Proof.Machine

/-! ### Groups -/

/-- A port that sends answers an ARP request for its address (R236). -/
theorem mediaArpRequest_answers {s : State} {port : Fin 4} (hq : s.boot.quiet = false) (hp : portSends s port.val = true)
    (ha : s.nat Ix.netPortAddr port.val < 4294967296) :
    exec (.mediaArpRequest port (BitVec.ofNat 32 (s.nat Ix.netPortAddr port.val))) s =
      .next (sendCtl s port.val (.mediaArp port.val (s.nat Ix.netPortAddr port.val) false)) := by
  have hcond := hp
  simp only [portSends, Bool.and_eq_true] at hcond
  change execMediaArpRequest port _ s = _
  unfold execMediaArpRequest
  simp [hq, hcond, Nat.mod_eq_of_lt ha]

/-- What a report of some groups sends: one frame for each group whose port sends. -/
def groupReports (s : State) (gs : List (Nat × Nat × Nat)) : List Output :=
  (gs.filter (fun g => portSends s g.1)).map (fun g => .igmp g.1 g.2.1 g.2.2 true)

theorem groupReports_congr {s t : State} (h : ∀ p, portSends t p = portSends s p) (gs : List (Nat × Nat × Nat)) :
    groupReports t gs = groupReports s gs := by
  unfold groupReports
  simp only [h]

theorem reportGroups_emits (gs : List (Nat × Nat × Nat)) (s : State) :
    Emits trafficIx (groupReports s gs) s (reportGroups s gs true) := by
  induction gs generalizing s with
  | nil => exact Emits.refl _ s
  | cons g gs ih =>
    have hg := sendCtl_emits s g.1 (.igmp g.1 g.2.1 g.2.2 true)
    have hrest := hg.trans (ih (sendCtl s g.1 (.igmp g.1 g.2.1 g.2.2 true)))
    rw [groupReports_congr hg.portSends] at hrest
    have hlist : groupReports s (g :: gs) =
        (if portSends s g.1 then [.igmp g.1 g.2.1 g.2.2 true] else []) ++ groupReports s gs := by
      unfold groupReports
      rw [List.filter_cons]
      split
      · rfl
      · rfl
    rw [hlist]
    exact hrest

/-- The sources of a group on a port, of the joined groups `gs`. -/
def sourcesOf (gs : List (Nat × Nat × Nat)) (p g : Nat) : List Nat :=
  (gs.filter (fun h => h.1 == p && h.2.1 == g)).map (fun h => h.2.2)

/-- The answer to a query about a group of the sources `mine` on a port: all sources of it, or the ones among those asked for (R250). -/
def groupAnswer (p : Nat) (ask mine : List Nat) (g : Nat) : List Output :=
  let all := mine.contains 0
  let both := if all then ask else mine.filter (fun a => ask.contains a)
  if ask = [] then [.igmpState p g (if all then [] else mine) all] else if both = [] then [] else [.igmpState p g both false]

theorem groupSources_eq (gs : List (Nat × Nat × Nat)) (p g : Nat) : groupSources gs p g =
    (if (sourcesOf gs p g).contains 0 then [] else sourcesOf gs p g, (sourcesOf gs p g).contains 0) := by
  unfold groupSources
  cases hall : (sourcesOf gs p g).contains 0
  · exact if_neg (by rw [← Bool.not_eq_true] at hall; exact hall)
  · exact if_pos hall

theorem answerQuery_emits (gs : List (Nat × Nat × Nat)) {p : Nat} (ask : List Nat) (g : Nat) {s : State} (h : portSends s p = true) :
    Emits trafficIx (groupAnswer p ask (sourcesOf gs p g) g) s (answerQuery gs p ask s g) := by
  have hsend (o : Output) : Emits trafficIx [o] s (sendCtl s p o) := by
    have k := sendCtl_emits s p o
    rwa [if_pos h] at k
  unfold groupAnswer answerQuery
  rw [groupSources_eq]
  simp only [List.isEmpty_iff]
  cases (sourcesOf gs p g).contains 0
  · exact (hsend (.igmpState p g (sourcesOf gs p g) false)).cond ((Emits.refl _ s).cond (hsend _))
  · exact (hsend (.igmpState p g [] true)).cond ((Emits.refl _ s).cond (hsend _))

/-- Every group of `as` is answered in turn. -/
theorem foldl_answerQuery_emits (gs : List (Nat × Nat × Nat)) {p : Nat} (ask as : List Nat) {s : State} (h : portSends s p = true) :
    Emits trafficIx (as.flatMap fun g => groupAnswer p ask (sourcesOf gs p g) g) s (as.foldl (answerQuery gs p ask) s) :=
  Emits.foldl_flatMap (good := fun t => portSends t p = true) (fun _ g ht => answerQuery_emits gs ask g ht)
    (fun ht k => (k.portSends p).trans ht) as h

/-- The joined groups of a port, and of these the ones with a property. -/
theorem filter_port (gs : List (Nat × Nat × Nat)) (p : Nat) (f : Nat × Nat × Nat → Bool) :
    (gs.filter (fun g => g.1 == p)).filter f = gs.filter (fun g => g.1 == p && f g) := by
  rw [List.filter_filter]
  exact congrArg (gs.filter ·) (funext fun g => Bool.and_comm ..)

/-! ### Reports that are repeated -/

@[simp] theorem rxOf_setRx_self (s : State) (r : Nat) (x : NetRx) : rxOf (setRx s r x) r = x :=
  mapGet_mapSet_self ..

theorem rxOf_setRx_ne (s : State) {r j : Nat} (h : j ≠ r) (x : NetRx) : rxOf (setRx s r x) j = rxOf s j :=
  mapGet_mapSet_ne _ h _ _

theorem nat_setRx {ix : Nat} (h : ix ≠ Ix.nrxState) (s : State) (r : Nat) (x : NetRx) (sub : Nat) :
    (setRx s r x).nat ix sub = s.nat ix sub :=
  nat_setNat_ne _ (objKey_ne_index h) _

theorem portSends_setRx (s : State) (r : Nat) (x : NetRx) (p : Nat) : portSends (setRx s r x) p = portSends s p := by
  unfold portSends linkUp
  rw [nat_setRx (by decide), nat_setRx (by decide)]

/-- A stream's report is repeated once (R250). -/
theorem igmpRepeat_stream {s : State} {r : Fin 512} (hq : s.boot.quiet = false) (hrun : (rxOf s r.val).run ≠ .off)
    (hdue : (rxOf s r.val).repeatDue ≠ []) : exec (.igmpRepeat r false) s =
      .next (reportGroups (setRx s r.val { rxOf s r.val with repeatDue := [] }) (rxOf s r.val).repeatDue true) := by
  change execIgmpRepeat r false s = _
  unfold execIgmpRepeat
  simp [hq, hrun, hdue]

/-- The block once the repeat of a watched stream is no longer due. -/
def watchRepeated (s : State) (r : Nat) : State := { s with net := { s.net with watchDue := s.net.watchDue.filter (fun k => k != r) } }

theorem igmpRepeat_watch {s : State} {r : Fin 512} (hq : s.boot.quiet = false) (hdue : s.net.watchDue.contains r.val = true)
    (hwatch : (watchedStreams s).contains r.val = true) : exec (.igmpRepeat r true) s =
      .next (reportGroups (watchRepeated s r.val) (watchGroupsOf s r.val) true) := by
  change execIgmpRepeat r true s = _
  unfold execIgmpRepeat
  rw [if_neg (by rw [hq]; exact Bool.false_ne_true)]
  exact (if_pos hdue).trans (congrArg Host.Outcome.next (if_pos hwatch))

/-! ### Links -/

/-- From `s` to `t` the links of the ports, the network, the engines and the Lattice are as they were, and nothing has left the block. -/
structure KeepsLinks (s t : State) : Prop where
  link : ∀ p, t.nat Ix.netLink p = s.nat Ix.netLink p
  net : t.net = s.net
  engines : t.engines = s.engines
  lat : t.lat = s.lat
  out : t.out = s.out

section
variable {s t u : State}

theorem KeepsLinks.refl (s : State) : KeepsLinks s s := ⟨fun _ => rfl, rfl, rfl, rfl, rfl⟩

theorem KeepsLinks.trans (h : KeepsLinks s t) (k : KeepsLinks t u) : KeepsLinks s u :=
  ⟨fun p => (k.link p).trans (h.link p), k.net.trans h.net, k.engines.trans h.engines, k.lat.trans h.lat, k.out.trans h.out⟩

theorem KeepsLinks.ite {c : Prop} [Decidable c] (ht : KeepsLinks s t) (hu : KeepsLinks s u) : KeepsLinks s (if c then t else u) := by
  split
  · exact ht
  · exact hu

theorem KeepsLinks.andIf {c : Prop} [Decidable c] {f : State → State} (h : KeepsLinks s t) (hf : ∀ t, KeepsLinks t (f t)) :
    KeepsLinks s (if c then f t else t) :=
  (h.trans (hf t)).ite h

theorem KeepsLinks.foldl {α : Type} {f : State → α → State} (hf : ∀ t a, KeepsLinks t (f t a)) (as : List α) (s : State) :
    KeepsLinks s (as.foldl f s) := by
  induction as generalizing s with
  | nil => exact KeepsLinks.refl s
  | cons a as ih => exact (hf s a).trans (ih _)

theorem KeepsLinks.setObj (h : KeepsLinks s t) {ix : Nat} (hx : ix ≠ Ix.netLink) (sub : Nat) (v : Val) :
    KeepsLinks s (t.setObj ix sub v) :=
  h.trans ⟨fun _ => nat_setObj_ne t (objKey_ne_index hx.symm) v, setObj_net .., setObj_engines .., setObj_lat .., setObj_out ..⟩

theorem LogOnly.keepsLinks (h : LogOnly s t) : KeepsLinks s t := ⟨fun _ => h.nat rfl, h.net, h.engines, h.lat, h.out⟩

/-- The network may differ, in the same way on both sides. -/
theorem KeepsLinks.withNet (h : KeepsLinks s t) (f : NetSt → NetSt) :
    KeepsLinks { s with net := f s.net } { t with net := f t.net } :=
  ⟨h.link, congrArg f h.net, h.engines, h.lat, h.out⟩

theorem KeepsLinks.alarm (h : KeepsLinks s t) (a : AlarmId) (detail : Nat) : KeepsLinks s (t.alarm a detail) :=
  h.trans (alarm_logOnly t a detail).keepsLinks

theorem KeepsLinks.alarmIf (h : KeepsLinks s t) (c : Bool) (a : AlarmId) (detail : Nat) : KeepsLinks s (t.alarmIf c a detail) :=
  h.trans (alarmIf_logOnly t c a detail).keepsLinks
end

/-- A candidate that fails a monitor touches the references alone (R281). -/
theorem refLost_keepsLinks (s : State) (k : Nat) : KeepsLinks s (refLost s k) := by
  have hcand (c : Cand) : KeepsLinks s (setCand s k c) := ⟨fun _ => rfl, rfl, rfl, rfl, rfl⟩
  unfold refLost refFails setRefReason
  exact (hcand _).ite ((((hcand _).setObj (by decide) _ _).setObj (by decide) _ _).alarm _ _)

/-- A decision of the best master clock algorithm touches the time base and the references alone (R270 to R272). -/
theorem ptpDecide_keepsLinks (s : State) (i : Nat) (p0 : PtpInst) : KeepsLinks s (ptpDecide s i p0) := by
  have hptp (p : PtpInst) : KeepsLinks s (setPtp s i p) := ⟨fun _ => rfl, rfl, rfl, rfl, rfl⟩
  have hregs (p : PtpInst) (code quality gm : Nat) : KeepsLinks s
      ((((setPtp s i p).setNat Ix.ptpState i code).setNat Ix.ptpGmQuality i quality).setNat Ix.ptpGmId i gm) :=
    (((hptp p).setObj (by decide) _ _).setObj (by decide) _ _).setObj (by decide) _ _
  unfold ptpDecide
  exact (((hregs _ _ _ _).alarmIf _ _ _).alarmIf _ _ _).andIf (refLost_keepsLinks · i)

/-- The network once the link of a port has gone down: nothing waits at the port (R257). -/
def netDown (n : NetSt) (p : Nat) : NetSt :=
  { n with ready := mapSet (fun _ => []) p [] n.ready, fwd := mapSet (fun _ => []) p [] n.fwd }

/-- Nothing waits at the port, and the queues of the other ports are as they were. -/
theorem ready_netDown (n : NetSt) (p j : Nat) :
    mapGet (fun _ => []) j (netDown n p).ready = if j = p then [] else mapGet (fun _ => []) j n.ready :=
  mapGet_mapSet (fun _ => []) p j [] n.ready

/-- The block as the link of a port goes down, before what that drops is counted and logged. -/
def cutLink (s : State) (p : Nat) : State := { s.setNat Ix.netLink p 0 with net := netDown s.net p }

theorem link_cutLink (s : State) (p : Nat) : (cutLink s p).nat Ix.netLink p = 0 :=
  (nat_of_dict rfl ..).trans (nat_setNat_self s Ix.netLink p 0)

/-- A link that goes down empties the queues of its port, and its PTP port stops. -/
theorem downLink_keepsLinks {s : State} {p : Nat} (h : linkUp s p = true) : KeepsLinks (cutLink s p) (downLink s p) := by
  have hdrop (t : State) (sub : Nat) (a : AlarmId) (detail : Nat) :
      KeepsLinks t ((t.addHold Ix.netPortCounts sub 1).alarm a detail) :=
    ((KeepsLinks.refl t).setObj (by decide) _ _).alarm _ _
  have hready := KeepsLinks.foldl (fun t (k : ReadyPacket) => hdrop t (8 * p + 7) Al.netTxDrop (streamDetail k.stream k.leg))
    (mapGet (fun _ => []) p s.net.ready)
    { s.setNat Ix.netLink p 0 with net := { s.net with ready := mapSet (fun _ => []) p [] s.net.ready } }
  have hfwd := KeepsLinks.foldl (fun t (_ : FwdFrame) => hdrop t (8 * (5 - p) + 6) (Al.netFwdDrop.src (5 - p)) 0)
    (mapGet (fun _ => []) p s.net.fwd)
  have hdropped := (hready.withNet fun n => { n with fwd := mapSet (fun _ => []) p [] n.fwd }).trans (hfwd _)
  unfold downLink
  rw [if_neg (by rw [h]; exact Bool.false_ne_true)]
  exact (hdropped.alarm (Al.netLinkDown.src p) 0).trans (ptpDecide_keepsLinks _ _ _)

end Sys2Proof.Machine

open Sys2Proof Sys2Proof.Machine

/-- Settles O34: what a port sends is `sendCtl`'s, and the decision of the PTP ports after a link has changed touches no link. -/
theorem linksAndGroupsAreReported : Obligations.LinksAndGroupsAreReported := by
  unfold Obligations.LinksAndGroupsAreReported
  intro s port p sends reports
  refine ⟨fun hq hlink haddr hsmall => ?_, fun group sources hq hsend => ?_, fun r hq hrun hdue => ?_, fun r hq hdue hwatch => ?_,
    fun hlink => ?_, fun hspeed => ?_⟩
  · have hsend : portSends s p = true := by simp [portSends, hlink, haddr]
    have hsent := sendCtl_emits s p (.mediaArp p (s.nat Ix.netPortAddr p) false)
    rw [if_pos hsend] at hsent
    refine ⟨_, mediaArpRequest_answers hq hsend hsmall, hsent.out, hsent.net, hsent.engines, ?_⟩
    rw [sendCtl_eq hsend, (netEvent_emits ..).nat rfl]
    exact nat_portCount_self s p 1
  · have hsent := foldl_answerQuery_emits (joinedGroups s) (sources.map (fun a => a.toNat))
      ((((joinedGroups s).filter (fun g => g.1 == p && (group == 0 || g.2.1 == group.toNat))).map (fun g => g.2.1)).eraseDups) hsend
    intro here ask answer
    refine ⟨_, if_neg (by rw [hq]; exact Bool.false_ne_true), ?_, hsent.net, hsent.engines⟩
    have hanswer : answer = fun g => groupAnswer p ask (sourcesOf (joinedGroups s) p g) g := by
      funext g
      unfold sourcesOf
      rw [← filter_port]
      rfl
    rw [hanswer, filter_port]
    exact hsent.out
  · have hsent := reportGroups_emits (rxOf s r.val).repeatDue (setRx s r.val { rxOf s r.val with repeatDue := [] })
    rw [groupReports_congr (portSends_setRx _ _ _)] at hsent
    have hrx (j : Nat) := congrArg (fun n : NetSt => mapGet (fun _ => NetRx.off) j n.rx) hsent.net
    refine ⟨_, igmpRepeat_stream hq hrun hdue, (hrx _).trans (rxOf_setRx_self ..), hsent.out,
      fun j hj => (hrx j).trans (rxOf_setRx_ne s hj _), hsent.engines⟩
  · have hsent := reportGroups_emits (watchGroupsOf s r.val) (watchRepeated s r.val)
    refine ⟨_, igmpRepeat_watch hq hdue hwatch, hsent.out, ?_, ?_, hsent.engines⟩
    · rw [hsent.net]
      rfl
    · rw [hsent.net]
      rfl
  · have hcut := downLink_keepsLinks hlink
    have hnet : (downLink s p).net = netDown s.net p := hcut.net
    refine ⟨downLink s p, rfl, (hcut.link p).trans (link_cutLink s p), ?_, ?_, ?_, ?_, hcut.engines, hcut.lat, hcut.out⟩
    · rw [hnet]
      exact (ready_netDown ..).trans (if_pos rfl)
    · rw [hnet]
      exact fun j hj => (ready_netDown ..).trans (if_neg hj)
    · rw [hnet]
      rfl
    · rw [hnet]
      rfl
  · have ht := ptpDecide_keepsLinks (s.setNat Ix.netLink p (if s.nat Ix.netPortSpeed p = 1 then 1 else 2)) (p / 2)
      (ptpOf (s.setNat Ix.netLink p (if s.nat Ix.netPortSpeed p = 1 then 1 else 2)) (p / 2))
    have hnet := ht.net.trans (setNat_net ..)
    refine ⟨_, if_neg hspeed, (ht.link p).trans (nat_setNat_self ..), ?_, ?_, ?_, ht.engines.trans (setNat_engines ..),
      ht.lat.trans (setNat_lat ..), ht.out.trans (setNat_out ..)⟩
    · rw [hnet]
    · rw [hnet]
    · rw [hnet]
end


section
/-! Descriptors of the software rings (R252, R253): words of fabric memory, and what serving a descriptor leaves as it was. -/

namespace Sys2Proof.Machine

/-! ### Words of fabric memory -/

theorem natLE_bytesLE (n x : Nat) : natLE (bytesLE n x) = x % 256 ^ n := by
  induction n generalizing x with
  | zero => simp [bytesLE, natLE, Nat.mod_one]
  | succ n ih =>
    rw [bytesLE, natLE, ih, BitVec.toNat_ofNat, Nat.pow_succ' (m := 256)]
    exact Nat.mod_mul.symm

theorem length_bytesLE (n x : Nat) : (bytesLE n x).length = n := by
  induction n generalizing x with
  | zero => rfl
  | succ n ih => rw [bytesLE, List.length_cons, ih]

theorem bankWord_eq (s : State) (a : Nat) : bankWord s a =
    natLE [memByte s a, memByte s (a + 1), memByte s (a + 1 + 1), memByte s (a + 1 + 1 + 1)] := rfl

/-- A word of a memory that holds the same four bytes. -/
theorem bankWord_congr {s t : State} {a : Nat} (h : ∀ k, a ≤ k → k < a + 4 → memByte t k = memByte s k) : bankWord t a = bankWord s a := by
  rw [bankWord_eq, bankWord_eq, h a (by omega) (by omega), h (a + 1) (by omega) (by omega), h (a + 1 + 1) (by omega) (by omega),
    h (a + 1 + 1 + 1) (by omega) (by omega)]

theorem bankWord_lt (s : State) (a : Nat) : bankWord s a < 4294967296 := by
  have h0 := (memByte s a).isLt
  have h1 := (memByte s (a + 1)).isLt
  have h2 := (memByte s (a + 1 + 1)).isLt
  have h3 := (memByte s (a + 1 + 1 + 1)).isLt
  rw [bankWord_eq]
  simp only [natLE]
  omega

theorem memByte_setMemWord_ne (s : State) {a k : Nat} (h : k < a ∨ a + 4 ≤ k) (w : Nat) : memByte (setMemWord s a w) k = memByte s k := by
  unfold setMemWord
  rw [memByte_setMemBytes, length_bytesLE, if_neg (by omega)]

theorem bankWord_setMemWord_self (s : State) (a w : Nat) : bankWord (setMemWord s a w) a = w % 4294967296 := by
  have hbyte (i : Nat) (hi : i < 4) : memByte (setMemWord s a w) (a + i) = listGet 0 i (bytesLE 4 w) := by
    unfold setMemWord
    rw [memByte_setMemBytes, length_bytesLE, if_pos (by omega), Nat.add_sub_cancel_left]
  calc bankWord (setMemWord s a w) a
      = natLE [memByte (setMemWord s a w) (a + 0), memByte (setMemWord s a w) (a + 1), memByte (setMemWord s a w) (a + 2),
          memByte (setMemWord s a w) (a + 3)] := bankWord_eq ..
    _ = natLE (bytesLE 4 w) := by
      rw [hbyte 0 (by omega), hbyte 1 (by omega), hbyte 2 (by omega), hbyte 3 (by omega)]
      rfl
    _ = w % 4294967296 := natLE_bytesLE 4 w

theorem bankWord_setMemWord_ne (s : State) {a b : Nat} (h : b + 4 ≤ a ∨ a + 4 ≤ b) (w : Nat) :
    bankWord (setMemWord s a w) b = bankWord s b :=
  bankWord_congr fun _ _ _ => memByte_setMemWord_ne s (by omega) w

/-! ### What serving a descriptor leaves -/

/-- From `s` to `t` memory has changed in the `n` bytes from `a` on at most, and the rings, the engines, the outputs and the counts of
the ports are as they were. -/
structure Serves (a n : Nat) (s t : State) : Prop where
  mem : ∀ k, (k < a ∨ a + n ≤ k) → memByte t k = memByte s k
  rings : t.net.rings = s.net.rings
  engines : t.engines = s.engines
  out : t.out = s.out
  counts : ∀ sub, t.nat Ix.netPortCounts sub = s.nat Ix.netPortCounts sub

section
variable {a n : Nat} {s t u : State}

theorem Serves.refl (a n : Nat) (s : State) : Serves a n s s := ⟨fun _ _ => rfl, rfl, rfl, rfl, fun _ => rfl⟩

theorem Serves.trans (h : Serves a n s t) (k : Serves a n t u) : Serves a n s u :=
  ⟨fun i hi => (k.mem i hi).trans (h.mem i hi), k.rings.trans h.rings, k.engines.trans h.engines, k.out.trans h.out,
    fun sub => (k.counts sub).trans (h.counts sub)⟩

theorem Serves.setMemBytes (h : Serves a n s t) {b : Nat} {data : List Byte} (hb : a ≤ b) (hn : b + data.length ≤ a + n) :
    Serves a n s (setMemBytes t b data) := by
  refine h.trans ⟨fun k hk => ?_, ?_, setMemBytes_engines .., setMemBytes_out .., fun sub => nat_of_dict ?_ _ _⟩
  · rw [memByte_setMemBytes, if_neg (by omega)]
  · rw [setMemBytes_eq]
  · rw [setMemBytes_eq]

theorem Serves.setMemWord (h : Serves a n s t) {b : Nat} (hb : a ≤ b) (hn : b + 4 ≤ a + n) (w : Nat) :
    Serves a n s (setMemWord t b w) :=
  h.setMemBytes hb (by rw [length_bytesLE]; exact hn)

theorem Serves.event (h : Serves a n s t) (ev p k : Nat) : Serves a n s (netEvent ev p k t) := by
  have he := netEvent_emits ev p k t
  exact h.trans ⟨fun i _ => he.memByte i, congrArg NetSt.rings he.net, he.engines, he.out.trans (List.append_nil _),
    fun sub => he.nat rfl sub⟩

theorem Serves.ite {c : Prop} [Decidable c] (ht : Serves a n s t) (hu : Serves a n s u) : Serves a n s (if c then t else u) := by
  split
  · exact ht
  · exact hu

theorem Serves.bankWord (h : Serves a n s t) {b : Nat} (hb : b + 4 ≤ a ∨ a + n ≤ b) : bankWord t b = bankWord s b :=
  bankWord_congr fun k _ _ => h.mem k (by omega)
end

/-- Clearing OWN writes word 0; beside memory an interrupt at most has changed (R252). -/
theorem memByte_releaseDesc (s : State) (d w0 ring k : Nat) :
    memByte (releaseDesc s d w0 ring) k = memByte (setMemWord s d (w0 % 2147483648)) k := by
  unfold releaseDesc
  dsimp only
  split
  · rfl
  · rfl

theorem bankWord_releaseDesc (s : State) (d w0 ring b : Nat) :
    bankWord (releaseDesc s d w0 ring) b = bankWord (setMemWord s d (w0 % 2147483648)) b :=
  bankWord_congr fun k _ _ => memByte_releaseDesc s d w0 ring k

theorem bankWord_releaseDesc_self (s : State) (d w0 ring : Nat) : bankWord (releaseDesc s d w0 ring) d = w0 % 2147483648 := by
  rw [bankWord_releaseDesc, bankWord_setMemWord_self]
  omega

theorem Serves.release {d n : Nat} {s t : State} (h : Serves d n s t) (hn : 4 ≤ n) (w0 ring : Nat) :
    Serves d n s (releaseDesc t d w0 ring) := by
  have hw := h.setMemWord (b := d) (Nat.le_refl d) (by omega) (w0 % 2147483648)
  unfold releaseDesc
  exact Serves.ite ⟨hw.mem, hw.rings, hw.engines, hw.out, hw.counts⟩ hw

theorem Serves.time {d : Nat} {s t : State} (h : Serves d 32 s t) (x : FrameTime) : Serves d 32 s (writeTime t d x) :=
  ((h.setMemWord (by omega) (by omega) _).setMemWord (by omega) (by omega) _).setMemWord (by omega) (by omega) _

theorem not_own_of_lt {w : Nat} (h : w < 2147483648) : w.testBit 31 = false := Nat.testBit_lt_two_pow h

/-! ### A frame in its buffer -/

/-- The status word 0 of a receive descriptor (R254). -/
def doneWord (w0 p : Nat) (frame : List Byte) : Nat :=
  w0 / 16384 * 16384 + frame.length % 2048 + p * 2048 + (if ptpEvent frame then 8192 else 0)

theorem doneWord_length {frame : List Byte} (h : frame.length < 2048) (w0 p : Nat) :
    doneWord w0 p frame % 2147483648 % 2048 = frame.length := by
  unfold doneWord
  split
  · omega
  · omega

/-- A descriptor whose buffer lies in Bank B and holds the frame takes it (R254): the state in which the events are counted. -/
def taken (s : State) (p cls d : Nat) (frame : List Byte) (time : FrameTime) : State :=
  releaseDesc (setMemWord (writeTime (setMemBytes s (descBuffer s d) frame) d time) (d + 28) (256 * cls)) d
    (doneWord (bankWord s d) p frame) (4 * cls + p)

theorem deliverRing_eq {s : State} {d : Nat} {frame : List Byte} (p cls : Nat) (time : FrameTime)
    (hsize : frame.length ≤ bankWord s d / 65536 % 2048) (hbank : inBankB (descBuffer s d) frame.length = true) :
    deliverRing s p cls d frame time = (if ptpEvent frame then netEvent 0x0A p 1 (netEvent 0x08 p 1 (taken s p cls d frame time))
      else netEvent 0x08 p 1 (taken s p cls d frame time)) := by
  unfold deliverRing taken doneWord
  simp only [List.take_of_length_le hsize, hbank, Nat.not_lt.2 hsize, Bool.not_true, Bool.false_eq_true, if_false, Nat.zero_add]

/-- What a delivered frame leaves: beside the buffer, what serving the descriptor may change. -/
theorem deliverRing_serves {s : State} {d : Nat} {frame : List Byte} (p cls : Nat) (time : FrameTime)
    (hsize : frame.length ≤ bankWord s d / 65536 % 2048) (hbank : inBankB (descBuffer s d) frame.length = true) :
    Serves d 32 (setMemBytes s (descBuffer s d) frame) (deliverRing s p cls d frame time) := by
  have htaken : Serves d 32 (setMemBytes s (descBuffer s d) frame) (taken s p cls d frame time) :=
    (((Serves.refl d 32 _).time time).setMemWord (by omega) (by omega) _).release (by omega) _ _
  rw [deliverRing_eq p cls time hsize hbank]
  exact ((htaken.event _ _ _).event _ _ _).ite (htaken.event _ _ _)

theorem bankWord_deliverRing {s : State} {d : Nat} {frame : List Byte} (p cls : Nat) (time : FrameTime)
    (hsize : frame.length ≤ bankWord s d / 65536 % 2048) (hbank : inBankB (descBuffer s d) frame.length = true) :
    bankWord (deliverRing s p cls d frame time) d = doneWord (bankWord s d) p frame % 2147483648 := by
  have htaken : bankWord (taken s p cls d frame time) d = doneWord (bankWord s d) p frame % 2147483648 :=
    bankWord_releaseDesc_self ..
  have hevent (ev : Nat) (t : State) : bankWord (netEvent ev p 1 t) d = bankWord t d :=
    bankWord_congr fun k _ _ => (netEvent_emits ev p 1 t).memByte k
  rw [deliverRing_eq p cls time hsize hbank]
  split
  · rw [hevent, hevent, htaken]
  · rw [hevent, htaken]

/-- A delivered frame is in its buffer, where the descriptor lies outside it. -/
theorem memByte_deliverRing {s : State} {d : Nat} {frame : List Byte} (p cls : Nat) (time : FrameTime)
    (hsize : frame.length ≤ bankWord s d / 65536 % 2048) (hbank : inBankB (descBuffer s d) frame.length = true)
    (hapart : d + 32 ≤ descBuffer s d ∨ descBuffer s d + frame.length ≤ d) {i : Nat} (hi : i < frame.length) :
    memByte (deliverRing s p cls d frame time) (descBuffer s d + i) = listGet 0 i frame := by
  rw [(deliverRing_serves p cls time hsize hbank).mem _ (by omega), memByte_setMemBytes, if_pos (by omega), Nat.add_sub_cancel_left]

end Sys2Proof.Machine
end


section
/-! The software rings and the chain (R247, R251 to R256): a frame received or sent through a descriptor, and a frame forwarded. -/

namespace Sys2Proof.Machine

/-! ### What counting and sending leave of the rings and of what waits -/

section
variable {l : List Output} {s t : State}

theorem Emits.bankWord {P : Nat → Bool} (h : Emits P l s t) (a : Nat) : bankWord t a = bankWord s a :=
  bankWord_congr fun k _ _ => h.memByte k

theorem Emits.memBytes {P : Nat → Bool} (h : Emits P l s t) (a n : Nat) : memBytes t a n = memBytes s a n :=
  List.map_congr_left fun k _ => h.memByte k

theorem Emits.descBuffer {P : Nat → Bool} (h : Emits P l s t) (d : Nat) : descBuffer t d = descBuffer s d := by
  unfold Machine.descBuffer
  rw [h.bankWord, h.bankWord]

theorem Emits.txLen {P : Nat → Bool} (h : Emits P l s t) (d : Nat) : txLen t d = txLen s d := congrArg (· % 2048) (h.bankWord d)

theorem Emits.txPort {P : Nat → Bool} (h : Emits P l s t) (d : Nat) : txPort t d = txPort s d := congrArg (· / 2048 % 4) (h.bankWord d)

theorem Emits.descFrame {P : Nat → Bool} (h : Emits P l s t) (d : Nat) : descFrame t d = descFrame s d := by
  unfold Machine.descFrame
  rw [h.descBuffer, h.txLen, h.memBytes]

theorem Emits.ringOwned {P : Nat → Bool} (h : Emits P l s t) (r : Ring) : ringOwned t r = ringOwned s r := by
  unfold Machine.ringOwned
  rw [h.bankWord]

theorem Emits.ringAt {P : Nat → Bool} (h : Emits P l s t) (i : Nat) (k : RingPlace) : ringAt t i k = ringAt s i k := by
  unfold Machine.ringAt
  rw [h.net]

theorem Emits.fwdOf {P : Nat → Bool} (h : Emits P l s t) (q : Nat) : fwdOf t q = fwdOf s q := by
  unfold Machine.fwdOf
  rw [h.net]

theorem Emits.txSends (h : Emits trafficIx l s t) (d : Nat) : txSends t d = txSends s d := by
  unfold Machine.txSends
  rw [h.txLen, h.descBuffer, h.txPort, h.linkUp, h.nat rfl]

theorem Emits.dest {P : Nat → Bool} (h : Emits P l s t) (d : Nat) : t.dest d = s.dest d := by
  unfold State.dest
  rw [h.lat]

theorem Emits.sendsPacket (h : Emits trafficIx l s t) (k first : Nat) : sendsPacket t k first = sendsPacket s k first := by
  unfold Machine.sendsPacket State.isDoor State.ticklen
  rw [h.net, h.pair, h.dest, h.nat rfl, h.nat rfl, h.nat rfl]

theorem Emits.eventWaits (h : Emits trafficIx l s t) (p : Nat) : eventWaits t p = eventWaits s p := by
  unfold Machine.eventWaits
  simp only [h.fwdOf, h.net, h.ringOwned, h.txPort, h.txSends, h.descFrame]

theorem Emits.mustWait (h : Emits trafficIx l s t) (p : Nat) (event : Bool) : mustWait t p event = mustWait s p event := by
  unfold Machine.mustWait streamWaits
  simp only [h.eventWaits, h.net, h.sendsPacket]
end

/-! ### Receive rings (R251, R254) -/

/-- A ring as firmware has set it up has the place that was given. -/
theorem ringAt_size (s : State) (i : Nat) (k : RingPlace) : (ringAt s i k).size = k.size := by
  unfold ringAt
  dsimp only
  split
  case isTrue h => exact h.2
  case isFalse => rfl

/-- The rings after one has been replaced. -/
theorem ring_setRing (s : State) (i j : Nat) (r : Ring) : mapGet (fun _ => Ring.none) j (setRing s i r).net.rings =
    if j = i then r else mapGet (fun _ => Ring.none) j s.net.rings :=
  mapGet_mapSet (fun _ => Ring.none) i j r s.net.rings

theorem out_setRing (s : State) (i : Nat) (r : Ring) : (setRing s i r).out = s.out := rfl

theorem memByte_setRing (s : State) (i : Nat) (r : Ring) (a : Nat) : memByte (setRing s i r) a = memByte s a := rfl

theorem bankWord_setRing (s : State) (i : Nat) (r : Ring) (a : Nat) : bankWord (setRing s i r) a = bankWord s a :=
  bankWord_congr fun k _ _ => memByte_setRing s i r k

theorem ringOwned_ringAt {s : State} {i : Nat} {k : RingPlace} (hok : ringOk k = true)
    (hown : (bankWord s (ringDesc (ringAt s i k))).testBit 31 = true) : ringOwned s (ringAt s i k) = true := by
  have hsize : 0 < (ringAt s i k).size := by
    simp only [ringOk, Bool.and_eq_true, decide_eq_true_eq] at hok
    rw [ringAt_size]
    omega
  simp [ringOwned, hsize, hown]

/-- A frame of a ring's row finds the ring's next descriptor free. -/
theorem ringTake_owned {s : State} {p cls : Nat} (frame : List Byte) (time : FrameTime) {k : RingPlace} (hok : ringOk k = true)
    (hown : (bankWord s (ringDesc (ringAt s (4 * cls + p) k))).testBit 31 = true) :
    ringTake s p cls frame time (some k) =
      advanceRing (deliverRing s p cls (ringDesc (ringAt s (4 * cls + p) k)) frame time) (4 * cls + p) (ringAt s (4 * cls + p) k) := by
  unfold ringTake
  simp [hok, ringOwned_ringAt hok hown]

/-- From `s` to `t` a frame has reached the buffer of descriptor `d`, of the ring that stood at `r` and has moved on. -/
structure Delivered (i d buf : Nat) (r : Ring) (frame : List Byte) (s t : State) : Prop where
  bytes : ∀ j, j < frame.length → memByte t (buf + j) = listGet 0 j frame
  own : (bankWord t d).testBit 31 = false
  length : bankWord t d % 2048 = frame.length
  ring : mapGet (fun _ => Ring.none) i t.net.rings = { r with next := (r.next + 1) % r.size }
  rings : ∀ j, j ≠ i → mapGet (fun _ => Ring.none) j t.net.rings = mapGet (fun _ => Ring.none) j s.net.rings
  mem : ∀ k, (k < d ∨ d + 32 ≤ k) → (k < buf ∨ buf + frame.length ≤ k) → memByte t k = memByte s k
  counts : ∀ sub, t.nat Ix.netPortCounts sub = s.nat Ix.netPortCounts sub
  engines : t.engines = s.engines

/-- A frame that its descriptor's buffer has room for is delivered, where buffer and descriptor lie apart. -/
theorem ringTake_delivers {s : State} {p cls : Nat} {frame : List Byte} (time : FrameTime) {k : RingPlace} {r : Ring} {d buf : Nat}
    (hr : ringAt s (4 * cls + p) k = r) (hd : ringDesc r = d) (hbuf : descBuffer s d = buf) (hok : ringOk k = true)
    (hown : (bankWord s d).testBit 31 = true) (hlen : frame.length < 2048) (hsize : frame.length ≤ bankWord s d / 65536 % 2048)
    (hbank : inBankB buf frame.length = true) (hapart : d + 32 ≤ buf ∨ buf + frame.length ≤ d) :
    Delivered (4 * cls + p) d buf r frame s (ringTake s p cls frame time (some k)) := by
  subst hr hd hbuf
  generalize hr : ringAt s (4 * cls + p) k = r at *
  have hdesc := deliverRing_serves p cls time hsize hbank
  have hdata : Serves (descBuffer s (ringDesc r)) frame.length s (setMemBytes s (descBuffer s (ringDesc r)) frame) :=
    (Serves.refl ..).setMemBytes (Nat.le_refl _) (Nat.le_refl _)
  have hword := bankWord_deliverRing p cls time hsize hbank
  rw [ringTake_owned frame time hok (by rw [hr]; exact hown), hr]
  exact {
    bytes := fun j hj => memByte_deliverRing p cls time hsize hbank hapart hj
    own := (congrArg (Nat.testBit · 31) hword).trans (not_own_of_lt (Nat.mod_lt _ (by omega)))
    length := (congrArg (· % 2048) hword).trans (doneWord_length hlen _ _)
    ring := (ring_setRing ..).trans (if_pos rfl)
    rings := fun j hj => (ring_setRing ..).trans ((if_neg hj).trans (by rw [hdesc.rings, hdata.rings]))
    mem := fun b hbd hbb => (hdesc.mem b hbd).trans (hdata.mem b hbb)
    counts := fun sub => (hdesc.counts sub).trans (hdata.counts sub)
    engines := hdesc.engines.trans hdata.engines }

/-- A frame that the port takes, and no stream, is its ring's. -/
theorem ringFrameReceived_ring {s : State} {port : Fin 4} {frame : List Byte} (time : FrameTime) (place : Option RingPlace) {cls : Nat}
    (hq : s.boot.quiet = false) (hlink : linkUp s port.val = true) (hlen : frame.length ≤ 1514) (htag : etherType frame ≠ 0x8100)
    (hstream : streamFrame s port.val frame = false) (hcls : ringClass s port.val frame = some cls) :
    exec (.ringFrameReceived port frame true time place) s =
      .next (ringTake (portCount s port.val 0) port.val cls frame time place) := by
  have hrefused : frameRefused frame = false := by simp [frameRefused, hlen, htag]
  change execRingFrameReceived port frame true time place s = _
  unfold execRingFrameReceived
  simp [hq, hlink, hrefused, hstream, hcls]

/-! ### Transmit rings (R252, R253) -/

/-- A descriptor's word 0 with OWN set. -/
def ownWord (w : Nat) : Nat := if w.testBit 31 then w else w + 2147483648

theorem ownWord_own (w : Nat) : (ownWord w % 4294967296).testBit 31 = true := by
  unfold ownWord
  simp only [Nat.testBit_eq_decide_div_mod_eq, decide_eq_true_eq]
  split
  · omega
  · omega

theorem ownWord_rest (w : Nat) : ownWord w % 4294967296 % 2147483648 = w % 2147483648 := by
  unfold ownWord
  split
  · omega
  · omega

theorem ringAt_setMemWord (s : State) (a w i : Nat) (k : RingPlace) : ringAt (setMemWord s a w) i k = ringAt s i k := by
  unfold ringAt setMemWord
  rw [setMemBytes_eq]

/-- Firmware hands over a descriptor of its ring: OWN is set, and the ring takes its TSMODE. -/
theorem txDescriptorHandover_eq {s : State} {n : Fin 32} {k : RingPlace} {index : Nat} (osc : Bool) (hq : s.boot.quiet = false)
    (hn : n.val < 16) (hok : ringOk k = true) (hindex : index < k.size) :
    exec (.txDescriptorHandover n ⟨k, index⟩ osc) s =
      .next (setRing (setMemWord s (k.base.toNat + 32 * index) (ownWord (bankWord s (k.base.toNat + 32 * index)))) (32 + n.val)
        { ringAt s (32 + n.val) k with osc := osc }) := by
  change execTxDescriptorHandover n ⟨k, index⟩ osc s = _
  unfold execTxDescriptorHandover
  rw [if_neg (by rw [hq]; exact Bool.false_ne_true), if_neg (by simp [hok, hindex, hn])]
  simp only [ringAt_setMemWord, ownWord]

/-- A descriptor without a timestamp holds none. -/
theorem bankWord_clearTime (s : State) (d : Nat) : (bankWord (clearTime s d) (d + 24)).testBit 18 = false := by
  have hw := bankWord_lt s (d + 24)
  unfold clearTime
  rw [bankWord_setMemWord_self]
  simp only [Nat.testBit_eq_decide_div_mod_eq, decide_eq_true_eq, decide_eq_false_iff_not]
  split
  · omega
  · omega

theorem Serves.clearTime {d : Nat} {s t : State} (h : Serves d 32 s t) : Serves d 32 s (clearTime t d) :=
  h.setMemWord (by omega) (by omega) _

/-- A port whose chain has nothing to send leaves the block as it is at its turn. -/
theorem fwdTurn_empty {s : State} {q : Nat} (h : fwdOf s q = []) : fwdTurn s q = s := by
  unfold fwdTurn
  simp [h]

/-- The frame of a descriptor has left port `p`, and its events are counted. -/
def frameSent (s : State) (p : Nat) (frame : List Byte) : State := netEvent 0x09 p 1 ((portCount s p 1).emit (.netFrame p frame))

theorem frameSent_emits (s : State) (p : Nat) (frame : List Byte) : Emits trafficIx [.netFrame p frame] s (frameSent s p frame) :=
  ((portCount_traffic s p 1).emit _).quiet (netEvent_traffic ..)

/-- What writing a descriptor back leaves of the state in which its ring has moved on. -/
theorem finishDesc_serves (s : State) (i : Nat) (r : Ring) (status : Nat) :
    Serves (ringDesc r) 32 (advanceRing s i r) (finishDesc s i r status) :=
  ((Serves.refl (ringDesc r) 32 _).setMemWord (by omega) (by omega) _).release (by omega) _ _

/-- The words of a descriptor that has been written back. -/
theorem finishDesc_words (s : State) (i : Nat) (r : Ring) (status : Nat) :
    bankWord (finishDesc s i r status) (ringDesc r) = bankWord s (ringDesc r) % 2147483648 ∧
      bankWord (finishDesc s i r status) (ringDesc r + 24) = bankWord s (ringDesc r + 24) ∧
      bankWord (finishDesc s i r status) (ringDesc r + 28) = status % 4294967296 := by
  unfold finishDesc
  refine ⟨bankWord_releaseDesc_self .., ?_, ?_⟩
  · rw [bankWord_releaseDesc, bankWord_setMemWord_ne _ (by omega), bankWord_setMemWord_ne _ (by omega)]
    exact bankWord_setRing ..
  · rw [bankWord_releaseDesc, bankWord_setMemWord_ne _ (by omega), bankWord_setMemWord_self]

/-- From `s` to `t` a frame has left through the next descriptor `d` of the ring that stood at `r` and has moved on: the descriptor is
written back without a timestamp, with status 0. -/
structure SentFrom (i d : Nat) (r : Ring) (o : Output) (s t : State) : Prop where
  out : t.out = s.out ++ [o]
  own : (bankWord t d).testBit 31 = false
  untimed : (bankWord t (d + 24)).testBit 18 = false
  status : bankWord t (d + 28) = 0
  ring : mapGet (fun _ => Ring.none) i t.net.rings = { r with next := (r.next + 1) % r.size }
  rings : ∀ j, j ≠ i → mapGet (fun _ => Ring.none) j t.net.rings = mapGet (fun _ => Ring.none) j s.net.rings
  mem : ∀ k, (k < d ∨ d + 32 ≤ k) → memByte t k = memByte s k

theorem finishDesc_sentFrom (s : State) (i : Nat) (r : Ring) (p : Nat) (frame : List Byte) : SentFrom i (ringDesc r) r (.netFrame p frame) s
    (finishDesc (clearTime (frameSent s p frame) (ringDesc r)) i r 0) := by
  have hsent := frameSent_emits s p frame
  have hclear : Serves (ringDesc r) 32 (frameSent s p frame) (clearTime (frameSent s p frame) (ringDesc r)) :=
    (Serves.refl (ringDesc r) 32 _).clearTime
  have hdesc := finishDesc_serves (clearTime (frameSent s p frame) (ringDesc r)) i r 0
  obtain ⟨hword0, hword6, hword7⟩ := finishDesc_words (clearTime (frameSent s p frame) (ringDesc r)) i r 0
  have hring (j : Nat) := (congrArg (mapGet (fun _ => Ring.none) j) hdesc.rings).trans (ring_setRing ..)
  exact {
    out := hdesc.out.trans ((out_setRing ..).trans (hclear.out.trans hsent.out))
    own := by
      rw [hword0]
      exact not_own_of_lt (Nat.mod_lt _ (by omega))
    untimed := by
      rw [hword6]
      exact bankWord_clearTime ..
    status := hword7
    ring := (hring i).trans (if_pos rfl)
    rings := fun j hj => (hring j).trans ((if_neg hj).trans (by rw [hclear.rings, hsent.net]))
    mem := fun k hk => (hdesc.mem k hk).trans ((memByte_setRing ..).trans ((hclear.mem k hk).trans (hsent.memByte k))) }

theorem sendDesc_plain {s : State} {r : Ring} (time : FrameTime) (hosc : r.osc = false)
    (hts : (bankWord s (ringDesc r)).testBit 13 = false) : sendDesc s r time =
      clearTime (frameSent s (txPort s (ringDesc r)) (descFrame s (ringDesc r))) (ringDesc r) := by
  unfold sendDesc
  simp [hosc, hts, frameSent]

/-- The frame of a ring's next descriptor leaves. -/
theorem ringFrameSent_sends {s : State} {n : Fin 32} {r : Ring} {d p : Nat} {frame : List Byte} (time : FrameTime)
    (hr : mapGet (fun _ => Ring.none) (32 + n.val) s.net.rings = r) (hd : ringDesc r = d) (hp : txPort s d = p)
    (hframe : descFrame s d = frame) (hq : s.boot.quiet = false) (hown : ringOwned s r = true) (hsends : txSends s d = true)
    (hwait : mustWait s p (eventFrame frame) = false) (hfwd : fwdOf s p = []) (hts : (bankWord s d).testBit 13 = false)
    (hosc : r.osc = false) :
    ∃ t, exec (.ringFrameSent n ⟨time, false⟩) s = .next t ∧ SentFrom (32 + n.val) d r (.netFrame p frame) s t := by
  subst hd hp hframe
  simp only [txSends, Bool.and_eq_true, decide_eq_true_eq, bne_iff_ne] at hsends
  obtain ⟨⟨⟨⟨hmin, hmax⟩, hbank⟩, hlink⟩, haddr⟩ := hsends
  refine ⟨_, ?_, finishDesc_sentFrom s _ r _ _⟩
  rw [← sendDesc_plain time hosc hts]
  change execRingFrameSent n ⟨time, false⟩ s = _
  unfold execRingFrameSent
  simp [hq, hr, fwdTurn_empty hfwd, hown, Nat.not_lt.2 hmin, Nat.not_lt.2 hmax, hbank, hlink, haddr, hwait, hosc]

/-! ### The chain (R256) -/

/-- A frame that comes to the chain is counted, where no local delivery counts it. -/
def chainCounted (s : State) (p : Nat) (frame : List Byte) : State := if groupFrame frame then s else portCount s p 0

theorem chainCounted_emits (s : State) (p : Nat) (frame : List Byte) : Emits trafficIx [] s (chainCounted s p frame) :=
  (Emits.refl _ s).ite (portCount_traffic s p 0)

/-- The other counts of the port are as they were. -/
theorem nat_chainCounted (s : State) {p k : Nat} (hp : p < 4) (hk : 0 < k) (hk8 : k < 8) (frame : List Byte) :
    (chainCounted s p frame).nat Ix.netPortCounts (8 * p + k) = s.nat Ix.netPortCounts (8 * p + k) := by
  unfold chainCounted
  split
  · rfl
  · exact nat_portCount_ne s (by omega) (by omega) (by omega)

/-- A chain that forwards a frame from port `p` to port `q`: both links are up and the far port has an address. -/
structure Forwards (s : State) (p q : Nat) (frame : List Byte) : Prop where
  quiet : s.boot.quiet = false
  ports : 2 ≤ p ∧ p < 4 ∧ q = 5 - p
  mode : s.nat Ix.netPair1Mode = 1
  near : linkUp s p = true
  far : linkUp s q = true
  passes : chainForwards s p frame = true
  taken : frameRefused frame = false
  addr : s.nat Ix.netPortAddr q ≠ 0

section
variable {s : State} {port : Fin 4} {q : Nat} {frame : List Byte}

theorem Forwards.back (h : Forwards s port.val q frame) : 5 - q = port.val := by
  have hp := h.ports
  omega

/-- A frame that comes while the far port is sending waits. -/
theorem chainForward_busy (h : Forwards s port.val q frame) (res : Nat) : exec (.chainForward port frame res true) s =
    .next (fwdWait (chainCounted s port.val frame) q { bytes := frame, residence := res }) := by
  obtain ⟨hlow, hhigh, rfl⟩ := h.ports
  change execChainForward port frame res true s = _
  unfold execChainForward
  simp [h.quiet, h.mode, Nat.not_lt.2 hlow, h.near, h.passes, h.taken, h.far, h.addr, chainCounted]

/-- Another leaves at once, where nothing that waits goes before it. -/
theorem chainForward_free (h : Forwards s port.val q frame) (res : Nat) (hfwd : fwdOf s q = [])
    (hwait : mustWait s q (eventFrame frame) = false) : exec (.chainForward port frame res false) s =
    .next (fwdSend q (chainCounted s port.val frame) { bytes := frame, residence := res }) := by
  have hc := chainCounted_emits s port.val frame
  have hturn : fwdTurn (chainCounted s port.val frame) q = chainCounted s port.val frame := fwdTurn_empty (by rw [hc.fwdOf, hfwd])
  have hmust : mustWait (chainCounted s port.val frame) q (eventFrame frame) = false := by rw [hc.mustWait, hwait]
  unfold chainCounted at hturn hmust ⊢
  obtain ⟨hlow, hhigh, rfl⟩ := h.ports
  change execChainForward port frame res false s = _
  unfold execChainForward
  simp [h.quiet, h.mode, Nat.not_lt.2 hlow, h.near, h.passes, h.taken, h.far, h.addr, hturn, hmust]
end

/-- A forwarded frame has left port `q`, before its events are counted. -/
def chainSent (q : Nat) (s : State) (k : FwdFrame) : State := (portCount (portCount s (5 - q) 5) q 1).emit (.netFrame q (fwdBytes k))

theorem chainSent_emits (q : Nat) (s : State) (k : FwdFrame) : Emits trafficIx [.netFrame q (fwdBytes k)] s (chainSent q s k) :=
  ((portCount_traffic s (5 - q) 5).trans (portCount_traffic _ q 1)).emit _

theorem fwdSend_events (q : Nat) (s : State) (k : FwdFrame) : Emits netEventIx [] (chainSent q s k) (fwdSend q s k) := by
  have hevents := ((netEvent_emits 0x0B q 1 (chainSent q s k)).trans (netEvent_emits 0x0A (5 - q) 1 _)).trans (netEvent_emits 0x0A q 1 _)
  exact (hevents.ite (Emits.refl _ _)).quiet (netEvent_emits ..)

theorem fwdSend_emits (q : Nat) (s : State) (k : FwdFrame) : Emits trafficIx [.netFrame q (fwdBytes k)] s (fwdSend q s k) :=
  (chainSent_emits q s k).quiet ((fwdSend_events q s k).widen fun _ => netEventIx_of_trafficIx)

/-- The port a forwarded frame came in on counts one more. -/
theorem nat_fwdSend {q : Nat} (hq : q < 4) (s : State) (k : FwdFrame) :
    (fwdSend q s k).nat Ix.netPortCounts (8 * (5 - q) + 5) = min (s.nat Ix.netPortCounts (8 * (5 - q) + 5) + 1) 0xFFFFFFFF := calc
  (fwdSend q s k).nat Ix.netPortCounts (8 * (5 - q) + 5) = (chainSent q s k).nat Ix.netPortCounts (8 * (5 - q) + 5) :=
    (fwdSend_events q s k).nat rfl _
  _ = (portCount (portCount s (5 - q) 5) q 1).nat Ix.netPortCounts (8 * (5 - q) + 5) := nat_of_dict (emit_dict ..) _ _
  _ = (portCount s (5 - q) 5).nat Ix.netPortCounts (8 * (5 - q) + 5) := nat_portCount_ne _ (by omega) (by omega) (by omega)
  _ = min (s.nat Ix.netPortCounts (8 * (5 - q) + 5) + 1) 0xFFFFFFFF := nat_portCount_self ..

/-- The bytes that wait in the chain's queue of a port. -/
def fwdQueued (s : State) (q : Nat) : Nat := (fwdOf s q).foldl (fun n x => n + x.bytes.length) 0

theorem fwdWait_room {s : State} {q : Nat} {k : FwdFrame} (h : fwdQueued s q + k.bytes.length ≤ 262144) :
    fwdWait s q k = setFwd s q (fwdOf s q ++ [k]) := if_neg (Nat.not_lt.2 h)

theorem fwdWait_full {s : State} {q : Nat} {k : FwdFrame} (h : 262144 < fwdQueued s q + k.bytes.length) :
    fwdWait s q k = (portCount s (5 - q) 6).alarm (Al.netFwdDrop.src (5 - q)) := if_pos h

end Sys2Proof.Machine

open Sys2Proof Sys2Proof.Machine

/-- Settles O33, command by command: what a descriptor's service leaves (`Serves`), and what a forwarded frame leaves (`Emits`). -/
theorem ringFramesReachTheirBuffer : Obligations.RingFramesReachTheirBuffer := by
  unfold Obligations.RingFramesReachTheirBuffer
  intro s hq ring next
  refine ⟨fun port frame time place cls => ?_, fun n place index osc => ?_, fun n time => ?_, fun port frame res => ?_⟩
  · intro p i r d buf hlink hlen htag hstream hcls hok hown hsize hbank hapart
    have hc : Emits trafficIx [] s (portCount s p 0) := portCount_traffic s p 0
    have ht := ringTake_delivers (s := portCount s p 0) (p := p) (cls := cls) (frame := frame) time (hc.ringAt i place) rfl
      (hc.descBuffer d) hok (by rw [hc.bankWord]; exact hown) (by omega) (by rw [hc.bankWord]; exact hsize) hbank hapart
    exact ⟨_, ringFrameReceived_ring time _ hq hlink hlen htag hstream hcls, ht.bytes, ht.own, ht.length, ht.ring,
      fun j hj => (ht.rings j hj).trans (by rw [hc.net]), fun k hkd hkb => (ht.mem k hkd hkb).trans (hc.memByte k),
      (ht.counts _).trans (nat_portCount_self s p 0), ht.engines.trans hc.engines⟩
  · intro i d hn hok hindex
    have hdesc : Serves d 4 s (setMemWord s d (ownWord (bankWord s d))) :=
      (Serves.refl d 4 s).setMemWord (Nat.le_refl d) (Nat.le_refl _) _
    have hword := (bankWord_setRing (setMemWord s d (ownWord (bankWord s d))) i { ringAt s i place with osc := osc } d).trans
      (bankWord_setMemWord_self s d _)
    refine ⟨_, txDescriptorHandover_eq osc hq hn hok hindex, ?_, ?_, (ring_setRing ..).trans (if_pos rfl),
      fun j hj => (ring_setRing ..).trans ((if_neg hj).trans ?_), fun k hk => hdesc.mem k hk, hdesc.out⟩
    · rw [hword]
      exact ownWord_own _
    · rw [hword]
      exact ownWord_rest _
    · rw [hdesc.rings]
  · intro i r d w len p frame hsize hown hmin hmax hlink haddr hbank hwait hfwd hts hosc
    have howned : ringOwned s r = true := by
      unfold ringOwned
      rw [decide_eq_true hsize]
      exact hown
    have hsends : txSends s d = true := by
      simp only [txSends, Bool.and_eq_true, decide_eq_true_eq, bne_iff_ne]
      exact ⟨⟨⟨⟨hmin, hmax⟩, hbank⟩, hlink⟩, haddr⟩
    obtain ⟨t, ht, hsent⟩ := ringFrameSent_sends (d := d) (p := p) (frame := frame) time rfl rfl rfl rfl hq howned hsends hwait hfwd hts hosc
    exact ⟨t, ht, hsent.out, hsent.own, hsent.untimed, hsent.status, hsent.ring, hsent.rings, hsent.mem⟩
  · intro p q out queued hmode hlow hnear hfar hpass htaken haddr
    have hf : Forwards s p q frame := ⟨hq, ⟨hlow, port.isLt, rfl⟩, hmode, hnear, hfar, hpass, htaken, haddr⟩
    have hback : 5 - q = p := hf.back
    have hc := chainCounted_emits s p frame
    have hqueued : fwdQueued (chainCounted s p frame) q = queued := by
      unfold fwdQueued
      rw [hc.fwdOf]
    refine ⟨fun hfwd hwait => ?_, fun hroom => ?_, fun hfull => ?_⟩
    · have hsent := hc.trans (fwdSend_emits q (chainCounted s p frame) { bytes := frame, residence := res })
      refine ⟨_, chainForward_free hf res hfwd hwait, hsent.out, ?_, hsent.net, hsent.engines⟩
      rw [← hback, nat_fwdSend (by omega), hback, nat_chainCounted s (by omega) (by omega) (by omega)]
    · refine ⟨_, (chainForward_busy hf res).trans (congrArg Host.Outcome.next (fwdWait_room (by rw [hqueued]; exact hroom))),
        hc.out.trans (List.append_nil _), ?_, hc.engines⟩
      rw [hc.fwdOf]
      exact mapGet_mapSet_self ..
    · have hlog := alarm_logOnly (portCount (chainCounted s p frame) (5 - q) 6) (Al.netFwdDrop.src (5 - q)) 0
      have hdrop := hc.trans (portCount_traffic (chainCounted s p frame) (5 - q) 6)
      refine ⟨_, (chainForward_busy hf res).trans (congrArg Host.Outcome.next (fwdWait_full (by rw [hqueued]; exact hfull))),
        (hlog.out.trans hdrop.out).trans (List.append_nil _), hlog.net.trans hdrop.net, ?_⟩
      rw [hlog.nat rfl, ← hback, nat_portCount_self, hback, nat_chainCounted s (by omega) (by omega) (by omega)]
end

section
/-! What the time base, PTP and the references change when they work: the registers an operation may write, and the candidates
(R281, R288 to R293). -/

namespace Sys2Proof.Machine

/-! ### The frame -/

/-- From `s` to `t` the engines, the Lattice, the clock and the commits are as they were and nothing has left the block; of the
registers only those of the event log and of the objects `l` have changed. -/
structure TimeWork (l : List Nat) (s t : State) : Prop where
  engines : t.engines = s.engines
  lat : t.lat = s.lat
  out : t.out = s.out
  clk : t.clk = s.clk
  shut : t.shut = s.shut
  obj : ∀ {ix} sub, isLogIx ix = false → ix ∉ l → t.obj ix sub = s.obj ix sub

section
variable {l m : List Nat} {s t u : State}

theorem TimeWork.refl (l : List Nat) (s : State) : TimeWork l s s := ⟨rfl, rfl, rfl, rfl, rfl, fun _ _ _ => rfl⟩

theorem TimeWork.trans (h : TimeWork l s t) (k : TimeWork l t u) : TimeWork l s u :=
  ⟨k.engines.trans h.engines, k.lat.trans h.lat, k.out.trans h.out, k.clk.trans h.clk, k.shut.trans h.shut,
    fun sub hlog hl => (k.obj sub hlog hl).trans (h.obj sub hlog hl)⟩

/-- More registers may have changed. -/
theorem TimeWork.widen (h : TimeWork l s t) (hlm : l ⊆ m) : TimeWork m s t :=
  ⟨h.engines, h.lat, h.out, h.clk, h.shut, fun sub hlog hm => h.obj sub hlog fun hl => hm (hlm hl)⟩

theorem TimeWork.ite {c : Prop} [Decidable c] (ht : TimeWork l s t) (hu : TimeWork l s u) : TimeWork l s (if c then t else u) := by
  split
  · exact ht
  · exact hu

theorem TimeWork.setObj (h : TimeWork l s t) {ix : Nat} (hx : ix ∈ l) (sub : Nat) (v : Val) : TimeWork l s (t.setObj ix sub v) :=
  h.trans ⟨setObj_engines .., setObj_lat .., setObj_out .., setObj_clk .., setObj_shut .., fun sub' _ hl =>
    obj_setObj_ne t (objKey_ne_index fun e => hl (by rw [e]; exact hx)) v⟩

theorem LogOnly.timeWork (h : LogOnly s t) (l : List Nat) : TimeWork l s t :=
  ⟨h.engines, h.lat, h.out, h.clk, h.shut, fun sub hlog _ => h.obj _ sub hlog⟩

theorem TimeWork.alarm (h : TimeWork l s t) (a : AlarmId) (detail : Nat) : TimeWork l s (t.alarm a detail) :=
  h.trans ((alarm_logOnly t a detail).timeWork l)

theorem TimeWork.alarmIf (h : TimeWork l s t) (c : Bool) (a : AlarmId) (detail : Nat) : TimeWork l s (t.alarmIf c a detail) :=
  h.trans ((alarmIf_logOnly t c a detail).timeWork l)

theorem TimeWork.int (h : TimeWork l s t) {ix : Nat} (hlog : isLogIx ix = false) (hl : ix ∉ l) (sub : Nat) :
    t.int ix sub = s.int ix sub := by
  unfold State.int
  rw [h.obj sub hlog hl]

theorem TimeWork.nat (h : TimeWork l s t) {ix : Nat} (hlog : isLogIx ix = false) (hl : ix ∉ l) (sub : Nat) :
    t.nat ix sub = s.nat ix sub := by
  unfold State.nat
  rw [h.int hlog hl]

/-- Parts of the block other than those named may have changed too. -/
theorem timeWork_of_dict (l : List Nat) (hdict : t.dict = s.dict) (heng : t.engines = s.engines) (hlat : t.lat = s.lat)
    (hout : t.out = s.out) (hclk : t.clk = s.clk) (hshut : t.shut = s.shut) : TimeWork l s t :=
  ⟨heng, hlat, hout, hclk, hshut, fun sub _ _ => obj_of_dict hdict _ sub⟩

end

/-! ### Candidates -/

@[simp] theorem candOf_setCand_self (s : State) (k : Nat) (c : Cand) : candOf (setCand s k c) k = c := mapGet_mapSet_self ..

theorem candOf_setCand_ne (s : State) {k j : Nat} (h : j ≠ k) (c : Cand) : candOf (setCand s k c) j = candOf s j :=
  mapGet_mapSet_ne _ h _ _

theorem candOf_of_ref {s t : State} (h : t.ref = s.ref) (k : Nat) : candOf t k = candOf s k := by
  unfold candOf
  rw [h]

/-- From `s` to `t` only candidate `k`, the event log and the registers of the objects `l` have changed. -/
structure CandWork (l : List Nat) (k : Nat) (s t : State) : Prop extends TimeWork l s t where
  tim : t.tim = s.tim
  cands : ∀ j, j ≠ k → candOf t j = candOf s j

section
variable {l m : List Nat} {k : Nat} {s t u : State}

theorem CandWork.refl (l : List Nat) (k : Nat) (s : State) : CandWork l k s s := ⟨TimeWork.refl l s, rfl, fun _ _ => rfl⟩

theorem CandWork.trans (h : CandWork l k s t) (g : CandWork l k t u) : CandWork l k s u :=
  ⟨h.toTimeWork.trans g.toTimeWork, g.tim.trans h.tim, fun j hj => (g.cands j hj).trans (h.cands j hj)⟩

theorem CandWork.widen (h : CandWork l k s t) (hlm : l ⊆ m) : CandWork m k s t := ⟨h.toTimeWork.widen hlm, h.tim, h.cands⟩

theorem CandWork.ite {c : Prop} [Decidable c] (ht : CandWork l k s t) (hu : CandWork l k s u) :
    CandWork l k s (if c then t else u) := by
  split
  · exact ht
  · exact hu

theorem CandWork.setCand (h : CandWork l k s t) (c : Cand) : CandWork l k s (setCand t k c) :=
  h.trans ⟨timeWork_of_dict l rfl rfl rfl rfl rfl rfl, rfl, fun _ hj => candOf_setCand_ne t hj c⟩

theorem CandWork.setObj (h : CandWork l k s t) {ix : Nat} (hx : ix ∈ l) (sub : Nat) (v : Val) : CandWork l k s (t.setObj ix sub v) :=
  ⟨h.toTimeWork.setObj hx sub v, (setObj_tim ..).trans h.tim, fun j hj => (candOf_of_ref (setObj_ref ..) j).trans (h.cands j hj)⟩

theorem CandWork.alarm (h : CandWork l k s t) (a : AlarmId) (detail : Nat) : CandWork l k s (t.alarm a detail) :=
  have hlog := alarm_logOnly t a detail
  ⟨h.toTimeWork.alarm a detail, hlog.tim.trans h.tim, fun j hj => (candOf_of_ref hlog.ref j).trans (h.cands j hj)⟩

end

/-! ### Presence (R281, R290) -/

theorem refLost_work (s : State) (k : Nat) : CandWork [Ix.refState, Ix.refQl] k s (refLost s k) := by
  have hcand (c : Cand) := (CandWork.refl [Ix.refState, Ix.refQl] k s).setCand c
  unfold refLost refFails setRefReason
  exact (hcand _).ite ((((hcand _).setObj (by decide) _ _).setObj (by decide) _ _).alarm _ _)

theorem candOf_refLost (s : State) (k : Nat) : candOf (refLost s k) k =
    { Cand.reset with quality := (candOf s k).quality, coarse := (candOf s k).coarse } := by
  unfold refLost refFails setRefReason
  dsimp only
  split
  · rw [candOf_setCand_self]
    rfl
  · rw [candOf_of_ref (alarm_logOnly ..).ref, candOf_of_ref (setNat_ref ..), candOf_of_ref (setNat_ref ..), candOf_setCand_self]
    rfl

/-- A candidate lost is ABSENT. -/
theorem refState_refLost (s : State) (k : Nat) : refState (refLost s k) k = 0 := by
  unfold refLost refFails setRefReason
  dsimp only
  split
  case isTrue h => exact h
  case isFalse =>
    unfold refState
    rw [(alarm_logOnly ..).nat rfl, nat_setNat_ne _ (objKey_ne_index (by decide)), nat_setNat_self]

theorem startQualify_work (s : State) (k : Nat) : CandWork [Ix.refState] k s (startQualify s k) :=
  ((CandWork.refl _ k s).setCand _).setObj (by decide) _ _

theorem refPresent_work (s : State) (k : Nat) : CandWork [Ix.refState] k s (refPresent s k) := by
  have hcand (c : Cand) := (CandWork.refl [Ix.refState] k s).setCand c
  unfold refPresent
  exact (CandWork.refl _ k s).ite ((hcand _).ite (((hcand _).trans (startQualify_work _ k)).ite (hcand _)))

/-- A candidate whose coarse monitor has not failed is present once there is activity on it; what its filter holds stays. -/
theorem refPresent_present {s : State} {k : Nat} (h : (candOf s k).present = true ∨ (candOf s k).coarse = false) :
    (candOf (refPresent s k) k).present = true ∧ (candOf (refPresent s k) k).phases = (candOf s k).phases := by
  have hqualify (t : State) : candOf (startQualify t k) k = { candOf t k with since := t.clk.sysCounter } :=
    (candOf_of_ref (setNat_ref ..) k).trans (candOf_setCand_self ..)
  unfold refPresent
  dsimp only
  by_cases hp : (candOf s k).present = true
  · rw [if_pos hp]
    exact ⟨hp, rfl⟩
  · have hcoarse : ¬ (candOf s k).coarse = true := by
      rw [h.resolve_left hp]
      exact Bool.false_ne_true
    rw [if_neg hp, if_neg hcoarse]
    split
    · rw [hqualify, candOf_setCand_self]
      exact ⟨rfl, rfl⟩
    · rw [candOf_setCand_self]
      exact ⟨rfl, rfl⟩

/-! ### Measured phases (R281, R282, R293) -/

/-- The registers a phase is judged with: the tick grid, and the rates of the word clock and of the AES3 reference. -/
def gridIx : List Nat := [Ix.houseRate, Ix.ticklen, Ix.aesiRate, Ix.refWclkMode]

section
variable {l : List Nat} {s t : State}

theorem TimeWork.gridNat (h : TimeWork l s t) (hl : ∀ ix ∈ gridIx, ix ∉ l) {ix : Nat} (hx : ix ∈ gridIx) (sub : Nat) :
    t.nat ix sub = s.nat ix sub :=
  h.nat ((show ∀ ix ∈ gridIx, isLogIx ix = false by decide) ix hx) (hl ix hx) sub

theorem TimeWork.fs (h : TimeWork l s t) (hl : ∀ ix ∈ gridIx, ix ∉ l) : t.fs = s.fs := by
  unfold State.fs
  rw [h.gridNat hl (by decide)]

theorem TimeWork.reducePhase (h : TimeWork l s t) (hl : ∀ ix ∈ gridIx, ix ∉ l) (k : Nat) (x : Int) :
    reducePhase t k x = reducePhase s k x := by
  have hhz : refHz t k = refHz s k := by
    unfold refHz
    rw [h.fs hl, h.gridNat hl (ix := Ix.houseRate) (by decide), h.gridNat hl (ix := Ix.aesiRate) (by decide),
      h.gridNat hl (ix := Ix.refWclkMode) (by decide)]
  unfold Machine.reducePhase reduceBy
  rw [hhz]

theorem TimeWork.filterKeeps (h : TimeWork l s t) (hl : ∀ ix ∈ gridIx, ix ∉ l) (k : Nat) (ps : List (Nat × Int)) :
    filterKeeps t k ps = filterKeeps s k ps := by
  unfold Machine.filterKeeps State.ticklen
  rw [h.fs hl, h.clk, h.gridNat hl (ix := Ix.ticklen) (by decide)]

end

/-- A candidate with time of day is measured in full: no period is taken off (R293). -/
theorem reducePhase_of_carries (s : State) {k : Nat} (h : carriesTime k = true) (x : Int) : reducePhase s k x = x := if_pos h

/-- The phase that enters the filter of a candidate: where it carries no time of day, the one nearest to the phase before (R282). -/
def nearPhase (s : State) (k : Nat) (x : Int) : Int :=
  match (candOf s k).phases with
  | (_, p) :: _ => if carriesTime k then x else p + reducePhase s k (x - p)
  | [] => x

/-- What the filter of a candidate holds once a phase has entered (R281). -/
def phasesWith (s : State) (k : Nat) (x : Int) : List (Nat × Int) :=
  filterKeeps s k ((s.clk.sysCounter, nearPhase s k x) :: (candOf s k).phases)

/-- Its filtered offset (R293). -/
def offsetWith (s : State) (k : Nat) (x : Int) : Int := reducePhase s k (meanOf ((phasesWith s k x).map (fun p => p.2)))

theorem nearPhase_of_carries (s : State) {k : Nat} (h : carriesTime k = true) (x : Int) : nearPhase s k x = x := by
  unfold nearPhase
  split
  · exact if_pos h
  · rfl

/-- A phase `x` of candidate `k` has been taken, which is present: the filter holds it, and its filtered offset is reported. -/
structure PhaseTaken (s : State) (k : Nat) (x : Int) (t : State) : Prop extends CandWork [Ix.refState, Ix.refPhase] k s t where
  present : (candOf t k).present = true
  phases : (candOf t k).phases = phasesWith s k x
  fresh : (candOf t k).fresh = if carriesTime k then some (nearPhase s k x) else none
  report : t.int Ix.refPhase k = hold32 (offsetWith s k x)

/-- What `refPhase` does with a candidate that is present (R281, R288, R293). -/
theorem refPhase_eq {s : State} {k : Nat} (h : (candOf (refPresent s k) k).present = true) (x : Int) :
    ∃ c : Cand, refPhase s k x =
        (setCand (refPresent s k) k c).setInt Ix.refPhase k (hold32 (offsetWith (refPresent s k) k x)) ∧
      c.present = true ∧ c.phases = phasesWith (refPresent s k) k x ∧
      c.fresh = (if carriesTime k then some (nearPhase (refPresent s k) k x) else none) := by
  unfold refPhase
  dsimp only
  rw [if_neg (by rw [h]; exact Bool.false_ne_true)]
  exact ⟨_, rfl, h, rfl, rfl⟩

theorem refPhase_taken {s : State} {k : Nat} (h : (candOf s k).present = true ∨ (candOf s k).coarse = false) (x : Int) :
    PhaseTaken s k x (refPhase s k x) := by
  have hwork := refPresent_work s k
  have hgrid : ∀ ix ∈ gridIx, ix ∉ [Ix.refState] := by decide
  obtain ⟨hpresent, hphases⟩ := refPresent_present h
  have hnear : nearPhase (refPresent s k) k x = nearPhase s k x := by
    unfold nearPhase
    simp only [hphases, hwork.reducePhase hgrid]
  have hwith : phasesWith (refPresent s k) k x = phasesWith s k x := by
    unfold phasesWith
    rw [hnear, hphases, hwork.clk, hwork.filterKeeps hgrid]
  have hoff : offsetWith (refPresent s k) k x = offsetWith s k x := by
    unfold offsetWith
    rw [hwith, hwork.reducePhase hgrid]
  obtain ⟨c, heq, hcp, hcphases, hcfresh⟩ := refPhase_eq hpresent x
  have hcand : candOf (refPhase s k x) k = c := by
    rw [heq, candOf_of_ref (setInt_ref ..), candOf_setCand_self]
  refine { toCandWork := ?_, present := ?_, phases := ?_, fresh := ?_, report := ?_ }
  · rw [heq]
    exact ((hwork.widen (by decide)).setCand c).setObj (by decide) _ _
  · rw [hcand, hcp]
  · rw [hcand, hcphases, hwith]
  · rw [hcand, hcfresh, hnear]
  · rw [heq, int_setInt_self, hoff]

end Sys2Proof.Machine
end

section
/-! The time base (R262 to R266, R293, R294): what a measurement steers, what passing time leaves of the slew term, and the first step. -/

namespace Sys2Proof.Machine

/-! ### The rate word (R262, R266) -/

theorem setRho_work (s : State) : TimeWork [Ix.timeRate] s (setRho s) := by
  have hput : TimeWork [Ix.timeRate] s { s with tim := { s.tim with
      rho := clampRho (s.tim.est + s.tim.slew), atLimit := decide (rhoMax ≤ ((clampRho (s.tim.est + s.tim.slew)).natAbs : Int)) } } :=
    timeWork_of_dict _ rfl rfl rfl rfl rfl rfl
  exact (hput.setObj (by decide) _ _).alarmIf _ _ _

/-- The rate word is its two parts together, within its clamp (R262). -/
theorem setRho_tim (s : State) : (setRho s).tim = { s.tim with
    rho := clampRho (s.tim.est + s.tim.slew), atLimit := decide (rhoMax ≤ ((clampRho (s.tim.est + s.tim.slew)).natAbs : Int)) } :=
  (alarmIf_logOnly ..).tim.trans (setInt_tim ..)

@[simp] theorem setRho_ref (s : State) : (setRho s).ref = s.ref := (alarmIf_logOnly ..).ref.trans (setInt_ref ..)

theorem timeRate_setRho (s : State) :
    (setRho s).int Ix.timeRate 0 = clampRho (s.tim.est + s.tim.slew) * 1000000000000 / 2 ^ 48 := by
  unfold setRho State.int
  dsimp only
  rw [(alarmIf_logOnly ..).obj _ _ rfl]
  exact int_setInt_self ..

/-- What a measurement gives the slew term to move changes nothing else. -/
theorem aimSlew_eq (s : State) (k : Nat) (x : Int) : ∃ v, aimSlew s k x = { s with ref := { s.ref with stepLeft := v } } := by
  unfold aimSlew
  dsimp only
  split
  · exact ⟨s.ref.stepLeft, rfl⟩
  · exact ⟨_, rfl⟩

/-- Where no bound of re-acquisition applies, the frequency part takes the estimate at once (R266, R312). -/
theorem timeSteer_eq {s : State} (h : s.ref.reacq = false) (k : Nat) (x est : Int) : ∃ v, timeSteer s k x est =
    setRho { s with ref := { s.ref with stepLeft := v }, tim := { s.tim with est := est } } := by
  obtain ⟨v, hv⟩ := aimSlew_eq s k x
  refine ⟨v, ?_⟩
  unfold timeSteer
  rw [hv]
  exact if_neg (by rw [h]; exact Bool.false_ne_true)

/-! ### TIME_STATE under a measurement (R264, R265, R294) -/

/-- From `s` to `t` only TIME_STATE, the counts of measurements, what is due of the first step and the event log have changed. -/
structure FollowWork (s t : State) : Prop extends TimeWork [Ix.timeState] s t where
  ref : t.ref = s.ref
  tim : t.tim = { s.tim with
    offs := t.tim.offs, firstDue := t.tim.firstDue, within := t.tim.within, beyond := t.tim.beyond }

section
variable {s t u : State}

theorem FollowWork.refl (s : State) : FollowWork s s := ⟨TimeWork.refl _ s, rfl, rfl⟩

theorem FollowWork.ite {c : Prop} [Decidable c] (ht : FollowWork s t) (hu : FollowWork s u) : FollowWork s (if c then t else u) := by
  split
  · exact ht
  · exact hu

theorem FollowWork.counts (s : State) (offs : List Int) (due : Option Int) (within beyond : Nat) :
    FollowWork s { s with tim := { s.tim with offs := offs, firstDue := due, within := within, beyond := beyond } } :=
  ⟨timeWork_of_dict _ rfl rfl rfl rfl rfl rfl, rfl, rfl⟩

theorem FollowWork.setState (h : FollowWork s t) (n : Nat) : FollowWork s (t.setNat Ix.timeState 0 n) :=
  ⟨h.toTimeWork.setObj (by decide) _ _, (setNat_ref ..).trans h.ref, by rw [setNat_tim]; exact h.tim⟩

theorem FollowWork.alarm (h : FollowWork s t) (a : AlarmId) (detail : Nat) : FollowWork s (t.alarm a detail) :=
  ⟨h.toTimeWork.alarm a detail, (alarm_logOnly ..).ref.trans h.ref, by rw [(alarm_logOnly ..).tim]; exact h.tim⟩

end

theorem timeFollow_work (s : State) (x net : Int) : FollowWork s (timeFollow s x net) := by
  unfold timeFollow
  dsimp only
  split
  · exact (FollowWork.refl s).ite (FollowWork.counts s _ _ _ _)
  · exact ((FollowWork.counts s _ _ 0 0).setState 2).ite (FollowWork.counts s _ _ _ _)
  · exact (((FollowWork.counts s _ _ 0 0).setState 1).alarm _ _).ite (FollowWork.counts s _ _ _ _)
  · exact FollowWork.refl s

section
variable {s : State} {net : Int}

theorem timeFollow_counts (x : Int) (hin : net.natAbs ≤ s.nat Ix.timeLockLimit) (hst : s.nat Ix.timeState = 1)
    (hn : s.tim.within < 15) : timeFollow s x net = { s with tim := { s.tim with within := s.tim.within + 1 } } := by
  have hin' : ((net.natAbs : Int) ≤ (s.nat Ix.timeLockLimit : Int)) := by exact_mod_cast hin
  unfold timeFollow
  rw [hst]
  simp only [hin', decide_true, if_true]
  exact if_neg (by omega)

theorem timeFollow_locks (x : Int) (hin : net.natAbs ≤ s.nat Ix.timeLockLimit) (hst : s.nat Ix.timeState = 1)
    (hn : s.tim.within = 15) : (timeFollow s x net).nat Ix.timeState = 2 := by
  have hin' : ((net.natAbs : Int) ≤ (s.nat Ix.timeLockLimit : Int)) := by exact_mod_cast hin
  unfold timeFollow
  rw [hst]
  simp only [hin', decide_true, if_true]
  rw [if_pos (by omega)]
  exact nat_setNat_self ..

theorem timeFollow_loses (x : Int) (hout : s.nat Ix.timeLockLimit < net.natAbs) (hst : s.nat Ix.timeState = 2)
    (hn : s.tim.beyond = 15) : (timeFollow s x net).nat Ix.timeState = 1 := by
  have hout' : ¬ ((net.natAbs : Int) ≤ (s.nat Ix.timeLockLimit : Int)) := by
    intro h
    have : net.natAbs ≤ s.nat Ix.timeLockLimit := by exact_mod_cast h
    omega
  unfold timeFollow
  rw [hst]
  simp only [hout', decide_false, Bool.false_eq_true, if_false]
  rw [if_pos (by omega), (alarm_logOnly ..).nat rfl]
  exact nat_setNat_self ..

end

/-! ### A measurement of the active reference (R263, R264) -/

/-- The offset of the active reference, less the build-out and the phase steps (R294, R297). -/
def netOffset (s : State) (x : Int) : Int := x - (s.ref.build + s.ref.step) / 2 ^ 48

/-- The block once a measurement `x` with the estimate `est` has steered the rate word, before TIME_STATE follows. -/
def steeredBy (s : State) (k : Nat) (x est : Int) : State :=
  let s1 := timeSteer (s.setInt Ix.timeOffset 0 (max (-2147483647) (min 2147483647 (netOffset s x)))) k x est
  { s1 with tim := { s1.tim with lastRef := k, lastOff := x } }

/-- A measurement `x` of a reference that carries time of day has set the frequency part of the rate word to `est`. -/
structure Steered (s : State) (x est : Int) (t : State) : Prop extends TimeWork [Ix.timeOffset, Ix.timeRate] s t where
  cands : ∀ j, candOf t j = candOf s j
  tim : t.tim = { s.tim with
    est := est, rho := clampRho (est + s.tim.slew), atLimit := t.tim.atLimit, lastRef := t.tim.lastRef, lastOff := x }
  offset : t.int Ix.timeOffset 0 = max (-2147483647) (min 2147483647 (netOffset s x))
  rate : t.int Ix.timeRate 0 = clampRho (est + s.tim.slew) * 1000000000000 / 2 ^ 48

theorem steeredBy_steered {s : State} (h : s.ref.reacq = false) (k : Nat) (x est : Int) : Steered s x est (steeredBy s k x est) := by
  let s0 := s.setInt Ix.timeOffset 0 (max (-2147483647) (min 2147483647 (netOffset s x)))
  obtain ⟨v, hv⟩ := timeSteer_eq (s := s0) (by rw [setInt_ref]; exact h) k x est
  let w : State := { s0 with ref := { s0.ref with stepLeft := v }, tim := { s0.tim with est := est } }
  have hw : steeredBy s k x est = { setRho w with tim := { (setRho w).tim with lastRef := k, lastOff := x } } := by
    unfold steeredBy
    dsimp only
    rw [show s.setInt Ix.timeOffset 0 _ = s0 from rfl, hv]
  have hs0 : TimeWork [Ix.timeOffset, Ix.timeRate] s s0 := (TimeWork.refl _ s).setObj (by decide) _ _
  have hw0 : TimeWork [Ix.timeOffset, Ix.timeRate] s w := hs0.trans (timeWork_of_dict _ rfl rfl rfl rfl rfl rfl)
  have hwtim : w.tim = { s.tim with est := est } := by
    change ({ s0.tim with est := est } : TimeSt) = _
    rw [setInt_tim]
  rw [hw]
  refine { toTimeWork := ?_, cands := fun j => ?_, tim := ?_, offset := ?_, rate := ?_ }
  · exact (hw0.trans ((setRho_work w).widen (by decide))).trans (timeWork_of_dict _ rfl rfl rfl rfl rfl rfl)
  · refine (candOf_of_ref (setRho_ref w) j).trans ?_
    unfold candOf
    change mapGet _ j s0.ref.cands = _
    rw [setInt_ref]
  · rw [setRho_tim, hwtim]
  · exact ((setRho_work w).int rfl (by decide) 0).trans (int_setInt_self ..)
  · refine (timeRate_setRho w).trans ?_
    rw [hwtim]

theorem timeDrive_eq (s : State) {k : Nat} (h : carriesTime k = true) (x est : Int) : timeDrive s k x est =
    (timeFollow (steeredBy s k x est) x (netOffset s x)).alarmIf
      (s.tim.stepped && decide (s.nat Ix.timeStepAlarm < (netOffset s x).natAbs)) Al.timeOffsetLarge := by
  have hnet : reducePhase s k (x - (s.ref.build + s.ref.step) / 2 ^ 48) = netOffset s x := reducePhase_of_carries s h _
  unfold timeDrive steeredBy
  simp only [hnet, h, if_true]

/-- The time base has been driven by a measurement `x` of a reference that carries time of day, with the estimate `est`. -/
structure TimeDriven (s : State) (x est : Int) (t : State) : Prop
    extends TimeWork [Ix.timeOffset, Ix.timeRate, Ix.timeState] s t where
  cands : ∀ j, candOf t j = candOf s j
  time : t.tim.t = s.tim.t
  lastOff : t.tim.lastOff = x
  freq : t.tim.est = est
  slew : t.tim.slew = s.tim.slew
  rho : t.tim.rho = clampRho (est + s.tim.slew)
  offset : t.int Ix.timeOffset 0 = max (-2147483647) (min 2147483647 (netOffset s x))
  rate : t.int Ix.timeRate 0 = t.tim.rho * 1000000000000 / 2 ^ 48

section
variable {s : State} {k : Nat}

theorem timeDrive_driven (hk : carriesTime k = true) (hreacq : s.ref.reacq = false) (x est : Int) :
    TimeDriven s x est (timeDrive s k x est) := by
  have hst := steeredBy_steered hreacq k x est
  have hfol := timeFollow_work (steeredBy s k x est) x (netOffset s x)
  have hlog := alarmIf_logOnly (timeFollow (steeredBy s k x est) x (netOffset s x))
    (s.tim.stepped && decide (s.nat Ix.timeStepAlarm < (netOffset s x).natAbs)) Al.timeOffsetLarge 0
  have hwork := ((hst.widen (by decide)).trans (hfol.widen (by decide))).trans
    (hlog.timeWork [Ix.timeOffset, Ix.timeRate, Ix.timeState])
  have hrho : (timeFollow (steeredBy s k x est) x (netOffset s x)).tim.rho = clampRho (est + s.tim.slew) := by
    rw [hfol.tim, hst.tim]
  rw [timeDrive_eq s hk]
  refine { toTimeWork := hwork, cands := fun j => ?_, time := ?_, lastOff := ?_, freq := ?_, slew := ?_, rho := ?_, offset := ?_,
           rate := ?_ }
  · rw [candOf_of_ref hlog.ref, candOf_of_ref hfol.ref, hst.cands]
  · rw [hlog.tim, hfol.tim, hst.tim]
  · rw [hlog.tim, hfol.tim, hst.tim]
  · rw [hlog.tim, hfol.tim, hst.tim]
  · rw [hlog.tim, hfol.tim, hst.tim]
  · rw [hlog.tim, hrho]
  · exact ((hlog.timeWork [Ix.timeState]).int rfl (by decide) 0).trans ((hfol.int rfl (by decide) 0).trans hst.offset)
  · rw [hlog.tim, hrho]
    exact ((hlog.timeWork [Ix.timeState]).int rfl (by decide) 0).trans ((hfol.int rfl (by decide) 0).trans hst.rate)

/-- TIME_STATE and the counts of measurements follow as on the block once it has been steered (R264). -/
theorem timeDrive_follows (hk : carriesTime k = true) (x est : Int) :
    (timeDrive s k x est).nat Ix.timeState = (timeFollow (steeredBy s k x est) x (netOffset s x)).nat Ix.timeState ∧
      (timeDrive s k x est).tim = (timeFollow (steeredBy s k x est) x (netOffset s x)).tim := by
  rw [timeDrive_eq s hk]
  exact ⟨(alarmIf_logOnly ..).nat rfl, (alarmIf_logOnly ..).tim⟩

/-- A measurement within TIME_LOCK_LIMIT is counted in SLEWING (R264). -/
theorem timeDrive_counts (hk : carriesTime k = true) (hreacq : s.ref.reacq = false) {x : Int} (est : Int)
    (hin : (netOffset s x).natAbs ≤ s.nat Ix.timeLockLimit) (hst : s.nat Ix.timeState = 1) (hn : s.tim.within < 15) :
    (timeDrive s k x est).nat Ix.timeState = 1 ∧ (timeDrive s k x est).tim.within = s.tim.within + 1 := by
  have h := steeredBy_steered hreacq k x est
  have hwithin : (steeredBy s k x est).tim.within = s.tim.within := by rw [h.tim]
  obtain ⟨hstate, htim⟩ := timeDrive_follows (s := s) hk x est
  rw [hstate, htim, timeFollow_counts x (by rw [h.nat rfl (by decide)]; exact hin) (by rw [h.nat rfl (by decide)]; exact hst)
    (by rw [hwithin]; exact hn)]
  exact ⟨(h.nat rfl (by decide) 0).trans hst, congrArg (· + 1) hwithin⟩

/-- The sixteenth in a row locks the time base. -/
theorem timeDrive_locks (hk : carriesTime k = true) (hreacq : s.ref.reacq = false) {x : Int} (est : Int)
    (hin : (netOffset s x).natAbs ≤ s.nat Ix.timeLockLimit) (hst : s.nat Ix.timeState = 1) (hn : s.tim.within = 15) :
    (timeDrive s k x est).nat Ix.timeState = 2 := by
  have h := steeredBy_steered hreacq k x est
  rw [(timeDrive_follows hk x est).1]
  exact timeFollow_locks x (by rw [h.nat rfl (by decide)]; exact hin) (by rw [h.nat rfl (by decide)]; exact hst) (by rw [h.tim]; exact hn)

/-- The sixteenth in a row beyond the limit loses the lock. -/
theorem timeDrive_loses (hk : carriesTime k = true) (hreacq : s.ref.reacq = false) {x : Int} (est : Int)
    (hout : s.nat Ix.timeLockLimit < (netOffset s x).natAbs) (hst : s.nat Ix.timeState = 2) (hn : s.tim.beyond = 15) :
    (timeDrive s k x est).nat Ix.timeState = 1 := by
  have h := steeredBy_steered hreacq k x est
  rw [(timeDrive_follows hk x est).1]
  exact timeFollow_loses x (by rw [h.nat rfl (by decide)]; exact hout) (by rw [h.nat rfl (by decide)]; exact hst) (by rw [h.tim]; exact hn)

end

/-- PPS_IN and TENM_IN are not coherent (R281): candidate 4 counts too few or too many cycles of the one in a period of the other. -/
def pulseApart (k : Nat) (cycles : Option Nat) : Bool :=
  match cycles with
  | some n => k == 4 && decide (n < 9999980 ∨ 10000020 < n)
  | none => false

theorem pulseApart_eq_false {k : Nat} {cycles : Option Nat} :
    pulseApart k cycles = false ↔ (k = 4 → ∀ n, cycles = some n → 9999980 ≤ n ∧ n ≤ 10000020) := by
  unfold pulseApart
  cases cycles with
  | none => simp
  | some n =>
    simp only [Bool.and_eq_false_iff, beq_eq_false_iff_ne, decide_eq_false_iff_not, Option.some.injEq, forall_eq']
    omega

theorem timeMeasurement_apart {s : State} {ref : Fin 6} (offset est : Int) {cycles : Option Nat} (hapart : pulseApart ref.val cycles = true)
    (hp : (candOf s 4).present = true) : exec (.timeMeasurement ref offset est cycles) s = .next (refLost s 4) :=
  (if_pos hapart).trans (congrArg Host.Outcome.next (if_pos hp))

/-- A measurement of a candidate that is not active and carries no time of day gives its phase, and no more (R293). -/
theorem timeMeasurement_reports {s : State} {ref : Fin 6} (offset est : Int) {cycles : Option Nat}
    (hapart : pulseApart ref.val cycles = false) (hk : carriesTime ref.val = false) (hact : activeRef s ≠ some ref.val) :
    exec (.timeMeasurement ref offset est cycles) s =
      .next (setCand (refPhase s ref.val offset) ref.val { candOf (refPhase s ref.val offset) ref.val with fresh := none }) := by
  have hon : ¬ pulseApart ref.val cycles = true := by
    rw [hapart]
    exact Bool.false_ne_true
  refine (if_neg hon).trans ?_
  simp only [hk, hact, Bool.false_eq_true, if_false, false_and]
  cases (candOf (refPhase s ref.val offset) ref.val).last with
  | none => rfl
  | some m => rfl

/-- One of the active reference that carries time of day reaches the time base as the offset last measured (R263, R264). -/
theorem timeMeasurement_drives {s : State} {ref : Fin 6} {x : Int} (offset est : Int) (cycles : Option Nat)
    (hk : carriesTime ref.val = true) (hact : activeRef s = some ref.val) (hp : (candOf s ref.val).present = true)
    (hx : (candOf s ref.val).fresh = some x) : exec (.timeMeasurement ref offset est cycles) s =
      .next (timeDrive (setCand s ref.val { candOf s ref.val with fresh := none }) ref.val x est) := by
  have hapart : pulseApart ref.val cycles = false := by
    refine pulseApart_eq_false.mpr fun h => ?_
    rw [h] at hk
    exact absurd hk (by decide)
  have hon : ¬ pulseApart ref.val cycles = true := by
    rw [hapart]
    exact Bool.false_ne_true
  refine (if_neg hon).trans ?_
  simp only [hk, hact, if_true, hx]
  rw [if_pos ⟨trivial, hp⟩]

/-! ### Time passes (R261, R262, R266, R294) -/

/-- A value within its bounds, moved by at most `d` and then held within those bounds again, has moved by at most `d`. -/
theorem clamped_move {v next d top cap : Int} (hv : -top ≤ v ∧ v ≤ top) (hcap : v ≤ cap)
    (hmove : v - d ≤ next ∧ next ≤ v + d) :
    (-top ≤ min cap (max (-top) (min top next)) ∧ min cap (max (-top) (min top next)) ≤ top) ∧
      (v - d ≤ min cap (max (-top) (min top next)) ∧ min cap (max (-top) (min top next)) ≤ v + d) := by
  omega

/-- The direction in which the time base has still to be moved. -/
def slewSign (s : State) : Int := if s.ref.stepLeft < 0 then -1 else 1

theorem slewSign_cases (s : State) : slewSign s = 1 ∨ slewSign s = -1 := by
  unfold slewSign
  split
  · exact Or.inr rfl
  · exact Or.inl rfl

/-- The next value of the slew term on its ramp, in that direction and before its bounds cut it (R266). -/
def slewNext (s : State) (dt : Nat) : Int :=
  let v := slewSign s * s.tim.slew
  let stop : Int := v * v * 10000000000000000 / (2 * (s.nat Ix.timeSlewSlope : Int) * 2 ^ 48)
  if v < 0 then v + slopeOver s dt
  else if (s.ref.stepLeft.natAbs : Int) ≤ stop ∨ s.ref.stepLeft = 0 then max 0 (v - slopeOver s dt) else v + slopeOver s dt

theorem slewTerm_eq (s : State) (dt : Nat) : slewTerm s dt = slewSign s *
    min (rhoMax - slewSign s * s.tim.est) (max (-(slewMax s : Int)) (min (slewMax s) (slewNext s dt))) := rfl

/-- One step of the ramp. -/
theorem slewNext_bounds (s : State) (dt : Nat) : slewSign s * s.tim.slew - slopeOver s dt ≤ slewNext s dt ∧
    slewNext s dt ≤ slewSign s * s.tim.slew + slopeOver s dt := by
  unfold slewNext
  dsimp only
  split
  · omega
  · split <;> omega

/-- The slew term keeps within TIME_SLEW_PPM, and moves by no more than TIME_SLEW_SLOPE allows (R266). -/
theorem slewTerm_bounds {s : State} (dt : Nat) (hslew : s.tim.slew.natAbs ≤ slewMax s)
    (hroom : (s.tim.est.natAbs : Int) + s.tim.slew.natAbs ≤ rhoMax) :
    (slewTerm s dt).natAbs ≤ slewMax s ∧ (slewTerm s dt - s.tim.slew).natAbs ≤ slopeOver s dt := by
  have hnext := slewNext_bounds s dt
  rw [slewTerm_eq]
  rcases slewSign_cases s with h | h
  · rw [h] at hnext ⊢
    have hb := clamped_move (top := slewMax s) (cap := rhoMax - 1 * s.tim.est) (by omega) (by omega) hnext
    omega
  · rw [h] at hnext ⊢
    have hb := clamped_move (top := slewMax s) (cap := rhoMax - -1 * s.tim.est) (by omega) (by omega) hnext
    omega

/-- The block once `n` fabric cycles have moved the time base, before the rate word takes its next value. -/
def elapsed (s : State) (n : Nat) : State :=
  let m := s.tim.slew * n
  { s with
    clk := { s.clk with sysCounter := s.clk.sysCounter + n }
    tim := { s.tim with t := s.tim.t + (n * (2 ^ 48 + s.tim.rho) / 2 ^ 16).toNat, moved := s.tim.moved + m }
    ref := { s.ref with build := buildMove s m, stepLeft := s.ref.stepLeft - m } }

/-- The same, with what is left of the build-out reported (R299). -/
def elapsedReported (s : State) (n : Nat) : State :=
  if (elapsed s n).ref.build = s.ref.build then elapsed s n else reportBuild (elapsed s n)

theorem elapsedReported_work (s : State) (n : Nat) : TimeWork [Ix.refBuildout] (elapsed s n) (elapsedReported s n) :=
  (TimeWork.refl _ _).ite ((TimeWork.refl _ _).setObj (by decide) _ _)

theorem elapsedReported_tim (s : State) (n : Nat) : (elapsedReported s n).tim = (elapsed s n).tim := by
  unfold elapsedReported
  split
  · rfl
  · exact setInt_tim ..

theorem elapsedReported_ref (s : State) (n : Nat) : (elapsedReported s n).ref = (elapsed s n).ref := by
  unfold elapsedReported
  split
  · rfl
  · exact setInt_ref ..

/-- Where no bound of re-acquisition applies, the rate word stays as it is, with nothing to slew, or is put together anew with a slew
term that has reached 0 or has moved on its ramp. -/
theorem timePass_cases {s : State} (n : Nat) (haim : s.tim.aim = none) :
    let u := elapsedReported s n
    timePass s n = u ∨
      (u.tim.slew.natAbs ≤ slopeOver u n ∧
        timePass s n = setRho { u with tim := { u.tim with slew := 0 }, ref := { u.ref with stepLeft := 0 } }) ∨
      timePass s n = setRho { u with tim := { u.tim with slew := slewTerm u n } } := by
  intro u
  have hu : timePass s n = if u.tim.slew = 0 ∧ u.ref.stepLeft = 0 ∧ u.tim.aim.isNone then u
      else setRho (if slewDone (reacqStep u n) n
        then { reacqStep u n with tim := { (reacqStep u n).tim with slew := 0 }, ref := { (reacqStep u n).ref with stepLeft := 0 } }
        else { reacqStep u n with tim := { (reacqStep u n).tim with slew := slewTerm (reacqStep u n) n } }) := rfl
  have hreacq : reacqStep u n = u := by
    unfold reacqStep
    rw [show u.tim.aim = none from (congrArg TimeSt.aim (elapsedReported_tim s n)).trans haim]
  rw [hreacq] at hu
  rw [hu]
  split
  · exact Or.inl rfl
  · refine Or.inr ?_
    split
    case isTrue hdone =>
      simp only [slewDone, Bool.and_eq_true, decide_eq_true_eq] at hdone
      exact Or.inl ⟨hdone.1, rfl⟩
    case isFalse => exact Or.inr rfl

/-- What `n` cycles leave of the time base: the slew term keeps within the bounds of R266. -/
structure Passed (s : State) (n : Nat) (t : State) : Prop where
  counter : t.clk.sysCounter = s.clk.sysCounter + n
  time : t.tim.t = s.tim.t + (n * (2 ^ 48 + s.tim.rho) / 2 ^ 16).toNat
  bounded : t.tim.slew.natAbs ≤ slewMax s
  ramp : (t.tim.slew - s.tim.slew).natAbs ≤ slopeOver s n
  left : t.ref.stepLeft.natAbs ≤ (s.ref.stepLeft - s.tim.slew * n).natAbs
  engines : t.engines = s.engines
  lat : t.lat = s.lat

theorem timePass_passed {s : State} (n : Nat) (haim : s.tim.aim = none) (hslew : s.tim.slew.natAbs ≤ slewMax s)
    (hroom : (s.tim.est.natAbs : Int) + s.tim.slew.natAbs ≤ rhoMax) : Passed s n (timePass s n) := by
  let u := elapsedReported s n
  have hwork : TimeWork [Ix.refBuildout] (elapsed s n) u := elapsedReported_work s n
  have htim : u.tim = (elapsed s n).tim := elapsedReported_tim s n
  have href : u.ref = (elapsed s n).ref := elapsedReported_ref s n
  have hmax : slewMax u = slewMax s := by
    unfold slewMax
    rw [hwork.nat rfl (by decide)]
    rfl
  have hslope : slopeOver u n = slopeOver s n := by
    unfold slopeOver
    rw [hwork.nat rfl (by decide)]
    rfl
  have hus : u.tim.slew = s.tim.slew := by rw [htim]; rfl
  have hue : u.tim.est = s.tim.est := by rw [htim]; rfl
  have hut : u.tim.t = s.tim.t + (n * (2 ^ 48 + s.tim.rho) / 2 ^ 16).toNat := congrArg TimeSt.t htim
  have hul : u.ref.stepLeft = s.ref.stepLeft - s.tim.slew * n := congrArg RefSt.stepLeft href
  have huc : u.clk.sysCounter = s.clk.sysCounter + n := congrArg TickSt.sysCounter hwork.clk
  have hrho (w : State) (he : w.engines = u.engines) (hl : w.lat = u.lat) (hc : w.clk = u.clk) (ht : w.tim.t = u.tim.t)
      (hb : w.tim.slew.natAbs ≤ slewMax s) (hr : (w.tim.slew - s.tim.slew).natAbs ≤ slopeOver s n)
      (hleft : w.ref.stepLeft.natAbs ≤ u.ref.stepLeft.natAbs) : Passed s n (setRho w) := by
    have hk := setRho_work w
    refine ⟨?_, ?_, ?_, ?_, ?_, ?_, ?_⟩
    · rw [hk.clk, hc, huc]
    · rw [setRho_tim, ht, hut]
    · rw [setRho_tim]
      exact hb
    · rw [setRho_tim]
      exact hr
    · rw [setRho_ref, ← hul]
      exact hleft
    · exact hk.engines.trans (he.trans hwork.engines)
    · exact hk.lat.trans (hl.trans hwork.lat)
  rcases timePass_cases n haim with h | ⟨hdone, h⟩ | h
  · rw [h]
    refine ⟨huc, hut, by rw [hus]; exact hslew, ?_, ?_, hwork.engines, hwork.lat⟩
    · rw [hus, Int.sub_self]
      exact Nat.zero_le _
    · exact Nat.le_of_eq (congrArg Int.natAbs hul)
  · rw [h]
    refine hrho _ rfl rfl rfl rfl (Nat.zero_le _) ?_ (Nat.zero_le _)
    change (0 - s.tim.slew).natAbs ≤ _
    rw [Int.zero_sub, Int.natAbs_neg, ← hus, ← hslope]
    exact hdone
  · rw [h]
    obtain ⟨hb, hr⟩ := slewTerm_bounds (s := u) n (by rw [hus, hmax]; exact hslew) (by rw [hus, hue]; exact hroom)
    rw [hmax] at hb
    rw [hslope, hus] at hr
    exact hrho _ rfl rfl rfl rfl hb hr (Nat.le_refl _)

end Sys2Proof.Machine
end

section
/-! The first step of the time base (R265): what it leaves of the commits that were pending, and the time base it sets. -/

namespace Sys2Proof.Machine

/-! ### Commits that are jumped over (R181) -/

/-- From `s` to `t` the time base and the pending commits are as they were. -/
structure KeepsPending (s t : State) : Prop where
  tim : t.tim = s.tim
  pend : t.shut.pend = s.shut.pend

section
variable {s t u : State}

theorem KeepsPending.refl (s : State) : KeepsPending s s := ⟨rfl, rfl⟩

theorem KeepsPending.trans (h : KeepsPending s t) (k : KeepsPending t u) : KeepsPending s u :=
  ⟨k.tim.trans h.tim, k.pend.trans h.pend⟩

theorem KeepsPending.ite {c : Prop} [Decidable c] (ht : KeepsPending s t) (hu : KeepsPending s u) :
    KeepsPending s (if c then t else u) := by
  split
  · exact ht
  · exact hu

theorem KeepsPending.foldl {α : Type} {f : State → α → State} (hf : ∀ t a, KeepsPending t (f t a)) (as : List α) (s : State) :
    KeepsPending s (as.foldl f s) := by
  induction as generalizing s with
  | nil => exact KeepsPending.refl s
  | cons a as ih => exact (hf s a).trans (ih _)

theorem KeepsPending.setNat (h : KeepsPending s t) (ix sub n : Nat) : KeepsPending s (t.setNat ix sub n) :=
  ⟨(setNat_tim ..).trans h.tim, by rw [setNat_shut, h.pend]⟩

theorem KeepsPending.alarm (h : KeepsPending s t) (a : AlarmId) (detail : Nat) : KeepsPending s (t.alarm a detail) :=
  ⟨(alarm_logOnly ..).tim.trans h.tim, by rw [(alarm_logOnly ..).shut, h.pend]⟩

theorem KeepsPending.alarmIf (h : KeepsPending s t) (c : Bool) (a : AlarmId) (detail : Nat) : KeepsPending s (t.alarmIf c a detail) :=
  (h.alarm a detail).ite h

end

theorem freeSlot_keepsPending (s : State) (id : Nat) : KeepsPending s (freeSlot s id) := by
  unfold freeSlot
  split
  · exact ((KeepsPending.refl s).setNat ..).setNat ..
  · exact KeepsPending.refl s

theorem unpreparePage_keepsPending (s : State) (p : Fin 16) (changed : List Nat) : KeepsPending s (unpreparePage s p changed) :=
  KeepsPending.foldl (fun t k => ⟨setEngine_tim t k _, by rw [setEngine_shut]⟩) _ _

theorem mirror_keepsPending (s : State) (kind gen tick : Nat) (body : List Byte) : KeepsPending s (mirror s kind gen tick body) := by
  refine KeepsPending.ite ?_ (KeepsPending.refl s)
  unfold sendFrame sendUnit
  dsimp only
  split <;> exact ⟨rfl, rfl⟩

/-- The block with one commit taken off the pending list (R173). -/
def withoutCommit (s : State) (p : Pending) : State :=
  { s with shut := { s.shut with pend := s.shut.pend.filter (fun q => q.id != p.id) } }

/-- A commit that ends leaves the pending list, and the others stay. -/
theorem endCommit_keepsPending (s : State) (p : Pending) (code gen : Nat) :
    KeepsPending (withoutCommit s p) (endCommit s p code gen) := by
  have hlisted := (((freeSlot_keepsPending (withoutCommit s p) p.id).setNat
    Ix.shutHistory (p.id % 64) (p.id + 4294967296 * code)).setNat Ix.shutHistGen (p.id % 64) gen).setNat Ix.shutHistTick (p.id % 64) s.tick
  have hpair (t : State) (r : PairSt) : KeepsPending t { t with pair := r } := ⟨rfl, rfl⟩
  unfold endCommit
  exact ((hlisted.trans (KeepsPending.ite (hpair _ _) (KeepsPending.refl _))).setNat ..).trans (mirror_keepsPending ..)

/-- So does one that is rejected. -/
theorem rejectCommit_pending (s : State) (p : Pending) (code : Nat) : (rejectCommit s p code).tim = s.tim ∧
    (rejectCommit s p code).shut.pend = s.shut.pend.filter (fun q => q.id != p.id) := by
  have hback : KeepsPending s (if p.frozen then
      (touchedBy (p.changes.map (fun c => (c.ix, c.sub)))).foldl (fun t q => unpreparePage t (Fin.ofNat 16 q.1) q.2) s else s) :=
    KeepsPending.ite (KeepsPending.foldl (fun _ _ => unpreparePage_keepsPending ..) _ _) (KeepsPending.refl s)
  unfold rejectCommit
  dsimp only
  generalize (if p.frozen = true then _ else s) = s1 at hback ⊢
  have hend (n : Nat) := ((endCommit_keepsPending s1 p code 0).setNat Ix.shutRejects 0 n).alarmIf (code != 13) Al.commitRejected 0
  exact ⟨(hend _).tim.trans hback.tim, (hend _).pend.trans (congrArg (List.filter _) hback.pend)⟩

theorem foldl_rejectCommit (code : Nat) (ps : List Pending) (s : State) :
    (ps.foldl (fun t p => rejectCommit t p code) s).tim = s.tim ∧
      (ps.foldl (fun t p => rejectCommit t p code) s).shut.pend = s.shut.pend.filter (fun q => ps.all (fun p => q.id != p.id)) := by
  induction ps generalizing s with
  | nil => exact ⟨rfl, (List.filter_eq_self.mpr fun _ _ => rfl).symm⟩
  | cons p ps ih =>
    obtain ⟨htim, hpend⟩ := rejectCommit_pending s p code
    obtain ⟨htims, hpends⟩ := ih (rejectCommit s p code)
    refine ⟨htims.trans htim, hpends.trans ?_⟩
    rw [hpend, List.filter_filter]
    exact congrArg (s.shut.pend.filter ·) (funext fun q => Bool.and_comm ..)

/-- With no commit past its final check, none is left pending (R181). -/
theorem rejectOpen_pending {s : State} (h : commitBetween s = false) (code : Nat) :
    (rejectOpen s code).tim = s.tim ∧ (rejectOpen s code).shut.pend = [] := by
  obtain ⟨htim, hpend⟩ := foldl_rejectCommit code (s.shut.pend.filter (fun p => !p.checked)) s
  refine ⟨htim, hpend.trans (List.filter_eq_nil_iff.mpr fun q hq hall => ?_)⟩
  have hopen : q.checked = false := Bool.eq_false_iff.mpr fun hc =>
    Bool.false_ne_true (h.symm.trans (List.any_eq_true.mpr ⟨q, hq, hc⟩))
  have hself := List.all_eq_true.mp hall q (List.mem_filter.mpr ⟨hq, by rw [hopen]; rfl⟩)
  rw [bne_self_eq_false] at hself
  exact Bool.false_ne_true hself

theorem setRsvState_keepsPending (s : State) (e : Fin 16) (v : Nat) : KeepsPending s (setRsvState s e v) := by
  have hleaves := ((KeepsPending.refl s).setNat Ix.rsvEngState e.val v).setNat Ix.rsvLeaves 0
  unfold setRsvState syncLeaves
  exact ((hleaves _).alarm _ _).ite (hleaves _)

theorem abandonAuto_keepsPending (s : State) (reason : Nat) : KeepsPending s (abandonAuto s reason) := by
  unfold abandonAuto
  cases hm : s.rsv.move with
  | none => exact KeepsPending.refl s
  | some m =>
    have hgone : KeepsPending s ({ s with rsv := { s.rsv with move := none } }.setEngine m.leaf (gatedEngine m.pmu)) := ⟨rfl, rfl⟩
    have hmove : KeepsPending s (abandonMove s reason 1) := by
      unfold abandonMove
      rw [hm]
      exact ((hgone.trans (setRsvState_keepsPending _ _ _)).setNat ..).alarm ..
    exact KeepsPending.ite ⟨hmove.tim, hmove.pend⟩ hmove

/-- A step of the time base leaves no commit pending. -/
theorem dropOpen_pending {s : State} (h : commitBetween s = false) : (dropOpen s).tim = s.tim ∧ (dropOpen s).shut.pend = [] := by
  have k := abandonAuto_keepsPending (rejectOpen s 14) 3
  obtain ⟨htim, hpend⟩ := rejectOpen_pending h 14
  exact ⟨k.tim.trans htim, k.pend.trans hpend⟩

/-- With nothing to drop, nothing changes. -/
theorem dropOpen_eq_self {s : State} (hp : s.shut.pend = []) (hm : s.rsv.move = none) : dropOpen s = s := by
  unfold dropOpen rejectOpen abandonAuto
  rw [hp]
  change (match s.rsv.move with
    | none => s
    | some m => _) = s
  rw [hm]

/-! ### The step (R265, R267) -/

/-- From `s` to `t` of the time base only the triggers have changed. -/
structure TrigWork (s t : State) : Prop extends TimeWork [Ix.trigState] s t where
  tim : t.tim = { s.tim with trigs := t.tim.trigs }

theorem TrigWork.trans {s t u : State} (h : TrigWork s t) (k : TrigWork t u) : TrigWork s u :=
  ⟨h.toTimeWork.trans k.toTimeWork, k.tim.trans (by rw [h.tim])⟩

theorem trigStepped_work (s : State) (now : Nat) : TrigWork s (trigStepped s now) := by
  have hstep (t : State) (i : Nat) (c d : Prop) [Decidable c] [Decidable d] (g : Trig) :
      TrigWork t (if c then ((if d then setTrig t i g else t).setNat Ix.trigState i 3).alarm (Al.trigMissed.src (0x20 + i))
        else if d then setTrig t i g else t) := by
    have hset : TrigWork t (if d then setTrig t i g else t) := by
      split
      · exact ⟨timeWork_of_dict _ rfl rfl rfl rfl rfl rfl, rfl⟩
      · exact ⟨TimeWork.refl _ t, rfl⟩
    split
    · exact ⟨(hset.setObj (by decide) _ _).alarm _ _, by rw [(alarm_logOnly ..).tim, setNat_tim]; exact hset.tim⟩
    · exact hset
  unfold trigStepped
  generalize upFrom 0 8 = is
  induction is generalizing s with
  | nil => exact ⟨TimeWork.refl _ s, rfl⟩
  | cons i is ih => exact (hstep s i _ _ _).trans (ih _)

/-- The time base has been set to `new`: no first step is due any more, and its frequency goes on. -/
structure Jumped (s : State) (new : Nat) (t : State) : Prop extends TimeWork [Ix.trigState] s t where
  time : t.tim.t = new
  due : t.tim.firstDue = none
  est : t.tim.est = s.tim.est

theorem jumped_of_time (s : State) {new : Nat} {f : TimeSt} (r : RefSt) (y : SynSt) (ht : f.t = new) (hd : f.firstDue = none)
    (he : f.est = s.tim.est) : Jumped s new { s with tim := f, ref := r, syn := y } :=
  ⟨timeWork_of_dict _ rfl rfl rfl rfl rfl rfl, ht, hd, he⟩

theorem Jumped.aim {s t : State} {new : Nat} (h : Jumped s new t) (k : Nat) (x : Int) : Jumped s new (aimSlew t k x) := by
  obtain ⟨v, hv⟩ := aimSlew_eq t k x
  rw [hv]
  exact ⟨h.toTimeWork.trans (timeWork_of_dict _ rfl rfl rfl rfl rfl rfl), h.time, h.due, h.est⟩

theorem Jumped.miss {s t : State} {new : Nat} (h : Jumped s new t) {c : Prop} [Decidable c] (now : Nat) :
    Jumped s new (if c then trigStepped t now else t) := by
  have k := trigStepped_work t now
  split
  · exact ⟨h.toTimeWork.trans k.toTimeWork, (congrArg TimeSt.t k.tim).trans h.time, (congrArg TimeSt.firstDue k.tim).trans h.due,
      (congrArg TimeSt.est k.tim).trans h.est⟩
  · exact h

theorem timeJump_jumped (s : State) (new : Nat) : Jumped s new (timeJump s new) := by
  unfold timeJump
  dsimp only
  refine Jumped.miss ?_ new
  split
  · split
    · refine Jumped.aim ?_ _ _
      exact jumped_of_time s _ _ rfl rfl rfl
    · exact jumped_of_time s _ _ rfl rfl rfl
  · exact jumped_of_time s _ _ rfl rfl rfl

/-- The registers that a step of the time base may change. -/
def stepIx : List Nat := [Ix.trigState, Ix.timeState, Ix.timeOffset, Ix.timeRate, Ix.refBuildout]

/-- The first step has been taken to the offset `off`: the time base has the reference time and the estimated frequency. -/
structure FirstStepped (s : State) (off : Int) (t : State) : Prop extends TimeWork stepIx s t where
  time : t.tim.t = refTime s off
  stepped : t.tim.stepped = true
  due : t.tim.firstDue = none
  rho : t.tim.rho = clampRho s.tim.est
  state : t.nat Ix.timeState = 1
  offset : t.int Ix.timeOffset 0 = 0

theorem takeFirst_stepped (s : State) (off : Int) : FirstStepped s off (takeFirst s off) := by
  have hj := timeJump_jumped s (refTime s off)
  generalize hu : timeJump s (refTime s off) = u at hj
  let w : State := { u with tim := { u.tim with stepped := true, slew := 0 }, ref := { u.ref with build := 0, stepLeft := 0 } }
  let v : State := (w.setNat Ix.timeState 0 1).setInt Ix.timeOffset 0 0
  have heq : takeFirst s off = setRho (reportBuild v) := by
    unfold takeFirst
    rw [hu]
  have hv : TimeWork stepIx s v :=
    (((hj.widen (by decide)).trans (timeWork_of_dict _ rfl rfl rfl rfl rfl rfl : TimeWork stepIx u w)).setObj (by decide) _ _).setObj
      (by decide) _ _
  have hb : TimeWork [Ix.refBuildout] v (reportBuild v) := (TimeWork.refl _ v).setObj (by decide) _ _
  have hr := setRho_work (reportBuild v)
  have htim : (reportBuild v).tim = w.tim := (setInt_tim ..).trans ((setInt_tim ..).trans (setNat_tim ..))
  rw [heq]
  have hwork := (hv.trans (hb.widen (by decide))).trans (hr.widen (by decide))
  refine { toTimeWork := hwork, time := ?_, stepped := ?_, due := ?_, rho := ?_, state := ?_, offset := ?_ }
  · rw [setRho_tim, htim]
    exact hj.time
  · rw [setRho_tim, htim]
  · rw [setRho_tim, htim]
    exact hj.due
  · rw [setRho_tim, htim]
    change clampRho (u.tim.est + 0) = _
    rw [hj.est, Int.add_zero]
  · rw [hr.nat rfl (by decide), hb.nat rfl (by decide)]
    exact (nat_setObj_ne _ (objKey_ne_index (by decide)) _).trans (nat_setNat_self ..)
  · rw [hr.int rfl (by decide), hb.int rfl (by decide)]
    exact int_setInt_self ..

theorem timeFirstStep_takes {s : State} {off : Int} (hdue : s.tim.firstDue = some off) (hfirst : s.tim.stepped = false)
    (hheld : s.tim.firstHeld = false) (hc : commitBetween s = false) :
    exec .timeFirstStep s = .next (takeFirst (dropOpen s) off) := by
  change execTimeFirstStep s = _
  unfold execTimeFirstStep
  simp only [hdue, hfirst, hheld, hc, Bool.false_eq_true, Bool.or_self, if_false]

theorem refTime_of_tim {s t : State} (h : t.tim = s.tim) (off : Int) : refTime t off = refTime s off := by
  unfold refTime
  rw [h]

end Sys2Proof.Machine

open Sys2Proof Sys2Proof.Machine

/-- Settles O35, clause by clause: a measurement that only reports (`PhaseTaken`) or makes candidate 4 absent, one that steers
(`Steered`) and lets TIME_STATE follow (`FollowWork`), time that passes (`Passed`), and the first step (`FirstStepped`). -/
theorem timeBaseFollowsItsReference : Obligations.TimeBaseFollowsItsReference := by
  unfold Obligations.TimeBaseFollowsItsReference
  intro s ref offset est cycles k c rest coherent
  have hrest {l : List Nat} {t : State} (h : TimeWork l s t) : rest t := ⟨h.engines, h.lat, h.out, h.clk⟩
  refine ⟨fun hk hact hco hpres => ?_, fun hnot hp => ?_, fun x hk hact hp hx hreacq => ?_, fun n haim hslew hroom => ?_,
    fun off hdue hfirst hheld hc => ?_⟩
  · intro x phases
    have hx : nearPhase s k offset = x := by
      unfold nearPhase
      rw [hk]
      rfl
    have hph : phasesWith s k offset = phases := by
      unfold phasesWith
      rw [hx]
    have ht := refPhase_taken hpres offset
    have hset := ht.toCandWork.setCand { candOf (refPhase s k offset) k with fresh := none }
    refine ⟨_, timeMeasurement_reports offset est (pulseApart_eq_false.mpr hco) hk hact, hrest hset.toTimeWork, hset.tim,
      ?_, ?_, ?_, hset.cands⟩
    · rw [candOf_setCand_self]
      exact ht.present
    · rw [candOf_setCand_self, ← hph]
      exact ht.phases
    · rw [← hph]
      exact ht.report
  · have hapart : pulseApart k cycles = true := by
      rw [← Bool.not_eq_false]
      exact fun h => hnot (pulseApart_eq_false.mp h)
    have hk : k = 4 := Decidable.byContradiction fun h => hnot fun h4 => absurd h4 h
    have hp4 : (candOf s 4).present = true := hk ▸ hp
    have hl := refLost_work s 4
    refine ⟨_, timeMeasurement_apart offset est hapart hp4, hrest hl.toTimeWork, hl.tim, ?_, ?_, ?_⟩
    · rw [hk, candOf_refLost]
      rfl
    · rw [hk]
      exact refState_refLost s 4
    · rw [hk]
      exact hl.cands
  · intro net
    let s0 := setCand s k { c with fresh := none }
    have hs0 : TimeWork [Ix.timeOffset, Ix.timeRate, Ix.timeState] s s0 := timeWork_of_dict _ rfl rfl rfl rfl rfl rfl
    have ht := timeDrive_driven (s := s0) hk hreacq x est
    refine ⟨_, timeMeasurement_drives offset est cycles hk hact hp hx, hrest (hs0.trans ht.toTimeWork), ?_, ht.time,
      ht.lastOff, ht.offset, ht.freq, ht.slew, ht.rho, ht.rate, timeDrive_counts (s := s0) hk hreacq est,
      timeDrive_locks (s := s0) hk hreacq est, timeDrive_loses (s := s0) hk hreacq est⟩
    exact (ht.cands k).trans (candOf_setCand_self ..)
  · have h := timePass_passed n haim hslew hroom
    exact ⟨h.counter, h.time, h.bounded, h.ramp, h.left, h.engines, h.lat⟩
  · obtain ⟨htim, hpend⟩ := dropOpen_pending hc
    have h := takeFirst_stepped (dropOpen s) off
    refine ⟨_, timeFirstStep_takes hdue hfirst hheld hc, by rw [h.shut, hpend], fun hp hm => ?_, ?_, h.stepped, h.due, ?_,
      h.state, h.offset⟩
    · rw [dropOpen_eq_self hp hm] at h ⊢
      exact hrest h.toTimeWork
    · rw [h.time, refTime_of_tim htim]
    · rw [h.rho, htim]
end

section
/-! Triggers and captures (R273 to R277): what an edge that fires leaves, and an edge that is stamped or dropped. -/

namespace Sys2Proof.Machine

/-! ### Triggers (R273 to R275) -/

@[simp] theorem trigOf_setTrig_self (s : State) (t : Nat) (g : Trig) : trigOf (setTrig s t g) t = g := mapGet_mapSet_self ..

theorem trigOf_setTrig_ne (s : State) {t j : Nat} (h : j ≠ t) (g : Trig) : trigOf (setTrig s t g) j = trigOf s j :=
  mapGet_mapSet_ne _ h _ _

theorem trigOf_of_tim {s t : State} (h : t.tim = s.tim) (j : Nat) : trigOf t j = trigOf s j := by
  unfold trigOf
  rw [h]

/-- With no trigger object landed, there is nothing to settle (R275). -/
theorem trigSettle_eq_self {s : State} (h : s.tim.touched = []) : trigSettle s = s := by
  unfold trigSettle
  rw [h]
  change ({ s with tim := { s.tim with touched := [] } } : State) = s
  rw [← h]

/-- Trigger `t` with its record `g`, counted and with its instant reported; a one-shot has been spent where `shot` holds. -/
def trigMarked (s : State) (t : Nat) (g : Trig) (shot : Bool) (ns : Nat) : State :=
  ((if shot then (setTrig s t g).setNat Ix.trigState t 2 else setTrig s t g).setObj Ix.trigLast t (timeVal ns)).addHold Ix.trigCount t 1

section
variable (s : State) (t : Nat) (g : Trig) (shot : Bool) (ns : Nat)

theorem trigShot_work : TimeWork [Ix.trigState] s (if shot then (setTrig s t g).setNat Ix.trigState t 2 else setTrig s t g) := by
  have hset : TimeWork [Ix.trigState] s (setTrig s t g) := timeWork_of_dict _ rfl rfl rfl rfl rfl rfl
  exact (hset.setObj (by decide) _ _).ite hset

theorem trigMarked_work : TimeWork [Ix.trigState, Ix.trigLast, Ix.trigCount] s (trigMarked s t g shot ns) :=
  (((trigShot_work s t g shot).widen (by decide)).setObj (by decide) _ _).setObj (by decide) _ _

theorem trigLast_trigMarked : (trigMarked s t g shot ns).obj Ix.trigLast t = timeVal ns :=
  (obj_setObj_ne _ (objKey_ne_index (by decide)) _).trans (obj_setObj_self ..)

theorem trigCount_trigMarked : (trigMarked s t g shot ns).nat Ix.trigCount t = min (s.nat Ix.trigCount t + 1) 0xFFFFFFFF := by
  refine (nat_setNat_self ..).trans ?_
  rw [nat_setObj_ne _ (objKey_ne_index (by decide)), (trigShot_work s t g shot).nat rfl (by decide)]

theorem trigState_trigMarked : (trigMarked s t g true ns).nat Ix.trigState t = 2 := by
  refine (nat_setNat_ne _ (objKey_ne_index (by decide)) _).trans ((nat_setObj_ne _ (objKey_ne_index (by decide)) _).trans ?_)
  exact nat_setNat_self ..

theorem trigMarked_tim : (trigMarked s t g shot ns).tim = (setTrig s t g).tim := by
  refine (addHold_tim ..).trans ((setObj_tim ..).trans ?_)
  split
  · exact setNat_tim ..
  · rfl

end

/-- Whether an edge of the settings `c` leaves the block: an output that only the door-holder drives needs the door (R274). -/
def trigDriven (s : State) (c : TrigSet) : Bool := !c.cfg.testBit 1 || s.isDoor

/-- An edge that fires marks its trigger, and leaves the block where the output is driven (R273 to R275). -/
theorem trigFire_eq (s : State) (t : Nat) (c : TrigSet) (x : Nat) (k : Option Nat) (old : Bool) :
    ∃ g : Trig, (∀ n, k = some n → g.lastTick = some n) ∧ trigFire s t c x k old =
      let u := trigMarked s t g (k.isNone && s.nat Ix.trigState t == 1 && (!old || (trigOf s t).cur.time == c.time)) (x / s.fs)
      if trigDriven s c then u.emit (.trigger t true (!c.cfg.testBit 0) (placeQuarter s x) (!c.cfg.testBit 2)) else u := by
  refine ⟨_, fun n h => ?_, rfl⟩
  rw [h]

theorem trigEdge_fires {s : State} {trig : Fin 8} {c : TrigSet} {x : Nat} {k : Option Nat} {old : Bool} (ht : s.tim.touched = [])
    (hn : trigNext s trig.val = some (c, x, k, old)) : exec (.trigEdge trig) s = .next (trigFire s trig.val c x k old) := by
  change execTrigEdge trig s = _
  unfold execTrigEdge
  simp only [trigSettle_eq_self ht, hn]

/-- A pulse that ends leaves its output at rest (R273). -/
theorem trigPulseEnd_eq {s : State} {trig : Fin 8} {q : Nat} (h : (trigOf s trig.val).pulse = some q) :
    exec (.trigPulseEnd trig) s =
      let g := trigOf s trig.val
      let s1 := setTrig s trig.val { g with pulse := none }
      let s2 := if g.driven then s1.emit (.trigger trig.val false (g.pcfg.testBit 0) q (!g.pcfg.testBit 2)) else s1
      .next (if g.pcfg.testBit 0 != g.cur.cfg.testBit 0 then trigRests s2 trig.val else s2) := by
  change execTrigPulseEnd trig s = _
  unfold execTrigPulseEnd
  simp only [h]

/-! ### Captures (R276, R277) -/

/-- Capture input `c`. -/
def captOf (s : State) (c : Nat) : Capt := mapGet (fun _ => Capt.reset) c s.tim.capts

/-- Its record written. -/
def setCapt (s : State) (c : Nat) (r : Capt) : State :=
  { s with tim := { s.tim with capts := mapSet (fun _ => Capt.reset) c r s.tim.capts } }

theorem setCapt_work (l : List Nat) (s : State) (c : Nat) (r : Capt) : TimeWork l s (setCapt s c r) :=
  timeWork_of_dict l rfl rfl rfl rfl rfl rfl

/-- An instant, in quarter nanoseconds, lies less than `span` after the last one recorded. -/
def captRecent (o : Option Int) (quarter : Nat) (span : Int) : Bool :=
  match o with
  | some t => decide ((quarter : Int) < t + span)
  | none => false

/-- The input has stamped an edge into entry `k` of the capture log (R276). -/
def captStamped (s : State) (c k : Nat) (rising : Bool) (quarter : Nat) : State :=
  setCapt (((s.setObj Ix.captLog k (timeVal (quarter / 4))).setNat Ix.captEdge k
    ((if rising then 1 else 0) + 2 * (quarter % 4))).addWrap Ix.captSeq c 1) c { captOf s c with stamp := some quarter }

/-- The input has dropped an edge (R277). -/
def captDropped (s : State) (c quarter : Nat) : State :=
  (setCapt (s.addHold Ix.captDrops c 1) c { captOf s c with drop := some quarter }).alarmIf
    (!captRecent (captOf s c).drop quarter 4000000) (Al.captExcess.src (0x30 + c))

section
variable {s : State} {input : Fin 4} {rising : Bool} {quarter : Nat}

theorem captEdgeStamp_eq (h : (s.nat Ix.captEn input.val).testBit (if rising then 0 else 1) = true) :
    exec (.captEdgeStamp input rising quarter) s = if captRecent (captOf s input.val).stamp quarter 4000
      then .next (captDropped s input.val quarter)
      else .next (captStamped s input.val (16 * input.val + s.nat Ix.captSeq input.val % 16) rising quarter) :=
  if_neg (by rw [h]; exact Bool.false_ne_true)

theorem captEdgeStamp_stamps (h : (s.nat Ix.captEn input.val).testBit (if rising then 0 else 1) = true)
    (hlast : ∀ was, (captOf s input.val).stamp = some was → was + 4000 ≤ (quarter : Int)) :
    exec (.captEdgeStamp input rising quarter) s =
      .next (captStamped s input.val (16 * input.val + s.nat Ix.captSeq input.val % 16) rising quarter) := by
  refine (captEdgeStamp_eq h).trans (if_neg ?_)
  unfold captRecent
  cases hs : (captOf s input.val).stamp with
  | none => exact Bool.false_ne_true
  | some was =>
    have hwas := hlast was hs
    simpa using hwas

theorem captEdgeStamp_drops (h : (s.nat Ix.captEn input.val).testBit (if rising then 0 else 1) = true) {was : Int}
    (hlast : (captOf s input.val).stamp = some was) (hwas : (quarter : Int) < was + 4000) :
    exec (.captEdgeStamp input rising quarter) s = .next (captDropped s input.val quarter) := by
  refine (captEdgeStamp_eq h).trans (if_pos ?_)
  rw [hlast]
  exact decide_eq_true hwas

end

section
variable (s : State) (c k : Nat) (rising : Bool) (quarter : Nat)

theorem captStamped_work : TimeWork [Ix.captLog, Ix.captEdge, Ix.captSeq] s (captStamped s c k rising quarter) :=
  ((((TimeWork.refl _ s).setObj (by decide) _ _).setObj (by decide) _ _).setObj (by decide) _ _).trans
    (setCapt_work ..)

theorem captLog_captStamped : (captStamped s c k rising quarter).obj Ix.captLog k = timeVal (quarter / 4) :=
  (obj_setObj_ne _ (objKey_ne_index (by decide)) _).trans
    ((obj_setObj_ne _ (objKey_ne_index (by decide)) _).trans (obj_setObj_self ..))

theorem captEdge_captStamped :
    (captStamped s c k rising quarter).nat Ix.captEdge k = (if rising then 1 else 0) + 2 * (quarter % 4) :=
  (nat_setNat_ne _ (objKey_ne_index (by decide)) _).trans (nat_setNat_self ..)

theorem captSeq_captStamped : (captStamped s c k rising quarter).nat Ix.captSeq c = (s.nat Ix.captSeq c + 1) % 4294967296 := by
  refine (nat_setNat_self ..).trans ?_
  rw [nat_setNat_ne _ (objKey_ne_index (by decide)), nat_setObj_ne _ (objKey_ne_index (by decide))]

theorem captDropped_work : TimeWork [Ix.captDrops] s (captDropped s c quarter) := by
  have hcount : TimeWork [Ix.captDrops] s (s.addHold Ix.captDrops c 1) := (TimeWork.refl _ s).setObj (by decide) _ _
  exact (hcount.trans (setCapt_work _ _ c _)).alarmIf _ _ _

theorem captDrops_captDropped : (captDropped s c quarter).nat Ix.captDrops c = min (s.nat Ix.captDrops c + 1) 0xFFFFFFFF :=
  ((alarmIf_logOnly ..).nat rfl).trans (nat_setNat_self ..)

end

end Sys2Proof.Machine

open Sys2Proof Sys2Proof.Machine

/-- Settles O37, command by command: an edge that fires (`trigMarked`), a pulse that ends, and an edge of a capture input that is stamped
(`captStamped`) or dropped (`captDropped`). -/
theorem triggersFireAndCapturesStamp : Obligations.TriggersFireAndCapturesStamp := by
  unfold Obligations.TriggersFireAndCapturesStamp
  intro s
  refine ⟨fun trig set x k old htouched hnext => ?_, fun trig q => ?_, fun input rising quarter => ?_⟩
  · obtain ⟨g, hlast, hfire⟩ := trigFire_eq s trig.val set x k old
    let shot : Bool := k.isNone && s.nat Ix.trigState trig.val == 1 && (!old || (trigOf s trig.val).cur.time == set.time)
    let u := trigMarked s trig.val g shot (x / s.fs)
    have hu : TimeWork _ s u := trigMarked_work s trig.val g shot (x / s.fs)
    have htrigs (j : Nat) : trigOf u j = trigOf (setTrig s trig.val g) j := trigOf_of_tim (trigMarked_tim ..) j
    have hshot (hk : k = none) (hold : old = false) (hst : s.nat Ix.trigState trig.val = 1) : u.nat Ix.trigState trig.val = 2 := by
      have hs : shot = true := by
        simp only [shot, hk, hold, hst]
        rfl
      change (trigMarked s trig.val g shot (x / s.fs)).nat Ix.trigState trig.val = 2
      rw [hs]
      exact trigState_trigMarked ..
    have htick (n : Nat) (hk : k = some n) : (trigOf u trig.val).lastTick = some n := by
      rw [htrigs, trigOf_setTrig_self]
      exact hlast n hk
    have hothers (j : Nat) (hj : j ≠ trig.val) : trigOf u j = trigOf s j := (htrigs j).trans (trigOf_setTrig_ne s hj g)
    have hdriven : trigDriven s set = true ↔ (set.cfg.testBit 1 = false ∨ s.isDoor = true) := by
      simp only [trigDriven, Bool.or_eq_true, Bool.not_eq_true']
    refine ⟨_, (trigEdge_fires htouched hnext).trans (congrArg Host.Outcome.next hfire), ?_⟩
    by_cases hd : trigDriven s set = true
    · rw [if_pos hd, if_pos (hdriven.mp hd)]
      exact ⟨trigLast_trigMarked .., trigCount_trigMarked .., congrArg (· ++ [_]) hu.out, hshot, htick, hothers, hu.engines, hu.lat⟩
    · rw [if_neg hd, if_neg (mt hdriven.mpr hd)]
      exact ⟨trigLast_trigMarked .., trigCount_trigMarked .., hu.out, hshot, htick, hothers, hu.engines, hu.lat⟩
  · intro g s1 s2 hpulse
    have hdict : s2.dict = s.dict := by
      change (ite _ _ _ : State).dict = _
      split <;> rfl
    refine (trigPulseEnd_eq hpulse).trans (congrArg Host.Outcome.next ?_)
    by_cases hrest : g.pcfg.testBit 0 = g.cur.cfg.testBit 0
    · exact (if_neg (by simpa using hrest)).trans (if_pos hrest).symm
    · refine ((if_pos (by simpa using hrest)).trans ?_).trans (if_neg hrest).symm
      change trigRests s2 trig.val = _
      unfold trigRests
      rw [nat_of_dict hdict]
  · intro c q slot r hen
    refine ⟨fun hlast => ?_, fun was hlast hwas => ?_⟩
    · have hw := captStamped_work s c slot rising quarter
      exact ⟨_, captEdgeStamp_stamps hen hlast, captLog_captStamped .., captEdge_captStamped .., captSeq_captStamped ..,
        hw.nat rfl (by decide) c, hw.engines, hw.lat, hw.out⟩
    · have hw := captDropped_work s c quarter
      exact ⟨_, captEdgeStamp_drops hen hlast hwas, captDrops_captDropped .., hw.nat rfl (by decide) c,
        fun j _ => hw.obj j rfl (by decide), hw.engines, hw.lat, hw.out⟩
end

section
/-! PTP messages (R269 to R272): a Sync that measures, an Announce that is heard, and a leg that falls silent. -/

namespace Sys2Proof.Machine

/-! ### The instances and their legs -/

@[simp] theorem ptpOf_setPtp_self (s : State) (i : Nat) (p : PtpInst) : ptpOf (setPtp s i p) i = p := mapGet_mapSet_self ..

theorem ptpOf_setPtp_ne (s : State) {i j : Nat} (h : j ≠ i) (p : PtpInst) : ptpOf (setPtp s i p) j = ptpOf s j :=
  mapGet_mapSet_ne _ h _ _

theorem ptpOf_of_tim {s t : State} (h : t.tim = s.tim) (i : Nat) : ptpOf t i = ptpOf s i := by
  unfold ptpOf
  rw [h]

theorem setPtp_work (l : List Nat) (s : State) (i : Nat) (p : PtpInst) : TimeWork l s (setPtp s i p) :=
  timeWork_of_dict l rfl rfl rfl rfl rfl rfl

/-- The data set heard on a leg. -/
def ptpLeg (p : PtpInst) (leg : Nat) : Option PtpData := if leg = 0 then p.legA else p.legB

/-- One that hears `d` on a leg. -/
def ptpHearing (p : PtpInst) (leg : Nat) (d : Option PtpData) : PtpInst := if leg = 0 then { p with legA := d } else { p with legB := d }

@[simp] theorem ptpLeg_ptpHearing (p : PtpInst) (leg : Nat) (d : Option PtpData) : ptpLeg (ptpHearing p leg d) leg = d := by
  unfold ptpLeg ptpHearing
  split <;> rfl

/-- What a leg hears where its port runs: nothing in a disabled role, in quiet mode or with its link down (R271). -/
def ptpGate (s : State) (i leg : Nat) (d : Option PtpData) : Option PtpData :=
  if s.nat Ix.ptpRole i = 0 ∨ s.boot.quiet ∨ !linkUp s (2 * i + leg) then none else d

theorem ptpGate_runs {s : State} {i leg : Nat} (hrole : s.nat Ix.ptpRole i ≠ 0) (hq : s.boot.quiet = false)
    (hlink : linkUp s (2 * i + leg) = true) (d : Option PtpData) : ptpGate s i leg d = d := by
  refine if_neg ?_
  simp [hrole, hq, hlink]

/-- No master is heard through a gate that passes none. -/
theorem ptpGate_none (s : State) (i leg : Nat) : ptpGate s i leg none = none := ite_self _

/-- One with what its legs hear where their ports run. -/
def ptpGated (s : State) (i : Nat) (p : PtpInst) : PtpInst := { p with legA := ptpGate s i 0 p.legA, legB := ptpGate s i 1 p.legB }

theorem ptpLeg_ptpGated (s : State) (i : Nat) (p : PtpInst) (leg : Fin 2) :
    ptpLeg (ptpGated s i p) leg.val = ptpGate s i leg.val (ptpLeg p leg.val) := by
  match leg with
  | 0 => rfl
  | 1 => rfl

/-- The slave leg is one that hears a master (R270, R271). -/
theorem ptpSlave_hears (s : State) (i : Nat) (p : PtpInst) :
    ptpSlave s i p = 2 ∨ ∃ leg : Fin 2, ptpSlave s i p = leg.val ∧ (ptpLeg p leg.val).isSome = true := by
  have hpick {c : Prop} [Decidable c] (leg : Fin 2) (h : (ptpLeg p leg.val).isSome = true) :
      (if c then leg.val else 2) = 2 ∨ ∃ l : Fin 2, (if c then leg.val else 2) = l.val ∧ (ptpLeg p l.val).isSome = true := by
    split
    · exact Or.inr ⟨leg, rfl, h⟩
    · exact Or.inl rfl
  unfold ptpSlave
  dsimp only
  cases ha : p.legA with
  | none =>
    cases hb : p.legB with
    | none => exact Or.inl rfl
    | some b => exact hpick 1 (congrArg Option.isSome hb)
  | some a =>
    cases hb : p.legB with
    | none => exact hpick 0 (congrArg Option.isSome ha)
    | some b =>
      by_cases hbest : (ptpBetter b a || (p.slave == 1 && !ptpBetter a b)) = true
      · simp only [if_pos hbest]
        exact hpick 1 (congrArg Option.isSome hb)
      · simp only [if_neg hbest]
        exact hpick 0 (congrArg Option.isSome ha)

theorem ptpSlave_ne (s : State) (i : Nat) {p : PtpInst} {leg : Fin 2} (h : ptpLeg p leg.val = none) : ptpSlave s i p ≠ leg.val := by
  intro heq
  rcases ptpSlave_hears s i p with h2 | ⟨l, hl, hsome⟩
  · omega
  · rw [← hl, heq, h] at hsome
    exact Bool.false_ne_true hsome

/-- A decision of the best master clock algorithm gives the slave leg among the legs that hear a master (R270, R271). -/
theorem ptpDecide_tim (s : State) (i : Nat) (p0 : PtpInst) : ∃ p : PtpInst, (ptpDecide s i p0).tim = (setPtp s i p).tim ∧
    p.legA = (ptpGated s i p0).legA ∧ p.legB = (ptpGated s i p0).legB ∧ p.slave = ptpSlave s i (ptpGated s i p0) := by
  unfold ptpDecide
  dsimp only
  have hlogged (p : PtpInst) (code quality gm : Nat) (c d : Bool) (a b : AlarmId) (m n : Nat) :
      ((((((setPtp s i p).setNat Ix.ptpState i code).setNat Ix.ptpGmQuality i quality).setNat Ix.ptpGmId i gm).alarmIf
        c a m).alarmIf d b n).tim = (setPtp s i p).tim := by
    rw [(alarmIf_logOnly ..).tim, (alarmIf_logOnly ..).tim, setNat_tim, setNat_tim, setNat_tim]
  have hlost {c : Prop} [Decidable c] (t : State) : (if c then refLost t i else t).tim = t.tim := by
    split
    · exact (refLost_work t i).tim
    · rfl
  exact ⟨_, (hlost _).trans (hlogged _ _ _ _ _ _ _ _ _ _), rfl, rfl, rfl⟩

/-- The registers that it may change. -/
def ptpDecideIx : List Nat := [Ix.ptpState, Ix.ptpGmQuality, Ix.ptpGmId, Ix.refState, Ix.refQl]

theorem ptpDecide_work (s : State) (i : Nat) (p0 : PtpInst) : TimeWork ptpDecideIx s (ptpDecide s i p0) := by
  have hregs (p : PtpInst) (code quality gm : Nat) : TimeWork ptpDecideIx s
      ((((setPtp s i p).setNat Ix.ptpState i code).setNat Ix.ptpGmQuality i quality).setNat Ix.ptpGmId i gm) :=
    (((setPtp_work _ s i p).setObj (by decide) _ _).setObj (by decide) _ _).setObj (by decide) _ _
  have hlost (t : State) : TimeWork ptpDecideIx t (refLost t i) := (refLost_work t i).toTimeWork.widen (by decide)
  unfold ptpDecide
  dsimp only
  exact ((((hregs _ _ _ _).alarmIf _ _ _).alarmIf _ _ _).trans (hlost _)).ite (((hregs _ _ _ _).alarmIf _ _ _).alarmIf _ _ _)

/-- What a decision leaves of the instances: the legs of its own that run, and the others as they were. -/
structure PtpDecided (s : State) (i : Nat) (p0 : PtpInst) (t : State) : Prop extends TimeWork ptpDecideIx s t where
  leg : ∀ leg : Fin 2, ptpLeg (ptpOf t i) leg.val = ptpGate s i leg.val (ptpLeg p0 leg.val)
  slave : ∀ leg : Fin 2, ptpLeg p0 leg.val = none → (ptpOf t i).slave ≠ leg.val
  others : ∀ j, j ≠ i → ptpOf t j = ptpOf s j

theorem ptpDecide_decided (s : State) (i : Nat) (p0 : PtpInst) : PtpDecided s i p0 (ptpDecide s i p0) := by
  obtain ⟨p, htim, ha, hb, hslave⟩ := ptpDecide_tim s i p0
  have hp : ptpOf (ptpDecide s i p0) i = p := (ptpOf_of_tim htim i).trans (ptpOf_setPtp_self ..)
  refine { toTimeWork := ptpDecide_work s i p0, leg := fun leg => ?_, slave := fun leg h => ?_, others := fun j hj => ?_ }
  · rw [hp, ← ptpLeg_ptpGated]
    unfold ptpLeg
    rw [ha, hb]
  · rw [hp, hslave]
    refine ptpSlave_ne s i ?_
    rw [ptpLeg_ptpGated, h, ptpGate_none]
  · exact (ptpOf_of_tim htim j).trans (ptpOf_setPtp_ne s hj p)

/-! ### The messages -/

/-- A Sync of the domain has been measured on a leg (R269). -/
def syncMeasured (s : State) (i k : Nat) (x : Int) (delay : Nat) (p : PtpInst) : State :=
  setPtp ((s.setInt Ix.ptpOffset k (hold32 x)).setNat Ix.ptpPathDelay k (min delay 0xFFFFFFFF)) i p

/-- What a measured Sync reports, and what it leaves: the references, and the other instances. -/
structure SyncMeasured (s : State) (i k : Nat) (x : Int) (delay : Nat) (p : PtpInst) (t : State) : Prop
    extends TimeWork [Ix.ptpOffset, Ix.ptpPathDelay] s t where
  inst : ptpOf t i = p
  offset : t.int Ix.ptpOffset k = hold32 x
  delay : t.nat Ix.ptpPathDelay k = min delay 0xFFFFFFFF
  others : ∀ j, j ≠ i → ptpOf t j = ptpOf s j
  ref : t.ref = s.ref

theorem syncMeasured_measured (s : State) (i k : Nat) (x : Int) (delay : Nat) (p : PtpInst) :
    SyncMeasured s i k x delay p (syncMeasured s i k x delay p) := by
  have htim : (syncMeasured s i k x delay p).tim = (setPtp s i p).tim := by
    unfold syncMeasured setPtp
    rw [setNat_tim, setInt_tim]
  refine { toTimeWork := ?_, inst := ?_, offset := ?_, delay := nat_setNat_self .., others := fun j hj => ?_, ref := ?_ }
  · exact (((TimeWork.refl _ s).setObj (by decide) _ _).setObj (by decide) _ _).trans (setPtp_work _ _ i p)
  · exact (ptpOf_of_tim htim i).trans (ptpOf_setPtp_self ..)
  · exact (int_setNat_ne _ (objKey_ne_index (by decide)) _).trans (int_setInt_self ..)
  · exact (ptpOf_of_tim htim j).trans (ptpOf_setPtp_ne s hj p)
  · exact (setPtp_ref ..).trans ((setNat_ref ..).trans (setInt_ref ..))

/-- The slave leg's measurement makes its output valid: bit 9 of PTP_STATE. -/
def markValid (s : State) (i : Nat) : State :=
  s.setNat Ix.ptpState i (if (s.nat Ix.ptpState i).testBit 9 then s.nat Ix.ptpState i else s.nat Ix.ptpState i + 512)

theorem testBit_markValid (s : State) (i : Nat) : ((markValid s i).nat Ix.ptpState i).testBit 9 = true := by
  unfold markValid
  rw [nat_setNat_self]
  split
  case isTrue h => exact h
  case isFalse h =>
    rw [Nat.add_comm, show 512 = 2 ^ 9 from rfl, Nat.testBit_two_pow_add_eq]
    exact Bool.not_eq_true' _ |>.mpr (Bool.eq_false_iff.mpr h)

section
variable {s : State} {inst leg : Fin 2}

theorem ptpSyncReceived_slave {domain : Byte} (offset : Int) (delay : Nat) (diff : Int) (hq : s.boot.quiet = false)
    (hd : domain.toNat = s.nat Ix.ptpDomain inst.val) (hl : (ptpOf s inst.val).slave = leg.val)
    (hst : ptpLegState s inst.val (ptpOf s inst.val) (ptpOf s inst.val).slave leg.val = 9) :
    exec (.ptpSyncReceived inst leg domain offset delay diff) s =
      let k := 2 * inst.val + leg.val
      let x := offset - s.int Ix.ptpAsym k
      .next (refPhase (markValid (syncMeasured s inst.val k x delay { ptpOf s inst.val with diff := diff, valid := true }) inst.val)
        inst.val (x + (ptpOf s inst.val).bias)) := by
  change execPtpSyncReceived inst leg domain offset delay diff s = _
  unfold execPtpSyncReceived
  rw [if_neg (by rw [hq]; exact Bool.false_ne_true)]
  dsimp only
  rw [hst, hd, if_neg (by simp), hl, beq_self_eq_true, Bool.or_true]
  rfl

theorem ptpSyncReceived_passive {domain : Byte} (offset : Int) (delay : Nat) (diff : Int) (hq : s.boot.quiet = false)
    (hd : domain.toNat = s.nat Ix.ptpDomain inst.val) (hl : (ptpOf s inst.val).slave ≠ leg.val)
    (hst : ptpLegState s inst.val (ptpOf s inst.val) (ptpOf s inst.val).slave leg.val = 7) :
    exec (.ptpSyncReceived inst leg domain offset delay diff) s =
      let k := 2 * inst.val + leg.val
      .next (syncMeasured s inst.val k (offset - s.int Ix.ptpAsym k) delay { ptpOf s inst.val with diff := diff }) := by
  change execPtpSyncReceived inst leg domain offset delay diff s = _
  unfold execPtpSyncReceived
  rw [if_neg (by rw [hq]; exact Bool.false_ne_true)]
  dsimp only
  rw [hst, hd, if_neg (by simp), beq_false_of_ne hl, Bool.or_false]
  rfl

theorem ptpAnnounceReceived_heard {a : Announce} {b : List Byte} (hq : s.boot.quiet = false)
    (hd : a.domain.toNat = s.nat Ix.ptpDomain inst.val) (h0 : s.nat Ix.ptpRole inst.val ≠ 0) (h3 : s.nat Ix.ptpRole inst.val ≠ 3)
    (hlink : linkUp s (2 * inst.val + leg.val) = true) (hown : a.sender.toNat ≠ ptpIdentity s inst.val) (htlv : a.tlv = some b) :
    exec (.ptpAnnounceReceived inst leg a) s =
      .next ((ptpDecide s inst.val (ptpHearing (ptpOf s inst.val) leg.val (some (announceData a)))).setObj
        Ix.ptpSmRx inst.val (.bytes b)) := by
  change execPtpAnnounceReceived inst leg a s = _
  unfold execPtpAnnounceReceived
  rw [if_neg (by rw [hq]; exact Bool.false_ne_true)]
  dsimp only
  rw [if_neg (by simp [hd, h0, h3, hlink, hown]), htlv]
  rfl

theorem ptpAnnounceTimeout_eq (hq : s.boot.quiet = false) : ∃ c detail, exec (.ptpAnnounceTimeout inst leg) s =
    .next ((ptpDecide s inst.val (ptpHearing (ptpOf s inst.val) leg.val none)).alarmIf c
      (Al.ptpAnnounceTimeout.src (0x10 + inst.val)) detail) :=
  ⟨_, _, if_neg (by rw [hq]; exact Bool.false_ne_true)⟩

end

end Sys2Proof.Machine

open Sys2Proof Sys2Proof.Machine

/-- Settles O36, message by message: a Sync measures (`SyncMeasured`) and reaches reference selection from the slave leg (`PhaseTaken`);
an Announce, and a leg that falls silent, leave the decision of the best master clock algorithm (`PtpDecided`). -/
theorem ptpMessagesMoveTheirInstance : Obligations.PtpMessagesMoveTheirInstance := by
  unfold Obligations.PtpMessagesMoveTheirInstance
  intro s inst leg hq i k p data rest
  have hdata (t : State) : data t = ptpLeg (ptpOf t i) leg.val := rfl
  refine ⟨fun domain offset delay diff hd => ?_, fun a b hd h0 h3 hlink hown htlv => ?_, fun _ => ?_⟩
  · intro x measured
    refine ⟨fun hl hst hp => ?_, fun hl hst => ?_⟩
    · let q : PtpInst := { p with diff := diff, valid := true }
      have hm := syncMeasured_measured s i k x delay q
      let u := markValid (syncMeasured s i k x delay q) i
      have hu : TimeWork [Ix.ptpState] (syncMeasured s i k x delay q) u := (TimeWork.refl _ _).setObj (by decide) _ _
      have huref : u.ref = s.ref := (setNat_ref ..).trans hm.ref
      have ht := refPhase_taken (s := u) (k := i) (by rw [candOf_of_ref huref]; exact hp) (x + p.bias)
      have hptp (j : Nat) : ptpOf (refPhase u i (x + p.bias)) j = ptpOf (syncMeasured s i k x delay q) j :=
        ptpOf_of_tim (ht.tim.trans (setNat_tim ..)) j
      have hcarries : carriesTime i = true := (show ∀ n : Fin 2, carriesTime n.val = true by decide) inst
      refine ⟨_, ptpSyncReceived_slave offset delay diff hq hd hl hst,
        ⟨fun j hj => (hptp j).trans (hm.others j hj), ?_, ?_, ?_⟩, ⟨?_, ?_, ?_⟩, ?_, ?_, ?_⟩
      · exact ht.engines.trans (hu.engines.trans hm.engines)
      · exact ht.lat.trans (hu.lat.trans hm.lat)
      · exact ht.out.trans (hu.out.trans hm.out)
      · exact (ht.int rfl (by decide) k).trans ((hu.int rfl (by decide) k).trans hm.offset)
      · exact (ht.nat rfl (by decide) k).trans ((hu.nat rfl (by decide) k).trans hm.delay)
      · exact congrArg PtpInst.diff ((hptp i).trans hm.inst)
      · exact congrArg PtpInst.valid ((hptp i).trans hm.inst)
      · exact (congrArg (·.testBit 9) (ht.nat rfl (by decide) i)).trans (testBit_markValid ..)
      · exact ht.fresh.trans ((if_pos hcarries).trans (congrArg some (nearPhase_of_carries u hcarries _)))
    · have hm := syncMeasured_measured s i k x delay { p with diff := diff }
      exact ⟨_, ptpSyncReceived_passive offset delay diff hq hd hl hst, ⟨hm.others, hm.engines, hm.lat, hm.out⟩,
        ⟨hm.offset, hm.delay, congrArg PtpInst.diff hm.inst⟩, hm.ref⟩
  · have h := ptpDecide_decided s i (ptpHearing p leg.val (some (announceData a)))
    have htim := setObj_tim (ptpDecide s i (ptpHearing p leg.val (some (announceData a)))) Ix.ptpSmRx i (.bytes b)
    refine ⟨_, ptpAnnounceReceived_heard hq hd h0 h3 hlink hown htlv,
      ⟨fun j hj => (ptpOf_of_tim htim j).trans (h.others j hj), (setObj_engines ..).trans h.engines, (setObj_lat ..).trans h.lat,
        (setObj_out ..).trans h.out⟩, ?_, obj_setObj_self ..⟩
    rw [hdata, ptpOf_of_tim htim, h.leg, ptpLeg_ptpHearing, ptpGate_runs h0 hq hlink]
  · obtain ⟨c, detail, heq⟩ := ptpAnnounceTimeout_eq (s := s) (inst := inst) (leg := leg) hq
    have h := ptpDecide_decided s i (ptpHearing p leg.val none)
    have hlog := alarmIf_logOnly (ptpDecide s i (ptpHearing p leg.val none)) c (Al.ptpAnnounceTimeout.src (0x10 + i)) detail
    refine ⟨_, heq, ⟨fun j hj => (ptpOf_of_tim hlog.tim j).trans (h.others j hj), hlog.engines.trans h.engines, hlog.lat.trans h.lat,
      hlog.out.trans h.out⟩, ?_, ?_⟩
    · rw [hdata, ptpOf_of_tim hlog.tim, h.leg, ptpLeg_ptpHearing, ptpGate_none]
    · rw [ptpOf_of_tim hlog.tim]
      exact h.slave leg (ptpLeg_ptpHearing ..)
end

section
/-! How the candidates are judged (R281, R286, R288 to R290): what an average, a verdict of absence and a qualification change, of
the candidate judged and of the others. -/

namespace Sys2Proof.Machine

/-! ### What a second leaves of the candidates that it does not judge -/

/-- The registers that the averages of a second may change. -/
def secondIx : List Nat := [Ix.refState, Ix.refQl, Ix.refFreq, Ix.refHoldEst, Ix.refHoldValid, Ix.timeRate]

/-- From `s` to `t` candidate `k` is as present as before, with the same averages, and its REF_STATE and REF_FREQ are the same. -/
structure SameReport (k : Nat) (s t : State) : Prop where
  present : (candOf t k).present = (candOf s k).present
  avgs : (candOf t k).avgs = (candOf s k).avgs
  state : t.nat Ix.refState k = s.nat Ix.refState k
  freq : t.int Ix.refFreq k = s.int Ix.refFreq k

/-- From `s` to `t` a second's averages have been at work: the frequency of the oscillator stays, and of the six candidates only
those of `ks` may have been judged. -/
structure SecondWork (ks : List Nat) (s t : State) : Prop extends TimeWork secondIx s t where
  osc : t.ref.osc = s.ref.osc
  report : ∀ k, k < 6 → k ∉ ks → SameReport k s t

/-- Registers of two candidates are different registers. -/
theorem objKey_ne_cand {j k : Nat} (hj : j < 6) (hk : k < 6) (h : j ≠ k) (ix jx : Nat) : objKey ix j ≠ objKey jx k := by
  unfold objKey
  omega

section
variable {l ks js : List Nat} {k : Nat} {s t u : State}

/-- What writes neither REF_STATE nor REF_FREQ leaves the reports, where it leaves the candidates present with their averages. -/
theorem TimeWork.sameReport (h : TimeWork l s t) (hstate : Ix.refState ∉ l) (hfreq : Ix.refFreq ∉ l)
    (hpresent : (candOf t k).present = (candOf s k).present) (havgs : (candOf t k).avgs = (candOf s k).avgs) : SameReport k s t :=
  ⟨hpresent, havgs, h.nat rfl hstate k, h.int rfl hfreq k⟩

theorem SecondWork.refl (ks : List Nat) (s : State) : SecondWork ks s s :=
  ⟨TimeWork.refl _ s, rfl, fun _ _ _ => ⟨rfl, rfl, rfl, rfl⟩⟩

theorem SecondWork.trans (h : SecondWork ks s t) (g : SecondWork ks t u) : SecondWork ks s u := by
  refine ⟨h.toTimeWork.trans g.toTimeWork, g.osc.trans h.osc, fun k hk hks => ?_⟩
  have h1 := h.report k hk hks
  have h2 := g.report k hk hks
  exact ⟨h2.present.trans h1.present, h2.avgs.trans h1.avgs, h2.state.trans h1.state, h2.freq.trans h1.freq⟩

/-- More candidates may have been judged. -/
theorem SecondWork.widen (h : SecondWork js s t) (hjs : js ⊆ ks) : SecondWork ks s t :=
  ⟨h.toTimeWork, h.osc, fun k hk hks => h.report k hk fun hj => hks (hjs hj)⟩

theorem SecondWork.ite {c : Prop} [Decidable c] (ht : SecondWork ks s t) (hu : SecondWork ks s u) :
    SecondWork ks s (if c then t else u) := by
  split
  · exact ht
  · exact hu

theorem SecondWork.foldl {f : State → Nat → State} (as : List Nat) (hf : ∀ t, ∀ a ∈ as, SecondWork ks t (f t a)) (s : State) :
    SecondWork ks s (as.foldl f s) := by
  induction as generalizing s with
  | nil => exact SecondWork.refl ks s
  | cons a as ih =>
    exact (hf s a List.mem_cons_self).trans (ih (fun t b hb => hf t b (List.mem_cons_of_mem a hb)) (f s a))

/-- What writes F_h and the rate word judges no candidate. -/
theorem SecondWork.of_timeWork (h : TimeWork [Ix.refHoldEst, Ix.refHoldValid, Ix.timeRate] s t) (hosc : t.ref.osc = s.ref.osc)
    (hpresent : ∀ k, (candOf t k).present = (candOf s k).present) (havgs : ∀ k, (candOf t k).avgs = (candOf s k).avgs) :
    SecondWork ks s t :=
  ⟨h.widen (by decide), hosc, fun k _ _ => h.sameReport (by decide) (by decide) (hpresent k) (havgs k)⟩

theorem LogOnly.secondWork (h : LogOnly s t) : SecondWork ks s t :=
  SecondWork.of_timeWork (h.timeWork _) (congrArg RefSt.osc h.ref) (fun k => congrArg Cand.present (candOf_of_ref h.ref k))
    (fun k => congrArg Cand.avgs (candOf_of_ref h.ref k))

theorem SecondWork.alarm (h : SecondWork ks s t) (a : AlarmId) (detail : Nat) : SecondWork ks s (t.alarm a detail) :=
  h.trans (alarm_logOnly t a detail).secondWork

theorem SecondWork.alarmIf (h : SecondWork ks s t) (c : Bool) (a : AlarmId) (detail : Nat) : SecondWork ks s (t.alarmIf c a detail) :=
  h.trans (alarmIf_logOnly t c a detail).secondWork

theorem SecondWork.setCand (h : SecondWork ks s t) (hk : k ∈ ks) (c : Cand) : SecondWork ks s (setCand t k c) := by
  refine h.trans ⟨timeWork_of_dict _ rfl rfl rfl rfl rfl rfl, rfl, fun j _ hj => ?_⟩
  have hc : candOf (Machine.setCand t k c) j = candOf t j := candOf_setCand_ne t (ne_of_mem_of_not_mem hk hj).symm c
  exact ⟨congrArg Cand.present hc, congrArg Cand.avgs hc, rfl, rfl⟩

/-- A register of a candidate that is judged. -/
theorem SecondWork.setObj (h : SecondWork ks s t) {ix : Nat} (hx : ix ∈ secondIx) (hk : k < 6) (hks : k ∈ ks) (v : Val) :
    SecondWork ks s (t.setObj ix k v) := by
  refine h.trans ⟨(TimeWork.refl _ t).setObj hx k v, congrArg RefSt.osc (setObj_ref ..), fun j hj hjs => ?_⟩
  have hne (jx : Nat) : objKey jx j ≠ objKey ix k := objKey_ne_cand hj hk (ne_of_mem_of_not_mem hks hjs).symm jx ix
  have hc := candOf_of_ref (setObj_ref t ix k v) j
  refine ⟨congrArg Cand.present hc, congrArg Cand.avgs hc, nat_setObj_ne t (hne _) v, ?_⟩
  unfold State.int
  rw [obj_setObj_ne t (hne _)]

end

/-! ### Absence (R281, R290) -/

section
variable (s : State) (k : Nat) (coarse : Bool)

theorem refFails_work : CandWork [Ix.refState, Ix.refQl] k s (refFails s k coarse) := by
  have hcand (c : Cand) := (CandWork.refl [Ix.refState, Ix.refQl] k s).setCand c
  unfold refFails setRefReason
  exact (hcand _).ite ((((hcand _).setObj (by decide) _ _).setObj (by decide) _ _).alarm _ _)

theorem refFails_secondWork {k : Nat} (hk : k < 6) : SecondWork [k] s (refFails s k coarse) := by
  have hself : k ∈ [k] := List.mem_singleton_self k
  have hcand (c : Cand) := (SecondWork.refl [k] s).setCand hself c
  unfold refFails setRefReason
  exact (hcand _).ite ((((hcand _).setObj (by decide) hk hself _).setObj (by decide) hk hself _).alarm _ _)

theorem present_refFails : (candOf (refFails s k coarse) k).present = false := by
  unfold refFails setRefReason
  dsimp only
  split
  · rw [candOf_setCand_self]
    rfl
  · rw [candOf_of_ref (alarm_logOnly ..).ref, candOf_of_ref (setNat_ref ..), candOf_of_ref (setNat_ref ..), candOf_setCand_self]
    rfl

/-- A candidate that was not ABSENT reports why it has become so: a monitor of R281, and no level. -/
theorem refFails_reports {s : State} {k : Nat} (h : refState s k ≠ 0) :
    (refFails s k coarse).nat Ix.refState k = 16 ∧ (refFails s k coarse).nat Ix.refQl k = 15 := by
  unfold refFails setRefReason
  dsimp only
  rw [if_neg h, (alarm_logOnly ..).nat rfl, (alarm_logOnly ..).nat rfl, nat_setNat_self,
    nat_setNat_ne _ (objKey_ne_index (by decide)), nat_setNat_self]
  exact ⟨rfl, rfl⟩

/-- A candidate that fails a monitor is ABSENT; one that was so stays so. -/
theorem refState_refFails : refState (refFails s k coarse) k = 0 := by
  by_cases h : refState s k = 0
  · unfold refFails
    dsimp only
    rw [if_pos h]
    exact h
  · unfold refState
    rw [(refFails_reports coarse h).1]

end

theorem refAbsent_eq {s : State} {ref : Fin 6} (h : (candOf s ref.val).present = true) :
    exec (.refAbsent ref) s = .next (refLost s ref.val) :=
  congrArg Host.Outcome.next (if_pos h)

/-! ### Qualification (R290) -/

/-- A candidate that meets every condition of eligibility, and has met them for REF_QUAL_TIME, becomes ELIGIBLE. -/
theorem refQualified_eligible {s : State} {ref : Fin 6} (hstate : refState s ref.val = 1) (hpresent : (candOf s ref.val).present = true)
    (havgs : (candOf s ref.val).avgs ≠ []) (hreason : refReason (s.setNat Ix.refQl ref.val (levelOf s ref.val)) ref.val = none)
    (hpassed : (candOf s ref.val).since + s.nat Ix.refQualTime * 1000000000 ≤ s.clk.sysCounter) :
    exec (.refQualified ref) s = .next (setRefState (s.setNat Ix.refQl ref.val (levelOf s ref.val)) ref.val 2) := by
  change execRefQualified ref s = _
  unfold execRefQualified
  dsimp only
  rw [if_pos hpresent]
  refine if_pos ⟨hstate, hpresent, decide_eq_true hpassed, ?_, by rw [hreason]; rfl⟩
  rw [List.isEmpty_eq_false_iff.mpr havgs]
  rfl

/-! ### One candidate's average (R281, R286, R288) -/

section
variable {s : State} {k : Nat}

theorem startQualify_secondWork (s : State) (hk : k < 6) : SecondWork [k] s (startQualify s k) :=
  ((SecondWork.refl _ s).setCand (List.mem_singleton_self k) _).setObj (by decide) hk (List.mem_singleton_self k) _

theorem refPresent_secondWork (s : State) (hk : k < 6) : SecondWork [k] s (refPresent s k) := by
  have hcand (c : Cand) := (SecondWork.refl [k] s).setCand (List.mem_singleton_self k) c
  unfold refPresent
  exact (SecondWork.refl _ s).ite ((hcand _).ite (((hcand _).trans (startQualify_secondWork _ hk)).ite (hcand _)))

theorem avgs_refPresent (s : State) (k : Nat) : (candOf (refPresent s k) k).avgs = (candOf s k).avgs := by
  unfold refPresent startQualify setRefState
  dsimp only
  split
  · rfl
  · split
    · rw [candOf_setCand_self]
    · split
      · rw [candOf_of_ref (setNat_ref ..), candOf_setCand_self, candOf_setCand_self]
      · rw [candOf_setCand_self]

theorem refMonitors_secondWork (s : State) (hk : k < 6) (avg : Int) : SecondWork [k] s (refMonitors s k avg) := by
  have hself : k ∈ [k] := List.mem_singleton_self k
  exact ((((SecondWork.refl [k] s).setObj (by decide) hk hself _).setCand hself _).alarmIf _ _ _).alarmIf _ _ _

/-- An average enters the last ten of a candidate, whose presence stays. -/
theorem candOf_refMonitors (s : State) (k : Nat) (avg : Int) : (candOf (refMonitors s k avg) k).present = (candOf s k).present ∧
    (candOf (refMonitors s k avg) k).avgs = (avg :: (candOf s k).avgs).take 10 := by
  unfold refMonitors
  dsimp only
  rw [candOf_of_ref (alarmIf_logOnly ..).ref, candOf_of_ref (alarmIf_logOnly ..).ref, candOf_setCand_self]
  exact ⟨rfl, rfl⟩

theorem refFreq_refMonitors (s : State) (k : Nat) (avg : Int) : (refMonitors s k avg).int Ix.refFreq k = hold32 avg := by
  unfold refMonitors State.int
  dsimp only
  rw [(alarmIf_logOnly ..).obj _ _ rfl, (alarmIf_logOnly ..).obj _ _ rfl]
  exact int_setInt_self ..

/-- What an average `a` of candidate `k` does: outside the coarse window it is absent; inside, the average counts where the
candidate is present or carries no time of day (R281, R286). -/
structure Averaged (k : Nat) (a : Int) (s t : State) : Prop where
  outside : coarseWin k < a.natAbs → (candOf t k).present = false ∧ t.int Ix.refFreq k = hold32 a ∧ refState t k = 0
  inside : a.natAbs ≤ coarseWin k → (carriesTime k = false ∨ (candOf s k).present = true) →
    (candOf t k).present = true ∧ (candOf t k).avgs = (a :: (candOf s k).avgs).take 10 ∧ t.int Ix.refFreq k = hold32 a

/-- What follows an average without judging the candidate again leaves its outcome. -/
theorem Averaged.later {a : Int} {t u : State} (h : Averaged k a s t) (g : SameReport k t u) : Averaged k a s u := by
  have hstate : refState u k = refState t k := congrArg (· % 8) g.state
  constructor
  · rw [g.present, g.freq, hstate]
    exact h.outside
  · rw [g.present, g.avgs, g.freq]
    exact h.inside

/-- What comes before it does not matter either. -/
theorem Averaged.earlier {a : Int} {r t : State} (h : Averaged k a s t) (g : SameReport k r s) : Averaged k a r t := by
  refine ⟨h.outside, ?_⟩
  rw [← g.present, ← g.avgs]
  exact h.inside

/-- An average in its window clears the verdict of the coarse monitor; where there is activity the candidate is then present
(R281). -/
def withinCoarse (s : State) (k : Nat) : State :=
  let s1 := setCand s k { candOf s k with coarse := false }
  if carriesTime k && !(candOf s1 k).active then s1 else refPresent s1 k

theorem refAverage_eq (s : State) (k : Nat) (a : Int) : refAverage s k a =
    if coarseWin k < a.natAbs then refFails (s.setInt Ix.refFreq k (hold32 a)) k true
    else if (candOf (withinCoarse s k) k).present then refMonitors (withinCoarse s k) k a else withinCoarse s k := rfl

theorem withinCoarse_secondWork (s : State) (hk : k < 6) : SecondWork [k] s (withinCoarse s k) := by
  have hcand := (SecondWork.refl [k] s).setCand (List.mem_singleton_self k) { candOf s k with coarse := false }
  exact hcand.ite (hcand.trans (refPresent_secondWork _ hk))

theorem withinCoarse_present (h : carriesTime k = false ∨ (candOf s k).present = true) :
    (candOf (withinCoarse s k) k).present = true ∧ (candOf (withinCoarse s k) k).avgs = (candOf s k).avgs := by
  unfold withinCoarse
  dsimp only
  split
  case isTrue hidle =>
    have hcarries : carriesTime k = true := (Bool.and_eq_true_iff.mp hidle).1
    rw [candOf_setCand_self]
    exact ⟨h.resolve_left (by rw [hcarries]; decide), rfl⟩
  case isFalse =>
    refine ⟨(refPresent_present (Or.inr ?_)).1, ?_⟩
    · rw [candOf_setCand_self]
    · rw [avgs_refPresent, candOf_setCand_self]

theorem refAverage_secondWork (s : State) (hk : k < 6) (a : Int) : SecondWork [k] s (refAverage s k a) := by
  have hfreq : SecondWork [k] s (s.setInt Ix.refFreq k (hold32 a)) :=
    (SecondWork.refl [k] s).setObj (by decide) hk (List.mem_singleton_self k) _
  have hwithin := withinCoarse_secondWork s hk
  rw [refAverage_eq]
  exact (hfreq.trans (refFails_secondWork _ true hk)).ite ((hwithin.trans (refMonitors_secondWork _ hk a)).ite hwithin)

theorem refAverage_averaged (s : State) (k : Nat) (a : Int) : Averaged k a s (refAverage s k a) := by
  rw [refAverage_eq]
  refine ⟨fun hout => ?_, fun hin hcounts => ?_⟩
  · rw [if_pos hout]
    refine ⟨present_refFails .., ?_, refState_refFails ..⟩
    rw [(refFails_work ..).int rfl (by decide), int_setInt_self]
  · obtain ⟨hpresent, havgs⟩ := withinCoarse_present hcounts
    obtain ⟨hp, ha⟩ := candOf_refMonitors (withinCoarse s k) k a
    rw [if_neg (Nat.not_lt.mpr hin), if_pos hpresent]
    exact ⟨hp.trans hpresent, by rw [ha, havgs], refFreq_refMonitors ..⟩

end

/-! ### The averages of a second (R286 to R289) -/

/-- The average that a second has given of a candidate, where it has given one. -/
def averageOf (avgs : List (Option Int)) (s : State) (k : Nat) : State :=
  match listGet none k avgs with
  | some a => refAverage s k a
  | none => s

theorem averageOf_some {avgs : List (Option Int)} {k : Nat} {a : Int} (h : listGet none k avgs = some a) (s : State) :
    averageOf avgs s k = refAverage s k a := by
  unfold averageOf
  rw [h]

theorem averageOf_secondWork (avgs : List (Option Int)) (s : State) {k : Nat} (hk : k < 6) :
    SecondWork [k] s (averageOf avgs s k) := by
  unfold averageOf
  split
  · exact refAverage_secondWork s hk _
  · exact SecondWork.refl _ s

theorem foldl_averageOf_secondWork (avgs : List (Option Int)) {ks : List Nat} (hks : ∀ j ∈ ks, j < 6) (s : State) :
    SecondWork ks s (ks.foldl (averageOf avgs) s) :=
  SecondWork.foldl ks (fun t j hj => (averageOf_secondWork avgs t (hks j hj)).widen
    (List.cons_subset.mpr ⟨hj, List.nil_subset ks⟩)) s

/-- Candidates are judged one after another, each on its own average. -/
theorem foldl_averageOf_averaged {avgs : List (Option Int)} {k : Nat} {a : Int} (h : listGet none k avgs = some a) {ks : List Nat}
    (hks : ∀ j ∈ ks, j < 6) (hnodup : ks.Nodup) (hk : k ∈ ks) (s : State) : Averaged k a s (ks.foldl (averageOf avgs) s) := by
  obtain ⟨before, after, rfl⟩ := List.append_of_mem hk
  have hmid := (List.nodup_middle.mp hnodup).notMem
  have hbefore : SameReport k s (before.foldl (averageOf avgs) s) :=
    (foldl_averageOf_secondWork avgs (fun j hj => hks j (List.mem_append_left _ hj)) s).report k (hks k hk)
      fun h => hmid (List.mem_append_left after h)
  have hafter (t : State) : SameReport k t (after.foldl (averageOf avgs) t) :=
    (foldl_averageOf_secondWork avgs (fun j hj => hks j (List.mem_append_right _ (List.mem_cons_of_mem k hj))) t).report k
      (hks k hk) fun h => hmid (List.mem_append_right before h)
  rw [List.foldl_append, List.foldl_cons, averageOf_some h]
  exact ((refAverage_averaged _ k a).earlier hbefore).later (hafter _)

/-- The comparison of candidates of equal priority (R289) notes who disagrees, and no more. -/
theorem refRank_secondWork (s : State) : SecondWork [] s (refRank s) := by
  refine SecondWork.foldl _ (fun t k _ => SecondWork.alarmIf ?_ _ _ _) s
  let c : Cand := { candOf t k with disagree := refDisagrees s k }
  have hsame (j : Nat) : (candOf (setCand t k c) j).present = (candOf t j).present ∧
      (candOf (setCand t k c) j).avgs = (candOf t j).avgs := by
    by_cases h : j = k
    · rw [h, candOf_setCand_self]
      exact ⟨rfl, rfl⟩
    · rw [candOf_setCand_ne t h]
      exact ⟨rfl, rfl⟩
  exact SecondWork.of_timeWork (timeWork_of_dict _ rfl rfl rfl rfl rfl rfl) rfl (fun j => (hsame j).1) (fun j => (hsame j).2)

/-- A sample of the active reference (R287) changes its history and F_h. -/
theorem refSample_secondWork (s : State) (avgs : List (Option Int)) : SecondWork [] s (refSample s avgs) := by
  have hkept : SecondWork [] s s := SecondWork.refl [] s
  have haccepted (h : List Int) (n : Nat) (f : Int) (valid : Bool) : SecondWork [] s (({ s with ref := { s.ref with
      hist := h, accepted := n } }.setInt Ix.refHoldEst 0 f).setFlag Ix.refHoldValid 0 valid) := by
    let s1 : State := { s with ref := { s.ref with hist := h, accepted := n } }
    have hw : TimeWork [Ix.refHoldEst, Ix.refHoldValid, Ix.timeRate] s s1 := timeWork_of_dict _ rfl rfl rfl rfl rfl rfl
    have href : ((s1.setInt Ix.refHoldEst 0 f).setFlag Ix.refHoldValid 0 valid).ref = s1.ref :=
      (setFlag_ref ..).trans (setInt_ref ..)
    refine SecondWork.of_timeWork ((hw.setObj (by decide) 0 _).setObj (by decide) 0 _) ((congrArg RefSt.osc href).trans rfl) ?_ ?_
    · exact fun k => congrArg Cand.present (candOf_of_ref href k)
    · exact fun k => congrArg Cand.avgs (candOf_of_ref href k)
  unfold refSample
  split
  · exact hkept
  · dsimp only
    split
    · exact hkept
    · exact hkept.ite (haccepted _ _ _ _)

end Sys2Proof.Machine
end

section
/-! Holdover (R285 to R287, R295), and the command of a second's averages, which the time base follows in holdover: the rate word
follows the oscillator in use at F_h, the OCXO is lost and returns, and the level of the unit falls when REF_HOLD_SPEC expires. -/

namespace Sys2Proof.Machine

/-! ### The oscillator in use (R286, R287, R295) -/

section
variable {l : List Nat} {s t : State}

theorem TimeWork.inHoldover (h : TimeWork l s t) (hl : Ix.refActive ∉ l) : inHoldover t = inHoldover s := by
  unfold Machine.inHoldover
  rw [h.nat rfl hl]

theorem TimeWork.holdRate (h : TimeWork l s t) (hest : Ix.refHoldEst ∉ l) (hosc : Ix.refHoldOsc ∉ l) (href : t.ref = s.ref) :
    holdRate t = holdRate s := by
  unfold Machine.holdRate holdEst
  rw [h.int rfl hest, h.nat rfl hosc, href]

end

theorem holdFollow_work (s : State) : TimeWork [Ix.timeRate] s (holdFollow s) := by
  have hest : TimeWork [Ix.timeRate] s { s with tim := { s.tim with est := holdRate s } } :=
    timeWork_of_dict _ rfl rfl rfl rfl rfl rfl
  exact (hest.trans (setRho_work _)).ite (TimeWork.refl _ s)

@[simp] theorem holdFollow_ref (s : State) : (holdFollow s).ref = s.ref := by
  unfold holdFollow
  split
  · exact setRho_ref _
  · rfl

/-- In holdover the frequency part of the rate word is that of the oscillator in use at F_h. -/
theorem est_holdFollow {s : State} (h : inHoldover s = true) : (holdFollow s).tim.est = holdRate (holdFollow s) := by
  rw [(holdFollow_work s).holdRate (by decide) (by decide) (holdFollow_ref s)]
  unfold holdFollow
  rw [if_pos h, setRho_tim]

/-- With a reference the time base does not follow the oscillator. -/
theorem holdFollow_eq_self {s : State} (h : inHoldover s = false) : holdFollow s = s := by
  unfold holdFollow
  rw [h]
  rfl

/-- The state `r` of the references has been put in place, and in holdover the time base has followed it. -/
structure HoldFollows (s : State) (r : RefSt) (t : State) : Prop extends TimeWork [Ix.timeRate] s t where
  ref : t.ref = r
  follows : inHoldover s = true → t.tim.est = holdRate t
  stays : inHoldover s = false → t.tim = s.tim

theorem holdFollow_follows {s t : State} {r : RefSt} (h : LogOnly { s with ref := r } t) : HoldFollows s r (holdFollow t) := by
  have hput : TimeWork [] s t :=
    TimeWork.trans (timeWork_of_dict (t := { s with ref := r }) [] rfl rfl rfl rfl rfl rfl) (h.timeWork [])
  have hhold : inHoldover t = inHoldover s := hput.inHoldover (by decide)
  refine ⟨(hput.widen (by decide)).trans (holdFollow_work t), ?_, fun hin => ?_, fun hout => ?_⟩
  · rw [holdFollow_ref, h.ref]
  · exact est_holdFollow (hhold.trans hin)
  · rw [holdFollow_eq_self (hhold.trans hout), h.tim]

theorem holdOscActivityLoss_eq {s : State} (hosc : s.nat Ix.refHoldOsc ≠ 0) (hlost : s.ref.oscLost = false) :
    exec .holdOscActivityLoss s =
      .next (holdFollow ({ s with ref := { s.ref with oscLost := true } }.alarm Al.holdOscLost)) := by
  refine if_neg ?_
  rw [hlost]
  exact fun h => h.elim hosc Bool.false_ne_true

theorem holdOscReturn_eq {s : State} (h : s.ref.oscLost = true) :
    exec .holdOscReturn s = .next (holdFollow { s with ref := { s.ref with oscLost := false } }) :=
  congrArg Host.Outcome.next (if_pos h)

/-! ### The averages as a command -/

/-- The candidates judged and compared, and the sample of the active reference taken. -/
def secondJudged (s : State) (avgs : List (Option Int)) (osc : Int) : State :=
  refSample (refRank ((upFrom 0 6).foldl (averageOf avgs) { s with ref := { s.ref with osc := osc } })) avgs

/-- What the command leaves; no switch has taken place since. -/
def secondOver (s : State) (avgs : List (Option Int)) (osc : Int) : State :=
  holdFollow { secondJudged s avgs osc with ref := { (secondJudged s avgs osc).ref with switched := false } }

theorem refSecondAverage_eq (s : State) (avgs : List (Option Int)) (osc : Int) :
    exec (.refSecondAverage avgs osc) s = .next (secondOver s avgs osc) := by
  unfold secondOver secondJudged averageOf
  rfl

section
variable (s : State) (avgs : List (Option Int)) (osc : Int)

/-- After the candidates have been judged none of them is judged again. -/
theorem secondOver_unjudged : SecondWork []
    ((upFrom 0 6).foldl (averageOf avgs) { s with ref := { s.ref with osc := osc } }) (secondOver s avgs osc) := by
  let s1 : State := { secondJudged s avgs osc with ref := { (secondJudged s avgs osc).ref with switched := false } }
  have hover : SecondWork [] (secondJudged s avgs osc) s1 :=
    SecondWork.of_timeWork (timeWork_of_dict _ rfl rfl rfl rfl rfl rfl) rfl (fun _ => rfl) (fun _ => rfl)
  have hfollow : SecondWork [] s1 (holdFollow s1) :=
    have hc (k : Nat) : candOf (holdFollow s1) k = candOf s1 k := candOf_of_ref (holdFollow_ref s1) k
    SecondWork.of_timeWork ((holdFollow_work s1).widen (by decide)) (congrArg RefSt.osc (holdFollow_ref s1))
      (fun k => congrArg Cand.present (hc k)) (fun k => congrArg Cand.avgs (hc k))
  exact (((refRank_secondWork _).trans (refSample_secondWork _ avgs)).trans hover).trans hfollow

theorem secondOver_work : SecondWork (upFrom 0 6) { s with ref := { s.ref with osc := osc } } (secondOver s avgs osc) :=
  (foldl_averageOf_secondWork avgs (show ∀ j ∈ upFrom 0 6, j < 6 by decide) _).trans
    ((secondOver_unjudged s avgs osc).widen (List.nil_subset _))

theorem secondOver_switched : (secondOver s avgs osc).ref.switched = false := congrArg RefSt.switched (holdFollow_ref _)

/-- Each average of the second has judged its candidate. -/
theorem secondOver_averaged {avgs : List (Option Int)} {k : Fin 6} {a : Int} (h : listGet none k.val avgs = some a) :
    Averaged k.val a { s with ref := { s.ref with osc := osc } } (secondOver s avgs osc) :=
  (foldl_averageOf_averaged h (show ∀ j ∈ upFrom 0 6, j < 6 by decide) (by decide) (mem_upFrom.mpr (by omega)) _).later
    ((secondOver_unjudged s avgs osc).report k.val k.isLt List.not_mem_nil)

end

/-! ### REF_HOLD_SPEC (R285, R295) -/

/-- From `s` to `t` PTP has decided anew: the time base goes on, and so does REF_HOLD_SPEC. -/
structure PtpWork (s t : State) : Prop extends TimeWork ptpDecideIx s t where
  time : t.tim.t = s.tim.t
  rho : t.tim.rho = s.tim.rho
  specOver : t.ref.specOver = s.ref.specOver

theorem PtpWork.trans {s t u : State} (h : PtpWork s t) (g : PtpWork t u) : PtpWork s u :=
  ⟨h.toTimeWork.trans g.toTimeWork, g.time.trans h.time, g.rho.trans h.rho, g.specOver.trans h.specOver⟩

theorem specOver_refLost (s : State) (k : Nat) : (refLost s k).ref.specOver = s.ref.specOver := by
  unfold refLost refFails setRefReason
  dsimp only
  split
  · rfl
  · rw [(alarm_logOnly ..).ref, setNat_ref, setNat_ref]
    rfl

theorem specOver_ptpDecide (s : State) (i : Nat) (p0 : PtpInst) : (ptpDecide s i p0).ref.specOver = s.ref.specOver := by
  have hlogged (p : PtpInst) (code quality gm : Nat) (c d : Bool) (a b : AlarmId) (m n : Nat) :
      ((((((setPtp s i p).setNat Ix.ptpState i code).setNat Ix.ptpGmQuality i quality).setNat Ix.ptpGmId i gm).alarmIf
        c a m).alarmIf d b n).ref = s.ref := by
    rw [(alarmIf_logOnly ..).ref, (alarmIf_logOnly ..).ref, setNat_ref, setNat_ref, setNat_ref]
    rfl
  have hlost {c : Prop} [Decidable c] (t : State) : (if c then refLost t i else t).ref.specOver = t.ref.specOver := by
    split
    · exact specOver_refLost t i
    · rfl
  unfold ptpDecide
  dsimp only
  exact (hlost _).trans (congrArg RefSt.specOver (hlogged _ _ _ _ _ _ _ _ _ _))

theorem ptpDecide_ptpWork (s : State) (i : Nat) (p0 : PtpInst) : PtpWork s (ptpDecide s i p0) := by
  obtain ⟨p, htim, -⟩ := ptpDecide_tim s i p0
  exact ⟨ptpDecide_work s i p0, (congrArg TimeSt.t htim).trans rfl, (congrArg TimeSt.rho htim).trans rfl, specOver_ptpDecide s i p0⟩

/-- Both instances send the quality of the unit's new level. -/
theorem ptpQuality_ptpWork (s : State) : PtpWork s (ptpQuality s) := (ptpDecide_ptpWork s 0 _).trans (ptpDecide_ptpWork _ 1 _)

/-- In holdover, once REF_HOLD_SPEC has elapsed, the unit's own level is 11. -/
theorem ownLevel_specOver {s : State} (hhold : inHoldover s = true) (hover : s.ref.specOver = true) : ownLevel s = 11 := by
  have hnone : activeRef s = none := by
    unfold activeRef
    rw [eq_of_beq hhold]
    rfl
  unfold ownLevel
  simp only [hnone, hhold, hover, if_true]

/-- REF_HOLD_SPEC has elapsed, with the level reported and the alarm raised. -/
def specExpired (s : State) : State :=
  let s1 := { s with ref := { s.ref with specOver := true } }
  (s1.setNat Ix.refOwnQl 0 (ownLevel s1)).alarm Al.refHoldoverExpired

theorem refHoldSpecExpiry_eq {s : State} (hhold : inHoldover s = true) (hover : s.ref.specOver = false) :
    exec .refHoldSpecExpiry s = .next (ptpQuality (specExpired s)) := by
  refine if_pos ?_
  rw [hhold, hover]
  rfl

theorem specExpired_work (s : State) : TimeWork [Ix.refOwnQl] s (specExpired s) := by
  have hput : TimeWork [Ix.refOwnQl] s { s with ref := { s.ref with specOver := true } } :=
    timeWork_of_dict _ rfl rfl rfl rfl rfl rfl
  unfold specExpired
  exact (hput.setObj (by decide) _ _).alarm _ _

theorem specExpired_tim (s : State) : (specExpired s).tim = s.tim := (alarm_logOnly ..).tim.trans (setNat_tim ..)

theorem specExpired_specOver (s : State) : (specExpired s).ref.specOver = true :=
  congrArg RefSt.specOver ((alarm_logOnly ..).ref.trans (setNat_ref ..))

theorem refOwnQl_specExpired {s : State} (hhold : inHoldover s = true) : (specExpired s).nat Ix.refOwnQl = 11 := by
  unfold specExpired
  dsimp only
  rw [(alarm_logOnly ..).nat rfl, nat_setNat_self]
  exact ownLevel_specOver hhold rfl

end Sys2Proof.Machine

open Sys2Proof Sys2Proof.Machine

/-- Settles O38, command by command: the averages of a second (`SecondWork` and, candidate by candidate, `Averaged`), absence and
qualification, the end of REF_HOLD_SPEC (`PtpWork`), and the OCXO lost and returned (`HoldFollows`). -/
theorem candidatesAreJudged : Obligations.CandidatesAreJudged := by
  unfold Obligations.CandidatesAreJudged
  intro s rest
  have hrest {l : List Nat} {t : State} (h : TimeWork l s t) : rest t := ⟨h.engines, h.lat, h.out, h.clk⟩
  refine ⟨fun avgs osc => ?_, fun ref hp => ?_, fun ref hstate hp havgs hreason hpassed => ?_, fun hhold hover => ?_,
    fun hosc hlost => ?_, fun hlost => ?_⟩
  · have h := secondOver_work s avgs osc
    refine ⟨_, refSecondAverage_eq s avgs osc, ⟨h.engines, h.lat, h.out, h.clk⟩, h.osc, secondOver_switched s avgs osc,
      fun k a ha => ?_⟩
    have hk := secondOver_averaged s osc ha
    exact ⟨hk.outside, hk.inside⟩
  · have h := refLost_work s ref.val
    exact ⟨_, refAbsent_eq hp, hrest h.toTimeWork, h.tim, present_refFails s ref.val false, refState_refLost s ref.val, h.cands,
      refFails_reports false⟩
  · exact refQualified_eligible hstate hp havgs hreason hpassed
  · have hspec := specExpired_work s
    have hptp := ptpQuality_ptpWork (specExpired s)
    refine ⟨_, refHoldSpecExpiry_eq hhold hover, ⟨hptp.engines.trans hspec.engines, hptp.lat.trans hspec.lat,
      hptp.out.trans hspec.out, hptp.clk.trans hspec.clk⟩, ?_, ?_, ?_, ?_⟩
    · rw [hptp.time, specExpired_tim]
    · rw [hptp.rho, specExpired_tim]
    · rw [hptp.specOver, specExpired_specOver]
    · rw [hptp.nat rfl (by decide), refOwnQl_specExpired hhold]
  · have h := holdFollow_follows (alarm_logOnly { s with ref := { s.ref with oscLost := true } } Al.holdOscLost 0)
    exact ⟨_, holdOscActivityLoss_eq hosc hlost, hrest h.toTimeWork, h.ref, h.follows, h.stays⟩
  · have h := holdFollow_follows (LogOnly.refl { s with ref := { s.ref with oscLost := false } })
    exact ⟨_, holdOscReturn_eq hlost, hrest h.toTimeWork, h.ref, h.follows, h.stays⟩
end

section
/-! What an operation changes, said once for every operation of this part: the parts of the state a function forgets, the event
log, and the registers of the objects listed. -/

namespace Sys2Proof.Machine

/-- From `s` to `t` only the parts of the state that `f` forgets, the event log (with what its entries touch) and the registers
of the objects `l` have changed. -/
structure Changes (f : State → State) (l : List Nat) (s t : State) : Prop where
  part : f t.stripLog = f s.stripLog
  obj : ∀ {ix} sub, isLogIx ix = false → ix ∉ l → t.obj ix sub = s.obj ix sub

section
variable {f g : State → State} {l m : List Nat} {s t u : State}

theorem Changes.refl (f : State → State) (l : List Nat) (s : State) : Changes f l s s := ⟨rfl, fun _ _ _ => rfl⟩

theorem Changes.trans (h : Changes f l s t) (k : Changes f l t u) : Changes f l s u :=
  ⟨k.part.trans h.part, fun sub hlog hl => (k.obj sub hlog hl).trans (h.obj sub hlog hl)⟩

/-- More parts may be forgotten, and more registers may have changed. -/
theorem Changes.widen (h : Changes f l s t) (hg : ∀ r, g (f r) = g r) (hlm : l ⊆ m) : Changes g m s t :=
  ⟨(hg _).symm.trans ((congrArg g h.part).trans (hg _)), fun sub hlog hm => h.obj sub hlog fun hl => hm (hlm hl)⟩

theorem Changes.ite {c : Prop} [Decidable c] (ht : Changes f l s t) (hu : Changes f l s u) :
    Changes f l s (if c then t else u) := by
  split
  · exact ht
  · exact hu

theorem Changes.foldl {α : Type} {op : State → α → State} (as : List α) (h : Changes f l s t)
    (hop : ∀ r a, Changes f l r (op r a)) : Changes f l s (as.foldl op t) := by
  induction as generalizing t with
  | nil => exact h
  | cons a as ih => exact ih (h.trans (hop t a))

theorem Changes.setObj (h : Changes f l s t) {ix : Nat} (hx : ix ∈ l) (sub : Nat) (v : Val) : Changes f l s (t.setObj ix sub v) :=
  ⟨h.part, fun sub' hlog hl => (obj_setObj_ne t (objKey_ne_index fun e => hl (by rw [e]; exact hx)) v).trans (h.obj sub' hlog hl)⟩

theorem Changes.setNat (h : Changes f l s t) {ix : Nat} (hx : ix ∈ l) (sub n : Nat) : Changes f l s (t.setNat ix sub n) :=
  h.setObj hx sub _

theorem Changes.setInt (h : Changes f l s t) {ix : Nat} (hx : ix ∈ l) (sub : Nat) (n : Int) : Changes f l s (t.setInt ix sub n) :=
  h.setObj hx sub _

theorem Changes.addHold (h : Changes f l s t) {ix : Nat} (hx : ix ∈ l) (sub n : Nat) : Changes f l s (t.addHold ix sub n) :=
  h.setObj hx sub _

theorem Changes.addWrap (h : Changes f l s t) {ix : Nat} (hx : ix ∈ l) (sub n : Nat) : Changes f l s (t.addWrap ix sub n) :=
  h.setObj hx sub _

/-- A part that `f` forgets has been replaced. -/
theorem Changes.put (h : Changes f l s t) (hpart : f u.stripLog = f t.stripLog) (hdict : u.dict = t.dict) : Changes f l s u :=
  ⟨hpart.trans h.part, fun sub hlog hl => (obj_of_dict hdict _ sub).trans (h.obj sub hlog hl)⟩

theorem LogOnly.changes (h : LogOnly s t) (f : State → State) (l : List Nat) : Changes f l s t :=
  ⟨congrArg f h.same, fun sub hlog _ => h.obj _ sub hlog⟩

theorem Changes.alarm (h : Changes f l s t) (a : AlarmId) (detail : Nat) : Changes f l s (t.alarm a detail) :=
  h.trans ((alarm_logOnly t a detail).changes f l)

theorem Changes.alarmIf (h : Changes f l s t) (c : Bool) (a : AlarmId) (detail : Nat) : Changes f l s (t.alarmIf c a detail) :=
  h.trans ((alarmIf_logOnly t c a detail).changes f l)

/-- A part that `f` does not forget is as it was. -/
theorem Changes.read {α : Type} (h : Changes f l s t) (part : State → α) (hf : ∀ r, part (f r.stripLog) = part r) :
    part t = part s :=
  (hf t).symm.trans ((congrArg part h.part).trans (hf s))

theorem Changes.int (h : Changes f l s t) {ix : Nat} (hlog : isLogIx ix = false) (hl : ix ∉ l) (sub : Nat) :
    t.int ix sub = s.int ix sub := by
  unfold State.int
  rw [h.obj sub hlog hl]

theorem Changes.nat (h : Changes f l s t) {ix : Nat} (hlog : isLogIx ix = false) (hl : ix ∉ l) (sub : Nat) :
    t.nat ix sub = s.nat ix sub := by
  unfold State.nat
  rw [h.int hlog hl]

theorem Changes.flag (h : Changes f l s t) {ix : Nat} (hlog : isLogIx ix = false) (hl : ix ∉ l) (sub : Nat) :
    t.flag ix sub = s.flag ix sub := by
  unfold State.flag
  rw [h.int hlog hl]

end

/-! ### An alarm, part by part (R204) -/

section
variable (s : State) (a : AlarmId) (detail : Nat)

@[simp] theorem alarm_out : (s.alarm a detail).out = s.out := (alarm_logOnly s a detail).out
@[simp] theorem alarm_writes : (s.alarm a detail).writes = s.writes := (alarm_logOnly s a detail).writes
@[simp] theorem alarm_clk : (s.alarm a detail).clk = s.clk := (alarm_logOnly s a detail).clk
@[simp] theorem alarm_engines : (s.alarm a detail).engines = s.engines := (alarm_logOnly s a detail).engines
@[simp] theorem alarm_lat : (s.alarm a detail).lat = s.lat := (alarm_logOnly s a detail).lat
@[simp] theorem alarm_bench : (s.alarm a detail).bench = s.bench := (alarm_logOnly s a detail).bench
@[simp] theorem alarm_shut : (s.alarm a detail).shut = s.shut := (alarm_logOnly s a detail).shut
@[simp] theorem alarm_rsv : (s.alarm a detail).rsv = s.rsv := (alarm_logOnly s a detail).rsv
@[simp] theorem alarm_fab : (s.alarm a detail).fab = s.fab := (alarm_logOnly s a detail).fab
@[simp] theorem alarm_net : (s.alarm a detail).net = s.net := (alarm_logOnly s a detail).net
@[simp] theorem alarm_tim : (s.alarm a detail).tim = s.tim := (alarm_logOnly s a detail).tim
@[simp] theorem alarm_ref : (s.alarm a detail).ref = s.ref := (alarm_logOnly s a detail).ref
@[simp] theorem alarm_syn : (s.alarm a detail).syn = s.syn := (alarm_logOnly s a detail).syn
@[simp] theorem alarm_pair : (s.alarm a detail).pair = s.pair := (alarm_logOnly s a detail).pair
@[simp] theorem alarm_sec : (s.alarm a detail).sec = s.sec := (alarm_logOnly s a detail).sec
@[simp] theorem alarm_boot : (s.alarm a detail).boot = s.boot := (alarm_logOnly s a detail).boot
@[simp] theorem alarm_cue : (s.alarm a detail).cue = s.cue := (alarm_logOnly s a detail).cue

theorem nat_alarm {ix : Nat} (hlog : isLogIx ix = false) (sub : Nat) : (s.alarm a detail).nat ix sub = s.nat ix sub :=
  (alarm_logOnly s a detail).nat hlog

end

/-! ### Registers of other objects -/

section
variable (s : State) {ix jx : Nat} (hne : jx ≠ ix) (sub sub' : Nat)
include hne

theorem nat_setNat_index (n : Nat) : (s.setNat ix sub n).nat jx sub' = s.nat jx sub' := nat_setNat_ne s (objKey_ne_index hne) n

theorem nat_setInt_index (n : Int) : (s.setInt ix sub n).nat jx sub' = s.nat jx sub' := nat_setObj_ne s (objKey_ne_index hne) _

theorem int_setNat_index (n : Nat) : (s.setNat ix sub n).int jx sub' = s.int jx sub' := int_setNat_ne s (objKey_ne_index hne) n

theorem nat_addHold_index (n : Nat) : (s.addHold ix sub n).nat jx sub' = s.nat jx sub' := nat_setNat_index s hne sub sub' _

theorem flag_setNat_index (n : Nat) : (s.setNat ix sub n).flag jx sub' = s.flag jx sub' := by
  unfold State.flag
  rw [int_setNat_index s hne]

end

@[simp] theorem nat_addHold_self (s : State) (ix sub n : Nat) :
    (s.addHold ix sub n).nat ix sub = min (s.nat ix sub + n) 0xFFFFFFFF := nat_setNat_self ..

@[simp] theorem nat_addWrap_self (s : State) (ix sub n : Nat) :
    (s.addWrap ix sub n).nat ix sub = (s.nat ix sub + n) % 4294967296 := nat_setNat_self ..

end Sys2Proof.Machine
end

section
/-! What the operations of the link, of the reserve and of a role leave as it was (R322, R325, R384). -/

namespace Sys2Proof.Machine

/-- The link: the pair, and what has left the block. -/
def forgetLink (s : State) : State := { s with pair := PairSt.reset, out := [] }

/-- The reserve manager and the engines. -/
def forgetReserve (s : State) : State := { s with rsv := RsvSt.reset, engines := State.reset.engines }

/-- What a unit changes that leaves the door: the reserve, the link and the Shutter. -/
def forgetDoor (s : State) : State := forgetReserve (forgetLink { s with shut := ShutSt.reset })

/-- What a unit changes whose role changes: beside that its streams and its shared fade. -/
def forgetRole (s : State) : State := forgetDoor { s with net := NetSt.reset, lat := LatSt.reset }

/-- The registers of the reserve that report its engines and its move (R393). -/
def reserveIx : List Nat := [Ix.rsvEngState, Ix.rsvLeaves, Ix.rsvMigState]

/-- The registers that report the pending commits (R183). -/
def pendIx : List Nat :=
  [Ix.shutPendTick, Ix.shutPendId, Ix.shutHistory, Ix.shutHistGen, Ix.shutHistTick, Ix.shutStageUsed, Ix.shutRejects]

def doorIx : List Nat := Ix.pairSwapTick :: (reserveIx ++ pendIx)

def roleIx : List Nat := Ix.pairRole :: Ix.ntxState :: doorIx

section
variable {f : State → State} {l : List Nat}

theorem sendUnit_changes (s : State) (ty : Nat) (payload : List Byte) (bulk : Option BulkPart) :
    Changes forgetLink l s (sendUnit s ty payload bulk) := by
  unfold sendUnit
  dsimp only
  split
  · exact (Changes.refl _ l s).put rfl rfl
  · exact (Changes.refl _ l s).put rfl rfl

theorem mirror_changes (s : State) (kind gen tick : Nat) (body : List Byte) :
    Changes forgetLink l s (mirror s kind gen tick body) :=
  Changes.ite (sendUnit_changes ..) (Changes.refl ..)

theorem setRsvState_changes (s : State) (e : Fin 16) (v : Nat) : Changes f reserveIx s (setRsvState s e v) := by
  have h := ((Changes.refl f reserveIx s).setNat (ix := Ix.rsvEngState) (by decide) e.val v).setNat (ix := Ix.rsvLeaves) (by decide) 0
  unfold setRsvState syncLeaves
  exact ((h _).alarm _ _).ite (h _)

theorem setMigState_changes (s : State) (m : Move) (step reason : Nat) : Changes f reserveIx s (setMigState s m step reason) :=
  (Changes.refl f _ s).setNat (by decide) _ _

theorem abandonMove_changes (s : State) (reason v : Nat) : Changes forgetReserve reserveIx s (abandonMove s reason v) := by
  unfold abandonMove
  split
  · exact Changes.refl ..
  · next m _ =>
    have h : Changes forgetReserve reserveIx s ({ s with rsv := { s.rsv with move := none } }.setEngine m.leaf (gatedEngine m.pmu)) :=
      (Changes.refl _ _ s).put rfl rfl
    exact ((h.trans (setRsvState_changes ..)).trans (setMigState_changes ..)).alarm _ _

theorem startMove_changes (s : State) (req : MoveReq) : Changes forgetReserve reserveIx s (startMove s req) := by
  unfold startMove
  split
  · exact (Changes.refl ..).alarm _ _
  · dsimp only
    refine Changes.ite ((setMigState_changes ..).alarm _ _) ?_
    have hput (r : RsvSt) (e : Fin 16) (g : Engine) : Changes forgetReserve reserveIx s ({ s with rsv := r }.setEngine e g) :=
      (Changes.refl _ _ s).put rfl rfl
    exact (((hput _ _ _).trans (setRsvState_changes ..)).trans (setMigState_changes ..)).alarm _ _

theorem nextMove_changes (s : State) : Changes forgetReserve reserveIx s (nextMove s) := by
  have hput (r : RsvSt) : Changes forgetReserve reserveIx s { s with rsv := r } := (Changes.refl _ _ s).put rfl rfl
  unfold nextMove
  split
  · exact (Changes.refl ..).ite ((hput _).trans (startMove_changes ..))
  · exact Changes.refl ..

theorem askFirst_changes (s : State) (req : MoveReq) : Changes forgetReserve reserveIx s (askFirst s req) :=
  have hput : Changes forgetReserve reserveIx s { s with rsv := { s.rsv with queue := req :: s.rsv.queue } } :=
    (Changes.refl _ _ s).put rfl rfl
  hput.trans (nextMove_changes _)

theorem moveQuietly_changes (s : State) : Changes forgetReserve reserveIx s (moveQuietly s) := by
  unfold moveQuietly
  split
  · exact (abandonMove_changes ..).trans (askFirst_changes ..)
  · exact Changes.refl ..

theorem haltWork_changes (s : State) : Changes forgetDoor l s (haltWork s) :=
  (Changes.refl _ l s).foldl _ fun r _ => (Changes.refl _ l r).put rfl rfl

theorem unpreparePage_changes (s : State) (p : Fin 16) (ws : List Nat) : Changes forgetReserve l s (unpreparePage s p ws) :=
  (Changes.refl _ l s).foldl _ fun r _ => (Changes.refl _ l r).put rfl rfl

theorem freeSlot_changes (s : State) (id : Nat) : Changes f doorIx s (freeSlot s id) := by
  unfold freeSlot
  split
  · exact ((Changes.refl _ _ s).setNat (by decide) _ _).setNat (by decide) _ _
  · exact Changes.refl ..

theorem endCommit_changes (s : State) (p : Pending) (code gen : Nat) : Changes forgetDoor doorIx s (endCommit s p code gen) := by
  have hfree : Changes forgetDoor doorIx s (freeSlot (withoutCommit s p) p.id) :=
    Changes.trans (t := withoutCommit s p) ((Changes.refl _ _ s).put rfl rfl) (freeSlot_changes ..)
  have hlist := ((hfree.setNat (ix := Ix.shutHistory) (by decide) (p.id % 64) (p.id + 4294967296 * code)).setNat
    (ix := Ix.shutHistGen) (by decide) (p.id % 64) gen).setNat (ix := Ix.shutHistTick) (by decide) (p.id % 64) s.tick
  have hpair {t : State} (h : Changes forgetDoor doorIx s t) (q : PairSt) : Changes forgetDoor doorIx s { t with pair := q } :=
    h.put rfl rfl
  unfold endCommit
  exact (((hpair hlist _).ite hlist).setNat (by decide) _ _).trans
    ((mirror_changes (l := []) ..).widen (fun _ => rfl) (List.nil_subset _))

theorem rejectOpen_changes (s : State) (code : Nat) : Changes forgetDoor doorIx s (rejectOpen s code) := by
  refine (Changes.refl _ _ s).foldl _ fun r p => ?_
  have hpages : Changes forgetReserve [] r (if p.frozen = true then
      (touchedBy (p.changes.map (fun c => (c.ix, c.sub)))).foldl (fun t q => unpreparePage t (Fin.ofNat 16 q.1) q.2) r else r) :=
    Changes.ite ((Changes.refl _ _ r).foldl _ fun _ _ => unpreparePage_changes ..) (Changes.refl ..)
  exact (((hpages.widen (fun _ => rfl) (List.nil_subset _)).trans (endCommit_changes ..)).addHold (by decide) _ _).alarmIf _ _ _

/-- A unit that leaves the door keeps everything but its commits, its engines, its move and its link. -/
theorem leaveDoor_changes (s : State) : Changes forgetDoor doorIx s (leaveDoor s) := by
  have h := ((rejectOpen_changes s 8).trans (haltWork_changes _)).trans
    ((moveQuietly_changes _).widen (fun _ => rfl) (by decide))
  have hpair (q : PairSt) : Changes forgetDoor doorIx s { moveQuietly (haltWork (rejectOpen s 8)) with pair := q } := h.put rfl rfl
  unfold leaveDoor
  exact (hpair _).setNat (by decide) _ _

theorem syncTx_changes (s : State) : Changes f roleIx s (syncTx s) :=
  (Changes.refl _ _ s).foldl _ fun r _ => (Changes.refl _ _ r).setNat (by decide) _ _

theorem setRole_changes (s : State) (n : Nat) : Changes forgetRole roleIx s (setRole s n) := by
  have hput : Changes forgetRole roleIx s { s with net := { s.net with pass := none } } := (Changes.refl _ _ s).put rfl rfl
  have h := (hput.setNat (ix := Ix.pairRole) (by decide) 0 n).trans (syncTx_changes _)
  unfold setRole
  exact h.ite (h.put rfl rfl)

theorem dropSwap_changes (s : State) : Changes forgetLink doorIx s (dropSwap s) := by
  have hput : Changes forgetLink doorIx s { s with pair := { s.pair with swap := none } } := (Changes.refl _ _ s).put rfl rfl
  exact hput.setNat (by decide) _ _

theorem setDoor_changes (s : State) (g : Fade) : Changes forgetRole l s (setDoor s g) := (Changes.refl _ l s).put rfl rfl

/-- A unit that becomes ISOLATED keeps everything but what a change of role changes. -/
theorem toIsolated_changes (s : State) : Changes forgetRole roleIx s (toIsolated s) := by
  have hleft : Changes forgetRole roleIx s (if s.isDoor = true then leaveDoor s else haltWork s) :=
    ((leaveDoor_changes s).widen (fun _ => rfl) (by decide)).ite
      ((haltWork_changes (l := []) s).widen (fun _ => rfl) (List.nil_subset _))
  have hstop (t : State) : Changes forgetRole roleIx t (stopStreams t) := (Changes.refl _ _ t).put rfl rfl
  have h := ((hleft.trans (setRole_changes _ 0)).trans (hstop _)).trans ((dropSwap_changes _).widen (fun _ => rfl) (by decide))
  unfold toIsolated
  dsimp only
  generalize dropSwap _ = r at h ⊢
  have hpair (q : PairSt) : Changes forgetRole roleIx s { r with pair := q } := h.put rfl rfl
  exact ((hpair _).trans (setDoor_changes ..)).ite (hpair _)

end

end Sys2Proof.Machine
end

section
/-! Sessions that close, and a Cabinet wipe (R196, R412, R413). -/

namespace Sys2Proof.Machine

/-! ### Closing sessions -/

/-- What closing sessions changes: the Shutter's sets and the link. -/
def forgetSessions (s : State) : State := forgetLink { s with shut := ShutSt.reset }

def sessionIx : List Nat :=
  [Ix.ctlSessState, Ix.ctlSessCounter, Ix.ctlSessPeer, Ix.shutSetState, Ix.shutSetCount, Ix.shutStageUsed]

section
variable {f : State → State}

theorem setSess_changes (s : State) (k : Nat) (x : Option Session) : Changes f sessionIx s (setSess s k x) := by
  have hput (c : CtlSt) : Changes f sessionIx s { s with ctl := c } := (Changes.refl _ _ s).put rfl rfl
  unfold setSess
  split <;> exact (((hput _).setNat (by decide) _ _).setNat (by decide) _ _).setNat (by decide) _ _

theorem setSet_changes (s : State) (n : Nat) (x : Option StageSet) : Changes forgetSessions sessionIx s (setSet s n x) := by
  have hput (r : ShutSt) : Changes forgetSessions sessionIx s { s with shut := r } := (Changes.refl _ _ s).put rfl rfl
  unfold setSet syncStage
  split <;> exact (((hput _).setNat (by decide) _ _).setNat (by decide) _ _).setNat (by decide) _ _

theorem closeSession_changes (s : State) (k : Nat) : Changes forgetSessions sessionIx s (closeSession s k) := by
  have hset (r : State) (n : Nat) : Changes forgetSessions sessionIx r (mirrorSetEnd (setSet r n none) n 2 0) :=
    (setSet_changes r n none).trans ((mirror_changes (l := []) ..).widen (fun _ => rfl) (List.nil_subset _))
  have hput {r : State} (h : Changes forgetSessions sessionIx s r) (x : ShutSt) : Changes forgetSessions sessionIx s { r with shut := x } :=
    h.put rfl rfl
  unfold closeSession
  exact (hput ((Changes.refl _ _ s).foldl _ hset) _).trans (setSess_changes ..)

theorem closeSessions_changes (s : State) (p : Session → Bool) : Changes forgetSessions sessionIx s (closeSessions s p) :=
  (Changes.refl _ _ s).foldl _ fun r x => closeSession_changes r x.1

end

/-! ### The end of a debug grant (R421) -/

def forgetSec (s : State) : State := { s with sec := SecSt.reset }

theorem endGrant_changes (s : State) : Changes forgetSec [Ix.secDbgState] s (endGrant s) := by
  have hput (c : SecSt) : Changes forgetSec [Ix.secDbgState] s { s with sec := c } := (Changes.refl _ _ s).put rfl rfl
  unfold endGrant
  split
  · exact Changes.refl ..
  · exact ((hput _).setNat (by decide) _ _).alarm _ _

/-- Ending a grant changes the grant and the halt it allowed. -/
theorem endGrant_sec (s : State) : ∃ halted, (endGrant s).sec = { s.sec with grant := none, hkHalted := halted } := by
  unfold endGrant
  split
  next h => exact ⟨s.sec.hkHalted, by rw [← h]⟩
  next => exact ⟨false, (alarm_sec ..).trans (setNat_sec ..)⟩

/-! ### Stores that are emptied -/

/-- Entries dropped by key read as nothing, the others as before. -/
theorem mapGet_filter_key {α : Type} (d : Nat → α) (p : Nat → Bool) (k : Nat) (m : Map α) :
    mapGet d k (m.filter fun c => p c.1) = if p k then mapGet d k m else d k := by
  have hfind : mapFind k (m.filter fun c => p c.1) = if p k then mapFind k m else none := by
    induction m with
    | nil => simp [mapFind]
    | cons c m ih =>
      obtain ⟨j, v⟩ := c
      by_cases hj : j = k
      · subst hj
        by_cases hp : p j = true
        · simp [hp, mapFind]
        · simpa [List.filter_cons, hp] using ih
      · by_cases hp : p j = true
        · simpa [List.filter_cons, hp, mapFind, hj] using ih
        · simpa [List.filter_cons, hp, mapFind, hj] using ih
  unfold mapGet
  rw [hfind]
  split <;> rfl

/-- A value written to each of some registers of one object. -/
theorem nat_foldl_setNat (ix : Nat) (v : Nat → Nat) {ks : List Nat} (hks : ∀ k ∈ ks, k < 16777216) (s : State) {j : Nat}
    (hj : j < 16777216) : (ks.foldl (fun t k => t.setNat ix k (v k)) s).nat ix j = if j ∈ ks then v j else s.nat ix j := by
  induction ks generalizing s with
  | nil => rfl
  | cons k ks ih =>
    rw [List.foldl_cons, ih (fun i hi => hks i (List.mem_cons_of_mem _ hi))]
    by_cases hin : j ∈ ks
    · rw [if_pos hin, if_pos (List.mem_cons_of_mem _ hin)]
    · rw [if_neg hin]
      by_cases hk : j = k
      · subst hk
        rw [nat_setNat_self, if_pos (List.mem_cons_self ..)]
      · rw [nat_setNat_ne _ (objKey_ne_sub hk hj (hks k (List.mem_cons_self ..))), if_neg (by simp [hk, hin])]

/-! ### The alarm log leaves the credentials (R205) -/

theorem logAlarm_keys (s : State) (code detail : Nat) : (logAlarm s code detail).ctl.keys = s.ctl.keys := by
  have h := logAdd_ctl s code detail
  unfold logAlarm
  generalize logAdd s code detail = u at h ⊢
  unfold logWrapCheck
  rw [← h]
  split
  · rfl
  · split
    · rfl
    · rw [logAdd_ctl]

/-- An alarm leaves the credentials. -/
@[simp] theorem alarm_keys (s : State) (a : AlarmId) (detail : Nat) : (s.alarm a detail).ctl.keys = s.ctl.keys := by
  have hboth (c : Prop) [Decidable c] : (if c then logAlarm (logAlarm s a.code detail) Al.pairTakeoverFault.code 0
      else logAlarm s a.code detail).ctl.keys = s.ctl.keys := by
    split
    · rw [logAlarm_keys, logAlarm_keys]
    · exact logAlarm_keys ..
  exact hboth _

/-! ### The wipe (R412) -/

/-- What a wipe changes: what closing sessions changes, the Cabinet with the rest of the fabric's part, the writes that wait,
and security. -/
def forgetWipe (s : State) : State := forgetSec (forgetSessions { s with fab := FabSt.reset, writes := [] })

def wipeIx : List Nat :=
  [Ix.secDbgState, Ix.ctlCredPriv, Ix.secImgPubkey, Ix.secEpochLeft, Ix.secWipes] ++ sessionIx

/-- The epoch after a wipe: in a lifecycle advance no fuse is blown (R412). -/
def wipedEpoch (s : State) (advance : Bool) : Nat := if advance then s.sec.epoch else min (s.sec.epoch + 1) 128

/-- From `r`, which is `s` without its credentials: the Cabinet, the sealed copies and the image key gone. -/
def emptied (s r : State) (e : Nat) : State :=
  let t : State := { r with
    fab := { s.fab with mem := s.fab.mem.filter (fun c => !inCabinet c.1) }
    writes := s.writes.filter (fun w => !wipedWrite w.ix)
    sec := { s.sec with copies := [], epoch := e, sealDue := false } }
  ((t.setObj Ix.secImgPubkey 0 (.bytes [])).setNat Ix.secEpochLeft 0 (128 - e)).addWrap Ix.secWipes 0 1

theorem wipeCreds_changes (f : State → State) (s : State) : Changes f [Ix.ctlCredPriv] s (wipeCreds s) := by
  have hput : Changes f [Ix.ctlCredPriv] s { s with ctl := { s.ctl with keys := [] } } := (Changes.refl _ _ s).put rfl rfl
  exact hput.foldl _ fun r k => (Changes.refl _ _ r).setNat (by decide) _ _

theorem wipeCreds_sec (s : State) : (wipeCreds s).sec = s.sec := (wipeCreds_changes id s).read State.sec fun _ => rfl

theorem wipe_eq (s : State) (advance : Bool) : ∃ r, r = endGrant (closeSessions s fun _ => true) ∧ wipe s advance =
    ((sealNow (emptied r (wipeCreds r) (wipedEpoch r advance))).alarm Al.secWipe).alarmIf (decide (120 ≤ wipedEpoch r advance)) Al.secEpochLow := by
  refine ⟨_, rfl, ?_⟩
  unfold wipe emptied wipedEpoch
  dsimp only
  simp only [wipeCreds_sec]

/-- The sealed copy written over none (R411). -/
def freshSeal (s : State) : Sealed :=
  { seq := 1, life := s.sec.life, epoch := s.sec.epoch, keys := s.ctl.keys
    privs := (upFrom 0 16).map (fun k => s.nat Ix.ctlCredPriv k), pub := (s.obj Ix.secImgPubkey 0).toBytes }

theorem sealNow_fresh {s : State} (h : s.sec.copies = []) :
    sealNow s = { s with sec := { s.sec with sealDue := false, copies := [freshSeal s] } } := by
  unfold sealNow
  rw [h]
  rfl

/-- From `s` to `t` the Cabinet has been wiped, with the epoch at `e`: the credentials, the image key, the grant and the sealed
copies are gone, one copy of what is left is written, and memory outside the Cabinet stays. -/
structure Wiped (s t : State) (e : Nat) : Prop extends Changes forgetWipe wipeIx s t where
  sec : ∃ halted, ∃ c : Sealed, t.sec = { s.sec with
    grant := none, hkHalted := halted, epoch := e, sealDue := false, copies := [c] } ∧ c.keys = [] ∧ c.life = s.sec.life ∧ c.epoch = e
  keys : t.ctl.keys = []
  pub : t.obj Ix.secImgPubkey 0 = .bytes []
  wipes : t.nat Ix.secWipes = (s.nat Ix.secWipes + 1) % 4294967296
  mem : ∀ a, memByte t a = if inCabinet a = true then 0 else memByte s a
  privs : ∀ k : Fin 16, t.nat Ix.ctlCredPriv k.val = if k.val = 0 ∧ s.sec.life ≠ 4 then 3 else 0

/-- The alarms after a wipe leave it a wipe. -/
theorem Wiped.alarm {s t : State} {e : Nat} (h : Wiped s t e) (a : AlarmId) (detail : Nat) : Wiped s (t.alarm a detail) e where
  toChanges := h.toChanges.alarm a detail
  sec := by rw [alarm_sec]; exact h.sec
  keys := (alarm_keys ..).trans h.keys
  pub := ((alarm_logOnly t a detail).obj _ _ rfl).trans h.pub
  wipes := (nat_alarm t a detail rfl 0).trans h.wipes
  mem k := (memByte_of_fab (by rw [alarm_fab]) k).trans (h.mem k)
  privs k := (nat_alarm t a detail rfl k.val).trans (h.privs k)

theorem Wiped.alarmIf {s t : State} {e : Nat} (h : Wiped s t e) (c : Bool) (a : AlarmId) (detail : Nat) :
    Wiped s (t.alarmIf c a detail) e := by
  unfold State.alarmIf
  split
  · exact h.alarm a detail
  · exact h

theorem wipeCreds_keys (s : State) : (wipeCreds s).ctl.keys = [] := by
  have hfold (ks : List Nat) (v : Nat → Nat) (t : State) : (ks.foldl (fun t k => t.setNat Ix.ctlCredPriv k (v k)) t).ctl = t.ctl := by
    induction ks generalizing t with
    | nil => rfl
    | cons k ks ih => exact (ih _).trans (setNat_ctl ..)
  exact congrArg CtlSt.keys (hfold _ (fun k => if k = 0 ∧ s.sec.life ≠ 4 then 3 else 0) _)

theorem privs_wipeCreds (s : State) {k : Nat} (h : k < 16) :
    (wipeCreds s).nat Ix.ctlCredPriv k = if k = 0 ∧ s.sec.life ≠ 4 then 3 else 0 := by
  unfold wipeCreds
  rw [nat_foldl_setNat Ix.ctlCredPriv (fun k => if k = 0 ∧ s.sec.life ≠ 4 then 3 else 0)
    (fun i hi => by have := mem_upFrom.mp hi; omega) _ (by omega), if_pos (mem_upFrom.mpr (by omega))]

theorem emptied_changes {s r : State} (h : Changes id [Ix.ctlCredPriv] s r) (e : Nat) :
    Changes forgetWipe wipeIx s (emptied s r e) := by
  have hput (w : List DirectWrite) (fab : FabSt) (c : SecSt) :
      Changes forgetWipe wipeIx s { r with writes := w, fab := fab, sec := c } :=
    (h.widen (g := forgetWipe) (fun _ => rfl) (by decide)).put rfl rfl
  unfold emptied
  exact (((hput _ _ _).setObj (by decide) _ _).setNat (by decide) _ _).addWrap (by decide) _ _

theorem secImgPubkey_emptied (s r : State) (e : Nat) : (emptied s r e).obj Ix.secImgPubkey 0 = .bytes [] := by
  unfold emptied State.addWrap State.setNat
  rw [obj_setObj_ne _ (objKey_ne_index (by decide)), obj_setObj_ne _ (objKey_ne_index (by decide)), obj_setObj_self]

theorem secWipes_emptied (s r : State) (e : Nat) : (emptied s r e).nat Ix.secWipes = (r.nat Ix.secWipes + 1) % 4294967296 := by
  unfold emptied
  rw [nat_addWrap_self, nat_setNat_index _ (by decide), nat_setObj_ne _ (objKey_ne_index (by decide))]
  rfl

theorem privs_emptied (s r : State) (e k : Nat) : (emptied s r e).nat Ix.ctlCredPriv k = r.nat Ix.ctlCredPriv k := by
  unfold emptied State.addWrap
  rw [nat_setNat_index _ (by decide), nat_setNat_index _ (by decide), nat_setObj_ne _ (objKey_ne_index (by decide))]
  rfl

/-- What is left once sessions and grant are over is wiped and sealed. -/
theorem sealNow_emptied (s : State) (e : Nat) (hg : s.sec.grant = none) : Wiped s (sealNow (emptied s (wipeCreds s) e)) e := by
  have hcreds := wipeCreds_changes id s
  have hkeys := wipeCreds_keys s
  have hprivs (k : Fin 16) := privs_wipeCreds s k.isLt
  generalize wipeCreds s = r at hcreds hkeys hprivs ⊢
  have hseal {t : State} (c : SecSt) (h : Changes forgetWipe wipeIx s t) : Changes forgetWipe wipeIx s { t with sec := c } :=
    h.put rfl rfl
  rw [sealNow_fresh (s := emptied s r e) rfl]
  refine { toChanges := hseal _ (emptied_changes hcreds e), sec := ⟨s.sec.hkHalted, freshSeal (emptied s r e), ?_, hkeys, rfl, rfl⟩
           keys := hkeys, pub := secImgPubkey_emptied s r e, wipes := ?_, mem := fun a => ?_
           privs := fun k => (privs_emptied s r e k.val).trans (hprivs k) }
  · rw [← hg]
    rfl
  · rw [← hcreds.nat rfl (by decide) 0]
    exact secWipes_emptied s r e
  · exact (mapGet_filter_key _ (fun k => !inCabinet k) a s.fab.mem).trans (by cases inCabinet a <;> rfl)

/-- A Cabinet wipe (R412). -/
theorem wipe_wiped (s : State) (advance : Bool) : Wiped s (wipe s advance) (wipedEpoch s advance) := by
  obtain ⟨r, hr, hwipe⟩ := wipe_eq s advance
  have hclose := closeSessions_changes s fun _ => true
  have hgrant := endGrant_changes (closeSessions s fun _ => true)
  obtain ⟨halted, hsec⟩ := endGrant_sec (closeSessions s fun _ => true)
  rw [← hr] at hgrant hsec
  rw [hclose.read State.sec fun _ => rfl] at hsec
  have hfab : r.fab = s.fab := (hgrant.read State.fab fun _ => rfl).trans (hclose.read State.fab fun _ => rfl)
  have hwipes : r.nat Ix.secWipes = s.nat Ix.secWipes := (hgrant.nat rfl (by decide) 0).trans (hclose.nat rfl (by decide) 0)
  have hepoch : wipedEpoch r advance = wipedEpoch s advance := by
    unfold wipedEpoch
    rw [hsec]
  have hdone := ((sealNow_emptied r (wipedEpoch r advance) (by rw [hsec])).alarm Al.secWipe 0).alarmIf
    (decide (120 ≤ wipedEpoch r advance)) Al.secEpochLow 0
  rw [← hwipe, hepoch] at hdone
  obtain ⟨halted', c, hsec', hkeys, hlife, he⟩ := hdone.sec
  rw [hsec] at hsec' hlife
  have hprivs := hdone.privs
  rw [hsec] at hprivs
  exact { toChanges := ((hclose.widen (fun _ => rfl) (by decide)).trans (hgrant.widen (fun _ => rfl) (by decide))).trans hdone.toChanges
          sec := ⟨halted', c, hsec', hkeys, hlife, he⟩
          keys := hdone.keys
          pub := hdone.pub
          wipes := by rw [hdone.wipes, hwipes]
          mem := fun a => by rw [hdone.mem, memByte_of_fab (t := r) (s := s) (by rw [hfab])]
          privs := hprivs }

end Sys2Proof.Machine
end

section
/-! Lifecycle advances, tamper, the sealed copy and debug (R407, R408, R411, R413, R415, R416, R420, R421). -/

namespace Sys2Proof.Machine

/-! ### Lifecycle advances (R408, R409) -/

def fuseIx : List Nat := [Ix.secLifecycle, Ix.secImgKeyHash, Ix.secDbgKeyHash, Ix.secTamperEn]

theorem fuseLife_changes (s : State) (next : Nat) : Changes forgetSec fuseIx s (fuseLife s next) := by
  have hsec (c : SecSt) : Changes forgetSec fuseIx s { s with sec := c } := (Changes.refl _ _ s).put rfl rfl
  have hput (c : SecSt) : Changes forgetSec fuseIx s ({ s with sec := c }.setNat Ix.secLifecycle 0 next) :=
    (hsec c).setNat (by decide) _ _
  have hhash (c : SecSt) (a b : Val) := (((hput c).setObj (ix := Ix.secImgKeyHash) (by decide) 0 a).setObj
    (ix := Ix.secDbgKeyHash) (by decide) 0 b).ite (c := next = 1) (hput c)
  unfold fuseLife
  exact ((hhash _ _ _).setNat (by decide) _ _).ite (hhash _ _ _)

/-- The fuses of a lifecycle state: the step is taken, and the epoch stays. -/
theorem fuseLife_sec (s : State) (next : Nat) : (fuseLife s next).sec.life = next ∧ (fuseLife s next).sec.advance = none ∧
    (fuseLife s next).sec.epoch = s.sec.epoch := by
  have hsec : (fuseLife s next).sec = (if next = 1 then { s.sec with
        life := next, advance := none, pendRec := [], pendHash := [], pendDbg := [], kRec := s.sec.pendRec
        imgHash0 := s.sec.pendHash, dbgHash := s.sec.pendDbg }
      else if next = 4 then { s.sec with
        life := next, advance := none, pendRec := [], pendHash := [], pendDbg := [], kRec := [], imgHash0 := [], imgHash1 := []
        dbgHash := [] }
      else { s.sec with life := next, advance := none, pendRec := [], pendHash := [], pendDbg := [] }) := by
    unfold fuseLife
    dsimp only
    rw [apply_ite State.sec, setNat_sec, ite_self, apply_ite State.sec, setObj_sec, setObj_sec, ite_self, setNat_sec]
  rw [hsec]
  split
  · exact ⟨rfl, rfl, rfl⟩
  · split
    · exact ⟨rfl, rfl, rfl⟩
    · exact ⟨rfl, rfl, rfl⟩

theorem secLifecycle_fuseLife (s : State) (next : Nat) : (fuseLife s next).nat Ix.secLifecycle = next := by
  unfold fuseLife
  dsimp only
  have hput (c : SecSt) : ({ s with sec := c }.setNat Ix.secLifecycle 0 next).nat Ix.secLifecycle = next := nat_setNat_self ..
  have hhash (c : SecSt) (a b : Val) : (if next = 1 then (({ s with sec := c }.setNat Ix.secLifecycle 0 next).setObj
      Ix.secImgKeyHash 0 a).setObj Ix.secDbgKeyHash 0 b else { s with sec := c }.setNat Ix.secLifecycle 0 next).nat
      Ix.secLifecycle = next := by
    split
    · rw [nat_setObj_ne _ (objKey_ne_index (by decide)), nat_setObj_ne _ (objKey_ne_index (by decide)), hput]
    · exact hput c
  split
  · rw [nat_setNat_index _ (by decide), hhash]
  · exact hhash ..

/-- The step to RETURNED clears the tamper enables (R416). -/
theorem secTamperEn_fuseLife (s : State) : (fuseLife s 3).nat Ix.secTamperEn = 0 := by
  unfold fuseLife
  dsimp only
  rw [if_pos rfl, nat_setNat_self]

/-- Before the fuses are blown nothing of security and of the fabric changes: SCRAPPED stops the engines (R409). -/
theorem scrapped_changes (s : State) (next : Nat) : Changes forgetRole roleIx s (if next = 4 then stopEngines (toIsolated s) else s) := by
  have hstop (t : State) : Changes forgetRole roleIx t (stopEngines t) := by
    have hrun := (Changes.refl forgetRole roleIx t).foldl (op := fun u p => u.setEngine (engineOf u p) (stopEngine (u.engine (engineOf u p))))
      (placesRunning t) fun r _ => (Changes.refl _ _ r).put rfl rfl
    unfold stopEngines
    dsimp only
    generalize List.foldl _ t _ = r at hrun ⊢
    exact hrun.put rfl rfl
  exact ((toIsolated_changes s).trans (hstop _)).ite (Changes.refl ..)

/-- What the wipe of an advance starts from. -/
def advanced (s : State) (next : Nat) : State := fuseLife (if next = 4 then stopEngines (toIsolated s) else s) next

theorem lcAdvanceDone_eq {s : State} {next : Nat} (h : s.sec.advance = some next) :
    exec .lcAdvanceDone s = .next ((wipe (advanced s next) true).alarm Al.secLcChanged next) := by
  change execLcAdvanceDone s = _
  unfold execLcAdvanceDone
  rw [h]
  rfl

/-- The advance's own wipe starts from a state in which only the role and the fuses have changed. -/
theorem advanced_changes (s : State) (next : Nat) : Changes (fun r => forgetRole (forgetSec r)) (roleIx ++ fuseIx) s (advanced s next) :=
  ((scrapped_changes s next).widen (fun _ => rfl) (by decide)).trans ((fuseLife_changes ..).widen (fun _ => rfl) (by decide))

theorem advanced_sec (s : State) (next : Nat) : (advanced s next).sec.life = next ∧ (advanced s next).sec.advance = none ∧
    (advanced s next).sec.epoch = s.sec.epoch := by
  obtain ⟨hlife, hadv, hepoch⟩ := fuseLife_sec (if next = 4 then stopEngines (toIsolated s) else s) next
  exact ⟨hlife, hadv, hepoch.trans (congrArg SecSt.epoch ((scrapped_changes s next).read State.sec fun _ => rfl))⟩

/-- What a wipe says of a state after it, in the words of R412: `keys`, grant, image key and credentials gone, the Cabinet zero,
one sealed copy of what is left. -/
def IsWiped (s t : State) : Prop := t.ctl.keys = [] ∧ t.sec.grant = none ∧ t.obj Ix.secImgPubkey 0 = .bytes [] ∧
  t.nat Ix.secWipes = (s.nat Ix.secWipes + 1) % 4294967296 ∧
  (∀ a, memByte t a = if inCabinet a = true then 0 else memByte s a) ∧
  (∀ k : Fin 16, t.nat Ix.ctlCredPriv k.val = if k.val = 0 ∧ t.sec.life ≠ 4 then 3 else 0) ∧
  ∃ c, t.sec.copies = [c] ∧ c.keys = [] ∧ c.life = t.sec.life ∧ c.epoch = t.sec.epoch

/-- A wipe from `r` is one from `s` where `r` has the memory of `s` and its count of wipes. -/
theorem Wiped.isWiped {r s t : State} {e : Nat} (h : Wiped r t e) (hwipes : r.nat Ix.secWipes = s.nat Ix.secWipes)
    (hfab : r.fab = s.fab) : IsWiped s t := by
  obtain ⟨halted, c, hsec, hkeys, hlife, he⟩ := h.sec
  refine ⟨h.keys, by rw [hsec], h.pub, by rw [h.wipes, hwipes], fun a => ?_, fun k => ?_, c, by rw [hsec], hkeys, ?_, ?_⟩
  · rw [h.mem, memByte_of_fab (t := r) (s := s) (by rw [hfab])]
  · rw [hsec]
    exact h.privs k
  · rw [hsec]
    exact hlife
  · rw [hsec]
    exact he

theorem lcAdvanceDone_wipes {s : State} {next : Nat} (h : s.sec.advance = some next) :
    ∃ t, exec .lcAdvanceDone s = .next t ∧ IsWiped s t ∧ t.sec.life = next ∧ t.nat Ix.secLifecycle = next ∧ t.sec.advance = none ∧
      t.sec.epoch = s.sec.epoch := by
  have hchg := advanced_changes s next
  obtain ⟨hlife, hadv, hepoch⟩ := advanced_sec s next
  have hwiped := (wipe_wiped (advanced s next) true).alarm Al.secLcChanged next
  obtain ⟨halted, c, hsec, -⟩ := hwiped.sec
  refine ⟨_, lcAdvanceDone_eq h, hwiped.isWiped (hchg.nat rfl (by decide) 0) (hchg.read State.fab fun _ => rfl), ?_, ?_, ?_, ?_⟩
  · rw [hsec, hlife]
  · rw [hwiped.nat rfl (by decide)]
    exact secLifecycle_fuseLife ..
  · rw [hsec, hadv]
  · rw [hsec]
    exact hepoch

/-- The step to RETURNED clears the tamper enables, and the wipe leaves them so (R416). -/
theorem lcAdvanceDone_returned {s : State} (h : s.sec.advance = some 3) :
    ∃ t, exec .lcAdvanceDone s = .next t ∧ t.nat Ix.secLifecycle = 3 ∧ t.nat Ix.secTamperEn = 0 := by
  have hwiped := (wipe_wiped (advanced s 3) true).alarm Al.secLcChanged 3
  refine ⟨_, lcAdvanceDone_eq h, ?_, ?_⟩
  · rw [hwiped.nat rfl (by decide)]
    exact secLifecycle_fuseLife ..
  · rw [hwiped.nat rfl (by decide)]
    exact secTamperEn_fuseLife _

/-! ### Tamper (R415) -/

/-- The enabled tamper sources that are asserted and not yet latched. -/
def tamperNew (s : State) (raw : Nat) : List Nat :=
  (upFrom 0 5).filter (fun b => raw.testBit b && (s.nat Ix.secTamperEn).testBit b && !(s.nat Ix.secTamperState).testBit b)

theorem tamperLatch_none {s : State} {raw : Nat} (h : tamperNew s raw = []) : tamperLatch s raw = s.setNat Ix.secTamperRaw 0 raw := by
  unfold tamperLatch
  dsimp only
  rw [nat_setNat_index _ (by decide), nat_setNat_index _ (by decide)]
  unfold tamperNew at h
  rw [h]
  rfl

/-- Latching one new cause, whatever a wipe and an alarm do. -/
theorem latch_once {l : List Nat} {b : Nat} (h : l = [b]) (grantOver wiping : State → State) (warn : State → Nat → State) {r : State}
    (hr : r.sec.advance = none) :
    (if l.isEmpty = true then r else
      let t := (r.setNat Ix.secTamperState 0 (l.foldl (fun w b => w ||| 2 ^ b) (r.nat Ix.secTamperState))).setNat Ix.secTamperTick 0 r.tick
      let t1 := if t.sec.advance.isSome = true then grantOver t else wiping t
      l.foldl warn t1) =
    warn (wiping ((r.setNat Ix.secTamperState 0 (r.nat Ix.secTamperState ||| 2 ^ b)).setNat Ix.secTamperTick 0 r.clk.tick)) b := by
  subst h
  simp only [List.isEmpty_cons, List.foldl_cons, List.foldl_nil, setNat_sec, hr, Option.isSome_none, Bool.false_eq_true, if_false]

/-- One new cause, with no advance in progress: it is latched with its tick, and wipes the Cabinet. -/
theorem tamperLatch_one {s : State} {raw b : Nat} (h : tamperNew s raw = [b]) (hadv : s.sec.advance = none) : tamperLatch s raw =
    (wipe (((s.setNat Ix.secTamperRaw 0 raw).setNat Ix.secTamperState 0 (s.nat Ix.secTamperState ||| 2 ^ b)).setNat
      Ix.secTamperTick 0 s.clk.tick) false).alarm (Al.secTamper.src b) := by
  have hst := nat_setNat_index s (ix := Ix.secTamperRaw) (jx := Ix.secTamperState) (by decide) 0 0 raw
  have hen := nat_setNat_index s (ix := Ix.secTamperRaw) (jx := Ix.secTamperEn) (by decide) 0 0 raw
  have hr : (s.setNat Ix.secTamperRaw 0 raw).sec.advance = none := by rw [setNat_sec, hadv]
  have hclk : (s.setNat Ix.secTamperRaw 0 raw).clk.tick = s.clk.tick := by rw [setNat_clk]
  unfold tamperNew at h
  rw [← hst, ← hen] at h
  rw [← hst, ← hclk]
  unfold tamperLatch
  exact latch_once h endGrant (wipe · false) (fun u b => u.alarm (Al.secTamper.src b)) hr

theorem tamperNew_bit {s : State} {b : Nat} (hb : b < 5) (hen : (s.nat Ix.secTamperEn).testBit b = true)
    (hst : (s.nat Ix.secTamperState).testBit b = false) : tamperNew s (2 ^ b) = [b] := by
  have hpick (c : Nat) : ((2 ^ b).testBit c && (s.nat Ix.secTamperEn).testBit c && !(s.nat Ix.secTamperState).testBit c) = decide (c = b) := by
    rw [Nat.testBit_two_pow]
    by_cases hc : c = b
    · subst hc
      simp [hen, hst]
    · simp [hc, Ne.symm hc]
  unfold tamperNew
  simp only [hpick]
  interval_cases b <;> rfl

/-- A bit that is clear is set by adding it. -/
theorem or_two_pow_of_testBit_eq_false {n b : Nat} (h : n.testBit b = false) : n ||| 2 ^ b = n + 2 ^ b := by
  obtain ⟨q, r, hr, hn⟩ : ∃ q r, r < 2 ^ b ∧ n = 2 ^ (b + 1) * q + r := by
    have hmod : n / 2 ^ b % 2 = 0 := by
      rw [Nat.testBit_eq_decide_div_mod_eq, decide_eq_false_iff_not] at h
      omega
    refine ⟨n / 2 ^ b / 2, n % 2 ^ b, Nat.mod_lt _ (Nat.two_pow_pos b), ?_⟩
    have hdiv := Nat.div_add_mod n (2 ^ b)
    have hhalf : n / 2 ^ b = 2 * (n / 2 ^ b / 2) := by omega
    rw [Nat.pow_succ, Nat.mul_assoc, ← hhalf, hdiv]
  have hr1 : r < 2 ^ (b + 1) := by rw [Nat.pow_succ]; omega
  have hr2 : 2 ^ b * 1 + r < 2 ^ (b + 1) := by rw [Nat.pow_succ]; omega
  have hlow : 2 ^ b * 1 + r = 2 ^ b * 1 ||| r := Nat.two_pow_add_eq_or_of_lt hr 1
  calc n ||| 2 ^ b = (2 ^ (b + 1) * q ||| r) ||| 2 ^ b := by rw [hn, Nat.two_pow_add_eq_or_of_lt hr1]
    _ = 2 ^ (b + 1) * q ||| (2 ^ b * 1 ||| r) := by rw [Nat.or_assoc, Nat.mul_one, Nat.or_comm r]
    _ = 2 ^ (b + 1) * q + (2 ^ b * 1 + r) := by rw [← hlow, ← Nat.two_pow_add_eq_or_of_lt hr2]
    _ = n + 2 ^ b := by omega

/-- A new enabled cause wipes the Cabinet and is latched with its tick; the epoch rises (R412, R415). -/
theorem tamperAsserted_wipes {s : State} (b : Fin 5) (hen : (s.nat Ix.secTamperEn).testBit b.val = true)
    (hst : (s.nat Ix.secTamperState).testBit b.val = false) (hadv : s.sec.advance = none) :
    ∃ t, exec (.tamperAsserted (BitVec.ofNat 5 (2 ^ b.val))) s = .next t ∧ IsWiped s t ∧ t.nat Ix.secTamperRaw = 2 ^ b.val ∧
      t.nat Ix.secTamperState = s.nat Ix.secTamperState + 2 ^ b.val ∧ t.nat Ix.secTamperTick = s.clk.tick ∧
      t.sec.epoch = min (s.sec.epoch + 1) 128 ∧ t.sec.life = s.sec.life ∧ t.engines = s.engines := by
  have hraw : (BitVec.ofNat 5 (2 ^ b.val)).toNat = 2 ^ b.val := by
    rw [BitVec.toNat_ofNat, Nat.mod_eq_of_lt (Nat.pow_lt_pow_right (by decide) b.isLt)]
  let r := ((s.setNat Ix.secTamperRaw 0 (2 ^ b.val)).setNat Ix.secTamperState 0 (s.nat Ix.secTamperState ||| 2 ^ b.val)).setNat
    Ix.secTamperTick 0 s.clk.tick
  have hr : Changes id [Ix.secTamperRaw, Ix.secTamperState, Ix.secTamperTick] s r :=
    (((Changes.refl _ _ s).setNat (by decide) _ _).setNat (by decide) _ _).setNat (by decide) _ _
  have hlatched : r.nat Ix.secTamperRaw = 2 ^ b.val ∧ r.nat Ix.secTamperState = s.nat Ix.secTamperState + 2 ^ b.val ∧
      r.nat Ix.secTamperTick = s.clk.tick := by
    refine ⟨?_, ?_, nat_setNat_self ..⟩
    · rw [nat_setNat_index _ (by decide), nat_setNat_index _ (by decide), nat_setNat_self]
    · rw [nat_setNat_index _ (by decide), nat_setNat_self, or_two_pow_of_testBit_eq_false hst]
  have hexec : exec (.tamperAsserted (BitVec.ofNat 5 (2 ^ b.val))) s = .next ((wipe r false).alarm (Al.secTamper.src b.val)) := by
    change Host.Outcome.next (tamperLatch s (BitVec.ofNat 5 (2 ^ b.val)).toNat) = _
    rw [hraw, tamperLatch_one (tamperNew_bit b.isLt hen hst) hadv]
  clear_value r
  have hwiped := (wipe_wiped r false).alarm (Al.secTamper.src b.val) 0
  obtain ⟨halted, c, hsec, -⟩ := hwiped.sec
  have hrepoch : wipedEpoch r false = min (s.sec.epoch + 1) 128 := hr.read (wipedEpoch · false) fun _ => rfl
  have hrlife : r.sec.life = s.sec.life := hr.read (fun u => u.sec.life) fun _ => rfl
  obtain ⟨hlraw, hlstate, hltick⟩ := hlatched
  refine ⟨_, hexec, hwiped.isWiped (hr.nat rfl (by decide) 0) (hr.read State.fab fun _ => rfl), ?_, ?_, ?_, ?_, ?_, ?_⟩
  · rw [hwiped.nat rfl (by decide), hlraw]
  · rw [hwiped.nat rfl (by decide), hlstate]
  · rw [hwiped.nat rfl (by decide), hltick]
  · rw [hsec]
    exact hrepoch
  · rw [hsec]
    exact hrlife
  · exact (hwiped.read State.engines fun _ => rfl).trans (hr.read State.engines fun _ => rfl)

/-- Without a new enabled cause only SEC_TAMPER_RAW follows the inputs. -/
theorem tamperAsserted_none {s : State} {raw : BitVec 5} (h : ∀ b, b < 5 → raw.getLsbD b = true →
    (s.nat Ix.secTamperEn).testBit b = false ∨ (s.nat Ix.secTamperState).testBit b = true) :
    exec (.tamperAsserted raw) s = .next (s.setNat Ix.secTamperRaw 0 raw.toNat) := by
  refine congrArg Host.Outcome.next (tamperLatch_none (List.filter_eq_nil_iff.mpr fun b hb hall => ?_))
  simp only [Bool.and_eq_true, Bool.not_eq_true'] at hall
  obtain ⟨⟨hraw, hen⟩, hst⟩ := hall
  rcases h b (by have := mem_upFrom.mp hb; omega) hraw with hoff | hon
  · exact Bool.false_ne_true (hoff.symm.trans hen)
  · exact Bool.false_ne_true (hst.symm.trans hon)

/-! ### The sealed copy (R411) -/

theorem le_foldl_max (cs : List Sealed) (m : Nat) :
    m ≤ cs.foldl (fun m c => max m c.seq) m ∧ ∀ x ∈ cs, x.seq ≤ cs.foldl (fun m c => max m c.seq) m := by
  induction cs generalizing m with
  | nil => exact ⟨Nat.le_refl m, fun _ h => absurd h List.not_mem_nil⟩
  | cons c cs ih =>
    obtain ⟨hm, hall⟩ := ih (max m c.seq)
    refine ⟨(Nat.le_max_left ..).trans hm, fun x hx => ?_⟩
    rcases List.mem_cons.mp hx with rfl | hx
    · exact (Nat.le_max_right ..).trans hm
    · exact hall x hx

theorem sealedCopyWrite_seals {s : State} (h : s.sec.sealDue = true) :
    ∃ t c, exec .sealedCopyWrite s = .next t ∧ t.sec.copies = c :: s.sec.copies.take 1 ∧ c.keys = s.ctl.keys ∧
      c.life = s.sec.life ∧ c.epoch = s.sec.epoch ∧ c.pub = (s.obj Ix.secImgPubkey 0).toBytes ∧
      (∀ x, x ∈ s.sec.copies → x.seq < c.seq) ∧ t.sec.sealDue = false ∧ t.dict = s.dict ∧ t.engines = s.engines :=
  ⟨_, _, congrArg Host.Outcome.next (if_pos h), rfl, rfl, rfl, rfl, rfl,
    fun x hx => Nat.lt_succ_of_le ((le_foldl_max s.sec.copies 0).2 x hx), rfl, rfl, rfl⟩

/-! ### Debug (R420, R421) -/

theorem debugGrantExpiry_ends {s : State} {g : Nat × Nat} (h : s.sec.grant = some g) (hr : s.reached g.2 = true) :
    exec .debugGrantExpiry s = .next (({ s with sec := { s.sec with grant := none, hkHalted := false } }.setNat
      Ix.secDbgState 0 0).alarm Al.secDbgGrant 0) := by
  have hany : s.sec.grant.any (fun g => s.reached g.2) = true := by rw [h]; exact hr
  refine congrArg Host.Outcome.next ((if_pos hany).trans ?_)
  unfold endGrant
  rw [h]

theorem onHalt_sec {s : State} (e : Fin 16) (hm : s.rsv.move = none) (hp : s.nat Ix.rsvPolicy = 0) : (onHalt s e).sec = s.sec := by
  obtain ⟨hs, v, h⟩ := onHalt_alone e hm hp
  rw [h, setNat_sec]

theorem haltEngine_sec {s : State} (e : Fin 16) (fault : BitVec 5) (hm : s.rsv.move = none) (hp : s.nat Ix.rsvPolicy = 0) :
    (haltEngine s e fault).sec = s.sec := by
  unfold haltEngine
  dsimp only
  rw [onHalt_sec]
  · simp [State.addWrap]
  · simpa [State.addWrap] using hm
  · rw [nat_alarm _ _ _ rfl]
    exact (nat_setNat_index _ (by decide) ..).trans ((nat_of_dict (setEngine_dict ..) ..).trans hp)

/-- A halt over JTAG reaches a running engine where the scope is open (R421). -/
theorem jtagDebugHalt_engine {s : State} (e : Fin 16) (hopen : dbgOpen s 0 = true) (hrun : (s.engine e).run = .running) :
    exec (.jtagDebugHalt (.engine e)) s = .next (haltEngine s e 1) := by
  refine congrArg Host.Outcome.next ((if_neg (by rw [hopen]; decide)).trans (if_pos ?_))
  rw [hrun]
  rfl

/-! ### The enables of the tamper sources (R416) -/

/-- A value of SEC_TAMPER_EN meets the type and range of its row, so its own rule answers. -/
theorem valueCheck_secTamperEn (s : State) (direct : Bool) {v : Nat} (hv : v < 32) :
    (objRow Ix.secTamperEn).map (fun r => valueCheck s s direct r 0 (.int v)) =
      some (if s.sec.life = 2 ∧ s.nat Ix.secTamperEn &&& v ≠ s.nat Ix.secTamperEn then Rc.state else Rc.done) := by
  have hrow : objRow Ix.secTamperEn = some
      { ix := 0x1410, name := "SEC_TAMPER_EN", ty := .u8, acc := .rwk, subs := .one, rng := .own, dflt := .int 0 } := by decide
  have hown : ownCheck s s direct 0x1410 0 (.int v) = secCheck s 0x1410 0 (.int v) := by simp [ownCheck]
  have hsec : secCheck s 0x1410 0 (.int v) =
      if s.sec.life = 2 ∧ s.nat Ix.secTamperEn &&& v ≠ s.nat Ix.secTamperEn then Rc.state else Rc.done := by
    have hnat : (Val.int v).toNat = v := rfl
    simp [secCheck, hnat, Nat.not_le.mpr hv]
  have hcap : capCheck s 0x1410 0 (.int v) = 0 := by simp [capCheck]
  rw [hrow]
  simp only [Option.map_some, valueCheck, typeRange, Rng.ok, hown, hsec, hcap]
  split_ifs <;> simp_all

end Sys2Proof.Machine
end

section
/-! The family of security and lifecycle, settled (R407 to R421). -/

open Sys2Proof Sys2Proof.Machine

/-- Settles O48: both events run the wipe of R412 on a state that differs in role, fuses or latched cause only, and the wipe is
described once; the sealed copy takes the number above the greatest. -/
theorem lifecycleAndTamperWipeTheCabinet : Obligations.LifecycleAndTamperWipeTheCabinet := by
  unfold Obligations.LifecycleAndTamperWipeTheCabinet
  exact fun s => ⟨fun _ h => lcAdvanceDone_wipes h, fun b hen hst hadv => tamperAsserted_wipes b hen hst hadv,
    fun _ h => tamperAsserted_none h, sealedCopyWrite_seals⟩

/-- Settles O49: the end of a grant is an alarm on top of the cleared grant, and a halt passes the scope's gate or is none. -/
theorem debugHaltsUnderAGrantOnly : Obligations.DebugHaltsUnderAGrantOnly := by
  unfold Obligations.DebugHaltsUnderAGrantOnly
  intro s
  refine ⟨fun g hg hr => ⟨_, debugGrantExpiry_ends hg hr, ?_, ?_, ?_⟩, fun target h => ?_, fun h => ?_, fun e hopen hrun hp hm => ?_⟩
  · rw [alarm_sec, setNat_sec]
  · rw [nat_alarm _ _ _ rfl, nat_setNat_self]
  · rw [alarm_engines, setNat_engines]
  · exact congrArg Host.Outcome.next (if_pos (by rw [h]; rfl))
  · exact congrArg Host.Outcome.next (if_neg (by rw [h]; decide))
  · have halted := haltEngine_halted e 1 hm hp
    exact ⟨_, jtagDebugHalt_engine e hopen hrun, halted.run, halted.fault, halted.others, halted.count, haltEngine_sec e 1 hm hp⟩

/-- Settles O55: the rule of the register compares the enables with their common bits, and the fuses of RETURNED clear them. -/
theorem tamperEnablesOnlyGrowInDeployed : Obligations.TamperEnablesOnlyGrowInDeployed := by
  unfold Obligations.TamperEnablesOnlyGrowInDeployed
  intro s
  refine ⟨fun direct v hv hlife => ?_, fun direct v hv hlife => ⟨fun hclear => ?_, fun hkeep => ?_⟩, lcAdvanceDone_returned⟩
  · exact (valueCheck_secTamperEn s direct hv).trans (congrArg some (if_neg (by omega)))
  · obtain ⟨b, hen, hv0⟩ := hclear
    refine (valueCheck_secTamperEn s direct hv).trans (congrArg some (if_pos ⟨hlife, fun hsame => ?_⟩))
    rw [← hsame, Nat.testBit_and, hv0, Bool.and_false] at hen
    exact Bool.false_ne_true hen
  · refine (valueCheck_secTamperEn s direct hv).trans (congrArg some (if_neg fun hboth => hboth.2 ?_))
    refine Nat.eq_of_testBit_eq fun b => ?_
    rw [Nat.testBit_and]
    cases hen : (s.nat Ix.secTamperEn).testBit b
    · rfl
    · exact hkeep b hen

end

section
/-! The cue channels (chapter 19): what an operation on one channel does there, and that it leaves the other. -/

namespace Sys2Proof.Machine

/-! ### Reading a channel after each operation on it -/

section
variable (s : State) (n m : Fin 2) (c : CueCh) (k v : Nat) (a : AlarmId) (detail : Nat)

@[simp] theorem nat_setCue (ix sub : Nat) : (setCue s n c).nat ix sub = s.nat ix sub := nat_of_dict (setCue_dict ..) ..

@[simp] theorem flag_setCue (ix sub : Nat) : (setCue s n c).flag ix sub = s.flag ix sub := by
  unfold State.flag State.int
  rw [obj_of_dict (setCue_dict ..)]

@[simp] theorem cueState_setCue : cueState (setCue s n c) m = cueState s m := nat_setCue ..

@[simp] theorem cueOf_setCueState : cueOf (setCueState s n v) m = cueOf s m := cueOf_of_cue (setNat_cue ..) m

@[simp] theorem cueState_setCueState_self : cueState (setCueState s n v) n = v := nat_setNat_self ..

theorem nat_setCueState {ix : Nat} (h : ix ≠ Ix.cueState) (sub : Nat) : (setCueState s n v).nat ix sub = s.nat ix sub :=
  nat_setNat_index s h ..

@[simp] theorem nat_setCueState_cueFaults (sub : Nat) : (setCueState s n v).nat Ix.cueFaults sub = s.nat Ix.cueFaults sub :=
  nat_setCueState s n v (by decide) sub

@[simp] theorem nat_setCueState_cueRetries (sub : Nat) : (setCueState s n v).nat Ix.cueRetries sub = s.nat Ix.cueRetries sub :=
  nat_setCueState s n v (by decide) sub

@[simp] theorem cueOf_cueFault : cueOf (cueFault s n k) m = cueOf s m := cueOf_of_cue (addHold_cue ..) m

@[simp] theorem cueState_cueFault : cueState (cueFault s n k) m = cueState s m := nat_addHold_index s (by decide) ..

@[simp] theorem nat_cueFault_self : (cueFault s n k).nat Ix.cueFaults (4 * n.val + k) =
    min (s.nat Ix.cueFaults (4 * n.val + k) + 1) 0xFFFFFFFF := nat_addHold_self ..

@[simp] theorem nat_cueFault_cueRetries (sub : Nat) : (cueFault s n k).nat Ix.cueRetries sub = s.nat Ix.cueRetries sub :=
  nat_addHold_index s (by decide) ..

@[simp] theorem flag_cueFault_cueEn (sub : Nat) : (cueFault s n k).flag Ix.cueEn sub = s.flag Ix.cueEn sub :=
  flag_setNat_index s (by decide) ..

@[simp] theorem cueOf_alarm : cueOf (s.alarm a detail) m = cueOf s m := cueOf_of_cue (alarm_cue ..) m

@[simp] theorem cueState_alarm : cueState (s.alarm a detail) m = cueState s m := nat_alarm s a detail rfl _

@[simp] theorem nat_alarm_cueFaults (sub : Nat) : (s.alarm a detail).nat Ix.cueFaults sub = s.nat Ix.cueFaults sub :=
  nat_alarm s a detail rfl _

@[simp] theorem nat_alarm_cueRetries (sub : Nat) : (s.alarm a detail).nat Ix.cueRetries sub = s.nat Ix.cueRetries sub :=
  nat_alarm s a detail rfl _

@[simp] theorem flag_alarm_cueEn (sub : Nat) : (s.alarm a detail).flag Ix.cueEn sub = s.flag Ix.cueEn sub :=
  ((Changes.refl id [] s).alarm a detail).flag rfl (List.not_mem_nil) _

end

theorem cuePlays_iff (s : State) (n : Fin 2) : cuePlays s n = true ↔ cueState s n = CueS.playing ∨ cueState s n = CueS.openLoop := by
  simp [cuePlays]

theorem cuePlays_eq_false {s : State} {n : Fin 2} {v : Nat} (h : cueState s n = v) (h2 : v ≠ 2) (h3 : v ≠ 3) :
    cuePlays s n = false := by
  simp [cuePlays, h, h2, h3]

theorem cuePlays_of_state {s t : State} {n : Fin 2} (h : cueState t n = cueState s n) : cuePlays t n = cuePlays s n := by
  simp only [cuePlays, h]

/-! ### What is left of a channel by an operation on the other -/

/-- What an operation on the cue stage changes. -/
def forgetCue (s : State) : State := { s with cue := CueSt.reset }

def cueIx : List Nat := [Ix.cueState, Ix.cueFaults]

/-- From `s` to `t` channel `ch` has kept what it is, its state and its counts. -/
structure KeepsChannel (ch : Fin 2) (s t : State) : Prop extends Changes forgetCue cueIx s t where
  channel : cueOf t ch = cueOf s ch
  state : cueState t ch = cueState s ch
  faults : ∀ k, k < 4 → t.nat Ix.cueFaults (4 * ch.val + k) = s.nat Ix.cueFaults (4 * ch.val + k)

section
variable {ch n : Fin 2} {s t u : State}

theorem KeepsChannel.refl (ch : Fin 2) (s : State) : KeepsChannel ch s s := ⟨Changes.refl .., rfl, rfl, fun _ _ => rfl⟩

theorem KeepsChannel.trans (h : KeepsChannel ch s t) (k : KeepsChannel ch t u) : KeepsChannel ch s u :=
  ⟨h.toChanges.trans k.toChanges, k.channel.trans h.channel, k.state.trans h.state,
    fun i hi => (k.faults i hi).trans (h.faults i hi)⟩

theorem KeepsChannel.latched (h : KeepsChannel ch s t) : t.nat Ix.cueFaults (4 * ch.val) = s.nat Ix.cueFaults (4 * ch.val) :=
  h.faults 0 (by decide)

theorem KeepsChannel.ite {c : Prop} [Decidable c] (ht : KeepsChannel ch s t) (hu : KeepsChannel ch s u) :
    KeepsChannel ch s (if c then t else u) := by
  split
  · exact ht
  · exact hu

theorem KeepsChannel.alarm (h : KeepsChannel ch s t) (a : AlarmId) (detail : Nat) : KeepsChannel ch s (t.alarm a detail) :=
  h.trans ⟨(Changes.refl ..).alarm a detail, cueOf_alarm .., cueState_alarm ..,
    fun _ _ => nat_alarm_cueFaults ..⟩

theorem KeepsChannel.setCue (h : KeepsChannel ch s t) (hne : ch ≠ n) (c : CueCh) : KeepsChannel ch s (setCue t n c) := by
  have hother : cueOf (Machine.setCue t n c) ch = cueOf t ch := by
    unfold cueOf Machine.setCue
    by_cases hn : n = 0
    · have hc : ch ≠ 0 := fun e => hne (e.trans hn.symm)
      simp [hn, hc]
    · have hc : ch = 0 := by omega
      simp [hn, hc]
  refine h.trans ⟨⟨?_, fun sub _ _ => obj_of_dict (setCue_dict ..) _ sub⟩, hother, cueState_setCue .., fun _ _ => nat_setCue ..⟩
  unfold Machine.setCue
  split <;> rfl

theorem KeepsChannel.setCueState (h : KeepsChannel ch s t) (hne : ch ≠ n) (v : Nat) : KeepsChannel ch s (setCueState t n v) :=
  h.trans ⟨(Changes.refl _ _ t).setNat (by decide) _ _, cueOf_setCueState ..,
    nat_setNat_ne t (objKey_ne_sub (fun e => hne (Fin.ext e)) (by omega) (by omega)) v, fun _ _ => nat_setCueState_cueFaults ..⟩

theorem KeepsChannel.cueFault (h : KeepsChannel ch s t) (hne : ch ≠ n) {k : Nat} (hk : k < 4) : KeepsChannel ch s (cueFault t n k) :=
  h.trans ⟨(Changes.refl _ _ t).addHold (by decide) _ _, cueOf_cueFault .., cueState_cueFault ..,
    fun i hi => nat_setNat_ne t (objKey_ne_sub (by have : ch.val ≠ n.val := fun e => hne (Fin.ext e); omega) (by omega) (by omega)) _⟩

theorem KeepsChannel.cueSilence (h : KeepsChannel ch s t) (hne : ch ≠ n) : KeepsChannel ch s (cueSilence t n) := h.setCue hne _

theorem KeepsChannel.cueChecks (h : KeepsChannel ch s t) (hne : ch ≠ n) (counts : Bool) : KeepsChannel ch s (cueChecks t n counts) :=
  (h.setCue hne _).setCueState hne _

theorem KeepsChannel.cueWait (h : KeepsChannel ch s t) (hne : ch ≠ n) (detail : Nat) : KeepsChannel ch s (cueWait t n detail) :=
  ((h.setCueState hne _).alarm _ _).ite ((h.setCue hne _).setCueState hne _)

theorem KeepsChannel.cueLatched (h : KeepsChannel ch s t) (hne : ch ≠ n) (detail : Nat) : KeepsChannel ch s (cueLatched t n detail) := by
  have hdone := ((h.cueSilence hne).cueFault hne (k := 0) (by decide)).alarm (Al.cueShort.src n.val) detail
  exact (hdone.cueWait hne detail).ite (hdone.setCueState hne _)

theorem KeepsChannel.cueShield (h : KeepsChannel ch s t) (hne : ch ≠ n) : KeepsChannel ch s (cueShield t n) :=
  (h.setCue hne _).ite (((h.cueSilence hne).setCueState hne _).ite h)

theorem KeepsChannel.cueBoostFault (h : KeepsChannel ch s t) (hne : ch ≠ n) : KeepsChannel ch s (cueBoostFault t n) := by
  have hdone := (h.cueSilence hne).cueFault hne (k := 0) (by decide)
  exact ((hdone.cueWait hne 0xFF).ite (hdone.setCueState hne _)).ite (h.cueFault hne (by decide))

theorem KeepsChannel.cueReturn (h : KeepsChannel ch s t) (hne : ch ≠ n) : KeepsChannel ch s (cueReturn t n) :=
  h.ite (((h.cueChecks hne _).ite (h.setCueState hne _)).ite ((h.setCue hne _).ite ((h.setCue hne _).ite h)))

/-- An operation made on both channels is made on `ch` once: what comes before it and after it leaves `ch`. -/
theorem both_channels {op : State → Fin 2 → State} (hop : ∀ {ch n r}, ch ≠ n → KeepsChannel ch r (op r n)) (s : State) (ch : Fin 2) :
    ∃ r, KeepsChannel ch s r ∧ KeepsChannel ch (op r ch) (op (op s 0) 1) := by
  by_cases h : ch = 0
  · subst h
    exact ⟨s, KeepsChannel.refl .., hop (by decide)⟩
  · have h1 : ch = 1 := by omega
    subst h1
    exact ⟨op s 0, hop (by decide), KeepsChannel.refl ..⟩

theorem other_ne (ch : Fin 2) : 1 - ch ≠ ch := by revert ch; decide

end

/-! ### Latches (R434, R435) -/

section
variable (s : State) (ch : Fin 2) (detail : Nat)

/-- Where a channel that latched goes: with CUE_EN at 0 nothing waits (R437). -/
def latchState (s : State) (ch : Fin 2) (retries : Nat) : Nat :=
  if s.flag Ix.cueEn ch.val = true then (if 3 ≤ retries then CueS.locked else CueS.waiting) else CueS.off

theorem cueWait_spec : cueState (cueWait s ch detail) ch = (if 3 ≤ s.nat Ix.cueRetries ch.val then CueS.locked else CueS.waiting) ∧
    (cueOf (cueWait s ch detail) ch).fade = (cueOf s ch).fade ∧
    (∀ k, (cueWait s ch detail).nat Ix.cueFaults k = s.nat Ix.cueFaults k) ∧
    (cueWait s ch detail).nat Ix.cueRetries ch.val = s.nat Ix.cueRetries ch.val := by
  unfold cueWait
  split <;> simp

@[simp] theorem cueOf_cueSilence : cueOf (cueSilence s ch) ch =
    { cueOf s ch with fade := Fade.silent, startDue := false, next := .none } := cueOf_setCue_self ..

@[simp] theorem nat_cueSilence (ix sub : Nat) : (cueSilence s ch).nat ix sub = s.nat ix sub := nat_setCue ..

@[simp] theorem flag_cueSilence (ix sub : Nat) : (cueSilence s ch).flag ix sub = s.flag ix sub := flag_setCue ..

/-- A channel has latched: counted, silent, and waiting as its retries allow. -/
structure Latches (ch : Fin 2) (s t : State) : Prop where
  fault : t.nat Ix.cueFaults (4 * ch.val) = min (s.nat Ix.cueFaults (4 * ch.val) + 1) 0xFFFFFFFF
  retries : t.nat Ix.cueRetries ch.val = s.nat Ix.cueRetries ch.val
  fade : (cueOf t ch).fade = Fade.silent
  state : cueState t ch = latchState s ch (s.nat Ix.cueRetries ch.val)

/-- From a channel that is silent and counted: the wait, or nothing where CUE_EN is 0. -/
theorem wait_latches {r : State} (hfault : r.nat Ix.cueFaults (4 * ch.val) = min (s.nat Ix.cueFaults (4 * ch.val) + 1) 0xFFFFFFFF)
    (hretries : r.nat Ix.cueRetries ch.val = s.nat Ix.cueRetries ch.val) (hfade : (cueOf r ch).fade = Fade.silent) :
    Latches ch s (if s.flag Ix.cueEn ch.val then cueWait r ch detail else setCueState r ch CueS.off) := by
  obtain ⟨wstate, wfade, wfaults, wretries⟩ := cueWait_spec r ch detail
  by_cases h : s.flag Ix.cueEn ch.val = true
  · rw [if_pos h]
    refine ⟨(wfaults _).trans hfault, wretries.trans hretries, wfade.trans hfade, ?_⟩
    rw [wstate, hretries, latchState, if_pos h]
  · rw [if_neg h]
    refine ⟨(nat_setCueState_cueFaults ..).trans hfault, (nat_setCueState_cueRetries ..).trans hretries, ?_, ?_⟩
    · rw [cueOf_setCueState, hfade]
    · rw [cueState_setCueState_self, latchState, if_neg h]

theorem nat_silenced : (cueFault (cueSilence s ch) ch 0).nat Ix.cueFaults (4 * ch.val) =
    min (s.nat Ix.cueFaults (4 * ch.val) + 1) 0xFFFFFFFF :=
  (nat_cueFault_self _ ch 0).trans (by rw [nat_cueSilence]; rfl)

theorem cueLatched_latches : Latches ch s (cueLatched s ch detail) := by
  unfold cueLatched
  exact wait_latches s ch detail ((nat_alarm_cueFaults ..).trans (nat_silenced s ch)) (by simp) (by simp)

end

/-! ### Checks and retries (R429, R431, R435) -/

/-- What one channel's operation leaves of the other, of the engines and of the lattice. -/
def OtherKept (ch : Fin 2) (s t : State) : Prop := cueOf t (1 - ch) = cueOf s (1 - ch) ∧ cueState t (1 - ch) = cueState s (1 - ch) ∧
  t.engines = s.engines ∧ t.lat = s.lat ∧ t.out = s.out

section
variable {s t u : State} {ch : Fin 2}

theorem OtherKept.trans (h : OtherKept ch s t) (k : OtherKept ch t u) : OtherKept ch s u := by
  obtain ⟨hc, hs, he, hl, ho⟩ := h
  obtain ⟨kc, ks, ke, kl, ko⟩ := k
  exact ⟨kc.trans hc, ks.trans hs, ke.trans he, kl.trans hl, ko.trans ho⟩

theorem KeepsChannel.otherKept (h : KeepsChannel (1 - ch) s t) : OtherKept ch s t :=
  ⟨h.channel, h.state, h.read State.engines fun _ => rfl, h.read State.lat fun _ => rfl, h.read State.out fun _ => rfl⟩

theorem otherKept_setNat (s : State) (ch : Fin 2) {ix : Nat} (hix : Ix.cueState ≠ ix) (sub v : Nat) :
    OtherKept ch s (s.setNat ix sub v) :=
  ⟨cueOf_of_cue (setNat_cue ..) _, nat_setNat_index s hix .., setNat_engines .., setNat_lat .., setNat_out ..⟩

theorem KeepsChannel.after_setNat {ix sub v : Nat} (h : KeepsChannel (1 - ch) (s.setNat ix sub v) t) (hix : Ix.cueState ≠ ix) :
    OtherKept ch s t := (otherKept_setNat s ch hix sub v).trans h.otherKept

/-- A channel that starts to play from its checks. -/
def startChannel (s : State) (ch : Fin 2) (code : Nat) : State :=
  let s1 := s.setNat Ix.cueCheckResult ch.val code
  setCue s1 ch { cueOf s ch with startDue := true, fade := Fade.silent, next := .none, since := s1.clk.sysCounter }

theorem checks_pass {code : Fin 6} (h : cueState s ch = CueS.checking) (h0 : code.val = 0) :
    exec (.cueChecksDone ch code) s = .next (setCueState (startChannel s ch code.val) ch CueS.playing) :=
  congrArg Host.Outcome.next ((if_neg (not_not_intro h)).trans ((if_pos (Or.inl h0)).trans (if_pos h0)))

theorem checks_openLoop {code : Fin 6} (h : cueState s ch = CueS.checking) (h5 : code.val = 5) :
    exec (.cueChecksDone ch code) s = .next
      (((cueFault (setCueState (startChannel s ch code.val) ch CueS.openLoop) ch 1).alarm (Al.cueShort.src ch.val) code.val).alarm
        (Al.cueFbFault.src ch.val)) :=
  congrArg Host.Outcome.next ((if_neg (not_not_intro h)).trans ((if_pos (Or.inr h5)).trans (if_neg (by omega))))

theorem startChannel_keeps (s : State) (ch : Fin 2) (code : Nat) :
    KeepsChannel (1 - ch) (s.setNat Ix.cueCheckResult ch.val code) (startChannel s ch code) :=
  (KeepsChannel.refl ..).setCue (other_ne ch) _

theorem cueOf_startChannel (s : State) (ch : Fin 2) (code : Nat) : cueOf (startChannel s ch code) ch =
    { cueOf s ch with startDue := true, fade := Fade.silent, next := .none, since := s.clk.sysCounter } := by
  simp [startChannel]

theorem nat_startChannel (s : State) (ch : Fin 2) (code : Nat) :
    (startChannel s ch code).nat Ix.cueCheckResult ch.val = code ∧
    ∀ k, (startChannel s ch code).nat Ix.cueFaults k = s.nat Ix.cueFaults k :=
  ⟨(nat_setCue ..).trans (nat_setNat_self ..), fun _ => (nat_setCue ..).trans (nat_setNat_index _ (by decide) ..)⟩

/-- The retries of a channel after a check that failed: those of a landing of CUE_EN count (R435). -/
def retriesFailed (s : State) (ch : Fin 2) : Nat :=
  if (cueOf s ch).counts = true then min (s.nat Ix.cueRetries ch.val + 1) 3 else s.nat Ix.cueRetries ch.val

/-- The state in which a check that failed latches its channel. -/
def failedCheck (s : State) (ch : Fin 2) (code : Nat) : State :=
  let s1 := s.setNat Ix.cueCheckResult ch.val code
  if (cueOf s ch).counts then s1.setNat Ix.cueRetries ch.val (min (s.nat Ix.cueRetries ch.val + 1) 3) else s1

theorem checks_fail {code : Fin 6} (h : cueState s ch = CueS.checking) (h0 : code ≠ 0) (h5 : code ≠ 5) :
    exec (.cueChecksDone ch code) s = .next (cueLatched (failedCheck s ch code.val) ch code.val) :=
  congrArg Host.Outcome.next ((if_neg (not_not_intro h)).trans (if_neg (by omega)))

theorem nat_failedCheck (s : State) (ch : Fin 2) (code : Nat) {ix : Nat} (hr : ix ≠ Ix.cueCheckResult) (hc : ix ≠ Ix.cueRetries)
    (sub : Nat) : (failedCheck s ch code).nat ix sub = s.nat ix sub := by
  unfold failedCheck
  split
  · exact (nat_setNat_index _ hc ..).trans (nat_setNat_index _ hr ..)
  · exact nat_setNat_index _ hr ..

theorem failedCheck_otherKept (s : State) (ch : Fin 2) (code : Nat) : OtherKept ch s (failedCheck s ch code) := by
  have h1 := otherKept_setNat s ch (ix := Ix.cueCheckResult) (by decide) ch.val code
  unfold failedCheck
  split
  · exact h1.trans (otherKept_setNat _ ch (by decide) ..)
  · exact h1

theorem failedCheck_spec (s : State) (ch : Fin 2) (code : Nat) :
    (failedCheck s ch code).nat Ix.cueCheckResult ch.val = code ∧
    (failedCheck s ch code).nat Ix.cueRetries ch.val = retriesFailed s ch ∧
    (failedCheck s ch code).flag Ix.cueEn ch.val = s.flag Ix.cueEn ch.val ∧ (failedCheck s ch code).cue = s.cue := by
  unfold failedCheck retriesFailed
  by_cases h : (cueOf s ch).counts = true
  · simp only [h, if_true]
    refine ⟨(nat_setNat_index _ (by decide) ..).trans (nat_setNat_self ..), nat_setNat_self .., ?_, by simp⟩
    rw [flag_setNat_index _ (by decide), flag_setNat_index _ (by decide)]
  · simp only [h]
    exact ⟨nat_setNat_self .., nat_setNat_index _ (by decide) .., flag_setNat_index _ (by decide) .., setNat_cue ..⟩

end

end Sys2Proof.Machine
end

section
/-! The cue stage, settled (R429 to R437). -/

namespace Sys2Proof.Machine

variable {s : State} {ch : Fin 2}

/-- The checks end with result 0: the channel plays (R429). -/
theorem cueChecksDone_plays {code : Fin 6} (h : cueState s ch = CueS.checking) (h0 : code.val = 0) :
    ∃ t, exec (.cueChecksDone ch code) s = .next t ∧ OtherKept ch s t ∧ t.nat Ix.cueCheckResult ch.val = code.val ∧
      cueState t ch = CueS.playing ∧ cueOf t ch = { cueOf s ch with
        startDue := true, fade := Fade.silent, next := .none, since := s.clk.sysCounter } := by
  obtain ⟨hresult, -⟩ := nat_startChannel s ch code.val
  exact ⟨_, checks_pass h h0, ((startChannel_keeps ..).setCueState (other_ne ch) _).after_setNat (by decide),
    (nat_setCueState _ _ _ (by decide) _).trans hresult, cueState_setCueState_self ..,
    (cueOf_setCueState ..).trans (cueOf_startChannel ..)⟩

/-- The checks end with result 5: the channel plays open-loop, counted (R431). -/
theorem cueChecksDone_openLoop {code : Fin 6} (h : cueState s ch = CueS.checking) (h5 : code.val = 5) :
    ∃ t, exec (.cueChecksDone ch code) s = .next t ∧ OtherKept ch s t ∧ t.nat Ix.cueCheckResult ch.val = code.val ∧
      cueState t ch = CueS.openLoop ∧
      t.nat Ix.cueFaults (4 * ch.val + 1) = min (s.nat Ix.cueFaults (4 * ch.val + 1) + 1) 0xFFFFFFFF ∧
      cueOf t ch = { cueOf s ch with startDue := true, fade := Fade.silent, next := .none, since := s.clk.sysCounter } := by
  obtain ⟨hresult, hfaults⟩ := nat_startChannel s ch code.val
  have hkeep := (((startChannel_keeps s ch code.val).setCueState (other_ne ch) CueS.openLoop).cueFault (other_ne ch)
    (k := 1) (by decide)).alarm (Al.cueShort.src ch.val) code.val
  refine ⟨_, checks_openLoop h h5, (hkeep.alarm _ _).after_setNat (by decide), ?_, ?_, ?_, ?_⟩
  · rw [nat_alarm _ _ _ rfl, nat_alarm _ _ _ rfl]
    exact (nat_addHold_index _ (by decide) ..).trans ((nat_setCueState _ _ _ (by decide) _).trans hresult)
  · simp
  · simp [hfaults]
  · simp [cueOf_startChannel]

/-- The checks end with another result: the channel latches, with the retry counted that a landing of CUE_EN counts (R435). -/
theorem cueChecksDone_fails {code : Fin 6} (h : cueState s ch = CueS.checking) (h0 : code ≠ 0) (h5 : code ≠ 5) :
    ∃ t, exec (.cueChecksDone ch code) s = .next t ∧ OtherKept ch s t ∧ t.nat Ix.cueCheckResult ch.val = code.val ∧
      t.nat Ix.cueFaults (4 * ch.val) = min (s.nat Ix.cueFaults (4 * ch.val) + 1) 0xFFFFFFFF ∧
      t.nat Ix.cueRetries ch.val = retriesFailed s ch ∧ (cueOf t ch).fade = Fade.silent ∧
      cueState t ch = latchState s ch (retriesFailed s ch) := by
  obtain ⟨hresult, hretries, hen, hcue⟩ := failedCheck_spec s ch code.val
  have hlatch := cueLatched_latches (failedCheck s ch code.val) ch code.val
  have hkeep := (KeepsChannel.refl (1 - ch) (failedCheck s ch code.val)).cueLatched (other_ne ch) code.val
  refine ⟨_, checks_fail h h0 h5, (failedCheck_otherKept ..).trans hkeep.otherKept, (hkeep.nat rfl (by decide) _).trans hresult, ?_, ?_,
    hlatch.fade, ?_⟩
  · rw [hlatch.fault, nat_failedCheck s ch _ (by decide) (by decide)]
  · rw [hlatch.retries, hretries]
  · rw [hlatch.state, hretries, latchState, latchState, hen]

end Sys2Proof.Machine

open Sys2Proof Sys2Proof.Machine

/-- Settles O50: each outcome of the checks is one lemma, a latch is described once, and what the other channel keeps is carried
through every operation. -/
theorem cueChannelsCheckLatchAndRetry : Obligations.CueChannelsCheckLatchAndRetry := by
  unfold Obligations.CueChannelsCheckLatchAndRetry
  intro s ch n c r other fault
  refine ⟨fun code h => ?_, fun h => ?_, fun h hs hh hr ht => ?_, fun h ht => ?_, fun h => ?_⟩
  · by_cases h0 : code = 0
    · obtain ⟨t, hx, hother, hresult, hstate, hof⟩ := cueChecksDone_plays h (congrArg Fin.val h0)
      exact ⟨t, hx, hother, hresult, fun _ => hstate, fun h5 => absurd (h0.symm.trans h5) (by decide), fun _ => hof,
        fun hne => absurd h0 hne⟩
    · by_cases h5 : code = 5
      · obtain ⟨t, hx, hother, hresult, hstate, hfault, hof⟩ := cueChecksDone_openLoop h (congrArg Fin.val h5)
        exact ⟨t, hx, hother, hresult, fun h => absurd h h0, fun _ => ⟨hstate, hfault⟩, fun _ => hof, fun _ hne => absurd h5 hne⟩
      · obtain ⟨t, hx, hother, hresult, hfault, hretries, hfade, hstate⟩ := cueChecksDone_fails h h0 h5
        exact ⟨t, hx, hother, hresult, fun h => absurd h h0, fun h => absurd h h5, fun h => absurd h (not_or.mpr ⟨h0, h5⟩),
          fun _ _ => ⟨hfault, hretries, hfade, hstate⟩⟩
  · have hlatch := cueLatched_latches s ch 0xFF
    exact ⟨_, congrArg Host.Outcome.next (if_pos h), ((KeepsChannel.refl ..).cueLatched (other_ne ch) _).otherKept, hlatch.fault,
      hlatch.retries, hlatch.fade, hlatch.state⟩
  · have hof := cueOf_of_cue (setNat_cue s Ix.cueRetries ch.val (r + 1)) ch
    refine ⟨_, congrArg Host.Outcome.next (if_pos ⟨h, by rw [hs]; rfl, by rw [hh]; rfl, hr, ht⟩),
      ((KeepsChannel.refl ..).cueChecks (other_ne ch) _).after_setNat (by decide), ?_, ?_, ?_⟩
    · exact (nat_cueChecks_ne _ _ _ (objKey_ne_index (by decide))).trans (nat_setNat_self ..)
    · rw [cueState_cueChecks, hof, if_neg (by rw [hs, hh]; decide)]
    · simp [cueChecks]
  · exact congrArg Host.Outcome.next (if_pos (by rw [h, ht]; rfl))
  · have hkeep := ((KeepsChannel.refl (1 - ch) s).setCueState (other_ne ch) CueS.openLoop).cueFault (other_ne ch) (k := 1) (by decide)
    refine ⟨_, congrArg Host.Outcome.next (if_pos h), (hkeep.alarm (Al.cueFbFault.src ch.val) 0).otherKept, ?_, ?_, ?_⟩
    · simp
    · exact (nat_alarm_cueFaults ..).trans ((nat_cueFault_self ..).trans (by rw [nat_setCueState_cueFaults]))
    · simp [c]

end

section
/-! The reports and the protections of a channel (R432, R433, R436, R437). -/

namespace Sys2Proof.Machine

section
variable {s t : State} {ch : Fin 2}

/-! ### Reports (R432, R433) -/

theorem judgeZ_changes (s : State) (ch : Fin 2) (mag : Nat) : Changes forgetCue [Ix.cueFaults] s (judgeZ s ch mag) := by
  have hset (c : CueCh) : Changes forgetCue [Ix.cueFaults] s (setCue s ch c) := by
    refine ⟨?_, fun sub _ _ => obj_of_dict (setCue_dict ..) _ sub⟩
    unfold setCue
    split <;> rfl
  unfold judgeZ
  exact ((((hset _).addHold (by decide) _ _).alarm _ _).ite (hset _)).ite (hset _)

/-- A report inside the limits. -/
theorem judgeZ_inside {mag : Nat} (hlo : s.nat Ix.cueZLimits ch.val % 65536 ≤ mag) (hhi : mag ≤ s.nat Ix.cueZLimits ch.val / 65536) :
    (cueOf (judgeZ s ch mag) ch).zOut = 0 ∧ (cueOf (judgeZ s ch mag) ch).zIn = min ((cueOf s ch).zIn + 1) 3 := by
  unfold judgeZ
  dsimp only
  rw [if_neg (by omega), cueOf_setCue_self]
  exact ⟨rfl, rfl⟩

/-- A report outside the limits; the third in a row warns. -/
theorem judgeZ_outside {mag : Nat} (h : mag < s.nat Ix.cueZLimits ch.val % 65536 ∨ s.nat Ix.cueZLimits ch.val / 65536 < mag) :
    (cueOf (judgeZ s ch mag) ch).zIn = 0 ∧ (cueOf (judgeZ s ch mag) ch).zOut = min ((cueOf s ch).zOut + 1) 3 ∧
    (2 ≤ (cueOf s ch).zOut → (cueOf s ch).zWarned = false → (cueOf (judgeZ s ch mag) ch).zWarned = true ∧
      (judgeZ s ch mag).nat Ix.cueFaults (4 * ch.val + 3) = min (s.nat Ix.cueFaults (4 * ch.val + 3) + 1) 0xFFFFFFFF) := by
  unfold judgeZ
  dsimp only
  rw [if_pos h]
  by_cases hwarn : 3 ≤ (cueOf s ch).zOut + 1 ∧ (cueOf s ch).zWarned = false
  · simp [hwarn]
  · refine ⟨?_, ?_, fun h2 hw => absurd ⟨by omega, hw⟩ hwarn⟩ <;> split <;> simp

/-! ### Protections (R436, R437) -/

/-- What follows the fade-out of a channel that a protection stops. -/
def afterShield (c : CueCh) : CueNext := if c.next = .off then .off else .shield

theorem cueShield_plays (h : cuePlays s ch = true) : (cueOf (cueShield s ch) ch).fade = fadeOut (cueOf s ch).fade ∧
    (cueOf (cueShield s ch) ch).next = afterShield (cueOf s ch) ∧ cueState (cueShield s ch) ch = cueState s ch := by
  unfold cueShield
  simp [h, afterShield]

theorem cueShield_checking (h : cueState s ch = CueS.checking) :
    cueState (cueShield s ch) ch = CueS.shielded ∧ (cueOf (cueShield s ch) ch).fade = Fade.silent := by
  unfold cueShield
  simp [h, cuePlays_eq_false h (by decide) (by decide)]

/-- The supply's protection of one channel holds or ends. -/
def setSupply (on : Bool) (s : State) (n : Fin 2) : State := setCue s n { cueOf s n with supply := on }

theorem KeepsChannel.setSupply {n : Fin 2} (h : KeepsChannel ch s t) (hne : ch ≠ n) (on : Bool) :
    KeepsChannel ch s (setSupply on t n) := h.setCue hne _

/-- The supply's protection on both channels. -/
theorem setSupply_both (on : Bool) (s : State) (ch : Fin 2) :
    cueOf (setSupply on (setSupply on s 0) 1) ch = { cueOf s ch with supply := on } ∧
    cueState (setSupply on (setSupply on s 0) 1) ch = cueState s ch := by
  obtain ⟨r, hr, ht⟩ := both_channels (fun hne => (KeepsChannel.refl _ _).setSupply hne on) s ch
  constructor
  · rw [ht.channel, setSupply, cueOf_setCue_self, hr.channel]
  · rw [ht.state, setSupply, cueState_setCue, hr.state]

/-- What an operation on both channels changes. -/
theorem both_changes {op : State → Fin 2 → State} (hop : ∀ {ch n r}, ch ≠ n → KeepsChannel ch r (op r n)) (s : State) :
    Changes forgetCue cueIx s (op (op s 0) 1) :=
  (hop (ch := 1) (n := 0) (by decide)).toChanges.trans (hop (ch := 0) (n := 1) (by decide)).toChanges

theorem cueBoost_eq (s : State) : ∃ r, KeepsChannel ch s r ∧ exec (.cueSupplyFault true) s = .next (cueBoostFault (cueBoostFault r 0) 1) :=
  ⟨if (!true && s.cue.ch0.supply && s.cue.ch1.supply) = true then s else s.alarm Al.cueSupply,
    (KeepsChannel.refl ..).ite ((KeepsChannel.refl ..).alarm ..), congrArg Host.Outcome.next (if_pos rfl)⟩

theorem cueSupplyFault_eq (s : State) : ∃ r, KeepsChannel ch s r ∧ exec (.cueSupplyFault false) s = .next
    (setSupply true (setSupply true (cueShield (cueShield r 0) 1) 0) 1) :=
  ⟨if (!false && s.cue.ch0.supply && s.cue.ch1.supply) = true then s else s.alarm Al.cueSupply,
    (KeepsChannel.refl ..).ite ((KeepsChannel.refl ..).alarm ..), congrArg Host.Outcome.next (if_neg Bool.false_ne_true)⟩

/-- A supply out of its limits stops both channels under their fades (R436). -/
theorem cueSupplyFault_shields (s : State) (ch : Fin 2) : ∃ t, exec (.cueSupplyFault false) s = .next t ∧
    (cueOf t ch).supply = true ∧ t.out = s.out ∧ t.engines = s.engines ∧
    (cuePlays s ch = true → (cueOf t ch).fade = fadeOut (cueOf s ch).fade ∧ (cueOf t ch).next = afterShield (cueOf s ch) ∧
      cueState t ch = cueState s ch) ∧
    (cueState s ch = CueS.checking → cueState t ch = CueS.shielded ∧ (cueOf t ch).fade = Fade.silent) := by
  obtain ⟨r, hr, hx⟩ := cueSupplyFault_eq (ch := ch) s
  obtain ⟨u, hu, hw⟩ := both_channels (op := cueShield) (fun hne => (KeepsChannel.refl _ _).cueShield hne) r ch
  have hru := hr.trans hu
  have hshield := both_changes (op := cueShield) (fun hne => (KeepsChannel.refl _ _).cueShield hne) r
  generalize cueShield (cueShield r 0) 1 = w at hx hw hshield
  obtain ⟨hof, hstate⟩ := setSupply_both true w ch
  have hall := (hr.toChanges.trans hshield).trans (both_changes (fun hne => (KeepsChannel.refl _ _).setSupply hne true) w)
  refine ⟨_, hx, by rw [hof], hall.read State.out fun _ => rfl, hall.read State.engines fun _ => rfl, fun hp => ?_, fun hc => ?_⟩
  · obtain ⟨hfade, hnext, hst⟩ := cueShield_plays ((cuePlays_of_state hru.state).trans hp)
    rw [hof, hstate, hw.channel, hw.state, hfade, hnext, hst, hru.channel, hru.state]
    exact ⟨rfl, rfl, rfl⟩
  · obtain ⟨hst, hfade⟩ := cueShield_checking (hru.state.trans hc)
    rw [hof, hstate, hw.channel, hw.state, hst]
    exact ⟨rfl, hfade⟩

/-! ### The boost out of its limits (R436) -/

theorem cueBoostFault_counts (s : State) (ch : Fin 2) : (cueBoostFault s ch).nat Ix.cueFaults (4 * ch.val) =
    min (s.nat Ix.cueFaults (4 * ch.val) + 1) 0xFFFFFFFF := by
  unfold cueBoostFault
  dsimp only
  split
  · exact (wait_latches s ch 0xFF (nat_silenced s ch) (by simp) (by simp)).fault
  · exact nat_cueFault_self s ch 0

theorem cueBoostFault_plays (h : cuePlays s ch = true) : Latches ch s (cueBoostFault s ch) := by
  unfold cueBoostFault
  dsimp only
  rw [if_pos (Or.inl h)]
  exact wait_latches s ch 0xFF (nat_silenced s ch) (by simp) (by simp)

/-- A boost out of its limits latches each channel that plays (R436). -/
theorem cueBoost_latches (s : State) (ch : Fin 2) : ∃ t, exec (.cueSupplyFault true) s = .next t ∧ t.out = s.out ∧
    t.engines = s.engines ∧ t.nat Ix.cueFaults (4 * ch.val) = min (s.nat Ix.cueFaults (4 * ch.val) + 1) 0xFFFFFFFF ∧
    (cuePlays s ch = true → (cueOf t ch).fade = Fade.silent ∧ cueState t ch = latchState s ch (s.nat Ix.cueRetries ch.val)) := by
  obtain ⟨r, hwarn, hx⟩ := cueBoost_eq (ch := ch) s
  obtain ⟨u, hu, hw⟩ := both_channels (op := cueBoostFault) (fun hne => (KeepsChannel.refl _ _).cueBoostFault hne) r ch
  have hall := hwarn.toChanges.trans (both_changes (op := cueBoostFault) (fun hne => (KeepsChannel.refl _ _).cueBoostFault hne) r)
  have hru := hwarn.trans hu
  refine ⟨_, hx, hall.read State.out fun _ => rfl, hall.read State.engines fun _ => rfl, ?_, fun hp => ?_⟩
  · rw [hw.latched, cueBoostFault_counts, hru.latched]
  · have hlatch := cueBoostFault_plays ((cuePlays_of_state hru.state).trans hp)
    refine ⟨by rw [hw.channel, hlatch.fade], ?_⟩
    rw [hw.state, hlatch.state, hru.nat rfl (by decide), latchState, latchState, hru.flag rfl (by decide)]

/-! ### Returns (R436, R437) -/

/-- The state a protected channel returns to. -/
def backState (s : State) (ch : Fin 2) : Nat := if s.flag Ix.cueEn ch.val = true then CueS.checking else CueS.off

theorem cueReturn_protections (s : State) (ch : Fin 2) :
    (cueOf (cueReturn s ch) ch).supply = (cueOf s ch).supply ∧ (cueOf (cueReturn s ch) ch).hot = (cueOf s ch).hot := by
  unfold cueReturn
  dsimp only
  split
  · exact ⟨rfl, rfl⟩
  · split
    · split <;> simp [cueChecks]
    · split
      · simp
      · split <;> simp

theorem cueReturn_back (hst : cueState s ch = CueS.shielded) (hs : (cueOf s ch).supply = false) (hh : (cueOf s ch).hot = false) :
    cueState (cueReturn s ch) ch = backState s ch := by
  unfold cueReturn backState
  dsimp only
  rw [if_neg (by rw [hs, hh]; decide), if_pos hst]
  split
  · rw [cueState_cueChecks, hs, hh]
    rfl
  · exact cueState_setCueState_self ..

theorem cueReturn_hot (hh : (cueOf s ch).hot = true) : cueReturn s ch = s := by
  unfold cueReturn
  exact if_pos (by rw [hh, Bool.or_true])

/-- The supply returns: a protected channel with no other protection comes back through the checks. -/
theorem cueSupplyReturn_returns (s : State) (ch : Fin 2) : ∃ t, exec .cueSupplyReturn s = .next t ∧ (cueOf t ch).supply = false ∧
    t.engines = s.engines ∧
    (cueState s ch = CueS.shielded → (cueOf s ch).hot = false → cueState t ch = backState s ch) ∧
    (cueState s ch = CueS.shielded → (cueOf s ch).hot = true → cueState t ch = CueS.shielded) := by
  have hx : exec .cueSupplyReturn s = .next (cueReturn (cueReturn (setSupply false (setSupply false s 0) 1) 0) 1) := rfl
  obtain ⟨hof, hstate⟩ := setSupply_both false s ch
  have hset := both_changes (fun hne => (KeepsChannel.refl _ _).setSupply hne false) s
  generalize setSupply false (setSupply false s 0) 1 = r at hx hof hstate hset
  obtain ⟨u, hu, hw⟩ := both_channels (op := cueReturn) (fun hne => (KeepsChannel.refl _ _).cueReturn hne) r ch
  have hall := hset.trans (both_changes (op := cueReturn) (fun hne => (KeepsChannel.refl _ _).cueReturn hne) r)
  have husupply : (cueOf u ch).supply = false := by rw [hu.channel, hof]
  have huhot : (cueOf u ch).hot = (cueOf s ch).hot := by rw [hu.channel, hof]
  have hustate := hu.state.trans hstate
  have huen : u.flag Ix.cueEn ch.val = s.flag Ix.cueEn ch.val :=
    (hu.flag rfl (by decide) _).trans (hset.flag rfl (by decide) _)
  refine ⟨_, hx, ?_, hall.read State.engines fun _ => rfl, fun hst hhot => ?_, fun hst hhot => ?_⟩
  · rw [hw.channel, (cueReturn_protections u ch).1, husupply]
  · rw [hw.state, cueReturn_back (hustate.trans hst) husupply (huhot.trans hhot), backState, backState, huen]
  · rw [hw.state, cueReturn_hot (huhot.trans hhot), hustate, hst]

/-- A channel too hot: counted, and stopped under its fade where it plays (R436). -/
theorem cueThermalFault_shields (s : State) (ch : Fin 2) : ∃ t, exec (.cueThermalFault ch) s = .next t ∧
    (cueOf t ch).hot = true ∧ t.engines = s.engines ∧
    t.nat Ix.cueFaults (4 * ch.val + 2) = min (s.nat Ix.cueFaults (4 * ch.val + 2) + 1) 0xFFFFFFFF ∧
    cueOf t (1 - ch) = cueOf s (1 - ch) ∧
    (cuePlays s ch = true → (cueOf t ch).fade = fadeOut (cueOf s ch).fade ∧ (cueOf t ch).next = afterShield (cueOf s ch)) := by
  let r := (cueFault s ch 2).alarm (Al.cueThermal.src ch.val)
  have hx : exec (.cueThermalFault ch) s = .next (setCue (cueShield r ch) ch { cueOf (cueShield r ch) ch with hot := true }) := rfl
  have hr : KeepsChannel (1 - ch) s r := ((KeepsChannel.refl ..).cueFault (other_ne ch) (by decide)).alarm ..
  have hof : cueOf r ch = cueOf s ch := by simp [r]
  have hstate : cueState r ch = cueState s ch := by simp [r]
  have hfault : r.nat Ix.cueFaults (4 * ch.val + 2) = min (s.nat Ix.cueFaults (4 * ch.val + 2) + 1) 0xFFFFFFFF := by simp [r]
  clear_value r
  have hkeep := (hr.cueShield (other_ne ch)).setCue (other_ne ch) { cueOf (cueShield r ch) ch with hot := true }
  refine ⟨_, hx, by rw [cueOf_setCue_self], hkeep.read State.engines fun _ => rfl, ?_, hkeep.channel, fun hp => ?_⟩
  · rw [nat_setCue, ← hfault]
    unfold cueShield
    split_ifs <;> simp
  · obtain ⟨hfade, hnext, -⟩ := cueShield_plays ((cuePlays_of_state hstate).trans hp)
    rw [cueOf_setCue_self, ← hof]
    exact ⟨hfade, hnext⟩

/-- A channel has cooled. -/
theorem cueThermalReturn_returns (s : State) (ch : Fin 2) : ∃ t, exec (.cueThermalReturn ch) s = .next t ∧
    (cueOf t ch).hot = false ∧ t.engines = s.engines ∧ cueOf t (1 - ch) = cueOf s (1 - ch) ∧
    (cueState s ch = CueS.shielded → (cueOf s ch).supply = false → cueState t ch = backState s ch) := by
  have hx : exec (.cueThermalReturn ch) s = .next (cueReturn (setCue s ch { cueOf s ch with hot := false }) ch) := rfl
  have hkeep := ((KeepsChannel.refl (1 - ch) s).setCue (other_ne ch) { cueOf s ch with hot := false }).cueReturn (other_ne ch)
  refine ⟨_, hx, ?_, hkeep.read State.engines fun _ => rfl, hkeep.channel, fun hst hs => ?_⟩
  · rw [(cueReturn_protections ..).2, cueOf_setCue_self]
  · rw [cueReturn_back ((cueState_setCue ..).trans hst) (by rw [cueOf_setCue_self, hs]) (by rw [cueOf_setCue_self]), backState,
      backState, flag_setCue]

/-! ### The end of a fade (R430) -/

/-- What follows a fade-out that has reached 0. -/
def fadeEnded (s : State) (ch : Fin 2) : State :=
  match (cueOf s ch).next with
  | .none => s
  | .off => setCueState (cueSilence s ch) ch CueS.off
  | .shield => setCueState (cueSilence s ch) ch CueS.shielded
  | .check => if s.flag Ix.cueEn ch.val then cueChecks s ch (cueOf s ch).counts else setCueState (cueSilence s ch) ch CueS.off

theorem cueFadeEnd_eq (h : (cueOf s ch).fade.mode = .silent) : exec (.cueFadeEnd ch) s = .next (fadeEnded s ch) :=
  congrArg Host.Outcome.next (if_neg (by rw [h]; decide))

theorem fadeEnded_keeps (s : State) (ch : Fin 2) : KeepsChannel (1 - ch) s (fadeEnded s ch) := by
  have hstop (v : Nat) := ((KeepsChannel.refl (1 - ch) s).cueSilence (other_ne ch)).setCueState (other_ne ch) v
  unfold fadeEnded
  split
  · exact KeepsChannel.refl ..
  · exact hstop _
  · exact hstop _
  · exact ((KeepsChannel.refl ..).cueChecks (other_ne ch) _).ite (hstop _)

theorem fadeEnded_check (hn : (cueOf s ch).next = .check) (hs : (cueOf s ch).supply = false) (hh : (cueOf s ch).hot = false) :
    cueState (fadeEnded s ch) ch = backState s ch := by
  unfold fadeEnded backState
  rw [hn]
  dsimp only
  split
  · rw [cueState_cueChecks, hs, hh]
    rfl
  · exact cueState_setCueState_self ..

/-- A fade-out to OFF, or to PROTECTED, ends there. -/
theorem fadeEnded_stops : ((cueOf s ch).next = .none → fadeEnded s ch = s) ∧
    ((cueOf s ch).next = .off → cueState (fadeEnded s ch) ch = CueS.off) ∧
    ((cueOf s ch).next = .shield → cueState (fadeEnded s ch) ch = CueS.shielded) := by
  refine ⟨fun hn => ?_, fun hn => ?_, fun hn => ?_⟩ <;> unfold fadeEnded <;> rw [hn]
  · exact cueState_setCueState_self ..
  · exact cueState_setCueState_self ..

/-- A report is written to its registers and judged. -/
theorem sillReport_eq (mag phase : Half) (fosc : Word) (temp : Int) (bst pvdd : Half) (h : cuePlays s ch = true) :
    ∃ r, exec (.sillReport ch mag phase fosc temp bst pvdd) s = .next (judgeZ r ch mag.toNat) ∧ r.cue = s.cue ∧
      r.nat Ix.cueZ ch.val = mag.toNat + 65536 * phase.toNat ∧ r.nat Ix.cueFosc ch.val = fosc.toNat ∧
      r.int Ix.cueTemp ch.val = temp ∧ r.nat Ix.cueBstV = bst.toNat ∧ r.nat Ix.cuePvdd = pvdd.toNat ∧
      Changes id [Ix.cueZ, Ix.cueFosc, Ix.cueTemp, Ix.cueBstV, Ix.cuePvdd] s r := by
  let r := ((((s.setNat Ix.cueZ ch.val (mag.toNat + 65536 * phase.toNat)).setNat Ix.cueFosc ch.val fosc.toNat).setInt
    Ix.cueTemp ch.val temp).setNat Ix.cueBstV 0 bst.toNat).setNat Ix.cuePvdd 0 pvdd.toNat
  have hr : Changes id [Ix.cueZ, Ix.cueFosc, Ix.cueTemp, Ix.cueBstV, Ix.cuePvdd] s r :=
    (((((Changes.refl _ _ s).setNat (by decide) _ _).setNat (by decide) _ _).setInt (by decide) _ _).setNat (by decide) _ _).setNat
      (by decide) _ _
  refine ⟨r, congrArg Host.Outcome.next (if_neg (by rw [h]; decide)), hr.read State.cue fun _ => rfl, ?_, ?_, ?_, ?_, ?_, hr⟩
  · rw [nat_setNat_index _ (by decide), nat_setNat_index _ (by decide), nat_setInt_index _ (by decide),
      nat_setNat_index _ (by decide), nat_setNat_self]
  · rw [nat_setNat_index _ (by decide), nat_setNat_index _ (by decide), nat_setInt_index _ (by decide), nat_setNat_self]
  · rw [int_setNat_index _ (by decide), int_setNat_index _ (by decide), int_setInt_self]
  · rw [nat_setNat_index _ (by decide), nat_setNat_self]
  · exact nat_setNat_self ..

end

end Sys2Proof.Machine

open Sys2Proof Sys2Proof.Machine

/-- Settles O51: an operation on both channels acts on one and leaves it be on the other, so each event is described by what it
does to one channel. -/
theorem cueProtectionsFadeAndReturn : Obligations.CueProtectionsFadeAndReturn := by
  unfold Obligations.CueProtectionsFadeAndReturn
  intro s ch n c after back
  refine ⟨fun mag phase fosc temp bst pvdd hp => ?_, cueSupplyFault_shields s ch, cueBoost_latches s ch,
    cueSupplyReturn_returns s ch, cueThermalFault_shields s ch, cueThermalReturn_returns s ch, fun hf => ?_⟩
  · obtain ⟨r, hx, hcue, hz, hfosc, htemp, hbst, hpvdd, hr⟩ := sillReport_eq mag phase fosc temp bst pvdd hp
    have hjudge := judgeZ_changes r ch mag.toNat
    have hof : cueOf r ch = cueOf s ch := cueOf_of_cue hcue ch
    have hlim := hr.nat (ix := Ix.cueZLimits) rfl (by decide) ch.val
    refine ⟨_, hx, (hjudge.nat rfl (by decide) _).trans hz, (hjudge.nat rfl (by decide) _).trans hfosc,
      (hjudge.int rfl (by decide) _).trans htemp, (hjudge.nat rfl (by decide) _).trans hbst,
      (hjudge.nat rfl (by decide) _).trans hpvdd, (hjudge.nat rfl (by decide) _).trans (hr.nat rfl (by decide) _),
      fun hlo hhi => ?_, fun hout => ?_⟩
    · rw [← hlim] at hlo hhi
      obtain ⟨hzout, hzin⟩ := judgeZ_inside hlo hhi
      exact ⟨hzout, hzin.trans (by rw [hof])⟩
    · rw [← hlim] at hout
      obtain ⟨hzin, hzout, hwarn⟩ := judgeZ_outside hout
      rw [hof, hr.nat rfl (by decide)] at hwarn
      exact ⟨hzin, hzout.trans (by rw [hof]), hwarn⟩
  · have hkeep := fadeEnded_keeps s ch
    obtain ⟨hnone, hoff, hshield⟩ := fadeEnded_stops (s := s) (ch := ch)
    exact ⟨_, cueFadeEnd_eq hf, hkeep.read State.engines fun _ => rfl, hkeep.channel, hnone, hoff, hshield, fadeEnded_check⟩

end

section
/-! Resets (R444 to R446). -/

namespace Sys2Proof.Machine

/-- From `s` to `t` the registers of the objects `l` may have changed, and nothing else has. -/
structure OnlyRegs (l : List Nat) (s t : State) : Prop where
  rest : ∃ d, t = { s with dict := d }
  obj : ∀ {ix} sub, ix ∉ l → t.obj ix sub = s.obj ix sub

section
variable {l : List Nat} {s t : State}

theorem OnlyRegs.refl (l : List Nat) (s : State) : OnlyRegs l s s := ⟨⟨_, rfl⟩, fun _ _ => rfl⟩

theorem OnlyRegs.setNat (h : OnlyRegs l s t) {ix : Nat} (hx : ix ∈ l) (sub v : Nat) : OnlyRegs l s (t.setNat ix sub v) := by
  obtain ⟨d, rfl⟩ := h.rest
  exact ⟨⟨_, rfl⟩, fun sub' hl => (obj_setObj_ne _ (objKey_ne_index fun e => hl (by rw [e]; exact hx)) _).trans (h.obj sub' hl)⟩

theorem OnlyRegs.ite {u : State} {c : Prop} [Decidable c] (ht : OnlyRegs l s t) (hu : OnlyRegs l s u) :
    OnlyRegs l s (if c then t else u) := by
  split
  · exact ht
  · exact hu

theorem OnlyRegs.foldl {α : Type} {op : State → α → State} (as : List α) (h : OnlyRegs l s t)
    (hop : ∀ r a, OnlyRegs l s r → OnlyRegs l s (op r a)) : OnlyRegs l s (as.foldl op t) := by
  induction as generalizing t with
  | nil => exact h
  | cons a as ih => exact ih (hop t a h)

end

/-- The registers a reset does not leave at their reset values (R389, R444). -/
def resetIx : List Nat :=
  [Ix.bootResetCause, Ix.bootResetCount, Ix.syspllActive, Ix.syspllState, Ix.rsvRows, Ix.fabBankSpares, Ix.rsvRepairFuses]

/-- What a reset starts from: the reset state with what is outside the block, in the fuses and in the flash. -/
def resetBase (s : State) : State :=
  { State.reset with pending := s.pending, out := s.out, fresh := s.fresh, sec := keptSec s, boot := keptBoot s }

/-- The registers of a reset, written. -/
def resetRegs (s : State) (cause : Nat) : State :=
  let t1 := (keptRepairs s (resetBase s)).setNat Ix.bootResetCause 0 cause
  if cause = 0 then t1
  else
    let u := t1.setNat Ix.bootResetCount 0 ((s.nat Ix.bootResetCount + 1) % 4294967296)
    ((u.setNat Ix.syspllActive 0 (s.nat Ix.syspllActive)).setNat Ix.syspllState 0 (s.nat Ix.syspllState)).setNat
      Ix.syspllState 1 (s.nat Ix.syspllState 1)

theorem resetBegins_eq (s : State) (cause : Nat) : resetBegins s cause = (resetRegs s cause).emit .resetLevels := rfl

theorem keptRepairs_onlyRegs (s t : State) : OnlyRegs resetIx t (keptRepairs s t) := by
  have hspares {r : State} (m v : Nat) (h : OnlyRegs resetIx t r) : OnlyRegs resetIx t (setSpares r m v) := by
    have h1 := h.setNat (ix := Ix.rsvRows) (by decide) m v
    exact (h1.setNat (by decide) _ _).ite h1
  have hfuses := (OnlyRegs.refl resetIx t).setNat (ix := Ix.rsvRepairFuses) (by decide) 0 (s.nat Ix.rsvRepairFuses)
  have hrows := hfuses.foldl (upFrom 0 0x27) (op := fun u m => if Subs.memory.has m then setSpares u m (s.nat Ix.rsvRows m) else u)
    fun r m h => (hspares m _ h).ite h
  exact hrows.foldl _ fun r m h => h.ite (hspares m _ h)

theorem resetRegs_onlyRegs (s : State) (cause : Nat) : OnlyRegs resetIx (resetBase s) (resetRegs s cause) := by
  have h := (keptRepairs_onlyRegs s (resetBase s)).setNat (ix := Ix.bootResetCause) (by decide) 0 cause
  exact h.ite ((((h.setNat (by decide) _ _).setNat (by decide) _ _).setNat (by decide) _ _).setNat (by decide) _ _)

theorem nat_resetRegs_cause (s : State) (cause : Nat) : (resetRegs s cause).nat Ix.bootResetCause = cause := by
  unfold resetRegs
  dsimp only
  split
  · exact nat_setNat_self ..
  · rw [nat_setNat_index _ (by decide), nat_setNat_index _ (by decide), nat_setNat_index _ (by decide),
      nat_setNat_index _ (by decide), nat_setNat_self]

/-- A system reset counts, and keeps the active system PLL (R444). -/
theorem nat_resetRegs_system (s : State) {cause : Nat} (h : cause ≠ 0) :
    (resetRegs s cause).nat Ix.bootResetCount = (s.nat Ix.bootResetCount + 1) % 4294967296 ∧
    (resetRegs s cause).nat Ix.syspllActive = s.nat Ix.syspllActive := by
  unfold resetRegs
  dsimp only
  rw [if_neg h]
  constructor
  · rw [nat_setNat_index _ (by decide), nat_setNat_index _ (by decide), nat_setNat_index _ (by decide), nat_setNat_self]
  · rw [nat_setNat_index _ (by decide), nat_setNat_index _ (by decide), nat_setNat_self]

/-- From `s` to `t` the block has been reset for `cause`. -/
structure ResetFrom (s t : State) (cause : Nat) : Prop where
  rest : ∃ d, t = { resetBase s with dict := d, out := s.out ++ [.resetLevels] }
  cause : t.nat Ix.bootResetCause = cause
  obj : ∀ {ix} sub, ix ∉ resetIx → t.obj ix sub = State.reset.obj ix sub

theorem resetBegins_resetFrom (s : State) (cause : Nat) : ResetFrom s (resetBegins s cause) cause := by
  have h := resetRegs_onlyRegs s cause
  have hcause := nat_resetRegs_cause s cause
  rw [resetBegins_eq]
  generalize resetRegs s cause = r at h hcause ⊢
  obtain ⟨d, rfl⟩ := h.rest
  exact ⟨⟨d, rfl⟩, hcause, fun sub hl => h.obj sub hl⟩

/-- A system reset outside a power-on reset. -/
theorem sysReset_eq {s : State} (h : s.boot.held = false ∨ s.nat Ix.bootResetCause ≠ 0) (cause : Nat) :
    sysReset s cause = resetBegins s cause := by
  refine if_neg fun hc => ?_
  simp only [Bool.and_eq_true, beq_iff_eq] at hc
  obtain ⟨hheld, hzero⟩ := hc
  exact h.elim (fun hf => Bool.false_ne_true (hf.symm.trans hheld)) fun hn => hn hzero

/-! ### BOOT_RESET (R446) -/

/-- Nothing is served in a reset. -/
theorem serveNext_of_reset {s t : State} {cause : Nat} (h : ResetFrom s t cause) : serveNext t = t := by
  obtain ⟨d, rfl⟩ := h.rest
  rfl

section
variable {s : State} {v : Serving} {op : Op} {r : ObjRow} {x : Val}

theorem nextOf_bootReset (t : State) (hix : r.ix = Ix.bootReset) (hx : x.toNat ≠ 0) (hc : v.closing = false) :
    nextOf t (acceptedServing s v op r x) = { close := none, slots := [], reset := true } := by
  simp [nextOf, acceptedServing, hc, hix, hx]

/-- The accepted write of BOOT_RESET waits for its boundary. -/
theorem acceptOne_bootReset_boot (s : State) (sub priv : Nat) :
    (acceptOne s { ix := Ix.bootReset, sub := sub, val := x, priv := priv } none).boot = s.boot := by
  have hwrite : ¬ writeOnly Ix.bootReset = true := by decide
  have hpair : ¬ isPairObj Ix.bootReset = true := by decide
  have hgrid (v : Nat) : ¬ (Ix.bootReset = Ix.houseRate ∨ Ix.bootReset = Ix.ticklen ∨ Ix.bootReset = Ix.timeSet ∨
    (Ix.bootReset = Ix.timeRestep ∧ v = 1)) := by simp
  have hswap (v : Nat) : ¬ (Ix.bootReset = Ix.pairCmd ∧ v = 4) := by simp
  unfold acceptOne onAccept directWrite
  dsimp only
  rw [if_neg hwrite, if_neg (hgrid _), if_neg (hswap _), if_neg hpair]

/-- The frame that writes BOOT_RESET resets the unit once it is answered. -/
theorem completeFrame_bootReset (hix : r.ix = Ix.bootReset) (hx : x.toNat ≠ 0) (hc : v.closing = false) (hm : v.mirrored = false)
    (hheld : s.boot.held = false) : ∃ u, ResetFrom u (completeFrame s (acceptedServing s v op r x)) 5 := by
  have hmirror : (acceptedServing s v op r x).mirrored = false := by
    change (v.mirrored || isPairObj r.ix) = false
    rw [hm, hix]
    rfl
  let b := replyOf s (acceptedServing s v op r x) (acceptedServing s v op r x).results
  let r0 := acceptOne (released s) { ix := r.ix, sub := op.sub, val := x, priv := privOf s v } none
  have hr0 : r0.boot = s.boot := by
    change (acceptOne (released s) { ix := r.ix, sub := op.sub, val := x, priv := privOf s v } none).boot = _
    rw [hix]
    exact acceptOne_bootReset_boot (released s) op.sub _
  let t := mapSess r0 v.session (fun y => { y with lastReply := b })
  have ht : Replied r0 t := mapSess_replied ..
  have hframe : completeFrame s (acceptedServing s v op r x) = serveNext (sendReply t (acceptedServing s v op r x) b) := rfl
  clear_value r0 b t
  let u := sendTo t v.via v.peer v.port b
  have hu : Replied t u := sendTo_replied ..
  have huheld : u.boot.held = false := by
    have hboot := congrArg State.boot (hu.same.trans ht.same)
    have hsame : u.boot = r0.boot := hboot
    rw [hsame, hr0, hheld]
  have hsent : sendReply t (acceptedServing s v op r x) b = resetBegins u 5 := by
    unfold sendReply
    rw [if_neg (by rw [hmirror]; exact fun h => Bool.false_ne_true h.1), nextOf_bootReset _ hix hx hc]
    exact sysReset_eq (Or.inl huheld) 5
  rw [hframe, hsent, serveNext_of_reset (resetBegins_resetFrom u 5)]
  exact ⟨u, resetBegins_resetFrom u 5⟩

/-- A write of BOOT_RESET, carried out by the command `c` of its value. -/
theorem LastWrite.resets {c : Instr} (h : LastWrite s v op r x) (hexec : exec c s = .next (serve c s)) (hix : r.ix = Ix.bootReset)
    (hrow : writeRow Ix.bootReset (field op.data 0 1) = c) (hx : x.toNat ≠ 0) (hm : v.mirrored = false) (hheld : s.boot.held = false) :
    ∃ t, exec c s = .next t ∧ t.nat Ix.bootResetCause = 5 ∧ t.boot.held = true ∧ t.engines = State.reset.engines ∧
      t.ctl = State.reset.ctl := by
  obtain ⟨⟨hruns, hserving, hops⟩, ⟨-, hclosing⟩⟩ := And.intro h.served h.alone
  have hrule : rowOf Oc.write op = c := by
    rw [← hrow, ← hix, objRow_ix h.row]
    rfl
  have hserve : serve c s = carryOut s v Oc.write op [] := by
    unfold serve
    simp only [hserving, hops, hruns, hrule, beq_self_eq_true, Bool.and_self, if_true]
  rw [hexec, hserve, h.carryOut_eq (by rw [hix]; decide) (by rw [hix]; rfl)]
  obtain ⟨u, hreset⟩ := completeFrame_bootReset (s := s) (op := op) hix hx hclosing hm hheld
  obtain ⟨d, hrest⟩ := hreset.rest
  exact ⟨_, rfl, hreset.cause, by rw [hrest]; rfl, by rw [hrest]; rfl, by rw [hrest]; rfl⟩

end

end Sys2Proof.Machine

open Sys2Proof Sys2Proof.Machine

/-- Settles O52: every reset begins alike, and the registers it writes are listed; BOOT_RESET begins it once its frame has been
answered, and nothing is served after it. -/
theorem resetsLeaveTheResetState : Obligations.ResetsLeaveTheResetState := by
  unfold Obligations.ResetsLeaveTheResetState
  intro s kept cleared
  have hclear (cause : Nat) : cleared (resetBegins s cause) cause := by
    have h := resetBegins_resetFrom s cause
    obtain ⟨d, hrest⟩ := h.rest
    refine ⟨by rw [hrest]; rfl, by rw [hrest]; rfl, by rw [hrest]; rfl, by rw [hrest]; rfl, by rw [hrest]; rfl, by rw [hrest]; rfl,
      by rw [hrest]; rfl, by rw [hrest]; rfl, by rw [hrest]; rfl, by rw [hrest]; rfl, by rw [hrest], by rw [hrest]; rfl,
      by rw [hrest]; rfl, by rw [hrest]; rfl, by rw [hrest]; rfl, by rw [hrest]; rfl, by rw [hrest]; rfl, h.cause, fun ix sub hk => ?_⟩
    refine h.obj sub fun hmem => ?_
    simp only [kept, Bool.or_eq_false_iff, beq_eq_false_iff_ne] at hk
    simp only [resetIx, List.mem_cons, List.not_mem_nil, or_false] at hmem
    omega
  refine ⟨⟨_, rfl, hclear 0⟩, fun hnot => ?_, fun v op r x h hix hm hheld => ⟨fun hf hx => ?_, fun hf hx => ?_⟩⟩
  · intro system
    have hsystem {c : Instr} {cause : Nat} (hexec : exec c s = .next (sysReset s cause)) (hc : cause ≠ 0) : system c cause :=
      ⟨_, hexec.trans (congrArg Host.Outcome.next (sysReset_eq hnot cause)), hclear cause,
        (nat_of_dict rfl ..).trans (nat_resetRegs_system s hc).1, (nat_of_dict rfl ..).trans (nat_resetRegs_system s hc).2⟩
    exact ⟨hsystem rfl (by decide), hsystem rfl (by decide), hsystem rfl (by decide), hsystem rfl (by decide),
      fun hopen => hsystem (congrArg Host.Outcome.next (if_pos hopen)) (by decide)⟩
  · exact h.resets rfl hix (by rw [hf]; rfl) (by rw [hx]; decide) hm hheld
  · exact h.resets rfl hix (by rw [hf]; rfl) (by rw [hx]; decide) hm hheld

end

section
/-! Bring-up (R443, R447 to R451) and the writing of a firmware slot (R456). -/

namespace Sys2Proof.Machine

/-! ### A verified image is loaded and started (R447, R449) -/

/-- What the start of an image changes after its load: security, the media synthesizers and the draws. -/
def forgetReady (s : State) : State := { s with sec := SecSt.reset, syn := SynSt.reset, fresh := 0 }

/-- The registers that the Cabinet, the band searches and the system PLLs report in. -/
def readyIx : List Nat :=
  [Ix.secImgPubkey, Ix.ctlCredPriv, Ix.medsynFamily, Ix.medsynState, Ix.medsynBandmem, Ix.rsvLeaves]

section
variable {f : State → State} {l : List Nat}

theorem loadCabinet_changes (s : State) : Changes f readyIx s (loadCabinet s) := by
  have hput (c : CtlSt) : Changes f readyIx s { s with ctl := c } := (Changes.refl _ _ s).put rfl rfl
  unfold loadCabinet
  dsimp only
  split
  · exact (Changes.refl ..).alarm ..
  · exact ((hput _).setObj (ix := Ix.secImgPubkey) (by decide) _ _).foldl _ fun r k => (Changes.refl _ _ r).setNat (by decide) _ _

theorem storeBand_changes (s : State) (syn band : Nat) : Changes forgetReady readyIx s (storeBand s syn band) := by
  have h (j v : Nat) := (Changes.refl forgetReady readyIx s).setNat (ix := Ix.medsynBandmem) (by decide) j v
  exact (h _ _).put rfl rfl

theorem bootBands_changes (s : State) : Changes forgetReady readyIx s (bootBands s) := by
  refine (Changes.refl _ _ s).foldl _ fun r i => ?_
  have hdraw : Changes forgetReady readyIx r r.draw.2 := (Changes.refl _ _ r).put rfl rfl
  exact ((hdraw.setNat (ix := Ix.medsynFamily) (by decide) i _).setNat (by decide) _ _).trans (storeBand_changes ..)

theorem deadSteps_changes (s : State) : Changes forgetReady l s (deadSteps s) := by
  refine (Changes.refl _ _ s).foldl _ fun r x => ?_
  have hsec (c : SecSt) : Changes forgetReady l r { r with sec := c } := (Changes.refl _ _ r).put rfl rfl
  exact ((hsec _).alarm _ _).ite (Changes.refl ..)

theorem syncHotLeaf_changes (s : State) (hl : Ix.rsvLeaves ∈ l) : Changes f l s (syncHotLeaf s) :=
  (Changes.refl _ _ s).setNat hl _ _

theorem noLeafCheck_changes (s : State) (hl : Ix.rsvLeaves ∈ l) : Changes f l s (noLeafCheck s) :=
  (syncHotLeaf_changes s hl).alarmIf ..

end

/-- The image in its memories, FAB_CTL locked (R449). -/
theorem loadFirmware_locked (s : State) (image : List Byte) :
    ∃ fab : FabSt, writeFabCtl (loadFirmware s image) 0x101 = { s with fab := fab } ∧ fab.lock = true := by
  unfold loadFirmware
  rw [setMemBytes_eq, setMemBytes_eq]
  exact ⟨_, rfl, Bool.or_true _⟩

/-- A unit that starts an image: READY, from `source`, its fabric control locked. -/
structure Started (s t : State) (source : Nat) : Prop where
  boot : t.boot = { s.boot with stage := 7, code := 0, quiet := decide (s.nat Ix.bootStraps % 4 = 1) }
  stage : t.nat Ix.bootStage = 7
  source : t.nat Ix.bootSource = source
  lock : t.fab.lock = true
  engines : t.engines = s.engines

theorem toReady_started (s : State) (image : List Byte) (source : Nat) (fallback : Bool) :
    Started s (toReady s image source fallback) source := by
  obtain ⟨fab, hload, hlock⟩ := loadFirmware_locked s image
  let r := setStage ((({ s with fab := fab } : State).setNat Ix.bootSource 0 source).setNat Ix.fwVersion 0 (imgNat image 0x04 4)) 7 0
  have hcab : Changes forgetReady readyIx r (bootBands (loadCabinet r)) := (loadCabinet_changes r).trans (bootBands_changes _)
  have hready : toReady s image source fallback =
      let q := decide (s.nat Ix.bootStraps % 4 = 1)
      let s4 := { bootBands (loadCabinet r) with boot := { (bootBands (loadCabinet r)).boot with quiet := q } }.setFlag Ix.quietMode 0 q
      (((noLeafCheck (deadSteps s4)).alarmIf fallback Al.bootFwFallback).alarm Al.bootRestarted (s.nat Ix.bootResetCause)).alarmIf q
        Al.quietEntered := by
    unfold toReady
    dsimp only
    rw [hload]
  have hboot : r.boot = { s.boot with stage := 7, code := 0 } := rfl
  have hstage : r.nat Ix.bootStage = 7 := nat_setNat_self ..
  have hsource : r.nat Ix.bootSource = source := by
    refine (nat_setNat_index _ (by decide) ..).trans ((nat_of_dict rfl ..).trans ((nat_setNat_index _ (by decide) ..).trans ?_))
    exact nat_setNat_self ..
  have hfab : r.fab = fab := rfl
  have hengines : r.engines = s.engines := rfl
  clear_value r
  generalize bootBands (loadCabinet r) = u at hcab hready
  have hend {w : State} (h : Changes forgetReady readyIx w (noLeafCheck (deadSteps w))) (c d : Bool) (n : Nat) :=
    ((h.alarmIf c Al.bootFwFallback 0).alarm Al.bootRestarted n).alarmIf d Al.quietEntered 0
  have hlast (w : State) := (deadSteps_changes (l := readyIx) w).trans (noLeafCheck_changes _ (by decide))
  rw [hready]
  let w : State := { u with boot := { u.boot with quiet := decide (s.nat Ix.bootStraps % 4 = 1) } }.setFlag Ix.quietMode 0
    (decide (s.nat Ix.bootStraps % 4 = 1))
  have hw : w.boot = { u.boot with quiet := decide (s.nat Ix.bootStraps % 4 = 1) } ∧ w.fab = u.fab ∧ w.engines = u.engines :=
    ⟨setFlag_boot .., setFlag_fab .., setFlag_engines ..⟩
  have hwnat {ix : Nat} (h : ix ≠ Ix.quietMode) : w.nat ix = u.nat ix :=
    (nat_setObj_ne _ (objKey_ne_index h) _).trans (nat_of_dict rfl ..)
  change Started s ((((noLeafCheck (deadSteps w)).alarmIf fallback Al.bootFwFallback).alarm Al.bootRestarted
    (s.nat Ix.bootResetCause)).alarmIf (decide (s.nat Ix.bootStraps % 4 = 1)) Al.quietEntered) source
  have hall := hend (hlast w) fallback (decide (s.nat Ix.bootStraps % 4 = 1)) (s.nat Ix.bootResetCause)
  clear_value w
  obtain ⟨hwboot, hwfab, hwengines⟩ := hw
  exact { boot := by rw [hall.read State.boot fun _ => rfl, hwboot, hcab.read State.boot fun _ => rfl, hboot]
          stage := by rw [hall.nat rfl (by decide), hwnat (by decide), hcab.nat rfl (by decide), hstage]
          source := by rw [hall.nat rfl (by decide), hwnat (by decide), hcab.nat rfl (by decide), hsource]
          lock := by rw [hall.read State.fab fun _ => rfl, hwfab, hcab.read State.fab fun _ => rfl, hfab, hlock]
          engines := by rw [hall.read State.engines fun _ => rfl, hwengines, hcab.read State.engines fun _ => rfl, hengines] }

/-! ### Up to the firmware (R447) -/

/-- The slots a bring-up finds. -/
def foundBoot (s : State) (u : BringUp) : BootSt :=
  { s.boot with held := false, slot0 := u.prog0.getD s.boot.slot0, slot1 := u.prog1.getD s.boot.slot1 }

/-- The fuses read, the straps and the seat known. -/
def identified (s : State) (u : BringUp) : State :=
  (((fuseObjects { s with boot := foundBoot s u }).setNat Ix.bootStraps 0 u.straps.toNat).setNat Ix.seat 0
    (u.straps.toNat / 4)).setNat Ix.bootTime 0 (u.time % 4294967296)

/-- The system PLLs run, the memories are sized, the slots are reported. -/
def poweredUp (s1 : State) (u : BringUp) : State :=
  let s2 := bringPlls s1 u.pllA u.pllB
  let s3 := { ((s2.setNat Ix.fabDramSize 0 (dramMib u.size)).setNat Ix.fabDramSpeed 0 (listGet 0 u.speed.val [6400, 7500, 8533])).setNat
                  Ix.fabDlyStoreSize 0 (dramMib u.size - 576) with
              fab := { s2.fab with dramReady := true } }
  let v (x : FwSlot) : Nat := if x.valid then imgNat x.image 0x04 4 else 0
  let s4 := (s3.setNat Ix.bootSlotVersion 0 (v s3.boot.slot0)).setNat Ix.bootSlotVersion 1 (v s3.boot.slot1)
  (s4.setNat Ix.bootSlotSeq 0 s4.boot.slot0.seq).setNat Ix.bootSlotSeq 1 s4.boot.slot1.seq

/-- From `s` a bring-up with `u` has come to `r`, its stage still to be set. -/
structure Identified (s : State) (u : BringUp) (r : State) : Prop where
  boot : r.boot = foundBoot s u
  straps : r.nat Ix.bootStraps = u.straps.toNat
  seat : r.nat Ix.seat = u.straps.toNat / 4
  sec : r.sec = s.sec
  engines : r.engines = s.engines
  lat : r.lat = s.lat

def powerIx : List Nat :=
  [Ix.syspllActive, Ix.syspllState, Ix.rsvLeaves, Ix.fabDramSize, Ix.fabDramSpeed, Ix.fabDlyStoreSize, Ix.bootSlotVersion,
    Ix.bootSlotSeq]

/-- What the start of the memories changes. -/
def forgetFab (s : State) : State := { s with fab := FabSt.reset }

section
variable {s r t : State} {u : BringUp}

def identifyIx : List Nat :=
  [Ix.secLifecycle, Ix.secEpochLeft, Ix.secImgKeyHash, Ix.secDbgKeyHash, Ix.bootStraps, Ix.seat, Ix.bootTime]

theorem identified_changes (s : State) (u : BringUp) : Changes id identifyIx { s with boot := foundBoot s u } (identified s u) := by
  unfold identified fuseObjects
  generalize ({ s with boot := foundBoot s u } : State) = r
  have hlife := ((Changes.refl id identifyIx r).setNat (ix := Ix.secLifecycle) (by decide) 0 r.sec.life).setNat
    (ix := Ix.secEpochLeft) (by decide) 0 (128 - r.sec.epoch)
  have hkeys := ((hlife.setObj (ix := Ix.secImgKeyHash) (by decide) 0 (.bytes r.sec.imgHash0)).setObj (ix := Ix.secImgKeyHash)
    (by decide) 1 (.bytes r.sec.imgHash1)).setObj (ix := Ix.secDbgKeyHash) (by decide) 0 (.bytes r.sec.dbgHash)
  exact ((hkeys.setNat (by decide) _ _).setNat (by decide) _ _).setNat (by decide) _ _

theorem identified_identified (s : State) (u : BringUp) : Identified s u (identified s u) := by
  have h := identified_changes s u
  exact { boot := h.read State.boot fun _ => rfl
          straps := by
            unfold identified
            rw [nat_setNat_index _ (by decide), nat_setNat_index _ (by decide), nat_setNat_self]
          seat := by
            unfold identified
            rw [nat_setNat_index _ (by decide), nat_setNat_self]
          sec := h.read State.sec fun _ => rfl
          engines := h.read State.engines fun _ => rfl
          lat := h.read State.lat fun _ => rfl }

theorem Identified.changes (h : Identified s u r) (k : Changes forgetFab powerIx r t) : Identified s u t where
  boot := (k.read State.boot fun _ => rfl).trans h.boot
  straps := (k.nat rfl (by decide) _).trans h.straps
  seat := (k.nat rfl (by decide) _).trans h.seat
  sec := (k.read State.sec fun _ => rfl).trans h.sec
  engines := (k.read State.engines fun _ => rfl).trans h.engines
  lat := (k.read State.lat fun _ => rfl).trans h.lat

theorem bringPlls_changes (s : State) (a b : Bool) : Changes forgetFab powerIx s (bringPlls s a b) := by
  have h (n p : Nat) := ((Changes.refl forgetFab powerIx s).setNat (ix := Ix.syspllActive) (by decide) 0 n).setNat
    (ix := Ix.syspllState) (by decide) p 3
  exact ((h _ _).setNat (by decide) _ _).trans (syncHotLeaf_changes _ (by decide))

theorem poweredUp_changes (s : State) (u : BringUp) : Changes forgetFab powerIx s (poweredUp s u) := by
  have hplls := bringPlls_changes s u.pllA u.pllB
  have hput {r : State} (h : Changes forgetFab powerIx s r) (x : FabSt) : Changes forgetFab powerIx s { r with fab := x } := h.put rfl rfl
  unfold poweredUp
  generalize bringPlls s u.pllA u.pllB = r at hplls ⊢
  have hsizes := ((hplls.setNat (ix := Ix.fabDramSize) (by decide) 0 (dramMib u.size)).setNat (ix := Ix.fabDramSpeed) (by decide) 0
    (listGet 0 u.speed.val [6400, 7500, 8533])).setNat (ix := Ix.fabDlyStoreSize) (by decide) 0 (dramMib u.size - 576)
  exact ((((hput hsizes _).setNat (by decide) _ _).setNat (by decide) _ _).setNat (by decide) _ _).setNat (by decide) _ _

/-- The stage a bring-up ends in. -/
def EndsAt (s : State) (u : BringUp) (t : State) (stage code : Nat) : Prop := t.boot.stage = stage ∧ t.nat Ix.bootStage = stage ∧
  t.boot.code = code ∧ t.boot.held = false ∧ t.nat Ix.seat = u.straps.toNat / 4 ∧ t.engines = s.engines ∧ t.lat = s.lat

theorem Identified.endsAt (h : Identified s u r) (stage code : Nat) : EndsAt s u (setStage r stage code) stage code := by
  have hheld : (setStage r stage code).boot.held = r.boot.held := rfl
  refine ⟨rfl, nat_setNat_self .., rfl, by rw [hheld, h.boot]; rfl, ?_, h.engines, h.lat⟩
  exact (nat_setNat_index _ (by decide) ..).trans ((nat_of_dict rfl ..).trans h.seat)

/-- A unit without fault comes to its firmware. -/
theorem bringUp_powered (hlife : s.sec.life ≠ 4) (hplls : u.pllA = true ∨ u.pllB = true) (hmem : u.badMemory = false)
    (h0 : u.ddr0 = true) (h1 : u.ddr1 = true) (hsize : u.sizesOk = true) : bringUp s u =
    if u.straps.toNat % 4 = 2 then setStage (poweredUp (identified s u) u) 4 0
    else bootFlash (poweredUp (identified s u) u) u.flash (u.straps.toNat % 4 == 3) := by
  have hlock : ¬ (!u.pllA && !u.pllB) = true := by
    rcases hplls with h | h <;> rw [h] <;> simp
  unfold bringUp
  dsimp only
  rw [if_neg hlife, if_neg hlock, if_neg (by rw [hmem]; decide), if_neg (by rw [h0]; decide), if_neg (by rw [h1]; decide),
    if_neg (by rw [hsize]; decide)]
  rfl

/-- No slot boots: the host is waited for, or the unit halts. -/
theorem Identified.bootFlash_fails (h : Identified s u r) {flash hostNext : Bool}
    (hnone : (if flash then fwOrder r else []).find? (fun k => slotBoots r (fwSlotOf r k)) = none) :
    EndsAt s u (bootFlash r flash hostNext) (if hostNext then 4 else 0xFE) (if flash then 6 else 5) := by
  unfold bootFlash
  dsimp only
  rw [hnone]
  cases hostNext
  · exact Identified.endsAt (r := writeFabCtl r 0x100) ⟨h.boot, h.straps, h.seat, h.sec, h.engines, h.lat⟩ 0xFE _
  · exact h.endsAt 4 _

/-- With slot 0 alone valid, it is the one tried. -/
theorem fwOrder_slot0 (h0 : r.boot.slot0.valid = true) (h1 : r.boot.slot1.valid = false) : fwOrder r = [0] := by
  simp [fwOrder, h0, h1]

end

end Sys2Proof.Machine
end

section
/-! Bring-up and the firmware slots, settled. -/

namespace Sys2Proof.Machine

section
variable {s : State} {u : BringUp}

theorem poresetRelease_eq (h : s.boot.stage = 0) : exec (.poresetRelease u) s = .next (bringUp s u) :=
  congrArg Host.Outcome.next (if_pos h)

theorem bringUp_scrapped (h : s.sec.life = 4) : bringUp s u = setStage (identified s u) 0xFD 0 := by
  unfold bringUp
  dsimp only
  rw [if_pos h]
  rfl

theorem bringUp_unlocked (h : s.sec.life ≠ 4) (ha : u.pllA = false) (hb : u.pllB = false) :
    bringUp s u = setStage (identified s u) 0xFE 1 := by
  unfold bringUp
  dsimp only
  rw [if_neg h, if_pos (by rw [ha, hb]; rfl)]
  rfl

theorem poweredUp_identified (s : State) (u : BringUp) : Identified s u (poweredUp (identified s u) u) :=
  (identified_identified s u).changes (poweredUp_changes ..)

/-- A unit without a fault in its memories and with a PLL that locks. -/
def Fine (s : State) (u : BringUp) : Prop :=
  s.sec.life ≠ 4 ∧ (u.pllA = true ∨ u.pllB = true) ∧ u.badMemory = false ∧ u.ddr0 = true ∧ u.ddr1 = true ∧ u.sizesOk = true

theorem Fine.bringUp (h : Fine s u) : bringUp s u =
    if u.straps.toNat % 4 = 2 then setStage (poweredUp (identified s u) u) 4 0
    else bootFlash (poweredUp (identified s u) u) u.flash (u.straps.toNat % 4 == 3) := by
  obtain ⟨hlife, hplls, hmem, h0, h1, hsize⟩ := h
  exact bringUp_powered hlife hplls hmem h0 h1 hsize

theorem fwVerifies_of_sec {r : State} (h : r.sec = s.sec) (b : List Byte) : fwVerifies r b = fwVerifies s b := by
  unfold fwVerifies
  rw [h]

/-- With slot 0 alone valid, and no slot programmed meanwhile, slot 0 is tried. -/
theorem Identified.slot0 {r : State} (h : Identified s u r) (hp0 : u.prog0 = none) (hp1 : u.prog1 = none)
    (h0 : s.boot.slot0.valid = true) (h1 : s.boot.slot1.valid = false) :
    r.boot.slot0 = s.boot.slot0 ∧ fwOrder r = [0] ∧ slotBoots r (fwSlotOf r 0) = fwVerifies s s.boot.slot0.image := by
  have hs0 : r.boot.slot0 = s.boot.slot0 := by rw [h.boot, foundBoot, hp0]; rfl
  have hs1 : r.boot.slot1 = s.boot.slot1 := by rw [h.boot, foundBoot, hp1]; rfl
  refine ⟨hs0, fwOrder_slot0 (by rw [hs0, h0]) (by rw [hs1, h1]), ?_⟩
  change (r.boot.slot0.valid && fwVerifies r r.boot.slot0.image) = _
  rw [hs0, h0, fwVerifies_of_sec h.sec, Bool.true_and]

theorem Identified.bootFlash_boots {r : State} (h : Identified s u r) {hostNext : Bool} (hp0 : u.prog0 = none) (hp1 : u.prog1 = none)
    (h0 : s.boot.slot0.valid = true) (h1 : s.boot.slot1.valid = false) (hv : fwVerifies s s.boot.slot0.image = true) :
    bootFlash r true hostNext = toReady r r.boot.slot0.image 0 false := by
  obtain ⟨-, horder, hboots⟩ := h.slot0 hp0 hp1 h0 h1
  unfold bootFlash
  dsimp only
  rw [if_pos rfl, horder, List.find?_cons, hboots, hv]
  rfl

/-- Slot 0 boots (R450). -/
theorem bringUp_boots (hst : s.boot.stage = 0) (hfine : Fine s u) (hsel : u.straps.toNat % 4 ≠ 2) (hflash : u.flash = true)
    (hp0 : u.prog0 = none) (hp1 : u.prog1 = none) (h0 : s.boot.slot0.valid = true) (h1 : s.boot.slot1.valid = false)
    (hv : fwVerifies s s.boot.slot0.image = true) :
    ∃ t, exec (.poresetRelease u) s = .next t ∧ t.boot.stage = 7 ∧ t.nat Ix.bootStage = 7 ∧ t.nat Ix.bootSource = 0 ∧
      t.boot.quiet = decide (u.straps.toNat % 4 = 1) ∧ t.fab.lock = true ∧ t.engines = s.engines := by
  have hup := poweredUp_identified s u
  have hstart := toReady_started (poweredUp (identified s u) u) (poweredUp (identified s u) u).boot.slot0.image 0 false
  rw [poresetRelease_eq hst, hfine.bringUp, if_neg hsel, hflash, hup.bootFlash_boots hp0 hp1 h0 h1 hv]
  refine ⟨_, rfl, ?_, hstart.stage, hstart.source, ?_, hstart.lock, hstart.engines.trans hup.engines⟩
  · rw [hstart.boot]
  · rw [hstart.boot, hup.straps]

end

/-! ### A firmware slot (R456) -/

/-- SEQ of the slot that an update writes: one above the booted one. -/
def writtenSeq (s : State) : Nat :=
  if s.nat Ix.bootSource = 2 then max s.boot.slot0.seq s.boot.slot1.seq + 1 else (fwSlotOf s (s.nat Ix.bootSource)).seq + 1

/-- The slot that is not booted. -/
def writtenSlot (s : State) : Nat := if s.nat Ix.bootSource = 0 then 1 else 0

/-- The flash once an image has been written beside the booted one. -/
def writtenBoot (s : State) (b : List Byte) : BootSt :=
  let x : FwSlot := { valid := true, seq := writtenSeq s, image := b }
  if writtenSlot s = 0 then { s.boot with writing := none, slot0 := x } else { s.boot with writing := none, slot1 := x }

theorem writtenBoot_eq (s : State) (b : List Byte) : writtenBoot s b =
    if s.nat Ix.bootSource = 0 then { s.boot with writing := none, slot1 := { valid := true, seq := writtenSeq s, image := b } }
    else { s.boot with writing := none, slot0 := { valid := true, seq := writtenSeq s, image := b } } := by
  unfold writtenBoot writtenSlot
  by_cases h : s.nat Ix.bootSource = 0
  · rw [if_pos h, if_pos h]
    rfl
  · rw [if_neg h, if_neg h]
    rfl

theorem flashWritten {s : State} {b : List Byte} (h : s.boot.writing = some b) :
    ∃ t, exec (.bootFwFlashWriteDone true) s = .next t ∧ t.boot = writtenBoot s b ∧ t.nat Ix.bootFwStatus = 2 ∧
      t.nat Ix.bootSlotSeq (writtenSlot s) = writtenSeq s ∧
      t.nat Ix.bootSource = s.nat Ix.bootSource ∧ t.engines = s.engines := by
  have hx : exec (.bootFwFlashWriteDone true) s = .next (((({ s with boot := writtenBoot s b } : State).setNat Ix.bootSlotVersion
      (writtenSlot s) (imgNat b 0x04 4)).setNat Ix.bootSlotSeq (writtenSlot s) (writtenSeq s)).setNat Ix.bootFwStatus 0 2) := by
    change execBootFwFlashWriteDone true s = _
    unfold execBootFwFlashWriteDone
    rw [h]
    exact congrArg Host.Outcome.next (if_neg (by decide))
  refine ⟨_, hx, ?_, nat_setNat_self .., ?_, ?_, ?_⟩
  · rw [setNat_boot, setNat_boot, setNat_boot]
  · rw [nat_setNat_index _ (by decide), nat_setNat_self]
  · rw [nat_setNat_index _ (by decide), nat_setNat_index _ (by decide), nat_setNat_index _ (by decide)]
    exact nat_of_dict rfl ..
  · rw [setNat_engines, setNat_engines, setNat_engines]

theorem flashFailed {s : State} {b : List Byte} (h : s.boot.writing = some b) :
    ∃ t, exec (.bootFwFlashWriteDone false) s = .next t ∧ t.boot = { s.boot with writing := none } ∧ t.nat Ix.bootFwStatus = 4 ∧
      t.engines = s.engines := by
  have hx : exec (.bootFwFlashWriteDone false) s = .next ((({ s with boot := { s.boot with writing := none } } : State).setNat
      Ix.bootFwStatus 0 4).alarm Al.bootFwUpdateFail 0) := by
    change execBootFwFlashWriteDone false s = _
    unfold execBootFwFlashWriteDone
    rw [h]
    exact congrArg Host.Outcome.next (if_pos rfl)
  refine ⟨_, hx, ?_, ?_, ?_⟩
  · rw [alarm_boot, setNat_boot]
  · rw [nat_alarm _ _ _ rfl, nat_setNat_self]
  · rw [alarm_engines, setNat_engines]

end Sys2Proof.Machine

open Sys2Proof Sys2Proof.Machine

/-- Settles O53: bring-up comes to its firmware in one of three states, a stage is set on one of them, and the start of a verified
image is one lemma for the flash and for the host port. -/
theorem bringUpReachesItsStage : Obligations.BringUpReachesItsStage := by
  unfold Obligations.BringUpReachesItsStage
  intro s
  refine ⟨fun u hst => ?_, ?_, fun b hb => ?_, fun b hb hsrc => ⟨?_, flashFailed hb⟩⟩
  · intro at' fine
    have hat {t : State} {stage code : Nat} (ht : bringUp s u = t) (h : EndsAt s u t stage code) : at' stage code :=
      ⟨t, (poresetRelease_eq hst).trans (congrArg Host.Outcome.next ht), h⟩
    have hup := poweredUp_identified s u
    refine ⟨fun h => hat (bringUp_scrapped h) ((identified_identified s u).endsAt _ _),
      fun h ha hb => hat (bringUp_unlocked h ha hb) ((identified_identified s u).endsAt _ _),
      fun hf hsel => hat ((Fine.bringUp hf).trans (if_pos hsel)) (hup.endsAt _ _), fun hf hsel hflash => ?_,
      fun hf hsel hflash hp0 hp1 h0 h1 hv => bringUp_boots hst hf hsel hflash hp0 hp1 h0 h1 hv,
      fun hf hsel hflash hp0 hp1 h0 h1 hv => ?_⟩
    · have hend := hup.bootFlash_fails (flash := false) (hostNext := u.straps.toNat % 4 == 3) rfl
      rw [← hflash] at hend
      simpa [hflash] using hat ((Fine.bringUp hf).trans (if_neg hsel)) hend
    · obtain ⟨-, horder, hboots⟩ := hup.slot0 hp0 hp1 h0 h1
      have hend := hup.bootFlash_fails (flash := true) (hostNext := u.straps.toNat % 4 == 3)
        (by rw [if_pos rfl, horder, List.find?_cons, hboots, hv]; rfl)
      rw [← hflash] at hend
      simpa [hflash] using hat ((Fine.bringUp hf).trans (if_neg hsel)) hend
  · intro d len image named hst
    have hx : exec .hpBootDescriptor s = .next (if named then
        (if decide (len ≤ 0x1000000) && fwVerifies s image then toReady s image 2 true else setStage s 4 7)
        else { s with hp := { s.hp with drop := true } }) :=
      congrArg Host.Outcome.next (if_neg (not_not_intro hst))
    refine ⟨fun h => hx.trans (congrArg Host.Outcome.next (if_neg h)), fun h hlen hv => ?_, fun h hbad => ?_⟩
    · have hstart := toReady_started s image 2 true
      refine ⟨_, hx.trans (congrArg Host.Outcome.next ((if_pos h).trans (if_pos ?_))), ?_, hstart.stage, hstart.source, hstart.lock,
        hstart.engines⟩
      · rw [hv, Bool.and_true, decide_eq_true_eq]
        exact hlen
      · rw [hstart.boot]
    · refine ⟨_, hx.trans (congrArg Host.Outcome.next ((if_pos h).trans (if_neg ?_))), rfl, rfl, rfl, rfl⟩
      simp only [Bool.and_eq_true, decide_eq_true_eq]
      rcases hbad with hlong | hv
      · omega
      · rw [hv]
        exact fun hand => Bool.false_ne_true hand.2
  · obtain ⟨t, hx, hboot, hstatus, -, hsource, hengines⟩ := flashWritten hb
    refine ⟨t, hx, ?_, hstatus, hsource, hengines, ?_, ?_⟩
    · rw [hboot, writtenBoot_eq]
      split <;> rfl
    · rw [hboot, writtenBoot_eq]
      split <;> rfl
    · rw [hboot, writtenBoot_eq]
      split <;> rfl
  · obtain ⟨t, hx, hboot, hstatus, hseq, -, hengines⟩ := flashWritten hb
    have hwritten : writtenSeq s = s.boot.slot0.seq + 1 := by
      unfold writtenSeq
      rw [hsrc]
      rfl
    rw [writtenSlot, if_pos hsrc, hwritten] at hseq
    refine ⟨t, hx, ?_, hstatus, hseq, hengines⟩
    rw [hboot, writtenBoot_eq, if_pos hsrc, hwritten]

end

section
/-! The reserve manager: its monitors, tests, lanes and rows (R375, R385 to R390, R403). -/

namespace Sys2Proof.Machine

/-- What the watching of the reserve changes. -/
def forgetRsv (s : State) : State := { s with rsv := RsvSt.reset }

section
variable {f : State → State} {l : List Nat} {s t : State}

/-! ### Reserve states (R393) -/

theorem rsvState_setRsvState_self (s : State) (e : Fin 16) (v : Nat) : rsvState (setRsvState s e v) e = v := by
  have h : rsvState (syncLeaves (s.setNat Ix.rsvEngState e.val v)) e = v :=
    (nat_setNat_index _ (by decide) ..).trans (nat_setNat_self ..)
  unfold setRsvState
  dsimp only
  split
  · exact (nat_alarm _ _ _ rfl _).trans h
  · exact h

theorem rsvState_setRsvState_ne (s : State) {e g : Fin 16} (h : g ≠ e) (v : Nat) : rsvState (setRsvState s e v) g = rsvState s g := by
  have hset : rsvState (syncLeaves (s.setNat Ix.rsvEngState e.val v)) g = rsvState s g :=
    (nat_setNat_index _ (by decide) ..).trans
      (nat_setNat_ne s (objKey_ne_sub (fun k => h (Fin.ext k)) (by omega) (by omega)) v)
  unfold setRsvState
  dsimp only
  split
  · exact (nat_alarm _ _ _ rfl _).trans hset
  · exact hset

/-! ### Monitors (R375, R376) -/

/-- The readings of engine `e` in the last 60 s, with one now. -/
def slacksWith (s : State) (e : Fin 16) (v : Int) : List (Nat × Int) :=
  (s.clk.sysCounter, v) :: recentSlacks s (mapGet (fun _ => []) e.val s.rsv.slacks)

/-- The state with a reading entered. -/
def slackEntered (s : State) (e : Fin 16) (v : Int) : State :=
  { s with rsv := { s.rsv with slacks := mapSet (fun _ => []) e.val (slacksWith s e v) s.rsv.slacks } }

theorem noteSlack_eq (s : State) (e : Fin 16) (v : Int) : noteSlack s e v = showSlack (slackEntered s e v) e.val := rfl

theorem showSlack_changes (s : State) (e : Nat) : Changes f [Ix.rsvEngSlack] s (showSlack s e) := by
  unfold showSlack
  split
  · exact (Changes.refl ..).setInt (by decide) _ _
  · exact Changes.refl ..

theorem noteSlack_changes (s : State) (e : Fin 16) (v : Int) : Changes forgetRsv [Ix.rsvEngSlack] s (noteSlack s e v) := by
  have hput (r : RsvSt) : Changes forgetRsv [Ix.rsvEngSlack] s { s with rsv := r } := (Changes.refl _ _ s).put rfl rfl
  exact (hput _).trans (showSlack_changes ..)

/-- A reading enters the slacks of its engine; the rest of the reserve stays. -/
theorem noteSlack_rsv (s : State) (e : Fin 16) (v : Int) : ∃ h, (noteSlack s e v).rsv = { s.rsv with slacks := h } :=
  ⟨_, (showSlack_changes (f := id) _ _).read State.rsv fun _ => rfl⟩

theorem slackWarn_changes (s : State) (e : Fin 16) : Changes forgetRsv l s (slackWarn s e) := by
  have hput (r : RsvSt) : Changes forgetRsv l s { s with rsv := r } := (Changes.refl _ _ s).put rfl rfl
  unfold slackWarn
  exact (hput _).ite ((Changes.refl ..).ite ((hput _).alarm _ _))

theorem slackWarn_rsv (s : State) (e : Fin 16) : ∃ l, (slackWarn s e).rsv = { s.rsv with slackLow := l } := by
  unfold slackWarn
  dsimp only
  split
  · exact ⟨_, rfl⟩
  · split
    · exact ⟨_, rfl⟩
    · exact ⟨_, alarm_rsv ..⟩

theorem showLaneSlack_changes (s : State) : Changes f [Ix.rsvLaneSlack] s (showLaneSlack s) := by
  unfold showLaneSlack
  dsimp only
  split
  · exact (Changes.refl ..).setInt (by decide) _ _
  · exact Changes.refl ..

theorem readLanes_changes (s : State) (lanes : List (Nat × Int)) : Changes forgetRsv [Ix.rsvLaneSlack] s (readLanes s lanes) := by
  have hput (r : RsvSt) : Changes forgetRsv [Ix.rsvLaneSlack] s { s with rsv := r } := (Changes.refl _ _ s).put rfl rfl
  exact (hput _).trans (showLaneSlack_changes _)

/-- The lanes a reading finds at their limit. -/
def lanesBad (s : State) (lanes : List (Nat × Int)) : List Nat :=
  ((lanes.filter (fun r => !s.rsv.lanesOut.contains r.1 && decide (r.1 < 68))).filter
    (fun r => decide (r.2 ≤ s.int Ix.rsvSlackRetire) && !s.rsv.lanesDue.contains r.1)).map (fun r => r.1)

theorem readLanes_rsv (s : State) (lanes : List (Nat × Int)) : ∃ kept, (readLanes s lanes).rsv =
    { s.rsv with laneSlacks := kept, lanesDue := s.rsv.lanesDue ++ lanesBad s lanes } :=
  ⟨_, (showLaneSlack_changes (f := id) _).read State.rsv fun _ => rfl⟩

/-- Without policy 1 no trigger moves a place (R376). -/
theorem judgeEngine_calm (h : s.nat Ix.rsvPolicy ≠ 1) (e : Fin 16) : judgeEngine s e = s := by
  have hask : askRetire s e = s := by
    unfold askRetire
    split
    · rfl
    · exact if_neg (by simp [h])
  unfold judgeEngine
  rw [hask]
  exact ite_self s

theorem judged_calm (h : s.nat Ix.rsvPolicy ≠ 1) (es : List (Fin 16)) : es.foldl judgeEngine s = s := by
  induction es with
  | nil => rfl
  | cons e es ih => rw [List.foldl_cons, judgeEngine_calm h, ih]

theorem agingMonitorRead_calm {engines lanes : List (Nat × Int)} {temp : Int}
    (h : (readLanes (engines.foldl readEngine (s.setInt Ix.secDieTemp 0 temp)) lanes).nat Ix.rsvPolicy ≠ 1) :
    exec (.agingMonitorRead engines lanes temp) s =
      .next (readLanes (engines.foldl readEngine (s.setInt Ix.secDieTemp 0 temp)) lanes) :=
  congrArg Host.Outcome.next (judged_calm h _)

theorem readEngine_eq (e : Fin 16) (v : Int) (h : (s.engine e).run = .running) :
    readEngine s (e.val, v) = slackWarn (noteSlack s e v) e := by
  have he : Fin.ofNat 16 e.val = e := Fin.ext (Nat.mod_eq_of_lt e.isLt)
  unfold readEngine
  dsimp only
  rw [he, h]
  exact if_pos (by simp)

theorem int_noteSlack_self {e : Fin 16} {v least : Int} (h : leastSlack (recentSlacks s (slacksWith s e v)) = some least) :
    (noteSlack s e v).int Ix.rsvEngSlack e.val = least := by
  have hleast : leastSlack (recentSlacks (slackEntered s e v) (mapGet (fun _ => []) e.val (slackEntered s e v).rsv.slacks)) =
      some least := by
    rw [← h]
    exact congrArg (fun x => leastSlack (recentSlacks s x)) (mapGet_mapSet_self (fun _ => []) e.val (slacksWith s e v) s.rsv.slacks)
  rw [noteSlack_eq, showSlack, hleast]
  exact int_setInt_self ..

theorem int_noteSlack_ne {e g : Fin 16} (h : g ≠ e) (s : State) (v : Int) :
    (noteSlack s e v).int Ix.rsvEngSlack g.val = s.int Ix.rsvEngSlack g.val := by
  have hkey : objKey Ix.rsvEngSlack g.val ≠ objKey Ix.rsvEngSlack e.val :=
    objKey_ne_sub (fun k => h (Fin.ext k)) (by omega) (by omega)
  rw [noteSlack_eq]
  unfold showSlack
  split
  · exact (int_setInt_ne _ hkey _).trans rfl
  · rfl

/-- The reading of an engine that runs (R375). -/
theorem agingMonitorRead_engine {e : Fin 16} {v least : Int} (temp : Int) (hp : s.nat Ix.rsvPolicy ≠ 1) (hr : (s.engine e).run = .running)
    (hl : leastSlack (recentSlacks s ((s.clk.sysCounter, v) :: recentSlacks s (mapGet (fun _ => []) e.val s.rsv.slacks))) = some least) :
    ∃ t, exec (.agingMonitorRead [(e.val, v)] [] temp) s = .next t ∧ t.int Ix.secDieTemp = temp ∧
      t.int Ix.rsvEngSlack e.val = least ∧ (∀ g : Fin 16, g ≠ e → t.int Ix.rsvEngSlack g.val = s.int Ix.rsvEngSlack g.val) ∧
      t.rsv.move = s.rsv.move ∧ t.engines = s.engines := by
  let r := s.setInt Ix.secDieTemp 0 temp
  have hr0 : Changes forgetRsv [Ix.secDieTemp] s r := (Changes.refl ..).setInt (by decide) _ _
  have hnote := noteSlack_changes r e v
  have hwarn := slackWarn_changes (l := []) (noteSlack r e v) e
  have hlanes := readLanes_changes (slackWarn (noteSlack r e v) e) []
  have hread : [(e.val, v)].foldl readEngine r = slackWarn (noteSlack r e v) e := readEngine_eq (s := r) e v hr
  have hpolicy : (readLanes ([(e.val, v)].foldl readEngine r) []).nat Ix.rsvPolicy ≠ 1 := by
    rw [hread, hlanes.nat rfl (by decide), hwarn.nat rfl (by decide), hnote.nat rfl (by decide), hr0.nat rfl (by decide)]
    exact hp
  have hslack {x : Nat} : (readLanes (slackWarn (noteSlack r e v) e) []).int Ix.rsvEngSlack x = (noteSlack r e v).int Ix.rsvEngSlack x :=
    (hlanes.int rfl (by decide) _).trans (hwarn.int rfl (by decide) _)
  obtain ⟨kept, hrsv⟩ := readLanes_rsv (slackWarn (noteSlack r e v) e) []
  obtain ⟨low, hlow⟩ := slackWarn_rsv (noteSlack r e v) e
  obtain ⟨slacks, hslacks⟩ := noteSlack_rsv r e v
  refine ⟨_, (agingMonitorRead_calm hpolicy).trans (congrArg (fun u => Host.Outcome.next (readLanes u [])) hread), ?_, ?_, fun g hg => ?_,
    ?_, ?_⟩
  · rw [hlanes.int rfl (by decide), hwarn.int rfl (by decide), hnote.int rfl (by decide)]
    exact int_setInt_self ..
  · rw [hslack]
    exact int_noteSlack_self (s := r) hl
  · rw [hslack, int_noteSlack_ne hg]
    exact hr0.int rfl (by decide) _
  · rw [hrsv, hlow, hslacks]
    rfl
  · rw [hlanes.read State.engines fun _ => rfl, hwarn.read State.engines fun _ => rfl, hnote.read State.engines fun _ => rfl,
      hr0.read State.engines fun _ => rfl]

/-- The reading of a lane in service (R375, R376). -/
theorem agingMonitorRead_lane {lane : Fin 68} {v : Int} (temp : Int) (hp : s.nat Ix.rsvPolicy ≠ 1)
    (hout : s.rsv.lanesOut.contains lane.val = false) (hdue : s.rsv.lanesDue.contains lane.val = false) :
    ∃ t, exec (.agingMonitorRead [] [(lane.val, v)] temp) s = .next t ∧
      t.rsv.lanesDue = s.rsv.lanesDue ++ (if v ≤ s.int Ix.rsvSlackRetire then [lane.val] else []) ∧
      t.rsv.lanesOut = s.rsv.lanesOut ∧ t.engines = s.engines := by
  let r := s.setInt Ix.secDieTemp 0 temp
  have hr0 : Changes forgetRsv [Ix.secDieTemp] s r := (Changes.refl ..).setInt (by decide) _ _
  have hlanes := readLanes_changes r [(lane.val, v)]
  obtain ⟨kept, hrsv⟩ := readLanes_rsv r [(lane.val, v)]
  have hpolicy : (readLanes ([].foldl readEngine r) [(lane.val, v)]).nat Ix.rsvPolicy ≠ 1 := by
    rw [List.foldl_nil, hlanes.nat rfl (by decide), hr0.nat rfl (by decide)]
    exact hp
  have hbad : lanesBad r [(lane.val, v)] = if v ≤ s.int Ix.rsvSlackRetire then [lane.val] else [] := by
    have hlimit : r.int Ix.rsvSlackRetire = s.int Ix.rsvSlackRetire := hr0.int rfl (by decide) _
    have hsame : r.rsv = s.rsv := setInt_rsv ..
    unfold lanesBad
    rw [hlimit, hsame]
    by_cases hv : v ≤ s.int Ix.rsvSlackRetire
    · simp [hout, hdue, hv, lane.isLt, -List.contains_eq_mem]
    · simp [hout, hv, lane.isLt, -List.contains_eq_mem]
  refine ⟨_, agingMonitorRead_calm hpolicy, ?_, ?_, ?_⟩
  · change (readLanes r [(lane.val, v)]).rsv.lanesDue = _
    rw [hrsv, hbad]
    rfl
  · change (readLanes r [(lane.val, v)]).rsv.lanesOut = _
    rw [hrsv]
    rfl
  · exact (hlanes.read State.engines fun _ => rfl).trans (hr0.read State.engines fun _ => rfl)

/-! ### Self-tests (R385) -/

/-- The first test that waits begins, on a leaf. -/
theorem startTest_leaf {e : Fin 16} {es : List (Fin 16)} (htesting : s.rsv.testing = []) (htests : s.rsv.tests = e :: es)
    (hone : rsvState s e = 1) :
    startTest s = setRsvState { s with rsv := { s.rsv with tests := es, testing := [e], untrusted := [] } } e 2 := by
  unfold startTest
  rw [htesting, htests]
  dsimp only
  rw [if_neg (by simp), hone, if_pos (Or.inl rfl), if_pos rfl]

theorem addTests_leaf {e : Fin 16} {es : List (Fin 16)} (htesting : s.rsv.testing = []) (htests : s.rsv.tests = [])
    (hone : rsvState s e = 1) : addTests s (e :: es) =
      setRsvState { s with rsv := { s.rsv with tests := es, testing := [e], untrusted := [] } } e 2 := by
  have hall : s.rsv.tests ++ (e :: es).filter (fun x => !s.rsv.tests.contains x && !s.rsv.testing.contains x) = e :: es := by
    rw [htests, htesting]
    simp
  unfold addTests
  rw [hall]
  exact startTest_leaf htesting rfl hone

/-- The timer has the first leaf tested, and the others wait. -/
theorem leafTestTimer_tests {e : Fin 16} {es : List (Fin 16)} (hper : s.nat Ix.rsvLeafTestPeriod ≠ 0)
    (hdue : s.reached (s.rsv.testedAt + s.nat Ix.rsvLeafTestPeriod * 3600000000000) = true) (htesting : s.rsv.testing = [])
    (htests : s.rsv.tests = []) (hleaves : (List.finRange 16).filter (fun e => rsvState s e == 1) = e :: es) :
    ∃ t, exec .leafTestTimer s = .next t ∧ t.rsv.testing = [e] ∧ t.rsv.tests = es ∧ rsvState t e = 2 ∧ t.engines = s.engines := by
  have hone : rsvState s e = 1 := by
    have hmem : e ∈ (List.finRange 16).filter (fun e => rsvState s e == 1) := by rw [hleaves]; exact List.mem_cons_self
    simpa using hmem
  let r : State := { s with rsv := { s.rsv with testedAt := s.clk.sysCounter } }
  let u : State := { r with rsv := { r.rsv with tests := es, testing := [e], untrusted := [] } }
  have hadd : testLeaves r = setRsvState u e 2 :=
    (congrArg (addTests r) hleaves).trans (addTests_leaf (s := r) htesting htests hone)
  have hgo : ¬ (decide (s.nat Ix.rsvLeafTestPeriod = 0) || !s.reached (s.rsv.testedAt + s.nat Ix.rsvLeafTestPeriod * 3600000000000)) = true := by
    simp [hper, hdue]
  have hset := setRsvState_changes (f := id) u e 2
  have hrsv : (setRsvState u e 2).rsv = u.rsv := hset.read State.rsv fun _ => rfl
  refine ⟨setRsvState u e 2, congrArg Host.Outcome.next ((if_neg hgo).trans hadd), by rw [hrsv], by rw [hrsv],
    rsvState_setRsvState_self .., hset.read State.engines fun _ => rfl⟩

/-- The engines under test without `e`. -/
def testOver (s : State) (e : Fin 16) : State :=
  { s with rsv := { s.rsv with testing := s.rsv.testing.filter (fun x => x != e)
                               untrusted := s.rsv.untrusted.filter (fun x => x != e) } }

/-- The state a test leaves its engine in (R376, R385). -/
def testedState (s : State) (e : Fin 16) (pass : Bool) : Nat := if pass = true then (if holdsWork s e = true then 0 else 1) else 6

theorem leafTestDone_eq {e : Fin 16} (pass : Bool) (slack : Int) (h : s.rsv.testing.contains e = true) :
    ∃ q, Changes id [] (noteSlack (testOver s e) e slack) q ∧
      exec (.leafTestDone e pass slack) s = .next (startTest (setRsvState q e (testedState s e pass))) := by
  have hgo : ¬ (!s.rsv.testing.contains e) = true := by rw [h]; decide
  cases pass
  · exact ⟨_, (Changes.refl ..).alarm .., congrArg Host.Outcome.next ((if_neg hgo).trans (congrArg startTest (if_neg Bool.false_ne_true)))⟩
  · exact ⟨_, Changes.refl .., congrArg Host.Outcome.next ((if_neg hgo).trans (congrArg startTest (if_pos rfl)))⟩

/-- With no test waiting none begins. -/
theorem startTest_none (h : s.rsv.tests = []) : startTest s = s := by
  unfold startTest
  rw [h]
  exact ite_self _

/-- A test that ends, with no other waiting. -/
theorem leafTestDone_ends {e : Fin 16} (pass : Bool) (slack : Int) (htesting : s.rsv.testing.contains e = true) (htests : s.rsv.tests = []) :
    ∃ t, exec (.leafTestDone e pass slack) s = .next t ∧ rsvState t e = testedState s e pass ∧
      t.rsv.testing = s.rsv.testing.filter (fun x => x != e) ∧ (∀ g, g ≠ e → rsvState t g = rsvState s g) ∧ t.engines = s.engines := by
  have hnote := noteSlack_changes (testOver s e) e slack
  obtain ⟨slacks, hslacks⟩ := noteSlack_rsv (testOver s e) e slack
  obtain ⟨q, hq, hx⟩ := leafTestDone_eq pass slack htesting
  have hset := setRsvState_changes (f := id) q e (testedState s e pass)
  have hrsv := ((hset.read State.rsv fun _ => rfl).trans (hq.read State.rsv fun _ => rfl)).trans hslacks
  rw [startTest_none (by rw [hrsv]; exact htests)] at hx
  refine ⟨_, hx, rsvState_setRsvState_self .., by rw [hrsv]; rfl, fun g hg => ?_, ?_⟩
  · rw [rsvState_setRsvState_ne _ hg]
    exact (hq.nat rfl (by decide) _).trans (hnote.nat rfl (by decide) _)
  · exact ((hset.read State.engines fun _ => rfl).trans (hq.read State.engines fun _ => rfl)).trans
      (hnote.read State.engines fun _ => rfl)

end

end Sys2Proof.Machine
end

section
/-! Lanes, rows and counters of the reserve, settled (R386 to R390, R403). -/

namespace Sys2Proof.Machine

section
variable {f : State → State} {s : State}

/-! ### Bench lanes (R386 to R388) -/

theorem addBlock_changes {l : List Nat} {ix : Nat} (hix : ix ∈ l) (hovf : Ix.pmuOvf ∈ l) (k bit src n : Nat) (s : State) :
    Changes f l s (addBlock ix k bit src n s) := by
  have h (v : Nat) := (Changes.refl f l s).setNat hix k v
  unfold addBlock
  exact (h _).ite (((h _).setNat hovf _ _).alarmIf ..)

theorem benchEvent_changes (ev n : Nat) (s : State) : Changes f [Ix.pmuBenchCount, Ix.pmuOvf] s (benchEvent ev n s) :=
  (Changes.refl ..).foldl _ fun r k => (addBlock_changes (by decide) (by decide) _ _ _ _ r).ite (Changes.refl ..)

/-- RSV_LANES once a lane has been retired. -/
def lanesWithout (w : Nat) : Nat :=
  (if 0 < w / 256 % 128 then w % 128 else w % 128 - 1) + 256 * (w / 256 % 128 - 1) + 65536 * (w / 65536 % 128 + 1)

/-- A failed residue check, counted (R386). -/
def residueCounted (s : State) : State :=
  { s.addHold Ix.rsvLaneResidue 0 1 with bench := { s.bench with load := s.bench.load + 1 } }

/-- The check reported to the counters of the Bench too (R394). -/
def residueFails (s : State) : State := benchEvent 0x08 1 (residueCounted s)

theorem residueFails_changes (s : State) : Changes id [Ix.pmuBenchCount, Ix.pmuOvf] (residueCounted s) (residueFails s) :=
  benchEvent_changes 0x08 1 (residueCounted s)

theorem nat_residueFails (s : State) : (residueFails s).nat Ix.rsvLaneResidue = min (s.nat Ix.rsvLaneResidue + 1) 0xFFFFFFFF := by
  rw [(residueFails_changes s).nat rfl (by decide)]
  exact (nat_of_dict rfl ..).trans (nat_addHold_self s Ix.rsvLaneResidue 0 1)

theorem residueFails_rsv (s : State) : (residueFails s).rsv = s.rsv :=
  ((residueFails_changes s).read State.rsv fun _ => rfl).trans (by unfold residueCounted; exact addHold_rsv s Ix.rsvLaneResidue 0 1)

theorem residueFails_engines (s : State) : (residueFails s).engines = s.engines :=
  ((residueFails_changes s).read State.engines fun _ => rfl).trans
    (by unfold residueCounted; exact addHold_engines s Ix.rsvLaneResidue 0 1)

/-- The lane out of service. -/
def laneOut (s : State) (lane : Nat) : State :=
  { s with rsv := { s.rsv with lanesOut := s.rsv.lanesOut ++ [lane], lanesDue := s.rsv.lanesDue.filter (fun k => k != lane) } }

theorem laneRetire_eq {lane : Fin 68} (h : s.rsv.lanesOut.contains lane.val = false) : ∃ load leaves short,
    exec (.laneRetire lane true) s = .next ((((((laneOut (residueFails s) lane.val).setNat Ix.rsvLanes 0
      (lanesWithout (s.nat Ix.rsvLanes))).setNat Ix.benchLoadMax 0 load).setNat Ix.rsvLeaves 0 leaves).alarm Al.rsvLaneRetired).alarmIf
        short Al.rsvLaneShort) :=
  ⟨_, _, _, congrArg Host.Outcome.next (if_neg (by rw [h, Bool.false_or, Bool.true_or]; decide))⟩

/-- A lane that failed its residue check is retired. -/
theorem laneRetire_retires {lane : Fin 68} (h : s.rsv.lanesOut.contains lane.val = false) :
    ∃ t, exec (.laneRetire lane true) s = .next t ∧ t.rsv.lanesOut = s.rsv.lanesOut ++ [lane.val] ∧
      t.nat Ix.rsvLaneResidue = min (s.nat Ix.rsvLaneResidue + 1) 0xFFFFFFFF ∧ t.nat Ix.rsvLanes = lanesWithout (s.nat Ix.rsvLanes) ∧
      t.engines = s.engines := by
  obtain ⟨load, leaves, short, hx⟩ := laneRetire_eq h
  have hengines := residueFails_engines s
  have hcount := nat_residueFails s
  have hrsv := residueFails_rsv s
  generalize residueFails s = r at hx hengines hcount hrsv
  have hout : Changes forgetRsv [] r (laneOut r lane.val) := (Changes.refl ..).put rfl rfl
  have hlanes : (laneOut r lane.val).rsv.lanesOut = s.rsv.lanesOut ++ [lane.val] := by rw [← hrsv]; rfl
  have hset := (Changes.refl id [Ix.rsvLanes] (laneOut r lane.val)).setNat (ix := Ix.rsvLanes) (by decide) 0 (lanesWithout (s.nat Ix.rsvLanes))
  have hself := nat_setNat_self (laneOut r lane.val) Ix.rsvLanes 0 (lanesWithout (s.nat Ix.rsvLanes))
  generalize (laneOut r lane.val).setNat Ix.rsvLanes 0 (lanesWithout (s.nat Ix.rsvLanes)) = q at hx hset hself
  have hrest := ((((Changes.refl id [Ix.benchLoadMax, Ix.rsvLeaves] q).setNat (ix := Ix.benchLoadMax) (by decide) 0 load).setNat
    (ix := Ix.rsvLeaves) (by decide) 0 leaves).alarm Al.rsvLaneRetired 0).alarmIf short Al.rsvLaneShort 0
  refine ⟨_, hx, ?_, ?_, ?_, ?_⟩
  · rw [hrest.read State.rsv fun _ => rfl, hset.read State.rsv fun _ => rfl, hlanes]
  · rw [hrest.nat rfl (by decide), hset.nat rfl (by decide), hout.nat rfl (by decide), hcount]
  · rw [hrest.nat rfl (by decide), hself]
  · rw [hrest.read State.engines fun _ => rfl, hset.read State.engines fun _ => rfl, hout.read State.engines fun _ => rfl,
      hengines]

/-! ### Row repair (R389, R390) -/

theorem setSpares_changes (s : State) (m v : Nat) : Changes f [Ix.rsvRows, Ix.fabBankSpares] s (setSpares s m v) := by
  have h := (Changes.refl f [Ix.rsvRows, Ix.fabBankSpares] s).setNat (ix := Ix.rsvRows) (by decide) m v
  exact (h.setNat (by decide) _ _).ite h

theorem nat_setSpares (s : State) (m v : Nat) : (setSpares s m v).nat Ix.rsvRows m = v := by
  unfold setSpares
  dsimp only
  split
  · exact (nat_setNat_index _ (by decide) ..).trans (nat_setNat_self ..)
  · exact nat_setNat_self ..

/-- The corrected errors of a repaired row no longer count against its engine. -/
def ceDropped (s : State) (memory counted : Nat) : State :=
  match memEngine memory with
  | none => s
  | some e =>
    { s with rsv := { s.rsv with
      ces := mapSet (fun _ => []) e.val ((mapGet (fun _ => []) e.val s.rsv.ces).drop counted) s.rsv.ces } }

theorem ceDropped_changes {l : List Nat} (s : State) (memory counted : Nat) : Changes forgetRsv l s (ceDropped s memory counted) := by
  unfold ceDropped
  split
  · exact Changes.refl ..
  · exact (Changes.refl ..).put rfl rfl

theorem ceDropped_rsv (s : State) (memory counted : Nat) : ∃ c, (ceDropped s memory counted).rsv = { s.rsv with ces := c } := by
  unfold ceDropped
  split
  · exact ⟨_, rfl⟩
  · exact ⟨_, rfl⟩

/-- The repair entered: its entry in the log, its spare row, its alarm. -/
def repairLogged (s : State) (memory v entry : Nat) : State :=
  ((setSpares s memory v).setNat Ix.rsvRepairLog (s.rsv.repairs % 64) entry).alarm Al.rsvRowRepaired memory

/-- The repair counted, its fuse still to be written. -/
def repairCounted (s : State) (n memory : Nat) : State :=
  { s with rsv := { s.rsv with repairs := n + 1, unfused := s.rsv.unfused ++ [(n, memory)] } }

/-- An entry of the repair log (R393). -/
def repairEntry (s : State) (memory : Nat) (row : Half) (bad : Bool) : Nat :=
  memory + 256 * row.toNat + (if bad = true then 2 ^ 24 else 0) + 2 ^ 32 * (s.clk.tick % 2 ^ 32)

theorem rowRepairSwitch_eq {memory counted : Nat} {row : Half} {bad : Bool} (hm : Subs.memory.has memory = true)
    (hleft : 0 < s.nat Ix.rsvRows memory / 256) (hused : s.nat Ix.rsvRows memory % 256 < 255)
    (hwhy : bad = true ∨ s.nat Ix.rsvRowCeLimit ≤ counted) : ∃ low, exec (.rowRepairSwitch memory row bad counted) s =
      .next ((repairCounted (ceDropped (repairLogged s memory (s.nat Ix.rsvRows memory % 256 + 1 + 256 * (s.nat Ix.rsvRows memory / 256 - 1))
        (repairEntry s memory row bad)) memory counted) s.rsv.repairs memory).alarmIf low Al.rsvSparesLow memory) := by
  have hgo : ¬ (!Subs.memory.has memory || (!bad && decide (counted < s.nat Ix.rsvRowCeLimit))) = true := by
    rw [hm]
    rcases hwhy with hb | hc
    · simp [hb]
    · simp [Nat.not_lt.mpr hc]
  let low (a : Nat) : Bool := decide (10 * a < s.nat Ix.rsvRows memory % 256 + s.nat Ix.rsvRows memory / 256)
  refine ⟨low (s.nat Ix.rsvRows memory / 256 - 1) && !low (s.nat Ix.rsvRows memory / 256),
    congrArg Host.Outcome.next ((if_neg hgo).trans ((if_neg (by omega)).trans ?_))⟩
  unfold ceDropped
  rfl

theorem rowRepairSwitch_repairs {memory counted : Nat} {row : Half} {bad : Bool} (hm : Subs.memory.has memory = true)
    (hleft : 0 < s.nat Ix.rsvRows memory / 256) (hused : s.nat Ix.rsvRows memory % 256 < 255)
    (hwhy : bad = true ∨ s.nat Ix.rsvRowCeLimit ≤ counted) : ∃ t, exec (.rowRepairSwitch memory row bad counted) s = .next t ∧
      t.nat Ix.rsvRows memory = s.nat Ix.rsvRows memory % 256 + 1 + 256 * (s.nat Ix.rsvRows memory / 256 - 1) ∧
      t.rsv.repairs = s.rsv.repairs + 1 ∧ t.rsv.unfused = s.rsv.unfused ++ [(s.rsv.repairs, memory)] ∧
      t.nat Ix.rsvRepairLog (s.rsv.repairs % 64) = repairEntry s memory row bad ∧ t.engines = s.engines := by
  obtain ⟨low, hx⟩ := rowRepairSwitch_eq hm hleft hused hwhy
  generalize s.nat Ix.rsvRows memory % 256 + 1 + 256 * (s.nat Ix.rsvRows memory / 256 - 1) = v at hx ⊢
  generalize repairEntry s memory row bad = entry at hx ⊢
  have hspares := setSpares_changes (f := id) s memory v
  have hrows := nat_setSpares s memory v
  have hlog : Changes id [Ix.rsvRepairLog] (setSpares s memory v) (repairLogged s memory v entry) :=
    ((Changes.refl ..).setNat (by decide) _ _).alarm ..
  have hentry : (repairLogged s memory v entry).nat Ix.rsvRepairLog (s.rsv.repairs % 64) = entry :=
    (nat_alarm _ _ _ rfl _).trans (nat_setNat_self ..)
  have hrsv : (repairLogged s memory v entry).rsv = s.rsv :=
    (hlog.read State.rsv fun _ => rfl).trans (hspares.read State.rsv fun _ => rfl)
  have hengines : (repairLogged s memory v entry).engines = s.engines :=
    (hlog.read State.engines fun _ => rfl).trans (hspares.read State.engines fun _ => rfl)
  have hkept := (hlog.nat (ix := Ix.rsvRows) rfl (by decide) memory).trans hrows
  generalize repairLogged s memory v entry = r at hx hentry hrsv hengines hkept
  have hdrop := ceDropped_changes (l := []) r memory counted
  obtain ⟨ces, hces⟩ := ceDropped_rsv r memory counted
  have hcount (u : State) : Changes forgetRsv [] u (repairCounted u s.rsv.repairs memory) := (Changes.refl ..).put rfl rfl
  have hall := (hdrop.trans (hcount _)).alarmIf low Al.rsvSparesLow memory
  have hend : ((repairCounted (ceDropped r memory counted) s.rsv.repairs memory).alarmIf low Al.rsvSparesLow memory).rsv =
      { s.rsv with repairs := s.rsv.repairs + 1, unfused := s.rsv.unfused ++ [(s.rsv.repairs, memory)], ces := ces } := by
    refine (((Changes.refl id [] _).alarmIf low Al.rsvSparesLow memory).read State.rsv fun _ => rfl).trans ?_
    unfold repairCounted
    dsimp only
    rw [hces, hrsv]
  refine ⟨_, hx, (hall.nat rfl (by decide) _).trans hkept, by rw [hend], by rw [hend], (hall.nat rfl (by decide) _).trans hentry,
    (hall.read State.engines fun _ => rfl).trans hengines⟩

/-- Without a free fuse the repair is not kept (R390). -/
theorem repairFuseWrite_full {n memory : Nat} {more : List (Nat × Nat)} (h : s.rsv.unfused = (n, memory) :: more)
    (hfull : 512 ≤ s.nat Ix.rsvRepairFuses) : exec .repairFuseWrite s = .next ({ s with rsv := { s.rsv with
      unfused := more, unkept := s.rsv.unkept ++ [memory] } }.alarm Al.rsvFusesFull memory) := by
  change execRepairFuseWrite s = _
  unfold execRepairFuseWrite
  rw [h]
  exact congrArg Host.Outcome.next (if_pos hfull)

/-- The oldest repair is fused (R390). -/
theorem repairFuseWrite_fuses {n memory : Nat} {more : List (Nat × Nat)} (h : s.rsv.unfused = (n, memory) :: more)
    (hfree : s.nat Ix.rsvRepairFuses < 512) : ∃ t, exec .repairFuseWrite s = .next t ∧ t.rsv.unfused = more ∧
      t.nat Ix.rsvRepairFuses = s.nat Ix.rsvRepairFuses + 1 ∧
      (s.rsv.repairs ≤ n + 63 → (t.nat Ix.rsvRepairLog (n % 64)).testBit 25 = true) ∧ t.engines = s.engines := by
  let r : State := { s with rsv := { s.rsv with unfused := more } }.setNat Ix.rsvRepairFuses 0 (s.nat Ix.rsvRepairFuses + 1)
  have hx : exec .repairFuseWrite s = .next (if n + 64 < s.rsv.repairs + 1 then r
      else r.setNat Ix.rsvRepairLog (n % 64) (s.nat Ix.rsvRepairLog (n % 64) ||| 2 ^ 25)) := by
    change execRepairFuseWrite s = _
    unfold execRepairFuseWrite
    rw [h]
    exact congrArg Host.Outcome.next (if_neg (Nat.not_le.mpr hfree))
  have hr : r.rsv.unfused = more ∧ r.nat Ix.rsvRepairFuses = s.nat Ix.rsvRepairFuses + 1 ∧ r.engines = s.engines :=
    ⟨congrArg RsvSt.unfused (setNat_rsv ..), nat_setNat_self .., setNat_engines ..⟩
  clear_value r
  obtain ⟨hunfused, hfuses, hengines⟩ := hr
  by_cases hold : n + 64 < s.rsv.repairs + 1
  · exact ⟨r, hx.trans (congrArg Host.Outcome.next (if_pos hold)), hunfused, hfuses, fun hn => absurd hold (by omega), hengines⟩
  · refine ⟨_, hx.trans (congrArg Host.Outcome.next (if_neg hold)), ?_, ?_, fun _ => ?_, ?_⟩
    · rw [setNat_rsv, hunfused]
    · rw [nat_setNat_index _ (by decide), hfuses]
    · rw [nat_setNat_self, Nat.testBit_or, Nat.testBit_two_pow_self, Bool.or_true]
    · rw [setNat_engines, hengines]

/-! ### The counters of an engine (R403) -/

theorem localWrite_pmu (e : Engine) {off : Nat} (hlo : 0x100 ≤ off) (hhi : off < 0x140) (w : Word) :
    localWrite .fabric off w e = ({ e with loc := { e.loc with pmu := pmuWrite e.loc.pmu off w } }, []) := by
  unfold localWrite
  dsimp only
  rw [if_neg (by omega), if_neg (by omega), if_neg (by omega), if_neg (by omega), if_neg (by omega), if_neg (by omega), if_neg (by omega),
    if_neg (by omega), if_neg (by omega), if_neg (by omega), if_pos (by omega)]

/-- A register of a count: which count it is, and which half. -/
theorem pmuWrite_count (pm : EngPmu) {off : Nat} {k : Fin 4} (hlo : 0x110 ≤ off) (hhi : off < 0x130)
    (hk : Fin.ofNat 4 ((off - 0x110) / 8) = k) (w : Word) : pmuWrite pm off w =
      if off % 8 = 0 then { pm with cnt := pm.cnt.set k.val (pm.staged[k.val] ++ w) }
      else { pm with staged := pm.staged.set k.val (w.setWidth 16) } := by
  subst hk
  unfold pmuWrite
  rw [if_neg (by omega), if_neg (by omega), if_neg (by omega), if_pos (by omega)]

theorem countIndex_low : ∀ k : Fin 4, Fin.ofNat 4 ((0x110 + 8 * k.val - 0x110) / 8) = k := by decide

theorem countIndex_high : ∀ k : Fin 4, Fin.ofNat 4 ((0x114 + 8 * k.val - 0x110) / 8) = k := by decide

theorem pmuWrite_low (pm : EngPmu) (k : Fin 4) (w : Word) :
    pmuWrite pm (0x110 + 8 * k.val) w = { pm with cnt := pm.cnt.set k.val (pm.staged[k.val] ++ w) } :=
  (pmuWrite_count pm (by omega) (by omega) (countIndex_low k) w).trans (if_pos (by omega))

theorem pmuWrite_high (pm : EngPmu) (k : Fin 4) (w : Word) :
    pmuWrite pm (0x114 + 8 * k.val) w = { pm with staged := pm.staged.set k.val (w.setWidth 16) } :=
  (pmuWrite_count pm (by omega) (by omega) (countIndex_high k) w).trans (if_neg (by omega))

/-- A counter register of an engine's window, written. -/
theorem portWrite_pmu {e : Fin 16} (h : windowGated s e = false) {off : Nat} (hlo : 0x100 ≤ off) (hhi : off < 0x140) (w : Word) :
    portWrite s e .fabric off w = s.setEngine e { s.engine e with loc := { (s.engine e).loc with
      pmu := pmuWrite (s.engine e).loc.pmu off w } } := by
  rw [portWrite_eq (port := .fabric) h, localWrite_pmu _ hlo hhi, commitEngine_nil]

end

end Sys2Proof.Machine

open Sys2Proof Sys2Proof.Machine

/-- Settles O47: without policy 1 no reading moves a place; each other event writes its registers and its list once. -/
theorem reserveIsWatchedAndRepaired : Obligations.ReserveIsWatchedAndRepaired := by
  unfold Obligations.ReserveIsWatchedAndRepaired
  intro s
  refine ⟨fun e v temp least hp hr hl => agingMonitorRead_engine temp hp hr hl,
    fun lane v temp hp hout hdue => agingMonitorRead_lane temp hp hout hdue,
    fun e es hper hdue htesting htests hleaves => leafTestTimer_tests hper hdue htesting htests hleaves,
    fun e pass slack htesting htests => leafTestDone_ends pass slack htesting htests, fun lane => laneRetire_retires,
    fun memory row bad counted => rowRepairSwitch_repairs, fun n memory more h hfull => repairFuseWrite_full h hfull,
    fun n memory more h hfree => repairFuseWrite_fuses h hfree, fun e k value => ?_⟩
  intro l pm hg
  constructor
  · change Host.Outcome.next (portWrite s e .fabric (0x110 + 8 * k.val) value) = _
    rw [portWrite_pmu hg (by omega) (by omega), pmuWrite_low]
  · change Host.Outcome.next (portWrite s e .fabric (0x114 + 8 * k.val) value) = _
    rw [portWrite_pmu hg (by omega) (by omega), pmuWrite_high]

end

section
/-! Clock synthesis: system PLLs, media synthesizers, ramps and SYNC (chapter 13). -/

namespace Sys2Proof.Machine

section
variable {f : State → State} {s t : State}

/-! ### Losses of lock (R302) -/

/-- The losses of a PLL in the last 24 hours. -/
def recentLosses (s : State) (p : Nat) : List Nat :=
  (mapGet (fun _ => []) p s.syn.losses).filter (fun t => decide (s.clk.sysCounter ≤ t + day))

/-- What a loss or a switch of a PLL changes. -/
def forgetPll (s : State) : State := { s with syn := { SynSt.reset with dead := s.syn.dead } }

theorem pllLost_changes (s : State) (p : Nat) : Changes forgetPll [Ix.syspllLosses] s (pllLost s p).1 := by
  have hput (y : List Nat) : Changes forgetPll [Ix.syspllLosses] s
      { s with syn := { s.syn with losses := mapSet (fun _ => []) p y s.syn.losses } } := (Changes.refl _ _ s).put rfl rfl
  exact ((hput _).addHold (ix := Ix.syspllLosses) (by decide) p 1).alarm (Al.syspllLockLost.src p) 0

theorem pllLost_counts (s : State) (p : Nat) :
    (pllLost s p).1.nat Ix.syspllLosses p = min (s.nat Ix.syspllLosses p + 1) 0xFFFFFFFF :=
  (nat_alarm _ _ _ rfl p).trans (nat_addHold_self ..)

/-- The third loss in 24 hours fails the PLL. -/
theorem pllLost_fails (s : State) (p : Nat) : (pllLost s p).2 = decide (2 ≤ (recentLosses s p).length) := by
  have hlen : (pllLost s p).2 = decide (3 ≤ (recentLosses s p ++ [s.clk.sysCounter]).length) := rfl
  rw [hlen, List.length_append]
  simp

/-- The PLL that lost lock, its loss counted. -/
def pllDown (s : State) (p : Nat) : State := (pllLost s p).1.setNat Ix.syspllState p (if (pllLost s p).2 then 4 else 1)

/-- From `s` to `t` PLL `p` has lost lock. -/
structure PllDown (s t : State) (p : Nat) : Prop extends Changes forgetPll [Ix.syspllLosses, Ix.syspllState] s t where
  counted : t.nat Ix.syspllLosses p = min (s.nat Ix.syspllLosses p + 1) 0xFFFFFFFF
  down : pllState t p = if 2 ≤ (recentLosses s p).length then 4 else 1
  other : pllState t (1 - p) = pllState s (1 - p)

theorem pllDown_down (s : State) (p : Fin 2) : PllDown s (pllDown s p.val) p.val where
  toChanges := ((pllLost_changes s p.val).widen (fun _ => rfl) (by decide)).setNat (by decide) _ _
  counted := (nat_setNat_index _ (by decide) ..).trans (pllLost_counts s p.val)
  down := by
    refine (nat_setNat_self ..).trans ?_
    rw [pllLost_fails]
    simp only [decide_eq_true_eq]
  other := (nat_setNat_ne _ (objKey_ne_sub (by omega) (by omega) (by omega)) _).trans
    ((pllLost_changes s p.val).nat rfl (by decide) _)

theorem noLeafCheck_regs (s : State) : Changes f [Ix.rsvLeaves] s (noLeafCheck s) := noLeafCheck_changes s (by decide)

/-- A hot leaf that loses lock (R302). -/
theorem hotLeaf_lost {p : Fin 2} (h : pllState s p.val = 2) : exec (.syspllLossOfLock p) s = .next (noLeafCheck (pllDown s p.val)) := by
  have hgo : ¬ (pllState s p.val ≠ 2 ∧ pllState s p.val ≠ 3) := fun k => k.1 h
  exact (if_neg hgo).trans (if_pos h)

/-- The active PLL loses lock, and the hot leaf takes over (R301, R302). -/
theorem active_lost {p : Fin 2} (h : pllState s p.val = 3) (ho : pllState s (1 - p.val) = 2) :
    exec (.syspllLossOfLock p) s = .next (noLeafCheck (pllSwitch (pllDown s p.val) (1 - p.val))) := by
  have hgo : ¬ (pllState s p.val ≠ 2 ∧ pllState s p.val ≠ 3) := fun k => k.2 h
  have h2 : ¬ pllState s p.val = 2 := by rw [h]; decide
  exact (if_neg hgo).trans ((if_neg h2).trans (if_pos ho))

/-- The active PLL loses lock with no other to take over (R303). -/
theorem both_lost {p : Fin 2} (h : pllState s p.val = 3) (ho : pllState s (1 - p.val) ≠ 2) (hd : s.syn.dead = false) :
    exec (.syspllLossOfLock p) s = .next ((toIsolated (stopForGood (pllLost s p.val).1)).alarm Al.syspllBothLost) := by
  have hgo : ¬ (pllState s p.val ≠ 2 ∧ pllState s p.val ≠ 3) := fun k => k.2 h
  have h2 : ¬ pllState s p.val = 2 := by rw [h]; decide
  have hdead : ¬ s.syn.dead = true := by rw [hd]; decide
  exact (if_neg hgo).trans ((if_neg h2).trans ((if_neg ho).trans (congrArg Host.Outcome.next (if_neg hdead))))

/-- What the switch to another PLL changes: a draw, and the time base by the stretch. -/
def forgetSwitch (s : State) : State := { s with fresh := 0, tim := TimeSt.reset }

def switchIx : List Nat := [Ix.syspllActive, Ix.syspllState, Ix.rsvLeaves]

/-- The state in which a switch stretches one cycle by `n` units. -/
def stretched (s : State) (n : Nat) : State := { s.draw.2 with tim := { s.tim with t := s.tim.t + n } }

theorem pllSwitch_eq (s : State) (p : Nat) : ∃ n, n ≤ nsUnit ∧ pllSwitch s p =
    (syncHotLeaf (((stretched s n).setNat Ix.syspllActive 0 p).setNat Ix.syspllState p 3)).alarm (Al.syspllSwitch.src p) :=
  ⟨s.draw.1.toNat % 5 * 1073741824, by unfold nsUnit; omega, rfl⟩

theorem pllSwitch_switches (s : State) (p : Fin 2) : Changes forgetSwitch switchIx s (pllSwitch s (1 - p.val)) ∧
    (pllSwitch s (1 - p.val)).nat Ix.syspllActive = 1 - p.val ∧ pllState (pllSwitch s (1 - p.val)) (1 - p.val) = 3 ∧
    pllState (pllSwitch s (1 - p.val)) p.val = pllState s p.val ∧ s.tim.t ≤ (pllSwitch s (1 - p.val)).tim.t ∧
    (pllSwitch s (1 - p.val)).tim.t ≤ s.tim.t + nsUnit := by
  obtain ⟨n, hn, hswitch⟩ := pllSwitch_eq s (1 - p.val)
  have hbase : Changes forgetSwitch switchIx s (stretched s n) := (Changes.refl _ _ s).put rfl rfl
  have htime : (stretched s n).tim.t = s.tim.t + n := rfl
  have hkept : (stretched s n).nat Ix.syspllState p.val = pllState s p.val := nat_of_dict rfl ..
  rw [hswitch]
  generalize stretched s n = r at hbase htime hkept ⊢
  have hset := (Changes.refl id switchIx r).setNat (ix := Ix.syspllActive) (by decide) 0 (1 - p.val)
  have hall := (((hset.setNat (ix := Ix.syspllState) (by decide) (1 - p.val) 3).trans
    (syncHotLeaf_changes (f := id) _ (by decide))).alarm (Al.syspllSwitch.src (1 - p.val)) 0)
  have htim := (congrArg TimeSt.t (hall.read State.tim fun _ => rfl)).trans htime
  have hstate (q : Nat) : pllState ((syncHotLeaf ((r.setNat Ix.syspllActive 0 (1 - p.val)).setNat Ix.syspllState (1 - p.val) 3)).alarm
      (Al.syspllSwitch.src (1 - p.val))) q = (((r.setNat Ix.syspllActive 0 (1 - p.val)).setNat Ix.syspllState (1 - p.val) 3).nat
        Ix.syspllState q) :=
    (nat_alarm _ _ _ rfl q).trans (nat_setNat_index _ (by decide) ..)
  refine ⟨hbase.trans (hall.widen (fun _ => rfl) (List.Subset.refl _)), ?_, ?_, ?_, by rw [htim]; omega, by rw [htim]; omega⟩
  · refine (nat_alarm _ _ _ rfl 0).trans ((nat_setNat_index _ (by decide) ..).trans ((nat_setNat_index _ (by decide) ..).trans ?_))
    exact nat_setNat_self ..
  · exact (hstate _).trans (nat_setNat_self ..)
  · refine (hstate _).trans ((nat_setNat_ne _ (objKey_ne_sub (by omega) (by omega) (by omega)) _).trans ?_)
    exact (nat_setNat_index _ (by decide) ..).trans hkept

/-! ### Both PLLs lost (R303) -/

theorem syncTx_regs (s : State) : Changes f [Ix.ntxState] s (syncTx s) :=
  (Changes.refl _ _ s).foldl _ fun r _ => (Changes.refl _ _ r).setNat (by decide) _ _

/-- What a change of role changes beside its registers. -/
def forgetStreams (s : State) : State := { s with net := NetSt.reset, out := [] }

theorem setRole_regs (s : State) (n : Nat) : Changes forgetStreams [Ix.pairRole, Ix.ntxState] s (setRole s n) := by
  have hput : Changes forgetStreams [Ix.pairRole, Ix.ntxState] s { s with net := { s.net with pass := none } } :=
    (Changes.refl _ _ s).put rfl rfl
  have h := (hput.setNat (ix := Ix.pairRole) (by decide) 0 n).trans ((syncTx_regs _).widen (fun _ => rfl) (by decide))
  unfold setRole
  exact h.ite (h.put rfl rfl)

theorem setRole_role (s : State) (n : Nat) : (setRole s n).nat Ix.pairRole = n := by
  have h : (syncTx ({ s with net := { s.net with pass := none } }.setNat Ix.pairRole 0 n)).nat Ix.pairRole = n :=
    ((syncTx_regs (f := id) _).nat rfl (by decide) 0).trans (nat_setNat_self ..)
  unfold setRole
  dsimp only
  split
  · exact h
  · exact h

/-- A unit that becomes ISOLATED keeps the fade of its sequencer. -/
theorem toIsolated_isolates (s : State) : (toIsolated s).nat Ix.pairRole = 0 ∧ (toIsolated s).lat.seq = s.lat.seq := by
  have hleft : (if s.isDoor = true then leaveDoor s else haltWork s).lat = s.lat := by
    split
    · exact (leaveDoor_changes s).read State.lat fun _ => rfl
    · exact (haltWork_changes (l := []) s).read State.lat fun _ => rfl
  have hseq := ((setRole_regs (if s.isDoor = true then leaveDoor s else haltWork s) 0).read State.lat fun _ => rfl).trans hleft
  have hrole := setRole_role (if s.isDoor = true then leaveDoor s else haltWork s) 0
  unfold toIsolated
  dsimp only
  generalize setRole (if s.isDoor = true then leaveDoor s else haltWork s) 0 = r at hseq hrole
  have hdrop := dropSwap_changes (stopStreams r)
  have hlat : (dropSwap (stopStreams r)).lat = s.lat := (hdrop.read State.lat fun _ => rfl).trans hseq
  have hkept : (dropSwap (stopStreams r)).nat Ix.pairRole = 0 := (hdrop.nat rfl (by decide) 0).trans hrole
  generalize dropSwap (stopStreams r) = u at hlat hkept
  have hseq' : u.lat.seq = s.lat.seq := congrArg LatSt.seq hlat
  split
  · exact ⟨hkept, hseq'⟩
  · exact ⟨hkept, hseq'⟩

/-- With both PLLs lost the unit is silent and ISOLATED for good. -/
theorem both_lost_silent (s : State) : (toIsolated (stopForGood s)).syn.dead = true ∧ (toIsolated (stopForGood s)).lat.seq = Fade.silent ∧
    (toIsolated (stopForGood s)).clk.seq = .stopped ∧ (toIsolated (stopForGood s)).nat Ix.pairRole = 0 ∧
    Output.silence ∈ (toIsolated (stopForGood s)).out := by
  have hdead : (stopForGood s).syn.dead = true := rfl
  have hseq : (stopForGood s).lat.seq = Fade.silent := rfl
  have hstop : (stopForGood s).clk.seq = .stopped := rfl
  have hout : Output.silence ∈ (stopForGood s).out := List.mem_append_right _ (List.mem_singleton.mpr rfl)
  generalize stopForGood s = r at hdead hseq hstop hout
  obtain ⟨hrole, hlat⟩ := toIsolated_isolates r
  have h := toIsolated_changes r
  exact ⟨(congrArg SynSt.dead (h.read State.syn fun _ => rfl)).trans hdead, hlat.trans hseq,
    (congrArg TickSt.seq (h.read State.clk fun _ => rfl)).trans hstop, hrole, (toIsolated_keep (Keep.refl r)).out.subset hout⟩

theorem nat_both_lost (s : State) (p : Nat) : (toIsolated (stopForGood s)).nat Ix.syspllLosses p = s.nat Ix.syspllLosses p :=
  ((toIsolated_changes (stopForGood s)).nat rfl (by decide) p).trans (nat_of_dict rfl ..)

/-! ### A relocked PLL (R302) -/

theorem hotLeaf_ready {p : Fin 2} (h : pllState s p.val = 1) : ∃ t, exec (.syspllHotLeafReady p) s = .next t ∧ pllState t p.val = 2 ∧
    pllState t (1 - p.val) = pllState s (1 - p.val) ∧ t.nat Ix.syspllActive = s.nat Ix.syspllActive ∧
    (t.nat Ix.rsvLeaves).testBit 5 = true ∧ t.nat Ix.rsvLeaves % 32 = s.nat Ix.rsvLeaves % 32 ∧
    t.nat Ix.rsvLeaves / 64 = s.nat Ix.rsvLeaves / 64 ∧ t.tim = s.tim ∧ t.engines = s.engines := by
  let r := s.setNat Ix.syspllState p.val 2
  have hset : Changes id [Ix.syspllState] s r := (Changes.refl ..).setNat (by decide) _ _
  have hsync : Changes id [Ix.rsvLeaves] r (syncHotLeaf r) := syncHotLeaf_changes r (by decide)
  have hself : r.nat Ix.syspllState p.val = 2 := nat_setNat_self ..
  have hother : r.nat Ix.syspllState (1 - p.val) = pllState s (1 - p.val) :=
    nat_setNat_ne _ (objKey_ne_sub (by omega) (by omega) (by omega)) _
  have hhot : (r.nat Ix.syspllState == 2 || r.nat Ix.syspllState 1 == 2) = true := by
    by_cases hp : p = 0
    · subst hp
      exact Bool.or_eq_true_iff.mpr (Or.inl (beq_iff_eq.mpr hself))
    · have hp1 : p = 1 := by omega
      subst hp1
      exact Bool.or_eq_true_iff.mpr (Or.inr (beq_iff_eq.mpr hself))
  have hleaves : (syncHotLeaf r).nat Ix.rsvLeaves = s.nat Ix.rsvLeaves % 32 + 32 + s.nat Ix.rsvLeaves / 64 * 64 := by
    refine (nat_setNat_self ..).trans ?_
    rw [hhot, hset.nat rfl (by decide)]
    rfl
  refine ⟨syncHotLeaf r, congrArg Host.Outcome.next (if_pos h), (hsync.nat rfl (by decide) _).trans hself,
    (hsync.nat rfl (by decide) _).trans hother, (hsync.nat rfl (by decide) _).trans (hset.nat rfl (by decide) _), ?_, ?_, ?_,
    (hsync.read State.tim fun _ => rfl).trans (hset.read State.tim fun _ => rfl),
    (hsync.read State.engines fun _ => rfl).trans (hset.read State.engines fun _ => rfl)⟩
  · rw [hleaves, Nat.testBit_eq_decide_div_mod_eq, decide_eq_true_eq]
    omega
  · rw [hleaves]
    omega
  · rw [hleaves]
    omega

/-! ### Media synthesizers (R307 to R310) -/

theorem iterate_succ {α : Type} (g : α → α) (n : Nat) (x : α) : iterate g (n + 1) x = iterate g n (g x) := rfl

/-- The fence's edges are counted, whatever alarms they raise (R310). -/
theorem fenceDrops_logOnly (s : State) (syn n : Nat) : LogOnly (s.addHold Ix.medsynFenceDrops syn n) (fenceDrops s syn n) := by
  have hall (m : Nat) (r t : State) (h : LogOnly r t) :
      LogOnly r (iterate (fun u => u.alarm (Al.medsynFence.src (0x10 + syn))) m t) := by
    induction m generalizing t with
    | zero => exact h
    | succ m ih =>
      rw [iterate_succ]
      exact ih _ (h.trans (alarm_logOnly ..))
  unfold fenceDrops
  exact hall n _ _ (LogOnly.refl _)

theorem fenceDrops_changes (s : State) (syn n : Nat) : Changes f [Ix.medsynFenceDrops] s (fenceDrops s syn n) :=
  ((Changes.refl _ _ s).addHold (by decide) _ _).trans ((fenceDrops_logOnly s syn n).changes _ _)

theorem nat_fenceDrops (s : State) (syn n : Nat) :
    (fenceDrops s syn n).nat Ix.medsynFenceDrops syn = min (s.nat Ix.medsynFenceDrops syn + n) 0xFFFFFFFF :=
  ((fenceDrops_logOnly s syn n).nat rfl).trans (nat_addHold_self ..)

theorem slotOrder_of_syn (h : t.syn = s.syn) (i : Nat) : slotOrder t i = slotOrder s i := by
  unfold slotOrder
  rw [h]

theorem slotOrder_useSlot (s : State) (syn j : Nat) : slotOrder (useSlot s syn j) syn = (slotOrder s syn).filter (fun k => k != j) ++ [j] := by
  unfold slotOrder useSlot
  exact congrArg (fun o => Option.getD o (upFrom 0 8)) (mapFind_mapPut_self syn _ s.syn.slots)

/-- A lock after a hop, or after a loss (R308, R309). -/
theorem lockDeclared_hop {syn : Fin 4} (band : BitVec 12) (drops : Nat) (h : s.nat Ix.medsynState syn.val = 2 ∨ s.nat Ix.medsynState syn.val = 4) :
    exec (.medsynLockDeclared syn band drops) s = .next ((fenceDrops s syn.val drops).setNat Ix.medsynState syn.val 3) :=
  (if_neg (by omega)).trans (if_pos (by omega))

/-- A lock after a full search: its band is stored in the slot used least recently (R309). -/
theorem lockDeclared_search {syn : Fin 4} (band : BitVec 12) (drops : Nat) {slot : Nat} {slots : List Nat}
    (h : s.nat Ix.medsynState syn.val = 1) (ho : slotOrder s syn.val = slot :: slots) :
    ∃ t, exec (.medsynLockDeclared syn band drops) s = .next t ∧ t.nat Ix.medsynState syn.val = 3 ∧
      t.nat Ix.medsynBandmem (8 * syn.val + slot) =
        band.toNat + 4096 * (s.nat Ix.medsynFamily syn.val % 2) + 8192 + 65536 * (dieCode s % 256) ∧
      slotOrder t syn.val = slots.filter (fun k => k != slot) ++ [slot] ∧
      t.nat Ix.medsynFenceDrops syn.val = min (s.nat Ix.medsynFenceDrops syn.val + drops) 0xFFFFFFFF ∧ t.engines = s.engines := by
  let r := (fenceDrops s syn.val drops).setNat Ix.medsynState syn.val 3
  have hr : Changes id [Ix.medsynFenceDrops, Ix.medsynState] s r :=
    ((fenceDrops_changes ..).widen (fun _ => rfl) (by decide)).setNat (by decide) _ _
  have hstate : r.nat Ix.medsynState syn.val = 3 := nat_setNat_self ..
  have hdrops : r.nat Ix.medsynFenceDrops syn.val = min (s.nat Ix.medsynFenceDrops syn.val + drops) 0xFFFFFFFF :=
    (nat_setNat_index _ (by decide) ..).trans (nat_fenceDrops ..)
  have hx : exec (.medsynLockDeclared syn band drops) s = .next (storeBand r syn.val band.toNat) :=
    (if_neg (by omega)).trans (if_neg (by omega))
  clear_value r
  have horder : slotOrder r syn.val = slot :: slots := (slotOrder_of_syn (hr.read State.syn fun _ => rfl) _).trans ho
  have hdie : dieCode r = dieCode s := by
    unfold dieCode
    rw [hr.int rfl (by decide)]
  let v := band.toNat % 4096 + 4096 * (r.nat Ix.medsynFamily syn.val % 2) + 8192 + 65536 * (dieCode r % 256)
  have hstore : storeBand r syn.val band.toNat = useSlot (r.setNat Ix.medsynBandmem (8 * syn.val + slot) v) syn.val slot := by
    unfold storeBand
    rw [horder]
    rfl
  have hset : Changes id [Ix.medsynBandmem] r (r.setNat Ix.medsynBandmem (8 * syn.val + slot) v) := (Changes.refl ..).setNat (by decide) _ _
  have hnat (ix sub : Nat) : (useSlot (r.setNat Ix.medsynBandmem (8 * syn.val + slot) v) syn.val slot).nat ix sub =
      (r.setNat Ix.medsynBandmem (8 * syn.val + slot) v).nat ix sub := nat_of_dict rfl ..
  refine ⟨_, hx, ?_, ?_, ?_, ?_, ?_⟩
  · rw [hstore, hnat, hset.nat rfl (by decide), hstate]
  · rw [hstore, hnat, nat_setNat_self]
    change band.toNat % 4096 + _ + _ + _ = _
    rw [Nat.mod_eq_of_lt band.isLt, hdie, hr.nat rfl (by decide)]
  · rw [hstore, slotOrder_useSlot, slotOrder_of_syn (setNat_syn ..), horder]
    simp
  · rw [hstore, hnat, hset.nat rfl (by decide), hdrops]
  · rw [hstore]
    exact (setNat_engines r Ix.medsynBandmem (8 * syn.val + slot) v).trans (hr.read State.engines fun _ => rfl)

/-- A synthesizer that loses lock (R308, R310). -/
theorem medsyn_lost {syn : Fin 4} (drops : Nat) (h : s.nat Ix.medsynState syn.val = 3) :
    ∃ t, exec (.medsynLossOfLock syn drops) s = .next t ∧ t.nat Ix.medsynState syn.val = 4 ∧
      t.nat Ix.medsynFenceDrops syn.val = min (s.nat Ix.medsynFenceDrops syn.val + drops) 0xFFFFFFFF ∧ t.syn = s.syn ∧
      t.engines = s.engines ∧ t.out = s.out := by
  let r := s.setNat Ix.medsynState syn.val 4
  have hr : Changes id [Ix.medsynState] s r := (Changes.refl ..).setNat (by decide) _ _
  have hstate : r.nat Ix.medsynState syn.val = 4 := nat_setNat_self ..
  have hx : exec (.medsynLossOfLock syn drops) s = .next ((fenceDrops r syn.val drops).alarm (Al.medsynLockLost.src (0x10 + syn.val))) :=
    if_pos h
  have hfence := (fenceDrops_changes (f := id) r syn.val drops).alarm (Al.medsynLockLost.src (0x10 + syn.val)) 0
  refine ⟨_, hx, (hfence.nat rfl (by decide) _).trans hstate, ?_, ?_, ?_, ?_⟩
  · rw [nat_alarm _ _ _ rfl, nat_fenceDrops, hr.nat rfl (by decide)]
  · exact (hfence.read State.syn fun _ => rfl).trans (hr.read State.syn fun _ => rfl)
  · exact (hfence.read State.engines fun _ => rfl).trans (hr.read State.engines fun _ => rfl)
  · exact (hfence.read State.out fun _ => rfl).trans (hr.read State.out fun _ => rfl)

/-! ### Ramps (R313) -/

theorem boundaryAt_of_grid (hrate : t.nat Ix.houseRate = s.nat Ix.houseRate) (hlen : t.nat Ix.ticklen = s.nat Ix.ticklen) (k : Nat) :
    boundaryAt t k = boundaryAt s k := by
  unfold boundaryAt State.ticklen State.fs
  rw [hrate, hlen]

/-- The profile without its last segment, and where its offset stays. -/
def rampOver (s : State) (i : Nat) (target : Int) (index : Nat) : State :=
  setRampState ({ s with syn := { s.syn with ramps := mapErase i s.syn.ramps } }.setInt Ix.medsynOffsetNow (i + 2) target) i 0 index

/-- The profile with its next segment. -/
def rampNext (s : State) (i : Nat) (r : Ramp) : State :=
  setRampState { s with syn := { s.syn with ramps := mapPut i r s.syn.ramps } } i 1 r.index

theorem rampSegmentEnd_eq {syn : Fin 2} {drops : Nat} {r : Ramp} {seg : Int × Nat × Nat} {rest : List (Int × Nat × Nat)} {u : State}
    (hu : fenceDrops s (syn.val + 2) drops = u) (hramp : mapFind syn.val u.syn.ramps = some r) (hsegs : r.segs = seg :: rest)
    (hend : ¬ (boundaryAt u (u.tick + 1) : Int) ≤ segEnd r seg) :
    exec (.rampSegmentEnd ⟨syn, drops⟩) s = .next (if rest.isEmpty then rampOver u syn.val seg.1 r.index
      else rampNext u syn.val { segs := rest, index := r.index + 1, start := seg.1, since := segEnd r seg }) := by
  change execRampSegmentEnd ⟨syn, drops⟩ s = _
  unfold execRampSegmentEnd
  dsimp only
  rw [hu, hramp]
  dsimp only
  rw [hsegs]
  dsimp only
  rw [if_neg hend]
  split <;> rfl

/-- What the end of a segment changes. -/
def forgetSyn (s : State) : State := { s with syn := SynSt.reset }

theorem rampOver_changes (s : State) (i : Nat) (target : Int) (index : Nat) :
    Changes forgetSyn [Ix.medsynOffsetNow, Ix.rampState] s (rampOver s i target index) := by
  have hput (y : SynSt) : Changes forgetSyn [Ix.medsynOffsetNow, Ix.rampState] s { s with syn := y } := (Changes.refl _ _ s).put rfl rfl
  exact ((hput _).setInt (by decide) _ _).setNat (by decide) _ _

theorem rampNext_changes (s : State) (i : Nat) (r : Ramp) : Changes forgetSyn [Ix.medsynOffsetNow, Ix.rampState] s (rampNext s i r) := by
  have hput (y : SynSt) : Changes forgetSyn [Ix.medsynOffsetNow, Ix.rampState] s { s with syn := y } := (Changes.refl _ _ s).put rfl rfl
  exact (hput _).setNat (by decide) _ _

/-- A segment's hold ends within the tick: the next starts where it stands, or the profile is over. -/
theorem rampSegmentEnd_ends {syn : Fin 2} {drops : Nat} {r : Ramp} {seg : Int × Nat × Nat} {rest : List (Int × Nat × Nat)}
    (hramp : mapFind syn.val s.syn.ramps = some r) (hsegs : r.segs = seg :: rest) (hend : segEnd r seg < boundaryAt s (s.tick + 1)) :
    ∃ t, exec (.rampSegmentEnd ⟨syn, drops⟩) s = .next t ∧
      t.nat Ix.medsynFenceDrops (syn.val + 2) = min (s.nat Ix.medsynFenceDrops (syn.val + 2) + drops) 0xFFFFFFFF ∧ t.tim = s.tim ∧
      t.engines = s.engines ∧ t.out = s.out ∧
      (rest = [] → mapFind syn.val t.syn.ramps = none ∧ t.int Ix.medsynOffsetNow (syn.val + 2) = seg.1 ∧
        t.nat Ix.rampState syn.val % 16 = 0) ∧
      (rest ≠ [] → mapFind syn.val t.syn.ramps =
        some { segs := rest, index := r.index + 1, start := seg.1, since := segEnd r seg } ∧
        t.nat Ix.rampState syn.val = 1 + 16 * ((r.index + 1) % 16)) := by
  have hfence := fenceDrops_changes (f := id) s (syn.val + 2) drops
  have hdrops := nat_fenceDrops s (syn.val + 2) drops
  have hx {u : State} := rampSegmentEnd_eq (s := s) (syn := syn) (drops := drops) (r := r) (seg := seg) (rest := rest) (u := u)
  generalize fenceDrops s (syn.val + 2) drops = u at hfence hdrops hx
  have hsyn : u.syn = s.syn := hfence.read State.syn fun _ => rfl
  have htick : u.tick = s.tick := congrArg TickSt.tick (hfence.read State.clk fun _ => rfl)
  have hgrid := boundaryAt_of_grid (hfence.nat (ix := Ix.houseRate) rfl (by decide) 0) (hfence.nat (ix := Ix.ticklen) rfl (by decide) 0)
    (u.tick + 1)
  have hrun := hx rfl (by rw [hsyn, hramp]) hsegs (by rw [hgrid, htick]; omega)
  have hout {t : State} (h : Changes forgetSyn [Ix.medsynOffsetNow, Ix.rampState] u t) :
      t.nat Ix.medsynFenceDrops (syn.val + 2) = min (s.nat Ix.medsynFenceDrops (syn.val + 2) + drops) 0xFFFFFFFF ∧ t.tim = s.tim ∧
      t.engines = s.engines ∧ t.out = s.out :=
    ⟨(h.nat rfl (by decide) _).trans hdrops, (h.read State.tim fun _ => rfl).trans (hfence.read State.tim fun _ => rfl),
      (h.read State.engines fun _ => rfl).trans (hfence.read State.engines fun _ => rfl),
      (h.read State.out fun _ => rfl).trans (hfence.read State.out fun _ => rfl)⟩
  cases rest with
  | nil =>
    obtain ⟨hd, ht, he, ho⟩ := hout (rampOver_changes u syn.val seg.1 r.index)
    refine ⟨_, hrun, hd, ht, he, ho, fun _ => ⟨?_, ?_, ?_⟩, fun h => absurd rfl h⟩
    · exact mapFind_mapErase_self ..
    · exact (int_setNat_index _ (by decide) ..).trans (int_setInt_self ..)
    · refine (congrArg (· % 16) (nat_setNat_self ..)).trans ?_
      omega
  | cons a as =>
    obtain ⟨hd, ht, he, ho⟩ := hout (rampNext_changes u syn.val { segs := a :: as, index := r.index + 1, start := seg.1, since := segEnd r seg })
    refine ⟨_, hrun, hd, ht, he, ho, fun h => (List.cons_ne_nil _ _ h).elim, fun _ => ⟨?_, ?_⟩⟩
    · exact mapFind_mapPut_self ..
    · exact nat_setNat_self ..

/-! ### SYNC (R316, R317) -/

/-- What SYNC changes beside its registers: where the dividers stand, and what leaves the block. -/
def forgetAligned (s : State) : State := { s with out := [], syn := { s.syn with aligned := [] } }

theorem syncDivider_changes (quarter : Nat) (wrong : BitVec 128) (bit : Nat) (s : State) (d : Nat × Nat) :
    Changes forgetAligned [Ix.clkSyncRepairs] s (syncDivider quarter wrong bit s d) := by
  unfold syncDivider
  exact (((((Changes.refl _ _ s).addHold (by decide) _ _).alarm _ _).ite (Changes.refl ..)).ite ((Changes.refl _ _ s).put rfl rfl))

theorem syncAct_changes (quarter : Nat) (wrong : BitVec 128) (s : State) :
    Changes forgetAligned [Ix.clkSyncRepairs] (s.setObj Ix.clkSyncLast 0 (timeVal (quarter / 4))) (syncAct quarter wrong s) :=
  (Changes.refl ..).foldl _ fun r b => (Changes.refl _ _ r).foldl _ fun q d => syncDivider_changes quarter wrong b q d

/-- An edge that is accepted (R316). -/
theorem syncEdge_acts {falling : Bool} {quarter held : Nat} {wrong : BitVec 128} (hmode : s.nat Ix.clkSyncMode % 4 ≠ 0)
    (hedge : falling = (s.nat Ix.clkSyncMode).testBit 7) (hheld : s.nat Ix.clkSyncDebounce ≤ held) (harmed : s.nat Ix.clkSyncState = 1) :
    ∃ t, exec (.syncEdge falling quarter held wrong) s = .next t ∧ t.obj Ix.clkSyncLast 0 = timeVal (quarter / 4) ∧
      t.nat Ix.clkSyncState = (if s.nat Ix.clkSyncMode % 4 = 2 then 2 else 0) ∧ t.tim = s.tim ∧
      t.syn = { s.syn with aligned := t.syn.aligned } ∧ t.engines = s.engines ∧ t.lat = s.lat := by
  have hgo : ¬ (s.nat Ix.clkSyncMode % 4 = 0 ∨ falling ≠ (s.nat Ix.clkSyncMode).testBit 7 ∨ held < s.nat Ix.clkSyncDebounce) := by
    rintro (h | h | h)
    · exact hmode h
    · exact h hedge
    · omega
  let v := if s.nat Ix.clkSyncMode % 4 = 2 then 2 else 0
  have hx : exec (.syncEdge falling quarter held wrong) s = .next (syncAct quarter wrong (s.setNat Ix.clkSyncState 0 v)) :=
    (if_neg hgo).trans (if_neg (not_not_intro harmed))
  have hset := ((Changes.refl id [Ix.clkSyncState, Ix.clkSyncLast] s).setNat (ix := Ix.clkSyncState) (by decide) 0 v).setObj
    (ix := Ix.clkSyncLast) (by decide) 0 (timeVal (quarter / 4))
  have hact := syncAct_changes quarter wrong (s.setNat Ix.clkSyncState 0 v)
  have hlast := obj_setObj_self (s.setNat Ix.clkSyncState 0 v) Ix.clkSyncLast 0 (timeVal (quarter / 4))
  have hstate : ((s.setNat Ix.clkSyncState 0 v).setObj Ix.clkSyncLast 0 (timeVal (quarter / 4))).nat Ix.clkSyncState = v :=
    (nat_setObj_ne _ (objKey_ne_index (by decide)) _).trans (nat_setNat_self ..)
  generalize (s.setNat Ix.clkSyncState 0 v).setObj Ix.clkSyncLast 0 (timeVal (quarter / 4)) = r at hset hact hlast hstate
  generalize syncAct quarter wrong (s.setNat Ix.clkSyncState 0 v) = t at hx hact
  have hsyn : { t.syn with aligned := [] } = { s.syn with aligned := [] } :=
    (hact.read (fun q => { q.syn with aligned := [] }) fun _ => rfl).trans
      (congrArg (fun y : SynSt => { y with aligned := [] }) (hset.read State.syn fun _ => rfl))
  refine ⟨t, hx, (hact.obj _ rfl (by decide)).trans hlast, (hact.nat rfl (by decide) _).trans hstate,
    (hact.read State.tim fun _ => rfl).trans (hset.read State.tim fun _ => rfl), ?_,
    (hact.read State.engines fun _ => rfl).trans (hset.read State.engines fun _ => rfl),
    (hact.read State.lat fun _ => rfl).trans (hset.read State.lat fun _ => rfl)⟩
  exact congrArg (fun y : SynSt => { y with aligned := t.syn.aligned }) hsyn

end

end Sys2Proof.Machine
end

section
/-! Clock synthesis, settled. -/

namespace Sys2Proof.Machine

section
variable {s : State} {p : Fin 2}

/-- The hot leaf loses lock: the active PLL goes on (R302). -/
theorem hotLeaf_lost_keeps (h : pllState s p.val = 2) : ∃ t, exec (.syspllLossOfLock p) s = .next t ∧
    t.nat Ix.syspllLosses p.val = min (s.nat Ix.syspllLosses p.val + 1) 0xFFFFFFFF ∧
    pllState t p.val = (if 2 ≤ (recentLosses s p.val).length then 4 else 1) ∧ pllState t (1 - p.val) = pllState s (1 - p.val) ∧
    t.nat Ix.syspllActive = s.nat Ix.syspllActive ∧ t.tim = s.tim ∧ t.engines = s.engines ∧ t.out = s.out := by
  have hlost := pllDown_down s p
  have hx := hotLeaf_lost h
  generalize pllDown s p.val = r at hlost hx
  have hleaf := noLeafCheck_regs (f := id) r
  exact ⟨_, hx, (hleaf.nat rfl (by decide) _).trans hlost.counted, (hleaf.nat rfl (by decide) _).trans hlost.down,
    (hleaf.nat rfl (by decide) _).trans hlost.other, (hleaf.nat rfl (by decide) _).trans (hlost.nat rfl (by decide) _),
    (hleaf.read State.tim fun _ => rfl).trans (hlost.read State.tim fun _ => rfl),
    (hleaf.read State.engines fun _ => rfl).trans (hlost.read State.engines fun _ => rfl),
    (hleaf.read State.out fun _ => rfl).trans (hlost.read State.out fun _ => rfl)⟩

/-- The active PLL loses lock, and the hot leaf takes over with at most one cycle stretched by 1 ns (R301, R302). -/
theorem active_lost_switches (h : pllState s p.val = 3) (ho : pllState s (1 - p.val) = 2) :
    ∃ t, exec (.syspllLossOfLock p) s = .next t ∧
      t.nat Ix.syspllLosses p.val = min (s.nat Ix.syspllLosses p.val + 1) 0xFFFFFFFF ∧
      pllState t p.val = (if 2 ≤ (recentLosses s p.val).length then 4 else 1) ∧ pllState t (1 - p.val) = 3 ∧
      t.nat Ix.syspllActive = 1 - p.val ∧ s.tim.t ≤ t.tim.t ∧ t.tim.t ≤ s.tim.t + nsUnit ∧ t.engines = s.engines ∧
      t.lat = s.lat ∧ t.out = s.out := by
  have hlost := pllDown_down s p
  have hx := active_lost h ho
  generalize pllDown s p.val = r at hlost hx
  obtain ⟨hswitch, hactive, hthree, hkept, hlo, hhi⟩ := pllSwitch_switches r p
  generalize pllSwitch r (1 - p.val) = q at hx hswitch hactive hthree hkept hlo hhi
  have hleaf := noLeafCheck_regs (f := id) q
  have htim : r.tim = s.tim := hlost.read State.tim fun _ => rfl
  rw [htim] at hlo hhi
  have hend : (noLeafCheck q).tim = q.tim := hleaf.read State.tim fun _ => rfl
  exact ⟨_, hx, (hleaf.nat rfl (by decide) _).trans ((hswitch.nat rfl (by decide) _).trans hlost.counted),
    (hleaf.nat rfl (by decide) _).trans (hkept.trans hlost.down), (hleaf.nat rfl (by decide) _).trans hthree,
    (hleaf.nat rfl (by decide) _).trans hactive, by rw [hend]; exact hlo, by rw [hend]; exact hhi,
    (hleaf.read State.engines fun _ => rfl).trans ((hswitch.read State.engines fun _ => rfl).trans
      (hlost.read State.engines fun _ => rfl)),
    (hleaf.read State.lat fun _ => rfl).trans ((hswitch.read State.lat fun _ => rfl).trans (hlost.read State.lat fun _ => rfl)),
    (hleaf.read State.out fun _ => rfl).trans ((hswitch.read State.out fun _ => rfl).trans (hlost.read State.out fun _ => rfl))⟩

/-- With both PLLs lost every output is silent for good (R303). -/
theorem both_lost_ends (h : pllState s p.val = 3) (ho : pllState s (1 - p.val) ≠ 2) (hd : s.syn.dead = false) :
    ∃ t, exec (.syspllLossOfLock p) s = .next t ∧
      t.nat Ix.syspllLosses p.val = min (s.nat Ix.syspllLosses p.val + 1) 0xFFFFFFFF ∧ t.syn.dead = true ∧
      t.lat.seq = Fade.silent ∧ t.clk.seq = .stopped ∧ t.nat Ix.pairRole = 0 ∧ Output.silence ∈ t.out := by
  have hx := both_lost h ho hd
  have hcount := pllLost_counts s p.val
  generalize (pllLost s p.val).1 = r at hx hcount
  obtain ⟨hdead, hseq, hstop, hrole, hout⟩ := both_lost_silent r
  have hiso := nat_both_lost r p.val
  generalize toIsolated (stopForGood r) = q at hx hdead hseq hstop hrole hout hiso
  refine ⟨q.alarm Al.syspllBothLost 0, hx, ?_, ?_, ?_, ?_, ?_, ?_⟩
  · rw [nat_alarm q Al.syspllBothLost 0 rfl, hiso, hcount]
  · rw [alarm_syn, hdead]
  · rw [alarm_lat, hseq]
  · rw [alarm_clk, hstop]
  · rw [nat_alarm q Al.syspllBothLost 0 rfl, hrole]
  · rw [alarm_out]
    exact hout

/-- An edge that SYNC is not armed for is ignored (R316). -/
theorem syncEdge_ignored {falling : Bool} {quarter held : Nat} {wrong : BitVec 128} (hmode : s.nat Ix.clkSyncMode % 4 ≠ 0)
    (hedge : falling = (s.nat Ix.clkSyncMode).testBit 7) (hheld : s.nat Ix.clkSyncDebounce ≤ held) (hidle : s.nat Ix.clkSyncState ≠ 1) :
    exec (.syncEdge falling quarter held wrong) s = .next (s.addHold Ix.clkSyncIgnored 0 1) := by
  have hgo : ¬ (s.nat Ix.clkSyncMode % 4 = 0 ∨ falling ≠ (s.nat Ix.clkSyncMode).testBit 7 ∨ held < s.nat Ix.clkSyncDebounce) := by
    rintro (h | h | h)
    · exact hmode h
    · exact h hedge
    · omega
  exact (if_neg hgo).trans (if_pos hidle)

end

end Sys2Proof.Machine

open Sys2Proof Sys2Proof.Machine

/-- Settles O39: a loss of lock leaves the PLL down and counted, and what follows it, a switch or the end, keeps that; a
synthesizer, a ramp and SYNC write their own registers. -/
theorem clocksFollowTheirEvents : Obligations.ClocksFollowTheirEvents := by
  unfold Obligations.ClocksFollowTheirEvents
  exact ⟨fun s pll => ⟨hotLeaf_lost_keeps, active_lost_switches, both_lost_ends, hotLeaf_ready⟩,
    fun s => ⟨fun syn band drops => ⟨lockDeclared_hop band drops, fun slot slots _ => lockDeclared_search band drops⟩,
      fun syn drops => ⟨medsyn_lost drops, fun h => congrArg Host.Outcome.next (if_pos h)⟩,
      fun syn drops r seg rest => rampSegmentEnd_ends,
      fun falling quarter held wrong hmode hedge hheld => ⟨syncEdge_acts hmode hedge hheld, syncEdge_ignored hmode hedge hheld⟩,
      fun h => congrArg Host.Outcome.next (if_pos h)⟩⟩

end

section
/-! A unit that enters STANDBY-SYNC (R327, R342), and digests exchanged and compared (R334). -/

namespace Sys2Proof.Machine

section
variable {f : State → State} {l : List Nat} {s t : State}

/-! ### Entering STANDBY-SYNC -/

/-- Engines, and the RUNs held for their places. -/
def forgetWork (s : State) : State :=
  { s with engines := State.reset.engines, pair := { s.pair with deferred := [] } }

theorem haltWork_work (s : State) : Changes forgetWork l s (haltWork s) :=
  (Changes.refl _ l s).foldl _ fun r _ => (Changes.refl _ l r).put rfl rfl

/-- What a unit leaves first that enters STANDBY-SYNC: outputs it still drives, and the door. -/
def leftForSync (s0 : State) : State :=
  let s := if s0.pair.outHold.isSome then setDoor s0 (fadeOut s0.lat.door) else s0
  if s.isDoor then leaveDoor s else s

/-- The unit stands by, and is to join. -/
def enterSync (s : State) : State :=
  let s1 := dropSwap (haltWork (stopStreams (setRole s 1)))
  { s1 with pair := { s1.pair with due := .none, snapTaken := false, held := [], parts := [], tries := 0
                                   outHold := none, split := false } }

theorem toSync_eq (s : State) : ∃ c, toSync s = (enterSync (leftForSync s)).alarmIf c Al.pairStale := ⟨_, rfl⟩

theorem leftForSync_changes (s : State) : Changes forgetRole doorIx s (leftForSync s) := by
  have h : Changes forgetRole doorIx s (if s.pair.outHold.isSome then setDoor s (fadeOut s.lat.door) else s) :=
    (setDoor_changes ..).ite (Changes.refl ..)
  exact (h.trans ((leaveDoor_changes _).widen (fun _ => rfl) (List.Subset.refl _))).ite h

theorem enterSync_changes (s : State) : Changes forgetRole roleIx s (enterSync s) := by
  have hstop : Changes forgetRole roleIx (setRole s 1) (stopStreams (setRole s 1)) := (Changes.refl _ _ _).put rfl rfl
  have hhalt := ((setRole_changes s 1).trans hstop).trans
    ((haltWork_changes (l := []) _).widen (fun _ => rfl) (List.nil_subset _))
  exact (hhalt.trans ((dropSwap_changes _).widen (fun _ => rfl) (by decide))).put rfl rfl

theorem toSync_changes (s : State) : Changes forgetRole roleIx s (toSync s) := by
  obtain ⟨c, hc⟩ := toSync_eq s
  rw [hc]
  exact (((leftForSync_changes s).widen (fun _ => rfl) (by decide)).trans (enterSync_changes _)).alarmIf ..

/-- What a unit keeps that enters STANDBY-SYNC, and what it has stopped. -/
theorem enterSync_enters (s : State) : (enterSync s).nat Ix.pairRole = 1 ∧ (enterSync s).net.ready = [] ∧
    (enterSync s).lat = s.lat ∧ (enterSync s).pair.theirs = s.pair.theirs := by
  have hrole := setRole_role s 1
  have hlat := (setRole_regs s 1).read State.lat fun _ => rfl
  have hpair := (setRole_regs s 1).read State.pair fun _ => rfl
  unfold enterSync
  dsimp only
  generalize setRole s 1 = r at hrole hlat hpair
  have hhalt := haltWork_work (l := []) (stopStreams r)
  have hnet : (haltWork (stopStreams r)).net.ready = [] := congrArg NetSt.ready (hhalt.read State.net fun _ => rfl)
  have hlat' := (hhalt.read State.lat fun _ => rfl).trans hlat
  have htheirs := (hhalt.read (fun u => u.pair.theirs) fun _ => rfl).trans (congrArg PairSt.theirs hpair)
  have hrole' := (hhalt.nat (ix := Ix.pairRole) rfl (by decide) 0).trans hrole
  generalize haltWork (stopStreams r) = u at hnet hlat' htheirs hrole'
  have hdrop : (dropSwap u).nat Ix.pairRole = 1 := ((dropSwap_changes u).nat rfl (by decide) 0).trans hrole'
  exact ⟨hdrop, hnet, hlat', htheirs⟩

theorem setRole_leaves (h : s.isDoor = true) : Output.roleAct false ∈ (setRole s 1).out := by
  unfold setRole
  rw [h]
  exact List.mem_append_right _ (List.mem_singleton.mpr rfl)

theorem enterSync_leaves (h : s.isDoor = true) : Output.roleAct false ∈ (enterSync s).out := by
  have hout := setRole_leaves h
  unfold enterSync
  dsimp only
  generalize setRole s 1 = r at hout
  exact ((haltWork_keep (Keep.refl (stopStreams r))).out.subset hout)

theorem toSync_role (s : State) : (toSync s).nat Ix.pairRole = 1 := by
  obtain ⟨c, hc⟩ := toSync_eq s
  rw [hc]
  exact ((alarmIf_logOnly ..).nat rfl).trans (enterSync_enters _).1

/-- A unit that is not door-holder keeps the partner's digest. -/
theorem toSync_theirs (h : s.isDoor = false) : (toSync s).pair.theirs = s.pair.theirs := by
  obtain ⟨c, hc⟩ := toSync_eq s
  have hleft : (leftForSync s).pair = s.pair := by
    unfold leftForSync
    split
    · exact (congrArg State.pair (if_neg (Bool.eq_false_iff.mp h : ¬ (setDoor s (fadeOut s.lat.door)).isDoor = true))).trans rfl
    · exact congrArg State.pair (if_neg (Bool.eq_false_iff.mp h))
  have halarm : (toSync s).pair = (enterSync (leftForSync s)).pair := by
    rw [hc]
    exact (alarmIf_logOnly ..).pair
  rw [halarm, (enterSync_enters _).2.2.2, hleft]

/-! ### Digests -/

theorem keepDigest_keeps (s : State) : ∃ p, keepDigest s = { s with pair := { s.pair with past := p } } := by
  unfold keepDigest
  dsimp only
  split
  · exact ⟨s.pair.past, rfl⟩
  · exact ⟨_, rfl⟩

/-- A frame that comes in its order is taken (R322). -/
theorem linkFrame_taken {fr : LinkRec} (hp : s.paired = true) (hf : fr.first = true) (hg : fr.good = true)
    (hseq : fr.seq = (s.pair.seqIn + 1) % 4294967296) :
    linkFrame s fr false = (true, { s with pair := { s.pair with seqIn := fr.seq, frameOk := true } }) := by
  have hok : (fr.good && (fr.seq == (s.pair.seqIn + 1) % 4294967296 || false)) = true := by
    rw [hg, hseq]
    simp
  unfold linkFrame
  rw [hp, hf]
  dsimp only [Bool.not_true, if_true]
  rw [hok]
  rfl

theorem digest_received {fr : LinkRec} {gen : Nat} {hash : List Byte} (hp : s.paired = true) (hq : s.boot.quiet = false)
    (hr : s.nat Ix.pairRole = 2) (hf : fr.first = true) (hg : fr.good = true) (hseq : fr.seq = (s.pair.seqIn + 1) % 4294967296) :
    ∃ t, exec (.digest fr gen hash) s = .next t ∧ t.pair.theirs = some (gen, hash) ∧ t.pair.seqIn = fr.seq ∧
      (s.nat Ix.shutGen ≠ gen → t.pair.past = s.pair.past) ∧ t.dict = s.dict ∧ t.engines = s.engines := by
  let s1 : State := { s with pair := { s.pair with seqIn := fr.seq, frameOk := true } }
  let s2 : State := if s1.nat Ix.shutGen = gen then keepDigest s1 else s1
  have hx : exec (.digest fr gen hash) s = .next { s2 with pair := { s2.pair with theirs := some (gen, hash) } } := by
    change execDigest fr gen hash s = _
    unfold execDigest
    rw [linkFrame_taken hp hf hg hseq]
    have hr' : (({ s with pair := { s.pair with seqIn := fr.seq, frameOk := true } } : State).nat Ix.pairRole == 2) = true :=
      beq_iff_eq.mpr hr
    dsimp only
    rw [hr', hq]
    rfl
  have hs2 : ∃ p, s2 = { s1 with pair := { s1.pair with past := p } } ∧ (s.nat Ix.shutGen ≠ gen → p = s.pair.past) := by
    by_cases hgen : s1.nat Ix.shutGen = gen
    · obtain ⟨p, hkeep⟩ := keepDigest_keeps s1
      exact ⟨p, (if_pos hgen).trans hkeep, fun h => absurd hgen h⟩
    · exact ⟨s.pair.past, if_neg hgen, fun _ => rfl⟩
  obtain ⟨p, hs2, hpast⟩ := hs2
  rw [hx, hs2]
  exact ⟨_, rfl, rfl, rfl, hpast, rfl, rfl⟩

/-- A frame that finds room in Bank E is sent at once (R322). -/
theorem sendUnit_sent {ty : Nat} {payload : List Byte} {bulk : Option BulkPart} {n : Nat}
    (hn : n = frameBytes { seq := (s.pair.seqOut + 1) % 4294967296, ty := ty, tick := s.tick, payload := payload, bulk := bulk,
                           sent := false })
    (hall : s.pair.unacked.all (fun u => u.sent) = true) (hroom : bankUsed s.pair.unacked + n ≤ 4194304) :
    ∃ us ack, sendUnit s ty payload bulk =
      { s with out := s.out ++ [frameOut 0 s.tick { seq := (s.pair.seqOut + 1) % 4294967296, ty := ty, tick := s.tick
                                                    payload := payload, bulk := bulk, sent := false }]
               pair := { s.pair with seqOut := (s.pair.seqOut + 1) % 4294967296, ackTick := ack, unacked := us } } := by
  unfold sendUnit
  dsimp only
  rw [hall, ← hn, decide_eq_true hroom]
  exact ⟨_, _, rfl⟩

theorem digestComplete_sent {g : Nat} {d : List Byte} (hd : s.isDoor = true) (ha : s.pair.asked = some g)
    (hpast : s.pair.past.find? (fun p => p.1 == g) = some (g, d)) (hall : s.pair.unacked.all (fun u => u.sent) = true)
    (hroom : bankUsed s.pair.unacked + 24 + d.length ≤ 4194304) :
    ∃ t, exec .mirrorDigestComplete s = .next t ∧ t.obj Ix.pairDigest 0 = .bytes d ∧ t.nat Ix.pairDigestGen = g ∧
      t.pair.asked = none ∧ t.pair.digestAt = some s.clk.tick ∧
      t.out = s.out ++ [.unrus 5 0 ((s.pair.seqOut + 1) % 4294967296) s.clk.tick (bytesLE 4 g ++ d)] ∧ t.engines = s.engines := by
  let r := (s.setObj Ix.pairDigest 0 (.bytes d)).setNat Ix.pairDigestGen 0 g
  let s1 : State := { r with pair := { r.pair with asked := none, digestAt := some s.tick } }
  have hx : exec .mirrorDigestComplete s = .next (sendFrame s1 0x05 (bytesLE 4 g ++ d)) := by
    change execMirrorDigestComplete s = _
    unfold execMirrorDigestComplete
    dsimp only
    rw [if_pos hd, ha]
    dsimp only [Option.bind_some]
    rw [hpast]
    rfl
  have hdig : r.obj Ix.pairDigest 0 = .bytes d :=
    (obj_setObj_ne _ (objKey_ne_index (by decide)) _).trans (obj_setObj_self ..)
  have hgen : r.nat Ix.pairDigestGen = g := nat_setNat_self ..
  obtain ⟨us, ack, hsend⟩ := sendUnit_sent (s := s1) (ty := 5) (payload := bytesLE 4 g ++ d) (bulk := none) (n := 24 + d.length)
    (by
      have hlen : (bytesLE 4 g).length = 4 := rfl
      change _ = 20 + (bytesLE 4 g ++ d).length
      rw [List.length_append, hlen]
      omega)
    hall ((Nat.add_assoc ..).symm.trans_le hroom)
  refine ⟨_, hx, ?_⟩
  change (sendUnit s1 5 _ none).obj _ _ = _ ∧ (sendUnit s1 5 _ none).nat _ = _ ∧ (sendUnit s1 5 _ none).pair.asked = _ ∧
    (sendUnit s1 5 _ none).pair.digestAt = _ ∧ (sendUnit s1 5 _ none).out = _ ∧ (sendUnit s1 5 _ none).engines = _
  rw [hsend]
  exact ⟨hdig, hgen, rfl, rfl, rfl, rfl⟩

/-- The registers a comparison reports in. -/
def digestTold (s : State) (g : Nat) (own : List Byte) (same : Bool) : State :=
  let r := ((s.setObj Ix.pairDigest 0 (.bytes own)).setNat Ix.pairDigestGen 0 g).setFlag Ix.pairDigestOk 0 same
  { r with pair := { r.pair with theirs := none } }

/-- What a unit reports of a comparison, and that it awaits no other. -/
structure Compared (t : State) (g : Nat) (own : List Byte) (same : Bool) : Prop where
  digest : t.obj Ix.pairDigest 0 = .bytes own
  gen : t.nat Ix.pairDigestGen = g
  ok : t.flag Ix.pairDigestOk = same
  theirs : t.pair.theirs = none

theorem digestTold_compared (s : State) (g : Nat) (own : List Byte) (same : Bool) : Compared (digestTold s g own same) g own same where
  digest := (obj_setObj_ne _ (objKey_ne_index (by decide)) _).trans
    ((obj_setObj_ne _ (objKey_ne_index (by decide)) _).trans (obj_setObj_self ..))
  gen := (nat_setObj_ne _ (objKey_ne_index (by decide)) _).trans (nat_setNat_self ..)
  ok := flag_setFlag_self ..
  theirs := rfl

theorem Compared.changes {g : Nat} {own : List Byte} {same : Bool} (h : Compared s g own same) (hc : Changes f roleIx s t)
    (ht : t.pair.theirs = s.pair.theirs) : Compared t g own same :=
  ⟨(hc.obj 0 rfl (by decide)).trans h.digest, (hc.nat rfl (by decide) 0).trans h.gen, (hc.flag rfl (by decide) 0).trans h.ok,
    ht.trans h.theirs⟩

theorem digestTold_role (s : State) (g : Nat) (own : List Byte) (same : Bool) :
    (digestTold s g own same).nat Ix.pairRole = s.nat Ix.pairRole :=
  (nat_setObj_ne _ (objKey_ne_index (by decide)) _).trans ((nat_setNat_index _ (by decide) ..).trans
    (nat_setObj_ne _ (objKey_ne_index (by decide)) _))

/-- The unit becomes STANDBY where the digests agree, and resyncs where they do not. -/
theorem compareDigest_compares {g : Nat} {own theirs : List Byte} (h : s.nat Ix.pairRole = 1 ∨ s.nat Ix.pairRole = 2) :
    Compared (compareDigest s g own theirs) g own (own == theirs) ∧
      (compareDigest s g own theirs).nat Ix.pairRole = if own = theirs then 2 else 1 := by
  have htold := digestTold_compared s g own (own == theirs)
  have hrole := digestTold_role s g own (own == theirs)
  have hdef : compareDigest s g own theirs = (let s1 := digestTold s g own (own == theirs)
      if own == theirs then (if s1.nat Ix.pairRole = 1 then setRole s1 2 else s1)
      else if s1.nat Ix.pairRole = 1 then
        ({ s1 with pair := { s1.pair with tries := s1.pair.tries + 1, snapTaken := false, parts := [], held := [] } }).alarm Al.mirrorMismatch
      else mismatch s1) := rfl
  rw [hdef]
  generalize digestTold s g own (own == theirs) = r at htold hrole
  dsimp only
  by_cases hsame : own = theirs
  · rw [if_pos (beq_iff_eq.mpr hsame), if_pos hsame]
    split
    · exact ⟨htold.changes (setRole_changes r 2) (congrArg PairSt.theirs ((setRole_regs r 2).read State.pair fun _ => rfl)), setRole_role ..⟩
    · exact ⟨htold, by omega⟩
  · rw [if_neg (fun hb => hsame (beq_iff_eq.mp hb)), if_neg hsame]
    split
    · next h1 =>
      let u : State := { r with pair := { r.pair with tries := r.pair.tries + 1, snapTaken := false, parts := [], held := [] } }
      have hu : Changes forgetLink roleIx r u := (Changes.refl _ _ r).put rfl rfl
      have htheirs : (u.alarm Al.mirrorMismatch).pair.theirs = u.pair.theirs := congrArg PairSt.theirs (alarm_pair u ..)
      exact ⟨htold.changes (hu.alarm _ _) htheirs, (nat_alarm u _ _ rfl 0).trans h1⟩
    · next h1 =>
      have hstands : standsBy r = true := Bool.or_eq_true_iff.mpr (Or.inr (beq_iff_eq.mpr (by omega)))
      have hdoor : r.isDoor = false := beq_eq_false_iff_ne.mpr (by omega)
      unfold mismatch
      rw [if_pos hstands]
      exact ⟨htold.changes ((toSync_changes r).alarm _ _) ((congrArg PairSt.theirs (alarm_pair ..)).trans (toSync_theirs hdoor)),
        (nat_alarm _ _ _ rfl 0).trans (toSync_role r)⟩

theorem standsBy_role (h : standsBy s = true) : s.nat Ix.pairRole = 1 ∨ s.nat Ix.pairRole = 2 :=
  (Bool.or_eq_true_iff.mp h).imp beq_iff_eq.mp beq_iff_eq.mp

theorem digestComplete_compared {g : Nat} {d h : List Byte} (hs : standsBy s = true) (ht : s.pair.theirs = some (g, h))
    (hpast : s.pair.past.find? (fun p => p.1 == g) = some (g, d)) :
    exec .mirrorDigestComplete s = .next (compareDigest s g d h) := by
  have hdoor : ¬ s.isDoor = true := fun hd => by
    have h3 : s.nat Ix.pairRole = 3 := beq_iff_eq.mp hd
    have := standsBy_role hs
    omega
  change execMirrorDigestComplete s = _
  unfold execMirrorDigestComplete
  dsimp only
  rw [if_neg hdoor, if_pos hs, ht]
  dsimp only
  rw [hpast]
  rfl

theorem askDigest_asks (s : State) : (askDigest s).pair.asked = some (s.nat Ix.shutGen) ∧ (askDigest s).dict = s.dict ∧
    (askDigest s).out = s.out ∧ (askDigest s).engines = s.engines := by
  obtain ⟨p, hkeep⟩ := keepDigest_keeps s
  unfold askDigest
  dsimp only
  rw [hkeep]
  exact ⟨rfl, rfl, rfl, rfl⟩

end

end Sys2Proof.Machine
end

section
open Sys2Proof Sys2Proof.Machine

/-- Settles O42: a digest sent, kept and compared, with the role that follows the comparison. -/
theorem digestsAreExchangedAndCompared : Obligations.DigestsAreExchangedAndCompared := by
  unfold Obligations.DigestsAreExchangedAndCompared
  intro s
  refine ⟨fun fr gen hash hp hq hr hf hg hseq => digest_received hp hq hr hf hg hseq,
    fun g d hd ha hpast hall hroom => digestComplete_sent hd ha hpast hall hroom, fun g d h hs ht hpast => ?_,
    fun hp hd hn hpeer ha => ?_⟩
  · obtain ⟨⟨hdig, hgen, hok, htheirs⟩, hrole⟩ := compareDigest_compares (g := g) (own := d) (theirs := h) (standsBy_role hs)
    exact ⟨_, digestComplete_compared hs ht hpast, hdig, hgen, hok, htheirs, hrole⟩
  · have hgo : s.paired = true ∧ s.isDoor = true ∧ s.nat Ix.pairAuditPeriod ≠ 0 ∧ peerRole s = 2 ∧ s.pair.asked.isNone = true :=
      ⟨hp, hd, hn, hpeer, by rw [ha]; rfl⟩
    exact ⟨_, congrArg Host.Outcome.next (if_pos hgo), askDigest_asks s⟩

end

section
/-! The door: takeovers on evidence, the witness, and yields (R335 to R340). -/

namespace Sys2Proof.Machine

section
variable {f : State → State} {l : List Nat} {s t : State}

/-! ### Places and ports -/

/-- What starting places and sending a port's own traffic changes beside registers. -/
def forgetRuns (s : State) : State :=
  { s with engines := State.reset.engines, fab := State.reset.fab, shut := ShutSt.reset, out := [] }

/-- What has left the block. -/
def forgetOut (s : State) : State := { s with out := [] }

/-- The registers that a port's own traffic counts in (R259, R394). -/
def trafficRegs : List Nat := [Ix.pmuNetCount, Ix.pmuOvf, Ix.netPortCounts]

theorem trafficIx_of_notMem {ix : Nat} (hlog : isLogIx ix = false) (hix : ix ∉ trafficRegs) : trafficIx ix = false := by
  have h1 : ix ≠ Ix.pmuNetCount := fun h => hix (by rw [h]; decide)
  have h2 : ix ≠ Ix.pmuOvf := fun h => hix (by rw [h]; decide)
  have h3 : ix ≠ Ix.netPortCounts := fun h => hix (by rw [h]; decide)
  unfold trafficIx netEventIx
  rw [hlog, beq_false_of_ne h1, beq_false_of_ne h2, beq_false_of_ne h3]
  rfl

theorem sendCtl_sends (s : State) (p : Nat) (o : Output) : Changes forgetOut trafficRegs s (sendCtl s p o) :=
  have h := sendCtl_emits s p o
  ⟨h.rest, fun sub hlog hl => h.obj _ sub (trafficIx_of_notMem hlog hl)⟩

theorem announceArp_sends (s : State) : Changes forgetOut trafficRegs s (announceArp s) :=
  (Changes.refl _ _ s).foldl _ fun r p => (Changes.refl _ _ r).ite (sendCtl_sends r p _)

theorem startPlace_runs (s : State) (p : Fin 16) (clear : Bool) : Changes forgetRuns l s (startPlace s p clear) :=
  (Changes.refl _ l s).put rfl rfl

theorem rewritePages_runs (s : State) (p : Fin 16) : Changes forgetRuns l s (rewritePages s p) :=
  have h : Changes forgetRuns l s ((pageEngines s p).foldl (fun t n => t.setEngine n (fillPages t p (t.engine n))) s) :=
    (Changes.refl _ l s).foldl _ fun r _ => (Changes.refl _ l r).put rfl rfl
  h.put rfl rfl

theorem setEngine_runs (s : State) (n : Fin 16) (e : Engine) : Changes forgetRuns l s (s.setEngine n e) :=
  (Changes.refl _ l s).put rfl rfl

theorem dlyPlaceStart_runs (s : State) (p : Fin 16) : Changes forgetRuns l s (dlyPlaceStart s p) := (Changes.refl _ l s).put rfl rfl

theorem restorePlace_runs (s : State) (p : Fin 16) : Changes forgetRuns l s (restorePlace s p) := by
  unfold restorePlace
  dsimp only
  split
  · exact Changes.refl ..
  · next im _ =>
    have h := (setEngine_runs (l := l) s (engineOf s p) (putImage im.raw im.priv (s.engine (engineOf s p)))).trans (rewritePages_runs _ p)
    split
    · exact (h.trans (setEngine_runs ..)).trans (dlyPlaceStart_runs ..)
    · exact h.trans (dlyPlaceStart_runs ..)

/-! ### A takeover (R335, R338) -/

/-- The door, and the sets and limiters that come with it. -/
def takenDoor (s : State) (keep : Map (Option Nat)) : State :=
  { s with
    pair := { s.pair with deferred := keep, due := .none, tookAt := some s.tick, runDue := true, split := false
                          swap := none, snapSent := false, doorAt := s.clk.sysCounter, swapDue := false }
    lat := { s.lat with dests := s.lat.dests.map (fun (d : Nat × Dest) => (d.1, { d.2 with lim := Limiter.reset })) }
    shut := { s.shut with unowned := if s.shut.sets.isEmpty then none else some (s.tick + ticksOfMs s 10000) } }

/-- The registers a takeover counts in. -/
def tookDoor (s : State) : State :=
  ((s.setNat Ix.pairTakeovers 0 ((s.nat Ix.pairTakeovers + 1) % 4294967296)).setNat Ix.pairLastDoor 0 s.tick).setNat Ix.pairSwapTick 0 0

/-- The unit is door-holder, before its places are restored. -/
def doorRole (s : State) : State := syncTx ({ s with net := { s.net with pass := none } }.setNat Ix.pairRole 0 3)

theorem takeDoor_eq (s : State) : takeDoor s =
    (tookDoor (takenDoor ((List.finRange 16).foldl restorePlace (doorRole s)) (doorRole s).pair.deferred)).alarm Al.pairTakeover := by
  unfold takeDoor tookDoor takenDoor doorRole
  rfl

theorem doorRole_regs (s : State) : Changes forgetStreams [Ix.pairRole, Ix.ntxState] s (doorRole s) := by
  have hput : Changes forgetStreams [Ix.pairRole, Ix.ntxState] s { s with net := { s.net with pass := none } } :=
    (Changes.refl _ _ s).put rfl rfl
  exact (hput.setNat (ix := Ix.pairRole) (by decide) 0 3).trans ((syncTx_regs _).widen (fun _ => rfl) (by decide))

theorem doorRole_role (s : State) : (doorRole s).nat Ix.pairRole = 3 :=
  ((syncTx_regs (f := id) _).nat rfl (by decide) 0).trans (nat_setNat_self ..)

theorem tookDoor_changes (s : State) : Changes f [Ix.pairTakeovers, Ix.pairLastDoor, Ix.pairSwapTick] s (tookDoor s) :=
  (((Changes.refl _ _ s).setNat (by decide) _ _).setNat (by decide) _ _).setNat (by decide) _ _

theorem tookDoor_counts (s : State) : (tookDoor s).nat Ix.pairLastDoor = s.clk.tick ∧
    (tookDoor s).nat Ix.pairTakeovers = (s.nat Ix.pairTakeovers + 1) % 4294967296 :=
  ⟨(nat_setNat_index _ (by decide) ..).trans (nat_setNat_self ..),
    (nat_setNat_index _ (by decide) ..).trans ((nat_setNat_index _ (by decide) ..).trans (nat_setNat_self ..))⟩

theorem takeDoor_takes (s : State) : (takeDoor s).nat Ix.pairRole = 3 ∧ (takeDoor s).pair.tookAt = some s.clk.tick ∧
    (takeDoor s).pair.runDue = true ∧ (takeDoor s).nat Ix.pairLastDoor = s.clk.tick ∧
    (takeDoor s).nat Ix.pairTakeovers = (s.nat Ix.pairTakeovers + 1) % 4294967296 ∧ (takeDoor s).pair.deferred = s.pair.deferred := by
  have hregs := doorRole_regs s
  have hplaces : Changes forgetRuns [] (doorRole s) ((List.finRange 16).foldl restorePlace (doorRole s)) :=
    (Changes.refl ..).foldl _ fun r p => restorePlace_runs r p
  have hrole := (hplaces.nat (ix := Ix.pairRole) rfl (by decide) 0).trans (doorRole_role s)
  have hclk := (hplaces.read State.clk fun _ => rfl).trans (hregs.read State.clk fun _ => rfl)
  have hcount := (hplaces.nat (ix := Ix.pairTakeovers) rfl (by decide) 0).trans (hregs.nat rfl (by decide) 0)
  have hkeep := congrArg PairSt.deferred (hregs.read State.pair fun _ => rfl)
  rw [takeDoor_eq]
  generalize (List.finRange 16).foldl restorePlace (doorRole s) = r at hrole hclk hcount
  have htook (ix : Nat) (hix : isLogIx ix = false) := nat_alarm (tookDoor (takenDoor r (doorRole s).pair.deferred)) Al.pairTakeover 0 hix 0
  have hpair : ((tookDoor (takenDoor r (doorRole s).pair.deferred)).alarm Al.pairTakeover).pair =
      (takenDoor r (doorRole s).pair.deferred).pair :=
    (alarm_pair ..).trans ((tookDoor_changes (f := id) _).read State.pair fun _ => rfl)
  have htick : r.tick = s.clk.tick := congrArg TickSt.tick hclk
  obtain ⟨hlast, htakes⟩ := tookDoor_counts (takenDoor r (doorRole s).pair.deferred)
  have htold : (takenDoor r (doorRole s).pair.deferred).nat Ix.pairTakeovers = s.nat Ix.pairTakeovers := hcount
  refine ⟨?_, ?_, ?_, ?_, ?_, ?_⟩
  · exact (htook _ rfl).trans (((tookDoor_changes (f := id) _).nat rfl (by decide) 0).trans hrole)
  · rw [hpair]
    exact congrArg some htick
  · rw [hpair]
    rfl
  · exact (htook _ rfl).trans (hlast.trans htick)
  · rw [htook _ rfl, htakes, htold]
  · rw [hpair]
    exact hkeep

theorem doorTakeover_none (h : s.pair.lost = false ∨ s.nat Ix.pairRole ≠ 2 ∨ (streamsAbsent s = false ∧ granted s = false)) :
    exec .doorTakeover s = .next s := by
  refine congrArg Host.Outcome.next (if_neg ?_)
  rintro ⟨-, -, hrole, hlost, hev⟩
  rcases h with h | h | ⟨habsent, hgrant⟩
  · rw [h] at hlost
    cases hlost
  · exact h hrole
  · rw [habsent, hgrant] at hev
    exact hev.elim Bool.false_ne_true Bool.false_ne_true

/-! ### The tick after a takeover (R338) -/

/-- Nothing waits to be sent, and no engine waits to run. -/
def runBegins (s : State) : State :=
  let s0 := (stopStreams s).emit (.roleAct true)
  { s0 with pair := { s0.pair with runDue := false, deferred := [] } }

/-- The places whose RUN was held start. -/
def runHeld (s : State) (ps : List Nat) : State :=
  ps.foldl (fun t p =>
    if (t.engine (engineOf t (Fin.ofNat 16 p))).image.any (fun i => imageFits t i.raw) then startPlace t (Fin.ofNat 16 p) true else t) s

theorem takeoverRun_eq (s : State) : takeoverRun s =
    setDoor (runHeld (announceArp (runBegins s)) (s.pair.deferred.map (fun p => p.1)))
      (fadeIn (runHeld (announceArp (runBegins s)) (s.pair.deferred.map (fun p => p.1))).lat.door) := rfl

theorem runHeld_runs (s : State) (ps : List Nat) : Changes forgetRuns l s (runHeld s ps) :=
  (Changes.refl _ l s).foldl _ fun _ _ => (startPlace_runs ..).ite (Changes.refl ..)

theorem runHeld_out (s : State) (ps : List Nat) : (runHeld s ps).out = s.out := by
  unfold runHeld
  induction ps generalizing s with
  | nil => rfl
  | cons p ps ih =>
    rw [List.foldl_cons, ih]
    split <;> rfl

theorem takeoverRun_runs (s : State) : (takeoverRun s).pair.runDue = false ∧ (takeoverRun s).pair.deferred = [] ∧
    (takeoverRun s).lat.door = fadeIn s.lat.door ∧ Output.roleAct true ∈ (takeoverRun s).out ∧ (takeoverRun s).net.ready = [] := by
  have hrun : (runBegins s).pair.runDue = false := rfl
  have hdef : (runBegins s).pair.deferred = [] := rfl
  have hlat : (runBegins s).lat = s.lat := rfl
  have hready : (runBegins s).net.ready = [] := rfl
  have hout : Output.roleAct true ∈ (runBegins s).out := List.mem_append_right _ (List.mem_singleton.mpr rfl)
  rw [takeoverRun_eq]
  generalize runBegins s = r at hrun hdef hlat hready hout
  have h := ((announceArp_sends r).widen (g := forgetRuns) (fun _ => rfl) (List.Subset.refl _)).trans (runHeld_runs _ (s.pair.deferred.map (fun p => p.1)))
  have hsent := (announceArp_keep (Keep.refl r)).out.subset hout
  rw [← runHeld_out (announceArp r) (s.pair.deferred.map (fun p => p.1))] at hsent
  generalize runHeld (announceArp r) (s.pair.deferred.map (fun p => p.1)) = u at h hsent
  have hpair : u.pair = r.pair := h.read State.pair fun _ => rfl
  exact ⟨(congrArg PairSt.runDue hpair).trans hrun, (congrArg PairSt.deferred hpair).trans hdef,
    congrArg (fun x : LatSt => fadeIn x.door) ((h.read State.lat fun _ => rfl).trans hlat), hsent,
    (congrArg NetSt.ready (h.read State.net fun _ => rfl)).trans hready⟩

/-! ### The witness (R336) -/

/-- A request to the witness, without its tag. -/
def askHead (s : State) (claim : Bool) : List Byte :=
  [1] ++ bytesLE 1 (if claim then 1 else 2) ++ bytesLE 1 (s.nat Ix.seat) ++ bytesLE 1 (roleByte s) ++
    bytesLE 4 (s.nat Ix.pairId) ++ bytesLE 8 (unsignedOf 64 s.draw.1) ++ bytesLE 8 s.tick ++ bytesLE 4 (s.nat Ix.shutGen) ++ [0, 0, 0, 0]

def askBytes (s : State) (claim : Bool) : List Byte :=
  askHead s claim ++ Config.cmac (credKey s (s.nat Ix.pairWitnessSlot)) (askHead s claim)

theorem askWitness_eq (s : State) (claim : Bool) : askWitness s claim =
    { s with
      fresh := s.fresh + 1
      out := s.out ++ [.witness (s.nat Ix.pairWitnessAddr) (s.nat Ix.pairWitnessPort) (askBytes s claim)]
      pair := { s.pair with
        asks := s.pair.asks ++ [{ nonce := unsignedOf 64 s.draw.1, seat := s.nat Ix.seat, pairId := s.nat Ix.pairId, claim := claim, tick := s.tick }]
        nextAsk := s.tick + 12 } } := rfl

theorem askBytes_kind (s : State) (claim : Bool) : (askBytes s claim).take 2 = [1, if claim = true then 1 else 2] := by
  cases claim <;> rfl

theorem unsignedOf_lt (n : Int) : unsignedOf 64 n < 256 ^ 8 := by
  unfold unsignedOf
  have hpos := Int.emod_nonneg n (b := (2 : Int) ^ 64) (by decide)
  have hlt := Int.emod_lt_of_pos n (b := (2 : Int) ^ 64) (by decide)
  norm_num at hpos hlt ⊢
  omega

theorem askBytes_nonce (s : State) (claim : Bool) : field (askBytes s claim) 8 8 = unsignedOf 64 s.draw.1 := by
  have htake : ((askBytes s claim).drop 8).take 8 = bytesLE 8 (unsignedOf 64 s.draw.1) := rfl
  unfold field
  rw [htake, natLE_bytesLE, Nat.mod_eq_of_lt (unsignedOf_lt _)]

/-- What a request to the witness does. -/
theorem askWitness_asks (s : State) (claim : Bool) : ∃ nonce b, (askWitness s claim).pair.asks =
      s.pair.asks ++ [{ nonce := nonce, seat := s.nat Ix.seat, pairId := s.nat Ix.pairId, claim := claim, tick := s.clk.tick }] ∧
    (askWitness s claim).pair.nextAsk = s.clk.tick + 12 ∧
    (askWitness s claim).out = s.out ++ [.witness (s.nat Ix.pairWitnessAddr) (s.nat Ix.pairWitnessPort) b] ∧
    b.take 2 = [1, if claim = true then 1 else 2] ∧ field b 8 8 = nonce ∧ (askWitness s claim).dict = s.dict ∧
    (askWitness s claim).engines = s.engines := by
  rw [askWitness_eq]
  exact ⟨_, askBytes s claim, rfl, rfl, rfl, askBytes_kind s claim, askBytes_nonce s claim, rfl, rfl⟩

section
variable {m : WitMsg} {ty : Nat} (hp : s.paired = true) (haddr : m.addr.toNat = s.nat Ix.pairWitnessAddr)
  (hport : m.port.toNat = s.nat Ix.pairWitnessPort) (hset : m.addr ≠ 0) (hlen : m.bytes.length = 48) (hty : field m.bytes 1 1 = ty)
include hp haddr hport hset hlen hty

theorem witness_heard : ¬ (!s.paired ∨ m.addr.toNat ≠ s.nat Ix.pairWitnessAddr ∨ m.port.toNat ≠ s.nat Ix.pairWitnessPort ∨
    m.addr = 0 ∨ m.bytes.length ≠ 48 ∨ field m.bytes 1 1 ≠ ty) := by
  rintro (h | h | h | h | h | h)
  · rw [hp] at h
    cases h
  · exact h haddr
  · exact h hport
  · exact hset h
  · exact h hlen
  · exact h hty

/-- A reply whose tag fails. -/
theorem witnessReply_badTag (htag : Config.cmac (credKey s (s.nat Ix.pairWitnessSlot)) (m.bytes.take 32) ≠ m.bytes.drop 32) :
    witnessReply s m ty = (none, s.alarm Al.witnessTagReject) :=
  (if_neg (witness_heard hp haddr hport hset hlen hty)).trans (if_pos htag)

/-- A reply to a request that waits for it. -/
theorem witnessReply_taken {a : Ask} (htag : Config.cmac (credKey s (s.nat Ix.pairWitnessSlot)) (m.bytes.take 32) = m.bytes.drop 32)
    (hver : field m.bytes 0 1 = 1) (hseat : field m.bytes 2 1 = a.seat) (hid : field m.bytes 4 4 = a.pairId)
    (hask : s.pair.asks.find? (fun x => x.nonce == field m.bytes 8 8 && decide (s.clk.tick ≤ x.tick + s.nat Ix.pairWitnessTimeout)) = some a) :
    witnessReply s m ty =
      (some a, { s with pair := { s.pair with asks := s.pair.asks.filter (fun x => x.nonce != a.nonce) } }) := by
  have hmine : ¬ (field m.bytes 0 1 ≠ 1 ∨ field m.bytes 2 1 ≠ a.seat ∨ field m.bytes 4 4 ≠ a.pairId) := by
    rintro (h | h | h)
    · exact h hver
    · exact h hseat
    · exact h hid
  refine (if_neg (witness_heard hp haddr hport hset hlen hty)).trans ((if_neg (not_not.mpr htag)).trans ?_)
  rw [hask]
  exact if_neg hmine

end

/-! ### Copies of another unit, and yields (R335, R340) -/

section
variable {port : Fin 4} {mac : BitVec 48} {dst : BitVec 32} {dport : Half} (took : Bool) (hstage : s.boot.stage = 7)
  (hquiet : s.boot.quiet = false) (hlink : linkUp s port.val = true) (hmac : ∀ k, k < 4 → s.nat Ix.netPortMac k ≠ mac.toNat)
  (hwatched : isWatched s port.val (s.nat Ix.netSvcAddr port.val) dst.toNat dport.toNat = true)
include hstage hquiet hlink hmac hwatched

/-- The unit saw a copy of a watched stream in this tick. -/
def sawCopy (s : State) : State := { s with pair := { s.pair with watched := some s.tick } }

theorem foreignCopy_seen : exec (.foreignCopy port mac dst dport took) s = .next (
    if !(sawCopy s).isDoor then sawCopy s
    else
      let recent : Bool := match s.pair.tookAt with
        | some t => decide (s.tick ≤ t + 64)
        | none => false
      if !recent || (took && s.nat Ix.seat == 1) then mustYield ((sawCopy s).alarm Al.pairDualActive)
      else (sawCopy s).alarm Al.pairDualActive) := by
  have hown : (upFrom 0 4).any (fun k => s.nat Ix.netPortMac k == mac.toNat) = false :=
    List.any_eq_false.mpr fun k hk => fun h => hmac k (by have := mem_upFrom.mp hk; omega) (beq_iff_eq.mp h)
  have hgo : ¬ (s.boot.stage ≠ 7 ∨ s.boot.quiet = true ∨ (!linkUp s port.val) = true ∨
      (upFrom 0 4).any (fun k => s.nat Ix.netPortMac k == mac.toNat) = true ∨
      (!isWatched s port.val (s.nat Ix.netSvcAddr port.val) dst.toNat dport.toNat) = true) := by
    rw [hown, hquiet, hlink, hwatched]
    simp [hstage]
  exact congrArg Host.Outcome.next (if_neg hgo)

theorem foreignCopy_standby (hd : s.isDoor = false) :
    exec (.foreignCopy port mac dst dport took) s = .next (sawCopy s) := by
  rw [foreignCopy_seen took hstage hquiet hlink hmac hwatched]
  exact congrArg Host.Outcome.next (if_pos (congrArg Bool.not hd))

theorem foreignCopy_door (hd : s.isDoor = true) (hold : ∀ td, s.pair.tookAt = some td → td + 64 < s.clk.tick) :
    exec (.foreignCopy port mac dst dport took) s = .next (mustYield ((sawCopy s).alarm Al.pairDualActive)) := by
  have hrecent : (match s.pair.tookAt with
      | some t => decide (s.tick ≤ t + 64)
      | none => false) = false := by
    split
    · next td htd =>
      have htick : td + 64 < s.tick := hold td htd
      exact decide_eq_false (by omega)
    · rfl
  have hdoor : ¬ (!(sawCopy s).isDoor) = true := by
    have h : (sawCopy s).isDoor = true := hd
    rw [h]
    decide
  rw [foreignCopy_seen took hstage hquiet hlink hmac hwatched, if_neg hdoor]
  dsimp only
  rw [hrecent]
  rfl

end

theorem leftForSync_silent (s : State) : (leftForSync (setDoor s Fade.silent)).lat.door = Fade.silent := by
  have hleave (t : State) (ht : t.lat.door = Fade.silent) : (if t.isDoor = true then leaveDoor t else t).lat.door = Fade.silent := by
    split
    · exact (congrArg LatSt.door ((leaveDoor_changes t).read State.lat fun _ => rfl)).trans ht
    · exact ht
  unfold leftForSync
  split
  · exact hleave _ rfl
  · exact hleave _ rfl

theorem leftForSync_door (h : s.isDoor = true) : (leftForSync s).isDoor = true := by
  have hrole : (leftForSync s).nat Ix.pairRole = s.nat Ix.pairRole := (leftForSync_changes s).nat rfl (by decide) 0
  exact beq_iff_eq.mpr (hrole.trans (beq_iff_eq.mp h))

/-- A unit gives the door away: silent at once, and to join again. -/
theorem giveWay_gives (h : s.isDoor = true) : (giveWay s).nat Ix.pairRole = 1 ∧ (giveWay s).lat.door = Fade.silent ∧
    (giveWay s).net.ready = [] ∧ (giveWay s).pair.due = .none ∧ Output.roleAct false ∈ (giveWay s).out := by
  obtain ⟨c, hc⟩ := toSync_eq (setDoor s Fade.silent)
  have hdoor : (leftForSync (setDoor s Fade.silent)).isDoor = true := leftForSync_door h
  have hsilent := leftForSync_silent s
  have hgive : giveWay s = ((enterSync (leftForSync (setDoor s Fade.silent))).alarmIf c Al.pairStale).alarm Al.pairYielded := by
    rw [← hc]
    rfl
  rw [hgive]
  generalize leftForSync (setDoor s Fade.silent) = r at hdoor hsilent
  obtain ⟨hrole, hready, hlat, -⟩ := enterSync_enters r
  have hdue : (enterSync r).pair.due = .none := rfl
  have hout := enterSync_leaves hdoor
  generalize enterSync r = u at hrole hready hlat hdue hout
  have hlog : LogOnly u ((u.alarmIf c Al.pairStale).alarm Al.pairYielded) := (alarmIf_logOnly ..).trans (alarm_logOnly ..)
  exact ⟨(hlog.nat rfl).trans hrole, (congrArg LatSt.door (hlog.lat.trans hlat)).trans hsilent, (congrArg NetSt.ready hlog.net).trans hready,
    (congrArg PairSt.due hlog.pair).trans hdue, by rw [hlog.out]; exact hout⟩

theorem pairYield_gives (hdue : s.pair.due = .giveWay) (htick : s.pair.causeTick < s.clk.tick) (hd : s.isDoor = true) :
    exec .pairYield s = .next (giveWay s) :=
  congrArg Host.Outcome.next ((if_pos ⟨hdue, htick⟩).trans (if_pos hd))

theorem doorTakeover_takes (hrun : ticksRun s = true) (hp : s.paired = true) (hrole : s.nat Ix.pairRole = 2) (hlost : s.pair.lost = true)
    (hev : streamsAbsent s = true ∨ granted s = true) : exec .doorTakeover s = .next (takeDoor s) :=
  congrArg Host.Outcome.next (if_pos ⟨hrun, hp, hrole, hlost, hev⟩)

theorem takeoverEnginesRun_runs {td : Nat} (htd : s.pair.tookAt = some td) (hdue : s.pair.runDue = true) (htick : td < s.clk.tick)
    (hd : s.isDoor = true) : exec .takeoverEnginesRun s = .next (takeoverRun s) := by
  change execTakeoverEnginesRun s = _
  unfold execTakeoverEnginesRun
  rw [htd]
  exact congrArg Host.Outcome.next (if_pos ⟨hdue, htick, hd⟩)

/-- A request that has gone unanswered. -/
theorem witnessTimeout_ends {nonce : Long} {a : Ask} (ha : s.pair.asks.find? (fun x => x.nonce == nonce.toNat &&
      decide (x.tick + s.nat Ix.pairWitnessTimeout ≤ s.clk.tick)) = some a) :
    ∃ t, exec (.witnessTimeout nonce) s = .next t ∧ t.pair.noAnswer = true ∧
      t.pair.asks = s.pair.asks.filter (fun x => x.nonce != a.nonce) ∧ t.engines = s.engines := by
  let r : State := { s with pair := { s.pair with asks := s.pair.asks.filter (fun x => x.nonce != a.nonce), noAnswer := true } }
  have hx : exec (.witnessTimeout nonce) s = .next (r.alarmIf (!s.pair.noAnswer) Al.witnessNoAnswer) := by
    change execWitnessTimeout nonce s = _
    unfold execWitnessTimeout
    rw [ha]
    rfl
  have hlog : LogOnly r (r.alarmIf (!s.pair.noAnswer) Al.witnessNoAnswer) := alarmIf_logOnly ..
  exact ⟨_, hx, congrArg PairSt.noAnswer hlog.pair, congrArg PairSt.asks hlog.pair, hlog.engines⟩

/-- A door-holder that has seen a copy in this tick is to yield after it. -/
theorem mustYield_seen {r : State} (hr : LogOnly (sawCopy s) r) :
    (mustYield r).pair = { s.pair with watched := some s.clk.tick, due := .giveWay, causeTick := s.clk.tick } ∧
      (mustYield r).engines = s.engines := by
  have hpair : r.pair = { s.pair with watched := some s.clk.tick } := hr.pair
  have htick : r.tick = s.clk.tick := congrArg TickSt.tick hr.clk
  refine ⟨?_, hr.engines⟩
  unfold mustYield State.onPair
  rw [hpair, htick]

end

end Sys2Proof.Machine
end

section
open Sys2Proof Sys2Proof.Machine

/-- Settles O43: the door taken on evidence and not without, the witness asked and heard, and the door given away. -/
theorem doorPassesOnEvidenceOnly : Obligations.DoorPassesOnEvidenceOnly := by
  unfold Obligations.DoorPassesOnEvidenceOnly
  intro s
  refine ⟨fun hrun hp hrole hlost hev => ?_, doorTakeover_none, fun td htd hdue htick hd => ?_, ⟨fun hask hrole => ?_, fun hask hd => ?_⟩,
    fun m a ty => ?_, fun nonce a ha => ?_, fun port mac dst dport took hstage hquiet hlink hmac hwatched => ⟨fun hd => ?_, fun hd hold => ?_⟩,
    fun hdue htick hd => ?_⟩
  · exact ⟨_, doorTakeover_takes hrun hp hrole hlost hev, takeDoor_takes s⟩
  · exact ⟨_, takeoverEnginesRun_runs htd hdue htick hd, takeoverRun_runs s⟩
  · exact ⟨_, congrArg Host.Outcome.next (if_pos ⟨hask, hrole⟩), askWitness_asks s true⟩
  · exact ⟨_, congrArg Host.Outcome.next (if_pos ⟨hask, hd⟩), askWitness_asks s false⟩
  · intro b left tag hp haddr hport hset hlen hty
    refine ⟨fun htag => ⟨?_, ?_, ?_, ?_⟩, fun htag hver hseat hid hask => ⟨?_, ?_, ?_, ?_⟩⟩
    · rintro rfl
      change execGrant m s = _
      unfold execGrant
      rw [witnessReply_badTag hp haddr hport hset hlen hty htag]
    · rintro rfl
      exact congrArg (fun r => Host.Outcome.next (Prod.snd r)) (witnessReply_badTag hp haddr hport hset hlen hty htag)
    · rintro rfl
      exact congrArg (fun r => Host.Outcome.next (Prod.snd r)) (witnessReply_badTag hp haddr hport hset hlen hty htag)
    · rintro rfl
      change execYield m s = _
      unfold execYield
      rw [witnessReply_badTag hp haddr hport hset hlen hty htag]
    · rintro rfl
      change execGrant m s = _
      unfold execGrant
      rw [witnessReply_taken hp haddr hport hset hlen hty htag hver hseat hid hask]
      rfl
    · rintro rfl
      exact congrArg (fun r => Host.Outcome.next (Prod.snd r)) (witnessReply_taken hp haddr hport hset hlen hty htag hver hseat hid hask)
    · rintro rfl
      exact congrArg (fun r => Host.Outcome.next (Prod.snd r)) (witnessReply_taken hp haddr hport hset hlen hty htag hver hseat hid hask)
    · rintro rfl hd
      change execYield m s = _
      unfold execYield
      rw [witnessReply_taken hp haddr hport hset hlen hty htag hver hseat hid hask]
      exact congrArg Host.Outcome.next (if_pos hd)
  · exact witnessTimeout_ends ha
  · exact foreignCopy_standby took hstage hquiet hlink hmac hwatched hd
  · exact ⟨_, foreignCopy_door took hstage hquiet hlink hmac hwatched hd hold, mustYield_seen (alarm_logOnly ..)⟩
  · exact ⟨_, pairYield_gives hdue htick hd, giveWay_gives hd⟩

end

section
/-! Planned swaps: the states sent and taken, and the tick in which the door passes (R339, R341). -/

namespace Sys2Proof.Machine

section
variable {f : State → State} {l : List Nat} {s t : State} {w : Swap}

/-! ### An engine that is written keeps its run state and its image -/

/-- The run state and the image of an engine. -/
def Engine.form (e : Engine) : EngRun × Option Image := (e.run, e.image)

theorem landPort_form (ws : List PortWrite) (e : Engine) : (landPort ws e).form = e.form := by
  unfold landPort
  induction ws generalizing e with
  | nil => rfl
  | cons p ws ih =>
    rw [List.foldl_cons, ih]
    split <;> rfl

theorem otherWrite_form (fabric y : Bool) (a : Nat) (v : Word) (e : Engine) : (otherWrite fabric y a v e).form = e.form := by
  unfold otherWrite
  dsimp only
  split
  · rfl
  · exact landPort_form ..

theorem putX_form (a : Nat) (ws : List Word) (e : Engine) : (putX a ws e).form = e.form := by
  induction ws generalizing a e with
  | nil => rfl
  | cons v ws ih =>
    rw [putX, ih]
    exact otherWrite_form ..

theorem putPage_form (base : Nat) (ws : List (Nat × Word)) (e : Engine) : (putPage base ws e).form = e.form := by
  unfold putPage
  induction ws generalizing e with
  | nil => rfl
  | cons v ws ih =>
    rw [List.foldl_cons, ih]
    exact otherWrite_form ..

theorem fillPages_form (s : State) (p : Fin 16) (e : Engine) : (fillPages s p e).form = e.form :=
  (putPage_form ..).trans (putPage_form ..)

theorem form_setEngine (s : State) (n m : Fin 16) {e : Engine} (he : e.form = (s.engine n).form) :
    ((s.setEngine n e).engine m).form = (s.engine m).form := by
  by_cases h : m = n
  · subst h
    rw [engine_setEngine_self]
    exact he
  · rw [engine_setEngine_ne s h]

theorem rewritePages_form (s : State) (p m : Fin 16) : ((rewritePages s p).engine m).form = (s.engine m).form := by
  change (((pageEngines s p).foldl (fun t n => t.setEngine n (fillPages t p (t.engine n))) s).engine m).form = _
  generalize pageEngines s p = ns
  induction ns generalizing s with
  | nil => rfl
  | cons n ns ih =>
    rw [List.foldl_cons, ih]
    exact form_setEngine s n m (fillPages_form ..)

theorem engineOf_runs (h : Changes forgetRuns [] s t) (p : Fin 16) : engineOf t p = engineOf s p := by
  unfold engineOf
  rw [h.nat rfl (by decide)]

/-- The image that a place holds stays where the place is restored. -/
theorem restorePlace_image {p : Fin 16} {im : Image} (h : (s.engine (engineOf s p)).image = some im) :
    ((restorePlace s p).engine (engineOf s p)).image = some im := by
  let e := engineOf s p
  let s1 := rewritePages (s.setEngine e (putImage im.raw im.priv (s.engine e))) p
  have h1 : (s1.engine e).form = (.idle, some im) := by
    refine (rewritePages_form ..).trans ?_
    rw [engine_setEngine_self]
    rfl
  have himage {r : State} (hr : (r.engine e).form = (.idle, some im)) : ((dlyPlaceStart r p).engine e).image = some im :=
    congrArg Prod.snd hr
  unfold restorePlace
  dsimp only
  rw [h]
  dsimp only
  split
  · exact himage ((form_setEngine s1 e e (putX_form ..)).trans h1)
  · exact himage h1

/-- A place in lockstep runs with the image it holds. -/
theorem lockPlace_locks {p : Fin 16} {im : Image} (h : (s.engine (engineOf s p)).image = some im) (base : Nat) (ws : List Word) :
    ((lockPlace s p base ws).engine (engineOf s p)).run = .running ∧ ((lockPlace s p base ws).engine (engineOf s p)).image = some im ∧
      (lockPlace s p base ws).pair = s.pair := by
  let e := engineOf s p
  let s1 := restorePlace s p
  let s2 := s1.setEngine e (putX base ws (s1.engine e))
  let s3 := startPlace s2 p true
  have hlock : lockPlace s p base ws = s3.setEngine e { s3.engine e with fadeIn := 0 } := by
    unfold lockPlace
    dsimp only
    rw [h]
    rfl
  have hruns : Changes forgetRuns [] s s2 := (restorePlace_runs s p).trans (setEngine_runs ..)
  have hpair : s3.pair = s.pair := (hruns.trans (startPlace_runs s2 p true)).read State.pair fun _ => rfl
  have himage : (s2.engine e).image = some im :=
    (congrArg Prod.snd (form_setEngine s1 e e (putX_form ..))).trans (restorePlace_image h)
  have hstart : s3.engine e = startEngine true (s2.engine e) := by
    have hself := startPlace_engine_self (s := s2) (p := p) true
    rw [engineOf_runs hruns p] at hself
    exact hself
  rw [hlock]
  clear_value s3
  refine ⟨?_, ?_, hpair⟩
  · rw [engine_setEngine_self, hstart]
    rfl
  · rw [engine_setEngine_self, hstart]
    exact (congrArg Prod.snd (landPort_form (s2.engine e).port (s2.engine e))).trans himage

/-! ### The states sent and taken (R341) -/

theorem piecesOf_whole {α : Type} {n m : Nat} {as : List α} (h : as.length ≤ n) : piecesOf n (m + 1) as = [as] := if_pos h

theorem sendLimiters_once {ls : List LimState} (h : ls.length ≤ 256) : sendLimiters s ls = sendUnit s 4 [] (some (.limiters ls)) := by
  unfold sendLimiters
  rw [piecesOf_whole h]
  rfl

theorem sendRegion_once {p base : Nat} {ws : List Word} {runs : Bool} (h : ws.length ≤ 2000) :
    sendRegion s p base ws runs = sendUnit s 4 [] (some (.region p base ws true runs)) := by
  unfold sendRegion
  rw [piecesOf_whole h]
  rfl

theorem swapSnapshot_sent (hw : s.pair.swap = some w) (hg : w.giver = true) (fr : SnapFrame) (place : Option (Fin 16)) (base : Nat)
    (words : List Word) : exec (.swapSnapshot fr place base words) s = .next (swapSend s w place) := by
  change execSwapSnapshot fr place base words s = _
  unfold execSwapSnapshot
  rw [hw]
  exact congrArg Host.Outcome.next (if_pos hg)

section
variable (hw : s.pair.swap = some w) (hg : w.giver = true) (hall : s.pair.unacked.all (fun u => u.sent) = true)
include hw hg hall

theorem limiters_sent (htick : s.clk.tick = w.tw) (hlen : (limStates s).length ≤ 256)
    (hroom : bankUsed s.pair.unacked + 36 + 24 * (limStates s).length ≤ 4194304) (fr : SnapFrame) (base : Nat) (words : List Word) :
    ∃ t, exec (.swapSnapshot fr none base words) s = .next t ∧
      t.out = s.out ++ [.bulk 0 ((s.pair.seqOut + 1) % 4294967296) s.clk.tick (.limiters (limStates s))] ∧
      t.pair.seqOut = (s.pair.seqOut + 1) % 4294967296 ∧ t.pair.swap = s.pair.swap ∧ t.dict = s.dict ∧ t.engines = s.engines ∧
      t.lat = s.lat := by
  have hsend : swapSend s w none = sendUnit s 4 [] (some (.limiters (limStates s))) := (if_pos htick).trans (sendLimiters_once hlen)
  obtain ⟨us, ack, hsent⟩ := sendUnit_sent (s := s) (ty := 4) (payload := []) (bulk := some (.limiters (limStates s)))
    (n := 36 + 24 * (limStates s).length)
    (by
      change _ = 20 + (16 + 24 * (limStates s).length)
      omega)
    hall ((Nat.add_assoc ..).symm.trans_le hroom)
  refine ⟨_, swapSnapshot_sent hw hg fr none base words, ?_⟩
  rw [hsend, hsent]
  exact ⟨rfl, rfl, rfl, rfl, rfl, rfl⟩

theorem region_sent {p : Fin 16} (htick : s.clk.tick = w.tw + p.val) (hlen : (regionOf s p.val).2.length ≤ 2000)
    (hroom : bankUsed s.pair.unacked + 36 + 4 * (regionOf s p.val).2.length ≤ 4194304) (fr : SnapFrame) (base : Nat) (words : List Word) :
    ∃ t, exec (.swapSnapshot fr (some p) base words) s = .next t ∧ t.out = s.out ++ [.bulk 0 ((s.pair.seqOut + 1) % 4294967296) s.clk.tick
        (.region p.val (regionOf s p.val).1 (regionOf s p.val).2 true ((placesRunning s).contains p))] ∧
      t.pair.swap = some { w with lockstep := (w.lockstep ++ [p.val]).eraseDups, got := [] } ∧
      t.pair.seqOut = (s.pair.seqOut + 1) % 4294967296 ∧ t.dict = s.dict ∧ t.engines = s.engines ∧ t.lat = s.lat := by
  let part : BulkPart := .region p.val (regionOf s p.val).1 (regionOf s p.val).2 true ((placesRunning s).contains p)
  have hsend : swapSend s w (some p) = joinLockstep (sendUnit s 4 [] (some part)) w p :=
    (if_pos htick).trans (congrArg (fun r => joinLockstep r w p) (sendRegion_once hlen))
  obtain ⟨us, ack, hsent⟩ := sendUnit_sent (s := s) (ty := 4) (payload := []) (bulk := some part)
    (n := 36 + 4 * (regionOf s p.val).2.length)
    (by
      change _ = 20 + (16 + 4 * (regionOf s p.val).2.length)
      omega)
    hall ((Nat.add_assoc ..).symm.trans_le hroom)
  refine ⟨_, swapSnapshot_sent hw hg fr (some p) base words, ?_⟩
  rw [hsend, hsent]
  exact ⟨rfl, rfl, rfl, rfl, rfl, rfl⟩

end

/-- A frame of the shared sequence has been taken (R322). -/
def frameTaken (s : State) (seq : Nat) : State := { s with pair := { s.pair with seqIn := seq, frameOk := true } }

section
variable {fr : SnapFrame} (hw : s.pair.swap = some w) (hg : w.giver = false) (hp : s.paired = true) (hr : s.nat Ix.pairRole = 2)
  (hf : fr.frame.first = true) (hgood : fr.frame.good = true) (hseq : fr.frame.seq = (s.pair.seqIn + 1) % 4294967296)
include hw hg hp hr hf hgood hseq

/-- A frame of the snapshot comes to a standby, in order. -/
theorem swapSnapshot_taken (place : Option (Fin 16)) (base : Nat) (words : List Word) :
    exec (.swapSnapshot fr place base words) s =
      .next (swapTake (frameTaken s fr.frame.seq) w fr place base words) := by
  have hgive : ¬ w.giver = true := by rw [hg]; decide
  change execSwapSnapshot fr place base words s = _
  unfold execSwapSnapshot
  rw [hw]
  dsimp only
  rw [if_neg hgive, linkFrame_taken hp hf hgood hseq]
  exact congrArg Host.Outcome.next (if_pos ⟨rfl, hr⟩)

end

/-- What the limiters of a standby take. -/
def forgetLims (s : State) : State := { s with lat := LatSt.reset }

theorem restLims_lims (s : State) : Changes forgetLims [Ix.latDestState] s (restLims s) :=
  (Changes.refl _ _ s).foldl _ fun r d =>
    have hput (y : LatSt) : Changes forgetLims [Ix.latDestState] r { r with lat := y } := (Changes.refl _ _ r).put rfl rfl
    (hput _).setNat (by decide) _ _

/-- The limiter states of the door-holder, taken. -/
theorem swapTake_limiter {fr : SnapFrame} {l : LimState} (htick : s.clk.tick < w.ts) (hstates : fr.states = [l]) (base : Nat) (words : List Word) :
    ((swapTake s w fr none base words).dest l.dest.toNat).lim.g = l.g.toNat ∧
      ((swapTake s w fr none base words).dest l.dest.toNat).lim.held = l.held ∧
      (swapTake s w fr none base words).pair = { s.pair with swap := some { w with tw := fr.tick } } ∧
      (swapTake s w fr none base words).engines = s.engines := by
  let s1 := if w.tw = w.ts then restLims s else s
  let s2 : State := { s1 with pair := { s1.pair with swap := some { w with tw := fr.tick } } }
  have htake : swapTake s w fr none base words = takeLim s2 l := by
    have hgo : ¬ w.ts ≤ s.tick := Nat.not_le.mpr htick
    refine (if_neg hgo).trans ?_
    dsimp only
    rw [hstates]
    rfl
  have h1 : Changes forgetLims [Ix.latDestState] s s1 := (restLims_lims s).ite (Changes.refl ..)
  have hpair : s1.pair = s.pair := h1.read State.pair fun _ => rfl
  have heng : s1.engines = s.engines := h1.read State.engines fun _ => rfl
  rw [htake]
  clear_value s1
  have hpair2 : s2.pair = { s.pair with swap := some { w with tw := fr.tick } } := by
    have hs2 : s2.pair = { s1.pair with swap := some { w with tw := fr.tick } } := rfl
    rw [hs2, hpair]
  have heng2 : s2.engines = s.engines := heng
  clear_value s2
  unfold takeLim
  dsimp only
  rw [dest_setDest_self, setDest_pair, setDest_engines]
  exact ⟨rfl, rfl, hpair2, heng2⟩

/-- The last words of a region, taken: the place runs in lockstep. -/
theorem swapTake_region {fr : SnapFrame} {p : Fin 16} (htick : s.clk.tick < w.ts) (htw : w.tw ≠ w.ts)
    (hlock : w.lockstep.contains p.val = false) (hlast : fr.last = true) (hruns : fr.runs = true) (base : Nat) (words : List Word) :
    swapTake s w fr (some p) base words = joinLockstep (lockPlace s p (base - w.got.length) (w.got ++ words)) w p := by
  have hgo : ¬ w.ts ≤ s.tick := Nat.not_le.mpr htick
  have hnew : ¬ (w.tw = w.ts ∨ w.lockstep.contains p.val = true) := by
    rw [hlock]
    exact fun h => h.elim htw Bool.false_ne_true
  refine (if_neg hgo).trans ?_
  dsimp only
  rw [if_neg hnew, hlast, hruns]
  rfl

/-! ### The door passes (R337, R341) -/

/-- What ends commits: the Shutter, engines, and of the link all but a planned swap. -/
def forgetCommits (s : State) : State :=
  { s with pair := { PairSt.reset with swap := s.pair.swap }, out := [], shut := ShutSt.reset, engines := State.reset.engines }

theorem sendUnit_commits (s : State) (ty : Nat) (payload : List Byte) (bulk : Option BulkPart) :
    Changes forgetCommits l s (sendUnit s ty payload bulk) := by
  unfold sendUnit
  dsimp only
  split
  · exact (Changes.refl _ l s).put rfl rfl
  · exact (Changes.refl _ l s).put rfl rfl

theorem mirror_commits (s : State) (kind gen tick : Nat) (body : List Byte) :
    Changes forgetCommits l s (mirror s kind gen tick body) :=
  Changes.ite (sendUnit_commits ..) (Changes.refl ..)

theorem freeSlot_pend (s : State) (id : Nat) : Changes f pendIx s (freeSlot s id) := by
  unfold freeSlot
  split
  · exact ((Changes.refl _ _ s).setNat (by decide) _ _).setNat (by decide) _ _
  · exact Changes.refl ..

theorem endCommit_commits (s : State) (p : Pending) (code gen : Nat) : Changes forgetCommits pendIx s (endCommit s p code gen) := by
  have hfree : Changes forgetCommits pendIx s (freeSlot (withoutCommit s p) p.id) :=
    Changes.trans (t := withoutCommit s p) ((Changes.refl _ _ s).put rfl rfl) (freeSlot_pend ..)
  have hlist := ((hfree.setNat (ix := Ix.shutHistory) (by decide) (p.id % 64) (p.id + 4294967296 * code)).setNat
    (ix := Ix.shutHistGen) (by decide) (p.id % 64) gen).setNat (ix := Ix.shutHistTick) (by decide) (p.id % 64) s.tick
  have hpair {t : State} (h : Changes forgetCommits pendIx s t) :
      Changes forgetCommits pendIx s { t with pair := { t.pair with results := t.pair.results ++ [(p.id, code, gen)] } } := h.put rfl rfl
  unfold endCommit
  exact (((hpair hlist).ite hlist).setNat (by decide) _ _).trans (mirror_commits ..)

theorem unpreparePage_commits (s : State) (p : Fin 16) (ws : List Nat) : Changes forgetCommits l s (unpreparePage s p ws) :=
  (Changes.refl _ l s).foldl _ fun r _ => (Changes.refl _ l r).put rfl rfl

theorem rejectOpen_commits (s : State) (code : Nat) : Changes forgetCommits pendIx s (rejectOpen s code) := by
  refine (Changes.refl _ _ s).foldl _ fun r p => ?_
  have hpages : Changes forgetCommits pendIx r (if p.frozen = true then
      (touchedBy (p.changes.map (fun c => (c.ix, c.sub)))).foldl (fun t q => unpreparePage t (Fin.ofNat 16 q.1) q.2) r else r) :=
    Changes.ite ((Changes.refl _ _ r).foldl _ fun _ _ => unpreparePage_commits ..) (Changes.refl ..)
  exact ((hpages.trans (endCommit_commits ..)).addHold (by decide) _ _).alarmIf _ _ _

/-- The pass of the door, noted. -/
def passNoted (s : State) (w : Swap) : State :=
  { s with net := { s.net with pass := some (w.ts, w.giver) }, pair := { s.pair with doorAt := s.clk.sysCounter, swapDue := false } }

theorem notePass_changes (s : State) (w : Swap) : Changes f [Ix.ntxState, Ix.pairLastDoor] (passNoted s w) (notePass s w) :=
  ((syncTx_regs _).widen (fun _ => rfl) (by decide)).setNat (by decide) _ _

/-- Where the door has gone, by the registers and the times that a pass leaves. -/
structure DoorPassed (s t : State) (w : Swap) (role : Nat) : Prop where
  role : t.nat Ix.pairRole = role
  swapTick : t.nat Ix.pairSwapTick = 0
  lastDoor : t.nat Ix.pairLastDoor = w.ts
  swap : t.pair.swap = none
  pass : t.net.pass = some (w.ts, w.giver)
  doorAt : t.pair.doorAt = s.clk.sysCounter

theorem notePass_passed {role : Nat} (w : Swap) (hclk : t.clk = s.clk) (hrole : t.nat Ix.pairRole = role)
    (hst : t.nat Ix.pairSwapTick = 0) (hswap : t.pair.swap = none) : DoorPassed s (notePass t w) w role := by
  have h := notePass_changes (f := id) t w
  have hpair : (notePass t w).pair = (passNoted t w).pair := h.read State.pair fun _ => rfl
  have hcounter : t.clk.sysCounter = s.clk.sysCounter := by rw [hclk]
  exact ⟨(h.nat rfl (by decide) 0).trans hrole, (h.nat rfl (by decide) 0).trans hst, nat_setNat_self ..,
    (congrArg PairSt.swap hpair).trans hswap, congrArg NetSt.pass (h.read State.net fun _ => rfl),
    (congrArg PairSt.doorAt hpair).trans hcounter⟩

theorem DoorPassed.logOnly {u : State} {role : Nat} (h : DoorPassed s t w role) (hlog : LogOnly t u) : DoorPassed s u w role :=
  ⟨(hlog.nat rfl).trans h.role, (hlog.nat rfl).trans h.swapTick, (hlog.nat rfl).trans h.lastDoor,
    (congrArg PairSt.swap hlog.pair).trans h.swap, (congrArg NetSt.pass hlog.net).trans h.pass,
    (congrArg PairSt.doorAt hlog.pair).trans h.doorAt⟩

theorem dropSwap_tick (s : State) : (dropSwap s).nat Ix.pairSwapTick = 0 := nat_setNat_self ..

theorem dropSwap_regs (s : State) : Changes forgetLink [Ix.pairSwapTick] s (dropSwap s) := by
  have hput : Changes forgetLink [Ix.pairSwapTick] s { s with pair := { s.pair with swap := none } } := (Changes.refl _ _ s).put rfl rfl
  exact hput.setNat (by decide) _ _

theorem dropSwap_pair (s : State) : (dropSwap s).pair = { s.pair with swap := none } := setNat_pair ..

theorem dropSwap_rsv (s : State) : (dropSwap s).rsv = s.rsv := (dropSwap_regs s).read State.rsv fun _ => rfl

/-- A unit without the commits that were open, in another role. -/
def leftByRole (s : State) (n : Nat) : State := setRole (rejectOpen s 8) n

/-- What such a unit keeps. -/
theorem leftByRole_keeps (s : State) (n : Nat) : (leftByRole s n).pair.swap = s.pair.swap ∧ (leftByRole s n).clk = s.clk ∧
    (leftByRole s n).lat = s.lat ∧ (leftByRole s n).nat Ix.pairSwapTick = s.nat Ix.pairSwapTick ∧ (leftByRole s n).rsv = s.rsv := by
  have hrole := setRole_regs (rejectOpen s 8) n
  have hopen := rejectOpen_commits s 8
  exact ⟨(congrArg PairSt.swap (hrole.read State.pair fun _ => rfl)).trans (hopen.read (fun r => r.pair.swap) fun _ => rfl),
    (hrole.read State.clk fun _ => rfl).trans (hopen.read State.clk fun _ => rfl),
    (hrole.read State.lat fun _ => rfl).trans (hopen.read State.lat fun _ => rfl),
    (hrole.nat rfl (by decide) 0).trans (hopen.nat rfl (by decide) 0),
    (hrole.read State.rsv fun _ => rfl).trans (hopen.read State.rsv fun _ => rfl)⟩

/-- The old door-holder, whose outputs run on. -/
def holdOuts (s : State) (w : Swap) (hold : Nat) (ps : List (Fin 16)) : State :=
  { s with pair := { s.pair with
      snapSent := false, snapTaken := true, outHold := some (w.ts + hold), deferred := ps.map (fun p => (p.val, some w.ts)) } }

theorem giveDoor_eq (hmove : s.rsv.move = none) :
    giveDoor s w = notePass (holdOuts (leftByRole s 2) w (s.nat Ix.pairOutHold) (placesRunning s)) w := by
  have hnone : (leftByRole s 2).rsv.move = none := by
    rw [(leftByRole_keeps s 2).2.2.2.2]
    exact hmove
  have hquiet : moveQuietly (leftByRole s 2) = leftByRole s 2 := by
    unfold moveQuietly
    rw [hnone]
  have hgive : giveDoor s w = notePass (holdOuts (moveQuietly (leftByRole s 2)) w (s.nat Ix.pairOutHold) (placesRunning s)) w := rfl
  rw [hgive, hquiet]

/-- The giving door-holder is STANDBY, and its outputs run on. -/
theorem giveDoor_gives (hmove : s.rsv.move = none) (hst : s.nat Ix.pairSwapTick = 0) (hswap : s.pair.swap = none) :
    DoorPassed s (giveDoor s w) w 2 ∧ (giveDoor s w).pair.outHold = some (w.ts + s.nat Ix.pairOutHold) ∧ (giveDoor s w).lat = s.lat := by
  obtain ⟨hkswap, hclk, hlat, hkst, -⟩ := leftByRole_keeps s 2
  have hrole : (leftByRole s 2).nat Ix.pairRole = 2 := setRole_role ..
  rw [giveDoor_eq hmove]
  generalize leftByRole s 2 = r at hkswap hclk hlat hkst hrole
  have h := notePass_changes (f := id) (holdOuts r w (s.nat Ix.pairOutHold) (placesRunning s)) w
  exact ⟨notePass_passed w hclk hrole (hkst.trans hst) (hkswap.trans hswap), congrArg PairSt.outHold (h.read State.pair fun _ => rfl),
    (h.read State.lat fun _ => rfl).trans hlat⟩

/-- The new door-holder, driving its outputs. -/
def holdDoor (s : State) : State :=
  (setDoor s Fade.unity).onPair (fun p => { p with
    deferred := [], split := false, snapSent := true, digestAt := none, asked := none })

theorem getDoor_eq (s : State) (w : Swap) : getDoor s w = notePass (holdDoor (announceArp (setRole s 3))) w := rfl

/-- The standby holds the door: its outputs are driven without a fade. -/
theorem getDoor_gets (hst : s.nat Ix.pairSwapTick = 0) (hswap : s.pair.swap = none) :
    DoorPassed s (getDoor s w) w 3 ∧ (getDoor s w).pair.deferred = [] ∧ (getDoor s w).lat.door = Fade.unity ∧
      (getDoor s w).engines = s.engines := by
  have hrole := setRole_regs s 3
  have harp := announceArp_sends (setRole s 3)
  have hpair := (harp.read State.pair fun _ => rfl).trans (hrole.read State.pair fun _ => rfl)
  have hclk := (harp.read State.clk fun _ => rfl).trans (hrole.read State.clk fun _ => rfl)
  have heng := (harp.read State.engines fun _ => rfl).trans (hrole.read State.engines fun _ => rfl)
  have hkst := (harp.nat (ix := Ix.pairSwapTick) rfl (by decide) 0).trans (hrole.nat rfl (by decide) 0)
  have h3 := (harp.nat (ix := Ix.pairRole) rfl (by decide) 0).trans (setRole_role s 3)
  rw [getDoor_eq]
  generalize announceArp (setRole s 3) = r at hpair hclk heng hkst h3
  have h := notePass_changes (f := id) (holdDoor r) w
  exact ⟨notePass_passed w hclk h3 (hkst.trans hst) ((congrArg PairSt.swap hpair).trans hswap),
    congrArg PairSt.deferred (h.read State.pair fun _ => rfl), congrArg LatSt.door (h.read State.lat fun _ => rfl),
    (h.read State.engines fun _ => rfl).trans heng⟩

/-! ### The swap tick (R341) -/

/-- A heartbeat of the tick before the swap tick has come. -/
def swapSeen (s : State) (w : Swap) : Bool :=
  match s.pair.beatTick with
  | some _ => decide (w.ts ≤ s.pair.peerTick + 1)
  | none => false

theorem swapSeen_iff : swapSeen s w = true ↔ ∃ b, s.pair.beatTick = some b ∧ w.ts ≤ s.pair.peerTick + 1 := by
  unfold swapSeen
  split
  · next b hb =>
    rw [decide_eq_true_eq]
    exact ⟨fun h => ⟨b, hb, h⟩, fun h => h.choose_spec.2⟩
  · next hb => exact ⟨fun h => absurd h Bool.false_ne_true, fun ⟨b, h, _⟩ => by rw [hb] at h; cases h⟩

theorem swapTickPass_eq (hw : s.pair.swap = some w) (htick : w.ts ≤ s.clk.tick) : exec .swapTickPass s = .next (
    if !s.paired ∨ s.nat Ix.pairRole ≠ (if w.giver then 3 else 2) then dropSwap s
    else if w.giver then
      (if !swapSeen s w && s.nat Ix.seat == 0 then (dropSwap s).alarm Al.pairSwapAbandoned
       else (giveDoor (dropSwap s) w).alarmIf (swapSeen s w) Al.pairSwapDone)
    else if !swapSeen s w && !(s.nat Ix.seat == 0) then haltWork ((dropSwap s).alarm Al.pairSwapAbandoned)
    else (getDoor (dropSwap s) w).alarm Al.pairSwapDone) := by
  have hgo : ¬ s.tick < w.ts := Nat.not_lt.mpr htick
  change execSwapTickPass s = _
  unfold execSwapTickPass
  rw [hw]
  exact congrArg Host.Outcome.next (if_neg hgo)

theorem swapTickPass_gives (hw : s.pair.swap = some w) (htick : w.ts ≤ s.clk.tick) (hp : s.paired = true) (hr : s.nat Ix.pairRole = 3)
    (hdoubt : swapSeen s w = true ∨ s.nat Ix.seat ≠ 0) (hg : w.giver = true) :
    exec .swapTickPass s = .next ((giveDoor (dropSwap s) w).alarmIf (swapSeen s w) Al.pairSwapDone) := by
  have hrole : ¬ ((!s.paired) = true ∨ s.nat Ix.pairRole ≠ (if w.giver = true then 3 else 2)) := by
    rw [hp, hg, hr]
    simp
  have hsafe : ¬ (!swapSeen s w && s.nat Ix.seat == 0) = true := by
    simpa using fun h => hdoubt.resolve_left (by rw [h]; decide)
  rw [swapTickPass_eq hw htick]
  exact congrArg Host.Outcome.next ((if_neg hrole).trans ((if_pos hg).trans (if_neg hsafe)))

theorem swapTickPass_gets (hw : s.pair.swap = some w) (htick : w.ts ≤ s.clk.tick) (hp : s.paired = true) (hr : s.nat Ix.pairRole = 2)
    (hdoubt : swapSeen s w = true ∨ s.nat Ix.seat = 0) (hg : w.giver = false) :
    exec .swapTickPass s = .next ((getDoor (dropSwap s) w).alarm Al.pairSwapDone) := by
  have hgive : ¬ w.giver = true := by rw [hg]; decide
  have hrole : ¬ ((!s.paired) = true ∨ s.nat Ix.pairRole ≠ (if w.giver = true then 3 else 2)) := by
    rw [hp, hg, hr]
    simp
  have hsafe : ¬ (!swapSeen s w && !(s.nat Ix.seat == 0)) = true := by
    simpa using fun h => hdoubt.resolve_left (by rw [h]; decide)
  rw [swapTickPass_eq hw htick]
  exact congrArg Host.Outcome.next ((if_neg hrole).trans ((if_neg hgive).trans (if_neg hsafe)))

theorem swapTickPass_abandons (hw : s.pair.swap = some w) (htick : w.ts ≤ s.clk.tick) (hp : s.paired = true) (hr : s.nat Ix.pairRole = 3)
    (hseen : swapSeen s w = false) (hg : w.giver = true) (hseat : s.nat Ix.seat = 0) :
    exec .swapTickPass s = .next ((dropSwap s).alarm Al.pairSwapAbandoned) := by
  have hrole : ¬ ((!s.paired) = true ∨ s.nat Ix.pairRole ≠ (if w.giver = true then 3 else 2)) := by
    rw [hp, hg, hr]
    simp
  have hdoubt : (!swapSeen s w && s.nat Ix.seat == 0) = true := by
    rw [hseen, hseat]
    rfl
  rw [swapTickPass_eq hw htick]
  exact congrArg Host.Outcome.next ((if_neg hrole).trans ((if_pos hg).trans (if_pos hdoubt)))

theorem swapTickPass_drops (hw : s.pair.swap = some w) (htick : w.ts ≤ s.clk.tick)
    (hr : s.nat Ix.pairRole ≠ (if w.giver = true then 3 else 2)) : exec .swapTickPass s = .next (dropSwap s) := by
  rw [swapTickPass_eq hw htick]
  exact congrArg Host.Outcome.next (if_pos (Or.inr hr))

/-- A swap that is over changes nothing else. -/
theorem dropSwap_over {u : State} (h : LogOnly (dropSwap s) u) : u.nat Ix.pairRole = s.nat Ix.pairRole ∧ u.pair.swap = none ∧
    u.nat Ix.pairSwapTick = 0 ∧ u.lat = s.lat ∧ u.engines = s.engines :=
  have hdrop := dropSwap_regs s
  ⟨(h.nat rfl).trans (hdrop.nat rfl (by decide) 0), congrArg PairSt.swap (h.pair.trans (dropSwap_pair s)),
    (h.nat rfl).trans (dropSwap_tick s), h.lat.trans (hdrop.read State.lat fun _ => rfl),
    h.engines.trans (hdrop.read State.engines fun _ => rfl)⟩

/-- The door passes to the partner at the swap tick. -/
theorem giveDoor_passes (w : Swap) (hmove : s.rsv.move = none) (c : Bool) :
    let t := (giveDoor (dropSwap s) w).alarmIf c Al.pairSwapDone
    DoorPassed s t w 2 ∧ t.pair.outHold = some (w.ts + s.nat Ix.pairOutHold) ∧ t.lat.door = s.lat.door := by
  intro t
  have hdrop := dropSwap_regs s
  obtain ⟨hpassed, hhold, hlat⟩ := giveDoor_gives (w := w) ((congrArg RsvSt.move (dropSwap_rsv s)).trans hmove) (dropSwap_tick s)
    (congrArg PairSt.swap (dropSwap_pair s))
  have hkept : (dropSwap s).nat Ix.pairOutHold = s.nat Ix.pairOutHold := hdrop.nat rfl (by decide) 0
  rw [hkept] at hhold
  have hlog : LogOnly (giveDoor (dropSwap s) w) t := alarmIf_logOnly ..
  have hall := hpassed.logOnly hlog
  have hcounter : (dropSwap s).clk.sysCounter = s.clk.sysCounter := congrArg TickSt.sysCounter (hdrop.read State.clk fun _ => rfl)
  exact ⟨{ hall with doorAt := hall.doorAt.trans hcounter }, (congrArg PairSt.outHold hlog.pair).trans hhold,
    congrArg LatSt.door (hlog.lat.trans (hlat.trans (hdrop.read State.lat fun _ => rfl)))⟩

/-- The door comes from the partner at the swap tick. -/
theorem getDoor_passes (s : State) (w : Swap) :
    let t := (getDoor (dropSwap s) w).alarm Al.pairSwapDone
    DoorPassed (dropSwap s) t w 3 ∧ t.pair.deferred = [] ∧ t.lat.door = Fade.unity ∧ t.engines = s.engines := by
  intro t
  obtain ⟨hpassed, hdef, hdoor, heng⟩ := getDoor_gets (w := w) (dropSwap_tick s) (congrArg PairSt.swap (dropSwap_pair s))
  have hlog : LogOnly (getDoor (dropSwap s) w) t := alarm_logOnly ..
  exact ⟨hpassed.logOnly hlog, (congrArg PairSt.deferred hlog.pair).trans hdef, (congrArg LatSt.door hlog.lat).trans hdoor,
    hlog.engines.trans (heng.trans ((dropSwap_regs s).read State.engines fun _ => rfl))⟩

theorem swapOutHoldEnd_fades {hold : Nat} (hh : s.pair.outHold = some hold) (htick : hold ≤ s.clk.tick) (hd : s.isDoor = false) :
    exec .swapOutHoldEnd s = .next { s with lat := { s.lat with door := fadeOut s.lat.door } } := by
  have hgo : hold ≤ s.tick ∧ (!s.isDoor) = true := ⟨htick, by rw [hd]; rfl⟩
  change execSwapOutHoldEnd s = _
  unfold execSwapOutHoldEnd
  rw [hh]
  exact congrArg Host.Outcome.next (if_pos hgo)

theorem swapIntervalExpiry_due (hp : s.paired = true) (hn : s.nat Ix.pairSwapInterval ≠ 0) (hdue : s.pair.swapDue = false)
    (hpassed : s.pair.doorAt + s.nat Ix.pairSwapInterval * 3600000000000 ≤ s.clk.sysCounter) :
    exec .swapIntervalExpiry s = .next ({ s with pair := { s.pair with swapDue := true } }.alarm Al.pairSwapDue) := by
  have hgo : s.paired = true ∧ s.nat Ix.pairSwapInterval ≠ 0 ∧
      decide (s.pair.doorAt + s.nat Ix.pairSwapInterval * 3600000000000 ≤ s.clk.sysCounter) = true ∧ (!s.pair.swapDue) = true :=
    ⟨hp, hn, decide_eq_true hpassed, by rw [hdue]; rfl⟩
  exact congrArg Host.Outcome.next (if_pos hgo)

end

end Sys2Proof.Machine
end

section
open Sys2Proof Sys2Proof.Machine

/-- Settles O44: the states sent and taken, the door passed or kept at the swap tick, the outputs' hold and the interval. -/
theorem swapsExchangeTheDoor : Obligations.SwapsExchangeTheDoor := by
  unfold Obligations.SwapsExchangeTheDoor
  intro s w hw seen seq room comes
  have hseen : swapSeen s w = true ↔ seen := swapSeen_iff
  refine ⟨fun hg htick hlen hroom fr base words => limiters_sent hw hg hroom.1 htick hlen hroom.2 fr base words,
    fun hg p htick hlen hroom fr base words => region_sent hw hg hroom.1 htick hlen hroom.2 fr base words,
    fun hg htick fr l base words hcomes hstates => ?_, fun hg p im fr htick htw hlock hcomes hlast hruns him base words => ?_,
    fun htick hp hr hdoubt hmove hg => ?_, fun htick hp hr hdoubt hg => ?_, fun htick hp hr hno hg hseat => ?_, fun htick hr => ?_,
    fun hold hh htick hd => swapOutHoldEnd_fades hh htick hd, swapIntervalExpiry_due⟩
  · obtain ⟨hp, hr, hf, hgood, hseq⟩ := hcomes
    obtain ⟨hgain, hheld, hpair, heng⟩ := swapTake_limiter (s := frameTaken s fr.frame.seq)
      (w := w) (fr := fr) htick hstates base words
    exact ⟨_, swapSnapshot_taken hw hg hp hr hf hgood hseq none base words, hgain, hheld, congrArg PairSt.swap hpair,
      congrArg PairSt.seqIn hpair, heng⟩
  · obtain ⟨hp, hr, hf, hgood, hseq⟩ := hcomes
    obtain ⟨hrun, himage, hpair⟩ := lockPlace_locks (s := frameTaken s fr.frame.seq)
      him (base - w.got.length) (w.got ++ words)
    refine ⟨_, swapSnapshot_taken hw hg hp hr hf hgood hseq (some p) base words, ?_⟩
    rw [swapTake_region (s := frameTaken s fr.frame.seq) htick htw hlock hlast hruns]
    exact ⟨congrArg PairSt.seqIn hpair, rfl, hrun, himage⟩
  · obtain ⟨hpassed, hhold, hlat⟩ := giveDoor_passes w hmove (swapSeen s w)
    exact ⟨_, swapTickPass_gives hw htick hp hr (hdoubt.imp_left hseen.mpr) hg, hpassed.role, hpassed.swapTick, hpassed.lastDoor,
      hpassed.swap, hhold, hpassed.pass.trans (by rw [hg]), hlat, hpassed.doorAt⟩
  · obtain ⟨hpassed, hdef, hdoor, heng⟩ := getDoor_passes s w
    exact ⟨_, swapTickPass_gets hw htick hp hr (hdoubt.imp_left hseen.mpr) hg, hpassed.role, hpassed.swapTick, hpassed.lastDoor,
      hpassed.swap, hdef, hpassed.pass.trans (by rw [hg]), hdoor, heng⟩
  · obtain ⟨hrole, hover⟩ := dropSwap_over (alarm_logOnly (dropSwap s) Al.pairSwapAbandoned 0)
    exact ⟨_, swapTickPass_abandons hw htick hp hr (Bool.eq_false_iff.mpr fun h => hno (hseen.mp h)) hg hseat, hrole.trans hr, hover⟩
  · exact ⟨_, swapTickPass_drops hw htick hr, dropSwap_over (LogOnly.refl _)⟩

end

section
/-! Moves of a place to a reserve engine, step by step (R377 to R383). -/

namespace Sys2Proof.Machine

section
variable {f : State → State} {s t : State} {m : Move}

/-! ### The end of a move (R376, R381) -/

theorem nextMove_none (h : s.rsv.queue = []) : nextMove s = s := by
  unfold nextMove
  split
  · next hq =>
    rw [h] at hq
    cases hq
  · rfl

/-- The registers that a finished move has set. -/
def moveDone (s : State) (m : Move) (sourceState : Nat) : State :=
  ((((setMigState (setRsvState (setRsvState s m.leaf 0) m.source sourceState) m 4 (s.nat Ix.rsvMigState / 65536 % 256)).setNat
    Ix.rsvMigTick 0 s.tick).addWrap Ix.rsvMigrations 0 1).alarm Al.rsvMigrateDone (rsvDetail m.source m.req.place))

/-- No move is in progress, and its place may be moved again. -/
def moveCleared (s : State) (m : Move) : State :=
  { s with rsv := { s.rsv with move := none, barred := s.rsv.barred.filter (fun p => p != m.req.place) } }

theorem finishMove_eq (s : State) (m : Move) (v : Nat) : finishMove s m v = nextMove (moveCleared (moveDone s m v) m) := by
  unfold finishMove moveDone moveCleared
  rfl

def finishIx : List Nat := Ix.rsvMigTick :: Ix.rsvMigrations :: reserveIx

theorem moveDone_changes (s : State) (m : Move) (v : Nat) : Changes f finishIx s (moveDone s m v) := by
  have hset (r : State) (e : Fin 16) (n : Nat) : Changes f finishIx r (setRsvState r e n) :=
    (setRsvState_changes ..).widen (fun _ => rfl) (by decide)
  have hmig := ((hset s m.leaf 0).trans (hset _ m.source v)).trans
    ((setMigState_changes _ m 4 (s.nat Ix.rsvMigState / 65536 % 256)).widen (fun _ => rfl) (by decide))
  exact ((hmig.setNat (by decide) _ _).addWrap (by decide) _ _).alarm _ _

theorem moveDone_counts (s : State) (m : Move) (v : Nat) :
    (moveDone s m v).nat Ix.rsvMigrations = (s.nat Ix.rsvMigrations + 1) % 4294967296 := by
  unfold moveDone
  rw [nat_alarm _ _ _ rfl, nat_addWrap_self, nat_setNat_index _ (by decide),
    (setMigState_changes (f := id) ..).nat rfl (by decide), (setRsvState_changes (f := id) ..).nat rfl (by decide),
    (setRsvState_changes (f := id) ..).nat rfl (by decide)]

theorem moveDone_leaf (h : m.leaf ≠ m.source) (s : State) (v : Nat) : rsvState (moveDone s m v) m.leaf = 0 := by
  have hstate (r : State) (n k d : Nat) : rsvState (((setMigState r m 4 n).setNat Ix.rsvMigTick 0 k).addWrap Ix.rsvMigrations 0 1 |>.alarm
      Al.rsvMigrateDone d) m.leaf = rsvState r m.leaf :=
    (nat_alarm _ _ _ rfl _).trans ((nat_setNat_index _ (by decide) ..).trans ((nat_setNat_index _ (by decide) ..).trans
      (nat_setNat_index _ (by decide) ..)))
  refine (hstate ..).trans ?_
  rw [rsvState_setRsvState_ne _ h, rsvState_setRsvState_self]

/-- A finished move leaves every engine as it is, and no move in progress. -/
structure Finished (s t : State) (m : Move) : Prop extends Changes forgetRsv finishIx s t where
  move : t.rsv.move = none
  leaf : rsvState t m.leaf = 0
  counted : t.nat Ix.rsvMigrations = (s.nat Ix.rsvMigrations + 1) % 4294967296

theorem moveCleared_finished {r : State} (hd : Changes forgetRsv finishIx s r) (hqueue : r.rsv.queue = []) (hleaf : rsvState r m.leaf = 0)
    (hcount : r.nat Ix.rsvMigrations = (s.nat Ix.rsvMigrations + 1) % 4294967296) : Finished s (nextMove (moveCleared r m)) m := by
  have hq : (moveCleared r m).rsv.queue = [] := hqueue
  rw [nextMove_none hq]
  exact { toChanges := hd.put rfl rfl, move := rfl, leaf := hleaf, counted := hcount }

theorem finishMove_finished (h : m.leaf ≠ m.source) (hqueue : s.rsv.queue = []) (v : Nat) : Finished s (finishMove s m v) m := by
  have hdone := moveDone_changes (f := id) s m v
  have hrsv : (moveDone s m v).rsv = s.rsv := hdone.read State.rsv fun _ => rfl
  rw [finishMove_eq]
  exact moveCleared_finished (moveDone_changes s m v) ((congrArg RsvSt.queue hrsv).trans hqueue) (moveDone_leaf h s v) (moveDone_counts s m v)

/-! ### The flip (R381) -/

/-- The mail of the engines and the engines themselves. -/
def forgetMail (s : State) : State := { s with ctl := CtlSt.reset, engines := State.reset.engines }

/-- The place map once a place and a leaf have changed hands. -/
def flippedMap (s : State) (m : Move) : State :=
  match placeOf s m.leaf with
  | some q => (s.setNat Ix.latEngMap m.req.place.val m.leaf.val).setNat Ix.latEngMap q.val m.source.val
  | none => s.setNat Ix.latEngMap m.req.place.val m.leaf.val

theorem flipMap_eq (s : State) (m : Move) :
    flipMap s m = moveMail ((flippedMap s m).setEngine m.source (gatedEngine m.pmu)) m.source.val m.leaf.val := rfl

theorem flippedMap_changes (s : State) (m : Move) : Changes f [Ix.latEngMap] s (flippedMap s m) := by
  have h : Changes f [Ix.latEngMap] s (s.setNat Ix.latEngMap m.req.place.val m.leaf.val) := (Changes.refl ..).setNat (by decide) _ _
  unfold flippedMap
  split
  · exact h.setNat (by decide) _ _
  · exact h

theorem flippedMap_place (h : placeOf s m.leaf ≠ some m.req.place) : (flippedMap s m).nat Ix.latEngMap m.req.place.val = m.leaf.val := by
  unfold flippedMap
  split
  · next q hq =>
    have hne : m.req.place.val ≠ q.val := fun k => h (by rw [hq, Fin.ext k])
    exact (nat_setNat_ne _ (objKey_ne_sub hne (by omega) (by omega)) _).trans (nat_setNat_self ..)
  · exact nat_setNat_self ..

theorem flipMap_changes (s : State) (m : Move) : Changes forgetMail [Ix.latEngMap] s (flipMap s m) := by
  rw [flipMap_eq]
  exact (flippedMap_changes s m).put rfl rfl

theorem flipMap_place (h : placeOf s m.leaf ≠ some m.req.place) : (flipMap s m).nat Ix.latEngMap m.req.place.val = m.leaf.val :=
  flippedMap_place h

theorem flipMap_source (s : State) (m : Move) : (flipMap s m).engine m.source = gatedEngine m.pmu :=
  engine_setEngine_self (flippedMap s m) ..

theorem flipMap_engine (s : State) {e : Fin 16} (h : e ≠ m.source) : (flipMap s m).engine e = s.engine e :=
  (engine_setEngine_ne (flippedMap s m) h _).trans
    (engine_of_engines ((flippedMap_changes (f := id) s m).read State.engines fun _ => rfl) e)

/-- The leaf has taken the place: what every kind of move comes to. -/
structure Took (s t : State) (m : Move) : Prop where
  others : ∀ e, e ≠ m.leaf → e ≠ m.source → t.engine e = s.engine e
  place : t.nat Ix.latEngMap m.req.place.val = m.leaf.val
  move : t.rsv.move = none
  leaf : rsvState t m.leaf = 0
  source : (t.engine m.source).run = .leaf
  counted : t.nat Ix.rsvMigrations = (s.nat Ix.rsvMigrations + 1) % 4294967296

/-- A move that flips, and is finished: `r` is the state in which the place map has changed. -/
theorem finishMove_took {r : State} (h : m.leaf ≠ m.source) (hqueue : r.rsv.queue = [])
    (hothers : ∀ e, e ≠ m.leaf → e ≠ m.source → r.engine e = s.engine e) (hplace : r.nat Ix.latEngMap m.req.place.val = m.leaf.val)
    (hsource : (r.engine m.source).run = .leaf) (hcount : r.nat Ix.rsvMigrations = s.nat Ix.rsvMigrations) (v : Nat) :
    Took s (finishMove r m v) m ∧ (finishMove r m v).engine m.leaf = r.engine m.leaf := by
  have hfin := finishMove_finished h hqueue v
  have heng := engine_of_engines (hfin.toChanges.read State.engines fun _ => rfl)
  exact ⟨{ others := fun e hl hs => (heng e).trans (hothers e hl hs)
           place := (hfin.toChanges.nat rfl (by decide) _).trans hplace
           move := hfin.move
           leaf := hfin.leaf
           source := by rw [heng]; exact hsource
           counted := by rw [hfin.counted, hcount] }, heng _⟩

theorem form_eq {e : Engine} {run : EngRun} {im : Option Image} (h : e.form = (run, im)) : e.run = run ∧ e.image = im :=
  ⟨congrArg Prod.fst h, congrArg Prod.snd h⟩

/-! ### Preparation and the copy (R378, R379) -/

theorem preparedLeaf_form {im : Image} (h : (s.engine m.source).image = some im) : (preparedLeaf s m).form = (.leaf, some im) := by
  unfold preparedLeaf
  rw [h]
  exact fillPages_form ..

/-- The leaf of a move as it is prepared. -/
def leafPrepared (s : State) (m : Move) : Engine :=
  if m.kind == .warm then fillPages s m.req.place { preparedLeaf s m with x := [], y := [] } else preparedLeaf s m

theorem leafPrepared_form {im : Image} (h : (s.engine m.source).image = some im) : (leafPrepared s m).form = (.leaf, some im) := by
  unfold leafPrepared
  split
  · exact (fillPages_form ..).trans (preparedLeaf_form h)
  · exact preparedLeaf_form h

theorem movePrepared_eq (hm : s.rsv.move = some m) (hstep : m.step = .preparing) : exec .movePrepared s =
    .next (setMove (s.setEngine m.leaf (leafPrepared s m)) (some { m with step := .prepared, tx := s.tick + 1 })) := by
  have hgo : ¬ (m.step != .preparing) = true := by rw [hstep]; decide
  change execMovePrepared s = _
  unfold execMovePrepared
  rw [hm]
  exact congrArg Host.Outcome.next (if_neg hgo)

/-- The leaf of a move is written, and the move is at another step. -/
def leafMoved (s : State) (m n : Move) (e : Engine) : State := setMove (s.setEngine m.leaf e) (some n)

theorem leafMoved_engines (s : State) (m n : Move) (e : Engine) (hx : m.leaf ≠ m.source) : (leafMoved s m n e).rsv.move = some n ∧
    (∀ k, k ≠ m.leaf → k ≠ m.source → (leafMoved s m n e).engine k = s.engine k) ∧
    (leafMoved s m n e).engine m.source = s.engine m.source ∧ (leafMoved s m n e).engine m.leaf = e ∧ (leafMoved s m n e).dict = s.dict :=
  ⟨rfl, fun _ hl _ => engine_setEngine_ne s hl e, engine_setEngine_ne s hx.symm e, engine_setEngine_self s m.leaf e, rfl⟩

/-- The move once its place has been copied. -/
def copiedMove (s : State) (m : Move) (ends : Nat) : Move :=
  { m with step := .copied, tx := s.tick + 1, held := min ends (listGet 0 3 s.clk.plan), posts := [] }

theorem moveCopy_eq {ends : Nat} (hm : s.rsv.move = some m) (hkind : m.kind = .warm) (hstep : m.step = .prepared) (hfits : copyFits s = true)
    (hdone : lastDone (s.engine m.source) = true) (hdly : s.fab.dlyDue.any (fun k => k / 2 == m.req.place.val) = false) :
    exec (.moveCopy { bad := false, ends := ends }) s = .next ((setMigState (leafMoved s m (copiedMove s m ends)
        (copyEngine (s.engine m.source) (s.engine m.leaf))) (copiedMove s m ends) 2 (s.nat Ix.rsvMigState / 65536 % 256)).setNat
        Ix.rsvMigTick 0 (s.tick + 3)) := by
  have hgo : ¬ (m.kind != .warm || m.step != .prepared) = true := by
    rw [hkind, hstep]
    decide
  have hfit : ¬ (!copyFits s) = true := by rw [hfits]; decide
  have hready : ¬ (!lastDone (s.engine m.source) || s.fab.dlyDue.any (fun k => k / 2 == m.req.place.val)) = true := by
    rw [hdone, hdly]
    decide
  change execMoveCopy { bad := false, ends := ends } s = _
  unfold execMoveCopy
  rw [hm]
  exact congrArg Host.Outcome.next ((if_neg hgo).trans ((if_neg hfit).trans ((if_neg hready).trans (if_neg Bool.false_ne_true))))

theorem moveCopied_engines (s : State) (m : Move) (ends : Nat) (hx : m.leaf ≠ m.source) :
    let g := copyEngine (s.engine m.source) (s.engine m.leaf)
    let t := (setMigState (leafMoved s m (copiedMove s m ends) g) (copiedMove s m ends) 2 (s.nat Ix.rsvMigState / 65536 % 256)).setNat
      Ix.rsvMigTick 0 (s.tick + 3)
    t.rsv.move = some (copiedMove s m ends) ∧ (∀ e, e ≠ m.leaf → e ≠ m.source → t.engine e = s.engine e) ∧
      t.engine m.source = s.engine m.source ∧ t.engine m.leaf = g ∧ t.nat Ix.rsvMigTick = s.clk.tick + 3 := by
  intro g t
  obtain ⟨hmove, hothers, hsource, hleaf, -⟩ := leafMoved_engines s m (copiedMove s m ends) g hx
  have hmig : Changes id (Ix.rsvMigTick :: reserveIx) (leafMoved s m (copiedMove s m ends) g) t :=
    ((setMigState_changes ..).widen (fun _ => rfl) (by decide)).setNat (by decide) _ _
  have htick : t.nat Ix.rsvMigTick = s.clk.tick + 3 := nat_setNat_self ..
  clear_value t
  have heng := engine_of_engines (hmig.read State.engines fun _ => rfl)
  exact ⟨(congrArg RsvSt.move (hmig.read State.rsv fun _ => rfl)).trans hmove, fun e hl hs => (heng e).trans (hothers e hl hs),
    (heng _).trans hsource, (heng _).trans hleaf, htick⟩

/-! ### Differences in the shadow ticks (R380) -/

/-- The move that copies again. -/
def repeatedMove (m : Move) : Move := { m with step := .prepared, repeated := true, posts := [] }

/-- A difference found for the first time: the leaf is written again. -/
def differs (s : State) (m : Move) : State :=
  let s2 := abandonMove (s.addWrap Ix.rsvMigDiffs 0 1) 1 1
  let s3 := setRsvState (s2.setEngine m.leaf { s.engine m.leaf with run := .leaf }) m.leaf 3
  setMigState { s3 with rsv := { s3.rsv with move := some (repeatedMove m) } } (repeatedMove m) 1 1

theorem shadowDiffers_first (hforce : m.req.force = false) (hrep : m.repeated = false) : shadowDiffers s m = differs s m := by
  have h1 : ¬ m.req.force = true := by rw [hforce]; decide
  have h2 : ¬ m.repeated = true := by rw [hrep]; decide
  exact (if_neg h1).trans (if_neg h2)

/-- An abandoned move, before its registers are set: its leaf is power-gated. -/
def moveDropped (s : State) (m : Move) : State := { s with rsv := { s.rsv with move := none } }.setEngine m.leaf (gatedEngine m.pmu)

theorem abandonMove_eq (hm : s.rsv.move = some m) (reason v : Nat) : abandonMove s reason v =
    (setMigState (setRsvState (moveDropped s m) m.leaf v) m 5 reason).alarm Al.rsvMigrateAbandoned
      (rsvDetail m.source m.req.place + 256 * reason) := by
  unfold abandonMove
  rw [hm]
  rfl

theorem abandonMove_regs (hm : s.rsv.move = some m) (reason v : Nat) :
    Changes f reserveIx (moveDropped s m) (abandonMove s reason v) := by
  rw [abandonMove_eq hm]
  exact ((setRsvState_changes ..).trans (setMigState_changes ..)).alarm _ _

theorem differs_repeats (hm : s.rsv.move = some m) (hx : m.leaf ≠ m.source) : (differs s m).rsv.move = some (repeatedMove m) ∧
    (∀ e, e ≠ m.leaf → e ≠ m.source → (differs s m).engine e = s.engine e) ∧ (differs s m).engine m.source = s.engine m.source ∧
    (differs s m).engine m.leaf = { s.engine m.leaf with run := .leaf } ∧
    (∀ p, (differs s m).nat Ix.latEngMap p = s.nat Ix.latEngMap p) ∧
    (differs s m).nat Ix.rsvMigDiffs = (s.nat Ix.rsvMigDiffs + 1) % 4294967296 := by
  have hm1 : (s.addWrap Ix.rsvMigDiffs 0 1).rsv.move = some m := (congrArg RsvSt.move (addWrap_rsv ..)).trans hm
  have hcounted : Changes id [Ix.rsvMigDiffs] s (s.addWrap Ix.rsvMigDiffs 0 1) := (Changes.refl ..).addWrap (by decide) _ _
  have hcount : (s.addWrap Ix.rsvMigDiffs 0 1).nat Ix.rsvMigDiffs = (s.nat Ix.rsvMigDiffs + 1) % 4294967296 := nat_addWrap_self ..
  have hmap (p : Nat) : (s.addWrap Ix.rsvMigDiffs 0 1).nat Ix.latEngMap p = s.nat Ix.latEngMap p := hcounted.nat rfl (by decide) p
  have heng := engine_of_engines (hcounted.read State.engines fun _ => rfl)
  unfold differs
  dsimp only
  generalize s.addWrap Ix.rsvMigDiffs 0 1 = r at hm1 hcount hmap heng
  have hdrop := abandonMove_regs (f := id) hm1 1 1
  have hcount2 := (hdrop.nat (ix := Ix.rsvMigDiffs) rfl (by decide) 0).trans (nat_of_dict rfl ..) |>.trans hcount
  have hmap2 (p : Nat) := ((hdrop.nat (ix := Ix.latEngMap) rfl (by decide) p).trans (nat_of_dict rfl ..)).trans (hmap p)
  have heng2 (e : Fin 16) (hl : e ≠ m.leaf) : (abandonMove r 1 1).engine e = s.engine e :=
    (engine_of_engines (hdrop.read State.engines fun _ => rfl) e).trans ((engine_setEngine_ne { r with rsv := { r.rsv with move := none } } hl _).trans (heng e))
  generalize abandonMove r 1 1 = u at hcount2 hmap2 heng2
  generalize hg : ({ s.engine m.leaf with run := .leaf } : Engine) = g
  have hset := setRsvState_changes (f := id) (u.setEngine m.leaf g) m.leaf 3
  have heng3 := engine_of_engines (hset.read State.engines fun _ => rfl)
  have hmap3 (p : Nat) := (hset.nat (ix := Ix.latEngMap) rfl (by decide) p).trans (nat_of_dict rfl ..) |>.trans (hmap2 p)
  have hcount3 := (hset.nat (ix := Ix.rsvMigDiffs) rfl (by decide) 0).trans (nat_of_dict rfl ..) |>.trans hcount2
  generalize setRsvState (u.setEngine m.leaf g) m.leaf 3 = v at heng3 hmap3 hcount3
  let v' : State := { v with rsv := { v.rsv with move := some (repeatedMove m) } }
  have hmig := setMigState_changes (f := id) v' (repeatedMove m) 1 1
  have heng4 := engine_of_engines (hmig.read State.engines fun _ => rfl)
  refine ⟨congrArg RsvSt.move (hmig.read State.rsv fun _ => rfl), fun e hl _ => ?_, ?_, ?_, fun p => ?_, ?_⟩
  · exact (heng4 e).trans ((heng3 e).trans ((engine_setEngine_ne u hl g).trans (heng2 e hl)))
  · exact (heng4 _).trans ((heng3 _).trans ((engine_setEngine_ne u hx.symm g).trans (heng2 _ hx.symm)))
  · exact (heng4 _).trans ((heng3 _).trans (engine_setEngine_self u m.leaf g))
  · exact (hmig.nat rfl (by decide) p).trans (hmap3 p)
  · exact (hmig.nat rfl (by decide) 0).trans hcount3

/-- A frame whose other has another CRC-32, in a shadow tick: the copy begins again. -/
theorem notePost_differs {leaf : Bool} {k tag : Nat} {ws : List Word} {x : Bool × Nat × Nat × Word} (hm : s.rsv.move = some m)
    (hx : m.leaf ≠ m.source) (hkind : m.kind = .warm) (hstep : m.step = .copied) (htx : m.tx ≤ s.clk.tick) (htick : s.clk.tick < m.tx + 2)
    (hcheck : s.flag Ix.rsvShadowCheck = true) (hforce : m.req.force = false) (hrep : m.repeated = false)
    (hfind : m.posts.find? (fun x => x.1 == !leaf && x.2.1 == k && x.2.2.1 == tag) = some x) (hcrc : x.2.2.2 ≠ crc32 (wordBytes ws)) :
    let t := notePost s leaf k tag ws
    t.rsv.move = some (repeatedMove m) ∧ (∀ e, e ≠ m.leaf → e ≠ m.source → t.engine e = s.engine e) ∧
      t.engine m.source = s.engine m.source ∧ t.engine m.leaf = { s.engine m.leaf with run := .leaf } ∧
      t.nat Ix.latEngMap m.req.place.val = s.nat Ix.latEngMap m.req.place.val ∧
      t.nat Ix.rsvMigDiffs = (s.nat Ix.rsvMigDiffs + 1) % 4294967296 := by
  intro t
  let m1 : Move := { m with posts := m.posts.filter (fun y => y != x) }
  let s1 : State := { s with rsv := { s.rsv with move := some m1 } }
  have hgo : (m.kind == .warm && m.step == .copied && decide (m.tx ≤ s.tick) && decide (s.tick < m.tx + 2) && s.flag Ix.rsvShadowCheck) =
      true := by
    rw [hkind, hstep, decide_eq_true htx, decide_eq_true htick, hcheck]
    rfl
  have ht : t = shadowDiffers s1 m1 := by
    change notePost s leaf k tag ws = _
    unfold notePost
    rw [hm]
    dsimp only
    rw [if_pos hgo, hfind]
    exact if_neg hcrc
  rw [ht, shadowDiffers_first (s := s1) (m := m1) hforce hrep]
  obtain ⟨hmove, hothers, hsource, hleaf, hmap, hcount⟩ := differs_repeats (s := s1) (m := m1) rfl hx
  exact ⟨hmove, hothers, hsource, hleaf, hmap _, hcount⟩

/-! ### Cutover and flips (R380 to R383) -/

theorem moveCutover_eq (hm : s.rsv.move = some m) (hkind : m.kind = .warm) (hstep : m.step = .copied) (htick : m.tx + 2 ≤ s.clk.tick) :
    exec .moveCutover s = .next (finishMove (flipMap s m) m (sourceAfter s m)) := by
  have hgo : ¬ (m.step != .copied || m.kind != .warm || decide (s.tick < m.tx + 2)) = true := by
    rw [hstep, hkind, decide_eq_false (Nat.not_lt.mpr htick)]
    decide
  change execMoveCutover s = _
  unfold execMoveCutover
  rw [hm]
  exact congrArg Host.Outcome.next (if_neg hgo)

/-- The leaf of a cold or quiet move, prepared and IDLE. -/
def idleLeaf (s : State) (m : Move) : State := s.setEngine m.leaf { preparedLeaf s m with run := .idle }

theorem coldMoveFlip_eq (hm : s.rsv.move = some m) (hkind : m.kind = .cold) (hstep : m.step ≠ .preparing) (htick : m.tx ≤ s.clk.tick) :
    exec .coldMoveFlip s =
      .next (finishMove (startPlace (flipMap (idleLeaf s m) m) m.req.place true) m (sourceAfter s m)) := by
  have hgo : ¬ (m.kind != .cold || m.step == .preparing || decide (s.tick < m.tx)) = true := by
    rw [hkind, beq_eq_false_iff_ne.mpr hstep, decide_eq_false (Nat.not_lt.mpr htick)]
    decide
  change execColdMoveFlip s = _
  unfold execColdMoveFlip
  rw [hm]
  exact congrArg Host.Outcome.next (if_neg hgo)

theorem quietMoveFlip_eq (hm : s.rsv.move = some m) (hkind : m.kind = .quiet) (hready : s.isGated = true ∨ m.step ≠ .preparing)
    (htick : m.tx ≤ s.clk.tick) : exec .quietMoveFlip s = .next (finishMove (flipMap (idleLeaf s m) m) m (sourceAfter s m)) := by
  have hprep : (!s.isGated && m.step == .preparing) = false := by
    rcases hready with h | h
    · rw [h]
      rfl
    · rw [beq_eq_false_iff_ne.mpr h, Bool.and_false]
  have hgo : ¬ (m.kind != .quiet || (!s.isGated && m.step == .preparing) || decide (s.tick < m.tx)) = true := by
    rw [hkind, hprep, decide_eq_false (Nat.not_lt.mpr htick)]
    decide
  change execQuietMoveFlip s = _
  unfold execQuietMoveFlip
  rw [hm]
  exact congrArg Host.Outcome.next (if_neg hgo)

/-- What a flip comes to, with the leaf's engine as it stands. -/
theorem flipMap_took (hx : m.leaf ≠ m.source) (hqueue : s.rsv.queue = []) (hplace : placeOf s m.leaf ≠ some m.req.place) (v : Nat) :
    Took s (finishMove (flipMap s m) m v) m ∧ (finishMove (flipMap s m) m v).engine m.leaf = s.engine m.leaf := by
  have hflip := flipMap_changes s m
  obtain ⟨htook, hleaf⟩ := finishMove_took hx ((congrArg RsvSt.queue (hflip.read State.rsv fun _ => rfl)).trans hqueue)
    (fun e _ hs => flipMap_engine s hs) (flipMap_place hplace) (by rw [flipMap_source]; rfl) (hflip.nat rfl (by decide) 0) v
  exact ⟨htook, hleaf.trans (flipMap_engine s hx)⟩

/-- The same of a move whose leaf has been prepared IDLE. -/
theorem Took.of_idleLeaf (h : Took (idleLeaf s m) t m) : Took s t m :=
  { h with others := fun e hl hs => (h.others e hl hs).trans (engine_setEngine_ne s hl _) }

theorem idleLeaf_form {im : Image} (h : (s.engine m.source).image = some im) : ((idleLeaf s m).engine m.leaf).form = (.idle, some im) := by
  have himage := congrArg Prod.snd (preparedLeaf_form h)
  have hself : (idleLeaf s m).engine m.leaf = { preparedLeaf s m with run := .idle } := engine_setEngine_self ..
  rw [hself]
  exact congrArg (Prod.mk EngRun.idle) himage

theorem quietMove_took {im : Image} (hx : m.leaf ≠ m.source) (hqueue : s.rsv.queue = []) (hplace : placeOf s m.leaf ≠ some m.req.place)
    (him : (s.engine m.source).image = some im) (v : Nat) :
    Took s (finishMove (flipMap (idleLeaf s m) m) m v) m ∧
      ((finishMove (flipMap (idleLeaf s m) m) m v).engine m.leaf).form = (.idle, some im) := by
  obtain ⟨htook, hleaf⟩ := flipMap_took (s := idleLeaf s m) hx hqueue hplace v
  exact ⟨htook.of_idleLeaf, by rw [hleaf]; exact idleLeaf_form him⟩

theorem startEngine_starts {e : Engine} {im : Image} (h : e.image = some im) (clear : Bool) :
    (startEngine clear e).run = .running ∧ (startEngine clear e).pc = 0 ∧ (startEngine clear e).image = some im :=
  ⟨rfl, rfl, (congrArg Prod.snd (landPort_form e.port e)).trans h⟩

/-- A cold move: the leaf starts at bundle 0 with the image. -/
theorem coldMove_took {im : Image} (hx : m.leaf ≠ m.source) (hqueue : s.rsv.queue = []) (hplace : placeOf s m.leaf ≠ some m.req.place)
    (him : (s.engine m.source).image = some im) (v : Nat) :
    let t := finishMove (startPlace (flipMap (idleLeaf s m) m) m.req.place true) m v
    Took s t m ∧ (t.engine m.leaf).run = .running ∧ (t.engine m.leaf).pc = 0 ∧ (t.engine m.leaf).image = some im := by
  have hflip := flipMap_changes (idleLeaf s m) m
  have hmap := flipMap_place (s := idleLeaf s m) (m := m) hplace
  have hsource := flipMap_source (idleLeaf s m) m
  have hothers {e : Fin 16} (hl : e ≠ m.leaf) (hs : e ≠ m.source) : (flipMap (idleLeaf s m) m).engine e = s.engine e :=
    (flipMap_engine (idleLeaf s m) hs).trans (engine_setEngine_ne s hl _)
  have himage : ((flipMap (idleLeaf s m) m).engine m.leaf).image = some im := by
    rw [flipMap_engine _ hx]
    exact congrArg Prod.snd (idleLeaf_form him)
  have hq : (flipMap (idleLeaf s m) m).rsv.queue = [] := (congrArg RsvSt.queue (hflip.read State.rsv fun _ => rfl)).trans hqueue
  have hcount : (flipMap (idleLeaf s m) m).nat Ix.rsvMigrations = s.nat Ix.rsvMigrations :=
    (hflip.nat rfl (by decide) 0).trans (nat_of_dict rfl ..)
  generalize flipMap (idleLeaf s m) m = r at hmap hsource hothers himage hq hcount
  have hof : engineOf r m.req.place = m.leaf := by
    unfold engineOf
    rw [hmap]
    exact Fin.ext (by simp [Fin.ofNat])
  have hstart : (startPlace r m.req.place true).engine m.leaf = startEngine true (r.engine m.leaf) := by
    have h := startPlace_engine_self (s := r) (p := m.req.place) true
    rwa [hof] at h
  have hne {e : Fin 16} (hl : e ≠ m.leaf) : (startPlace r m.req.place true).engine e = r.engine e :=
    startPlace_engine_ne true (by rw [hof]; exact hl)
  have hruns : Changes forgetRuns [] r (startPlace r m.req.place true) := startPlace_runs ..
  obtain ⟨htook, hleaf⟩ := finishMove_took (s := s) (r := startPlace r m.req.place true) hx
    ((congrArg RsvSt.queue (hruns.read State.rsv fun _ => rfl)).trans hq) (fun e hl hs => (hne hl).trans (hothers hl hs))
    ((hruns.nat rfl (by decide) _).trans hmap) (by rw [hne hx.symm, hsource]; rfl) ((hruns.nat rfl (by decide) 0).trans hcount) v
  intro t
  have ht : t.engine m.leaf = startEngine true (r.engine m.leaf) := hleaf.trans hstart
  rw [ht]
  exact ⟨htook, startEngine_starts himage true⟩

end

end Sys2Proof.Machine
end

section
open Sys2Proof Sys2Proof.Machine

/-- Settles O46: each step of a move, and what every kind of move comes to. -/
theorem movesRunInSteps : Obligations.MovesRunInSteps := by
  unfold Obligations.MovesRunInSteps
  intro s m hm hx hqueue others took
  have htaken {t : State} (h : Took s t m) : took t := ⟨h.others, h.place, h.move, h.leaf, h.source, h.counted⟩
  refine ⟨fun im hstep him => ?_, fun hkind hstep hfits hdone hdly ends => ?_, fun hkind hstep htick hplace => ?_,
    fun leaf k tag ws x hkind hstep htx htick hcheck hforce hrep hfind hcrc => ?_, fun im hkind hstep htick hplace him => ?_,
    fun im hkind hready htick hplace him => ?_⟩
  · obtain ⟨hmove, hothers, hsource, hleaf, hdict⟩ :=
      leafMoved_engines s m { m with step := .prepared, tx := s.tick + 1 } (leafPrepared s m) hx
    obtain ⟨hrun, himage⟩ := form_eq (leafPrepared_form him)
    exact ⟨_, movePrepared_eq hm hstep, hmove, hothers, hsource, (congrArg Engine.image hleaf).trans himage,
      (congrArg Engine.run hleaf).trans hrun, hdict⟩
  · exact ⟨_, moveCopy_eq hm hkind hstep hfits hdone hdly, moveCopied_engines s m ends hx⟩
  · obtain ⟨htook, hleaf⟩ := flipMap_took hx hqueue hplace (sourceAfter s m)
    exact ⟨_, moveCutover_eq hm hkind hstep htick, htaken htook, hleaf⟩
  · exact notePost_differs hm hx hkind hstep htx htick hcheck hforce hrep hfind hcrc
  · obtain ⟨htook, hleaf⟩ := coldMove_took hx hqueue hplace him (sourceAfter s m)
    exact ⟨_, coldMoveFlip_eq hm hkind hstep htick, htaken htook, hleaf⟩
  · obtain ⟨htook, hform⟩ := quietMove_took hx hqueue hplace him (sourceAfter s m)
    exact ⟨_, quietMoveFlip_eq hm hkind hready htick, htaken htook, form_eq hform⟩

end

section
/-! Mirror records that come in order to a STANDBY (R322, R332, R333). -/

namespace Sys2Proof.Machine

section
variable {s t : State} {fr : LinkRec}

/-! ### A record in order -/

theorem applyRecords_done {r : MirRec} (h : applyRecord s r = (true, t)) : applyRecords [r] s = t := by
  rw [applyRecords, h]
  rfl

theorem applyRecords_waits {r : MirRec} (h : applyRecord s r = (false, t)) :
    applyRecords [r] s = t.onPair (fun p => { p with held := p.held ++ [r] }) := by
  rw [applyRecords, h]
  rfl

section
variable (hp : s.paired = true) (hq : s.boot.quiet = false) (hf : fr.first = true) (hg : fr.good = true)
  (hseq : fr.seq = (s.pair.seqIn + 1) % 4294967296)
include hp hq hf hg hseq

/-- A record in order comes to a STANDBY, and is applied (R333). -/
theorem receiveRecord_applied (hr : s.nat Ix.pairRole = 2) (r : MirRec) :
    receiveRecord s fr r = applyRecords [r] (frameTaken s fr.seq) := by
  have hrole : (frameTaken s fr.seq).nat Ix.pairRole = 2 := hr
  have hquiet : (frameTaken s fr.seq).boot.quiet = false := hq
  have hstands : standsBy (frameTaken s fr.seq) = true := Bool.or_eq_true_iff.mpr (Or.inr (beq_iff_eq.mpr hrole))
  have hjoins : ¬ ((frameTaken s fr.seq).nat Ix.pairRole = 1 ∧ (!(frameTaken s fr.seq).pair.snapTaken) = true) := by
    rw [hrole]
    exact fun h => absurd h.1 (by decide)
  unfold receiveRecord
  rw [linkFrame_taken hp hf hg hseq]
  change (if (!true || (frameTaken s fr.seq).boot.quiet || !(standsBy (frameTaken s fr.seq) || _)) = true then _ else _) = _
  rw [hquiet, hstands, Bool.true_or]
  exact if_neg hjoins

theorem record_done (hr : s.nat Ix.pairRole = 2) {r : MirRec} (h : applyRecord (frameTaken s fr.seq) r = (true, t)) :
    receiveRecord s fr r = t :=
  (receiveRecord_applied hp hq hf hg hseq hr r).trans (applyRecords_done h)

theorem record_waits (hr : s.nat Ix.pairRole = 2) {r : MirRec} (h : applyRecord (frameTaken s fr.seq) r = (false, t)) :
    receiveRecord s fr r = t.onPair (fun p => { p with held := p.held ++ [r] }) :=
  (receiveRecord_applied hp hq hf hg hseq hr r).trans (applyRecords_waits h)

end

/-! ### Writes (R332, R333) -/

theorem mirroredWrite_waits {ix sub gen tick : Nat} {v : Val} (hix : isPairObj ix = true) (htick : s.clk.tick < tick) :
    mirroredWrite s ix sub gen tick v = { s with writes := s.writes ++
      [{ ix := ix, sub := sub, val := v, mbox := none, after := tick, gen := some gen, priv := 2 }] } := by
  have hpair : ¬ (!isPairObj ix) = true := by rw [hix]; decide
  exact (if_neg hpair).trans (if_neg (Nat.not_le.mpr htick))

theorem applyRecord_write {gen tick : Nat} {w : WireVal} {v : Val} (hv : valOf w = some v) (hix : isPairObj w.index.toNat = true)
    (htick : s.clk.tick < tick) : applyRecord s (.write gen tick w) = (true, { s with writes := s.writes ++
      [{ ix := w.index.toNat, sub := w.sub, val := v, mbox := none, after := tick, gen := some gen, priv := 2 }] }) := by
  unfold applyRecord
  dsimp only
  rw [hv]
  exact congrArg (Prod.mk true) (mirroredWrite_waits hix htick)

theorem applyRecord_domain {gen tick index sub len : Nat} {hash d : List Byte} (hd : bulkValue s index sub len hash = some d)
    (hix : isPairObj index = true) (htick : s.clk.tick < tick) :
    applyRecord s (.domain gen tick index sub len hash) = (true, { s with writes := s.writes ++
      [{ ix := index, sub := sub, val := .bytes d, mbox := none, after := tick, gen := some gen, priv := 2 }] }) := by
  unfold applyRecord
  dsimp only
  rw [hd]
  exact congrArg (Prod.mk true) (mirroredWrite_waits hix htick)

theorem applyRecord_domain_waits {gen tick index sub len : Nat} {hash : List Byte} (hd : bulkValue s index sub len hash = none) :
    applyRecord s (.domain gen tick index sub len hash) = (false, s) := by
  unfold applyRecord
  dsimp only
  rw [hd]

/-! ### Sets and commits (R332, R333) -/

theorem setSet_shut (s : State) (n : Nat) (x : StageSet) : (setSet s n (some x)).shut = { s.shut with sets := mapPut n x s.shut.sets } := by
  unfold setSet syncStage
  dsimp only
  rw [setNat_shut, setNat_shut, setNat_shut]

theorem setSet_none_shut (s : State) (n : Nat) : (setSet s n none).shut = { s.shut with sets := mapErase n s.shut.sets } := by
  unfold setSet syncStage
  dsimp only
  rw [setNat_shut, setNat_shut, setNat_shut]

theorem setSet_engines (s : State) (n : Nat) (x : Option StageSet) : (setSet s n x).engines = s.engines :=
  (setSet_changes s n x).read State.engines fun _ => rfl

/-- Changes staged into a set that was not open. -/
theorem applyRecord_stage {tick set slot : Nat} {ws : List WireVal} (hset : mapFind set s.shut.sets = none) :
    ∃ t, applyRecord s (.stage tick set slot ws) = (true, t) ∧
      mapFind set t.shut.sets = some { session := 0, changes := (changesOf ws).foldl putChange [] } ∧
      mapFind set t.pair.orphans = some (some slot) ∧ t.shut.pend = s.shut.pend ∧ t.engines = s.engines := by
  let x : StageSet := { session := 0, changes := (changesOf ws).foldl putChange [] }
  let u := setSet s set (some x)
  have hx : applyRecord s (.stage tick set slot ws) = (true, u.onPair (fun p => { p with orphans := mapPut set (some slot) p.orphans })) := by
    unfold applyRecord
    dsimp only
    rw [hset]
  have hshut : u.shut = { s.shut with sets := mapPut set x s.shut.sets } := setSet_shut s set x
  have heng : u.engines = s.engines := setSet_engines s set (some x)
  clear_value u
  have hpend : u.shut.pend = s.shut.pend := (congrArg ShutSt.pend hshut).trans rfl
  have hsets : u.shut.sets = mapPut set x s.shut.sets := congrArg ShutSt.sets hshut
  refine ⟨_, hx, ?_, mapFind_mapPut_self set (some slot) u.pair.orphans, hpend, heng⟩
  change mapFind set u.shut.sets = _
  rw [hsets, mapFind_mapPut_self]

/-- A set that is over. -/
theorem applyRecord_setEnd (s : State) (tick set reason id : Nat) :
    ∃ t, applyRecord s (.setEnd tick set reason id) = (true, t) ∧ mapFind set t.shut.sets = none ∧
      mapFind set t.pair.orphans = none ∧ t.shut.pend = s.shut.pend ∧ t.engines = s.engines := by
  let u := setSet s set none
  have hx : applyRecord s (.setEnd tick set reason id) = (true, u.onPair (fun p => { p with orphans := mapErase set p.orphans })) := rfl
  have hshut : u.shut = { s.shut with sets := mapErase set s.shut.sets } := setSet_none_shut s set
  have heng : u.engines = s.engines := setSet_engines s set none
  clear_value u
  have hpend : u.shut.pend = s.shut.pend := (congrArg ShutSt.pend hshut).trans rfl
  have hsets : u.shut.sets = mapErase set s.shut.sets := congrArg ShutSt.sets hshut
  refine ⟨_, hx, ?_, mapFind_mapErase_self set u.pair.orphans, hpend, heng⟩
  change mapFind set u.shut.sets = none
  rw [hsets, mapFind_mapErase_self]

theorem takeSlot_changes (f : State → State) (s : State) (id tick : Nat) : Changes f pendIx s (takeSlot s id tick) := by
  unfold takeSlot
  split
  · exact ((Changes.refl _ _ s).setNat (by decide) _ _).setNat (by decide) _ _
  · exact Changes.refl ..

/-- A commit of the partner, as the unit keeps it. -/
def mirroredPending (s : State) (id land : Nat) (cs : List Change) : Pending :=
  { id := id, session := 0, tick := land, changes := cs, frozen := false, checked := false
    motion := commitMotion cs, takes := commitTakes (commitBase s) cs, mirrored := true }

/-- The unit's list of pending commits with one more. -/
def withPending (s : State) (p : Pending) : State :=
  { s with shut := { s.shut with pend := s.shut.pend ++ [p], nextId := (p.id + 1) % 4294967296 } }

/-- The commit listed, in a pending slot. -/
def listedCommit (s : State) (p : Pending) : State := syncStage (takeSlot (withPending s p) p.id p.tick)

theorem listedCommit_changes (s : State) (p : Pending) : Changes id pendIx (withPending s p) (listedCommit s p) :=
  (takeSlot_changes id (withPending s p) p.id p.tick).setNat (by decide) _ _

theorem mirroredCommit_waits {id land : Nat} {cs : List Change} (hland : s.clk.tick + 1 < land) :
    mirroredCommit s id land cs = listedCommit s (mirroredPending s id land cs) := by
  have htick : (listedCommit s (mirroredPending s id land cs)).tick = s.clk.tick :=
    congrArg TickSt.tick ((listedCommit_changes s (mirroredPending s id land cs)).read State.clk fun _ => rfl)
  have hlate : ¬ land ≤ (listedCommit s (mirroredPending s id land cs)).tick := by omega
  have hnext : ¬ (land = (listedCommit s (mirroredPending s id land cs)).tick + 1 ∧
      (listedCommit s (mirroredPending s id land cs)).clk.closed.contains 3 = true) := fun h => by omega
  exact (if_neg hlate).trans (if_neg hnext)

theorem applyRecord_commit {tick id set land : Nat} {x : StageSet} (hset : mapFind set s.shut.sets = some x) (hland : s.clk.tick + 1 < land) :
    ∃ t p, applyRecord s (.commit tick id set land) = (true, t) ∧ t.shut.pend = s.shut.pend ++ [p] ∧ p.id = id ∧ p.tick = land ∧
      p.changes = x.changes ∧ p.mirrored = true ∧ t.shut.nextId = (id + 1) % 4294967296 ∧ t.writes = s.writes ∧ t.engines = s.engines := by
  have hx : applyRecord s (.commit tick id set land) = (true, listedCommit s (mirroredPending s id land x.changes)) := by
    unfold applyRecord
    dsimp only
    rw [hset]
    exact congrArg (Prod.mk true) (mirroredCommit_waits hland)
  have h := listedCommit_changes s (mirroredPending s id land x.changes)
  have hshut := h.read State.shut fun _ => rfl
  exact ⟨_, _, hx, congrArg ShutSt.pend hshut, rfl, rfl, rfl, rfl, congrArg ShutSt.nextId hshut, h.read State.writes fun _ => rfl,
    h.read State.engines fun _ => rfl⟩

/-- The partner's result of a commit that has ended here with the same one. -/
theorem applyRecord_commitEnd {tick id code gen g : Nat} (hres : s.pair.results.find? (fun r => r.1 == id) = some (id, code, g)) :
    applyRecord s (.commitEnd tick id code gen) =
      (true, let s1 := s.onPair (fun p => { p with results := p.results.filter (fun q => q.1 != id) })
        if code = 0 ∧ g = s1.nat Ix.shutGen ∧ gen ≠ g then setGen s1 gen else s1) := by
  have hsame : ¬ code ≠ code := fun h => h rfl
  unfold applyRecord mirroredEnd
  dsimp only
  rw [hres]
  exact congrArg (Prod.mk true) (if_neg hsame)

/-! ### Steps and results (R332, R341) -/

/-- A crosspoint that takes the value of the partner's. -/
theorem applyRecord_xpStep {tick xp sample event : Nat} {cur : Int} (hev : event ≠ 2) :
    let x := xpOf s xp
    ∃ t, applyRecord s (.xpStep tick xp sample event cur) = (true, t) ∧
      xpOf t xp = xpSettle { x with cur := cur, rem := if cur = x.tgt then 0 else x.rem } ∧
      (∀ j, j ≠ xp → xpOf t j = xpOf s j) ∧ t.engines = s.engines ∧ t.lat = s.lat := by
  intro x
  refine ⟨setXp s xp (xpSettle { x with cur := cur, rem := if cur = x.tgt then 0 else x.rem }),
    congrArg (Prod.mk true) (if_neg hev), ?_, fun j hj => ?_, setXp_engines .., setXp_lat ..⟩
  · rw [xpOf_setXp, if_pos rfl]
  · rw [xpOf_setXp, if_neg hj]

/-- The places whose results differ (R341). -/
def crcsDiffer (s : State) (cs : List Word) : List Nat :=
  (upFrom 0 16).filter (fun p =>
    let a := mapGet (fun _ => (0 : Word)) p s.pair.crcs
    let b : Word := listGet 0 p cs
    a != 0 && b != 0 && a != b)

/-- Differences counted, place by place. -/
def countDiffs (s : State) (ps : List Nat) : State :=
  ps.foldl (fun u p => (u.addHold Ix.pairWarmDiff p 1).alarm Al.pairWarmDiff p) s

theorem countDiffs_changes (s : State) (ps : List Nat) : Changes id [Ix.pairWarmDiff] s (countDiffs s ps) :=
  (Changes.refl _ _ s).foldl _ fun r p => ((Changes.refl _ _ r).addHold (by decide) p 1).alarm Al.pairWarmDiff p

theorem nodup_upFrom (a n : Nat) : (upFrom a n).Nodup := by
  induction n generalizing a with
  | zero => exact List.nodup_nil
  | succ n ih =>
    refine List.nodup_cons.mpr ⟨fun h => ?_, ih (a + 1)⟩
    have := le_of_mem_upFrom h
    omega

theorem countDiffs_other {ps : List Nat} {p : Nat} (hp : p < 16) (hps : ∀ q ∈ ps, q < 16) (h : p ∉ ps) (s : State) :
    (countDiffs s ps).nat Ix.pairWarmDiff p = s.nat Ix.pairWarmDiff p := by
  unfold countDiffs
  induction ps generalizing s with
  | nil => rfl
  | cons q ps ih =>
    have hq := hps q (List.mem_cons_self ..)
    rw [List.foldl_cons, ih (fun r hr => hps r (List.mem_cons_of_mem _ hr)) (fun hr => h (List.mem_cons_of_mem _ hr)), nat_alarm _ _ _ rfl]
    exact nat_setNat_ne s (objKey_ne_sub (fun k => h (by rw [k]; exact List.mem_cons_self ..)) (by omega) (by omega)) _

theorem countDiffs_counts {ps : List Nat} {p : Nat} (hps : ∀ q ∈ ps, q < 16) (hnd : ps.Nodup) (h : p ∈ ps) (s : State) :
    (countDiffs s ps).nat Ix.pairWarmDiff p = min (s.nat Ix.pairWarmDiff p + 1) 0xFFFFFFFF := by
  induction ps generalizing s with
  | nil => cases h
  | cons q ps ih =>
    obtain ⟨hq, hnd'⟩ := List.nodup_cons.mp hnd
    have hps' : ∀ r ∈ ps, r < 16 := fun r hr => hps r (List.mem_cons_of_mem _ hr)
    have hcons : countDiffs s (q :: ps) = countDiffs ((s.addHold Ix.pairWarmDiff q 1).alarm Al.pairWarmDiff q) ps := rfl
    rw [hcons]
    rcases List.mem_cons.mp h with h | h
    · subst h
      rw [countDiffs_other (hps p (List.mem_cons_self ..)) hps' hq, nat_alarm _ _ _ rfl, nat_addHold_self]
    · have hne : p ≠ q := fun k => hq (by rw [← k]; exact h)
      rw [ih hps' hnd' h, nat_alarm _ _ _ rfl]
      have hp := hps' p h
      have hq16 := hps q (List.mem_cons_self ..)
      have hkept : (s.addHold Ix.pairWarmDiff q 1).nat Ix.pairWarmDiff p = s.nat Ix.pairWarmDiff p :=
        nat_setNat_ne s (objKey_ne_sub hne (by omega) (by omega)) _
      rw [hkept]

/-- The partner's results of a tick, in the unit's hands. -/
def withCrcs (s : State) (tick : Nat) (cs : List Word) : State := { s with pair := { s.pair with theirCrcs := some (tick, cs) } }

theorem applyRecord_placeCrc (s : State) (tick : Nat) (cs : List Word) :
    applyRecord s (.placeCrc tick cs) = (true, withCrcs s tick cs) := rfl

theorem compareCrcs_none (h : s.pair.swap = none) : compareCrcs s = s := by
  unfold compareCrcs
  rw [h]
  split
  · next hs => cases hs
  · rfl

/-- Nothing of the partner's waits to be compared. -/
def crcsTaken (s : State) : State := { s with pair := { s.pair with theirCrcs := none } }

theorem compareCrcs_standby {w : Swap} {cs : List Word} (hw : s.pair.swap = some w) (hc : s.pair.theirCrcs = some (s.pair.crcTick, cs))
    (hr : s.nat Ix.pairRole = 2) : compareCrcs s = countDiffs (crcsTaken s) (crcsDiffer s cs) := by
  have hsame : ¬ s.pair.crcTick ≠ s.pair.crcTick := fun h => h rfl
  have hrole : (countDiffs (crcsTaken s) (crcsDiffer s cs)).nat Ix.pairRole = 2 :=
    ((countDiffs_changes (crcsTaken s) (crcsDiffer s cs)).nat rfl (by decide) 0).trans hr
  have hdoor : (countDiffs (crcsTaken s) (crcsDiffer s cs)).isDoor = false := by
    unfold State.isDoor
    rw [hrole]
    rfl
  have hgo : ¬ (!(crcsDiffer s cs).isEmpty && (countDiffs (crcsTaken s) (crcsDiffer s cs)).flag Ix.pairSwapStrict &&
      (countDiffs (crcsTaken s) (crcsDiffer s cs)).isDoor) = true := by
    rw [hdoor, Bool.and_false]
    decide
  unfold compareCrcs
  rw [hc, hw]
  exact (if_neg hsame).trans (if_neg hgo)

theorem mem_crcsDiffer {p : Nat} {cs : List Word} (hp : p < 16) (ha : mapGet (fun _ => (0 : Word)) p s.pair.crcs ≠ 0)
    (hb : listGet (0 : Word) p cs ≠ 0) (hab : mapGet (fun _ => (0 : Word)) p s.pair.crcs ≠ listGet 0 p cs) : p ∈ crcsDiffer s cs := by
  refine List.mem_filter.mpr ⟨mem_upFrom.mpr (by omega), ?_⟩
  dsimp only
  rw [bne_iff_ne.mpr ha, bne_iff_ne.mpr hb, bne_iff_ne.mpr hab]
  rfl

/-- Results of one tick that differ at a place are counted there. -/
theorem compareCrcs_counts {w : Swap} {tick place : Nat} {cs : List Word} (hw : s.pair.swap = some w) (hr : s.nat Ix.pairRole = 2)
    (htick : tick = s.pair.crcTick) (hplace : place < 16) (ha : mapGet (fun _ => (0 : Word)) place s.pair.crcs ≠ 0)
    (hb : listGet (0 : Word) place cs ≠ 0) (hab : mapGet (fun _ => (0 : Word)) place s.pair.crcs ≠ listGet 0 place cs) :
    (compareCrcs (withCrcs s tick cs)).pair.theirCrcs = none ∧
      (compareCrcs (withCrcs s tick cs)).nat Ix.pairWarmDiff place = min (s.nat Ix.pairWarmDiff place + 1) 0xFFFFFFFF := by
  subst htick
  have hdiff : place ∈ crcsDiffer (withCrcs s s.pair.crcTick cs) cs := mem_crcsDiffer (s := withCrcs s s.pair.crcTick cs) hplace ha hb hab
  have hlt : ∀ q ∈ crcsDiffer (withCrcs s s.pair.crcTick cs) cs, q < 16 := fun q hq => by
    have := mem_upFrom.mp (List.mem_filter.mp hq).1
    omega
  have hnd : (crcsDiffer (withCrcs s s.pair.crcTick cs) cs).Nodup := (nodup_upFrom 0 16).filter _
  rw [compareCrcs_standby (s := withCrcs s s.pair.crcTick cs) (w := w) (cs := cs) hw rfl hr]
  exact ⟨congrArg PairSt.theirCrcs ((countDiffs_changes _ _).read State.pair fun _ => rfl), countDiffs_counts hlt hnd hdiff _⟩

/-! ### BULK frames (R330, R342) -/

section
variable (hp : s.paired = true) (hq : s.boot.quiet = false) (hf : fr.first = true) (hg : fr.good = true)
  (hseq : fr.seq = (s.pair.seqIn + 1) % 4294967296)
include hp hq hf hg hseq

/-- A DOMAIN value comes to a STANDBY that holds no record for it. -/
theorem bulk_domain (hr : s.nat Ix.pairRole = 2) (hheld : s.pair.held = []) (index sub : Nat) (data : List Byte) :
    exec (.bulk fr (.domain index sub data)) s = .next { s with pair := { s.pair with
      seqIn := fr.seq, frameOk := true, parts := s.pair.parts ++ [.domain index sub data], held := [] } } := by
  have hrole : (frameTaken s fr.seq).nat Ix.pairRole = 2 := hr
  have hquiet : (frameTaken s fr.seq).boot.quiet = false := hq
  have hstands : standsBy (frameTaken s fr.seq) = true := Bool.or_eq_true_iff.mpr (Or.inr (beq_iff_eq.mpr hrole))
  have hjoins : ¬ ((frameTaken s fr.seq).nat Ix.pairRole = 1 ∧ (!(frameTaken s fr.seq).pair.snapTaken) = true) := by
    rw [hrole]
    exact fun h => absurd h.1 (by decide)
  have hnone : applyRecords s.pair.held { s with pair := { s.pair with
      seqIn := fr.seq, frameOk := true, parts := s.pair.parts ++ [.domain index sub data], held := [] } } = { s with pair := { s.pair with
      seqIn := fr.seq, frameOk := true, parts := s.pair.parts ++ [.domain index sub data], held := [] } } := by
    rw [hheld]
    rfl
  change execBulk fr (.domain index sub data) s = _
  unfold execBulk receiveBulk
  dsimp only
  rw [linkFrame_taken hp hf hg hseq]
  change Host.Outcome.next (if (!true || (frameTaken s fr.seq).boot.quiet || !standsBy (frameTaken s fr.seq)) = true then _ else _) = _
  rw [hquiet, hstands]
  exact congrArg Host.Outcome.next ((if_neg hjoins).trans hnone)

end

/-- A snapshot begins for a unit that joins. -/
theorem bulk_start (hp : s.paired = true) (hq : s.boot.quiet = false) (hf : fr.first = true) (hg : fr.good = true)
    (hr : s.nat Ix.pairRole = 1) (htries : s.pair.tries ≤ 3) (gen : Nat) :
    exec (.bulk fr (.start gen)) s = .next { s with pair := { s.pair with
      seqIn := fr.seq, frameOk := true, parts := [.start gen], held := [], snapTaken := false } } := by
  have hok : (fr.good && (fr.seq == (s.pair.seqIn + 1) % 4294967296 || true)) = true := by
    rw [hg, Bool.or_true]
    rfl
  have hlink : linkFrame s fr true = (true, frameTaken s fr.seq) := by
    unfold linkFrame
    rw [hp, hf]
    dsimp only [Bool.not_true, if_true]
    rw [hok]
    rfl
  have hrole : (frameTaken s fr.seq).nat Ix.pairRole = 1 := hr
  have hquiet : (frameTaken s fr.seq).boot.quiet = false := hq
  have hstands : standsBy (frameTaken s fr.seq) = true := Bool.or_eq_true_iff.mpr (Or.inl (beq_iff_eq.mpr hrole))
  have hjoining : (s.nat Ix.pairRole == 1 && decide (s.pair.tries ≤ 3)) = true := by
    rw [hr, decide_eq_true htries]
    rfl
  change execBulk fr (.start gen) s = _
  unfold execBulk receiveBulk
  dsimp only
  rw [hjoining, hlink]
  change Host.Outcome.next (if (!true || (frameTaken s fr.seq).boot.quiet || !standsBy (frameTaken s fr.seq)) = true then _ else _) = _
  rw [hquiet, hstands]
  rfl

end

end Sys2Proof.Machine
end

section
open Sys2Proof Sys2Proof.Machine

/-- Settles O41: each record that comes in order to a STANDBY is applied, and a snapshot begins for a unit that joins. -/
theorem mirrorRecordsAreApplied : Obligations.MirrorRecordsAreApplied := by
  unfold Obligations.MirrorRecordsAreApplied
  intro s f hp hq hf hg hseq p1 s1
  refine ⟨fun hr => ⟨fun gen tick w v hv hix htick => ?_, fun tick set slot ws hset => ?_, fun tick set reason id => ?_,
    fun tick id set land x hset hland => ?_, fun tick id e g hres => ?_, fun tick xp sample event cur hev => ?_,
    fun tick place base words => ?_, fun tick crcs => ⟨fun hw => ?_, fun w place hw htick hplace ha hb hab => ?_⟩,
    fun gen tick index sub len hash hd => ?_, fun gen tick index sub len hash d hd hix htick => ?_, fun index sub data hheld => ?_⟩,
    fun hr htries gen => bulk_start hp hq hf hg hr htries gen⟩
  · exact congrArg Host.Outcome.next (record_done hp hq hf hg hseq hr (applyRecord_write hv hix htick))
  · obtain ⟨t, ht, hall⟩ := applyRecord_stage (s := frameTaken s f.seq) (tick := tick) (slot := slot) (ws := ws) hset
    exact ⟨t, congrArg Host.Outcome.next (record_done hp hq hf hg hseq hr ht), hall⟩
  · obtain ⟨t, ht, hall⟩ := applyRecord_setEnd (frameTaken s f.seq) tick set reason id
    exact ⟨t, congrArg Host.Outcome.next (record_done hp hq hf hg hseq hr ht), hall⟩
  · obtain ⟨t, p, ht, hall⟩ := applyRecord_commit (s := frameTaken s f.seq) (tick := tick) (id := id) hset hland
    exact ⟨t, p, congrArg Host.Outcome.next (record_done hp hq hf hg hseq hr ht), hall⟩
  · exact congrArg Host.Outcome.next (record_done hp hq hf hg hseq hr (applyRecord_commitEnd hres))
  · obtain ⟨t, ht, hall⟩ := applyRecord_xpStep (s := frameTaken s f.seq) (tick := tick) (xp := xp) (sample := sample) (cur := cur) hev
    exact ⟨t, congrArg Host.Outcome.next (record_done hp hq hf hg hseq hr ht), hall⟩
  · exact congrArg Host.Outcome.next (record_done hp hq hf hg hseq hr rfl)
  · have hdone := record_done hp hq hf hg hseq hr (applyRecord_placeCrc (frameTaken s f.seq) tick crcs)
    exact congrArg Host.Outcome.next ((congrArg compareCrcs hdone).trans (compareCrcs_none hw))
  · have hdone := record_done hp hq hf hg hseq hr (applyRecord_placeCrc (frameTaken s f.seq) tick crcs)
    exact ⟨_, congrArg Host.Outcome.next (congrArg compareCrcs hdone),
      compareCrcs_counts (s := frameTaken s f.seq) hw hr htick hplace ha hb hab⟩
  · exact congrArg Host.Outcome.next (record_waits hp hq hf hg hseq hr (applyRecord_domain_waits hd))
  · exact congrArg Host.Outcome.next (record_done hp hq hf hg hseq hr (applyRecord_domain hd hix htick))
  · rw [bulk_domain hp hq hf hg hseq hr hheld, ← hheld]

end

section
/-! Why a counted HEARTBEAT does not make candidate 5 present (R281): its coarse frequency monitor may have failed, and its verdict
stands until a 1-second average passes (log 169). -/

namespace Sys2Proof.Machine

/-- Half of a pair that runs and is not door-holder. -/
def pairedUnit : State :=
  { State.reset.setNat Ix.pairMode 0 1 with boot := { BootSt.reset with stage := 7 } }

/-- The same unit once a 1-second average of candidate 5 has left the coarse window of 500 ppm. -/
def coarseFailed : State := refFails pairedUnit 5 true

/-- A HEARTBEAT of the partner: its PAIR_ID, and the other seat. -/
def partnerBeat : Beat :=
  { tick := 0, sec := 0, ns := 0, role := 0x10, quality := 0, gen := 0, pairId := 0, rate := 0, len := 0, lanes := 0, planCrc := 0
    ack := 0, uniqueId := 0, swapTick := 0 }

/-- Candidate 5 is absent in the state that follows. -/
def partnerAbsent : Host.Outcome State Fault Refusal → Bool
  | .next t => !(candOf t 5).present
  | _ => false

theorem coarseFailed_paired : coarseFailed.paired = true := by decide +kernel

theorem heartbeat_coarseFailed : partnerAbsent (exec (.heartbeat partnerBeat true 0 7) coarseFailed) = true := by decide +kernel

end Sys2Proof.Machine

open Sys2Proof Sys2Proof.Machine

/-- Refutes O40: after a counted HEARTBEAT candidate 5 is not present where its coarse frequency monitor has failed, since that
verdict stands until a 1-second average passes (R281; `refPresent` only notes the activity). -/
theorem not_heartbeatsAndLanesAreWatched : ¬ Obligations.HeartbeatsAndLanesAreWatched := by
  unfold Obligations.HeartbeatsAndLanesAreWatched
  intro h
  obtain ⟨hbeat, -⟩ := h coarseFailed coarseFailed_paired
  have hseat : partnerBeat.role.toNat / 16 % 2 ≠ coarseFailed.nat Ix.seat := by decide +kernel
  have hidle : nextQueued (hpTake coarseFailed) = none := by decide +kernel
  obtain ⟨t, ht, -, -, -, -, -, -, -, -, -, hpresent, -⟩ :=
    hbeat partnerBeat 0 7 (by decide +kernel) (by decide +kernel) hseat (by decide +kernel) (Or.inr hidle)
  have habsent : (!(candOf t 5).present) = true := by
    have hall := heartbeat_coarseFailed
    rw [ht] at hall
    exact hall
  rw [hpresent] at habsent
  exact absurd habsent (by decide)

end
